-- ==== Sys2Proof/Word.lean ====
section
/-! DEFINITION. The word types of the model: a byte, and a 64-bit register word (R12: a register is 32 or 64 bits wide;
a 32-bit register is held in the low half of a word). -/

namespace Sys2Proof

/-- One byte of a memory or of a packet. -/
abbrev Byte := BitVec 8

/-- One CSR register, read whole. -/
abbrev Word := BitVec 64

end Sys2Proof
end

