-- ==== Sys2Proof/Syntax.lean ====
section
/-! DEFINITION. The commands of the block, one constructor per row of spec/opcode_table.json, and the plain-data types of
their operands.  A command carries what its event brings from outside the model: an address, a value, the writer's
identity, the device time of the event, and the outcome of a physical measurement the spec leaves to the part.
An index is a Fin of its range in R14, so no command names a unit that does not exist. -/

namespace Sys2Proof

/-- A requester's identity (R456): 0-15 partitions, 16 Gaffer firmware, 17 Marver, 18 Lehr A, 19 Lehr B, 20 a crucible internal agent. -/
abbrev Ident := Fin 21

/-- A unit that receives a reset line (R557). -/
inductive Block where
  | core (c : Fin 96)
  | die (d : Fin 12)
  | crucible (k : Fin 4)
  | channel (h : Fin 64)
  | sensorDie
  | hostDie
  deriving DecidableEq, Repr

/-- What the error-correcting code makes of one stored line or word as it is read: a physical outcome (R94, R484, R525). -/
inductive Ecc where
  | clean
  | corrected
  | uncorrectable
  deriving DecidableEq, Repr

/-- What a controller captures as it freezes (R532, R548): the failing line and syndrome of a DATA freeze, the queue state, the last
command, and the dirty cache lines lost (R533). -/
structure FreezeInfo where
  syndrome : BitVec 32
  rdq : BitVec 10
  wrq : BitVec 10
  lastCmd : BitVec 8
  frzLost : BitVec 32
  deriving DecidableEq, Repr


/-- What a fence closes (R466): a core, a memory site, the controller of one channel (R534), a CSR block (by its order in R20), a crucible, or a
lateral pair. -/
inductive Target where
  | core (c : Fin 96)
  | memSite (m : Fin 16)
  | channel (h : Fin 64)
  | block (b : Fin 15)
  | crucible (k : Fin 4)
  | pair (q : Fin 4)
  deriving DecidableEq, Repr

/-- What the check bits of the scratchpad words an instruction reads make of them (R94): clean, a number of corrected
words, or an uncorrectable word (its index). -/
inductive SpEcc where
  | clean
  | corrected (n : BitVec 16)
  | uncorrectable (w : Fin 786432)
  deriving DecidableEq, Repr

/-- What the code of a cached line makes of an access (R484): clean, corrected, or uncorrectable in a clean line (refetched) or in a dirty or staged one. -/
inductive CacheEcc where
  | clean
  | corrected
  | refetched
  | lost
  deriving DecidableEq, Repr

/-- What the codes make of the lines an access touches: every line clean, the DRAM line at a device address corrected, or uncorrectable with what the
controller then captures (R525, R526), or the line in the system cache in error (R484). -/
inductive MemEcc where
  | clean
  | corrected (addr : BitVec 48)
  | uncorrectable (addr : BitVec 48) (info : FreezeInfo)
  | cache (addr : BitVec 48) (e : CacheEcc)
  deriving DecidableEq, Repr

/-- What one instruction meets in the memories it touches: the scratchpad words, the DRAM lines, and whether a residue or parity check
finds an upset in the accumulators it reads (R88, R94, R98, R526). -/
structure Phys where
  sp : SpEcc
  mem : MemEcc
  upset : Bool
  deriving DecidableEq, Repr

/-- Who writes a core's debug registers or its window: a requester by its identity, or the debug access port (R100, R123, R186, R206). -/
inductive Accessor where
  | ident (who : Ident)
  | debugPort
  deriving DecidableEq, Repr

/-- How a lateral module's training or retraining ends (R478): at 64 lanes, at 32 (the upper half or the lower), or not. -/
inductive TrainRes where
  | full
  | narrow (upper : Bool)
  | fail
  deriving DecidableEq, Repr

/-- The lanes of a module as training leaves them (R501): redundant lanes in use, lowest failed lane and failed lanes, for each direction. -/
structure LaneReport where
  repA : BitVec 3
  repB : BitVec 3
  firstA : BitVec 7
  firstB : BitVec 7
  failA : BitVec 7
  failB : BitVec 7
  deriving DecidableEq, Repr

/-- How a vertical port's bond test ends (R476): remapped, half-width with the upper groups or the lower, or lost. -/
inductive VportRes where
  | remapped
  | half (upper : Bool)
  | lost
  deriving DecidableEq, Repr


/-- The Punty packet of a Blowpipe DATA packet (R467, R469, R601): a WR or a REC, its address, the REC's extension (tile state, block and rows), its
128-byte line with its byte mask, and its CRC field. -/
structure BpData where
  isRec : Bool
  cls : BitVec 2
  addr : BitVec 48
  tile : BitVec 88
  base : BitVec 48
  rowsM1 : BitVec 16
  bytes : List (Option (BitVec 8))
  crc : BitVec 32
  deriving DecidableEq, Repr

/-- A Blowpipe packet: the envelope's fields (R601) and, for DATA, its Punty packet. -/
structure BpPacket where
  kind : BitVec 8
  src : BitVec 8
  dst : BitVec 8
  chan : BitVec 8
  gen : BitVec 32
  count : BitVec 32
  crc : BitVec 32
  data : Option BpData
  deriving DecidableEq, Repr

/-- The lanes of a Blowpipe port that train (R602): all eight, or one half (the upper half or the lower). -/
inductive BpLanes where
  | all
  | half (upper : Bool)
  deriving DecidableEq, Repr

/-- An instruction of the JTAG port (R659). -/
inductive JtagIr where
  | idcode
  | bypass
  | boundaryScan
  | gated (code : Nat)
  deriving DecidableEq, Repr

/-- The nodes of the watch ring (R31). -/
inductive RingNode where
  | lehrA
  | crucible (k : Fin 4)
  | compute (d : Fin 12)
  | hostDie
  | lehrB
  | sensorDie
  deriving DecidableEq, Repr

/-- What the end of a checkpoint save meets: an upset of an accumulator the image takes (R88), and the check bits of the scratchpad it reads (R94). -/
structure SaveMeets where
  upset : Bool
  ecc : SpEcc
  deriving DecidableEq, Repr

/-- One access to a word of a core window: the word written (none: a read) and what its check bits make of the word met there (R94, R100). -/
structure WindowWord where
  write : Option (BitVec 512)
  ecc : SpEcc
  deriving DecidableEq, Repr

/-- Where an access to BAR2 falls in a ring's page (R21, R326): the byte offset, and whether it is an aligned 32-bit access. -/
structure Bar2Place where
  page : BitVec 12
  aligned32 : Bool
  deriving DecidableEq, Repr

/-- What an access meets: the codes of the lines of memory it touches and the check bits of the scratchpad words (R94, R484, R525). -/
structure CopyEcc where
  mem : MemEcc
  sp : SpEcc
  deriving DecidableEq, Repr

/-- The agent of a crucible that sends under its node ID (R456, R464). -/
inductive Agent where
  | collective
  | manager
  | copier
  deriving DecidableEq, Repr

/-- What a read asks for: its length, the command it is made for where the host die makes it for one (R456, R515), and the agent of an internal node. -/
structure ReadFor where
  len : BitVec 8
  cmd : Option (BitVec 32)
  agent : Agent
  deriving DecidableEq, Repr

/-- Whom a write is for: the command that owns it, whether it is staged for that command (R467), the agent of an internal node, and what it meets. -/
structure WriteFor where
  cmd : Option (BitVec 32)
  staged : Bool
  agent : Agent
  ecc : CopyEcc
  deriving DecidableEq, Repr

/-- The width of a CSR access, and the command it is made for where the host die makes it for one (R515). -/
structure CsrFor where
  wide : Bool
  cmd : Option (BitVec 32)
  deriving DecidableEq, Repr

/-- When a staging flip happens, and what it meets in the DRAM lines that it merges into (R382, R667). -/
structure FlipAt where
  t : Nat
  ecc : MemEcc
  deriving DecidableEq, Repr

/-- The header of a packet (R467). -/
structure PacketHead where
  type : BitVec 8
  flags : BitVec 8
  cls : BitVec 8
  len : BitVec 8
  node : BitVec 8
  ident : BitVec 8
  tag : BitVec 16
  addr : BitVec 48
  dest : BitVec 8
  dl : BitVec 32
  tspec : BitVec 64
  deriving DecidableEq, Repr

/-- The commands of the block: one constructor per row of the opcode table. -/
inductive Instr where
  /-- FRAME_BOUNDARY (R38). Device time reaches an active grid point of the frame timer, and the device starts a new frame. -/
  | frameBoundary (ecc : MemEcc) (t : Nat)
  /-- FRAME_TIMER_ENABLE (R37). A write that sets DEV_FRMCTL.EN starts the timer, or cancels a pending stop. -/
  | frameTimerEnable (who : Ident) (t : Nat)
  /-- FRAME_TIMER_DISABLE (R42). A write that clears DEV_FRMCTL.EN stops the timer after the next boundary. -/
  | frameTimerDisable (who : Ident)
  /-- FRMPER_WRITE (R40). A write of DEV_FRMPER is range-checked and then takes effect or becomes pending. -/
  | frmperWrite (who : Ident) (v : BitVec 32)
  /-- FRMPHASE_WRITE (R41). A write of DEV_FRMPHASE takes effect at once, or becomes pending. -/
  | frmphaseWrite (who : Ident) (v : BitVec 64)
  /-- FRMCNT_WRITE (R40). A write of DEV_FRMCNT is accepted only while the timer is stopped, and otherwise sets BADCNT. -/
  | frmcntWrite (who : Ident) (v : BitVec 32)
  /-- CSR_WRITE (R10). A write to a register that has no behaviour of its own updates its fields under their access codes. -/
  | csrWrite (acc : Accessor) (off : BitVec 28) (wide : Bool) (v : BitVec 64) (t : Nat)
  /-- DEVICE_TIME_ADJUST (R256). Under gPTP steering, Lehr A adds or withholds a single 1 ns increment of device time at the requested rate. -/
  | deviceTimeAdjust (add : Bool) (t : Nat)
  /-- CORE_RESET_RELEASE (R117). Lehr A releases a core's reset, and the core enters REPAIR and applies the column map. -/
  | coreResetRelease (core : Fin 96)
  /-- REPAIR_DONE (R117). The map is applied and the memories are cleared, and the core enters SELFTEST or DISABLED. -/
  | repairDone (core : Fin 96)
  /-- SELFTEST_DONE (R640). The full reheat pass run by SELFTEST ends, and the core goes to HELD or to QUARANTINE. -/
  | selftestDone (core : Fin 96) (fail : Option (BitVec 10)) (t : Nat)
  /-- HELD_RELEASE (R663). Lehr A releases a HELD core to IDLE once CMPPASS is 1 and HOLD is 0. -/
  | heldRelease (core : Fin 96)
  /-- QUARANTINE_RESTART (R663). Lehr A starts the restart of a quarantined core, which enters RESET. -/
  | quarantineRestart (core : Fin 96) (t : Nat)
  /-- DISPATCH (R378). Bench dispatches a run to a core: it loads the slots, clears the status registers and sets CORE_CMD. -/
  | dispatch (ecc : MemEcc) (t : Nat)
  /-- PARTITION_CLEAR_DONE (R110). The 1,536-step clear of the core memories that a partition change requires completes, and the program may issue. -/
  | partitionClearDone (core : Fin 96)
  /-- CHECKPOINT_RESUME (R175). A dispatch with a checkpoint image checks the image and restores the core state. -/
  | checkpointResume (core : Fin 96) (ecc : MemEcc)
  /-- PROGRAM_END (R117). All five streams reach END, and the core reports completion to Bench. -/
  | programEnd (core : Fin 96) (t : Nat)
  /-- FAULT_ACK (R117). Bench acknowledges a fault, and the core returns from FAULTED to IDLE. -/
  | faultAck (core : Fin 96)
  /-- KILL (R118). Bench kills a program: the engines stop issuing and rows in flight are abandoned. -/
  | kill (core : Fin 96) (t : Nat)
  /-- KILL_SETTLED (R117). The streams have stopped and the transactions have settled after a kill, and the core enters IDLE. -/
  | killSettled (core : Fin 96)
  /-- CHECKPOINT_REQUEST (R172). Bench requests a checkpoint, and the core sets the target marker or refuses. -/
  | checkpointRequest (core : Fin 96) (t : Nat)
  /-- CHECKPOINT_BOUNDARY (R172). Every stream stops at the target or has ended, and the core enters CKPT and starts the save. -/
  | checkpointBoundary (core : Fin 96) (t : Nat)
  /-- CHECKPOINT_SAVE_DONE (R174). The checkpoint image is completely written, and the core reports it to Bench. -/
  | checkpointSaveDone (core : Fin 96) (meets : SaveMeets) (t : Nat)
  /-- HALTREQ (R123). A write of CORE_CTL.HALTREQ halts a running core when debug is unlocked, and otherwise sets REFUSED. -/
  | haltreq (acc : Accessor) (core : Fin 96) (t : Nat)
  /-- RESUME (R123). A write of CORE_CTL.RESUME takes a halted core back to RUN. -/
  | resume (acc : Accessor) (core : Fin 96) (t : Nat)
  /-- RESTARTREQ (R123). A write of CORE_CTL.RESTARTREQ asks Lehr A to quarantine and restart the core. -/
  | restartreq (acc : Accessor) (core : Fin 96) (t : Nat)
  /-- BREAKPOINT_HIT (R186). A stream's next word to issue matches CORE_TPBRK, and the core enters HALT. -/
  | breakpointHit (core : Fin 96) (t : Nat)
  /-- TPSTEP (R186). A write of CORE_TPSTEP.GO in HALT issues one instruction of the named stream. -/
  | tpstep (acc : Accessor) (core : Fin 96) (stream : BitVec 3) (ph : Phys)
  /-- DEBUG_HALT_POINT (R415). A halted main run records its halt point once the instructions issued before the halt have completed. -/
  | debugHaltPoint (core : Fin 96)
  /-- CORE_WINDOW_ACCESS (R100). A Gaffer or debug-port request to a core window is served or refused according to the core state. -/
  | coreWindowAccess (acc : Accessor) (core : Fin 96) (word : BitVec 18) (access : WindowWord)
  /-- STEPRATE_UPDATE (R112). Every 10 µs the step-rate monitor updates ACT and CAP. -/
  | steprateUpdate (core : Fin 96) (steps : BitVec 20) (cap : BitVec 15) (t : Nat)
  /-- STEPMIN_WRITE (R127). A write of any value to CORE_STEPMIN resets MIN to 0xFFFF. -/
  | stepminWrite (core : Fin 96)
  /-- WEIGHT_SWAP (R101). Shadow weights become active once the previous array instruction has issued its last row and the load has finished. -/
  | weightSwap (core : Fin 96)
  /-- INSTRUCTION_FETCH (R134). A fetch response places a word, or a poisoned marker, in the instruction buffer. -/
  | instructionFetch (core : Fin 96) (stream : Fin 5) (index : BitVec 24) (ecc : MemEcc)
  /-- INSTR_COMPLETE (R141). An instruction completes and raises its signal in stream order. -/
  | instrComplete (core : Fin 96) (stream : Fin 5) (word : BitVec 24)
  /-- STARVED_FAULT (R194). Within 32 steps of starvation, every blocked instruction faults with SYNC_UNDERFLOW. -/
  | starvedFault (core : Fin 96)
  /-- CORE_SYNC_WRITE (R206). A Gaffer or debug-port write of CORE_SYNCn sets the counter, or C for a carried counter, when access is permitted. -/
  | coreSyncWrite (acc : Accessor) (core : Fin 96) (n : Fin 2048) (v : Option (BitVec 32))
  /-- CLR (R151). Clears an accumulator tile and sets its anchor, formats and K state. -/
  | clr (core : Fin 96)
  /-- WLD (R152). Loads a weight tile into the shadow registers. -/
  | wld (core : Fin 96) (ph : Phys)
  /-- MM (R154). Streams rows of A against the active weights into an accumulator tile. -/
  | mm (core : Fin 96) (ph : Phys)
  /-- DRN (R156). Drains accumulator rows to scratchpad in a target format. -/
  | drn (core : Fin 96) (ph : Phys)
  /-- VLD (R159). Loads scratchpad elements into a vector register, converting them exactly. -/
  | vld (core : Fin 96) (ecc : SpEcc)
  /-- VST (R159). Stores vector lanes to scratchpad, converting them to a format. -/
  | vst (core : Fin 96) (ecc : SpEcc)
  /-- VLDSC (R159). Expands block scales into FP32 lanes. -/
  | vldsc (core : Fin 96) (ecc : SpEcc)
  /-- VBC (R157). Broadcasts the immediate to every lane. -/
  | vbc (core : Fin 96)
  /-- VADD (R158). Elementwise addition. -/
  | vadd (core : Fin 96)
  /-- VSUB (R158). Elementwise subtraction. -/
  | vsub (core : Fin 96)
  /-- VMUL (R158). Elementwise multiplication. -/
  | vmul (core : Fin 96)
  /-- VFMA (R158). Elementwise fused multiply-add. -/
  | vfma (core : Fin 96)
  /-- VDIV (R158). Elementwise division. -/
  | vdiv (core : Fin 96)
  /-- VSQRT (R158). Elementwise FP32 square root. -/
  | vsqrt (core : Fin 96)
  /-- VMIN (R158). Elementwise minimum. -/
  | vmin (core : Fin 96)
  /-- VMAX (R158). Elementwise maximum. -/
  | vmax (core : Fin 96)
  /-- VABS (R158). Elementwise absolute value. -/
  | vabs (core : Fin 96)
  /-- VNEG (R158). Elementwise negation. -/
  | vneg (core : Fin 96)
  /-- VCMP (R158). Elementwise comparison that writes 1 or 0. -/
  | vcmp (core : Fin 96)
  /-- VSEL (R158). Elementwise selection by the INT32 lanes of VC. -/
  | vsel (core : Fin 96)
  /-- VAND (R158). Elementwise bitwise AND of INT32 lanes. -/
  | vand (core : Fin 96)
  /-- VOR (R158). Elementwise bitwise OR of INT32 lanes. -/
  | vor (core : Fin 96)
  /-- VXOR (R158). Elementwise bitwise XOR of INT32 lanes. -/
  | vxor (core : Fin 96)
  /-- VSHL (R158). Elementwise left shift of INT32 lanes. -/
  | vshl (core : Fin 96)
  /-- VSHR (R158). Elementwise logical or arithmetic right shift of INT32 lanes. -/
  | vshr (core : Fin 96)
  /-- VCVT (R158). Converts lanes between FP32 and INT32. -/
  | vcvt (core : Fin 96)
  /-- VQNT (R158). Rounds FP32 lanes to the value set of a format. -/
  | vqnt (core : Fin 96)
  /-- VEXP2 (R163). Computes the defined base-2 exponential of each lane. -/
  | vexp2 (core : Fin 96)
  /-- VLOG2 (R164). Computes the defined base-2 logarithm of each lane. -/
  | vlog2 (core : Fin 96)
  /-- VRCP (R165). Computes the reciprocal of each lane. -/
  | vrcp (core : Fin 96)
  /-- VRSQRT (R165). Computes the reciprocal square root of each lane. -/
  | vrsqrt (core : Fin 96)
  /-- VSIGM (R165). Computes the defined sigmoid of each lane. -/
  | vsigm (core : Fin 96)
  /-- VTANH (R165). Computes the defined hyperbolic tangent of each lane. -/
  | vtanh (core : Fin 96)
  /-- VGELU (R165). Computes the defined GELU of each lane. -/
  | vgelu (core : Fin 96)
  /-- VEXPD (R165). Computes the scaled exponential of a difference, the numerator of a softmax. -/
  | vexpd (core : Fin 96)
  /-- VRSUM (R160). Tree-sums the lanes. -/
  | vrsum (core : Fin 96)
  /-- VRMAX (R160). Tree-maximum of the lanes. -/
  | vrmax (core : Fin 96)
  /-- VRMIN (R160). Tree-minimum of the lanes. -/
  | vrmin (core : Fin 96)
  /-- VRSSQ (R160). Tree-sum of the squares of the lanes. -/
  | vrssq (core : Fin 96)
  /-- LD (R166). Stride load from device memory into scratchpad. -/
  | ld (core : Fin 96) (ph : Phys)
  /-- LDACC (R168). Imports an accumulator record block, in replace or combine mode. -/
  | ldacc (core : Fin 96) (ph : Phys)
  /-- ST (R166). Stride store from scratchpad to device memory. -/
  | st (core : Fin 96) (ph : Phys)
  /-- STACC (R167). Exports an accumulator record block as REC packets. -/
  | stacc (core : Fin 96) (ph : Phys)
  /-- STSIG (R169). Computes a CRC-32C signature of the transformed rows and sends it to Lehr A. -/
  | stsig (core : Fin 96) (ph : Phys)
  /-- GIDX (R170). Indexed row gather into scratchpad. -/
  | gidx (core : Fin 96) (ph : Phys)
  /-- GPAGE (R223). KV page gather through a page descriptor and a page-table walk. -/
  | gpage (core : Fin 96) (ph : Phys)
  /-- NOP (R150). Waits and signals only. -/
  | nop (core : Fin 96) (stream : Fin 5)
  /-- END (R141). Ends a stream once its earlier instructions have completed. -/
  | endStream (core : Fin 96) (stream : Fin 5)
  /-- CKPT (R171). Checkpoint marker, checked for order and compared against any checkpoint target. -/
  | ckpt (core : Fin 96) (stream : Fin 5)
  /-- FENCE (R141). Completes when every earlier instruction of its stream has completed. -/
  | fence (core : Fin 96) (stream : Fin 5)
  /-- COMMIT_NOTICE (R199). A commit notice from Bench applies a pending record's D and P to the carried counters. -/
  | commitNotice (core : Fin 96) (part : Fin 16) (seq : BitVec 32)
  /-- DISCARD_NOTICE (R199). A discard notice frees a pending record without changing C. -/
  | discardNotice (core : Fin 96) (part : Fin 16) (seq : BitVec 32)
  /-- RUN_REPORT (R418). Bench's report of the end of a class S run reaches Lehr A, which may complete a comparison. -/
  | runReport (t : Nat)
  /-- CANCELLATION_NOTICE (R395). A cancellation notice makes a crucible or manager discard a command's staged lines and records. -/
  | cancellationNotice (part : Fin 16) (seq : BitVec 32)
  /-- WALK (R225). A page-walk request reaches the owning cullet manager and is served or refused. -/
  | walk (core : Fin 96) (tag : BitVec 12) (handle : BitVec 10) (pos : BitVec 16) (npos : BitVec 9) (pad : Bool)
  /-- WALKRSP (R225). A walk response returns page entries to the gather engine. -/
  | walkrsp (core : Fin 96) (tag : BitVec 12)
  /-- ROLLBACK (R235). Bench asks the manager to roll back a cancelled command's records and the records after them. -/
  | rollback (part : Fin 16) (seq : BitVec 32)
  /-- PAGE_RETURN (R235). Rolled-back or freed pages are queued for scrub once the cancelled programs have settled. -/
  | pageReturn (cruc : Fin 4)
  /-- POOL_PAGE_SCRUBBED (R214). A returned pool page has been scrubbed to zero and rejoins the free list. -/
  | poolPageScrubbed (cruc : Fin 4) (page : BitVec 20)
  /-- PAGE_TABLE_UNCORRECTABLE (R218). An uncorrectable page-table error marks the sequence failed and raises it to Lehr A. -/
  | pageTableUncorrectable (cruc : Fin 4) (sq : Fin 256)
  /-- CREATE (R238). Cullet operation that makes a new live sequence with a geometry. -/
  | createSeq (who : Ident) (cruc : Fin 4) (part : Fin 16)
  /-- FREE (R238). Cullet operation that returns all pages of a sequence and ends it. -/
  | freeSeq (who : Ident) (cruc : Fin 4) (part : Fin 16) (sq : Fin 256)
  /-- TRUNCATE (R238). Cullet operation that shortens a sequence to a new length. -/
  | truncateSeq (who : Ident) (cruc : Fin 4) (part : Fin 16) (sq : Fin 256) (arg : BitVec 32)
  /-- SETSEG (R238). Cullet operation that replaces a sequence's segment boundaries. -/
  | setseg (who : Ident) (cruc : Fin 4) (part : Fin 16) (sq : Fin 256)
  /-- LOADBIAS (R238). Cullet operation that loads a bias table from DRAM. -/
  | loadbias (who : Ident) (cruc : Fin 4) (part : Fin 16) (arg : BitVec 32) (ecc : MemEcc)
  /-- POOL_CONFIG_WRITE (R212). A write of CULLET_POOLBASE or POOLCFG is refused while sequences live or when the pool would leave DRAM. -/
  | poolConfigWrite (who : Ident) (cruc : Fin 4) (cfg : Bool) (v : BitVec 64)
  /-- CAMERA_PORT_TRAINING (R245). A camera port's training attempt ends, and the port comes up or drops a gear. -/
  | cameraPortTraining (port : Fin 16) (ok : Bool)
  /-- CSI2_PACKET (R245). A CSI-2 packet is received on a camera port and is written, or dropped and counted. -/
  | csi2Packet (port : Fin 16) (vc : Fin 32) (dt : BitVec 6) (data : List Byte) (hdrErr crcErr full : Bool) (t : Nat)
  /-- ETH_FRAME_RECEIVE (R247). An Ethernet frame is received and goes to gPTP, to a matching stream, or is dropped. -/
  | ethFrameReceive (port : Fin 8) (frame : List Byte) (fcsOk full : Bool) (t : Nat)
  /-- INJECTED_ENTRY_RELEASE (R248). Device time reaches an injected entry's TIN, and its payload is treated as a port arrival. -/
  | injectedEntryRelease (stream : Fin 64) (ecc : MemEcc) (t : Nat)
  /-- INJWR_WRITE (R249). A write of INJWR advances the injection ring, or is refused with INJOVR. -/
  | injwrWrite (stream : Fin 64) (v : BitVec 32)
  /-- STREAM_ENABLE (R260). Setting MARVER_SCFGs.EN takes the servo to ACQUIRE. -/
  | streamEnable (stream : Fin 64) (t : Nat)
  /-- STREAM_DISABLE (R260). Clearing EN takes the servo to DISABLED and discards unreleased injected entries. -/
  | streamDisable (stream : Fin 64)
  /-- SERVO_HOLD_TIMEOUT (R260). No accepted sample for HOLDNS takes a LOCKED servo to HOLDOVER. -/
  | servoHoldTimeout (stream : Fin 64) (t : Nat)
  /-- SERVO_HOLDMAX_TIMEOUT (R260). HOLDMAX without an accepted sample takes a HOLDOVER servo to UNSYNC. -/
  | servoHoldmaxTimeout (stream : Fin 64) (t : Nat)
  /-- GPTP_SYNC (R256). A gPTP Sync sample updates the gPTP servo and, under STEER, the requested rate. -/
  | gptpSync (domain : BitVec 7) (sq : BitVec 16) (twoStep : Bool) (origin : BitVec 64) (corr : BitVec 64) (t : Nat)
  /-- GPTP_FOLLOW_UP (R255). A Follow_Up completes a two-step Sync. -/
  | gptpFollowUp (domain : BitVec 7) (sq : BitVec 16) (origin : BitVec 64) (corr : BitVec 64) (t : Nat)
  /-- GPTP_ANNOUNCE (R255). An Announce is checked for the grandmaster identity, and a change sets GMCHG. -/
  | gptpAnnounce (domain : BitVec 7) (gm : BitVec 64)
  /-- PDELAY_REQ_SEND (R255). At each Pdelay interval Marver sends Pdelay_Req. -/
  | pdelayReqSend (sq : BitVec 16) (t : Nat)
  /-- PDELAY_RESP (R255). A Pdelay response updates mean link delay and the neighbour rate ratio. -/
  | pdelayResp (sq : BitVec 16) (t2 t3 : BitVec 64) (t : Nat)
  /-- GPTP_SYNC_TIMEOUT (R256). Three Sync intervals without a sample take the gPTP servo to HOLDOVER. -/
  | gptpSyncTimeout (t : Nat)
  /-- STEER_HOLDOVER_EXPIRY (R256). After 10 s in HOLDOVER, Lehr A returns the steering rate to zero. -/
  | steerHoldoverExpiry (t : Nat)
  /-- MARVER_CLOSE_WRITE (R263). A host write of MARVER_CLOSE closes the named period. -/
  | marverCloseWrite (frame : BitVec 32) (done : Nat) (updated : Nat) (ecc : MemEcc) (t : Nat)
  /-- PERIOD_CLOSE (R263). The close delay after a period's end expires and the period closes, starting projection. -/
  | periodClose (done : Nat) (updated : Nat) (ecc : MemEcc) (t : Nat)
  /-- POSE_WRITE (R265). A write of MARVER_POSEWR publishes pose entries and may release deferred compensation. -/
  | poseWrite (v : BitVec 32) (ecc : MemEcc)
  /-- PROJECTION_DONE (R278). Projection of a period ends, and projection-done goes to Bench. -/
  | projectionDone (updated : Nat) (ecc : MemEcc) (t : Nat)
  /-- MODE_REQUEST (R282). A write of MARVER_FUSCTL.REQ makes a mode change pending. -/
  | modeRequest (v : BitVec 2)
  /-- SCATGO (R290). A write of MARVER_SCATGO triggers the application of the scatter list, or logs LATE_GO. -/
  | scatgo (who : Ident) (frame : BitVec 32) (nent : BitVec 20) (t : Nat)
  /-- SCATTER_DONE (R290). An accepted scatter has been applied, and the grid completes. -/
  | scatterDone (ecc : MemEcc) (t : Nat)
  /-- SCATTER_DEADLINE (R290). SCATDL after projection end passes, and the grid completes without scatter. -/
  | scatterDeadline (t : Nat)
  /-- TRKGO (R315). A write of MARVER_TRKGO triggers the main tracker run, or is refused. -/
  | trkgo (who : Ident) (frame : BitVec 32) (ndet : BitVec 13) (t : Nat)
  /-- MAIN_RUN_START (R315). The main run starts once both projection end and an accepted TRKGO have occurred. -/
  | mainRunStart (updated : Nat) (ecc : MemEcc) (t : Nat)
  /-- MAIN_RUN_DEADLINE (R315). TRKDL after projection end passes, and the main run starts without detections. -/
  | mainRunDeadline (updated : Nat) (ecc : MemEcc) (t : Nat)
  /-- MAIN_RUN_DONE (R316). The main run completes its table and raises tracks-done. -/
  | mainRunDone (bad : Option (Fin 4096)) (ecc : MemEcc) (t : Nat)
  /-- FALLBACK_RUN_DONE (R313). The fallback run sends its block to Lehr B and raises fallback-sent. -/
  | fallbackRunDone (bad : Option (Fin 4096)) (ecc : MemEcc) (t : Nat)
  /-- PLAUSIBILITY_EVAL (R307). Every PLWIN periods the stream plausibility counts are evaluated and zeroed. -/
  | plausibilityEval (t : Nat)
  /-- MARVER_EVLOG_READ (R321). A read of MARVER_EVLOG returns the oldest event and removes it. -/
  | marverEvlogRead
  /-- SQ_TAIL_DOORBELL (R329). A BAR2 write of a ring's SQ tail is accepted, or puts the ring into ERROR. -/
  | sqTailDoorbell (fn : Fin 16) (ring : Fin 256) (place : Bar2Place) (v : Option (BitVec 32))
  /-- CQ_HEAD_DOORBELL (R329). A BAR2 write of a ring's CQ head releases completion slots, or puts the ring into ERROR. -/
  | cqHeadDoorbell (fn : Fin 16) (ring : Fin 256) (place : Bar2Place) (v : Option (BitVec 32))
  /-- ENTRY_CONSUME (R330). The device reads and checks a ring entry, then enters it in the scoreboard or refuses it. -/
  | entryConsume (ring : Fin 256) (entry : BitVec 512) (ecc : MemEcc) (t : Nat)
  /-- ENTRY_READ_ERROR (R331). A failed or poisoned host read of an entry puts the ring into ERROR. -/
  | entryReadError (ring : Fin 256)
  /-- RECORD_WRITE_REFUSED (R331). The host refuses a record write, and the ring goes to ERROR. -/
  | recordWriteRefused (ring : Fin 256)
  /-- RING_ENABLE (R331). Writing EN = 1 activates a ring, or sets CFGERR. -/
  | ringEnable (who : Ident) (ring : Fin 256)
  /-- RING_DISABLE (R331). Writing EN = 0 drains or disables a ring. -/
  | ringDisable (who : Ident) (ring : Fin 256)
  /-- BAR4_READ (R325). A host BAR4 read of DRAM is region-checked and returns data or 0xFF. -/
  | bar4Read (fn : Fin 16) (off : BitVec 36) (lenm1 : BitVec 12) (ecc : MemEcc)
  /-- BAR4_WRITE (R325). A host BAR4 write to DRAM is region-checked and written or dropped. -/
  | bar4Write (fn : Fin 16) (off : BitVec 36) (bytes : List (BitVec 8))
  /-- FUNCTION_LEVEL_RESET (R370). A PCIe FLR of function p cancels its commands, disables its rings and frees its sequences. -/
  | functionLevelReset (fn : Fin 16) (t : Nat)
  /-- RUN_LAYER (R339). Command that runs a registered layer. -/
  | runLayer (part : Fin 16) (seq : BitVec 32) (ecc : MemEcc) (t : Nat)
  /-- RUN_KERNEL (R341). Command that runs the kernel descriptor named in the entry. -/
  | runKernel (part : Fin 16) (seq : BitVec 32) (ecc : MemEcc) (t : Nat)
  /-- REGISTER_LAYER (R343). Command that validates a descriptor and binds it to a layer number. -/
  | registerLayer (part : Fin 16) (seq : BitVec 32) (ecc : MemEcc) (t : Nat)
  /-- UNREGISTER_LAYER (R343). Command that releases a layer number. -/
  | unregisterLayer (part : Fin 16) (seq : BitVec 32) (t : Nat)
  /-- COPY (R345). Command that copies between host memory, DRAM and core windows. -/
  | copyBlock (part : Fin 16) (seq : BitVec 32) (hostData : List (BitVec 8)) (hostOk : Bool) (ecc : CopyEcc) (t : Nat)
  /-- FILL (R346). Command that writes a repeated 8-byte pattern to DRAM. -/
  | fillBlock (part : Fin 16) (seq : BitVec 32) (t : Nat)
  /-- SEQ_OP (R347). Command that runs a cullet sequence operation. -/
  | seqOp (part : Fin 16) (seq : BitVec 32) (ecc : MemEcc) (t : Nat)
  /-- FRAME_RESULT (R348). Command that completes with Lehr A's selection for a frame. -/
  | frameResult (part : Fin 16) (seq : BitVec 32) (t : Nat)
  /-- SENSOR_MGMT (R349). Command that makes a CCI or MDIO transfer on a sensor port. -/
  | sensorMgmt (part : Fin 16) (seq : BitVec 32) (ack : Bool) (data : List (BitVec 8)) (ecc : MemEcc) (t : Nat)
  /-- CONFIG_PROPOSE (R582). Command that proposes a locked-configuration change for Lehr A to check and co-sign. -/
  | configPropose (part : Fin 16) (seq : BitVec 32) (ecc : MemEcc) (t : Nat)
  /-- CONFIG_COMMIT (R583). Command that commits a co-signed proposal atomically. -/
  | configCommit (part : Fin 16) (seq : BitVec 32) (ecc : MemEcc) (reached : List (Fin 4 × BitVec 7)) (t : Nat)
  /-- NOP_COMMAND (R338). Command that commits at once with the device time as RESULT. -/
  | nopCommand (part : Fin 16) (seq : BitVec 32) (t : Nat)
  /-- ABORT (R362). Command that aborts a command of the same partition at the commit ordering point. -/
  | abort (part : Fin 16) (seq : BitVec 32) (t : Nat)
  /-- COMMAND_READY (R374). A waiting command meets its start conditions, or its relaxed ones under RUNAHEAD. -/
  | commandReady (part : Fin 16) (seq : BitVec 32) (t : Nat)
  /-- COMMAND_START (R373). A READY command's first run is dispatched, or its operation starts. -/
  | commandStart (part : Fin 16) (seq : BitVec 32) (ecc : MemEcc) (t : Nat)
  /-- RUN_END (R373). A run ends: Bench accounts its engine time and re-tests whether the command is ENDED. -/
  | runEnd (core : Fin 96) (t : Nat)
  /-- RUN_FAULT (R373). A run fault moves the command to CANCELLING and kills its other runs. -/
  | runFault (core : Fin 96) (t : Nat)
  /-- RUN_LIMIT_EXPIRED (R387). A run exceeds its engine-time limit, is killed and ends with DEADLINE_EXPIRED. -/
  | runLimitExpired (core : Fin 96) (t : Nat)
  /-- COMMIT (R382). The commit sequencer takes an ENDED command and performs the commit steps. -/
  | commitCommand (part : Fin 16) (seq : BitVec 32) (flip : FlipAt)
  /-- MARVER_TRIGGER_FIRE (R376). After a matching commit, Bench reads the count and writes TRKGO or SCATGO. -/
  | marverTriggerFire (ecc : MemEcc) (t : Nat)
  /-- SPILL_COPY_DONE (R383). A spilled committed line lands at its home address in the background. -/
  | spillCopyDone (cruc : Fin 4)
  /-- PREEMPT (R389). Bench chooses victims and kills or checkpoints them for a waiting run. -/
  | preempt (staging : Option (Fin 4)) (t : Nat)
  /-- PREEMPT_QUANTUM (R389). A tier-3 run has waited QUANTUM, which allows pre-emption. -/
  | preemptQuantum (part : Fin 16) (seq : BitVec 32) (t : Nat)
  /-- CHECKPOINT_WAIT_TIMEOUT (R390). No boundary within CKPTWAIT, and Bench kills the victim. -/
  | checkpointWaitTimeout (core : Fin 96) (t : Nat)
  /-- CANCELLATION_CLOSURE (R395). Bench forms the closure of a cancelled command and cancels every member. -/
  | cancellationClosure (part : Fin 16) (seq : BitVec 32) (t : Nat)
  /-- CLOSURE_DONE (R395). A cancellation closure completes and its records are written. -/
  | closureDone (part : Fin 16) (t : Nat)
  /-- ACCOUNTING_TICK (R385). Every 100 µs of a running run, its engine time is added to DEV_ACCTp. -/
  | accountingTick (core : Fin 96) (t : Nat)
  /-- REHEAT_SLICE_START (R398). Bench starts a reheat slice on an idle core with a large enough window. -/
  | reheatSliceStart (die : Fin 12) (t : Nat)
  /-- REHEAT_PATTERN_DONE (R638). A reheat pattern ends and advances the pointer, or fails. -/
  | reheatPatternDone (core : Fin 96) (pass : Bool) (t : Nat)
  /-- REHEAT_SLICE_END (R638). The slice length is used, and the core returns to IDLE. -/
  | reheatSliceEnd (core : Fin 96)
  /-- REHEAT_ABORT (R400). Bench aborts a slice to place a run, and the core reaches IDLE at a pattern boundary. -/
  | reheatAbort (core : Fin 96) (ended : Option Bool) (t : Nat)
  /-- REHEAT_OVERDUE (R640). A core's last complete pass exceeds RHLIM, and SCLASS is withdrawn. -/
  | reheatOverdue (core : Fin 96) (t : Nat)
  /-- SIG (R417). A signature message reaches Lehr A and is matched against its counterpart. -/
  | sig (crcOk : Bool) (t : Nat)
  /-- DECISION_TIME (R424). A frame's decision time arrives before eligibility, and Lehr A selects FALLBACK or NONE. -/
  | decisionTime (t : Nat)
  /-- FALLBACK_BLOCK (R432). Lehr B receives a fallback block and accepts or rejects it. -/
  | fallbackBlock (buf : Fin 2) (t : Nat)
  /-- RADAR_PACKET (R433). Lehr B decodes a packet on a direct radar port into obstacles. -/
  | radarPacket (port : Fin 2) (payload : List Byte) (t : Nat)
  /-- PLAN_CHECK_REQUEST (R435). Lehr A passes a committed plan's address to Lehr B, which starts the envelope check. -/
  | planCheckRequest (frame : BitVec 32) (t : Nat)
  /-- ENVELOPE_VERDICT (R436). Lehr B finishes the envelope check and returns PASS, FAIL or UNCHECKED. -/
  | envelopeVerdict (ecc : MemEcc) (t : Nat)
  /-- FALLBACK_PLAN_LATE (R438). No block has arrived by the reference time plus FBLATE, and Lehr B computes the plan anyway. -/
  | fallbackPlanLate (t : Nat)
  /-- FALLBACK_PLAN_DONE (R439). Lehr B completes and writes a fallback plan and raises the fallback-ready kick. -/
  | fallbackPlanDone (t : Nat)
  /-- WATCHDOG_KICK (R441). A kick for a stage arrives and is stamped; EARLY or EXTRA violations are judged. -/
  | watchdogKick (who : Ident) (stage : BitVec 6) (frame : BitVec 32) (t : Nat)
  /-- WATCHDOG_CLOSE (R442). A stage's CLOSE passes without a kick, which is a LATE violation. -/
  | watchdogClose (stage : BitVec 6) (t : Nat)
  /-- COMPARATOR_TEST (R444). Lehr A runs the comparator test with injected inputs before releasing cores. -/
  | comparatorTest (pass : Bool)
  /-- DIE_HEARTBEAT_TIMEOUT (R446). 50 µs without a die heartbeat, or its fault signal, declares the die silent. -/
  | dieHeartbeatTimeout (die : Block) (t : Nat)
  /-- RING_TOKEN_TIMEOUT (R446). 30 µs without the ring token in one direction declares the watch ring broken. -/
  | ringTokenTimeout (seg : RingNode) (t : Nat)
  /-- GAFHB_WRITE (R446). Gaffer firmware writes LEHRA_GAFHB as its heartbeat. -/
  | gafhbWrite (who : Ident) (t : Nat)
  /-- GAFFER_HEARTBEAT_TIMEOUT (R446). 2 ms without a heartbeat declares the host die silent. -/
  | gafferHeartbeatTimeout (t : Nat)
  /-- LEHR_HEARTBEAT_TIMEOUT (R446). 1 ms without the other Lehr die's heartbeat declares it lost. -/
  | lehrHeartbeatTimeout (lostB : Bool) (t : Nat)
  /-- LOCKSTEP_MISMATCH (R446). A Lehr die's lockstep mismatch is announced and the die stops. -/
  | lockstepMismatch (lehrB : Bool) (t : Nat)
  /-- LEHRA_TAKEOVER (R448). Lehr B takes over device time and frame boundaries and drives LEHR_FLT01. -/
  | lehraTakeover (t : Nat)
  /-- DEVICE_TIME_HANDOVER (R449). At the named instant T, Lehr A loads device time from Lehr B and resumes boundaries. -/
  | deviceTimeHandover (t : Nat)
  /-- LEHRA_EVLOG_READ (R452). A read of LEHRA_EVLOG returns and removes the oldest event. -/
  | lehraEvlogRead
  /-- RD (R493). A read request enters the fabric, is region-checked and routed to its home. -/
  | rd (node : BitVec 8) (who : Ident) (tag : BitVec 12) (cls : BitVec 2) (addr : BitVec 48) (want : ReadFor) (ecc : CopyEcc) (cache : CacheEcc) (t : Nat)
  /-- WR (R463). A write request enters the fabric and is staged or written at its home. -/
  | wr (node : BitVec 8) (who : Ident) (tag : BitVec 12) (cls : BitVec 2) (addr : BitVec 48) (want : WriteFor) (data : List Byte) (t : Nat)
  /-- REC (R486). An accumulator-record packet is combined into a staged combine target. -/
  | recPacket (node : BitVec 8) (who : Ident) (tag : BitVec 12) (cls : BitVec 2) (addr : BitVec 48) (sq : BitVec 32) (tile : BitVec 88) (base : BitVec 48) (rowsM1 : BitVec 16) (data : List Byte) (t : Nat)
  /-- RDRSP (R466). A read response returns to its requester, or is dropped for a FENCED entry. -/
  | rdrsp (node : BitVec 8) (tag : BitVec 12)
  /-- WRACK (R463). A write acknowledgement returns to its requester. -/
  | wrack (node : BitVec 8) (tag : BitVec 12)
  /-- CSRRD (R463). A CSR read request is routed to the block that holds the register. -/
  | csrrd (node : BitVec 8) (who : Ident) (tag : BitVec 12) (cls : BitVec 2) (off : BitVec 28) (want : CsrFor) (t : Nat)
  /-- CSRWR (R463). A CSR write request takes effect at its block in issue order. -/
  | csrwr (node : BitVec 8) (who : Ident) (tag : BitVec 12) (cls : BitVec 2) (off : BitVec 28) (want : CsrFor) (v : BitVec 64) (t : Nat)
  /-- CSRRSP (R463). A CSR response returns to its requester. -/
  | csrrsp (node : BitVec 8) (tag : BitVec 12)
  /-- ACK (R472). A link ACK control word releases acknowledged packets from the retry buffer. -/
  | ack (link : Fin 122) (up : Bool) (sq : BitVec 8) (crc : BitVec 16)
  /-- NAK (R473). A link NAK control word makes the sender replay from the next LSEQ. -/
  | nak (link : Fin 122) (up : Bool) (sq : BitVec 8) (crc : BitVec 16) (t : Nat)
  /-- CREDIT (R472). A CREDIT control word returns buffer words for a virtual channel. -/
  | credit (link : Fin 122) (up : Bool) (vc : Fin 6) (total : BitVec 16) (crc : BitVec 16)
  /-- IDLE (R472). An IDLE control word is received between packets. -/
  | idle (link : Fin 122) (up : Bool)
  /-- PACKET_RECEIVE (R473). A link receives a packet, checks its CRC and delivers it in LSEQ order, or discards it. -/
  | packetReceive (link : Fin 122) (up : Bool) (sq : BitVec 8) (head : PacketHead) (extOk crcOk : Bool) (t : Nat)
  /-- REPLAY_TIMEOUT (R473). No ACK within 2 µs makes the sender replay. -/
  | replayTimeout (link : Fin 122) (up : Bool) (sideband : Bool) (t : Nat)
  /-- LANE_MONITOR_FLAG (R478). The sideband lane monitor flags a lane, and the module enters RECOVER. -/
  | laneMonitorFlag (m : Fin 26) (t : Nat)
  /-- MODULE_TRAINING_DONE (R478). Lateral module training ends in ACTIVE, NARROW or REMOVED. -/
  | moduleTrainingDone (m : Fin 26) (res : TrainRes) (lanes : LaneReport)
  /-- MODULE_RETRAIN_DONE (R478). Retraining in RECOVER ends with lane repair, NARROW or REMOVED. -/
  | moduleRetrainDone (m : Fin 26) (res : TrainRes) (lanes : LaneReport)
  /-- RECOVER_TIMEOUT (R478). 50 µs in RECOVER without success removes the module. -/
  | recoverTimeout (m : Fin 26) (t : Nat)
  /-- SIDEBAND_TIMEOUT (R479). No sideband answer within 2 µs fences the module's transactions and removes it. -/
  | sidebandTimeout (m : Fin 26) (lost : List (BitVec 8 × BitVec 12)) (t : Nat)
  /-- VPORT_RECOVER_DONE (R476). A vertical port finishes its bond test in RECOVER and resumes, halves or is lost. -/
  | vportRecoverDone (core : Fin 96) (res : VportRes) (spup spdn : BitVec 6) (badgrp : BitVec 5)
  /-- FENCE_TARGET (R466). A target is fenced and the trackers complete its entries poisoned. -/
  | fenceTarget (g : Target)
  /-- TARGET_RELEASE (R466). A fenced target is released and its FENCED entries are freed. -/
  | targetRelease (g : Target)
  /-- CLEAN (R485). Cache maintenance that writes back every dirty committed line. -/
  | clean (who : Ident) (k : Fin 4)
  /-- CLEAN_INV (R485). Cache maintenance that writes back and invalidates every committed line. -/
  | cleanInv (who : Ident) (k : Fin 4)
  /-- CACHE_MAINT_DONE (R485). A cache maintenance operation completes and BUSY clears. -/
  | cacheMaintDone (k : Fin 4)
  /-- CRUC_EVLOG_READ (R498). A read of CRUC_EVLOG returns and removes the oldest event. -/
  | crucEvlogRead (k : Fin 4)
  /-- REGULATION_WINDOW (R505). A regulation window boundary zeroes every master's count and applies pending budgets. -/
  | regulationWindow (t : Nat)
  /-- REGBUD_WRITE (R510). A write of DEV_REGBUDk_m is admission-checked and becomes pending, or sets ADMREF. -/
  | regbudWrite (who : Ident) (k : Fin 4) (m : Fin 21) (v : BitVec 64)
  /-- REGCTL_WRITE (R510). A write of WIN is checked, and the capacities are recomputed, or WINREF is set. -/
  | regctlWrite (who : Ident) (v : BitVec 32)
  /-- REFRESH_POINT (R528). At a refresh point every channel in SERVICE opens a stall window and refreshes. -/
  | refreshPoint (t : Nat)
  /-- STALL_WINDOW_END (R528). The stall window ends and the channels resume requests. -/
  | stallWindowEnd (t : Nat)
  /-- STACK_TEMP_REPORT (R529). A stack reports its temperature and HOT is re-evaluated. -/
  | stackTempReport (site : Fin 16) (temp : BitVec 8) (t : Nat)
  /-- MEMREF_WRITE (R530). A write of DEV_MEMREF is range-checked and takes effect at the next refresh point. -/
  | memrefWrite (who : Ident) (v : BitVec 64)
  /-- CA_PARITY_ERROR (R532). The stack reports a command-address parity error, and the channel freezes. -/
  | caParityError (ch : Fin 64) (info : FreezeInfo) (t : Nat)
  /-- PHY_LOCK_LOSS (R532). The PHY loses lock or fails to leave self-refresh, and the channel freezes. -/
  | phyLockLoss (ch : Fin 64) (info : FreezeInfo) (t : Nat)
  /-- FRZACK (R534). Gaffer firmware writes MEMC_FRZACKl to end a frozen channel's hold. -/
  | frzack (who : Ident) (ch : Fin 64) (t : Nat)
  /-- FRZHOLD_TIMEOUT (R534). FRZHOLD elapses and the frozen channel goes to recovery or retirement. -/
  | frzholdTimeout (ch : Fin 64) (t : Nat)
  /-- GOSERVICE (R536). Writing MEMC_CHCTLl.GOSERVICE returns a training or recovering channel to SERVICE. -/
  | goservice (who : Ident) (ch : Fin 64) (t : Nat)
  /-- RETIRE (R536). Writing MEMC_CHCTLl.RETIRE retires a training or recovering channel. -/
  | retire (who : Ident) (ch : Fin 64)
  /-- RECOVERY_TIMEOUT (R536). No GOSERVICE within 20.1 ms of RECOVERING retires the channel. -/
  | recoveryTimeout (ch : Fin 64) (t : Nat)
  /-- TRAINING_TIMEOUT (R536). No GOSERVICE within 300 ms of reset retires the channel. -/
  | trainingTimeout (ch : Fin 64) (t : Nat)
  /-- APPLY (R524). A write of DEV_MEMMAPCTL.APPLY installs the pending map after a clean, or sets MAPREF. -/
  | mapApply (who : Ident)
  /-- MAP_APPLY_DONE (R524). The new map takes effect, moved segments advance their epochs, and held requests proceed. -/
  | mapApplyDone
  /-- SCRUB_LINE (R538). The scrub reads and resolves one line of a pending segment in idle channel time. -/
  | scrubLine (ch : Fin 64) (ecc : Ecc)
  /-- PARK (R541). A write of DEV_MEMPWR.PARK = 1 cleans the caches and puts the channels into self-refresh. -/
  | park (who : Ident) (mask : BitVec 8)
  /-- PARK_DONE (R541). Every channel is in self-refresh and PARKED becomes 1. -/
  | parkDone
  /-- WAKE (R541). A fill, write-back, spill or PARK = 0 wakes parked memory and advances masked epochs. -/
  | wake
  /-- TRAIN_WRITE (R544). Training helper OP 1 writes pattern lines. -/
  | trainWrite (who : Ident) (ch : Fin 64) (line : BitVec 24) (countm1 : BitVec 24)
  /-- TRAIN_READ_COMPARE (R544). Training helper OP 2 reads and compares lines with the generator. -/
  | trainReadCompare (who : Ident) (ch : Fin 64) (line : BitVec 24) (countm1 : BitVec 24)
  /-- TRAIN_CA_LOOP (R544). Training helper OP 3 drives the CA loop-back and compares it. -/
  | trainCaLoop (who : Ident) (ch : Fin 64) (line : BitVec 24) (countm1 : BitVec 24)
  /-- TRAIN_WRITE_READ (R544). Training helper OP 4 writes, then reads and compares. -/
  | trainWriteRead (who : Ident) (ch : Fin 64) (line : BitVec 24) (countm1 : BitVec 24)
  /-- TRAIN_CMD_DONE (R544). A helper command completes and BUSY clears. -/
  | trainCmdDone (ch : Fin 64) (dqFail : BitVec 24) (caFail : Bool) (errs : BitVec 32)
  /-- ZQ_CALIBRATION_DONE (R542). Impedance calibration of PHY and stack completes. -/
  | zqCalibrationDone (ch : Fin 64)
  /-- MEMORY_FILL_DONE (R542). The training fill of every line with zero, TAG VALID and epoch 0 completes. -/
  | memoryFillDone (ch : Fin 64)
  /-- MEMC_EVLOG_READ (R548). A read of MEMC_EVLOG returns and removes the oldest event. -/
  | memcEvlogRead (site : Fin 16)
  /-- RESET_REQ (R553). A write of RESET_REQ requests a reset domain, and Lehr A grants, absorbs or refuses it. -/
  | resetReq (who : Ident) (kind : BitVec 4) (index : BitVec 8) (t : Nat)
  /-- IDLE_ACK (R557). A block acknowledges the idle request and enters RESET. -/
  | idleAck (b : Block) (t : Nat)
  /-- IDLE_TIMEOUT (R557). WAIT passes without acknowledgement, and the block is fenced. -/
  | idleTimeout (b : Block) (t : Nat)
  /-- ORPHAN_DRAIN_DONE (R558). The ingress crucible holds no entry of the block, so the reset line may end. -/
  | orphanDrainDone (b : Block) (t : Nat)
  /-- RESET_LINE_END (R557). The reset line has been held 10 µs, and the block-specific restart begins. -/
  | resetLineEnd (b : Block) (t : Nat)
  /-- BLOCK_RESTART_DONE (R557). A block's restart completes, the fence lifts and RESET_DONE is logged. -/
  | blockRestartDone (b : Block) (pass : Bool) (t : Nat)
  /-- RESTART_TIMEOUT (R555). A domain misses its bound and is escalated. -/
  | restartTimeout (kind : BitVec 4) (index : BitVec 8) (t : Nat)
  /-- DEVICE_WARM_RESET (R563). The device warm reset sequence runs. -/
  | deviceWarmReset (t : Nat)
  /-- DEVICE_COLD_RESET (R571). The cold boot sequence runs from power good or SYS_RSTN. -/
  | deviceColdReset (t : Nat)
  /-- POWER_GOOD (R651). Every rail has lain in range for 1 ms, which starts a device cold reset. -/
  | powerGood (t : Nat)
  /-- MAIN_RAIL_FAIL (R652). A main rail below its minimum for 5 µs holds every non-Lehr die in reset. -/
  | mainRailFail (t : Nat)
  /-- LEHR_RAIL_FAIL (R652). A Lehr rail below its minimum for 5 µs resets that Lehr die. -/
  | lehrRailFail (isB : Bool) (t : Nat)
  /-- RAIL_FALL (R653). A rail falls, and its outputs go to high impedance within 1 µs. -/
  | railFall (lehrA : Bool) (lehrB : Bool) (main : Bool) (t : Nat)
  /-- SYS_RSTN (R552). SYS_RSTN held low at least 10 µs starts a device cold reset. -/
  | sysRstn (level : Bool) (us : Nat) (acted : Bool) (t : Nat)
  /-- LEHRA_RSTN (R552). LEHRA_RSTN low resets Lehr A, then the device warm domain. -/
  | lehraRstn (us : Nat) (acted : Bool) (t : Nat)
  /-- LEHRB_RSTN (R552). LEHRB_RSTN low resets Lehr B. -/
  | lehrbRstn (us : Nat) (acted : Bool) (t : Nat)
  /-- PCIE_PERSTN (R552). A PCIe conventional reset resets the device warm domain with the link keeper. -/
  | pciePerstn (us : Nat) (acted : Bool) (t : Nat)
  /-- PCIE_HOT_RESET (R552). A PCIe hot reset resets the device warm domain with the link keeper. -/
  | pcieHotReset (t : Nat)
  /-- OPTION_READ_STEP (R570). The option reader finishes reading a block or the repair log, and advances its state. -/
  | optionReadStep
  /-- FLASH_CMD_TIMEOUT (R570). A flash command gets no status or data within 1 ms and counts as failed. -/
  | flashCmdTimeout (entries : BitVec 13)
  /-- OPTION_RETRY_PAUSE (R570). The 10 ms pause after an invalid read ends, and the reader retries block A. -/
  | optionRetryPause
  /-- REPAIR_LOG_APPEND (R568). Lehr A appends a failed column to the repair log in flash. -/
  | repairLogAppend (core : Fin 96) (column : Fin 132) (residue : Bool)
  /-- RESET_EVLOG_READ (R573). A read of RESET_EVLOG returns and removes the oldest event. -/
  | resetEvlogRead
  /-- LOAD_BATCH (R587). DEV_CFGLOAD OP 1 checks and stores the batch list. -/
  | loadBatch (who : Ident) (ecc : MemEcc)
  /-- LOAD_FRIT (R587). DEV_CFGLOAD OP 2 checks and stores a frit list. -/
  | loadFrit (who : Ident) (frit : Fin 16) (ecc : MemEcc)
  /-- FRIT_SWITCH_REQUEST (R588). A write of DEV_FRITCTL makes a frit switch pending, or sets FRITREF. -/
  | fritSwitchRequest (who : Ident) (v : BitVec 32)
  /-- FRIT_SWITCH (R588). At a boundary the frit engine applies the new active configuration. -/
  | fritSwitch (t : Nat)
  /-- DEBUG_REQUEST (R595). DEV_DBGCTL.REQ issues an unlock challenge for the requested scopes. -/
  | debugRequest (who : Ident) (scope : BitVec 4) (t : Nat)
  /-- DEBUG_LOCK (R595). DEV_DBGCTL.LOCK ends every debug unlock. -/
  | debugLock (who : Ident)
  /-- DEBUG_RESPONSE (R595). A write of DEV_DBGRESP submits a signed response that Lehr A accepts or denies. -/
  | debugResponse (who : Ident) (addr : BitVec 64) (ecc : MemEcc) (t : Nat)
  /-- CFG_EVLOG_READ (R597). A read of DEV_CFGEVLOG returns and removes the oldest event. -/
  | cfgEvlogRead
  /-- BLOWPIPE_TOPO_WRITE (R602). A write of BLOWPIPE_TOPO enables the topology and starts port training, or clears EN. -/
  | blowpipeTopoWrite (who : Ident) (v : BitVec 32) (t : Nat)
  /-- BP_PORT_TRAINING_DONE (R602). Port training ends in ACTIVE, NARROW or DOWN. -/
  | bpPortTrainingDone (port : Fin 6) (lanes : BpLanes) (nbr : BitVec 6)
  /-- BP_TRAINING_TIMEOUT (R602). No training within 100 ms takes the port DOWN. -/
  | bpTrainingTimeout (port : Fin 6) (t : Nat)
  /-- BP_REPLAY_LIMIT (R602). 16 replays in 100 µs, or loss of lock, retrains the port and resends its flits. -/
  | bpReplayLimit (port : Fin 6) (lockLost : Bool) (t : Nat)
  /-- BP_FLIT (R600). A flit is received, its CRC is checked and its packets are delivered or relayed. -/
  | bpFlit (port : Fin 6) (fseq : BitVec 16) (ackseq : BitVec 16) (cls : BitVec 2) (words : BitVec 14) (crcOk : Bool) (packets : List BpPacket) (t : Nat)
  /-- BP_FLIT_REPLAY_TIMEOUT (R600). No acknowledgement within 4 µs replays flits. -/
  | bpFlitReplayTimeout (port : Fin 6) (t : Nat)
  /-- BP_DELIVERY_START (R607). After a commit, an outbound channel starts a delivery with BEGIN. -/
  | bpDeliveryStart (chan : Fin 32) (waited : Bool) (t : Nat)
  /-- BP_BEGIN (R610). A BEGIN envelope arrives at an inbound channel and is synchronised, accepted or answered. -/
  | bpBegin (src : Fin 64) (chan : Fin 32) (gen : BitVec 32) (t : Nat)
  /-- BP_DATA (R608). A DATA envelope's packet is staged into the inbound generation. -/
  | bpData (src : Fin 64) (chan : Fin 32) (gen : BitVec 32) (packet : BpData) (t : Nat)
  /-- BP_END (R608). An END envelope completes a delivery if its count and CRC match. -/
  | bpEnd (src : Fin 64) (chan : Fin 32) (gen : BitVec 32) (count : BitVec 32) (crc : BitVec 32) (t : Nat)
  /-- BP_ACK (R608). An ACK updates the sender's ACKGEN. -/
  | bpAck (src : Fin 64) (chan : Fin 32) (gen : BitVec 32) (t : Nat)
  /-- BP_NAK (R609). A NAK fails the delivery and may resynchronise the sender. -/
  | bpNak (src : Fin 64) (chan : Fin 32) (gen : BitVec 32) (code : BitVec 16) (instat : BitVec 32) (t : Nat)
  /-- BP_WAIT (R610). A WAIT makes the sender hold the delivery. -/
  | bpWait (src : Fin 64) (chan : Fin 32) (gen : BitVec 32) (t : Nat)
  /-- BP_BEGIN_REPEAT (R610). A waiting sender repeats BEGIN every 10 µs. -/
  | bpBeginRepeat (chan : Fin 32) (waited : Bool) (t : Nat)
  /-- BP_FWD_TIMEOUT (R609). No ACK within FWDTMO fails the delivery. -/
  | bpFwdTimeout (chan : Fin 32) (t : Nat)
  /-- BP_GEN_TIMEOUT (R610). TMO passes with an incomplete generation, which is abandoned. -/
  | bpGenTimeout (chan : Fin 32) (t : Nat)
  /-- INBOUND_COMMIT (R608). A complete generation commits through the sequencer and updates INSTAT.GEN. -/
  | inboundCommit (chan : Fin 32) (flip : FlipAt)
  /-- FWD_CHANNEL_ENABLE (R616). Setting BLOWPIPE_FWDnA.EN restarts the outbound generations at 1. -/
  | fwdChannelEnable (who : Ident) (chan : Fin 32)
  /-- IN_CHANNEL_ENABLE (R610). Setting BLOWPIPE_INnA.EN resets INSTAT.GEN and SYNCED. -/
  | inChannelEnable (who : Ident) (chan : Fin 32)
  /-- BLOWPIPE_EVLOG_READ (R615). A read of BLOWPIPE_EVLOG returns and removes the oldest event. -/
  | blowpipeEvlogRead
  /-- POWER_SAMPLE (R620). Every 10 µs the power manager samples package power. -/
  | powerSample (power : BitVec 16) (t : Nat)
  /-- POWER_UPDATE (R621). Every 100 µs the power manager updates the core voltage VP. -/
  | powerUpdate (t : Nat)
  /-- SENSOR_READ (R625). A junction sensor reading arrives and is checked for failure. -/
  | sensorRead (sensor : Fin 512) (reading : Option (BitVec 13)) (t : Nat)
  /-- COOLANT_WRITE (R630). Host software writes the coolant inlet temperature, and COOLHIGH is evaluated. -/
  | coolantWrite (who : Ident) (temp : BitVec 12) (t : Nat)
  /-- COOLANT_STALE (R630). No coolant write for 2 s sets COOLSTALE. -/
  | coolantStale (t : Nat)
  /-- CORE_PARK (R624). A core whose THERM_PARK bit is set enters OFF. -/
  | corePark (core : Fin 96)
  /-- CORE_UNPARK (R624). Clearing a park bit returns the core through RESET. -/
  | coreUnpark (core : Fin 96)
  /-- AGE_SAMPLE (R634). Every second Lehr A samples and restarts each core's CORE_STEPMIN. -/
  | ageSample (t : Nat)
  /-- THERM_EVLOG_READ (R643). A read of THERM_EVLOG returns and removes the oldest event. -/
  | thermEvlogRead
  /-- JTAG_INSTRUCTION (R659). A JTAG instruction is loaded, and boundary scan, IDCODE, BYPASS or a gated instruction takes effect. -/
  | jtagInstruction (ir : JtagIr)
  /-- LEHR_HEARTBEAT (R446). A Lehr die receives the other Lehr die's 100 µs heartbeat, which re-arms the loss timer and, after a loss, marks the partner present again (LEHRBOK or LEHRAOK), ends SINGLECH operation and LEHR_FLT00 drive, and releases the Lehr B domain. -/
  | lehrHeartbeat (fromB : Bool) (t : Nat)
  /-- PCIE_PERSTN_RISE (R571). PCIE_PERSTN rises and the host link trains (cold-boot step 6, or within 150 ms of the rise), after which configuration requests are no longer answered with Request Retry Status and READY can become 1. -/
  | pciePerstnRise (rate : BitVec 3) (width : BitVec 5) (flit : Bool) (t : Nat)
  /-- VIRTUAL_FUNCTION_ENABLE (R324). The host turns a virtual function on or off through the SR-IOV capability in configuration space, which changes PCIE_FNSTATp.ENABLED and whether the partition may own rings and run commands. -/
  | virtualFunctionEnable (fn : Fin 16) (on : Bool)
  deriving DecidableEq, Repr

end Sys2Proof
end

