-- ==== Sys2Proof/Decode.lean ====
section
/-! DEFINITION. The command that a table word spells. The block's commands come from outside through its pins, buses and registers; its opcode table gives
no row any bits, so no word spells a command. -/

namespace Sys2Proof

/-- The command spelled by a word of the opcode table's bits: none, since no row of the table has bits. -/
def decodeTableWord (_nbits _w : Nat) : Option Instr := none

end Sys2Proof
end

