-- ==== Sys2Proof/Config.lean ====
section
/-! DEFINITION. What the spec leaves open (free values: opaque constants, no body, so no proof can see what they are),
and what an implementation fixes. -/

namespace Sys2Proof

/-- The nonce Lehr A draws for the n-th use of the model's counter (R582); free (log entry 3). -/
opaque Config.nonce : Nat → BitVec 32

/-- The random challenge nonce of a debug unlock (R595); free (log entry 3). -/
opaque Config.challengeNonce : Nat → BitVec 128

/-- The device serial number (R595); free (log entry 3). -/
opaque Config.serialNumber : BitVec 64

/-- SHA-384 (R590, R595): the standard function is not restated by the spec; free (log entry 3). -/
opaque Config.sha384 : List Byte → List Byte

/-- The root-key hash in Lehr A's fuses (R590); free (log entry 3). -/
opaque Config.rootKeyHash : List Byte

/-- The root-key hash in Lehr B's own fuses (R590, R591); free (log entry 3). -/
opaque Config.rootKeyHashB : List Byte

/-- The debug-key hash in Lehr A's fuses (R595); free (log entry 3). -/
opaque Config.debugKeyHash : List Byte

/-- ECDSA P-384 verification of a signature over a hash under a public key (R590, R595): the standard is not restated; free (log entry 3). -/
opaque Config.ecdsaVerifies : List Byte → List Byte → List Byte → Bool

/-- The byte a training helper's generator drives at a byte of a line (channel, generator setting, fixed word, line, byte; R544): the spec
gives the generator's kinds and not its bit order over the lanes; free (log entry 3). -/
opaque Config.trainByte : Nat → Nat → Nat → Nat → Nat → BitVec 8

/-- The set of a line (its device address / 128) in the system cache of its home, taken modulo 32,768 (R482: the hash is the part's own); free
(log entry 3). -/
opaque Config.cacheSet : Nat → Nat

/-- The place among the allowed ways that the n-th allocation replaces, taken modulo their number (R482: the replacement rule is the part's
own); free (log entry 3). -/
opaque Config.cacheVictim : Nat → Nat

/-- The value of a float-tree accumulator whose leaves arrive partly before and partly after a resumption from a checkpoint image, from the
saved node and the later leaves: the image holds no inner nodes (R174); free (log entry 3). -/
opaque Config.resumedTree : Nat → List (Nat × Nat) → BitVec 34

/-- The CRC bytes of a selection message when no plan record can be read, or none is selected (R440 names only a selected plan's field); free (log entry 3). -/
opaque Config.planCrc : Nat → BitVec 32

/-- How long an operation of a cullet port takes, in ns (R238 gives its bound alone), from the crucible and the time it starts; free (log entry 3). -/
opaque Config.portTime : Nat → Nat → Nat

/-- The integer that Marver makes of an FP32 NaN in a coordinate it converts (R295 states none); free (log entry 3). -/
opaque Config.nanInt : Nat → Int

/-- The neighbour rate ratio after a Pdelay exchange, from the ratio before it and the times t3 and t4 of the exchange (R255: as IEEE 802.1AS defines,
which the spec does not restate); free (log entry 3). -/
opaque Config.neighbourRatio : Int → Nat → Nat → Int

/-- The mean link delay in units of 2^-16 ns after a Pdelay exchange, from the delay before it, the neighbour rate ratio and the four times of the exchange
(R255: as IEEE 802.1AS defines, which the spec does not restate); free (log entry 3). -/
opaque Config.linkDelay : Int → Int → Nat → Nat → Nat → Nat → Int

/-- The CRC field of a Blowpipe delivery's Punty packet, from the device, the channel, the generation, the address and the masked bytes: R467
covers header fields (TAG, DL, the mask) that the spec does not fix for it; free (log entry 3). -/
opaque Config.deliveryCrc : Nat → Nat → Nat → Nat → List (Option Byte) → BitVec 32

/-- The angle code of a detection's FP32 yaw that is no finite number (R312 states none); free (log entry 3). -/
opaque Config.yawCode : Nat → BitVec 16

/-- Whether an FP32 yaw that lies between two angle codes takes the upper one (R312 gives the unit and no rounding); free (log entry 3). -/
opaque Config.yawUp : Nat → Bool

/-- A field of a track record the spec gives no value: a vehicle-frame field without a usable pose (R317), an attribute before the first detection (R304); from the model's counter, the track's slot and
the field; free (log entry 3). -/
opaque Config.noPoseField : Nat → Nat → Nat → BitVec 32

/-- The starting speed of a fallback plan when fewer than two usable pose entries exist (R438 states none), from the model's counter; free (log entry 3). -/
opaque Config.startSpeed : Nat → BitVec 32

/-- A coordinate of a fallback plan's point that lies beyond the end of the reference path (R438 states none), from the model's counter, the point and
the coordinate; free (log entry 3). -/
opaque Config.pastPath : Nat → Nat → Nat → BitVec 32

/-- DSTBASE, in 4 KiB units, of an inbound channel of another device (R607), which this device does not hold: by device and channel; free (log entry 3). -/
opaque Config.remoteBase : Nat → Nat → BitVec 36

end Sys2Proof
end

