-- ==== Sys2Proof/Machine/Bits.lean ====
section
/-! DEFINITION. Bit fields, byte order (R7: little-endian), signed reading, wrapping counters (R25) and CRC-32C, which
several chapters name. -/

namespace Sys2Proof.Machine

/-- The `n`-bit field of a number whose lowest bit is bit `lo`. -/
def bitsOf (v lo n : Nat) : Nat := v / 2 ^ lo % 2 ^ n

/-- The field [lo + n - 1 : lo] of a register word. -/
def fld (w : Word) (lo n : Nat) : Nat := bitsOf w.toNat lo n

/-- Bit `i` of a register word. -/
def bitAt (w : Word) (i : Nat) : Bool := decide (fld w i 1 = 1)

/-- A register word with its field [lo + n - 1 : lo] replaced; a value wider than the field is cut to it. -/
def setFld (w : Word) (lo n v : Nat) : Word :=
  BitVec.ofNat 64 (w.toNat - fld w lo n * 2 ^ lo + v % 2 ^ n * 2 ^ lo)

/-- A register word with bit `i` set or cleared. -/
def setBit (w : Word) (i : Nat) (b : Bool) : Word := setFld w i 1 (if b then 1 else 0)

/-- A field raised by `k`, stopping at its largest value (the counters a table calls saturating). -/
def satFld (w : Word) (lo n k : Nat) : Word := setFld w lo n (min (2 ^ n - 1) (fld w lo n + k))

/-- The signed value of the low `n` bits (two's complement, R8). -/
def signedOf (v n : Nat) : Int :=
  let u := v % 2 ^ n
  if u < 2 ^ (n - 1) then (u : Int) else (u : Int) - (2 ^ n : Nat)

/-- The low `n` bits of an integer (two's complement). -/
def wrapInt (x : Int) (n : Nat) : Nat := (x % ((2 ^ n : Nat) : Int)).toNat

/-- A value held between two bounds. -/
def clampNat (lo hi v : Nat) : Nat := max lo (min hi v)

/-- The difference of two free-running counts. -/
def countDiff (a b : Nat) : Nat := (a + 2 ^ 32 - b % 2 ^ 32) % 2 ^ 32

/-- R25: `b` is newer than `a` when (b - a) mod 2^32 lies in 1 to 2^31 - 1. -/
def newer32 (b a : Nat) : Bool :=
  let d := (b + 2 ^ 32 - a % 2 ^ 32) % 2 ^ 32
  decide (1 ≤ d) && decide (d < 2 ^ 31)

/-- The value of a list of bytes, lowest address first (R7). -/
def leNat : List Byte → Nat
  | [] => 0
  | b :: bs => b.toNat + 256 * leNat bs

/-- The `n` bytes of a value, lowest address first (R7). -/
def leBytes : Nat → Nat → List Byte
  | 0, _ => []
  | n + 1, v => BitVec.ofNat 8 v :: leBytes n (v / 256)

/-- The value of a list of bytes, most significant first (the packet fields of R432 and R590). -/
def beNat (bs : List Byte) : Nat := leNat bs.reverse

/-- `n` bytes of a list from an offset, short only where the list ends. -/
def sliceBytes (bs : List Byte) (off n : Nat) : List Byte := (bs.drop off).take n

/-- The little-endian value of `n` bytes at an offset of a list. -/
def leAt (bs : List Byte) (off n : Nat) : Nat := leNat (sliceBytes bs off n)

/-- Eight steps of the reflected CRC-32C division (polynomial 0x1EDC6F41). -/
def crcShift : Nat → Nat → Nat
  | 0, c => c
  | n + 1, c => crcShift n (if c % 2 = 1 then (c / 2) ^^^ 0x82F63B78 else c / 2)

/-- One byte taken into a CRC-32C remainder. -/
def crcByte (c : Nat) (b : Byte) : Nat := crcShift 8 (c ^^^ b.toNat)

/-- CRC-32C of a list of bytes (start and final inversion 0xFFFF_FFFF). -/
def crc32c (bs : List Byte) : Nat := bs.foldl crcByte 0xFFFFFFFF ^^^ 0xFFFFFFFF

/-- Whether every byte of a list is zero (a reserved stretch of a block). -/
def allZero (bs : List Byte) : Bool := bs.all (· = 0#8)

end Sys2Proof.Machine
end

