-- ==== Sys2Proof/Machine/RegMap.lean ====
section
/-! DEFINITION. The register map: the CSR offset of every register the spec lists (R20 for the block
bases, the register tables of the chapters for the rest), its width, its reset value and the masks of its fields by access code
(R10).  Every register has one definition giving its offset from 0xF000_0000_0000; a block with several copies
takes the copy's index first. -/

namespace Sys2Proof.Machine

/-- DEV_FRMCTL (R42). -/
def Reg.devFrmctl : Nat := 0x400
/-- DEV_FRMPER (R42). -/
def Reg.devFrmper : Nat := 0x408
/-- DEV_FRMPHASE (R42). -/
def Reg.devFrmphase : Nat := 0x410
/-- DEV_FRMCNT (R42). -/
def Reg.devFrmcnt : Nat := 0x418
/-- DEV_FRMSTART (R42). -/
def Reg.devFrmstart : Nat := 0x420
/-- CORE_ID (R120). -/
def Reg.coreId (c : Nat) : Nat := 0x1000000 + 0x10000 * c
/-- CORE_STATE (R120). -/
def Reg.coreState (c : Nat) : Nat := 0x1000008 + 0x10000 * c
/-- CORE_CTL (R120). -/
def Reg.coreCtl (c : Nat) : Nat := 0x1000010 + 0x10000 * c
/-- CORE_FAULT (R120). -/
def Reg.coreFault (c : Nat) : Nat := 0x1000018 + 0x10000 * c
/-- CORE_AFLAGS (R120). -/
def Reg.coreAflags (c : Nat) : Nat := 0x1000020 + 0x10000 * c
/-- CORE_CMD (R120). -/
def Reg.coreCmd (c : Nat) : Nat := 0x1000028 + 0x10000 * c
/-- CORE_STEPRATE (R120). -/
def Reg.coreSteprate (c : Nat) : Nat := 0x1000040 + 0x10000 * c
/-- CORE_STEPMIN (R120). -/
def Reg.coreStepmin (c : Nat) : Nat := 0x1000048 + 0x10000 * c
/-- CORE_STEPCNT (R120). -/
def Reg.coreStepcnt (c : Nat) : Nat := 0x1000050 + 0x10000 * c
/-- CORE_BUSYNS (R120). -/
def Reg.coreBusyns (c : Nat) : Nat := 0x1000058 + 0x10000 * c
/-- CORE_VSET (R120). -/
def Reg.coreVset (c : Nat) : Nat := 0x1000060 + 0x10000 * c
/-- CORE_COLMAP (R120). -/
def Reg.coreColmap (c : Nat) : Nat := 0x1000080 + 0x10000 * c
/-- CORE_REPSTAT (R120). -/
def Reg.coreRepstat (c : Nat) : Nat := 0x1000088 + 0x10000 * c
/-- CORE_SPECC (R120). -/
def Reg.coreSpecc (c : Nat) : Nat := 0x10000a0 + 0x10000 * c
/-- CORE_SPUNC (R120). -/
def Reg.coreSpunc (c : Nat) : Nat := 0x10000a8 + 0x10000 * c
/-- CORE_RESFAIL (R120). -/
def Reg.coreResfail (c : Nat) : Nat := 0x10000b0 + 0x10000 * c
/-- CORE_PORTRD (R120). -/
def Reg.corePortrd (c : Nat) : Nat := 0x10000c0 + 0x10000 * c
/-- CORE_PORTWR (R120). -/
def Reg.corePortwr (c : Nat) : Nat := 0x10000c8 + 0x10000 * c
/-- CORE_OUTST (R120). -/
def Reg.coreOutst (c : Nat) : Nat := 0x10000d0 + 0x10000 * c
/-- CORE_WINREF (R120). -/
def Reg.coreWinref (c : Nat) : Nat := 0x10000d8 + 0x10000 * c
/-- CORE_TPIMAGE (R181). -/
def Reg.coreTpimage (c : Nat) : Nat := 0x1001000 + 0x10000 * c
/-- CORE_TPSTAT (R181). -/
def Reg.coreTpstat (c : Nat) : Nat := 0x1001008 + 0x10000 * c
/-- CORE_TPWORD0 (R181). -/
def Reg.coreTpword0 (c : Nat) : Nat := 0x1001010 + 0x10000 * c
/-- CORE_TPWORD1 (R181). -/
def Reg.coreTpword1 (c : Nat) : Nat := 0x1001018 + 0x10000 * c
/-- CORE_TPWORD2 (R181). -/
def Reg.coreTpword2 (c : Nat) : Nat := 0x1001020 + 0x10000 * c
/-- CORE_TPWORD3 (R181). -/
def Reg.coreTpword3 (c : Nat) : Nat := 0x1001028 + 0x10000 * c
/-- CORE_TPWORD4 (R181). -/
def Reg.coreTpword4 (c : Nat) : Nat := 0x1001030 + 0x10000 * c
/-- CORE_TPCKPT (R181). -/
def Reg.coreTpckpt (c : Nat) : Nat := 0x1001040 + 0x10000 * c
/-- CORE_TPFAUX (R181). -/
def Reg.coreTpfaux (c : Nat) : Nat := 0x1001048 + 0x10000 * c
/-- CORE_TPFCNT (R181). -/
def Reg.coreTpfcnt (c : Nat) : Nat := 0x1001050 + 0x10000 * c
/-- CORE_TPBRK (R181). -/
def Reg.coreTpbrk (c : Nat) : Nat := 0x1001060 + 0x10000 * c
/-- CORE_TPSTEP (R181). -/
def Reg.coreTpstep (c : Nat) : Nat := 0x1001068 + 0x10000 * c
/-- CORE_TPSLOTBASEn (R181). -/
def Reg.coreTpslotbase (c : Nat) (n : Nat) : Nat := 0x1001100 + 0x10000 * c + 0x10 * n
/-- CORE_TPSLOTSIZEn (R181). -/
def Reg.coreTpslotsize (c : Nat) (n : Nat) : Nat := 0x1001108 + 0x10000 * c + 0x10 * n
/-- CORE_SYNCn (R205). -/
def Reg.coreSync (c : Nat) (n : Nat) : Nat := 0x1008000 + 0x10000 * c + 0x4 * n
/-- CULLET_ID (R239). -/
def Reg.culletId (k : Nat) : Nat := 0x2000000 + 0x40000 * k
/-- CULLET_STATUS (R239). -/
def Reg.culletStatus (k : Nat) : Nat := 0x2000008 + 0x40000 * k
/-- CULLET_POOLBASE (R239). -/
def Reg.culletPoolbase (k : Nat) : Nat := 0x2000010 + 0x40000 * k
/-- CULLET_POOLCFG (R239). -/
def Reg.culletPoolcfg (k : Nat) : Nat := 0x2000018 + 0x40000 * k
/-- CULLET_FREE (R239). -/
def Reg.culletFree (k : Nat) : Nat := 0x2000020 + 0x40000 * k
/-- CULLET_SCRUBQ (R239). -/
def Reg.culletScrubq (k : Nat) : Nat := 0x2000028 + 0x40000 * k
/-- CULLET_OPCMD (R239). -/
def Reg.culletOpcmd (k : Nat) : Nat := 0x2000040 + 0x40000 * k
/-- CULLET_OPARG (R239). -/
def Reg.culletOparg (k : Nat) : Nat := 0x2000048 + 0x40000 * k
/-- CULLET_OPSTAT (R239). -/
def Reg.culletOpstat (k : Nat) : Nat := 0x2000050 + 0x40000 * k
/-- CULLET_PTSEL (R239). -/
def Reg.culletPtsel (k : Nat) : Nat := 0x2000060 + 0x40000 * k
/-- CULLET_PTDATA (R239). -/
def Reg.culletPtdata (k : Nat) : Nat := 0x2000068 + 0x40000 * k
/-- CULLET_BTSEL (R239). -/
def Reg.culletBtsel (k : Nat) : Nat := 0x2000070 + 0x40000 * k
/-- CULLET_BTDATA (R239). -/
def Reg.culletBtdata (k : Nat) : Nat := 0x2000078 + 0x40000 * k
/-- CULLET_BTFLAGS (R239). -/
def Reg.culletBtflags (k : Nat) : Nat := 0x2000080 + 0x40000 * k
/-- CULLET_WALKS (R239). -/
def Reg.culletWalks (k : Nat) : Nat := 0x20000c0 + 0x40000 * k
/-- CULLET_REFUSED (R239). -/
def Reg.culletRefused (k : Nat) : Nat := 0x20000c8 + 0x40000 * k
/-- CULLET_TAINT (R239). -/
def Reg.culletTaint (k : Nat) : Nat := 0x20000d0 + 0x40000 * k
/-- CULLET_ROLLED (R239). -/
def Reg.culletRolled (k : Nat) : Nat := 0x20000d8 + 0x40000 * k
/-- CULLET_OWNREF (R239). -/
def Reg.culletOwnref (k : Nat) : Nat := 0x20000e0 + 0x40000 * k
/-- CULLET_QUOTAn (R239). -/
def Reg.culletQuota (k : Nat) (n : Nat) : Nat := 0x2000100 + 0x40000 * k + 0x8 * n
/-- CULLET_USEDn (R239). -/
def Reg.culletUsed (k : Nat) (n : Nat) : Nat := 0x2000180 + 0x40000 * k + 0x8 * n
/-- CULLET_SEQCFGs (R239). -/
def Reg.culletSeqcfg (k : Nat) (s : Nat) : Nat := 0x2010000 + 0x40000 * k + 0x20 * s
/-- CULLET_SEQLENs (R239). -/
def Reg.culletSeqlen (k : Nat) (s : Nat) : Nat := 0x2010008 + 0x40000 * k + 0x20 * s
/-- CULLET_SEQRECs (R239). -/
def Reg.culletSeqrec (k : Nat) (s : Nat) : Nat := 0x2010010 + 0x40000 * k + 0x20 * s
/-- CULLET_SEQSEGs (R239). -/
def Reg.culletSeqseg (k : Nat) (s : Nat) : Nat := 0x2010018 + 0x40000 * k + 0x20 * s
/-- MARVER_CAMCFGn (R280). -/
def Reg.marverCamcfg (n : Nat) : Nat := 0x310000 + 0x8 * n
/-- MARVER_CAMSTn (R280). -/
def Reg.marverCamst (n : Nat) : Nat := 0x310080 + 0x8 * n
/-- MARVER_ETHCFGn (R280). -/
def Reg.marverEthcfg (n : Nat) : Nat := 0x310100 + 0x8 * n
/-- MARVER_ETHSTn (R280). -/
def Reg.marverEthst (n : Nat) : Nat := 0x310140 + 0x8 * n
/-- MARVER_ETHDROPn (R280). -/
def Reg.marverEthdrop (n : Nat) : Nat := 0x310180 + 0x8 * n
/-- MARVER_TSCTL (R280). -/
def Reg.marverTsctl : Nat := 0x310200
/-- MARVER_CLOSE (R280). -/
def Reg.marverClose : Nat := 0x310208
/-- MARVER_PROJSTAT (R280). -/
def Reg.marverProjstat : Nat := 0x310210
/-- MARVER_PROJCNT (R280). -/
def Reg.marverProjcnt : Nat := 0x310218
/-- MARVER_PROJDROP (R280). -/
def Reg.marverProjdrop : Nat := 0x310220
/-- MARVER_GPCTL (R280). -/
def Reg.marverGpctl : Nat := 0x310400
/-- MARVER_GPSTAT (R280). -/
def Reg.marverGpstat : Nat := 0x310408
/-- MARVER_GPOFF (R280). -/
def Reg.marverGpoff : Nat := 0x310410
/-- MARVER_GPRATE (R280). -/
def Reg.marverGprate : Nat := 0x310418
/-- MARVER_GPREF (R280). -/
def Reg.marverGpref : Nat := 0x310420
/-- MARVER_GPGM (R280). -/
def Reg.marverGpgm : Nat := 0x310428
/-- MARVER_POSEBASE (R280). -/
def Reg.marverPosebase : Nat := 0x310800
/-- MARVER_POSECFG (R280). -/
def Reg.marverPosecfg : Nat := 0x310808
/-- MARVER_POSEWR (R280). -/
def Reg.marverPosewr : Nat := 0x310810
/-- MARVER_POSERD (R280). -/
def Reg.marverPoserd : Nat := 0x310818
/-- MARVER_POSESTAT (R280). -/
def Reg.marverPosestat : Nat := 0x310820
/-- MARVER_INJRDs (R280). -/
def Reg.marverInjrd (s : Nat) : Nat := 0x310900 + 0x8 * s
/-- MARVER_GRIDCFG (R280). -/
def Reg.marverGridcfg : Nat := 0x310c00
/-- MARVER_GRIDORG (R280). -/
def Reg.marverGridorg : Nat := 0x310c08
/-- MARVER_GRIDSCL (R280). -/
def Reg.marverGridscl : Nat := 0x310c10
/-- MARVER_GRIDZ (R280). -/
def Reg.marverGridz : Nat := 0x310c18
/-- MARVER_GRIDBASE (R280). -/
def Reg.marverGridbase : Nat := 0x310c20
/-- MARVER_SCFGs (R280). -/
def Reg.marverScfg (s : Nat) : Nat := 0x320000 + 0x80 * s
/-- MARVER_SMATCHs (R280). -/
def Reg.marverSmatch (s : Nat) : Nat := 0x320008 + 0x80 * s
/-- MARVER_STIMEs (R280). -/
def Reg.marverStime (s : Nat) : Nat := 0x320010 + 0x80 * s
/-- MARVER_SSRVs (R280). -/
def Reg.marverSsrv (s : Nat) : Nat := 0x320018 + 0x80 * s
/-- MARVER_SLIMs (R280). -/
def Reg.marverSlim (s : Nat) : Nat := 0x320020 + 0x80 * s
/-- MARVER_SREFs (R280). -/
def Reg.marverSref (s : Nat) : Nat := 0x320028 + 0x80 * s
/-- MARVER_SBUFs (R280). -/
def Reg.marverSbuf (s : Nat) : Nat := 0x320030 + 0x80 * s
/-- MARVER_SSLOTs (R280). -/
def Reg.marverSslot (s : Nat) : Nat := 0x320038 + 0x80 * s
/-- MARVER_SCALs (R280). -/
def Reg.marverScal (s : Nat) : Nat := 0x320040 + 0x80 * s
/-- MARVER_SHOLDs (R280). -/
def Reg.marverShold (s : Nat) : Nat := 0x320048 + 0x80 * s
/-- MARVER_SSTATs (R280). -/
def Reg.marverSstat (s : Nat) : Nat := 0x320050 + 0x80 * s
/-- MARVER_SOFFs (R280). -/
def Reg.marverSoff (s : Nat) : Nat := 0x320058 + 0x80 * s
/-- MARVER_SRATEs (R280). -/
def Reg.marverSrate (s : Nat) : Nat := 0x320060 + 0x80 * s
/-- MARVER_SCNTs (R280). -/
def Reg.marverScnt (s : Nat) : Nat := 0x320068 + 0x80 * s
/-- MARVER_SREJs (R280). -/
def Reg.marverSrej (s : Nat) : Nat := 0x320070 + 0x80 * s
/-- MARVER_SDROPs (R280). -/
def Reg.marverSdrop (s : Nat) : Nat := 0x320078 + 0x80 * s
/-- MARVER_ID (R319). -/
def Reg.marverId : Nat := 0x300000
/-- MARVER_FUSCTL (R319). -/
def Reg.marverFusctl : Nat := 0x300008
/-- MARVER_FUSSTAT (R319). -/
def Reg.marverFusstat : Nat := 0x300010
/-- MARVER_EVLOG (R319). -/
def Reg.marverEvlog : Nat := 0x300018
/-- MARVER_TRKGO (R319). -/
def Reg.marverTrkgo : Nat := 0x300020
/-- MARVER_SCATGO (R319). -/
def Reg.marverScatgo : Nat := 0x300028
/-- MARVER_DETBASE (R319). -/
def Reg.marverDetbase : Nat := 0x300030
/-- MARVER_SCATBASE (R319). -/
def Reg.marverScatbase : Nat := 0x300038
/-- MARVER_CGBASE (R319). -/
def Reg.marverCgbase : Nat := 0x300040
/-- MARVER_TRKBASE (R319). -/
def Reg.marverTrkbase : Nat := 0x300048
/-- MARVER_TRKCFG (R319). -/
def Reg.marverTrkcfg : Nat := 0x300050
/-- MARVER_GATES (R319). -/
def Reg.marverGates : Nat := 0x300058
/-- MARVER_CLCFG (R319). -/
def Reg.marverClcfg : Nat := 0x300060
/-- MARVER_DLINE (R319). -/
def Reg.marverDline : Nat := 0x300068
/-- MARVER_CNFCFG (R319). -/
def Reg.marverCnfcfg : Nat := 0x300070
/-- MARVER_PMAX (R319). -/
def Reg.marverPmax : Nat := 0x300078
/-- MARVER_QDn (R319). -/
def Reg.marverQd (n : Nat) : Nat := 0x300080 + 0x8 * n
/-- MARVER_INITn (R319). -/
def Reg.marverInit (n : Nat) : Nat := 0x3000c0 + 0x8 * n
/-- MARVER_TRKSTAT (R319). -/
def Reg.marverTrkstat : Nat := 0x300100
/-- MARVER_FBSTAT (R319). -/
def Reg.marverFbstat : Nat := 0x300108
/-- MARVER_GRIDSTAT (R319). -/
def Reg.marverGridstat : Nat := 0x300110
/-- MARVER_TRKREF (R319). -/
def Reg.marverTrkref : Nat := 0x300140
/-- MARVER_MEASDROP (R319). -/
def Reg.marverMeasdrop : Nat := 0x300148
/-- MARVER_CNFSTATE (R319). -/
def Reg.marverCnfstate : Nat := 0x300150
/-- MARVER_CNFEXIST (R319). -/
def Reg.marverCnfexist : Nat := 0x300158
/-- MARVER_SCATCNT (R319). -/
def Reg.marverScatcnt : Nat := 0x300160
/-- MARVER_SCATDROP (R319). -/
def Reg.marverScatdrop : Nat := 0x300168
/-- MARVER_OVERRUN (R319). -/
def Reg.marverOverrun : Nat := 0x300170
/-- MARVER_HCFGs (R319). -/
def Reg.marverHcfg (s : Nat) : Nat := 0x330000 + 0x20 * s
/-- MARVER_COVs (R319). -/
def Reg.marverCov (s : Nat) : Nat := 0x330008 + 0x20 * s
/-- MARVER_HSTATs (R319). -/
def Reg.marverHstat (s : Nat) : Nat := 0x330010 + 0x20 * s
/-- MARVER_PLCNTs (R319). -/
def Reg.marverPlcnt (s : Nat) : Nat := 0x330018 + 0x20 * s
/-- BOMUS_RCFGn (R367). -/
def Reg.bomusRcfg (n : Nat) : Nat := 0x100000 + 0x1000 * n
/-- BOMUS_SQBASEn (R367). -/
def Reg.bomusSqbase (n : Nat) : Nat := 0x100008 + 0x1000 * n
/-- BOMUS_CQBASEn (R367). -/
def Reg.bomusCqbase (n : Nat) : Nat := 0x100010 + 0x1000 * n
/-- BOMUS_SQHEADn (R367). -/
def Reg.bomusSqhead (n : Nat) : Nat := 0x100018 + 0x1000 * n
/-- BOMUS_SQTAILn (R367). -/
def Reg.bomusSqtail (n : Nat) : Nat := 0x100020 + 0x1000 * n
/-- BOMUS_CQTAILn (R367). -/
def Reg.bomusCqtail (n : Nat) : Nat := 0x100028 + 0x1000 * n
/-- BOMUS_CQHEADn (R367). -/
def Reg.bomusCqhead (n : Nat) : Nat := 0x100030 + 0x1000 * n
/-- BOMUS_RSTATn (R367). -/
def Reg.bomusRstat (n : Nat) : Nat := 0x100038 + 0x1000 * n
/-- BOMUS_LASTSEQn (R367). -/
def Reg.bomusLastseq (n : Nat) : Nat := 0x100040 + 0x1000 * n
/-- BOMUS_LIVEn (R367). -/
def Reg.bomusLive (n : Nat) : Nat := 0x100048 + 0x1000 * n
/-- BOMUS_TOTALn (R367). -/
def Reg.bomusTotal (n : Nat) : Nat := 0x100050 + 0x1000 * n
/-- PCIE_LINKSTAT (R369). -/
def Reg.pcieLinkstat : Nat := 0x800000
/-- PCIE_CORRCNT (R369). -/
def Reg.pcieCorrcnt : Nat := 0x800008
/-- PCIE_FNCFGp (R369). -/
def Reg.pcieFncfg (p : Nat) : Nat := 0x800100 + 0x8 * p
/-- PCIE_FNSTATp (R369). -/
def Reg.pcieFnstat (p : Nat) : Nat := 0x800180 + 0x8 * p
/-- PCIE_BAR4REFp (R369). -/
def Reg.pcieBar4ref (p : Nat) : Nat := 0x800200 + 0x8 * p
/-- DEV_SCHEDCTL (R401). -/
def Reg.devSchedctl : Nat := 0x2000
/-- DEV_RUNLIM (R401). -/
def Reg.devRunlim : Nat := 0x2008
/-- DEV_SBSTAT (R401). -/
def Reg.devSbstat : Nat := 0x2010
/-- DEV_COMMITIDX (R401). -/
def Reg.devCommitidx : Nat := 0x2018
/-- DEV_EVFRAMEe (R401). -/
def Reg.devEvframe (e : Nat) : Nat := 0x2020 + 0x8 * e
/-- DEV_STAGECFGk (R401). -/
def Reg.devStagecfg (k : Nat) : Nat := 0x2080 + 0x8 * k
/-- DEV_STAGEUSEk (R401). -/
def Reg.devStageuse (k : Nat) : Nat := 0x20a0 + 0x8 * k
/-- DEV_SHAREp (R401). -/
def Reg.devShare (p : Nat) : Nat := 0x2100 + 0x8 * p
/-- DEV_VTp (R401). -/
def Reg.devVt (p : Nat) : Nat := 0x2180 + 0x8 * p
/-- DEV_ACCTp (R401). -/
def Reg.devAcct (p : Nat) : Nat := 0x2200 + 0x8 * p
/-- DEV_WASTEp (R401). -/
def Reg.devWaste (p : Nat) : Nat := 0x2280 + 0x8 * p
/-- DEV_SRESn (R401). -/
def Reg.devSres (n : Nat) : Nat := 0x2400 + 0x8 * n
/-- DEV_MTRIGCFGn (R401). -/
def Reg.devMtrigcfg (n : Nat) : Nat := 0x2600 + 0x10 * n
/-- DEV_MTRIGADDRn (R401). -/
def Reg.devMtrigaddr (n : Nat) : Nat := 0x2608 + 0x10 * n
/-- BENCH_ID (R403). -/
def Reg.benchId (d : Nat) : Nat := 0x200000 + 0x10000 * d
/-- BENCH_BIND (R403). -/
def Reg.benchBind (d : Nat) : Nat := 0x200008 + 0x10000 * d
/-- BENCH_DISPCNT (R403). -/
def Reg.benchDispcnt (d : Nat) : Nat := 0x200010 + 0x10000 * d
/-- BENCH_PREKILL (R403). -/
def Reg.benchPrekill (d : Nat) : Nat := 0x200018 + 0x10000 * d
/-- BENCH_CKPTCNT (R403). -/
def Reg.benchCkptcnt (d : Nat) : Nat := 0x200020 + 0x10000 * d
/-- BENCH_RESUMECNT (R403). -/
def Reg.benchResumecnt (d : Nat) : Nat := 0x200028 + 0x10000 * d
/-- BENCH_RUNLIMCNT (R403). -/
def Reg.benchRunlimcnt (d : Nat) : Nat := 0x200030 + 0x10000 * d
/-- BENCH_RHSLICE (R403). -/
def Reg.benchRhslice (d : Nat) : Nat := 0x200038 + 0x10000 * d
/-- BENCH_RHABORT (R403). -/
def Reg.benchRhabort (d : Nat) : Nat := 0x200040 + 0x10000 * d
/-- BENCH_RHMISS (R403). -/
def Reg.benchRhmiss (d : Nat) : Nat := 0x200048 + 0x10000 * d
/-- LEHRA_ID (R451). -/
def Reg.lehraId : Nat := 0x400000
/-- LEHRA_STAT (R451). -/
def Reg.lehraStat : Nat := 0x400008
/-- LEHRA_SELCFG (R451). -/
def Reg.lehraSelcfg : Nat := 0x400010
/-- LEHRA_SELLAST (R451). -/
def Reg.lehraSellast : Nat := 0x400018
/-- LEHRA_QCFG (R451). -/
def Reg.lehraQcfg : Nat := 0x400020
/-- LEHRA_GAFHB (R451). -/
def Reg.lehraGafhb : Nat := 0x400028
/-- LEHRA_EVLOG (R451). -/
def Reg.lehraEvlog : Nat := 0x400030
/-- LEHRA_WDKICK (R451). -/
def Reg.lehraWdkick : Nat := 0x400038
/-- LEHRA_VNCFG (R451). -/
def Reg.lehraVncfg : Nat := 0x400040
/-- LEHRA_PAIRMASK (R451). -/
def Reg.lehraPairmask : Nat := 0x400048
/-- LEHRA_CMPCNT (R451). -/
def Reg.lehraCmpcnt : Nat := 0x400080
/-- LEHRA_MISMATCH (R451). -/
def Reg.lehraMismatch : Nat := 0x400088
/-- LEHRA_FBCNT (R451). -/
def Reg.lehraFbcnt : Nat := 0x400090
/-- LEHRA_SPLITFR (R451). -/
def Reg.lehraSplitfr : Nat := 0x400098
/-- LEHRA_SIGBAD (R451). -/
def Reg.lehraSigbad : Nat := 0x4000a0
/-- LEHRA_WDSTRAY (R451). -/
def Reg.lehraWdstray : Nat := 0x4000a8
/-- LEHRA_CMPTEST (R451). -/
def Reg.lehraCmptest : Nat := 0x4000b0
/-- LEHRA_CORESTATc (R451). -/
def Reg.lehraCorestat (c : Nat) : Nat := 0x400400 + 0x8 * c
/-- LEHRA_SELHISTj (R451). -/
def Reg.lehraSelhist (j : Nat) : Nat := 0x400800 + 0x8 * j
/-- LEHRA_WDCFGn (R451). -/
def Reg.lehraWdcfg (n : Nat) : Nat := 0x401000 + 0x10 * n
/-- LEHRA_WDSRCn (R451). -/
def Reg.lehraWdsrc (n : Nat) : Nat := 0x401008 + 0x10 * n
/-- LEHRA_WDSTATn (R451). -/
def Reg.lehraWdstat (n : Nat) : Nat := 0x401400 + 0x8 * n
/-- LEHRB_ID (R453). -/
def Reg.lehrbId : Nat := 0x480000
/-- LEHRB_STAT (R453). -/
def Reg.lehrbStat : Nat := 0x480008
/-- LEHRB_ENV0 (R453). -/
def Reg.lehrbEnv0 : Nat := 0x480010
/-- LEHRB_ENV1 (R453). -/
def Reg.lehrbEnv1 : Nat := 0x480018
/-- LEHRB_ENV2 (R453). -/
def Reg.lehrbEnv2 : Nat := 0x480020
/-- LEHRB_ENV3 (R453). -/
def Reg.lehrbEnv3 : Nat := 0x480028
/-- LEHRB_FB (R453). -/
def Reg.lehrbFb : Nat := 0x480030
/-- LEHRB_FBLATE (R453). -/
def Reg.lehrbFblate : Nat := 0x480038
/-- LEHRB_FBBASE (R453). -/
def Reg.lehrbFbbase : Nat := 0x480040
/-- LEHRB_VERDICT (R453). -/
def Reg.lehrbVerdict : Nat := 0x480048
/-- LEHRB_VNCFG (R453). -/
def Reg.lehrbVncfg : Nat := 0x480050
/-- LEHRB_RADVAR (R453). -/
def Reg.lehrbRadvar : Nat := 0x480058
/-- LEHRB_RADCALr (R453). -/
def Reg.lehrbRadcal (r : Nat) : Nat := 0x480060 + 0x8 * r
/-- LEHRB_BLKCNT (R453). -/
def Reg.lehrbBlkcnt : Nat := 0x480080
/-- LEHRB_BLKREJ (R453). -/
def Reg.lehrbBlkrej : Nat := 0x480088
/-- LEHRB_FAILCNT (R453). -/
def Reg.lehrbFailcnt : Nat := 0x480090
/-- CRUC_ID (R497). -/
def Reg.crucId (k : Nat) : Nat := 0x500000 + 0x40000 * k
/-- CRUC_STAT (R497). -/
def Reg.crucStat (k : Nat) : Nat := 0x500008 + 0x40000 * k
/-- CRUC_EVLOG (R497). -/
def Reg.crucEvlog (k : Nat) : Nat := 0x500010 + 0x40000 * k
/-- CRUC_EVADDR (R497). -/
def Reg.crucEvaddr (k : Nat) : Nat := 0x500018 + 0x40000 * k
/-- CRUC_CMAINT (R497). -/
def Reg.crucCmaint (k : Nat) : Nat := 0x500020 + 0x40000 * k
/-- CRUC_CMSTAT (R497). -/
def Reg.crucCmstat (k : Nat) : Nat := 0x500028 + 0x40000 * k
/-- CRUC_CWAYn (R497). -/
def Reg.crucCway (k : Nat) (n : Nat) : Nat := 0x500040 + 0x40000 * k + 0x8 * n
/-- CRUC_UNMAP (R497). -/
def Reg.crucUnmap (k : Nat) : Nat := 0x500100 + 0x40000 * k
/-- CRUC_RGNREF (R497). -/
def Reg.crucRgnref (k : Nat) : Nat := 0x500108 + 0x40000 * k
/-- CRUC_CHIT (R497). -/
def Reg.crucChit (k : Nat) : Nat := 0x500110 + 0x40000 * k
/-- CRUC_CMISS (R497). -/
def Reg.crucCmiss (k : Nat) : Nat := 0x500118 + 0x40000 * k
/-- CRUC_CCORR (R497). -/
def Reg.crucCcorr (k : Nat) : Nat := 0x500120 + 0x40000 * k
/-- CRUC_CUNC (R497). -/
def Reg.crucCunc (k : Nat) : Nat := 0x500128 + 0x40000 * k
/-- CRUC_COMB (R497). -/
def Reg.crucComb (k : Nat) : Nat := 0x500130 + 0x40000 * k
/-- CRUC_COMBREF (R497). -/
def Reg.crucCombref (k : Nat) : Nat := 0x500138 + 0x40000 * k
/-- CRUC_POISON (R497). -/
def Reg.crucPoison (k : Nat) : Nat := 0x500140 + 0x40000 * k
/-- CRUC_STALE (R497). -/
def Reg.crucStale (k : Nat) : Nat := 0x500148 + 0x40000 * k
/-- CRUC_MALFORM (R497). -/
def Reg.crucMalform (k : Nat) : Nat := 0x500150 + 0x40000 * k
/-- CRUC_TRK (R497). -/
def Reg.crucTrk (k : Nat) : Nat := 0x500158 + 0x40000 * k
/-- CRUC_RGNnA (R497). -/
def Reg.crucRgna (k : Nat) (n : Nat) : Nat := 0x501000 + 0x40000 * k + 0x10 * n
/-- CRUC_RGNnB (R497). -/
def Reg.crucRgnb (k : Nat) (n : Nat) : Nat := 0x501008 + 0x40000 * k + 0x10 * n
/-- PUNTY_ID (R500). -/
def Reg.puntyId : Nat := 0x700000
/-- PUNTY_CFG (R500). -/
def Reg.puntyCfg : Nat := 0x700008
/-- PUNTY_STAT (R500). -/
def Reg.puntyStat : Nat := 0x700010
/-- PUNTY_MSTATm (R500). -/
def Reg.puntyMstat (m : Nat) : Nat := 0x701000 + 0x40 * m
/-- PUNTY_MFAILm (R500). -/
def Reg.puntyMfail (m : Nat) : Nat := 0x701008 + 0x40 * m
/-- PUNTY_MCRCm (R500). -/
def Reg.puntyMcrc (m : Nat) : Nat := 0x701010 + 0x40 * m
/-- PUNTY_MREPLAYm (R500). -/
def Reg.puntyMreplay (m : Nat) : Nat := 0x701018 + 0x40 * m
/-- PUNTY_MEVm (R500). -/
def Reg.puntyMev (m : Nat) : Nat := 0x701020 + 0x40 * m
/-- PUNTY_VSTATc (R500). -/
def Reg.puntyVstat (c : Nat) : Nat := 0x704000 + 0x20 * c
/-- PUNTY_VCRCc (R500). -/
def Reg.puntyVcrc (c : Nat) : Nat := 0x704008 + 0x20 * c
/-- PUNTY_VREPLAYc (R500). -/
def Reg.puntyVreplay (c : Nat) : Nat := 0x704010 + 0x20 * c
/-- DEV_REGCTL (R518). -/
def Reg.devRegctl : Nat := 0x3000
/-- DEV_REGSTAT (R518). -/
def Reg.devRegstat : Nat := 0x3008
/-- DEV_REGCAPk (R518). -/
def Reg.devRegcap (k : Nat) : Nat := 0x3010 + 0x8 * k
/-- DEV_REGMINSUMk (R518). -/
def Reg.devRegminsum (k : Nat) : Nat := 0x3030 + 0x8 * k
/-- DEV_REGBUDk_m (R518). -/
def Reg.devRegbud (k : Nat) (m : Nat) : Nat := 0x3100 + 0x100 * k + 0x8 * m
/-- DEV_REGBYTk_c (R518). -/
def Reg.devRegbyt (k : Nat) (c : Nat) : Nat := 0x3600 + 0x20 * k + 0x8 * c
/-- DEV_REGSURk_m (R518). -/
def Reg.devRegsur (k : Nat) (m : Nat) : Nat := 0x3700 + 0x100 * k + 0x8 * m
/-- DEV_MEMCTL (R545). -/
def Reg.devMemctl : Nat := 0x4000
/-- DEV_MEMREF (R545). -/
def Reg.devMemref : Nat := 0x4008
/-- DEV_MEMSTAT (R545). -/
def Reg.devMemstat : Nat := 0x4010
/-- DEV_MEMTEMP (R545). -/
def Reg.devMemtemp : Nat := 0x4018
/-- DEV_MEMPWR (R545). -/
def Reg.devMempwr : Nat := 0x4020
/-- DEV_MEMMAPCTL (R545). -/
def Reg.devMemmapctl : Nat := 0x4028
/-- DEV_MEMUNBK (R545). -/
def Reg.devMemunbk : Nat := 0x4030
/-- DEV_MEMMAPnA (R545). -/
def Reg.devMemmapa (n : Nat) : Nat := 0x4100 + 0x10 * n
/-- DEV_MEMMAPnM (R545). -/
def Reg.devMemmapm (n : Nat) : Nat := 0x4108 + 0x10 * n
/-- MEMC_ID (R547). -/
def Reg.memcId (site : Nat) : Nat := 0x600000 + 0x10000 * site
/-- MEMC_TEMP (R547). -/
def Reg.memcTemp (site : Nat) : Nat := 0x600008 + 0x10000 * site
/-- MEMC_EVLOG (R547). -/
def Reg.memcEvlog (site : Nat) : Nat := 0x600010 + 0x10000 * site
/-- MEMC_CHSTATl (R547). -/
def Reg.memcChstat (site : Nat) (l : Nat) : Nat := 0x601000 + 0x10000 * site + 0x100 * l
/-- MEMC_CORRl (R547). -/
def Reg.memcCorr (site : Nat) (l : Nat) : Nat := 0x601008 + 0x10000 * site + 0x100 * l
/-- MEMC_UNCl (R547). -/
def Reg.memcUnc (site : Nat) (l : Nat) : Nat := 0x601010 + 0x10000 * site + 0x100 * l
/-- MEMC_LOSTl (R547). -/
def Reg.memcLost (site : Nat) (l : Nat) : Nat := 0x601018 + 0x10000 * site + 0x100 * l
/-- MEMC_FRZCAUSEl (R547). -/
def Reg.memcFrzcause (site : Nat) (l : Nat) : Nat := 0x601020 + 0x10000 * site + 0x100 * l
/-- MEMC_FRZTIMEl (R547). -/
def Reg.memcFrztime (site : Nat) (l : Nat) : Nat := 0x601028 + 0x10000 * site + 0x100 * l
/-- MEMC_FRZQl (R547). -/
def Reg.memcFrzq (site : Nat) (l : Nat) : Nat := 0x601030 + 0x10000 * site + 0x100 * l
/-- MEMC_FRZACKl (R547). -/
def Reg.memcFrzack (site : Nat) (l : Nat) : Nat := 0x601038 + 0x10000 * site + 0x100 * l
/-- MEMC_EPOCHl (R547). -/
def Reg.memcEpoch (site : Nat) (l : Nat) : Nat := 0x601040 + 0x10000 * site + 0x100 * l
/-- MEMC_SCRUBPTRl (R547). -/
def Reg.memcScrubptr (site : Nat) (l : Nat) : Nat := 0x601048 + 0x10000 * site + 0x100 * l
/-- MEMC_TPATl (R547). -/
def Reg.memcTpat (site : Nat) (l : Nat) : Nat := 0x601050 + 0x10000 * site + 0x100 * l
/-- MEMC_TFIXl (R547). -/
def Reg.memcTfix (site : Nat) (l : Nat) : Nat := 0x601058 + 0x10000 * site + 0x100 * l
/-- MEMC_TCMDl (R547). -/
def Reg.memcTcmd (site : Nat) (l : Nat) : Nat := 0x601060 + 0x10000 * site + 0x100 * l
/-- MEMC_TRESl (R547). -/
def Reg.memcTres (site : Nat) (l : Nat) : Nat := 0x601068 + 0x10000 * site + 0x100 * l
/-- MEMC_TDSELl (R547). -/
def Reg.memcTdsel (site : Nat) (l : Nat) : Nat := 0x601070 + 0x10000 * site + 0x100 * l
/-- MEMC_TDVALl (R547). -/
def Reg.memcTdval (site : Nat) (l : Nat) : Nat := 0x601078 + 0x10000 * site + 0x100 * l
/-- MEMC_CHCTLl (R547). -/
def Reg.memcChctl (site : Nat) (l : Nat) : Nat := 0x601080 + 0x10000 * site + 0x100 * l
/-- RESET_ID (R572). -/
def Reg.resetId : Nat := 0xa00000
/-- RESET_STAT (R572). -/
def Reg.resetStat : Nat := 0xa00008
/-- RESET_CAUSE (R572). -/
def Reg.resetCause : Nat := 0xa00010
/-- RESET_CAUSETIME (R572). -/
def Reg.resetCausetime : Nat := 0xa00018
/-- RESET_REQ (R572). -/
def Reg.resetReq : Nat := 0xa00020
/-- RESET_REQSTAT (R572). -/
def Reg.resetReqstat : Nat := 0xa00028
/-- RESET_IDLECFG (R572). -/
def Reg.resetIdlecfg : Nat := 0xa00030
/-- RESET_OPTSTAT (R572). -/
def Reg.resetOptstat : Nat := 0xa00038
/-- RESET_OPTGEN (R572). -/
def Reg.resetOptgen : Nat := 0xa00040
/-- RESET_IRQCFG (R572). -/
def Reg.resetIrqcfg : Nat := 0xa00048
/-- RESET_EVLOG (R572). -/
def Reg.resetEvlog : Nat := 0xa00050
/-- RESET_CNTk (R572). -/
def Reg.resetCnt (k : Nat) : Nat := 0xa00100 + 0x8 * k
/-- DEV_CFGGEN (R596). -/
def Reg.devCfggen : Nat := 0x5000
/-- DEV_CFGSTAT (R596). -/
def Reg.devCfgstat : Nat := 0x5008
/-- DEV_LOCKREFCNT (R596). -/
def Reg.devLockrefcnt : Nat := 0x5010
/-- DEV_LOCKREFADDR (R596). -/
def Reg.devLockrefaddr : Nat := 0x5018
/-- DEV_BATCHADDR (R596). -/
def Reg.devBatchaddr : Nat := 0x5020
/-- DEV_FRITADDR (R596). -/
def Reg.devFritaddr : Nat := 0x5028
/-- DEV_CFGLOAD (R596). -/
def Reg.devCfgload : Nat := 0x5030
/-- DEV_FRITCTL (R596). -/
def Reg.devFritctl : Nat := 0x5038
/-- DEV_FRITSTAT (R596). -/
def Reg.devFritstat : Nat := 0x5040
/-- DEV_SECSTAT (R596). -/
def Reg.devSecstat : Nat := 0x5048
/-- DEV_SECARBt (R596). -/
def Reg.devSecarb (t : Nat) : Nat := 0x5050 + 0x8 * t
/-- DEV_DBGCTL (R596). -/
def Reg.devDbgctl : Nat := 0x5080
/-- DEV_DBGSTAT (R596). -/
def Reg.devDbgstat : Nat := 0x5088
/-- DEV_DBGCHALi (R596). -/
def Reg.devDbgchal (i : Nat) : Nat := 0x5090 + 0x8 * i
/-- DEV_DBGRESP (R596). -/
def Reg.devDbgresp : Nat := 0x50b0
/-- DEV_CFGEVLOG (R596). -/
def Reg.devCfgevlog : Nat := 0x50b8
/-- BLOWPIPE_ID (R615). -/
def Reg.blowpipeId : Nat := 0x780000
/-- BLOWPIPE_TOPO (R615). -/
def Reg.blowpipeTopo : Nat := 0x780008
/-- BLOWPIPE_STAT (R615). -/
def Reg.blowpipeStat : Nat := 0x780010
/-- BLOWPIPE_EVLOG (R615). -/
def Reg.blowpipeEvlog : Nat := 0x780018
/-- BLOWPIPE_MALFORM (R615). -/
def Reg.blowpipeMalform : Nat := 0x780020
/-- BLOWPIPE_PSTATb (R615). -/
def Reg.blowpipePstat (b : Nat) : Nat := 0x780100 + 0x20 * b
/-- BLOWPIPE_PCRCb (R615). -/
def Reg.blowpipePcrc (b : Nat) : Nat := 0x780108 + 0x20 * b
/-- BLOWPIPE_PREPLAYb (R615). -/
def Reg.blowpipePreplay (b : Nat) : Nat := 0x780110 + 0x20 * b
/-- BLOWPIPE_FWDnA (R615). -/
def Reg.blowpipeFwda (n : Nat) : Nat := 0x781000 + 0x20 * n
/-- BLOWPIPE_FWDnB (R615). -/
def Reg.blowpipeFwdb (n : Nat) : Nat := 0x781008 + 0x20 * n
/-- BLOWPIPE_FWDSTATn (R615). -/
def Reg.blowpipeFwdstat (n : Nat) : Nat := 0x781010 + 0x20 * n
/-- BLOWPIPE_FWDFAILn (R615). -/
def Reg.blowpipeFwdfail (n : Nat) : Nat := 0x781018 + 0x20 * n
/-- BLOWPIPE_INnA (R615). -/
def Reg.blowpipeIna (n : Nat) : Nat := 0x782000 + 0x20 * n
/-- BLOWPIPE_INnB (R615). -/
def Reg.blowpipeInb (n : Nat) : Nat := 0x782008 + 0x20 * n
/-- BLOWPIPE_INSTATn (R615). -/
def Reg.blowpipeInstat (n : Nat) : Nat := 0x782010 + 0x20 * n
/-- BLOWPIPE_INABNn (R615). -/
def Reg.blowpipeInabn (n : Nat) : Nat := 0x782018 + 0x20 * n
/-- THERM_ID (R642). -/
def Reg.thermId : Nat := 0x900000
/-- THERM_STAT (R642). -/
def Reg.thermStat : Nat := 0x900008
/-- THERM_PWRCTL (R642). -/
def Reg.thermPwrctl : Nat := 0x900010
/-- THERM_PWR (R642). -/
def Reg.thermPwr : Nat := 0x900018
/-- THERM_ENERGY (R642). -/
def Reg.thermEnergy : Nat := 0x900020
/-- THERM_COOLANT (R642). -/
def Reg.thermCoolant : Nat := 0x900028
/-- THERM_LIMITS (R642). -/
def Reg.thermLimits : Nat := 0x900030
/-- THERM_MEMLIM (R642). -/
def Reg.thermMemlim : Nat := 0x900038
/-- THERM_PARK0 (R642). -/
def Reg.thermPark0 : Nat := 0x900040
/-- THERM_PARK1 (R642). -/
def Reg.thermPark1 : Nat := 0x900048
/-- THERM_EVLOG (R642). -/
def Reg.thermEvlog : Nat := 0x900050
/-- THERM_AGECTL (R642). -/
def Reg.thermAgectl : Nat := 0x900058
/-- THERM_RHCTL (R642). -/
def Reg.thermRhctl : Nat := 0x900060
/-- THERM_UNITu (R642). -/
def Reg.thermUnit (u : Nat) : Nat := 0x900100 + 0x8 * u
/-- THERM_SENSs (R642). -/
def Reg.thermSens (s : Nat) : Nat := 0x900800 + 0x8 * s
/-- THERM_RHc (R642). -/
def Reg.thermRh (c : Nat) : Nat := 0x902000 + 0x10 * c
/-- THERM_RHTc (R642). -/
def Reg.thermRht (c : Nat) : Nat := 0x902008 + 0x10 * c
/-- THERM_AGEc (R642). -/
def Reg.thermAge (c : Nat) : Nat := 0x903000 + 0x8 * c

/-- One row of a register table: where it lies (base, block copies, up to two further indices), width in bits, reset
value, and the bits of each access code. -/
structure RegRow where
  base : Nat
  bStride : Nat
  bCount : Nat
  s1 : Nat
  c1 : Nat
  s2 : Nat
  c2 : Nat
  width : Nat
  reset : Nat
  rw : Nat
  w1c : Nat
  rwl : Nat
  deriving DecidableEq, Repr

/-- The registers of the DEV block that R42 lists. -/
def regRowsDevr42 : List RegRow := [
  ⟨0x400, 0, 1, 0, 1, 0, 1, 32, 0x0, 0x0, 0x6, 0x1⟩,
  ⟨0x408, 0, 1, 0, 1, 0, 1, 32, 0x1fca055, 0x0, 0x0, 0xffffffff⟩,
  ⟨0x410, 0, 1, 0, 1, 0, 1, 64, 0x0, 0x0, 0x0, 0xffffffffffffffff⟩,
  ⟨0x418, 0, 1, 0, 1, 0, 1, 32, 0x0, 0xffffffff, 0x0, 0x0⟩,
  ⟨0x420, 0, 1, 0, 1, 0, 1, 64, 0x0, 0x0, 0x0, 0x0⟩]
/-- The registers of the CORE block that R120 lists. -/
def regRowsCorer120 : List RegRow := [
  ⟨0x1000000, 0x10000, 96, 0, 1, 0, 1, 32, 0x0, 0x0, 0x0, 0x0⟩,
  ⟨0x1000008, 0x10000, 96, 0, 1, 0, 1, 32, 0x7f01, 0x0, 0x0, 0x0⟩,
  ⟨0x1000010, 0x10000, 96, 0, 1, 0, 1, 32, 0x0, 0x0, 0x8, 0x0⟩,
  ⟨0x1000018, 0x10000, 96, 0, 1, 0, 1, 64, 0x0, 0x0, 0x0, 0x0⟩,
  ⟨0x1000020, 0x10000, 96, 0, 1, 0, 1, 32, 0x0, 0x0, 0x3f, 0x0⟩,
  ⟨0x1000028, 0x10000, 96, 0, 1, 0, 1, 64, 0x0, 0x0, 0x0, 0x0⟩,
  ⟨0x1000040, 0x10000, 96, 0, 1, 0, 1, 32, 0x0, 0x0, 0x0, 0x0⟩,
  ⟨0x1000048, 0x10000, 96, 0, 1, 0, 1, 32, 0xffff, 0xffff, 0x0, 0x0⟩,
  ⟨0x1000050, 0x10000, 96, 0, 1, 0, 1, 64, 0x0, 0x0, 0x0, 0x0⟩,
  ⟨0x1000058, 0x10000, 96, 0, 1, 0, 1, 64, 0x0, 0x0, 0x0, 0x0⟩,
  ⟨0x1000060, 0x10000, 96, 0, 1, 0, 1, 32, 0x2ee, 0x0, 0x0, 0x0⟩,
  ⟨0x1000080, 0x10000, 96, 0, 1, 0, 1, 64, 0xffffffff, 0x0, 0x0, 0x0⟩,
  ⟨0x1000088, 0x10000, 96, 0, 1, 0, 1, 32, 0xff00, 0x0, 0x0, 0x0⟩,
  ⟨0x10000a0, 0x10000, 96, 0, 1, 0, 1, 64, 0x0, 0x0, 0x0, 0x0⟩,
  ⟨0x10000a8, 0x10000, 96, 0, 1, 0, 1, 64, 0x0, 0x0, 0x0, 0x0⟩,
  ⟨0x10000b0, 0x10000, 96, 0, 1, 0, 1, 64, 0x0, 0x0, 0x0, 0x0⟩,
  ⟨0x10000c0, 0x10000, 96, 0, 1, 0, 1, 64, 0x0, 0x0, 0x0, 0x0⟩,
  ⟨0x10000c8, 0x10000, 96, 0, 1, 0, 1, 64, 0x0, 0x0, 0x0, 0x0⟩,
  ⟨0x10000d0, 0x10000, 96, 0, 1, 0, 1, 32, 0x0, 0x0, 0x0, 0x0⟩,
  ⟨0x10000d8, 0x10000, 96, 0, 1, 0, 1, 64, 0x0, 0x0, 0x0, 0x0⟩]
/-- The registers of the CORE block that R181 lists. -/
def regRowsCorer181 : List RegRow := [
  ⟨0x1001000, 0x10000, 96, 0, 1, 0, 1, 64, 0x0, 0x0, 0x0, 0x0⟩,
  ⟨0x1001008, 0x10000, 96, 0, 1, 0, 1, 32, 0x0, 0x0, 0x0, 0x0⟩,
  ⟨0x1001010, 0x10000, 96, 0, 1, 0, 1, 32, 0x0, 0x0, 0x0, 0x0⟩,
  ⟨0x1001018, 0x10000, 96, 0, 1, 0, 1, 32, 0x0, 0x0, 0x0, 0x0⟩,
  ⟨0x1001020, 0x10000, 96, 0, 1, 0, 1, 32, 0x0, 0x0, 0x0, 0x0⟩,
  ⟨0x1001028, 0x10000, 96, 0, 1, 0, 1, 32, 0x0, 0x0, 0x0, 0x0⟩,
  ⟨0x1001030, 0x10000, 96, 0, 1, 0, 1, 32, 0x0, 0x0, 0x0, 0x0⟩,
  ⟨0x1001040, 0x10000, 96, 0, 1, 0, 1, 64, 0x0, 0x0, 0x0, 0x0⟩,
  ⟨0x1001048, 0x10000, 96, 0, 1, 0, 1, 64, 0x0, 0x0, 0x0, 0x0⟩,
  ⟨0x1001050, 0x10000, 96, 0, 1, 0, 1, 32, 0x0, 0x0, 0x0, 0x0⟩,
  ⟨0x1001060, 0x10000, 96, 0, 1, 0, 1, 64, 0x0, 0xfffffff, 0x0, 0x0⟩,
  ⟨0x1001068, 0x10000, 96, 0, 1, 0, 1, 32, 0x0, 0x0, 0x0, 0x0⟩,
  ⟨0x1001100, 0x10000, 96, 16, 32, 0, 1, 64, 0x0, 0x0, 0x0, 0x0⟩,
  ⟨0x1001108, 0x10000, 96, 16, 32, 0, 1, 64, 0x0, 0x0, 0x0, 0x0⟩]
/-- The registers of the CORE block that R205 lists. -/
def regRowsCorer205 : List RegRow := [
  ⟨0x1008000, 0x10000, 96, 4, 2048, 0, 1, 32, 0x0, 0x0, 0x0, 0x0⟩]
/-- The registers of the CULLET block that R239 lists. -/
def regRowsCulletr239 : List RegRow := [
  ⟨0x2000000, 0x40000, 4, 0, 1, 0, 1, 32, 0x0, 0x0, 0x0, 0x0⟩,
  ⟨0x2000008, 0x40000, 4, 0, 1, 0, 1, 32, 0x0, 0x0, 0x600, 0x0⟩,
  ⟨0x2000010, 0x40000, 4, 0, 1, 0, 1, 64, 0x0, 0x0, 0x0, 0xfffffffff000⟩,
  ⟨0x2000018, 0x40000, 4, 0, 1, 0, 1, 64, 0x0, 0x0, 0x0, 0x1ff1fffff⟩,
  ⟨0x2000020, 0x40000, 4, 0, 1, 0, 1, 32, 0x0, 0x0, 0x0, 0x0⟩,
  ⟨0x2000028, 0x40000, 4, 0, 1, 0, 1, 32, 0x0, 0x0, 0x0, 0x0⟩,
  ⟨0x2000040, 0x40000, 4, 0, 1, 0, 1, 64, 0x0, 0x0, 0x0, 0x0⟩,
  ⟨0x2000048, 0x40000, 4, 0, 1, 0, 1, 64, 0x0, 0xffffffffffffffff, 0x0, 0x0⟩,
  ⟨0x2000050, 0x40000, 4, 0, 1, 0, 1, 64, 0x0, 0x0, 0x0, 0x0⟩,
  ⟨0x2000060, 0x40000, 4, 0, 1, 0, 1, 32, 0x0, 0xfff0ff, 0x0, 0x0⟩,
  ⟨0x2000068, 0x40000, 4, 0, 1, 0, 1, 32, 0x0, 0x0, 0x0, 0x0⟩,
  ⟨0x2000070, 0x40000, 4, 0, 1, 0, 1, 32, 0x0, 0x1ffff, 0x0, 0x0⟩,
  ⟨0x2000078, 0x40000, 4, 0, 1, 0, 1, 64, 0x0, 0x0, 0x0, 0x0⟩,
  ⟨0x2000080, 0x40000, 4, 0, 1, 0, 1, 64, 0x0, 0x0, 0x0, 0x0⟩,
  ⟨0x20000c0, 0x40000, 4, 0, 1, 0, 1, 64, 0x0, 0x0, 0x0, 0x0⟩,
  ⟨0x20000c8, 0x40000, 4, 0, 1, 0, 1, 64, 0x0, 0x0, 0x0, 0x0⟩,
  ⟨0x20000d0, 0x40000, 4, 0, 1, 0, 1, 64, 0x0, 0x0, 0x0, 0x0⟩,
  ⟨0x20000d8, 0x40000, 4, 0, 1, 0, 1, 64, 0x0, 0x0, 0x0, 0x0⟩,
  ⟨0x20000e0, 0x40000, 4, 0, 1, 0, 1, 64, 0x0, 0x0, 0x0, 0x0⟩,
  ⟨0x2000100, 0x40000, 4, 8, 16, 0, 1, 32, 0x0, 0x0, 0x0, 0x1fffff⟩,
  ⟨0x2000180, 0x40000, 4, 8, 16, 0, 1, 32, 0x0, 0x0, 0x0, 0x0⟩,
  ⟨0x2010000, 0x40000, 4, 32, 256, 0, 1, 64, 0x0, 0x0, 0x0, 0x0⟩,
  ⟨0x2010008, 0x40000, 4, 32, 256, 0, 1, 64, 0x0, 0x0, 0x0, 0x0⟩,
  ⟨0x2010010, 0x40000, 4, 32, 256, 0, 1, 64, 0x0, 0x0, 0x0, 0x0⟩,
  ⟨0x2010018, 0x40000, 4, 32, 256, 0, 1, 64, 0x0, 0x0, 0x0, 0x0⟩]
/-- The registers of the MARVER block that R280 lists. -/
def regRowsMarverr280 : List RegRow := [
  ⟨0x310000, 0, 1, 8, 16, 0, 1, 32, 0x0, 0x3f, 0x0, 0x0⟩,
  ⟨0x310080, 0, 1, 8, 16, 0, 1, 32, 0x0, 0x0, 0x20, 0x0⟩,
  ⟨0x310100, 0, 1, 8, 8, 0, 1, 32, 0x0, 0xffffff0f, 0x0, 0x0⟩,
  ⟨0x310140, 0, 1, 8, 8, 0, 1, 32, 0x0, 0x0, 0x0, 0x0⟩,
  ⟨0x310180, 0, 1, 8, 8, 0, 1, 64, 0x0, 0x0, 0x0, 0x0⟩,
  ⟨0x310200, 0, 1, 0, 1, 0, 1, 32, 0x1e8480, 0xffffff, 0x0, 0x0⟩,
  ⟨0x310208, 0, 1, 0, 1, 0, 1, 32, 0x0, 0x0, 0x0, 0x0⟩,
  ⟨0x310210, 0, 1, 0, 1, 0, 1, 64, 0x0, 0x0, 0x600000000, 0x0⟩,
  ⟨0x310218, 0, 1, 0, 1, 0, 1, 64, 0x0, 0x0, 0x0, 0x0⟩,
  ⟨0x310220, 0, 1, 0, 1, 0, 1, 64, 0x0, 0x0, 0x0, 0x0⟩,
  ⟨0x310400, 0, 1, 0, 1, 0, 1, 64, 0x0, 0xffffffff0ff0f7ff, 0x0, 0xf0800⟩,
  ⟨0x310408, 0, 1, 0, 1, 0, 1, 32, 0x0, 0x0, 0x4, 0x0⟩,
  ⟨0x310410, 0, 1, 0, 1, 0, 1, 64, 0x0, 0x0, 0x0, 0x0⟩,
  ⟨0x310418, 0, 1, 0, 1, 0, 1, 32, 0x0, 0x0, 0x0, 0x0⟩,
  ⟨0x310420, 0, 1, 0, 1, 0, 1, 64, 0x0, 0x0, 0x0, 0xffffffffffffffff⟩,
  ⟨0x310428, 0, 1, 0, 1, 0, 1, 64, 0x0, 0x0, 0x0, 0x0⟩,
  ⟨0x310800, 0, 1, 0, 1, 0, 1, 64, 0x0, 0xffffffffffc0, 0x0, 0x0⟩,
  ⟨0x310808, 0, 1, 0, 1, 0, 1, 64, 0x1312d004c4b400a, 0xffffffffffffff0f, 0x0, 0x0⟩,
  ⟨0x310810, 0, 1, 0, 1, 0, 1, 32, 0x0, 0xffffffff, 0x0, 0x0⟩,
  ⟨0x310818, 0, 1, 0, 1, 0, 1, 32, 0x0, 0x0, 0x0, 0x0⟩,
  ⟨0x310820, 0, 1, 0, 1, 0, 1, 32, 0x0, 0x0, 0x3f, 0x0⟩,
  ⟨0x310900, 0, 1, 8, 64, 0, 1, 32, 0x0, 0x0, 0x0, 0x0⟩,
  ⟨0x310c00, 0, 1, 0, 1, 0, 1, 32, 0x0, 0x1fffff, 0x0, 0x0⟩,
  ⟨0x310c08, 0, 1, 0, 1, 0, 1, 64, 0x0, 0xffffffffffffffff, 0x0, 0x0⟩,
  ⟨0x310c10, 0, 1, 0, 1, 0, 1, 32, 0x0, 0xffffffff, 0x0, 0x0⟩,
  ⟨0x310c18, 0, 1, 0, 1, 0, 1, 64, 0x0, 0xffffffffffffffff, 0x0, 0x0⟩,
  ⟨0x310c20, 0, 1, 0, 1, 0, 1, 64, 0x0, 0xfffffffff000, 0x0, 0x0⟩,
  ⟨0x320000, 0, 1, 128, 64, 0, 1, 64, 0x0, 0x3fffffffffff, 0x0, 0x0⟩,
  ⟨0x320008, 0, 1, 128, 64, 0, 1, 64, 0x0, 0xfffffffffffff, 0x0, 0x0⟩,
  ⟨0x320010, 0, 1, 128, 64, 0, 1, 64, 0x0, 0xffffffffffffffff, 0x0, 0x0⟩,
  ⟨0x320018, 0, 1, 128, 64, 0, 1, 64, 0x0, 0xffffffffffffffff, 0x0, 0x0⟩,
  ⟨0x320020, 0, 1, 128, 64, 0, 1, 64, 0x0, 0xffffffffffffffff, 0x0, 0x0⟩,
  ⟨0x320028, 0, 1, 128, 64, 0, 1, 64, 0x0, 0xffffffffffffffff, 0x0, 0x0⟩,
  ⟨0x320030, 0, 1, 128, 64, 0, 1, 64, 0x0, 0xffffffffff000, 0x0, 0x0⟩,
  ⟨0x320038, 0, 1, 128, 64, 0, 1, 64, 0x0, 0xffffffffffffffff, 0x0, 0x0⟩,
  ⟨0x320040, 0, 1, 128, 64, 0, 1, 64, 0x0, 0xffffffffffc0, 0x0, 0x0⟩,
  ⟨0x320048, 0, 1, 128, 64, 0, 1, 64, 0x0, 0xffffffffffffffff, 0x0, 0x0⟩,
  ⟨0x320050, 0, 1, 128, 64, 0, 1, 64, 0x0, 0x0, 0x100c0, 0x0⟩,
  ⟨0x320058, 0, 1, 128, 64, 0, 1, 64, 0x0, 0x0, 0x0, 0x0⟩,
  ⟨0x320060, 0, 1, 128, 64, 0, 1, 64, 0x0, 0x0, 0x0, 0x0⟩,
  ⟨0x320068, 0, 1, 128, 64, 0, 1, 64, 0x0, 0x0, 0x0, 0x0⟩,
  ⟨0x320070, 0, 1, 128, 64, 0, 1, 64, 0x0, 0x0, 0x0, 0x0⟩,
  ⟨0x320078, 0, 1, 128, 64, 0, 1, 64, 0x0, 0x0, 0x0, 0x0⟩]
/-- The registers of the MARVER block that R319 lists. -/
def regRowsMarverr319 : List RegRow := [
  ⟨0x300000, 0, 1, 0, 1, 0, 1, 32, 0xa0000040, 0x0, 0x0, 0x0⟩,
  ⟨0x300008, 0, 1, 0, 1, 0, 1, 32, 0x0, 0x3, 0x18, 0x4⟩,
  ⟨0x300010, 0, 1, 0, 1, 0, 1, 32, 0x0, 0x0, 0x0, 0x0⟩,
  ⟨0x300018, 0, 1, 0, 1, 0, 1, 64, 0x0, 0x0, 0x0, 0x0⟩,
  ⟨0x300020, 0, 1, 0, 1, 0, 1, 64, 0x0, 0x0, 0x0, 0x0⟩,
  ⟨0x300028, 0, 1, 0, 1, 0, 1, 64, 0x0, 0x0, 0x0, 0x0⟩,
  ⟨0x300030, 0, 1, 0, 1, 0, 1, 64, 0x0, 0xfffffffff000, 0x0, 0x0⟩,
  ⟨0x300038, 0, 1, 0, 1, 0, 1, 64, 0x0, 0xfffffffff000, 0x0, 0x0⟩,
  ⟨0x300040, 0, 1, 0, 1, 0, 1, 64, 0x0, 0xfffffffff000, 0x0, 0x0⟩,
  ⟨0x300048, 0, 1, 0, 1, 0, 1, 64, 0x0, 0xfffffffff000, 0x0, 0x0⟩,
  ⟨0x300050, 0, 1, 0, 1, 0, 1, 64, 0x1000a253, 0x3fffffff, 0x0, 0x0⟩,
  ⟨0x300058, 0, 1, 0, 1, 0, 1, 64, 0xdd204000936, 0xffffffffffff, 0x0, 0x0⟩,
  ⟨0x300060, 0, 1, 0, 1, 0, 1, 64, 0x4000004d03, 0xffffff00ffffff, 0x0, 0x0⟩,
  ⟨0x300068, 0, 1, 0, 1, 0, 1, 64, 0x989680004c4b40, 0xffffffffffffffff, 0x0, 0x0⟩,
  ⟨0x300070, 0, 1, 0, 1, 0, 1, 64, 0x34000321e0a05, 0xffffffffffffff, 0x0, 0x0⟩,
  ⟨0x300078, 0, 1, 0, 1, 0, 1, 64, 0x0, 0xffffffffffffffff, 0x0, 0x0⟩,
  ⟨0x300080, 0, 1, 8, 8, 0, 1, 64, 0x0, 0xffffffffffffffff, 0x0, 0x0⟩,
  ⟨0x3000c0, 0, 1, 8, 3, 0, 1, 64, 0x0, 0xffffffffffffffff, 0x0, 0x0⟩,
  ⟨0x300100, 0, 1, 0, 1, 0, 1, 64, 0x0, 0x0, 0x0, 0x0⟩,
  ⟨0x300108, 0, 1, 0, 1, 0, 1, 64, 0x0, 0x0, 0x0, 0x0⟩,
  ⟨0x300110, 0, 1, 0, 1, 0, 1, 64, 0x0, 0x0, 0x0, 0x0⟩,
  ⟨0x300140, 0, 1, 0, 1, 0, 1, 64, 0x0, 0x0, 0x0, 0x0⟩,
  ⟨0x300148, 0, 1, 0, 1, 0, 1, 64, 0x0, 0x0, 0x0, 0x0⟩,
  ⟨0x300150, 0, 1, 0, 1, 0, 1, 64, 0x0, 0x0, 0x0, 0x0⟩,
  ⟨0x300158, 0, 1, 0, 1, 0, 1, 64, 0x0, 0x0, 0x0, 0x0⟩,
  ⟨0x300160, 0, 1, 0, 1, 0, 1, 64, 0x0, 0x0, 0x0, 0x0⟩,
  ⟨0x300168, 0, 1, 0, 1, 0, 1, 64, 0x0, 0x0, 0x0, 0x0⟩,
  ⟨0x300170, 0, 1, 0, 1, 0, 1, 64, 0x0, 0x0, 0x0, 0x0⟩,
  ⟨0x330000, 0, 1, 32, 64, 0, 1, 64, 0x0, 0xffffffffffffff, 0x0, 0x0⟩,
  ⟨0x330008, 0, 1, 32, 64, 0, 1, 64, 0x0, 0x1ffffffffffff, 0x0, 0x0⟩,
  ⟨0x330010, 0, 1, 32, 64, 0, 1, 64, 0x0, 0x0, 0x0, 0x0⟩,
  ⟨0x330018, 0, 1, 32, 64, 0, 1, 64, 0x0, 0x0, 0x0, 0x0⟩]
/-- The registers of the BOMUS block that R367 lists. -/
def regRowsBomusr367 : List RegRow := [
  ⟨0x100000, 0x1000, 256, 0, 1, 0, 1, 32, 0x0, 0x3fffff, 0x0, 0x0⟩,
  ⟨0x100008, 0x1000, 256, 0, 1, 0, 1, 64, 0x0, 0xfffffffffffff000, 0x0, 0x0⟩,
  ⟨0x100010, 0x1000, 256, 0, 1, 0, 1, 64, 0x0, 0xfffffffffffff000, 0x0, 0x0⟩,
  ⟨0x100018, 0x1000, 256, 0, 1, 0, 1, 32, 0x0, 0x0, 0x0, 0x0⟩,
  ⟨0x100020, 0x1000, 256, 0, 1, 0, 1, 32, 0x0, 0x0, 0x0, 0x0⟩,
  ⟨0x100028, 0x1000, 256, 0, 1, 0, 1, 32, 0x0, 0x0, 0x0, 0x0⟩,
  ⟨0x100030, 0x1000, 256, 0, 1, 0, 1, 32, 0x0, 0x0, 0x0, 0x0⟩,
  ⟨0x100038, 0x1000, 256, 0, 1, 0, 1, 32, 0x0, 0x0, 0xfc, 0x0⟩,
  ⟨0x100040, 0x1000, 256, 0, 1, 0, 1, 32, 0x0, 0x0, 0x0, 0x0⟩,
  ⟨0x100048, 0x1000, 256, 0, 1, 0, 1, 32, 0x0, 0x0, 0x0, 0x0⟩,
  ⟨0x100050, 0x1000, 256, 0, 1, 0, 1, 64, 0x0, 0x0, 0x0, 0x0⟩]
/-- The registers of the PCIE block that R369 lists. -/
def regRowsPcier369 : List RegRow := [
  ⟨0x800000, 0, 1, 0, 1, 0, 1, 32, 0x0, 0x0, 0x0, 0x0⟩,
  ⟨0x800008, 0, 1, 0, 1, 0, 1, 64, 0x0, 0x0, 0x0, 0x0⟩,
  ⟨0x800100, 0, 1, 8, 16, 0, 1, 32, 0x0, 0x1, 0x0, 0x2⟩,
  ⟨0x800180, 0, 1, 8, 16, 0, 1, 32, 0x0, 0x0, 0x0, 0x0⟩,
  ⟨0x800200, 0, 1, 8, 16, 0, 1, 64, 0x0, 0x0, 0x0, 0x0⟩]
/-- The registers of the DEV block that R401 lists. -/
def regRowsDevr401 : List RegRow := [
  ⟨0x2000, 0, 1, 0, 1, 0, 1, 64, 0xa01f4012c000c8, 0x3ffffffffffffff, 0x0, 0x0⟩,
  ⟨0x2008, 0, 1, 0, 1, 0, 1, 64, 0xf424000271004, 0xffffffffffffffff, 0x0, 0x0⟩,
  ⟨0x2010, 0, 1, 0, 1, 0, 1, 32, 0x0, 0x0, 0x18000, 0x0⟩,
  ⟨0x2018, 0, 1, 0, 1, 0, 1, 64, 0x0, 0x0, 0x0, 0x0⟩,
  ⟨0x2028, 0, 1, 8, 4, 0, 1, 32, 0x0, 0x0, 0x0, 0x0⟩,
  ⟨0x2080, 0, 1, 8, 4, 0, 1, 64, 0x20, 0xfffffffffff000ff, 0x0, 0x0⟩,
  ⟨0x20a0, 0, 1, 8, 4, 0, 1, 64, 0x0, 0x0, 0x0, 0x0⟩,
  ⟨0x2100, 0, 1, 8, 16, 0, 1, 32, 0x64, 0x0, 0x0, 0xffff⟩,
  ⟨0x2180, 0, 1, 8, 16, 0, 1, 64, 0x0, 0x0, 0x0, 0x0⟩,
  ⟨0x2200, 0, 1, 8, 16, 0, 1, 64, 0x0, 0x0, 0x0, 0x0⟩,
  ⟨0x2280, 0, 1, 8, 16, 0, 1, 64, 0x0, 0x0, 0x0, 0x0⟩,
  ⟨0x2400, 0, 1, 8, 16, 0, 1, 64, 0x0, 0x7fffffffffff, 0x0, 0x0⟩,
  ⟨0x2600, 0, 1, 16, 8, 0, 1, 32, 0x0, 0x1fffff, 0x0, 0x0⟩,
  ⟨0x2608, 0, 1, 16, 8, 0, 1, 64, 0x0, 0xfffffffffffc, 0x0, 0x0⟩]
/-- The registers of the BENCH block that R403 lists. -/
def regRowsBenchr403 : List RegRow := [
  ⟨0x200000, 0x10000, 12, 0, 1, 0, 1, 32, 0x0, 0x0, 0x0, 0x0⟩,
  ⟨0x200008, 0x10000, 12, 0, 1, 0, 1, 64, 0x0, 0x0, 0x0, 0x0⟩,
  ⟨0x200010, 0x10000, 12, 0, 1, 0, 1, 64, 0x0, 0x0, 0x0, 0x0⟩,
  ⟨0x200018, 0x10000, 12, 0, 1, 0, 1, 64, 0x0, 0x0, 0x0, 0x0⟩,
  ⟨0x200020, 0x10000, 12, 0, 1, 0, 1, 64, 0x0, 0x0, 0x0, 0x0⟩,
  ⟨0x200028, 0x10000, 12, 0, 1, 0, 1, 64, 0x0, 0x0, 0x0, 0x0⟩,
  ⟨0x200030, 0x10000, 12, 0, 1, 0, 1, 64, 0x0, 0x0, 0x0, 0x0⟩,
  ⟨0x200038, 0x10000, 12, 0, 1, 0, 1, 64, 0x0, 0x0, 0x0, 0x0⟩,
  ⟨0x200040, 0x10000, 12, 0, 1, 0, 1, 64, 0x0, 0x0, 0x0, 0x0⟩,
  ⟨0x200048, 0x10000, 12, 0, 1, 0, 1, 64, 0x0, 0x0, 0x0, 0x0⟩]
/-- The registers of the LEHRA block that R451 lists. -/
def regRowsLehrar451 : List RegRow := [
  ⟨0x400000, 0, 1, 0, 1, 0, 1, 32, 0xa0000000, 0x0, 0x0, 0x0⟩,
  ⟨0x400008, 0, 1, 0, 1, 0, 1, 32, 0x0, 0x0, 0x1800, 0x0⟩,
  ⟨0x400010, 0, 1, 0, 1, 0, 1, 64, 0x0, 0x0, 0x0, 0x7ffffff007fffff⟩,
  ⟨0x400018, 0, 1, 0, 1, 0, 1, 64, 0x0, 0x0, 0x0, 0x0⟩,
  ⟨0x400020, 0, 1, 0, 1, 0, 1, 64, 0x303e800000003, 0x0, 0x0, 0xfffff0000000f⟩,
  ⟨0x400028, 0, 1, 0, 1, 0, 1, 32, 0x0, 0x0, 0x0, 0x0⟩,
  ⟨0x400030, 0, 1, 0, 1, 0, 1, 64, 0x0, 0x0, 0x0, 0x0⟩,
  ⟨0x400038, 0, 1, 0, 1, 0, 1, 64, 0x0, 0x0, 0x0, 0x0⟩,
  ⟨0x400040, 0, 1, 0, 1, 0, 1, 64, 0x0, 0xf3fffffff, 0x0, 0x0⟩,
  ⟨0x400048, 0, 1, 0, 1, 0, 1, 32, 0x0, 0x0, 0x0, 0x0⟩,
  ⟨0x400080, 0, 1, 0, 1, 0, 1, 64, 0x0, 0x0, 0x0, 0x0⟩,
  ⟨0x400088, 0, 1, 0, 1, 0, 1, 64, 0x0, 0x0, 0x0, 0x0⟩,
  ⟨0x400090, 0, 1, 0, 1, 0, 1, 64, 0x0, 0x0, 0x0, 0x0⟩,
  ⟨0x400098, 0, 1, 0, 1, 0, 1, 64, 0x0, 0x0, 0x0, 0x0⟩,
  ⟨0x4000a0, 0, 1, 0, 1, 0, 1, 64, 0x0, 0x0, 0x0, 0x0⟩,
  ⟨0x4000a8, 0, 1, 0, 1, 0, 1, 64, 0x0, 0x0, 0x0, 0x0⟩,
  ⟨0x4000b0, 0, 1, 0, 1, 0, 1, 64, 0x0, 0x0, 0x0, 0x0⟩,
  ⟨0x400400, 0, 1, 8, 96, 0, 1, 64, 0x0, 0x0, 0x0, 0x0⟩,
  ⟨0x400800, 0, 1, 8, 64, 0, 1, 64, 0x0, 0x0, 0x0, 0x0⟩,
  ⟨0x401000, 0, 1, 16, 64, 0, 1, 64, 0x0, 0x0, 0x0, 0x7ffffffffffffff⟩,
  ⟨0x401008, 0, 1, 16, 64, 0, 1, 32, 0x0, 0x0, 0x0, 0xff07ffff⟩,
  ⟨0x401400, 0, 1, 8, 64, 0, 1, 64, 0x0, 0x0, 0x0, 0x0⟩]
/-- The registers of the LEHRB block that R453 lists. -/
def regRowsLehrbr453 : List RegRow := [
  ⟨0x480000, 0, 1, 0, 1, 0, 1, 32, 0xa0000001, 0x0, 0x0, 0x0⟩,
  ⟨0x480008, 0, 1, 0, 1, 0, 1, 32, 0x0, 0x0, 0x20, 0x0⟩,
  ⟨0x480010, 0, 1, 0, 1, 0, 1, 64, 0x0, 0x0, 0x0, 0xffffffffffffffff⟩,
  ⟨0x480018, 0, 1, 0, 1, 0, 1, 64, 0x0, 0x0, 0x0, 0xffffffffffffffff⟩,
  ⟨0x480020, 0, 1, 0, 1, 0, 1, 64, 0x0, 0x0, 0x0, 0xffffffffffffffff⟩,
  ⟨0x480028, 0, 1, 0, 1, 0, 1, 64, 0x0, 0x0, 0x0, 0xffffffffffffffff⟩,
  ⟨0x480030, 0, 1, 0, 1, 0, 1, 64, 0x0, 0x0, 0x0, 0xffffffffffffffff⟩,
  ⟨0x480038, 0, 1, 0, 1, 0, 1, 32, 0x989680, 0x0, 0x0, 0xffffffff⟩,
  ⟨0x480040, 0, 1, 0, 1, 0, 1, 64, 0x0, 0xfffffffffc00, 0x0, 0x0⟩,
  ⟨0x480048, 0, 1, 0, 1, 0, 1, 64, 0x0, 0x0, 0x0, 0x0⟩,
  ⟨0x480050, 0, 1, 0, 1, 0, 1, 64, 0x0, 0xf3fffffff, 0x0, 0x0⟩,
  ⟨0x480058, 0, 1, 0, 1, 0, 1, 32, 0x0, 0xffffffff, 0x0, 0x0⟩,
  ⟨0x480060, 0, 1, 8, 2, 0, 1, 64, 0x0, 0xffffffffffc0, 0x0, 0x0⟩,
  ⟨0x480080, 0, 1, 0, 1, 0, 1, 64, 0x0, 0x0, 0x0, 0x0⟩,
  ⟨0x480088, 0, 1, 0, 1, 0, 1, 64, 0x0, 0x0, 0x0, 0x0⟩,
  ⟨0x480090, 0, 1, 0, 1, 0, 1, 64, 0x0, 0x0, 0x0, 0x0⟩]
/-- The registers of the CRUC block that R497 lists. -/
def regRowsCrucr497 : List RegRow := [
  ⟨0x500000, 0x40000, 4, 0, 1, 0, 1, 32, 0x0, 0x0, 0x0, 0x0⟩,
  ⟨0x500008, 0x40000, 4, 0, 1, 0, 1, 32, 0x0, 0x0, 0xb, 0x0⟩,
  ⟨0x500010, 0x40000, 4, 0, 1, 0, 1, 64, 0x0, 0x0, 0x0, 0x0⟩,
  ⟨0x500018, 0x40000, 4, 0, 1, 0, 1, 64, 0x0, 0x0, 0x0, 0x0⟩,
  ⟨0x500020, 0x40000, 4, 0, 1, 0, 1, 32, 0x0, 0x0, 0x0, 0x0⟩,
  ⟨0x500028, 0x40000, 4, 0, 1, 0, 1, 32, 0x0, 0x0, 0x0, 0x0⟩,
  ⟨0x500040, 0x40000, 4, 8, 17, 0, 1, 32, 0xffffff, 0xffffff, 0x0, 0x0⟩,
  ⟨0x500100, 0x40000, 4, 0, 1, 0, 1, 64, 0x0, 0x0, 0x0, 0x0⟩,
  ⟨0x500108, 0x40000, 4, 0, 1, 0, 1, 64, 0x0, 0x0, 0x0, 0x0⟩,
  ⟨0x500110, 0x40000, 4, 0, 1, 0, 1, 64, 0x0, 0x0, 0x0, 0x0⟩,
  ⟨0x500118, 0x40000, 4, 0, 1, 0, 1, 64, 0x0, 0x0, 0x0, 0x0⟩,
  ⟨0x500120, 0x40000, 4, 0, 1, 0, 1, 64, 0x0, 0x0, 0x0, 0x0⟩,
  ⟨0x500128, 0x40000, 4, 0, 1, 0, 1, 64, 0x0, 0x0, 0x0, 0x0⟩,
  ⟨0x500130, 0x40000, 4, 0, 1, 0, 1, 64, 0x0, 0x0, 0x0, 0x0⟩,
  ⟨0x500138, 0x40000, 4, 0, 1, 0, 1, 64, 0x0, 0x0, 0x0, 0x0⟩,
  ⟨0x500140, 0x40000, 4, 0, 1, 0, 1, 64, 0x0, 0x0, 0x0, 0x0⟩,
  ⟨0x500148, 0x40000, 4, 0, 1, 0, 1, 64, 0x0, 0x0, 0x0, 0x0⟩,
  ⟨0x500150, 0x40000, 4, 0, 1, 0, 1, 64, 0x0, 0x0, 0x0, 0x0⟩,
  ⟨0x500158, 0x40000, 4, 0, 1, 0, 1, 64, 0x0, 0x0, 0x0, 0x0⟩,
  ⟨0x501000, 0x40000, 4, 16, 256, 0, 1, 64, 0x0, 0x0, 0x0, 0xfffffffff03f⟩,
  ⟨0x501008, 0x40000, 4, 16, 256, 0, 1, 64, 0x0, 0x0, 0x0, 0xffffc01fffffffff⟩]
/-- The registers of the PUNTY block that R500 lists. -/
def regRowsPuntyr500 : List RegRow := [
  ⟨0x700000, 0, 1, 0, 1, 0, 1, 32, 0xa0000000, 0x0, 0x0, 0x0⟩,
  ⟨0x700008, 0, 1, 0, 1, 0, 1, 32, 0x271003, 0xffffffff, 0x0, 0x0⟩,
  ⟨0x700010, 0, 1, 0, 1, 0, 1, 32, 0x0, 0x0, 0x0, 0x0⟩,
  ⟨0x701000, 0, 1, 64, 26, 0, 1, 32, 0x0, 0x0, 0x0, 0x0⟩,
  ⟨0x701008, 0, 1, 64, 26, 0, 1, 32, 0x7f7f, 0x0, 0x0, 0x0⟩,
  ⟨0x701010, 0, 1, 64, 26, 0, 1, 64, 0x0, 0x0, 0x0, 0x0⟩,
  ⟨0x701018, 0, 1, 64, 26, 0, 1, 64, 0x0, 0x0, 0x0, 0x0⟩,
  ⟨0x701020, 0, 1, 64, 26, 0, 1, 32, 0x0, 0x0, 0x0, 0x0⟩,
  ⟨0x704000, 0, 1, 32, 96, 0, 1, 32, 0x1f0000, 0x0, 0x0, 0x0⟩,
  ⟨0x704008, 0, 1, 32, 96, 0, 1, 64, 0x0, 0x0, 0x0, 0x0⟩,
  ⟨0x704010, 0, 1, 32, 96, 0, 1, 64, 0x0, 0x0, 0x0, 0x0⟩]
/-- The registers of the DEV block that R518 lists. -/
def regRowsDevr518 : List RegRow := [
  ⟨0x3000, 0, 1, 0, 1, 0, 1, 32, 0x3210, 0xffff7f, 0x0, 0x0⟩,
  ⟨0x3008, 0, 1, 0, 1, 0, 1, 32, 0x0, 0x0, 0x3, 0x0⟩,
  ⟨0x3010, 0, 1, 8, 4, 0, 1, 32, 0x0, 0x0, 0x0, 0x0⟩,
  ⟨0x3030, 0, 1, 8, 4, 0, 1, 32, 0x0, 0x0, 0x0, 0x0⟩,
  ⟨0x3100, 0, 1, 256, 4, 8, 21, 64, 0xfffff, 0xfffff000fffff, 0x0, 0x0⟩,
  ⟨0x3600, 0, 1, 32, 4, 8, 3, 64, 0x0, 0x0, 0x0, 0x0⟩,
  ⟨0x3700, 0, 1, 256, 4, 8, 21, 64, 0x0, 0x0, 0x0, 0x0⟩]
/-- The registers of the DEV block that R545 lists. -/
def regRowsDevr545 : List RegRow := [
  ⟨0x4000, 0, 1, 0, 1, 0, 1, 32, 0x303e8, 0xfffff, 0x0, 0x0⟩,
  ⟨0x4008, 0, 1, 0, 1, 0, 1, 64, 0xf011c6, 0xffffffff01ff1fff, 0x0, 0x0⟩,
  ⟨0x4010, 0, 1, 0, 1, 0, 1, 32, 0x1130000, 0x0, 0x78, 0x0⟩,
  ⟨0x4018, 0, 1, 0, 1, 0, 1, 32, 0x0, 0x0, 0x0, 0x0⟩,
  ⟨0x4020, 0, 1, 0, 1, 0, 1, 32, 0x0, 0xff01, 0x0, 0x0⟩,
  ⟨0x4028, 0, 1, 0, 1, 0, 1, 32, 0x0, 0x0, 0x0, 0x0⟩,
  ⟨0x4030, 0, 1, 0, 1, 0, 1, 64, 0x0, 0x0, 0x0, 0x0⟩,
  ⟨0x4100, 0, 1, 16, 16, 0, 1, 64, 0x0, 0x9fffffff7fff, 0x0, 0x0⟩,
  ⟨0x4108, 0, 1, 16, 16, 0, 1, 64, 0x0, 0xffffffffffffffff, 0x0, 0x0⟩]
/-- The registers of the MEMC block that R547 lists. -/
def regRowsMemcr547 : List RegRow := [
  ⟨0x600000, 0x10000, 16, 0, 1, 0, 1, 32, 0x0, 0x0, 0x0, 0x0⟩,
  ⟨0x600008, 0x10000, 16, 0, 1, 0, 1, 32, 0x0, 0x0, 0x0, 0x0⟩,
  ⟨0x600010, 0x10000, 16, 0, 1, 0, 1, 64, 0x0, 0x0, 0x0, 0x0⟩,
  ⟨0x601000, 0x10000, 16, 256, 4, 0, 1, 32, 0x0, 0x0, 0x0, 0x0⟩,
  ⟨0x601008, 0x10000, 16, 256, 4, 0, 1, 64, 0x0, 0x0, 0x0, 0x0⟩,
  ⟨0x601010, 0x10000, 16, 256, 4, 0, 1, 64, 0x0, 0x0, 0x0, 0x0⟩,
  ⟨0x601018, 0x10000, 16, 256, 4, 0, 1, 64, 0x0, 0x0, 0x0, 0x0⟩,
  ⟨0x601020, 0x10000, 16, 256, 4, 0, 1, 64, 0x0, 0x0, 0x0, 0x0⟩,
  ⟨0x601028, 0x10000, 16, 256, 4, 0, 1, 64, 0x0, 0x0, 0x0, 0x0⟩,
  ⟨0x601030, 0x10000, 16, 256, 4, 0, 1, 64, 0x0, 0x0, 0x0, 0x0⟩,
  ⟨0x601038, 0x10000, 16, 256, 4, 0, 1, 32, 0x0, 0x0, 0x0, 0x0⟩,
  ⟨0x601040, 0x10000, 16, 256, 4, 0, 1, 64, 0x0, 0x0, 0x0, 0x0⟩,
  ⟨0x601048, 0x10000, 16, 256, 4, 0, 1, 32, 0x0, 0x0, 0x0, 0x0⟩,
  ⟨0x601050, 0x10000, 16, 256, 4, 0, 1, 64, 0x0, 0xffffffff00000003, 0x0, 0x0⟩,
  ⟨0x601058, 0x10000, 16, 256, 4, 0, 1, 64, 0x0, 0xffffffffffffffff, 0x0, 0x0⟩,
  ⟨0x601060, 0x10000, 16, 256, 4, 0, 1, 64, 0x0, 0x0, 0x0, 0x0⟩,
  ⟨0x601068, 0x10000, 16, 256, 4, 0, 1, 64, 0x0, 0x0, 0x0, 0x0⟩,
  ⟨0x601070, 0x10000, 16, 256, 4, 0, 1, 32, 0x0, 0xf3f, 0x0, 0x0⟩,
  ⟨0x601078, 0x10000, 16, 256, 4, 0, 1, 32, 0x0, 0x3ff, 0x0, 0x0⟩,
  ⟨0x601080, 0x10000, 16, 256, 4, 0, 1, 32, 0x0, 0x0, 0x0, 0x0⟩]
/-- The registers of the RESET block that R572 lists. -/
def regRowsResetr572 : List RegRow := [
  ⟨0xa00000, 0, 1, 0, 1, 0, 1, 32, 0xa0000000, 0x0, 0x0, 0x0⟩,
  ⟨0xa00008, 0, 1, 0, 1, 0, 1, 32, 0x0, 0x0, 0x0, 0x0⟩,
  ⟨0xa00010, 0, 1, 0, 1, 0, 1, 64, 0x0, 0x0, 0x0, 0x0⟩,
  ⟨0xa00018, 0, 1, 0, 1, 0, 1, 64, 0x0, 0x0, 0x0, 0x0⟩,
  ⟨0xa00020, 0, 1, 0, 1, 0, 1, 32, 0x0, 0x0, 0x0, 0x0⟩,
  ⟨0xa00028, 0, 1, 0, 1, 0, 1, 32, 0x0, 0x0, 0x0, 0x0⟩,
  ⟨0xa00030, 0, 1, 0, 1, 0, 1, 32, 0x1f4, 0x3ff, 0x0, 0x0⟩,
  ⟨0xa00038, 0, 1, 0, 1, 0, 1, 64, 0x0, 0x0, 0x0, 0x0⟩,
  ⟨0xa00040, 0, 1, 0, 1, 0, 1, 32, 0x0, 0x0, 0x0, 0x0⟩,
  ⟨0xa00048, 0, 1, 0, 1, 0, 1, 32, 0x0, 0x7f, 0x0, 0x0⟩,
  ⟨0xa00050, 0, 1, 0, 1, 0, 1, 64, 0x0, 0x0, 0x0, 0x0⟩,
  ⟨0xa00100, 0, 1, 8, 16, 0, 1, 64, 0x0, 0x0, 0x0, 0x0⟩]
/-- The registers of the DEV block that R596 lists. -/
def regRowsDevr596 : List RegRow := [
  ⟨0x5000, 0, 1, 0, 1, 0, 1, 32, 0x0, 0x0, 0x0, 0x0⟩,
  ⟨0x5008, 0, 1, 0, 1, 0, 1, 32, 0x0, 0x0, 0x0, 0x0⟩,
  ⟨0x5010, 0, 1, 0, 1, 0, 1, 64, 0x0, 0x0, 0x0, 0x0⟩,
  ⟨0x5018, 0, 1, 0, 1, 0, 1, 64, 0x0, 0x0, 0x0, 0x0⟩,
  ⟨0x5020, 0, 1, 0, 1, 0, 1, 64, 0x0, 0xffffffffffc0, 0x0, 0x0⟩,
  ⟨0x5028, 0, 1, 0, 1, 0, 1, 64, 0x0, 0xffffffffffc0, 0x0, 0x0⟩,
  ⟨0x5030, 0, 1, 0, 1, 0, 1, 32, 0x0, 0x0, 0x0, 0x0⟩,
  ⟨0x5038, 0, 1, 0, 1, 0, 1, 32, 0x10, 0x1f, 0x0, 0x0⟩,
  ⟨0x5040, 0, 1, 0, 1, 0, 1, 32, 0x10, 0x0, 0x1c0, 0x0⟩,
  ⟨0x5048, 0, 1, 0, 1, 0, 1, 64, 0x0, 0x0, 0x0, 0x0⟩,
  ⟨0x5058, 0, 1, 8, 4, 0, 1, 32, 0x0, 0x0, 0x0, 0x7f⟩,
  ⟨0x5080, 0, 1, 0, 1, 0, 1, 32, 0x0, 0x0, 0x0, 0x0⟩,
  ⟨0x5088, 0, 1, 0, 1, 0, 1, 32, 0x0, 0x0, 0x0, 0x0⟩,
  ⟨0x5090, 0, 1, 8, 4, 0, 1, 64, 0x0, 0x0, 0x0, 0x0⟩,
  ⟨0x50b0, 0, 1, 0, 1, 0, 1, 64, 0x0, 0x0, 0x0, 0x0⟩,
  ⟨0x50b8, 0, 1, 0, 1, 0, 1, 64, 0x0, 0x0, 0x0, 0x0⟩]
/-- The registers of the BLOWPIPE block that R615 lists. -/
def regRowsBlowpiper615 : List RegRow := [
  ⟨0x780000, 0, 1, 0, 1, 0, 1, 32, 0xa0000006, 0x0, 0x0, 0x0⟩,
  ⟨0x780008, 0, 1, 0, 1, 0, 1, 32, 0x0, 0x7fffff, 0x0, 0x0⟩,
  ⟨0x780010, 0, 1, 0, 1, 0, 1, 32, 0x0, 0x0, 0x3, 0x0⟩,
  ⟨0x780018, 0, 1, 0, 1, 0, 1, 64, 0x0, 0x0, 0x0, 0x0⟩,
  ⟨0x780020, 0, 1, 0, 1, 0, 1, 64, 0x0, 0x0, 0x0, 0x0⟩,
  ⟨0x780100, 0, 1, 32, 6, 0, 1, 32, 0x0, 0x0, 0x0, 0x0⟩,
  ⟨0x780108, 0, 1, 32, 6, 0, 1, 64, 0x0, 0x0, 0x0, 0x0⟩,
  ⟨0x780110, 0, 1, 32, 6, 0, 1, 64, 0x0, 0x0, 0x0, 0x0⟩,
  ⟨0x781000, 0, 1, 32, 32, 0, 1, 64, 0x0, 0xfffffffff03f, 0x0, 0x0⟩,
  ⟨0x781008, 0, 1, 32, 32, 0, 1, 64, 0x0, 0xffff07ff00ffffff, 0x0, 0x0⟩,
  ⟨0x781010, 0, 1, 32, 32, 0, 1, 64, 0x0, 0x0, 0x0, 0x0⟩,
  ⟨0x781018, 0, 1, 32, 32, 0, 1, 64, 0x0, 0x0, 0x0, 0x0⟩,
  ⟨0x782000, 0, 1, 32, 32, 0, 1, 64, 0x0, 0x7fffffffffffff, 0x0, 0x0⟩,
  ⟨0x782008, 0, 1, 32, 32, 0, 1, 64, 0x3e800000000, 0xffff00ffffff, 0x0, 0x0⟩,
  ⟨0x782010, 0, 1, 32, 32, 0, 1, 64, 0x0, 0x0, 0x8000000000, 0x0⟩,
  ⟨0x782018, 0, 1, 32, 32, 0, 1, 64, 0x0, 0x0, 0x0, 0x0⟩]
/-- The registers of the THERM block that R642 lists. -/
def regRowsThermr642 : List RegRow := [
  ⟨0x900000, 0, 1, 0, 1, 0, 1, 32, 0xa0000000, 0x0, 0x0, 0x0⟩,
  ⟨0x900008, 0, 1, 0, 1, 0, 1, 32, 0x0, 0x0, 0x10, 0x0⟩,
  ⟨0x900010, 0, 1, 0, 1, 0, 1, 32, 0x181c2, 0x1f3ff, 0x0, 0x0⟩,
  ⟨0x900018, 0, 1, 0, 1, 0, 1, 64, 0xfeee0000, 0x0, 0x0, 0x0⟩,
  ⟨0x900020, 0, 1, 0, 1, 0, 1, 64, 0x0, 0x0, 0x0, 0x0⟩,
  ⟨0x900028, 0, 1, 0, 1, 0, 1, 32, 0x0, 0xfff, 0x0, 0x0⟩,
  ⟨0x900030, 0, 1, 0, 1, 0, 1, 64, 0x3c64840378, 0xffffff0fff, 0x0, 0x0⟩,
  ⟨0x900038, 0, 1, 0, 1, 0, 1, 32, 0x5a6964, 0xffffff, 0x0, 0x0⟩,
  ⟨0x900040, 0, 1, 0, 1, 0, 1, 64, 0x0, 0xffffffffffffffff, 0x0, 0x0⟩,
  ⟨0x900048, 0, 1, 0, 1, 0, 1, 32, 0x0, 0xffffffff, 0x0, 0x0⟩,
  ⟨0x900050, 0, 1, 0, 1, 0, 1, 64, 0x0, 0x0, 0x0, 0x0⟩,
  ⟨0x900058, 0, 1, 0, 1, 0, 1, 32, 0x5641, 0xfff1, 0x0, 0x0⟩,
  ⟨0x900060, 0, 1, 0, 1, 0, 1, 32, 0x1e, 0xff, 0x0, 0x0⟩,
  ⟨0x900100, 0, 1, 8, 116, 0, 1, 64, 0x0, 0x0, 0x0, 0x0⟩,
  ⟨0x900800, 0, 1, 8, 512, 0, 1, 32, 0x0, 0x0, 0x0, 0x0⟩,
  ⟨0x902000, 0, 1, 16, 96, 0, 1, 64, 0x0, 0x0, 0x0, 0x0⟩,
  ⟨0x902008, 0, 1, 16, 96, 0, 1, 64, 0x0, 0x0, 0x0, 0x0⟩,
  ⟨0x903000, 0, 1, 8, 96, 0, 1, 64, 0xffff, 0x0, 0x0, 0x0⟩]

/-- The register rows of the block that an offset lies in (R20), in the DEV and CORE blocks those of its part. -/
def regRowsAt (off : Nat) : List RegRow :=
  if off < 0x2000 then regRowsDevr42
  else if off < 0x3000 then regRowsDevr401
  else if off < 0x4000 then regRowsDevr518
  else if off < 0x5000 then regRowsDevr545
  else if off < 0x100000 then regRowsDevr596
  else if off < 0x200000 then regRowsBomusr367
  else if off < 0x300000 then regRowsBenchr403
  else if off < 0x400000 then regRowsMarverr319 ++ regRowsMarverr280
  else if off < 0x480000 then regRowsLehrar451
  else if off < 0x500000 then regRowsLehrbr453
  else if off < 0x600000 then regRowsCrucr497
  else if off < 0x700000 then regRowsMemcr547
  else if off < 0x780000 then regRowsPuntyr500
  else if off < 0x800000 then regRowsBlowpiper615
  else if off < 0x900000 then regRowsPcier369
  else if off < 0xA00000 then regRowsThermr642
  else if off < 0x1000000 then regRowsResetr572
  else if 0x2000000 ≤ off then regRowsCulletr239
  else if off % 0x10000 < 0x1000 then regRowsCorer120
  else if off % 0x10000 < 0x8000 then regRowsCorer181
  else regRowsCorer205

/-- The quotient and remainder of an offset by a stride; a stride of 0 (a single copy) leaves the offset whole. -/
def strideSplit (d stride : Nat) : Nat × Nat := if stride = 0 then (0, d) else (d / stride, d % stride)

/-- Whether the row holds the register at this offset. -/
def RegRow.holds (r : RegRow) (off : Nat) : Bool :=
  decide (r.base ≤ off) && decide (off ≤ r.base + r.bStride * (r.bCount - 1) + r.s1 * (r.c1 - 1) + r.s2 * (r.c2 - 1)) &&
    (let a := strideSplit (off - r.base) r.bStride
     let b := strideSplit a.2 r.s1
     let c := strideSplit b.2 r.s2
     decide (a.1 < r.bCount) && decide (b.1 < r.c1) && decide (c.1 < r.c2) && decide (c.2 = 0))

/-- The row of the register at a CSR offset; none at a reserved offset (R11). -/
def regRow (off : Nat) : Option RegRow := (regRowsAt off).find? (·.holds off)

/-- The block copy an offset lies in, for the registers whose reset value names it. -/
def copyOf (off blockBase stride : Nat) : Nat := (off - blockBase) / stride

/-- The reset values that a table gives as an expression of the index, by register (CORE_ID R121, BENCH_ID R403,
CULLET_ID R239, CRUC_ID R497, MEMC_ID R547, DEV_REGCAPk R530, DEV_MEMMAP0 R545, THERM_SENSs.UNIT R625). -/
def indexedReset (off : Nat) : Option Nat :=
  if off = Reg.devMemmapa 0 then some 0x0000880080000000
  else if off = Reg.devMemmapm 0 then some 0xFFFFFFFFFFFFFFFF
  else if 0x3010 ≤ off ∧ off < 0x3030 then some 60000
  else if 0x1000000 ≤ off ∧ off < 0x1600000 ∧ (off - 0x1000000) % 0x10000 = 0 then
    let c := copyOf off 0x1000000 0x10000
    some (0xA0000000 + c + c / 8 * 0x100 + c % 8 * 0x1000 + c / 24 * 0x10000)
  else if 0x200000 ≤ off ∧ off < 0x2C0000 ∧ (off - 0x200000) % 0x10000 = 0 then
    let d := copyOf off 0x200000 0x10000
    some (0xA0000000 + d + d / 3 * 16)
  else if 0x500000 ≤ off ∧ off < 0x600000 ∧ (off - 0x500000) % 0x40000 = 0 then some (0xA0000000 + copyOf off 0x500000 0x40000)
  else if 0x600000 ≤ off ∧ off < 0x700000 ∧ (off - 0x600000) % 0x10000 = 0 then
    let m := copyOf off 0x600000 0x10000
    some (0xA0000000 + m + m / 4 * 16)
  else if 0x2000000 ≤ off ∧ off < 0x2100000 ∧ (off - 0x2000000) % 0x40000 = 0 then some (0xA0000000 + copyOf off 0x2000000 0x40000)
  else if 0x900800 ≤ off ∧ off < 0x901800 then
    let s := (off - 0x900800) / 8
    some ((if s < 384 then s / 4 else if s < 408 then 96 + (s - 384) / 2 else if s < 472 then 108 + (s - 408) / 16
      else if s < 488 then 112 else if s < 504 then 113 else if s < 508 then 114 else 115) * 0x10000)
  else none

/-- The reset value of the register at a CSR offset; a reserved offset reads zero (R11). -/
def regReset (off : Nat) : Word :=
  match indexedReset off with
  | some v => BitVec.ofNat 64 v
  | none =>
    match regRow off with
    | some r => BitVec.ofNat 64 r.reset
    | none => 0#64

end Sys2Proof.Machine
end

