-- ==== Sys2Proof/Machine/Sparse.lean ====
section
/-! DEFINITION. Sparse tables as plain data: a list of (index, value) pairs, indices strictly rising, no pair equal to
what an unlisted index reads as. Memories, register files and the per-unit tables of State are held so. -/

namespace Sys2Proof.Machine

variable {α : Type}

/-- The value at an index; an unlisted index reads as the default. -/
def sget (d : α) : List (Nat × α) → Nat → α
  | [], _ => d
  | (k, v) :: m, i => if k = i then v else sget d m i

/-- The list with every pair of the index left out. -/
def sdel : List (Nat × α) → Nat → List (Nat × α)
  | [], _ => []
  | (k, v) :: m, i => if k = i then sdel m i else (k, v) :: sdel m i

/-- The list with the index's pair put in its place. -/
def sins : List (Nat × α) → Nat → α → List (Nat × α)
  | [], i, x => [(i, x)]
  | (k, v) :: m, i, x =>
    if k = i then (i, x) :: m else if i < k then (i, x) :: (k, v) :: m else (k, v) :: sins m i x

/-- Write at an index; writing what an unlisted index reads as removes the pair, so equal tables are equal lists. -/
def sput [DecidableEq α] (d : α) (m : List (Nat × α)) (i : Nat) (x : α) : List (Nat × α) :=
  if x = d then sdel m i else sins m i x

/-- Whether every index of the list lies above a bound and the indices rise. -/
def sortedFrom : Nat → List (Nat × α) → Bool
  | _, [] => true
  | b, (k, _) :: m => decide (b ≤ k) && sortedFrom (k + 1) m

/-- The canonical form: indices strictly rising, no pair equal to the index's default. -/
def sparseWf [DecidableEq α] (d : Nat → α) (m : List (Nat × α)) : Bool :=
  sortedFrom 0 m && m.all (fun p => decide (p.2 ≠ d p.1))

/-- Remove every pair whose index satisfies a test (a range of a memory set back to its default). -/
def sclear (p : Nat → Bool) (m : List (Nat × α)) : List (Nat × α) := m.filter (fun q => !p q.1)

end Sys2Proof.Machine
end

