-- ==== Sys2Proof/Machine/State.lean ====
section
/-! DEFINITION. The machine's state as plain data.  A register the spec numbers lives in the register file `regs`, keyed by
its CSR offset, and nowhere else (an unlisted offset reads as its reset value); what the spec gives the machine beside
its registers is held in the structures below, one per chapter. -/

namespace Sys2Proof.Machine

/-- Why a command stops the machine. -/
inductive Fault where
  deriving DecidableEq, Repr

/-- Why a command has no meaning. -/
inductive Refusal where
  /-- Raised by exec's arm of a command this model gives no meaning yet; safe. -/
  | notModelled (mnemonic : String)
  deriving DecidableEq, Repr

/-! ## Event logs -/

/-- One entry of an event log: the word the log register shows, and the address register beside it where there is one. -/
structure EvEntry where
  word : Word
  addr : Nat
  deriving DecidableEq, Repr

/-- An event log, oldest entry first; `disc` says that events were discarded since the last entry. -/
structure EvLog where
  entries : List EvEntry
  disc : Bool
  deriving DecidableEq, Repr

/-- One event recorded by Lehr A (its fault record, and what is raised to it over the watch ring). -/
structure FaultNote where
  code : Nat
  unit : Nat
  frame : Nat
  deriving DecidableEq, Repr

/-! ## Cores (R90-R131) -/

/-- The states of a core (R117). -/
inductive CoreSt where
  | off
  | reset
  | repair
  | selftest
  | held
  | idle
  | run
  | kill
  | ckpt
  | halt
  | faulted
  | quarantine
  | disabled
  | reheat
  deriving DecidableEq, Repr

/-- An accumulator with its tag byte (R71, R96): the 96-bit value, the residue lane and the sticky flags. -/
structure Acc where
  value : BitVec 96
  res : BitVec 3
  nan : Bool
  pinf : Bool
  ninf : Bool
  inexact : Bool
  tsat : Bool
  deriving DecidableEq, Repr

/-- A cleared accumulator. -/
def Acc.zero : Acc := ⟨0#96, 0#3, false, false, false, false, false⟩

/-- The state of an accumulator tile (R96, R151): anchor, mode, formats, scales, segment length, starting K index and, in
float-tree mode, the logarithm of the leaves it covers. -/
structure TileSt where
  anchor : Int
  fmode : Bool
  fmta : Nat
  fmtb : Nat
  scfa : Nat
  scea : Bool
  scfb : Nat
  sceb : Bool
  seg : Nat
  kstart : Nat
  klog : Nat
  deriving DecidableEq, Repr

/-- A tile's state after a reset or a partition clear (R110): anchor 0, fixed-point mode, no scales and so segments of one product. -/
def TileSt.zero : TileSt := ⟨0, false, 0, 0, 0, false, 0, false, 1, 0, 0⟩

/-- A weight tile as WLD reads it (R152): the fields of the word, the weight codes row by row, the scale bytes
block by block, and where one further row of scales could not be had (0: it was). -/
structure WTile where
  fmtb : Nat
  sceb : Bool
  sclb : Bool
  wn : Nat
  wk : Nat
  krel : Nat
  codes : List (List Nat)
  scales : List (List Nat)
  lack : Nat
  deriving DecidableEq, Repr

/-- A pending record of carried counters (R196): its owner and the sums D and P of each counter. -/
structure PendRec where
  owner : Nat
  d : List (Nat × Nat)
  p : List (Nat × Nat)
  deriving DecidableEq, Repr

/-- An instruction in execution (R141, R142): its stream and word, the unit it holds, the tile it uses, its signal, its
transactions in flight, whether it has completed, and the base slot that its descriptor names (R184). -/
structure InFlight where
  stream : Nat
  word : Nat
  eng : Nat
  op : Nat
  tile : Option Nat
  sctr : BitVec 11
  samt : Nat
  txns : Nat
  done : Bool
  slot : Nat
  deriving DecidableEq, Repr

/-- One stream of the running program (R91, R132): its first word and length in the image, the highest marker it has
issued, whether it has ended, and whether it has passed word 2^24 - 1, where CORE_TPWORD's 24 bits end (R134). -/
structure Stream where
  offset : Nat
  length : Nat
  marker : Nat
  ended : Bool
  past : Bool
  deriving DecidableEq, Repr

/-- What a run is (R380, R405, R417): main, reblow or tie-break, its program index in the kernel descriptor, the FRAME
of its command, and how many signatures it has sent. -/
inductive RunKind where
  | main
  | reblow
  | tiebreak
  deriving DecidableEq, Repr

/-- The identity of the run a core executes. -/
structure RunCtx where
  kind : RunKind
  prog : Nat
  frame : Nat
  sigs : Nat
  deriving DecidableEq, Repr

/-- A debug write of a halted main run, kept for replay onto the reblow run (R100, R415): the offset in the core's window, or 2^44 × 15 plus the
number of the counter. -/
structure DebugWrite where
  addr : Nat
  bytes : List Byte
  points : List Nat
  deriving DecidableEq, Repr

/-- What a core holds beside its registers. A row has the index 128 × tile + row, an accumulator 128 × row index +
column, a lane 512 × register + lane, a buffered word 2^24 × stream + word index (none when it was poisoned). `ckptAddr` is the
checkpoint image a resumption restores or a request saves to, `resuming` says that the restore has not happened yet; `since` is the moment
from which engine time runs, `runTime` the engine time of the run so far, `charged` what of it DEV_ACCTp holds, `limit` the run limit,
`ckptSince` the moment of a checkpoint request, `priv` the private copy of the carried counters of a reblow or tie-break run (R409),
`haltPoint` the recorded halt point (R415), and `faultAt` the moment of the fault that CORE_FAULT records (R119). -/
structure Core where
  clearing : Bool
  prevPart : Option Nat
  portLost : Bool
  sp : List (Nat × Byte)
  spBad : List Nat
  accs : List (Nat × Acc)
  leaves : List (Nat × List (Nat × Nat))
  terms : List (Nat × Nat)
  nextK : List (Nat × Nat)
  tiles : List (Nat × TileSt)
  vregs : List (Nat × BitVec 32)
  shadow : Option WTile
  active : Option WTile
  wldFresh : Bool
  swapped : Bool
  streams : List Stream
  nckpt : Nat
  nslot : Nat
  buf : List (Nat × Option (BitVec 128))
  flight : List InFlight
  carried : List (Nat × Nat)
  records : List PendRec
  run : RunCtx
  ckptAddr : Nat
  debugLog : List DebugWrite
  resuming : Bool
  since : Nat
  runTime : Nat
  charged : Nat
  limit : Nat
  ckptSince : Nat
  priv : List (Nat × Nat)
  haltPoint : Option (List Nat)
  faultAt : Option Nat
  deriving DecidableEq, Repr

/-- A core whose memories a reset has just cleared (R131). -/
def Core.reset : Core :=
  ⟨false, none, false, [], [], [], [], [], [], [], [], none, none, false, false, [], 0, 0, [], [], [], [],
    ⟨.main, 0, 0, 0⟩, 0, [], false, 0, 0, 0, 0, 0, [], none, none⟩

/-- A signature message on its way to Lehr A (R417). -/
structure SigMsg where
  seq : Nat
  part : Nat
  kind : RunKind
  prog : Nat
  sigid : Nat
  sig : Nat
  ord : Nat
  frame : Nat
  core : Nat
  deriving DecidableEq, Repr

/-! ## The scoreboard (R323-R404) -/

/-- The states of a scoreboard entry (R373). COMMITTED and CLOSED last no longer than the command that brings them. -/
inductive CmdSt where
  | waiting
  | ready
  | running
  | ended
  | cancelling
  deriving DecidableEq, Repr

/-- Where a run of a program stands: queued, on a core, or ended without fault. -/
inductive RunSt where
  | queued
  | active (core : Nat)
  | done (core : Nat)
  deriving DecidableEq, Repr

/-- A run of a command (R373): its program, kind and state, whether a valid checkpoint image is saved, whether it was resumed or re-run,
the engine time and flags of what ended or was saved, since when it waits or runs, and the debug log a main run left for its reblow run (R415). -/
structure ProgRun where
  prog : Nat
  kind : RunKind
  st : RunSt
  ckpt : Bool
  resumed : Bool
  rerun : Bool
  time : Nat
  flags : Nat
  queuedAt : Nat
  log : List DebugWrite
  deriving DecidableEq, Repr

/-- The descriptor of a kernel as it was checked (R341): the estimate, the checkpoint base, the image addresses and the slots of every
program: an address and a size, or an argument's index (with the marker bit 63 of SIZE). -/
structure KDesc where
  est : Nat
  ckptBase : Nat
  nslot : Nat
  images : List Nat
  slots : List (Nat × Nat)
  deriving DecidableEq, Repr

/-- A live command (R332, R373): the entry's header fields and bytes, its place in the order of consumption, its state, the reason it is
cancelled for, its unresolved predecessor, its programs, its sources of speculation (R393), the commands it must follow (R234), and what
its record will say. `began` is the time of the boundary that began its FRAME (R665), `bound` the cores its predecessor's programs ran on (R379), and
`flipAt` the moment of its commit point, once it has passed it and waits for its triggers to fire (R382). -/
structure Cmd where
  part : Nat
  seq : Nat
  ring : Nat
  order : Nat
  entry : List Byte
  st : CmdSt
  reason : Nat
  member : Bool
  noRecord : Bool
  dep : Option Nat
  depKey : Option Nat
  desc : Option KDesc
  args : List (Nat × Nat)
  runs : List ProgRun
  reserved : Bool
  record : Option (Nat × Nat)
  resolved : Option Nat
  srcFrame : Bool
  srcDep : Bool
  srcKv : List Nat
  everSpec : Bool
  follows : List Nat
  reads : List (Nat × Nat)
  result : Nat
  status : Nat
  began : Option Nat
  bound : List (Nat × Nat)
  flipAt : Option Nat
  deriving DecidableEq, Repr

/-- Whether a command has passed its commit point (R381, R382). -/
def Cmd.flipped (c : Cmd) : Bool := c.flipAt.isSome

/-- What leaves the device on a command's behalf: a write of host memory by a function, a read of a ring entry there (R328, R330), an MSI-X message
(R358, R361), or a CCI or MDIO transfer of `len` bytes on a sensor port, with the bytes it writes (R349). -/
inductive HostMsg where
  | write (fn addr : Nat) (bytes : List Byte)
  | read (fn addr len : Nat)
  | msix (fn vec : Nat)
  | sensor (kind port target devad reg len : Nat) (bytes : List Byte)
  deriving DecidableEq, Repr

/-- A Marver trigger that a commit armed (R376): the trigger, the frame it writes, the partition, its kind, the address of its count, and the
command that committed. -/
structure TrigArmed where
  n : Nat
  frame : Nat
  part : Nat
  kind : Nat
  addr : Nat
  key : Nat
  deriving DecidableEq, Repr

/-- A run report on its way to Lehr A (R418); `frame` is the FRAME of a command with FRAMEB = 1. -/
structure RunReport where
  seq : Nat
  part : Nat
  prog : Nat
  kind : RunKind
  core : Nat
  count : Nat
  fault : Nat
  frame : Option Nat
  deriving DecidableEq, Repr

/-- A tie-break run that Lehr A asked for (R429): the command as it was, the program, the cores of the two runs that disagree, and the core it
is on. -/
structure TieRun where
  cmd : Cmd
  prog : Nat
  main : Nat
  reblow : Nat
  core : Option Nat
  deriving DecidableEq, Repr

/-- What a checkpoint image in memory stands for beside its bytes, the model's own record of it, by the image's address and the CRC-32C of its header: the
leaves of the float-tree accumulators as they were saved (R75, R82, R174), and what the run had staged by then (R118, R384). -/
structure SavedRun where
  addr : Nat
  crc : Nat
  leaves : List (Nat × List (Nat × Nat))
  staged : List (Nat × Byte)
  deriving DecidableEq, Repr

/-- The scoreboard and Bench beside their registers: live commands in the order of consumption, layer registrations (key 4096 × partition +
layer), rings whose LASTSEQ is set, what went to the host, triggers to fire, commands whose wait passed the quantum, the cores that counted a
missed reheat slice in the frame, the spilled lines still to be copied home (crucible, line), the run reports on their way, the tie-break
runs asked for, the commands that meet the conditions of a commit in the order in which they met them (R381), and where the programs of committed
commands ran that left a carry binding (R379), and the rings that have had their turn of consumption (R330). -/
structure Bench where
  cmds : List Cmd
  nextOrder : Nat
  layers : List (Nat × (Nat × KDesc))
  lastSet : List Nat
  hostOut : List HostMsg
  triggers : List TrigArmed
  quantum : List Nat
  missed : List Nat
  spillCopies : List (Nat × Nat)
  reports : List RunReport
  ties : List TieRun
  commitQ : List Nat
  ranOn : List (Nat × List (Nat × Nat))
  turns : List Nat
  saved : List SavedRun
  deriving DecidableEq, Repr

/-! ## Cullet managers (R208-R243) -/

/-- The state of a reservation record (R215, R217): held by an uncommitted owner, ready to merge, or a committed draft. -/
inductive RecSt where
  | held
  | ready
  | draft
  deriving DecidableEq, Repr

/-- A reservation record (R215): owner command, start, count, draft and speculative bits, state, and the commands whose dispatched resolves wait to
commit (R236). -/
structure KvRec where
  owner : Nat
  start : Nat
  count : Nat
  draft : Bool
  spec : Bool
  st : RecSt
  resolvers : List Nat
  deriving DecidableEq, Repr

/-- Who holds a pool page (R213): nobody, a sequence, or the pool itself until its programs settle or it is scrubbed. -/
inductive PageSt where
  | free
  | owned (part seq : Nat)
  | waiting (owners : List Nat)
  | scrub
  deriving DecidableEq, Repr

/-- A cullet manager beside its registers: records by local sequence, page-table entries with key 4096 × sequence +
logical page, the owner record of each pool page, and bias entries with key 2048 × table + entry. -/
structure Cullet where
  recs : List (Nat × List KvRec)
  table : List (Nat × BitVec 32)
  pages : List (Nat × PageSt)
  bias : List (Nat × BitVec 16)
  busyUntil : Nat
  deriving DecidableEq, Repr

/-- An empty manager. -/
def Cullet.empty : Cullet := ⟨[], [], [], [], 0⟩

/-! ## The fabric (R456-R502) -/

/-- A live tracker entry (R464-R466): requester and tag, the crucible that tracks it, what it depends on, its kind
(0 read, 1 write, 2 CSR access, 3 walk) and class, whether the answer is poisoned, the answer's data, whether a fence has completed it, whether a reset
of its requester has orphaned it (R558), its deadline word (R514), the requester's identity and the address (R498), and the source whose share it uses
(R464: 0 cores, 1 a port die, 2 collective engine, 3 cullet manager, 4 spill copier, 5 a Lehr die, 6 a port die's CSR path). -/
structure TrackEntry where
  node : Nat
  tag : Nat
  cruc : Nat
  targets : List Target
  kind : Nat
  cls : Nat
  poisoned : Bool
  data : List Byte
  fenced : Bool
  orphan : Bool
  dl : BitVec 32
  ident : Nat
  addr : Nat
  source : Nat
  deriving DecidableEq, Repr

/-- The last response a requester received: its node and tag, whether it was poisoned, its data, and the deadline word of its request
(R515). -/
structure Response where
  node : Nat
  tag : Nat
  poisoned : Bool
  data : List Byte
  dl : BitVec 32
  deriving DecidableEq, Repr

/-- A packet in a retry buffer (R473): its sequence number, its words and virtual channel, its requester's node and tag, and the value that picks its
bucket (R474). -/
structure LinkPkt where
  sq : Nat
  words : Nat
  vc : Nat
  node : Nat
  tag : Nat
  hash : Nat
  deriving DecidableEq, Repr

/-- One direction of a link (R471-R473): the next sequence number to send, the retry buffer, the next number to receive, the words sent per channel and
the receiver's running totals of freed words, the sequence number of the NAK that the receiver has sent, the time since which the sender waits for an
ACK, and whether it has replayed since the last one. -/
structure LinkDir where
  next : Nat
  unacked : List LinkPkt
  expect : Nat
  sent : List (Nat × Nat)
  freed : List (Nat × Nat)
  nak : Option Nat
  wait : Nat
  replayed : Bool
  deriving DecidableEq, Repr

/-- A direction of a link before its first packet. -/
def LinkDir.zero : LinkDir := ⟨0, [], 0, [], [], none, 0, false⟩

/-- A combine target's staged copy (R486-R488): its owner, block address and rows, its tile state as the extension
carries it, the least KSTART, the ranges contributed per record in float-tree mode, and the combined records. -/
structure CombTarget where
  owner : Nat
  base : Nat
  rows : Nat
  tile : List Byte
  kmin : Nat
  ranges : List (Nat × Nat × Nat × Nat)
  recs : List (Nat × BitVec 128)
  deriving DecidableEq, Repr

/-- Fabric state beside the CRUC and PUNTY registers: live tracker entries, fences, links (link n's direction d has the key 2 n + d; links 0-25 are the
lateral modules, link 26 + c the vertical port of core c), the times of each link's CRC failures, its failed replays in a row, the crucibles' event logs,
combine targets, poisoned staged lines (owner, address / 128), since when a link is in RECOVER, the modules that have narrowed since they trained at 64
lanes, the last response a requester received, the attachments lost (by their lower module), and the weights of the layout in use for each group of
modules and direction (R474; key 2 × lowest module + direction). -/
structure FabState where
  track : List TrackEntry
  fences : List Target
  links : List (Nat × LinkDir)
  crcTimes : List (Nat × List Nat)
  replayFails : List (Nat × Nat)
  logs : List (Nat × EvLog)
  comb : List CombTarget
  badStaged : List (Nat × Nat)
  since : List (Nat × Nat)
  narrowed : List Nat
  lastResp : Option Response
  lostAttach : List Nat
  layout : List (Nat × List Nat)
  deriving DecidableEq, Repr

/-! ## Lehr A (R405-R455) -/

/-- A signature message that never counts: its command, program and kind, and why (0x0602 a bad CRC, 0x0603 no room; R417, R420). -/
structure LostSig where
  key : Nat
  prog : Nat
  kind : RunKind
  code : Nat
  deriving DecidableEq, Repr

/-- How a member of a frame set stands. -/
inductive MemberSt where
  | live
  | committed
  | failed
  deriving DecidableEq, Repr

/-- A command of a frame set (R422): its key, its number of programs, how it stands, the programs whose comparisons agreed, and the command
as it last was, from which a tie-break run is made (R429). -/
structure Member where
  key : Nat
  nprog : Nat
  st : MemberSt
  agreed : List Nat
  cmd : Cmd
  deriving DecidableEq, Repr

/-- Lehr B's verdict (R435). -/
inductive Verdict where
  | pass
  | fail
  | unchecked
  deriving DecidableEq, Repr

/-- What Lehr A selects (R424). -/
inductive SelSource where
  | main
  | fallback
  | none
  deriving DecidableEq, Repr

/-- A selection made: its source and detail (R426), the plan's address, and the frame the record names. -/
structure Selection where
  source : SelSource
  detail : Nat
  addr : Nat
  frame : Nat
  deriving DecidableEq, Repr

/-- Lehr A's view of one frame (R422-R424): its frame set, the members the plan command's commit requires with the plan's address, Lehr B's
verdict, what refuses the main output, and the selection. -/
structure FrameSel where
  frame : Nat
  members : List Member
  plan : Option (List Nat × Nat)
  verdict : Option Verdict
  refused : Bool
  wdviol : Bool
  cmdFail : Bool
  debug : Bool
  sel : Option Selection
  deriving DecidableEq, Repr

/-- A disagreement that waits for its tie-break run (R428, R429): the signatures of the two runs in ordinal order. -/
structure TiePending where
  key : Nat
  prog : Nat
  frame : Nat
  main : Nat
  reblow : Nat
  mainSigs : List (Nat × Nat)
  reblowSigs : List (Nat × Nat)
  deriving DecidableEq, Repr

/-- A frame on a vehicle-network port (R440, R452): the sender (0 Lehr A, 1 Lehr B), whether the identifier has 29 bits, not 11, the codes of the
arbitration and data rates, the identifier and the data. -/
structure CanMsg where
  lehr : Nat
  xtd : Bool
  nbr : Bool
  dbr : Nat
  id : Nat
  bytes : List Byte
  deriving DecidableEq, Repr

/-- Lehr A's state beside the LEHRA registers: charged frames by core, the event log, signatures and reports held, messages lost, its view of
the latest 64 frames, disagreements awaiting a tie-break, the stages kicked and violated in the frame, the failures of the comparator test in
a row, the dies declared silent, the last Gaffer heartbeat, the frame whose split coverage was counted, the frames and cores already charged
(R428), and whether device time was lost (R449). -/
structure LehrAState where
  charges : List (Nat × List Nat)
  log : EvLog
  sigs : List SigMsg
  reports : List RunReport
  lost : List LostSig
  frames : List FrameSel
  ties : List TiePending
  kicked : List Nat
  violated : List Nat
  cmpFails : Nat
  silent : List Block
  gafhb : Nat
  splitFrame : Option Nat
  chargedIn : List (Nat × Nat)
  alone : Bool
  deriving DecidableEq, Repr

/-! ## Lehr B (R432-R440) -/

/-- An obstacle of the envelope check (R433, R435): FP32 position, velocity and standard deviation. -/
structure Obstacle where
  x : Nat
  y : Nat
  vx : Nat
  vy : Nat
  sd : Nat
  deriving DecidableEq, Repr

/-- An accepted fallback block (R432): its frame, TVAL, and its records' ages and obstacles. -/
structure FbBlock where
  frame : Nat
  tval : Nat
  recs : List (Nat × Obstacle)
  deriving DecidableEq, Repr

/-- A completed fallback plan (R438): its frame, its record, FBBLOCKED, and whether it could not be written to DRAM. -/
structure FbPlan where
  frame : Nat
  bytes : List Byte
  blocked : Bool
  vnet : Bool
  deriving DecidableEq, Repr

/-- A usable pose entry (R264): its count, time, position in units of 2^-20 m, FP32 quaternion, and DISC. -/
structure Pose where
  n : Nat
  time : Nat
  px : Int
  py : Int
  pz : Int
  qw : Nat
  qx : Nat
  qy : Nat
  qz : Nat
  disc : Bool
  deriving DecidableEq, Repr

/-- Lehr B's state beside the LEHRB registers: the two buffers of the fallback receive window, the accepted block, the direct radar points with
their times, the calibration block and elevation table of each port, the check in progress (frame and plan address), the period whose plan is being
computed, the last two plans, the last main plan selected, the time and frame it took over with while Lehr A is lost (from Lehr A's return on those of
that return), whether Lehr A runs, the Lehr dies that a lockstep mismatch has stopped, the codes and frames of events not yet copied to Lehr A, and the
periods whose plan is computed or in progress. -/
structure LehrBState where
  window : List (Nat × List Byte)
  block : Option FbBlock
  radar : List (Nat × Obstacle)
  radcal : List (Nat × List Byte)
  check : Option (Nat × Nat)
  planFor : Option Nat
  plans : List FbPlan
  mainPlan : Option (Nat × List Byte)
  handover : Option (Nat × Nat)
  lehrARuns : Bool
  stoppedA : Bool
  stoppedB : Bool
  lostNotes : List (Nat × Nat)
  ringPoses : List Pose
  planned : List Nat
  deriving DecidableEq, Repr

/-! ## Bandwidth regulation (R503-R519) -/

/-- The regulators' counts of the window, keyed 32 k + m, and the budgets in force where they differ from their register's
reset value, keyed by register offset. -/
structure RegulState where
  counts : List (Nat × Nat)
  inForce : List (Nat × Word)
  deriving DecidableEq, Repr

/-! ## Memory (R520-R550) -/

/-- What a line's TAG holds (R525). -/
inductive LineTag where
  | valid
  | lost
  | poisoned
  deriving DecidableEq, Repr

/-- The metadata of a 128-byte line (R525). -/
structure LineMark where
  tag : LineTag
  epoch : Nat
  deriving DecidableEq, Repr

/-- A staging flip to a frozen channel, held until the channel returns (R533): the line, its bytes where staged, and whether it is written back as
poisoned (R484). -/
structure HeldFlip where
  line : Nat
  bytes : List (Option Byte)
  poisoned : Bool
  deriving DecidableEq, Repr

/-- Memory beside the MEMC and DEV 0x4000 registers. `memHeld` lists what thermal trips keep crucibles in reset by: a stack's site, or 16 + k for the
sensors of crucible k itself (R628, R629), and `parkLines` the lines written while memory is parked (R541). Channel h's local address loc has the key h × 2^31 + loc; its line
has the key of the address divided by 128; segment k of channel h has the key 8 h + k. -/
structure MemState where
  bytes : List (Nat × Byte)
  marks : List (Nat × LineMark)
  segBase : List (Nat × LineMark)
  advances : List (Nat × Nat)
  held : List HeldFlip
  mapA : List (Nat × Word)
  mapM : List (Nat × Word)
  refForce : Word
  hotForce : Bool
  stallUntil : Option Nat
  entered : List (Nat × Nat)
  delays : List (Nat × Nat)
  parking : Bool
  maskForce : Nat
  siteTemps : List (Nat × Nat)
  memHeld : List Nat
  parkLines : List Nat
  logs : List (Nat × EvLog)
  staged : List (Nat × List (Nat × Byte))
  spilled : List (Nat × List Nat)
  deriving DecidableEq, Repr

/-! ## Frame timer (R36-R42) -/

/-- The frame timer beside its registers: the next boundary when one remains to occur, the pending values, the time of the latest boundary, and the times
of those before it from which an S-class window may still last (R399). -/
structure FrameTimer where
  nextBoundary : Option Nat
  pendPeriod : Option Nat
  pendPhase : Option Nat
  latest : Option Nat
  past : List Nat
  deriving DecidableEq, Repr

/-! ## Reset (R551-R571) -/

/-- A reset domain in progress (R551): its KIND, INDEX and SOURCE, the device time its bound runs from, whether a thermal
hold keeps it (R556), whether the request came through RESET_REQ, when its hold began, and the domains in progress that it took over (R554). -/
structure DomainReset where
  kind : Nat
  index : Nat
  source : Nat
  since : Nat
  hold : Bool
  requested : Bool
  heldAt : Nat
  inside : List (Nat × Nat)
  deriving DecidableEq, Repr

/-- The state of a block that a reset takes down (R557); a block in none of these is in RUN. -/
inductive BlockPhase where
  | idlereq
  | fenced
  | reset
  | release
  deriving DecidableEq, Repr

/-- A block in reset: its state, and whether the ingress crucible holds no entry of it any more (R558 point 3). -/
structure BlockReset where
  blk : Block
  phase : BlockPhase
  drained : Bool
  deriving DecidableEq, Repr

/-- The option-byte reader's state (R570). -/
inductive ReaderSt where
  | off
  | readA
  | readB
  | select
  | readLog
  | apply
  | done
  | failed
  deriving DecidableEq, Repr

/-- Reset state beside the RESET registers; `linkCap` is the link that trains once it may (PCIE_LINKSTAT's RATE, WIDTH and FLIT), `flashSize` the
capacity of the flash. -/
structure ResetState where
  domains : List DomainReset
  blocks : List BlockReset
  warmFails : Nat
  linkUp : Bool
  perstn : Bool
  linkCap : Nat
  reader : ReaderSt
  retryPause : Bool
  blockA : Option (List Byte)
  blockB : Option (List Byte)
  flash : List (Nat × Byte)
  flashSize : Nat
  logNext : Nat
  repairMap : List (Nat × List Nat)
  unlogged : List (Nat × Nat)
  log : EvLog
  deriving DecidableEq, Repr

/-! ## Configuration (R575-R598) -/

/-- One entry of a change block, a batch or a frit (R581, R585). -/
structure CfgEntry where
  off : Nat
  width : Nat
  value : Nat
  deriving DecidableEq, Repr

/-- The proposal Lehr A holds (R582): its own copy of the entries, the block's CRC, the generation and the token. -/
structure Proposal where
  entries : List CfgEntry
  crc : Nat
  cgen : Nat
  token : Nat
  deriving DecidableEq, Repr

/-- A rule of the safety manifest (R584). -/
structure ManifestRule where
  kind : Nat
  crucMask : Nat
  index : Nat
  offset : Nat
  fmask : Nat
  lo : Nat
  hi : Nat
  deriving DecidableEq, Repr

/-- A firmware image in use (R589-R591): its slot and security version. -/
structure ImageInUse where
  slot : Nat
  svn : Nat
  deriving DecidableEq, Repr

/-- The debug challenge that awaits its response (R595). -/
structure Challenge where
  bytes : List Byte
  scope : Nat
  issued : Nat
  deriving DecidableEq, Repr

/-- A load of a frit's list (R587): the frit, the list's address, and the outcome of its lines' codes. -/
structure FritLoad where
  frit : Nat
  addr : Nat
  ecc : MemEcc
  deriving DecidableEq, Repr

/-- Configuration state beside the DEV 0x5000 registers: Lehr A's copy of the last committed region table, the stored proposal, the manifest's rules,
the stored batch and frits, the registers that the active configuration set at the last switch, the frit a switch in progress goes to and the loads of frits that wait for its end (R588), the images
in use, the Gaffer image retained in the host die's memory with the hash Lehr A recorded (R591), the fuses, and the challenge. -/
structure ConfigState where
  rgnCopy : List (Nat × Word)
  proposal : Option Proposal
  manifest : Option (List ManifestRule)
  batch : Option (List CfgEntry)
  frits : List (Nat × List CfgEntry)
  applied : List CfgEntry
  switching : Option (Option Nat)
  waitingLoads : List FritLoad
  images : List (Nat × ImageInUse)
  gafferImage : List Byte
  gafferHash : List Byte
  arbFuses : List (Nat × Nat)
  dbgDisFuse : Bool
  challenge : Option Challenge
  log : EvLog
  deriving DecidableEq, Repr

/-! ## Power and heat (R618-R644) -/

/-- Power and thermal state beside the THERM registers. -/
structure ThermState where
  samples : List Nat
  energy : Nat
  lastOver : Option Nat
  streakOut : List (Nat × Nat)
  streakDev : List (Nat × Nat)
  coolantAt : Option Nat
  memThrottled : List Nat
  ageGood : List Nat
  slices : List Nat
  sliceEnds : List (Nat × Nat)
  log : EvLog
  deriving DecidableEq, Repr

/-! ## Balls and rails (R645-R660) -/

/-- The state a group of balls is in (R660). -/
inductive PinState where
  | off
  | held
  | released
  | ready
  deriving DecidableEq, Repr

/-- Levels and rails the device senses or drives. -/
structure PinsState where
  mainRails : Bool
  lehrARails : Bool
  lehrBRails : Bool
  powerGood : Bool
  sysRstn : Bool
  flt00 : Bool
  flt01 : Bool
  mainPins : PinState
  lehrAPins : PinState
  lehrBPins : PinState
  jtag : JtagIr
  deriving DecidableEq, Repr

/-! ## Blowpipe (R599-R617) -/

/-- A line of a delivery (R607): its address, its staged bytes with their mask and, in MODE 1, the extension's tile state with the block it is a part of
(base and rows; rows 0 for a line of MODE 0). The addresses count from SRCBASE while the delivery waits, and are the destination's in a packet. -/
structure BpLine where
  addr : Nat
  bytes : List (Option Byte)
  tile : List Byte
  base : Nat
  rows : Nat
  deriving DecidableEq, Repr

/-- A delivery of an outbound channel (R606, R607): its generation, class and lines, the time of its first BEGIN, whether a WAIT holds it, the time of its
END, and the channel's DEST and INCH when it formed. -/
structure BpOut where
  chan : Nat
  gen : Nat
  cls : Nat
  lines : List BpLine
  begun : Option Nat
  held : Bool
  ended : Option Nat
  dest : Nat
  inch : Nat
  deriving DecidableEq, Repr

/-- A delivery that an inbound channel collects (R608): its source, when its BEGIN came, the address and CRC field of each DATA packet, COUNT and CRC of
its END once that has come (R611: over several ports it may come first), and whether it has arrived in full. -/
structure BpIn where
  src : Nat
  began : Option Nat
  data : List (Nat × Nat)
  fin : Option (Nat × Nat)
  done : Bool
  deriving DecidableEq, Repr

/-- A Blowpipe packet the device sent (R601): the port it left by (6: none, to the device itself), the envelope, its class, which is none for an answer
(the spec gives it none), and for DATA the address, the extension and the masked bytes. -/
structure BpMsg where
  port : Nat
  kind : Nat
  src : Nat
  dst : Nat
  chan : Nat
  gen : Nat
  count : Nat
  crc : Nat
  cls : Option Nat
  line : Option BpLine
  deriving DecidableEq, Repr

/-- A port's flits (R600): the next FSEQ to send, the flits that no ACKSEQ covers yet with the packet each carries, the next FSEQ to receive, the running
totals of freed words per class, and the time since which the sender waits for an acknowledgement. -/
structure BpPort where
  next : Nat
  unacked : List (Nat × BpMsg)
  expect : Nat
  freed : List (Nat × Nat)
  wait : Nat
  deriving DecidableEq, Repr

/-- A port before its first flit. -/
def BpPort.zero : BpPort := ⟨0, [], 0, [], 0⟩

/-- Blowpipe beside its registers: deliveries formed, the last generation of each outbound channel, what each inbound channel collects, the
generations it makes wait with the time of their first BEGIN (channel, generation, time), the packets sent, each port's flits, the times of its replays,
and the event log. -/
structure BlowState where
  out : List BpOut
  lastGen : List (Nat × Nat)
  inb : List (Nat × List BpIn)
  waits : List (Nat × Nat × Nat)
  sent : List BpMsg
  ports : List (Nat × BpPort)
  replays : List (Nat × List Nat)
  log : EvLog
  deriving DecidableEq, Repr

/-! ## Marver (R244-R322) -/

/-- An alignment servo beside SSTAT and SCFG (R257-R260): OFF in units of 2^-16 ns, RATE in units of 2^-40, S_REF, whether the next sample
initialises, the count of ACQUIRE, consecutive rejections, OFF at the last entry to LOCKED, the time of the last accepted sample, the last
extended tick value, the samples since the last one used, and whether the period had an accepted or a rejected sample. -/
structure Servo where
  off : Int
  rate : Int
  sref : Nat
  init : Bool
  count : Nat
  rejects : Nat
  lockOff : Int
  accTime : Nat
  ticks : Option Nat
  div : Nat
  sawAcc : Bool
  sawRej : Bool
  deriving DecidableEq, Repr

/-- A servo that has been disabled. -/
def Servo.zero : Servo := ⟨0, 0, 0, true, 0, 0, 0, 0, none, 0, false, false⟩

/-- A slot that Marver writes (R251): the fields of its header, its index in the ring, and whether it is complete. -/
structure MSlot where
  index : Nat
  frame : Nat
  tval : Nat
  tin : Nat
  src : Nat
  bytes : Nat
  count : Nat
  flags : Nat
  dropped : Nat
  p2p : Nat
  done : Bool
  deriving DecidableEq, Repr

/-- A decoded point in its sensor's frame (R268, R269): FP32 coordinates, FP32 radial velocity, intensity, validity time, and the flags of R271
known at its arrival. -/
structure MPoint where
  x : Nat
  y : Nat
  z : Nat
  vr : Nat
  inten : Nat
  tp : Nat
  flags : Nat
  deriving DecidableEq, Repr

/-- A stream's data beside its registers: servo, images begun, the image being received with its source time, the complete images, the slots of
the latest periods, the points held by period, RAW packets of the next period (period, stamp, servo flags, bytes), the newest validity time received, the
calibration block in force and its elevation table; whether a packet was lost outside an image (R245), whether the image has brought its first
embedded-data line (R254), and the images held for the next period (R263). -/
structure MStream where
  servo : Servo
  seq : Nat
  image : Option MSlot
  source : Option Nat
  images : List MSlot
  slots : List MSlot
  points : List (Nat × List MPoint)
  early : List (Nat × Nat × Nat × List Byte)
  newest : Option Nat
  calib : List Byte
  elev : List Byte
  lost : Bool
  embed : Bool
  held : List MSlot
  deriving DecidableEq, Repr

/-- A stream after a reset of the sensor die. -/
def MStream.zero : MStream := ⟨Servo.zero, 0, none, none, [], [], [], [], none, [], [], false, false, []⟩

/-- A point of an aligned set (R271): stream, FP32 vehicle-frame coordinates and radial velocity, intensity, flags, DT in ns, and its index. -/
structure APoint where
  stream : Nat
  x : Nat
  y : Nat
  z : Nat
  vr : Nat
  inten : Nat
  flags : Nat
  dt : Int
  index : Nat
  deriving DecidableEq, Repr

/-- A frame period (R263, R278, R282, R290, R315): its number and start, the boundary that ends it, its mode, whether it is closed, the poses usable
at its close, the streams HEALTHY and SUSPECT then (bit s), its aligned points, whether its projection has ended and when, what cut it short, the 16 bytes
of each touched cell of its grid inputs, its grid and the counts of the scatters waiting for it, the learned features (key 64 x cell + feature), and its
main run: NDET of an accepted TRKGO, whether it has started, and which once-a-period events were logged; whether the period before it was not NORMAL. -/
structure MPeriod where
  frame : Nat
  start : Nat
  ref : Option Nat
  mode : Nat
  closed : Bool
  poses : List Pose
  healthy : Nat
  suspect : Nat
  aligned : List APoint
  projected : Option Nat
  incomplete : Bool
  cells : List (Nat × List Byte)
  gridDone : Bool
  scatters : List Nat
  features : List (Nat × Nat)
  ndet : Option Nat
  mainStarted : Bool
  logged : List Nat
  first : Bool
  deriving DecidableEq, Repr

/-- The states of a track (R302). -/
inductive TrackSt where
  | tentative
  | confirmed
  | coasted
  deriving DecidableEq, Repr

/-- A track (R296, R302-R304, R308-R312): slot and identity, state, hit history and consecutive misses, the state vector and the covariance row by
row, its time, whether a value left its width, what it owes its latest detection (length, width, height, yaw, class, score), the conflict fields, the
runs since a linked pair last conflicted, the sibling and output flags, the frame of the latest hit, the oldest validity time and the sources of the
latest update, for each stream the consecutive hits without its measurement, and the streams of its existence conflicts (R309). -/
structure Track where
  slot : Nat
  id : Nat
  st : TrackSt
  hits : Nat
  misses : Nat
  xs : List Int
  p : List Int
  tt : Nat
  sat : Bool
  det : List Nat
  ckind : Nat
  cstream : Nat
  cpeer : Nat
  calm : Nat
  sibling : Bool
  isNew : Bool
  updated : Bool
  lastUpd : Nat
  oldest : Nat
  sources : Nat
  without : List (Nat × Nat)
  exist : List Nat
  deriving DecidableEq, Repr

/-- A tracker run in progress (R315, R318): its period, the registers latched at its start, and NDET of its trigger (none: no detections). -/
structure TrackRun where
  frame : Nat
  cfg : List (Nat × Word)
  ndet : Option Nat
  deriving DecidableEq, Repr

/-- gPTP (R255, R256): the servo, mean link delay in units of 2^-16 ns, the two-step Sync that waits (sequence, stamp, correction), the Pdelay
request that waits (sequence, time), when HOLDOVER began, the requested rate, the device time of the last increment, the neighbour rate ratio, when the last
Pdelay request was sent, when the last sample came, how many Sync intervals since then are counted as missed, and what the rate has added up to (in 2^-40 ns)
by a device time. -/
structure Gptp where
  servo : Servo
  delay : Int
  sync : Option (Nat × Nat × Int)
  pdelay : Option (Nat × Nat)
  holdAt : Nat
  rho : Int
  adjusted : Nat
  ratio : Int
  pdelayAt : Option Nat
  sampleAt : Nat
  missed : Nat
  phase : Int
  since : Nat
  deriving DecidableEq, Repr

/-- Marver beside its registers: streams, camera ports in training (gear less, failures in a row), the latest periods, poses, the period being projected,
the runs in progress, the tracks of both trackers, the identity counter, the last completed main run, the pending mode, plausibility (periods since the last evaluation, passes in a row by stream), gPTP, and the event log. -/
structure MarverState where
  streams : List (Nat × MStream)
  cams : List (Nat × (Nat × Nat))
  periods : List MPeriod
  poses : List Pose
  projecting : Option Nat
  mainRun : Option TrackRun
  fbRun : Option TrackRun
  tracks : List Track
  nextId : Nat
  lastMain : Option Nat
  modePend : Option Nat
  plPeriods : Nat
  plPasses : List (Nat × Nat)
  gp : Gptp
  log : EvLog
  deriving DecidableEq, Repr

/-- Marver after a reset of the sensor die (R281, R321). -/
def MarverState.reset : MarverState :=
  ⟨[], [], [], [], none, none, none, [], 1, none, none, 0, [], ⟨Servo.zero, 0, none, none, 0, 0, 0, 0, none, 0, 0, 0, 0⟩, ⟨[], false⟩⟩

/-! ## The machine -/

/-- The whole machine. `cache` holds the tags of the system caches (R482): a way has the key (24 × crucible + way) × 32,768 + set and holds its line's
device address / 128, plus 1. -/
structure State where
  pending : List Instr
  now : Nat
  fresh : Nat
  readData : Word
  regs : List (Nat × Word)
  cores : List (Nat × Core)
  mem : MemState
  cache : List (Nat × Nat)
  regul : RegulState
  lehrA : LehrAState
  lehrB : LehrBState
  canOut : List CanMsg
  frame : FrameTimer
  rst : ResetState
  cfg : ConfigState
  therm : ThermState
  pins : PinsState
  faultRecord : List FaultNote
  fab : FabState
  sigOut : List SigMsg
  cullet : List (Nat × Cullet)
  bench : Bench
  blow : BlowState
  marver : MarverState
  deriving DecidableEq, Repr

/-- An empty event log. -/
def EvLog.empty : EvLog := ⟨[], false⟩

/-- The machine right after a device cold reset has set every register to its reset value. -/
def State.reset : State where
  pending := []
  now := 0
  fresh := 0
  readData := 0#64
  regs := []
  cores := []
  mem := ⟨[], [], [], [], [], [], [], 0x00F011C6#64, false, none, [], [], false, 0, [], [], [], [], [], []⟩
  cache := []
  regul := ⟨[], []⟩
  lehrA := ⟨[], .empty, [], [], [], [], [], [], [], 0, [], 0, none, [], false⟩
  lehrB := ⟨[], none, [], [], none, none, [], none, none, true, false, false, [], [], []⟩
  canOut := []
  frame := ⟨none, none, none, none, []⟩
  rst := ⟨[], [], 0, false, false, 0, .off, false, none, none, [], 0x1000000, 0, [], [], .empty⟩
  cfg := ⟨[], none, none, none, [], [], none, [], [], [], [], [], false, none, .empty⟩
  therm := ⟨[], 0, none, [], [], none, [], [], [], [], .empty⟩
  pins := ⟨true, true, true, true, true, false, false, .held, .held, .held, .idcode⟩
  faultRecord := []
  fab := ⟨[], [], [], [], [], [], [], [], [], [], none, [], []⟩
  sigOut := []
  cullet := []
  bench := ⟨[], 0, [], [], [], [], [], [], [], [], [], [], [], [], []⟩
  blow := ⟨[], [], [], [], [], [], [], .empty⟩
  marver := .reset

end Sys2Proof.Machine
end

