-- ==== Sys2Proof/Machine/Ops.lean ====
section
/-! DEFINITION. The named operations over the register file, the event logs and device time that every meaning uses. -/

namespace Sys2Proof.Machine

/-- The outcome of every command that this model gives its effect to. -/
abbrev Out := Host.Outcome State Fault Refusal

/-- A register's value. -/
def State.reg (s : State) (off : Nat) : Word := sget (regReset off) s.regs off

/-- A register replaced. -/
def State.setReg (s : State) (off : Nat) (v : Word) : State := { s with regs := sput (regReset off) s.regs off v }

/-- A field of a register. -/
def State.regFld (s : State) (off lo n : Nat) : Nat := fld (s.reg off) lo n

/-- One bit of a register. -/
def State.regBit (s : State) (off i : Nat) : Bool := bitAt (s.reg off) i

/-- A field of a register replaced. -/
def State.setRegFld (s : State) (off lo n v : Nat) : State := s.setReg off (setFld (s.reg off) lo n v)

/-- One bit of a register set or cleared. -/
def State.setRegBit (s : State) (off i : Nat) (b : Bool) : State := s.setReg off (setBit (s.reg off) i b)

/-- A 64-bit counter raised (R26: it does not wrap in service; it wraps at 2^64 here). -/
def State.bump (s : State) (off k : Nat) : State := s.setReg off (s.reg off + BitVec.ofNat 64 k)

/-- A saturating counter field raised by one. -/
def State.bumpSat (s : State) (off lo n : Nat) : State := s.setReg off (satFld (s.reg off) lo n 1)

/-- A register set back to its reset value. -/
def State.resetReg (s : State) (off : Nat) : State := { s with regs := sdel s.regs off }

/-- Every register of a range of offsets set back to its reset value. -/
def State.resetRegs (s : State) (lo hi : Nat) : State :=
  { s with regs := sclear (fun o => decide (lo ≤ o) && decide (o < hi)) s.regs }

/-- Every register of a range set back to its reset value but those a test keeps. -/
def State.resetRegsBut (s : State) (lo hi : Nat) (keep : Nat → Bool) : State :=
  { s with regs := sclear (fun o => decide (lo ≤ o) && decide (o < hi) && !keep o) s.regs }

/-- Device time moved on to an event's time; it never runs backwards (R36). -/
def State.at (s : State) (t : Nat) : State := { s with now := max s.now t }

/-- DEV_FRMCNT, the number of the current frame (R42). -/
def State.frmcnt (s : State) : Nat := s.regFld Reg.devFrmcnt 0 32

/-- Partition 0 and Gaffer firmware, who alone write the management registers (R575, R596, R664 and others). -/
def mgmt (who : Ident) : Bool := decide (who.val = 0) || decide (who.val = 16)

/-- A fresh number for a free value: the model's own counter moves on. -/
def State.nextFresh (s : State) : State := { s with fresh := s.fresh + 1 }

/-! ## Event logs -/

/-- An entry added to an event log of `cap` entries; a full log discards it and remembers that it did. `discBit` is the
register bit that reports discarded events, where the log has one. -/
def EvLog.push (l : EvLog) (cap : Nat) (discBit : Option Nat) (w : Word) (addr : Nat) : EvLog :=
  if cap ≤ l.entries.length then { l with disc := true }
  else
    let w' := setBit w 31 true
    let w'' := match discBit with
      | some b => if l.disc then setBit w' b true else w'
      | none => w'
    ⟨l.entries ++ [⟨w'', addr⟩], false⟩

/-- Whether a push to the log would be discarded. -/
def EvLog.full (l : EvLog) (cap : Nat) : Bool := decide (cap ≤ l.entries.length)

/-- The word a read of the log register returns: the oldest entry, or zero (VALID = 0) when the log is empty. -/
def EvLog.head (l : EvLog) : Word :=
  match l.entries with
  | [] => 0#64
  | e :: _ => e.word

/-- The address beside the oldest entry. -/
def EvLog.headAddr (l : EvLog) : Nat :=
  match l.entries with
  | [] => 0
  | e :: _ => e.addr

/-- The log after a read has removed its oldest entry. -/
def EvLog.pop (l : EvLog) : EvLog := { l with entries := l.entries.tail }

/-- An event word: the code in [15:0], a unit field at bit 16 and the frame in [63:32]. -/
def evWord (code unit unitBits frame : Nat) : Word :=
  setFld (setFld (setFld 0#64 0 16 code) 16 unitBits unit) 32 32 frame

/-- An event recorded by Lehr A. -/
def State.raise (s : State) (code unit : Nat) : State :=
  { s with faultRecord := s.faultRecord ++ [⟨code, unit, s.frmcnt⟩] }

/-- Class 0x09 codes marked "Lehr A" in R574 and R598. -/
def code09Raised (c : Nat) : Bool :=
  [0x0901, 0x0902, 0x0903, 0x0904, 0x0906, 0x0908, 0x090C, 0x090D, 0x0952, 0x0954].contains c

/-- An event logged in RESET_EVLOG (R573, R574). -/
def State.logReset (s : State) (code kind index : Nat) : State :=
  let w := setFld (setFld (evWord code 0 1 s.frmcnt) 16 4 kind) 20 8 index
  let s' := { s with rst := { s.rst with log := s.rst.log.push 64 (some 30) w 0 } }
  if code09Raised code then s'.raise code index else s'

/-- An event logged in DEV_CFGEVLOG (R597, R598). -/
def State.logCfg (s : State) (code : Nat) : State :=
  let s' := { s with cfg := { s.cfg with log := s.cfg.log.push 64 none (evWord code 0 1 s.frmcnt) 0 } }
  if code09Raised code then s'.raise code 0xFF else s'

/-- Class 0x0A codes marked "Lehr A" in R644. -/
def code0ARaised (c : Nat) : Bool :=
  [0x0A02, 0x0A04, 0x0A05, 0x0A06, 0x0A09, 0x0A0B, 0x0A0C, 0x0A0D].contains c

/-- An event logged in THERM_EVLOG (R643, R644); a full log sets THERM_STAT.EVOVF. -/
def State.logTherm (s : State) (code unit : Nat) : State :=
  let full := s.therm.log.full 64
  let s' := { s with therm := { s.therm with log := s.therm.log.push 64 (some 30) (evWord code unit 8 s.frmcnt) 0 } }
  let s'' := if full then s'.setRegBit Reg.thermStat 4 true else s'
  if code0ARaised code then s''.raise code unit else s''

end Sys2Proof.Machine
end

