-- ==== Sys2Proof/Machine/Regulation.lean ====
section
/-! DEFINITION. Bandwidth regulation (R503-R519): levels, windows, the admission of minimums, and the capacity R530 computes. -/

namespace Sys2Proof.Machine

/-- DEV_REGCTL.WIN in microseconds (R519). -/
def State.win (s : State) : Nat := s.regFld Reg.devRegctl 0 7

/-- The budget register of master m at crucible k in force (R508). -/
def State.budForce (s : State) (k m : Nat) : Word :=
  sget (regReset (Reg.devRegbud k m)) s.regul.inForce (Reg.devRegbud k m)

/-- DEV_REGBUDk_m.MIN of a register value. -/
def minField (w : Word) : Nat := fld w 32 20

/-- DEV_REGBUDk_m.BUDGET of a register value. -/
def budField (w : Word) : Nat := fld w 0 20

/-- The sum of the minimums at crucible k, pending values used (R510). -/
def minSum (s : State) (k : Nat) : Nat :=
  (List.range 21).foldl (fun a m => a + minField (s.reg (Reg.devRegbud k m))) 0

/-- R510: the minimums are admitted while 5 × sum ≤ 4 × REGCAPk. -/
def admitted (sum cap : Nat) : Bool := decide (5 * sum ≤ 4 * cap)

/-- DEV_REGCAPk (R519). -/
def State.regcap (s : State) (k : Nat) : Nat := s.regFld (Reg.devRegcap k) 0 20

/-- The channels of crucible k that are not RETIRED (R530). -/
def liveChannels (s : State) (k : Nat) : Nat :=
  ((List.range 16).filter (fun i =>
    let h := 16 * k + i
    decide (s.regFld (Reg.memcChstat (h / 4) (h % 4)) 0 3 ≠ 5))).length

/-- R530's formula for a window, a refresh register value and a number of channels; 34.125 = 273 / 8. -/
def capFormula (win : Nat) (memref : Word) (a : Nat) : Nat :=
  let h := fld memref 0 13 / 2
  let stall := fld memref 16 9 + 35
  win * 1000 * 273 * a * (h - stall) / (8 * 128 * h)

/-- R511: OVERCOMMIT bit k set when the rule no longer holds at crucible k. -/
def checkOvercommit (s : State) (k : Nat) : State :=
  if admitted (minSum s k) (s.regcap k) then s else s.setRegBit Reg.devRegstat (4 + k) true

/-- R509, R530: DEV_REGCAPk recomputed at every crucible. -/
def recomputeCaps (s : State) : State :=
  (List.range 4).foldl (fun s k =>
    checkOvercommit (s.setRegFld (Reg.devRegcap k) 0 20 (capFormula s.win s.mem.refForce (liveChannels s k))) k) s

/-- R511: the minimum a master keeps: while the crucible is overcommitted, masters in ascending order keep theirs for as long as
the running sum meets the rule. -/
def minOf (s : State) (k m : Nat) : Nat :=
  let v := minField (s.budForce k m)
  if s.regBit Reg.devRegstat (4 + k) then
    let run := (List.range (m + 1)).foldl (fun a i => a + minField (s.budForce k i)) 0
    if admitted run (s.regcap k) then v else 0
  else v

/-- A master's count in the window (R506). -/
def State.regCount (s : State) (k m : Nat) : Nat := sget 0 s.regul.counts (32 * k + m)

/-- R506: the level of a request of `len` bytes: 0 guaranteed, 1 shared, 2 surplus. -/
def levelOf (s : State) (k m len : Nat) : Nat :=
  let b := s.regCount k m
  let mn := minOf s k m
  if b + len ≤ mn * 128 then 0
  else if b + len ≤ max (budField (s.budForce k m)) mn * 128 then 1
  else 2

/-- R504, R506, R517: a request admitted at crucible k: counted in full, with the monitoring counters. -/
def admitRequest (s : State) (k m cls len : Nat) : State :=
  let lvl := levelOf s k m len
  let s1 := { s with regul := { s.regul with counts := sput 0 s.regul.counts (32 * k + m) (s.regCount k m + len) } }
  let s2 := s1.bump (Reg.devRegbyt k (min cls 2)) len
  if lvl = 2 then s2.bump (Reg.devRegsur k m) len else s2

/-- Every budget register of crucible k copied into force, and OVERCOMMIT cleared where the rule holds (R508, R511). -/
def windowAt (s : State) (k : Nat) : State :=
  let s1 := (List.range 21).foldl (fun s m =>
    let off := Reg.devRegbud k m
    { s with regul := { s.regul with inForce := sput (regReset off) s.regul.inForce off (s.reg off) } }) s
  if admitted (minSum s1 k) (s1.regcap k) then s1.setRegBit Reg.devRegstat (4 + k) false else s1

/-- REGULATION_WINDOW (R505, R508, R511): at a multiple of WIN microseconds every count returns to 0 and pending budgets take
effect. The promotion of R507 changes no count; which request waits is timing. -/
def execRegulationWindow (t : Nat) (s : State) : Out :=
  if t % (s.win * 1000) ≠ 0 then .next s
  else
    let s1 := s.at t
    .next ((List.range 4).foldl windowAt { s1 with regul := { s1.regul with counts := [] } })

/-- REGBUD_WRITE (R508, R510, R518): admission-checked, then pending until the next window boundary. -/
def execRegbudWrite (who : Ident) (k : Fin 4) (m : Fin 21) (v : BitVec 64) (s : State) : Out :=
  if !mgmt who then .next s
  else
    let w := setFld (setFld 0#64 0 20 (budField v)) 32 20 (minField v)
    let s1 := s.setReg (Reg.devRegbud k m) w
    if admitted (minSum s1 k) (s.regcap k) then .next (s1.setRegFld (Reg.devRegminsum k) 0 25 (minSum s1 k))
    else .next (s.setRegBit Reg.devRegstat 0 true)

/-- REGCTL_WRITE (R509, R510, R518): WIN outside 1-64, or one that breaks the rule at any crucible, has no effect. -/
def execRegctlWrite (who : Ident) (v : BitVec 32) (s : State) : Out :=
  if !mgmt who then .next s
  else
    let win := bitsOf v.toNat 0 7
    let ok := decide (1 ≤ win) && decide (win ≤ 64) &&
      (List.range 4).all (fun k => admitted (minSum s k) (capFormula win s.mem.refForce (liveChannels s k)))
    if ok then
      let w := setFld (setFld 0#64 0 7 win) 8 16 (bitsOf v.toNat 8 16)
      .next (recomputeCaps (s.setReg Reg.devRegctl w))
    else .next (s.setRegBit Reg.devRegstat 1 true)

end Sys2Proof.Machine
end

