-- ==== Sys2Proof/Machine/Sched.lean ====
section
/-! DEFINITION. The command scoreboard as data (R332-R335, R371-R375): the fields of an entry, looking commands up and changing
them, cancelling one, and the counts of live commands. -/

namespace Sys2Proof.Machine

/-! ## The fields of an entry (R332, R339) -/

/-- OPCODE. -/
def Cmd.op (c : Cmd) : Nat := leAt c.entry 0 1
/-- A bit of FLAGS. -/
def Cmd.flag (c : Cmd) (i : Nat) : Bool := decide (bitsOf (leAt c.entry 1 1) i 1 = 1)
/-- CLASS. -/
def Cmd.cls (c : Cmd) : Nat := bitsOf (leAt c.entry 2 1) 0 2
/-- The Marver event waited for. -/
def Cmd.event (c : Cmd) : Nat := bitsOf (leAt c.entry 3 1) 0 3
/-- EVLAG. -/
def Cmd.evlag (c : Cmd) : Nat := bitsOf (leAt c.entry 3 1) 3 1
/-- FRAMEB. -/
def Cmd.frameb (c : Cmd) : Bool := c.flag 3
/-- RUNAHEAD. -/
def Cmd.runahead (c : Cmd) : Bool := c.flag 4
/-- FRAME. -/
def Cmd.frame (c : Cmd) : Nat := leAt c.entry 8 4
/-- DEADLINE (R339). -/
def Cmd.deadline (c : Cmd) : Nat := leAt c.entry 20 4
/-- The frame whose event the command waits for (R336). -/
def Cmd.eventFrame (c : Cmd) : Nat := (c.frame + 2 ^ 32 - c.evlag) % 2 ^ 32
/-- LAYER of RUN_LAYER, REGISTER_LAYER and UNREGISTER_LAYER. -/
def Cmd.layer (c : Cmd) : Nat := leAt c.entry 16 2
/-- The command's key: its partition and sequence number. -/
def Cmd.key (c : Cmd) : Nat := c.part * 2 ^ 32 + c.seq
/-- An opcode that runs tile programs. -/
def runsPrograms (op : Nat) : Bool := decide (op = 0x10) || decide (op = 0x11)

/-! ## Looking up and changing -/

/-- A live command. -/
def State.cmd (s : State) (key : Nat) : Option Cmd := s.bench.cmds.find? (fun c => decide (c.key = key))

/-- A live command changed. -/
def mapCmd (s : State) (key : Nat) (f : Cmd → Cmd) : State :=
  { s with bench := { s.bench with cmds := s.bench.cmds.map (fun c => if c.key = key then f c else c) } }

/-- A command is speculative while a source of R393 is unresolved. -/
def Cmd.spec (c : Cmd) : Bool := c.srcFrame || c.srcDep || decide (c.srcKv ≠ [])

/-- The key of the command that waits for nothing: whether a command with a key is live. -/
def State.live (s : State) (key : Nat) : Bool := (s.cmd key).isSome

/-- The live commands of a ring (BOMUS_LIVEn). -/
def ringCmds (s : State) (n : Nat) : List Cmd := s.bench.cmds.filter (fun c => decide (c.ring = n))

/-- DEV_SBSTAT.LIVE, DEV_SBSTAT.CLOSING and BOMUS_LIVEn of a ring follow the scoreboard. -/
def syncLive (s : State) (ring : Nat) : State :=
  let s1 := s.setRegFld Reg.devSbstat 0 14 s.bench.cmds.length
  let s2 := s1.setRegBit Reg.devSbstat 14 (s.bench.cmds.any (fun c => decide (c.st = .cancelling)))
  s2.setRegFld (Reg.bomusLive ring) 0 14 (ringCmds s ring).length

/-- R373: a command goes to CANCELLING with a reason, unless it is there already or has passed its commit point (R381). What it had running
and staged is withdrawn by its closure (R395). -/
def markCancel (key reason : Nat) (s : State) : State :=
  let s1 := mapCmd s key (fun c => if c.st = .cancelling ∨ c.flipped = true then c else { c with st := .cancelling, reason := reason })
  s1.setRegBit Reg.devSbstat 14 (s1.bench.cmds.any (fun c => decide (c.st = .cancelling)))

/-- The program, kind and command of the run that is on a core. -/
def runOn (s : State) (core : Nat) : Option (Cmd × ProgRun) :=
  (s.bench.cmds.flatMap (fun c => (c.runs.filter (fun r => decide (r.st = .active core))).map (fun r => (c, r)))).head?

/-- R559, R404: Bench cancels every command that has a run on one of these cores. -/
def cancelRunsOn (cores : List Nat) (s : State) : State :=
  ((s.bench.cmds.filter (fun c => c.runs.any (fun r => match r.st with
    | .active k => cores.contains k
    | _ => false))).map Cmd.key).foldl (fun s k => markCancel k 0x0112 s) s

/-- A run of a command changed. -/
def mapRun (s : State) (key prog : Nat) (kind : RunKind) (f : ProgRun → ProgRun) : State :=
  mapCmd s key (fun c => { c with runs := c.runs.map (fun r => if r.prog = prog ∧ r.kind = kind then f r else r) })

end Sys2Proof.Machine
end

