-- ==== Sys2Proof/Machine/CoreOps.lean ====
section
/-! DEFINITION. Core states and the operations other parts of the device perform on a core: its state (R117), quarantine,
reset (R131), S-class eligibility (R414), and the charges Lehr A keeps against it (R428-R431). -/

namespace Sys2Proof.Machine

/-- The code CORE_STATE.STATE reports for a state (R117). -/
def CoreSt.code : CoreSt → Nat
  | .off => 0x0
  | .reset => 0x1
  | .repair => 0x2
  | .selftest => 0x3
  | .held => 0x4
  | .idle => 0x5
  | .run => 0x6
  | .kill => 0x7
  | .ckpt => 0x8
  | .halt => 0x9
  | .faulted => 0xA
  | .quarantine => 0xB
  | .disabled => 0xC
  | .reheat => 0xD

/-- The state with a code; codes 0xE and 0xF are never reported (R117). -/
def CoreSt.ofCode : Nat → CoreSt
  | 0x0 => .off
  | 0x2 => .repair
  | 0x3 => .selftest
  | 0x4 => .held
  | 0x5 => .idle
  | 0x6 => .run
  | 0x7 => .kill
  | 0x8 => .ckpt
  | 0x9 => .halt
  | 0xA => .faulted
  | 0xB => .quarantine
  | 0xC => .disabled
  | 0xD => .reheat
  | _ => .reset

/-- A core's state (CORE_STATE.STATE, R122). -/
def State.coreSt (s : State) (c : Nat) : CoreSt := CoreSt.ofCode (s.regFld (Reg.coreState c) 0 4)

/-- A core put into a state. -/
def State.setCoreSt (s : State) (c : Nat) (x : CoreSt) : State := s.setRegFld (Reg.coreState c) 0 4 x.code

/-- A core's memories and sequencer. -/
def State.core (s : State) (c : Nat) : Core := sget Core.reset s.cores c

/-- A core's memories and sequencer replaced. -/
def State.setCore (s : State) (c : Nat) (x : Core) : State := { s with cores := sput Core.reset s.cores c x }

/-- CORE_STATE.SCLASS. -/
def State.sclass (s : State) (c : Nat) : Bool := s.regBit (Reg.coreState c) 4

/-- CORE_STATE.SCLASS set or cleared. -/
def State.setSclass (s : State) (c : Nat) (b : Bool) : State := s.setRegBit (Reg.coreState c) 4 b

/-- The cores of a compute die (R15). -/
def coresOfDie (d : Nat) : List Nat := (List.range 8).map (8 * d + ·)

/-- The cores of a crucible (R15). -/
def coresOfCrucible (k : Nat) : List Nat := (List.range 24).map (24 * k + ·)

/-- Every core. -/
def allCores : List Nat := List.range 96

/-- The pair a core belongs to and its partner (R412): core 24k + l with core 24k + 8 + l; none on die 3k + 2. -/
def pairOf (c : Nat) : Option (Nat × Nat) :=
  let k := c / 24
  let r := c % 24
  if r < 8 then some (8 * k + r, c + 8) else if r < 16 then some (8 * k + r - 8, c - 8) else none

/-- Whether the option block put the core's pair into paired mode (R412, LEHRA_PAIRMASK). -/
def State.paired (s : State) (c : Nat) : Bool :=
  match pairOf c with
  | some (p, _) => s.regBit Reg.lehraPairmask p
  | none => false

/-- CORE_STATE.PAIRED and PARTNER follow the pairing mask (R122, R412). -/
def applyPairing (s : State) (c : Nat) : State :=
  match pairOf c with
  | some (p, q) =>
    if s.regBit Reg.lehraPairmask p then (s.setRegBit (Reg.coreState c) 5 true).setRegFld (Reg.coreState c) 8 7 q
    else (s.setRegBit (Reg.coreState c) 5 false).setRegFld (Reg.coreState c) 8 7 0x7F
  | none => s

/-- Events logged in LEHRA_EVLOG (R452, R455); a full log sets LEHRA_STAT.EVOVF. The frame is the one concerned. -/
def State.logLehrA (s : State) (code unit frame : Nat) : State :=
  let full := s.lehrA.log.full 256
  let s' := { s with lehrA := { s.lehrA with log := s.lehrA.log.push 256 none (evWord code unit 8 frame) 0 } }
  if full then s'.setRegBit Reg.lehraStat 12 true else s'

/-- An event that concerns no core or stage, found while Lehr A may be lost: it is logged now, or copied to Lehr A at its return (R455). -/
def State.noteLehrA (s : State) (code frame : Nat) : State :=
  if s.lehrB.lehrARuns then s.logLehrA code 0xFF frame
  else { s with lehrB := { s.lehrB with lostNotes := s.lehrB.lostNotes ++ [(code, frame)] } }

/-- The registers a core reset returns to their reset values (R131), CORE_COLMAP apart. -/
def resetCoreRegs (s : State) (c : Nat) : State :=
  s.resetRegsBut (Reg.coreId c) (Reg.coreId c + 0x10000) (fun o => decide (o = Reg.coreColmap c))

/-- R131: what Lehr A copies into its fault record before a core reset: CORE_SPECC, CORE_SPUNC, CORE_RESFAIL. DESIGN CHOICE: the record
takes three notes in that order, each with the raw count in place of a code. -/
def copyCoreCounts (s : State) (c : Nat) : State :=
  { s with faultRecord := s.faultRecord ++
      [⟨(s.reg (Reg.coreSpecc c)).toNat, c, s.frmcnt⟩, ⟨(s.reg (Reg.coreSpunc c)).toNat, c, s.frmcnt⟩,
       ⟨(s.reg (Reg.coreResfail c)).toNat, c, s.frmcnt⟩] }

/-- The columns Lehr A's copy of the repair map lists for a core (R569). -/
def State.failedCols (s : State) (c : Nat) : List Nat := sget [] s.rst.repairMap c

/-- CORE_COLMAP for a list of failed columns: the four lowest, 0xFF where fewer (R129, R569). -/
def colmapWord (cols : List Nat) : Word :=
  BitVec.ofNat 64 (leNat (((cols.take 4).map (fun v => BitVec.ofNat 8 v) ++ List.replicate 4 0xFF#8).take 4))

/-- R385, R120: a core in RUN or CKPT takes the device time that has passed into CORE_BUSYNS and its run's engine time. -/
def accrue (s : State) (c : Nat) : State :=
  let st := s.coreSt c
  let x := s.core c
  if st = .run ∨ st = .ckpt then
    let d := s.now - x.since
    (s.setCore c { x with since := s.now, runTime := x.runTime + d }).bump (Reg.coreBusyns c) d
  else s

/-- The streams stop: nothing is in execution any more, and no stream waits (R118, R179). -/
def stopStreams (s0 : State) (c : Nat) : State :=
  let s := accrue s0 c
  let s1 := s.setCore c { s.core c with flight := [], swapped := false }
  (s1.setReg (Reg.coreOutst c) 0#64).setReg (Reg.coreTpstat c) 0#64

/-- The core holds no program any more: CORE_CMD.VALID is 0 (R111, R126), CORE_TPSTAT shows no program (R182), and no request for a checkpoint of it
is pending (R183). -/
def endProgram (s : State) (c : Nat) : State :=
  ((s.setRegBit (Reg.coreCmd c) 39 false).setRegBit (Reg.coreTpckpt c) 48 false).setReg (Reg.coreTpstat c) 0#64

/-- The partition a core holds a carry binding to (R379): a committed carried counter is not zero and the last run belonged to it; a core out of
service, or one whose counters are being cleared for another partition (R110), holds none. -/
def carryBinding (s : State) (c : Nat) : Option Nat :=
  match s.coreSt c with
  | .quarantine | .disabled | .off | .reset => none
  | _ => if (s.core c).carried = [] ∨ (s.core c).clearing then none else (s.core c).prevPart

/-- BENCH_BIND follows a core's binding (R404). -/
def syncBind (s : State) (c : Nat) : State :=
  let off := Reg.benchBind (c / 8)
  match carryBinding s c with
  | some p => (s.setRegBit off (c % 8) true).setRegFld off (8 + 4 * (c % 8)) 4 p
  | none => (s.setRegBit off (c % 8) false).setRegFld off (8 + 4 * (c % 8)) 4 0

/-- A command waits for a core: its next run must go where its predecessor's program ran (R379). -/
def boundTo (s : State) (c : Nat) (d : Cmd) : Bool :=
  d.runs.any (fun r => decide (r.st = .queued) && decide (r.kind = .main) &&
    (decide (d.bound.lookup r.prog = some c) ||
      (match d.dep with
        | some pk => (match s.cmd pk with
          | some e => e.runs.any (fun q => decide (q.prog = r.prog) && decide (q.kind = .main) &&
              (decide (q.st = .done c) || decide (q.st = .active c)))
          | none => false)
        | none => false)))

/-- R379: a core that leaves service loses its binding, and the commands that require it end with NO_CORES. -/
def loseBinding (s : State) (c : Nat) : State :=
  match carryBinding s c with
  | none => s
  | some p => ((s.bench.cmds.filter (fun d => decide (d.part = p) && boundTo s c d)).map Cmd.key).foldl (fun s k => markCancel k 0x010E s) s

/-- The engine time of a run that a core loses, by a quarantine or a reset (R385): DEV_ACCTp takes what it does not hold yet, and all of it is
waste. A run that Bench has settled has none left. DEDUCED: the time of a run that had ended, and that a reset takes before Bench hears of the end, is
lost with the run. -/
def wasteTime (s : State) (c : Nat) : State :=
  let s1 := accrue s c
  let x := s1.core c
  let p := s1.regFld (Reg.coreCmd c) 32 4
  ((s1.setCore c { x with charged := 0, runTime := 0 }).bump (Reg.devAcct p) (x.runTime - x.charged)).bump (Reg.devWaste p) x.runTime

/-- A tie-break run that a core loses is over (R429), but for one whose fault Bench has still to report. -/
def loseTie (s : State) (c : Nat) : State :=
  if s.regBit (Reg.coreFault c) 19 then s
  else { s with bench := { s.bench with ties := s.bench.ties.filter (fun x => decide (x.core ≠ some c)) } }

/-- A reheat slice that ends on a core, or that its quarantine or reset ends (R638). -/
def dropSlice (s : State) (c : Nat) : State :=
  { s with therm := { s.therm with slices := s.therm.slices.filter (fun x => decide (x ≠ c)), sliceEnds := sput 0 s.therm.sliceEnds c 0 } }

/-- A core enters RESET (R131): registers and memories at their reset values but for CORE_COLMAP, pairing kept, S-class eligibility
withdrawn (R414). -/
def enterReset (s0 : State) (c : Nat) : State :=
  let s := dropSlice (loseTie (wasteTime (loseBinding s0 c) c) c) c
  let lost := (s.core c).portLost
  let s1 := applyPairing (resetCoreRegs (copyCoreCounts s c) c) c
  syncBind (s1.setCore c { Core.reset with portLost := lost }) c

/-- R118: the kill actions, from RUN, CKPT or HALT; no stream of the program is left. -/
def killActions (s : State) (c : Nat) : State :=
  let s1 := (stopStreams s c).setReg (Reg.coreAflags c) 0#64
  endProgram (s1.setCore c { s1.core c with streams := [] }) c

/-- R117: Lehr A quarantines a core; from RUN, CKPT or HALT the kill actions come first. OFF and DISABLED are left. The restart that follows
(R430, R663) has Bench cancel the command whose run the core had (R559). -/
def quarantineCore (s0 : State) (c : Nat) : State :=
  let s := dropSlice (loseBinding s0 c) c
  match s.coreSt c with
  | .off => s
  | .disabled => s
  | x =>
    let s1 := if x = .run ∨ x = .ckpt ∨ x = .halt then cancelRunsOn [c] (killActions (loseTie (wasteTime s c) c) c) else endProgram s c
    syncBind ((s1.setCoreSt c .quarantine).setSclass c false) c

/-- The frames in which a core was charged (R430). -/
def State.chargesOf (s : State) (c : Nat) : List Nat := sget [] s.lehrA.charges c

/-- QCFG.QEVENTS: 2 to 15; other values act as 3 (R452). -/
def State.qevents (s : State) : Nat :=
  let q := s.regFld Reg.lehraQcfg 0 4
  if 2 ≤ q then q else 3

/-- The charged frames of a core replaced, and the NEV and FIRSTEV fields that report them. -/
def State.setCharges (s : State) (c : Nat) (fs : List Nat) : State :=
  let s' := { s with lehrA := { s.lehrA with charges := sput [] s.lehrA.charges c fs } }
  (s'.setRegFld (Reg.lehraCorestat c) 0 4 (min (s.qevents - 1) fs.length)).setRegFld (Reg.lehraCorestat c) 32 32 (fs.headD 0)

/-- QCFG.QWINDOW. -/
def State.qwindow (s : State) : Nat := s.regFld Reg.lehraQcfg 32 16

/-- The charged frames f0 that lie within QWINDOW frames before f (R430). -/
def withinWindow (w f : Nat) (fs : List Nat) : List Nat := fs.filter (fun f0 => decide (countDiff f f0 < w))

/-- A frame put into a list of frames in their order. -/
def insertFrame (f : Nat) : List Nat → List Nat
  | [] => [f]
  | g :: gs => if newer32 f g then g :: insertFrame f gs else f :: g :: gs

/-- The core is charged in the frame (R428); the note stays when the core's history is cleared. -/
def noteCharge (s : State) (c f : Nat) : State :=
  { s with lehrA := { s.lehrA with chargedIn := s.lehrA.chargedIn.filter (fun p => decide (countDiff f p.1 < 2 ^ 30) || newer32 p.1 f) ++ [(f, c)] } }

/-- R428, R430, R431: a core charged with a disagreement event in frame f: once per frame; the QEVENTS-th within
QWINDOW frames quarantines it, and a core quarantined QMAX times is excluded from class S. -/
def chargeCore (s0 : State) (c f : Nat) : State :=
  if s0.lehrA.chargedIn.contains (f, c) then s0
  else
    let s := noteCharge s0 c f
    let fs := s.chargesOf c
    if s.qevents - 1 ≤ (withinWindow s.qwindow f fs).length then
      let s2 := ((quarantineCore s c).logLehrA 0x060B c f).setCharges c []
      let s3 := s2.bumpSat (Reg.lehraCorestat c) 4 4
      let qmax := s3.regFld Reg.lehraQcfg 48 4
      if qmax ≠ 0 ∧ qmax ≤ s3.regFld (Reg.lehraCorestat c) 4 4 then
        (s3.setRegBit (Reg.lehraCorestat c) 8 true).setSclass c false
      else s3
    else
      let all := insertFrame f fs
      s.setCharges c (withinWindow s.qwindow (all.getLastD f) all)

/-- R428: a disagreement event of a frame, counted and charged to cores. Lehr A does both, while it runs (R35). -/
def disagreement (s : State) (cores : List Nat) (f : Nat) : State :=
  if s.lehrB.lehrARuns then cores.foldl (fun s c => chargeCore s c f) (s.bump Reg.lehraMismatch 1) else s

/-- R428: a residue, tag-parity or scratchpad event charged to the reporting core at once. -/
def coreCheckEvent (s : State) (c : Nat) : State :=
  if s.lehrB.lehrARuns then (disagreement s [c] s.frmcnt).logLehrA 0x0615 c s.frmcnt else s

end Sys2Proof.Machine
end

