-- ==== Sys2Proof/Machine/ResetOps.lean ====
section
/-! DEFINITION. Reset domains: what contains what (R551), how overlapping requests resolve (R554), how a domain's reset
starts, and when a domain is released. -/

namespace Sys2Proof.Machine

/-- The crucibles at whose edge a lateral module ends (R458). -/
def moduleCrucibles (m : Nat) : List Nat :=
  if m < 4 then [0, 1] else if m < 8 then [1, 3] else if m < 12 then [2, 3] else if m < 16 then [0, 2]
  else if m < 18 then [0] else if m < 20 then [1] else if m < 22 then [2] else if m < 24 then [3]
  else if m < 25 then [0] else [3]

/-- The domains that directly contain a domain (R551). -/
def domainParents (kind index : Nat) : List (Nat × Nat) :=
  match kind with
  | 1 => [(2, index / 8)]
  | 2 => [(3, index / 3)]
  | 3 => [(7, 0)]
  | 4 => [(7, 0)]
  | 5 => [(3, index / 16)]
  | 6 => [(7, 0)]
  | 7 => [(8, 0), (10, 0)]
  | 9 => [(8, 0)]
  | 10 => [(8, 0)]
  | 11 => (moduleCrucibles index).map (fun k => (3, k)) ++ [(7, 0)]
  | 12 => [(4, 0)]
  | 13 => [(4, 0)]
  | _ => []

/-- Whether domain D is, or contains, domain E; domains nest at most six deep. -/
def domainCovers : Nat → Nat × Nat → Nat × Nat → Bool
  | 0, d, e => decide (d = e)
  | n + 1, d, e => decide (d = e) || (domainParents e.1 e.2).any (fun p => domainCovers n d p)

/-- Domain D contains, or is, domain E. -/
def covers (d e : Nat × Nat) : Bool := domainCovers 6 d e

/-- The domain a block is the reset unit of (R551). -/
def blockDomain : Block → Nat × Nat
  | .core c => (1, c.val)
  | .die d => (2, d.val)
  | .crucible k => (3, k.val)
  | .channel h => (5, h.val)
  | .sensorDie => (4, 0)
  | .hostDie => (7, 0)

/-- The range of INDEX of a KIND that RESET_REQ accepts (R551, R553). -/
def domainIndexOk (kind index : Nat) : Bool :=
  match kind with
  | 1 => decide (index < 96)
  | 2 => decide (index < 12)
  | 3 => decide (index < 4)
  | 4 => decide (index = 0)
  | 5 => decide (index < 64)
  | 6 => decide (index < 16)
  | 7 => decide (index = 0)
  | 8 => decide (index = 0)
  | 11 => decide (index < 26)
  | 12 => decide (index < 16)
  | 13 => decide (index < 8)
  | _ => false

/-- The blocks a domain's reset takes through R557. The device resets run their own sequences (R563, R571). -/
def blocksOf (kind index : Nat) : List Block :=
  match kind with
  | 1 => if h : index < 96 then [.core ⟨index, h⟩] else []
  | 2 => if h : index < 12 then [.die ⟨index, h⟩] else []
  | 3 =>
    (if h : index < 4 then [.crucible ⟨index, h⟩] else []) ++
      ((List.finRange 12).filter (fun d => decide (d.val / 3 = index))).map .die ++
      ((List.finRange 64).filter (fun c => decide (c.val / 16 = index))).map .channel
  | 4 => [.sensorDie]
  | 5 => if h : index < 64 then [.channel ⟨index, h⟩] else []
  | _ => []

/-- The domains in progress. -/
def State.domains (s : State) : List DomainReset := s.rst.domains

/-- Whether a reset in progress covers a domain (R554, first row). -/
def inReset (s : State) (d : Nat × Nat) : Bool := s.rst.domains.any (fun x => covers (x.kind, x.index) d)

/-- The state a block of a reset is in; none in RUN. -/
def State.blockPhase (s : State) (b : Block) : Option BlockReset := s.rst.blocks.find? (fun x => decide (x.blk = b))

/-- A block's entry replaced. -/
def State.setBlock (s : State) (x : BlockReset) : State :=
  { s with rst := { s.rst with blocks := s.rst.blocks.map (fun y => if y.blk = x.blk then x else y) } }

/-- RESET_CAUSE and RESET_CAUSETIME take an accepted request (R572, R573). -/
def recordCause (s : State) (kind index source : Nat) : State :=
  let w := setFld (setFld (setFld (setFld 0#64 0 4 kind) 4 8 index) 16 4 source) 32 32 s.frmcnt
  (s.setReg Reg.resetCause w).setReg Reg.resetCausetime (BitVec.ofNat 64 s.now)

/-- The domain entered among those in progress: the domains it contains are dropped with their blocks, and released with it (R554); its own blocks go to
IDLEREQ (R557). -/
def openDomain (s : State) (kind index source : Nat) (requested : Bool) : State :=
  let kept := s.rst.domains.filter (fun x => !covers (kind, index) (x.kind, x.index))
  let gone := s.rst.domains.filter (fun x => covers (kind, index) (x.kind, x.index))
  let inside := (gone.flatMap (fun x => (x.kind, x.index) :: x.inside)).filter (fun d => decide (d ≠ (kind, index)))
  let bs := s.rst.blocks.filter (fun x => !covers (kind, index) (blockDomain x.blk))
  let new := (blocksOf kind index).map (fun b => (⟨b, .idlereq, false⟩ : BlockReset))
  { s with rst := { s.rst with
      domains := kept ++ [⟨kind, index, source, s.now, false, requested, 0, inside⟩], blocks := bs ++ new } }

/-- R563 step 1: RESET_STAT shows a warm reset. -/
def markWarm (s : State) : State :=
  let w := setFld (setBit (setBit (s.reg Reg.resetStat) 0 false) 1 true) 3 4 1
  s.setReg Reg.resetStat w

/-- What the start of a domain's reset does at once: a core is quarantined with the kill actions (R553), and Bench cancels
every command with a run on the cores concerned (R559). -/
def beginDomain (s : State) (kind index : Nat) : State :=
  match kind with
  | 1 => quarantineCore (cancelRunsOn [index] s) index
  | 2 => cancelRunsOn (coresOfDie index) s
  | 3 => cancelRunsOn (coresOfCrucible index) s
  | 7 => markWarm (cancelRunsOn allCores s)
  | 8 => s.setReg Reg.resetStat (setFld (setBit (setBit (s.reg Reg.resetStat) 0 false) 2 true) 3 4 1)
  | 10 => markWarm (cancelRunsOn allCores s)
  | _ => s

/-- R552, R554: a source asks for a domain. A reset in progress that covers it absorbs the request (device cold reset is never
absorbed); otherwise the reset starts. -/
def startReset (kind index source : Nat) (requested : Bool) (s : State) : State :=
  if inReset s (kind, index) ∧ kind ≠ 8 then s.logReset 0x0909 kind index
  else
    let s1 := recordCause s kind index source
    let s2 := openDomain s1 kind index source requested
    let s3 := if requested then s2.setRegBit Reg.resetReqstat 16 true else s2
    beginDomain s3 kind index

/-- Whether a core counts as released (R551); one whose vertical port is lost stays in QUARANTINE till a device cold reset (R476, R663), and no reset
waits for it. -/
def coreReleased (s : State) (c : Nat) : Bool :=
  decide (s.coreSt c = .idle) || decide (s.coreSt c = .disabled) || (s.core c).portLost

/-- Whether a channel is in SERVICE or RETIRED (MEMC_CHSTATl.STATE). -/
def channelSettled (s : State) (h : Nat) : Bool :=
  let x := s.regFld (Reg.memcChstat (h / 4) (h % 4)) 0 3
  decide (x = 2) || decide (x = 5)

/-- The condition of the last column of R551's table. -/
def domainReleasable (s : State) (d : DomainReset) : Bool :=
  match d.kind with
  | 1 => coreReleased s d.index
  | 2 => (coresOfDie d.index).all (coreReleased s)
  | 3 => (coresOfCrucible d.index).all (coreReleased s) &&
      ((List.range 16).map (16 * d.index + ·)).all (channelSettled s)
  | 4 => decide (s.regFld Reg.marverFusstat 0 2 = 0)
  | 5 => channelSettled s d.index
  | 6 => !(s.bench.cmds.any (fun c => decide (c.part = d.index)))
  | 7 => s.regBit Reg.resetStat 0
  | 8 => s.regBit Reg.resetStat 0
  | 9 => s.regBit Reg.lehraStat 3
  | 10 => s.regBit Reg.resetStat 0
  | 11 =>
    let x := s.regFld (Reg.puntyMstat d.index) 0 3
    decide (x = 1) || decide (x = 3) || decide (x = 4)
  | 12 => let x := s.regFld (Reg.marverCamst d.index) 0 2; decide (x = 2) || decide (x = 0)
  | 13 => let x := s.regFld (Reg.marverEthst d.index) 0 2; decide (x = 2) || decide (x = 0)
  | _ => true

/-- RESET_CNTk counts a release and RESET_DONE is logged (R557). -/
def countRelease (s : State) (d : Nat × Nat) : State := (s.bump (Reg.resetCnt d.1) 1).logReset 0x090E d.1 d.2

/-- A domain is released (R557), and with it the domains in progress that it took over (R554). -/
def releaseDomain (s : State) (d : DomainReset) : State :=
  let s1 := { s with rst := { s.rst with domains := s.rst.domains.filter (fun x => decide (x ≠ d)) } }
  let s2 := ((d.kind, d.index) :: d.inside).foldl countRelease s1
  if s2.rst.domains.any (·.requested) then s2 else s2.setRegBit Reg.resetReqstat 16 false

/-- Every domain in progress whose blocks are all back in RUN, that no thermal hold keeps, and that meets R551's condition is released. -/
def releaseDomains (s : State) : State :=
  (s.rst.domains.filter (fun d =>
      !d.hold && domainReleasable s d &&
      !(s.rst.blocks.any (fun b => (blocksOf d.kind d.index).contains b.blk)))).foldl releaseDomain s

end Sys2Proof.Machine
end

