-- ==== Sys2Proof/Machine/Thermal.lean ====
section
/-! DEFINITION. Power, heat and reheat testing (R618-R644): the power limit and pacing, the junction sensors, throttling and
trips, the coolant input, parking, ageing, and the reheat pointer. -/

namespace Sys2Proof.Machine

/-! ## Setpoints -/

/-- THERM_PWRCTL.PLIM in W; a value outside 150-450 acts as the nearer end (R621). -/
def State.plim (s : State) : Nat := clampNat 150 450 (s.regFld Reg.thermPwrctl 0 10)

/-- THERM_PWRCTL.PHYST in W. -/
def State.physt (s : State) : Nat := s.regFld Reg.thermPwrctl 12 4

/-- The core voltage VP in mV (THERM_PWR.VP). -/
def State.vp (s : State) : Nat := s.regFld Reg.thermPwr 16 10

/-- PACE in 1/64 units (THERM_PWR.PACEM1 + 1). -/
def State.pace (s : State) : Nat := s.regFld Reg.thermPwr 26 6 + 1

/-- VCAP: 850 mV, or 750 mV while COOLHIGH or COOLSTALE is set (R621, R630). -/
def State.vcap (s : State) : Nat := if s.regBit Reg.thermStat 1 || s.regBit Reg.thermStat 2 then 750 else 850

/-- Whether the thermal manager can move a unit's setpoint (R618). -/
def throttlable (u : Nat) : Bool := decide (u < 112) || decide (u = 113)

/-- The top of a unit's setpoint range (R618). -/
def rangeTop (u : Nat) : Nat := if u < 96 then 850 else 750

/-- A unit's thermal cap C (R627): the top of its range until the manager has moved it (CAP reads 0 till then). -/
def State.capOf (s : State) (u : Nat) : Nat :=
  let v := s.regFld (Reg.thermUnit u) 13 10
  if v = 0 then rangeTop u else v

/-- The setpoint of a unit (R621, R627). -/
def State.setpoint (s : State) (u : Nat) : Nat := if u < 96 then min s.vp (s.capOf u) else s.capOf u

/-- R634's conditions for one core at this moment: setpoint 750 mV, not pacing, TU in 80-90 degrees. -/
def ageCondition (s : State) (c : Nat) : Bool :=
  let tu := signedOf (s.regFld (Reg.thermUnit c) 0 13) 13
  decide (s.regFld (Reg.coreVset c) 0 10 = 750) && !s.regBit Reg.thermStat 0 && decide (320 ≤ tu) && decide (tu ≤ 360)

/-- A core whose conditions fail drops out of this second's valid samples (R634). -/
def ageRecheck (s : State) (c : Nat) : State :=
  if ageCondition s c then s else { s with therm := { s.therm with ageGood := s.therm.ageGood.filter (fun x => decide (x ≠ c)) } }

/-- A core takes the setpoint min(VP, C); THROT is 1 while C is the lower (R621, R627). A core in OFF keeps its value. -/
def setCoreVolt (s : State) (c : Nat) : State :=
  if s.coreSt c = .off then s
  else
    let w := setBit (setFld (s.reg (Reg.coreVset c)) 0 10 (s.setpoint c)) 10 (decide (s.capOf c < s.vp))
    ageRecheck (s.setReg (Reg.coreVset c) w) c

/-- Every core takes its setpoint. -/
def setAllVolts (s : State) : State := allCores.foldl setCoreVolt s

/-! ## The power limit -/

/-- The mean of the latest `n` samples as a sum and a count. -/
def meanOf (xs : List Nat) (n : Nat) : Nat × Nat := ((xs.take n).foldl (· + ·) 0, (xs.take n).length)

/-- POWER_SAMPLE (R620): one sample of package power, in 1/16 W. P1 is the mean of the latest 10 samples, P10 the mean of the
latest 10 ms (1,000 samples); a sample of 10 microseconds adds 625/1,000,000 mJ per 1/16 W. -/
def execPowerSample (power : BitVec 16) (t : Nat) (s : State) : Out :=
  let s := s.at t
  let xs := (power.toNat :: s.therm.samples).take 1000
  let e := s.therm.energy + power.toNat
  let p1 := meanOf xs 10
  let p10 := meanOf xs 1000
  let s1 := { s with therm := { s.therm with samples := xs, energy := e } }
  let s2 := (s1.setRegFld Reg.thermPwr 0 16 (p1.1 / p1.2)).setRegFld Reg.thermPwr 32 16 (p10.1 / p10.2)
  .next (s2.setReg Reg.thermEnergy (BitVec.ofNat 64 (e * 625 / 1000000)))

/-- VP set, and LIMITED where the limit lowered it (R621). -/
def setVp (s : State) (v : Nat) (limited : Bool) : State :=
  (s.setRegFld Reg.thermPwr 16 10 v).setRegBit Reg.thermStat 3 limited

/-- PACE set; PACING is 1 while it is below 64/64 (R622). -/
def setPace (s : State) (p : Nat) : State :=
  let s1 := (s.setRegFld Reg.thermPwr 26 6 (p - 1)).setRegBit Reg.thermStat 0 (decide (p < 64))
  allCores.foldl ageRecheck s1

/-- PWR_OVER, once in each 10 ms (R622). -/
def logPwrOver (s : State) : State :=
  match s.therm.lastOver with
  | some t0 => if s.now < t0 + 10000000 then s
    else ({ s with therm := { s.therm with lastOver := some s.now } }).logTherm 0x0A06 0xFF
  | none => ({ s with therm := { s.therm with lastOver := some s.now } }).logTherm 0x0A06 0xFF

/-- R622: P1 > PLIM at 700 mV. -/
def pacePower (s : State) : State :=
  let s0 := s.setRegBit Reg.thermStat 3 true
  if !s.regBit Reg.thermPwrctl 16 then logPwrOver s0
  else if s.pace ≤ 4 then logPwrOver s0
  else
    let s1 := setPace s0 (max 4 (s.pace - 4))
    if s.pace = 64 then s1.logTherm 0x0A05 0xFF else s1

/-- The first row of R621's table that applies. P1 is compared as an exact mean. -/
def powerRow (s : State) : State :=
  let m := meanOf s.therm.samples 10
  let p := m.1
  let n := 16 * max 1 m.2
  let l := s.plim
  if 105 * l * n < 100 * p ∧ 700 < s.vp then setVp s (max 700 (s.vp - 25)) true
  else if l * n < p ∧ 700 < s.vp then setVp s (max 700 (s.vp - 10)) true
  else if l * n < p ∧ s.vp = 700 then pacePower s
  else if s.vcap < s.vp then setVp s (max s.vcap (s.vp - 10)) (s.regBit Reg.thermStat 3)
  else if p < (l - s.physt) * n ∧ s.pace < 64 then setPace s (s.pace + 1)
  else if p < (l - s.physt) * n ∧ s.vp < s.vcap then setVp s (min s.vcap (s.vp + 5)) (s.regBit Reg.thermStat 3)
  else s

/-- LIMITED is 1 only while VP is below VCAP (R643). -/
def limitedShown (s : State) : State :=
  if s.regBit Reg.thermStat 3 && decide (s.vcap ≤ s.vp) then s.setRegBit Reg.thermStat 3 false else s

/-- DEDUCED: with PACEEN = 0 the power manager does not pace (R622), so pacing in force ends at the next update. -/
def paceAllowed (s : State) : State :=
  if !s.regBit Reg.thermPwrctl 16 && decide (s.pace < 64) then setPace s 64 else s

/-- POWER_UPDATE (R621): VP and the pace move, and every core that is not OFF takes its setpoint. -/
def powerUpdate (s : State) : State := setAllVolts (limitedShown (powerRow (paceAllowed s)))

/-- POWER_UPDATE (R621, R622). -/
def execPowerUpdate (t : Nat) (s : State) : Out := .next (powerUpdate (s.at t))

/-! ## Sensors, throttling and trips -/

/-- The unit a sensor belongs to (R625). -/
def unitOfSensor (i : Nat) : Nat :=
  if i < 384 then i / 4 else if i < 408 then 96 + (i - 384) / 2 else if i < 472 then 108 + (i - 408) / 16
  else if i < 488 then 112 else if i < 504 then 113 else if i < 508 then 114 else 115

/-- The sensors of a unit (R625). -/
def sensorsOf (u : Nat) : List Nat :=
  if u < 96 then (List.range 4).map (4 * u + ·)
  else if u < 108 then (List.range 2).map (384 + 2 * (u - 96) + ·)
  else if u < 112 then (List.range 16).map (408 + 16 * (u - 108) + ·)
  else if u = 112 then (List.range 16).map (472 + ·)
  else if u = 113 then (List.range 16).map (488 + ·)
  else if u = 114 then (List.range 4).map (504 + ·)
  else (List.range 4).map (508 + ·)

/-- Whether a sensor has a reading and has not failed (R626, R643). -/
def sensorValid (s : State) (i : Nat) : Bool := s.regBit (Reg.thermSens i) 13 && !s.regBit (Reg.thermSens i) 14

/-- A sensor's last reading in 1/4 degree. -/
def sensorTemp (s : State) (i : Nat) : Int := signedOf (s.regFld (Reg.thermSens i) 0 13) 13

/-- The readings of a unit's valid sensors. -/
def validTemps (s : State) (u : Nat) : List Int := ((sensorsOf u).filter (sensorValid s)).map (sensorTemp s)

/-- A reading put into a list kept in rising order. -/
def insertInt (x : Int) : List Int → List Int
  | [] => [x]
  | y :: ys => if x ≤ y then x :: y :: ys else y :: insertInt x ys

/-- Twice the median of a list: the middle value twice, or the two middle values added. -/
def median2 (xs : List Int) : Int :=
  let ys := xs.foldr insertInt []
  let n := ys.length
  if n % 2 = 1 then 2 * ys.getD (n / 2) 0 else ys.getD (n / 2 - 1) 0 + ys.getD (n / 2) 0

/-- THERM_UNITu.STATE. -/
def State.unitState (s : State) (u : Nat) : Nat := s.regFld (Reg.thermUnit u) 23 2

/-- THERM_UNITu.STATE moved, with the unit counts of THERM_STAT; NTHR counts the entries into STATE 1 (R643). -/
def setUnitState (s : State) (u x : Nat) : State :=
  let old := s.unitState u
  let s0 := s.setRegFld (Reg.thermUnit u) 23 2 x
  let s1 := if x = 1 ∧ old ≠ 1 then s0.bumpSat (Reg.thermUnit u) 32 16 else s0
  let nt := s1.regFld Reg.thermStat 8 8 + (if x = 1 then 1 else 0) - (if old = 1 then 1 else 0)
  let nh := s1.regFld Reg.thermStat 16 8 + (if x = 2 then 1 else 0) - (if old = 2 then 1 else 0)
  (s1.setRegFld Reg.thermStat 8 8 nt).setRegFld Reg.thermStat 16 8 nh

/-- THERM_LIMITS fields with their ranges (R643). -/
def State.thrt (s : State) : Nat := clampNat 100 124 (s.regFld Reg.thermLimits 0 8)
/-- HYST, 0 acts as 1 (R643). -/
def State.hyst (s : State) : Nat := max 1 (s.regFld Reg.thermLimits 8 4)
/-- TRIP, 126-135 (R643). -/
def State.trip (s : State) : Nat := clampNat 126 135 (s.regFld Reg.thermLimits 16 8)
/-- RELEASE, 80-120 (R643). -/
def State.releaseTemp (s : State) : Nat := clampNat 80 120 (s.regFld Reg.thermLimits 24 8)
/-- COOLMAX, 40-70 (R643). -/
def State.coolMax (s : State) : Nat := clampNat 40 70 (s.regFld Reg.thermLimits 32 8)

/-- A unit takes its setpoint after its cap moved. -/
def applyUnitVolt (s : State) (u : Nat) : State := if u < 96 then setCoreVolt s u else s

/-- R627: the cap moved by one update; the first step below the top of the range logs UNIT_THROTTLED. -/
def capUpdate (s : State) (u : Nat) (tu : Int) : State :=
  if !throttlable u then s
  else
    let c := s.capOf u
    let c' := if 500 < tu then max 600 (min c (s.setpoint u) - 10)
      else if (4 * s.thrt : Nat) ≤ tu then max 700 (min c (s.setpoint u) - 10)
      else if tu < (4 * (s.thrt - s.hyst) : Nat) ∧ c < rangeTop u then min (rangeTop u) (c + 5)
      else c
    let s1 := s.setRegFld (Reg.thermUnit u) 13 10 c'
    let s2 := if s1.unitState u = 0 ∧ c' < rangeTop u then
        (setUnitState s1 u 1).logTherm 0x0A01 u
      else if s1.unitState u = 1 ∧ c' = rangeTop u then setUnitState s1 u 0
      else s1
    applyUnitVolt s2 u

/-- The smallest reset domain that holds a unit (R628); the Lehr dies have none that Lehr A resets. -/
def tripDomain (u : Nat) : Option (Nat × Nat) :=
  if u < 96 then some (1, u) else if u < 108 then some (2, u - 96) else if u < 112 then some (3, u - 108)
  else if u = 112 then some (7, 0) else if u = 113 then some (4, 0) else none

/-- The thermal hold of a domain in progress set, or lifted: the time under it is not counted in the domain's bound (R551). -/
def DomainReset.held (x : DomainReset) (now : Nat) (b : Bool) : DomainReset :=
  if b = x.hold then x
  else if b then { x with hold := true, heldAt := now }
  else { x with hold := false, since := x.since + (now - x.heldAt) }

/-- A domain's thermal hold set or lifted (R556). -/
def setHold (s : State) (d : Nat × Nat) (b : Bool) : State :=
  { s with rst := { s.rst with domains := s.rst.domains.map (fun x => if (x.kind, x.index) = d then x.held s.now b else x) } }

/-- Whether a domain is itself in progress, and under a thermal hold or not as `b` says. -/
def domainHolds (s : State) (d : Nat × Nat) (b : Bool) : Bool :=
  s.rst.domains.any (fun x => decide ((x.kind, x.index) = d) && decide (x.hold = b))

/-- R628, R552 source 12: the reset that a trip asks for, and the hold of its domain, which a trip met while it holds does not restart. DEDUCED: a trip
that an enclosing domain's reset absorbs (R554) holds nothing; one that meets a reset of its own domain holds it. -/
def tripReset (s : State) (d : Nat × Nat) (u : Nat) : State :=
  let s1 := startReset d.1 d.2 12 false s
  if domainHolds s1 d false then setUnitState ((setHold s1 d true).logReset 0x090C d.1 d.2) u 2 else s1

/-- What keeps a crucible in its reset: each of its stacks that tripped (its site), and its own sensors (16 + k). -/
def holderCrucible (x : Nat) : Nat := if x < 16 then x / 4 else x - 16

/-- R628, R629: a crucible's trip; `x` joins what keeps it. -/
def tripCrucible (s : State) (k x : Nat) : State :=
  let s1 := tripReset s (3, k) (108 + k)
  if domainHolds s1 (3, k) true && !s1.mem.memHeld.contains x then { s1 with mem := { s1.mem with memHeld := s1.mem.memHeld ++ [x] } } else s1

/-- R628, R556: a thermal trip: UNIT_TRIP, the smallest domain that holds the unit reset and held. A trip of a domain already in
reset is absorbed (R554) and does not restart a hold; a trip on a Lehr die drives the other die's fault ball. -/
def thermalTrip (s : State) (u : Nat) : State :=
  let s1 := ((s.bumpSat (Reg.thermUnit u) 48 16)).logTherm 0x0A02 u
  match tripDomain u with
  | some d => if d.1 = 3 then tripCrucible s1 d.2 (16 + d.2) else tripReset s1 d u
  | none =>
    let s2 := setUnitState s1 u 2
    if u = 114 then { s2 with pins := { s2.pins with flt01 := true } }
    else { s2 with pins := { s2.pins with flt00 := true } }

/-- The hold of a unit ends: THERMAL_RELEASED, and its STATE is what its sensors and its cap make it. A fault ball driven for a lost Lehr die as well
stays driven (R448). -/
def finishHold (s : State) (u : Nat) : State :=
  let x := if (sensorsOf u).all (fun j => s.regBit (Reg.thermSens j) 14) then 3 else if throttlable u ∧ s.capOf u < rangeTop u then 1 else 0
  let s1 := (setUnitState s u x).logTherm 0x0A03 u
  match tripDomain u with
  | some d => releaseDomains (setHold s1 d false)
  | none => if u = 114 then { s1 with pins := { s1.pins with flt01 := s.regBit Reg.lehrbStat 4 } }
    else { s1 with pins := { s1.pins with flt00 := s.regBit Reg.lehraStat 13 } }

/-- One of the holders of a crucible's reset lets go; the last one ends the hold. -/
def dropHolder (s : State) (k x : Nat) : State :=
  if !s.mem.memHeld.contains x then s
  else
    let s1 := { s with mem := { s.mem with memHeld := s.mem.memHeld.filter (fun y => decide (y ≠ x)) } }
    if s1.mem.memHeld.any (fun y => decide (holderCrucible y = k)) then s1 else finishHold s1 (108 + k)

/-- Whether a trip keeps a unit: its STATE says so, or its domain is held (a device warm reset returns STATE to 0). -/
def unitKept (s : State) (u : Nat) : Bool :=
  decide (s.unitState u = 2) || (tripDomain u).any (fun d => domainHolds s d true)

/-- R556, R628: TU below RELEASE ends a unit's hold. -/
def endHold (s : State) (u : Nat) (tu : Int) : State :=
  if (4 * s.releaseTemp : Nat) ≤ tu then s
  else if 108 ≤ u ∧ u < 112 then dropHolder s (u - 108) (16 + (u - 108))
  else if unitKept s u then finishHold s u else s

/-- R626: a unit whose sensors have all failed is held at 700 mV, and a core loses its S-class eligibility. -/
def blindUnit (s : State) (u : Nat) : State :=
  let s1 := setUnitState s u 3
  let s2 := if throttlable u then applyUnitVolt (s1.setRegFld (Reg.thermUnit u) 13 10 700) u else s1
  if u < 96 then s2.setSclass u false else s2

/-- R626: a sensor fails: FAIL set, SENSOR_FAIL logged, and the unit is blind once its last sensor has failed. -/
def failSensor (s : State) (i : Nat) : State :=
  let u := unitOfSensor i
  let s1 := (s.setRegBit (Reg.thermSens i) 14 true).logTherm 0x0A04 u
  if (sensorsOf u).all (fun j => s1.regBit (Reg.thermSens j) 14) then blindUnit s1 u else s1

/-- R626's two tests: the streaks of readings out of range and away from the unit's median. -/
def sensorStreaks (s : State) (i : Nat) (r : Option Int) : State :=
  let u := unitOfSensor i
  let out := match r with
    | none => true
    | some v => decide (v < -160) || decide (600 < v)
  let temps := validTemps s u
  let dev := match r with
    | none => false
    | some v => decide (3 ≤ temps.length) && decide (160 < (2 * v - median2 temps).natAbs)
  let a := if out then sget 0 s.therm.streakOut i + 1 else 0
  let b := if dev then sget 0 s.therm.streakDev i + 1 else 0
  let s1 := { s with therm := { s.therm with
    streakOut := sput 0 s.therm.streakOut i a, streakDev := sput 0 s.therm.streakDev i b } }
  if 3 ≤ a ∨ 3 ≤ b then failSensor s1 i else s1

/-- R625, R627, R628: a unit's temperature recomputed from its valid sensors, and what follows from it. -/
def unitUpdate (s : State) (u : Nat) (r : Option Int) : State :=
  match (validTemps s u) with
  | [] => s
  | t :: ts =>
    let tu := ts.foldl max t
    let s1 := s.setRegFld (Reg.thermUnit u) 0 13 (wrapInt tu 13)
    let s2 := if u < 96 then ageRecheck s1 u else s1
    let s3 := capUpdate s2 u tu
    match r with
    | some v => if (4 * s.trip : Nat) ≤ v then thermalTrip s3 u else endHold s3 u tu
    | none => endHold s3 u tu

/-- THERM_SENS of a sensor shows a reading in 1/4 degree with VALID; no reading leaves it (R625). -/
def showReading (s : State) (i : Nat) (r : Option Int) : State :=
  match r with
  | some v => (s.setRegFld (Reg.thermSens i) 0 13 (wrapInt v 13)).setRegBit (Reg.thermSens i) 13 true
  | none => s

/-- SENSOR_READ (R625-R628): a reading in 1/4 degree, or none. A failed sensor stays excluded. -/
def execSensorRead (sensor : Fin 512) (reading : Option (BitVec 13)) (t : Nat) (s : State) : Out :=
  let s := s.at t
  let i := sensor.val
  if s.regBit (Reg.thermSens i) 14 then .next s
  else
    let r := reading.map (fun v => signedOf v.toNat 13)
    let s2 := sensorStreaks (showReading s i r) i r
    .next (unitUpdate s2 (unitOfSensor i) (if s2.regBit (Reg.thermSens i) 14 then none else r))

/-! ## Coolant -/

/-- R630: the inlet temperature against COOLMAX, in 1/16 degree: COOLHIGH is set above it and clears at COOLMAX - 2. -/
def judgeCoolant (s : State) (v : Int) : State :=
  if (16 * s.coolMax : Nat) < v then
    if s.regBit Reg.thermStat 1 then s else (s.setRegBit Reg.thermStat 1 true).logTherm 0x0A07 0xFF
  else if v ≤ ((16 * (s.coolMax - 2) : Nat) : Int) then s.setRegBit Reg.thermStat 1 false
  else s

/-- COOLANT_WRITE (R630): the inlet temperature, signed 1/16 degree, is kept with its time and judged. -/
def execCoolantWrite (who : Ident) (temp : BitVec 12) (t : Nat) (s : State) : Out :=
  let s := s.at t
  if !mgmt who then .next s
  else
    let v := signedOf temp.toNat 12
    let s1 := (s.setRegFld Reg.thermCoolant 0 12 temp.toNat).setRegBit Reg.thermCoolant 12 true
    let s2 := { s1 with therm := { s1.therm with coolantAt := some s.now } }
    .next (judgeCoolant (s2.setRegBit Reg.thermStat 2 false) v)

/-- COOLANT_STALE (R630): 2 s without a write set COOLSTALE; VALID reads 0. -/
def execCoolantStale (t : Nat) (s : State) : Out :=
  let s := s.at t
  if s.now < s.therm.coolantAt.getD 0 + 2000000000 then .next s
  else
    let s1 := s.setRegBit Reg.thermCoolant 12 false
    .next (if s1.regBit Reg.thermStat 2 then s1 else (s1.setRegBit Reg.thermStat 2 true).logTherm 0x0A08 0xFF)

/-! ## Reheat (R636-R641) and parking (R624) -/

/-- A pattern abandoned: its index is not advanced and THERM_RHc.ABORTN counts it (R638). -/
def abandonPattern (s : State) (c : Nat) : State := s.bumpSat (Reg.thermRh c) 16 16

/-- A core leaves REHEAT: it is IDLE and no slice is in progress on it. -/
def endSlice (s : State) (c : Nat) : State :=
  (dropSlice s c).setCoreSt c .idle

/-- R400, R638: Bench aborts the slice on a core. -/
def abortSlice (s : State) (c : Nat) : State := (endSlice (abandonPattern s c) c).bump (Reg.benchRhabort (c / 8)) 1

/-- Whether the THERM_PARK bit of a core is set. -/
def parkBit (s : State) (c : Nat) : Bool :=
  if c < 64 then s.regBit Reg.thermPark0 c else s.regBit Reg.thermPark1 (c - 64)

/-- A core parked from IDLE enters OFF; its memories are lost, and ACT and CAP read 0 (R117, R624, R112). -/
def parkCore (s0 : State) (c : Nat) : State :=
  let s := loseBinding s0 c
  let s1 := (s.setRegFld (Reg.coreSteprate c) 0 31 0).setCoreSt c .off
  syncBind (s1.setCore c { Core.reset with portLost := (s.core c).portLost }) c

/-- CORE_PARK (R624, R641): a core with its park bit set enters OFF from IDLE, from REHEAT after the abort of its slice; in any
other state it enters OFF at its next IDLE, by a later event. -/
def execCorePark (core : Fin 96) (s : State) : Out :=
  if !parkBit s core.val then .next s
  else match s.coreSt core.val with
    | .idle => .next (parkCore s core.val)
    | .reheat => .next (parkCore (abortSlice s core.val) core.val)
    | _ => .next s

/-- CORE_UNPARK (R624): a parked core whose bit is clear returns through RESET. -/
def execCoreUnpark (core : Fin 96) (s : State) : Out :=
  if parkBit s core.val then .next s
  else if s.coreSt core.val = .off then .next (enterReset s core.val) else .next s

/-- The group of a pattern index: whether it is an ARRAY pattern (R636). -/
def arrayPattern (p : Nat) : Bool := decide (p < 528)

/-- A completed pass: THERM_RHTc takes the time, OVERDUE clears with REHEAT_RESTORED, and SCLASS returns when R414's other
conditions hold (R638, R640). -/
def passDone (s : State) (c : Nat) : State :=
  let s1 := s.setReg (Reg.thermRht c) (BitVec.ofNat 64 s.now)
  if s1.regBit (Reg.thermRh c) 10 then
    let s2 := (s1.setRegBit (Reg.thermRh c) 10 false).logTherm 0x0A0E c
    let st := s2.coreSt c
    let inService := st = .idle ∨ st = .run ∨ st = .ckpt ∨ st = .halt ∨ st = .reheat ∨ st = .kill ∨ st = .faulted
    if inService ∧ s2.regBit Reg.lehraStat 1 ∧ !s2.regBit (Reg.lehraCorestat c) 8 ∧
        s2.unitState c ≠ 3 ∧ !s2.regBit (Reg.thermAge c) 49 then s2.setSclass c true
    else s2
  else s1

/-- R638: a pattern that passes advances the pointer; passing 1,023 completes a pass. -/
def patternPass (s : State) (c : Nat) : State :=
  let p := s.regFld (Reg.thermRh c) 0 10
  let s1 := s.setRegFld (Reg.thermRh c) 0 10 ((p + 1) % 1024)
  if p = 1023 then passDone s1 c else s1

/-- R115 steps 1 to 3: a failed column found in service: Lehr A's list of the core's columns gains it (the append to the flash log is
the event REPAIR_LOG_APPEND), LASTCOL and PENDING show it, and the core is quarantined. -/
def columnFound (s : State) (c col : Nat) : State :=
  let s1 := (s.setRegFld (Reg.coreRepstat c) 8 8 col).setRegBit (Reg.coreRepstat c) 4 true
  let old := s1.failedCols c
  let new := if old.contains col then old else (old.filter (· < col)) ++ [col] ++ (old.filter (col < ·))
  let s2 := { s1 with rst := { s1.rst with repairMap := sput [] s1.rst.repairMap c new } }
  quarantineCore s2 c

/-- R639, R640: a pattern that fails: REHEAT_FAIL; an ARRAY pattern's column goes to the repair list, any other failure charges the
core under R428; the core is quarantined either way. The column failure charges the core as well (R430); DEDUCED: it is no disagreement event, and
LEHRA_MISMATCH does not count it. -/
def patternFail (s : State) (c : Nat) : State :=
  let p := s.regFld (Reg.thermRh c) 0 10
  let s2 := (dropSlice s c).logTherm 0x0A0C c
  if arrayPattern p then columnFound (chargeCore s2 c s2.frmcnt) c (p / 4)
  else quarantineCore (disagreement s2 [c] s2.frmcnt) c

/-- REHEAT_PATTERN_DONE (R638, R639): a pattern of the slice on a core ends. -/
def execReheatPatternDone (core : Fin 96) (pass : Bool) (t : Nat) (s : State) : Out :=
  let s := s.at t
  if s.coreSt core.val ≠ .reheat then .next s
  else .next (if pass then patternPass s core.val else patternFail s core.val)

/-- REHEAT_SLICE_END (R638, R398): the slice length is used and the core is IDLE again. -/
def execReheatSliceEnd (core : Fin 96) (s : State) : Out :=
  if s.coreSt core.val ≠ .reheat then .next s else .next (endSlice (s.at (sget 0 s.therm.sliceEnds core.val)) core.val)

/-- REHEAT_ABORT (R400, R638, R641): Bench aborts the slice. When the abort meets a pattern's end in the same step, a failure decides,
and a pattern that passed counts. -/
def execReheatAbort (core : Fin 96) (ended : Option Bool) (t : Nat) (s : State) : Out :=
  let s := s.at t
  let c := core.val
  if s.coreSt c ≠ .reheat then .next s
  else match ended with
    | none => .next (abortSlice s c)
    | some true => .next ((endSlice (patternPass s c) c).bump (Reg.benchRhabort (c / 8)) 1)
    | some false => .next (patternFail s c)

/-- THERM_RHCTL.RHLIM in s; 0 acts as 1 (R643). -/
def State.rhlim (s : State) : Nat := max 1 (s.regFld Reg.thermRhctl 0 8)

/-- REHEAT_OVERDUE (R640): RHLIM seconds after the last completed pass the core is withdrawn from class S. -/
def execReheatOverdue (core : Fin 96) (t : Nat) (s : State) : Out :=
  let s := s.at t
  let c := core.val
  if s.now < (s.reg (Reg.thermRht c)).toNat + s.rhlim * 1000000000 then .next s
  else if s.regBit (Reg.thermRh c) 10 then .next s
  else .next (((s.setRegBit (Reg.thermRh c) 10 true).setSclass c false).logTherm 0x0A0D c)

/-! ## Ageing -/

/-- R634: one core's CORE_STEPMIN read and rewritten; a valid sample enters THERM_AGEc. -/
def ageOne (s : State) (c : Nat) : State :=
  let v := s.regFld (Reg.coreStepmin c) 0 16
  let s1 := s.setRegFld (Reg.coreStepmin c) 0 16 0xFFFF
  if !s1.therm.ageGood.contains c then s1
  else
    let low := min v (s1.regFld (Reg.thermAge c) 0 16)
    let s2 := ((s1.setRegFld (Reg.thermAge c) 0 16 low).setRegFld (Reg.thermAge c) 16 16 v).bumpSat (Reg.thermAge c) 32 16
    if low < s2.regFld Reg.thermAgectl 4 12 ∧ !s2.regBit (Reg.thermAge c) 48 then
      (s2.setRegBit (Reg.thermAge c) 48 true).logTherm 0x0A0A c
    else s2

/-- AGE_SAMPLE (R634): once every second while EN is 1; the conditions are then watched for the next second. -/
def execAgeSample (t : Nat) (s : State) : Out :=
  let s := s.at t
  if !s.regBit Reg.thermAgectl 0 then .next s
  else
    let s1 := allCores.foldl ageOne s
    .next { s1 with therm := { s1.therm with ageGood := allCores.filter (ageCondition s1) } }

/-- THERM_EVLOG_READ (R643): the oldest event is returned and removed. -/
def execThermEvlogRead (s : State) : Out :=
  .next { s with readData := s.therm.log.head, therm := { s.therm with log := s.therm.log.pop } }

end Sys2Proof.Machine
end

