-- ==== Sys2Proof/Machine/Tracker.lean ====
section
/-! DEFINITION. The crucibles' event logs, poisoned responses, and the trackers' entries (R464-R466, R498, R527). -/

namespace Sys2Proof.Machine

/-! ## Events and poisoned responses -/

/-- Class 0x05 codes marked "Lehr A" in R502. -/
def code05Raised (c : Nat) : Bool := [0x0503, 0x0505, 0x0508, 0x0509, 0x050A, 0x050B, 0x050C, 0x0511].contains c

/-- An event logged in CRUC_EVLOG of crucible k (R498, R502), 256 entries; a full log sets EVOVF. -/
def State.logCruc (s : State) (k code node ident addr : Nat) : State :=
  let l := sget EvLog.empty s.fab.logs k
  let w := setFld (evWord code node 8 s.frmcnt) 24 5 ident
  let l' := l.push 256 none w addr
  let s0 := { s with fab := { s.fab with logs := sput EvLog.empty s.fab.logs k l' } }
  let s1 := s0.setReg (Reg.crucEvaddr k) (BitVec.ofNat 64 l'.headAddr)
  let s2 := if l.full 256 then s1.setRegBit (Reg.crucStat k) 1 true else s1
  if code05Raised code then s2.raise code k else s2

/-- A poisoned response sent by crucible k, counted (R498). -/
def poisonAt (s : State) (k : Nat) : State := s.bump (Reg.crucPoison k) 1

/-- The data of a poisoned response of `n` bytes (R527): the class 0x04 code, little-endian, where a memory cause has one (0: none), and zeros. -/
def poisonBytes (code n : Nat) : List Byte := (leBytes 2 code ++ List.replicate n 0#8).take n

/-! ## Entries -/

/-- CRUC_TRK of crucible k follows its entries, PEAK keeps the largest, and CRUC_STAT.FENCED shows whether one is FENCED (R498). -/
def syncTrk (s : State) (k : Nat) : State :=
  let es := s.fab.track.filter (fun e => decide (e.cruc = k))
  let peak := max es.length (s.regFld (Reg.crucTrk k) 16 16)
  let fenced := (es.filter (·.fenced)).length
  (s.setReg (Reg.crucTrk k) (setFld (setFld (setFld 0#64 0 16 es.length) 16 16 peak) 32 16 fenced)).setRegBit (Reg.crucStat k) 2
    (decide (fenced ≠ 0))

/-- The source whose share a request uses at crucible k (R464). A port die's CSR requests have a share of their own at crucibles 1 and 2. -/
def trackSource (node k : Nat) (csr : Bool) (agent : Agent) : Nat :=
  if node < 0x60 then 0
  else if node < 0x64 then (match agent with
    | .collective => 2
    | .manager => 3
    | .copier => 4)
  else if node = 0x64 then (if csr && decide (k = 1) then 6 else 1)
  else if node = 0x65 then (if csr && decide (k = 2) then 6 else 1)
  else 5

/-- A source's share of a crucible's tracker (R464). -/
def trackShare : Nat → Nat
  | 0 => 30720
  | 1 => 1024
  | 2 => 512
  | 4 => 256
  | _ => 128

/-- Whether a source's share at crucible k has an entry left, and the node's tag is free (R464, R465). -/
def trackRoom (s : State) (k node source tag : Nat) : Bool :=
  !s.fab.track.any (fun e => decide (e.node = node) && decide (e.tag = tag)) &&
    decide ((s.fab.track.filter (fun e => decide (e.cruc = k) && decide (e.source = source))).length < trackShare source)

/-- A live entry added. -/
def pushTrack (s : State) (e : TrackEntry) : State :=
  syncTrk { s with fab := { s.fab with track := s.fab.track ++ [e] } } e.cruc

/-- A response reaches its entry (R465, R466): one for an orphan is dropped and counted in CRUC_STALE (R558), and its entry is free; one for
a FENCED entry is dropped, counted and logged; otherwise the entry is
freed and the requester has its answer. -/
def answer (s : State) (node tag : Nat) : State :=
  match s.fab.track.find? (fun e => decide (e.node = node) && decide (e.tag = tag)) with
  | none => s
  | some e =>
    if e.orphan then
      let s1 := s.bump (Reg.crucStale e.cruc) 1
      syncTrk { s1 with fab := { s1.fab with
        track := s1.fab.track.filter (fun x => !(decide (x.node = node) && decide (x.tag = tag))) } } e.cruc
    else if e.fenced then (s.bump (Reg.crucStale e.cruc) 1).logCruc e.cruc 0x050E e.node e.ident e.addr
    else syncTrk { s with fab := { s.fab with
      track := s.fab.track.filter (fun x => !(decide (x.node = node) && decide (x.tag = tag)))
      lastResp := some ⟨e.node, e.tag, e.poisoned, e.data, e.dl⟩ } } e.cruc

/-- An entry that a fence has completed (R466 point 2). -/
def TrackEntry.fence (e : TrackEntry) (g : Target) (code : Nat) : TrackEntry :=
  { e with
    fenced := true, poisoned := true, data := poisonBytes code e.data.length
    targets := if e.targets.contains g then e.targets else e.targets ++ [g] }

/-- The entries that a test picks complete poisoned with a code (0: none), are marked FENCED till the release of `g`, and log TARGET_FENCED (R466 points
1 and 2). -/
def fenceEntries (s : State) (g : Target) (code : Nat) (p : TrackEntry → Bool) : State :=
  let hit := s.fab.track.filter (fun e => p e && !e.fenced)
  let s1 := { s with fab := { s.fab with track := s.fab.track.map (fun e => if p e && !e.fenced then e.fence g code else e) } }
  hit.foldl (fun s e =>
    let s2 := (poisonAt s e.cruc).logCruc e.cruc 0x050D e.node e.ident e.addr
    syncTrk { s2 with fab := { s2.fab with lastResp := some ⟨e.node, e.tag, true, poisonBytes code e.data.length, e.dl⟩ } } e.cruc) s1

/-- A target is fenced: every entry that depends on it completes poisoned, is marked FENCED and logs TARGET_FENCED (R466 points 1, 2). -/
def fenceTarget (s : State) (g : Target) : State :=
  fenceEntries { s with fab := { s.fab with fences := if s.fab.fences.contains g then s.fab.fences else s.fab.fences ++ [g] } } g 0
    (fun e => e.targets.contains g)

/-- A target is released: its FENCED entries are free (R466 point 4). An entry that another fence still holds stays. -/
def releaseTarget (s : State) (g : Target) : State :=
  let fences := s.fab.fences.filter (fun x => decide (x ≠ g))
  let keep (e : TrackEntry) : Bool := !(e.fenced && e.targets.contains g && !e.targets.any (fun x => fences.contains x))
  (List.range 4).foldl syncTrk { s with fab := { s.fab with fences := fences, track := s.fab.track.filter keep } }

end Sys2Proof.Machine
end

