-- ==== Sys2Proof/Machine/Memory.lean ====
section
/-! DEFINITION. LPDDR6 memory (R520-R550): the address map, how a line is read and written, epochs and the scrub, the channel
states, refresh, parking and the training helpers. -/

namespace Sys2Proof.Machine

/-! ## The address map -/

/-- Range n of the map in force (R521, R524). -/
def rangeA (s : State) (n : Nat) : Word := sget (regReset (Reg.devMemmapa n)) s.mem.mapA n
/-- The channel set of range n in force. -/
def rangeM (s : State) (n : Nat) : Word := sget (regReset (Reg.devMemmapm n)) s.mem.mapM n

/-- The set bits of a channel mask, lowest first. -/
def maskChannels (m : Word) : List Nat := (List.range 64).filter (fun h => bitAt m h)

/-- Whether a range holds a device address (R521). -/
def rangeHolds (a : Word) (addr : Nat) : Bool :=
  bitAt a 47 && decide (fld a 0 15 * 2 ^ 22 ≤ addr) && decide (addr < (fld a 0 15 + fld a 16 16) * 2 ^ 22)

/-- R521: the channel and channel-local address of a device address in a range. -/
def rangeMap (a m : Word) (addr : Nat) : Nat × Nat :=
  let chans := maskChannels m
  let n := chans.length
  let g := 256 * 2 ^ fld a 41 4
  let off := addr - fld a 0 15 * 2 ^ 22
  (chans.getD (off / g % n) 0, fld a 32 9 * 2 ^ 22 + off / (g * n) * g + off % g)

/-- The channel and local address a DRAM address maps to under the map in force; none when it is unbacked (R523). -/
def mapAddr (s : State) (addr : Nat) : Option (Nat × Nat) :=
  match (List.range 16).find? (fun n => rangeHolds (rangeA s n) addr) with
  | some n => some (rangeMap (rangeA s n) (rangeM s n) addr)
  | none => none

/-- Whether a device address lies in DRAM (R17). -/
def isDram (addr : Nat) : Bool := decide (addr < 0x2000000000)

/-- The key of a byte of channel-local memory. -/
def cellKey (p : Nat × Nat) : Nat := p.1 * 2 ^ 31 + p.2

/-! ## Channels -/

/-- MEMC_CHSTATl of channel h. -/
def chstat (h : Nat) : Nat := Reg.memcChstat (h / 4) (h % 4)

/-- The state code of channel h (R536). -/
def State.chSt (s : State) (h : Nat) : Nat := s.regFld (chstat h) 0 3

/-- Channel h put into the state with a code (R536), and the moment remembered. -/
def State.setChSt (s : State) (h x : Nat) : State :=
  let s1 := s.setRegFld (chstat h) 0 3 x
  { s1 with mem := { s1.mem with entered := sput 0 s1.mem.entered h s1.now } }

/-- The epoch of segment k of channel h. -/
def State.epoch (s : State) (h k : Nat) : Nat := s.regFld (Reg.memcEpoch (h / 4) (h % 4)) (8 * k) 8

/-- SCRUBPEND of segment k of channel h. -/
def State.scrubPend (s : State) (h k : Nat) : Bool := s.regBit (chstat h) (4 + k)

/-- SCRUBBUSY shows that a scrub runs: a pending segment of a channel in SERVICE. -/
def syncScrub (s : State) (h : Nat) : State :=
  s.setRegBit (chstat h) 3 (decide (s.regFld (chstat h) 4 8 ≠ 0) && decide (s.chSt h = 2))

/-- Class 0x04 event codes marked "Lehr A" in R550. -/
def code04Raised (c : Nat) : Bool := [0x0407, 0x0408, 0x0409, 0x040B, 0x040C].contains c

/-- An event logged in MEMC_EVLOG of the channel's site (R548, R550). -/
def State.logMemc (s : State) (code h : Nat) : State :=
  let site := h / 4
  let l := (sget EvLog.empty s.mem.logs site).push 64 (some 30) (evWord code (h % 4) 2 s.frmcnt) 0
  let s' := { s with mem := { s.mem with logs := sput EvLog.empty s.mem.logs site l } }
  if code04Raised code then s'.raise code h else s'

/-! ## Lines -/

/-- The metadata a line of a segment has that nothing has listed on its own. -/
def segMark (s : State) (lineKey : Nat) : LineMark := sget ⟨.valid, 0⟩ s.mem.segBase (lineKey / 2 ^ 21)

/-- A line's metadata. -/
def State.mark (s : State) (lineKey : Nat) : LineMark := sget (segMark s lineKey) s.mem.marks lineKey

/-- A line's metadata replaced. -/
def State.setMark (s : State) (lineKey : Nat) (x : LineMark) : State :=
  { s with mem := { s.mem with marks := sput (segMark s lineKey) s.mem.marks lineKey x } }

/-- A byte of channel-local memory. -/
def State.cell (s : State) (key : Nat) : Byte := sget 0#8 s.mem.bytes key

/-- A byte of channel-local memory replaced. -/
def State.setCell (s : State) (key : Nat) (b : Byte) : State :=
  { s with mem := { s.mem with bytes := sput 0#8 s.mem.bytes key b } }

/-- How a read of a line is resolved (R526): data, or a poisoned response with its class 0x04 code. -/
inductive LineRes where
  | data
  | poisoned (code : Nat)
  deriving DecidableEq, Repr

/-- R526 for a line whose stored symbols the code found clean or corrected. -/
def resolveLine (s : State) (lineKey : Nat) : LineRes :=
  let m := s.mark lineKey
  if m.epoch ≠ s.epoch (lineKey / 2 ^ 24) (lineKey / 2 ^ 21 % 8) then .poisoned 0x0403
  else match m.tag with
    | .valid => .data
    | .lost => .poisoned 0x0403
    | .poisoned => .poisoned 0x0404

/-- The answer to a read of `n` bytes: the bytes, or a poisoned response with its code (0 for all-zero data, R527). -/
inductive MemRes where
  | data (bs : List Byte)
  | poisoned (code : Nat)
  deriving DecidableEq, Repr

/-- The answer to a read of one byte of DRAM, by R523, R533, R535, R526 in that order. A channel that is not in service
(frozen, recovering, retired, or still fenced before service) answers MEM_FROZEN; a parked channel's data is served. -/
def readCell (s : State) (addr : Nat) : Except Nat Byte :=
  match mapAddr s addr with
  | none => .error 0x0406
  | some p =>
    let st := s.chSt p.1
    if st = 2 ∨ st = 6 then
      match resolveLine s (cellKey p / 128) with
      | .data => .ok (s.cell (cellKey p))
      | .poisoned c => .error c
    else .error 0x0402

/-- The bytes of a list of answers, or the first poisoned one. -/
def gather : List (Except Nat Byte) → MemRes
  | [] => .data []
  | .ok b :: xs =>
    match gather xs with
    | .data bs => .data (b :: bs)
    | .poisoned c => .poisoned c
  | .error c :: _ => .poisoned c

/-- `n` bytes of committed DRAM content from a device address. -/
def readDram (s : State) (addr n : Nat) : MemRes := gather ((List.range n).map (fun i => readCell s (addr + i)))

/-- `n` bytes, or none when the read is poisoned. -/
def readBytes (s : State) (addr n : Nat) : Option (List Byte) :=
  match readDram s addr n with
  | .data bs => some bs
  | .poisoned _ => none

/-- The bytes of a partial line put over a line's content. -/
def putBytes (s : State) (key : Nat) : List (Option Byte) → State
  | [] => s
  | none :: bs => putBytes s (key + 1) bs
  | some b :: bs => putBytes (s.setCell key b) (key + 1) bs

/-- R667: 128 bytes written to a line, none where the mask leaves a byte. A whole line becomes VALID with the current epoch; a partial
one merges as a read would resolve the line. -/
def writeLine (s : State) (lineKey : Nat) (bs : List (Option Byte)) : State :=
  let ep := s.epoch (lineKey / 2 ^ 24) (lineKey / 2 ^ 21 % 8)
  if bs.all Option.isSome then (putBytes s (lineKey * 128) bs).setMark lineKey ⟨.valid, ep⟩
  else match resolveLine s lineKey with
    | .data => putBytes s (lineKey * 128) bs
    | .poisoned c => if c = 0x0404 then s else s.setMark lineKey ⟨.lost, ep⟩

/-- The line's 128 bytes with a run of bytes at an offset, none elsewhere. -/
def spanLine (off : Nat) (bs : List Byte) : List (Option Byte) :=
  List.replicate off none ++ bs.map some ++ List.replicate (128 - off - bs.length) none

/-- A line written while memory is parked stays in the cache till a write-back wakes memory (R541). -/
def parkedWrite (s : State) (lineKey : Nat) : State :=
  { s with mem := { s.mem with parkLines := s.mem.parkLines.filter (fun x => decide (x ≠ lineKey)) ++ [lineKey] } }

/-- A write of one line's bytes to committed DRAM at a device address: unbacked addresses are counted (R523), a channel in freeze keeps
the line until it returns (R533 point 3), a retired one drops it. -/
def writeDramLine (s : State) (lineAddr : Nat) (bs : List (Option Byte)) : State :=
  match mapAddr s lineAddr with
  | none => s.bump Reg.devMemunbk 1
  | some p =>
    let st := s.chSt p.1
    if st = 2 then writeLine s (cellKey p / 128) bs
    else if st = 6 then parkedWrite (writeLine s (cellKey p / 128) bs) (cellKey p / 128)
    else if st = 3 ∨ st = 4 then { s with mem := { s.mem with held := s.mem.held ++ [⟨cellKey p / 128, bs, false⟩] } }
    else s

/-- A line of DRAM written back as poisoned (R484); one whose channel is in freeze, when the channel returns (R533 point 3). -/
def poisonLine (s : State) (line : Nat) : State :=
  match mapAddr s (line * 128) with
  | none => s
  | some p =>
    let key := cellKey p / 128
    let st := s.chSt p.1
    if st = 3 ∨ st = 4 then
      { s with mem := { s.mem with held := s.mem.held.map (fun x => if x.line = key then { x with poisoned := true } else x) } }
    else s.setMark key ⟨.poisoned, s.epoch p.1 (p.2 / 2 ^ 28)⟩

/-- A run of bytes written to committed DRAM, line by line. -/
def writeDramGo : Nat → State → Nat → List Byte → State
  | 0, s, _, _ => s
  | n + 1, s, addr, bs =>
    match bs with
    | [] => s
    | _ =>
      let off := addr % 128
      let k := min (128 - off) bs.length
      writeDramGo n (writeDramLine s (addr - off) (spanLine off (bs.take k))) (addr + k) (bs.drop k)

/-- A run of bytes written to committed DRAM. -/
def writeDram (s : State) (addr : Nat) (bs : List Byte) : State := writeDramGo (bs.length + addr % 128) s addr bs

/-! ## Epochs and the scrub (R537-R539) -/

/-- Whether a line key lies in a segment (key 8 h + k). -/
def inSegment (seg lineKey : Nat) : Bool := decide (lineKey / 2 ^ 21 = seg)

/-- A segment scrubbed to its end: every stale line holds LOST with the current epoch, SCRUBPEND clears. -/
def finishSegment (s : State) (h k : Nat) : State :=
  let seg := 8 * h + k
  let ep := s.epoch h k
  let marks := s.mem.marks.filter (fun p => !(inSegment seg p.1 && (decide (p.2.epoch ≠ ep) || decide (p.2 = ⟨.lost, ep⟩))))
  let s1 := { s with mem := { s.mem with
    marks := marks, segBase := sput ⟨.valid, 0⟩ s.mem.segBase seg ⟨.lost, ep⟩, advances := sput 0 s.mem.advances seg 0 } }
  syncScrub (s1.setRegBit (chstat h) (4 + k) false) h

/-- R537: a segment's epoch advances. The advance that would bring the count of advances to 255 waits for a full scrub of the segment. A
scrub under way in the segment starts it again. -/
def advanceEpoch (s : State) (h k : Nat) : State :=
  let seg := 8 * h + k
  let s0 := if 255 ≤ sget 0 s.mem.advances seg + 1 then finishSegment s h k else s
  let s1 := s0.setRegFld (Reg.memcEpoch (h / 4) (h % 4)) (8 * k) 8 ((s0.epoch h k + 1) % 256)
  let s2 := s1.setRegBit (chstat h) (4 + k) true
  let s3 := { s2 with mem := { s2.mem with advances := sput 0 s2.mem.advances seg (sget 0 s2.mem.advances seg + 1) } }
  let ptr := Reg.memcScrubptr (h / 4) (h % 4)
  let s4 := if s3.regFld ptr 0 24 / 2 ^ 21 = k then s3.setRegFld ptr 0 24 (k * 2 ^ 21) else s3
  syncScrub s4 h

/-- Every epoch of a channel advances (R539). -/
def advanceChannel (s : State) (h : Nat) : State := (List.range 8).foldl (fun s k => advanceEpoch s h k) s

/-- The segment the scrub works on next: the pointer's own while it is pending, otherwise the first pending one. -/
def scrubSegment (s : State) (h : Nat) : Option Nat :=
  let k := s.regFld (Reg.memcScrubptr (h / 4) (h % 4)) 0 24 / 2 ^ 21
  if s.scrubPend h k then some k else (List.range 8).find? (fun j => s.scrubPend h j)

/-- SCRUB_LINE (R538, R526): one line of a pending segment is read and resolved: left or rewritten corrected when it is current and readable,
otherwise written LOST with the current epoch. -/
def execScrubLine (ch : Fin 64) (ecc : Ecc) (s : State) : Out :=
  let h := ch.val
  if s.chSt h ≠ 2 then .next s
  else match scrubSegment s h with
    | none => .next s
    | some k =>
      let ptr := Reg.memcScrubptr (h / 4) (h % 4)
      let p := s.regFld ptr 0 24
      let line := if p / 2 ^ 21 = k then p else k * 2 ^ 21
      let key := h * 2 ^ 24 + line
      let ep := s.epoch h k
      let s0 := match ecc with
        | .clean => s
        | .corrected => s.bump (Reg.memcCorr (h / 4) (h % 4)) 1
        | .uncorrectable => (s.bump (Reg.memcUnc (h / 4) (h % 4)) 1).bump (Reg.memcLost (h / 4) (h % 4)) 1
      let keep := decide (ecc ≠ .uncorrectable) && decide ((s.mark key).epoch = ep)
      let s1 := if keep then s0 else s0.setMark key ⟨.lost, ep⟩
      let s2 := s1.setRegFld ptr 0 24 ((line + 1) % 2 ^ 24)
      .next (if line % 2 ^ 21 = 2 ^ 21 - 1 then finishSegment s2 h k else s2)

/-! ## Freeze and recovery (R532-R536) -/

/-- A freeze resets its channel under R534 (R552 source 14): the channel's domain is in progress till the channel is in SERVICE or RETIRED. -/
def freezeDomain (s : State) (h : Nat) : State :=
  if inReset s (5, h) then s.logReset 0x0909 5 h
  else
    let s1 := recordCause s 5 h 14
    { s1 with rst := { s1.rst with domains := s1.rst.domains ++ [⟨5, h, 14, s1.now, false, false, 0, []⟩] } }

/-- The cached lines of crucible k that a test picks invalidated. -/
def dropCached (s : State) (k : Nat) (p : Nat → Bool) : State :=
  { s with cache := s.cache.filter (fun e => !(decide (e.1 / 32768 / 24 = k) && p (e.2 - 1))) }

/-- Whether something is staged in a line, combine targets among it (R482, R491). -/
def lineStaged (s : State) (line : Nat) : Bool :=
  s.mem.staged.any (fun p => p.2.any (fun q => decide (q.1 / 128 = line))) ||
    s.fab.comb.any (fun x => decide (x.base / 128 ≤ line) && decide (line * 128 < x.base + 32 + x.rows * 2048))

/-- R533 point 2: the committed cached lines of a channel are invalid. -/
def dropChannel (s : State) (h : Nat) : State :=
  dropCached s (h / 16) (fun l => decide ((mapAddr s (128 * l)).map (·.1) = some h) && !lineStaged s l)

/-- R534 step 4: Lehr A fences the controller of a frozen channel: the outstanding entries whose address it holds complete with MEM_FROZEN. -/
def fenceController (s : State) (h : Nat) : State :=
  fenceEntries s (.channel (Fin.ofNat 64 h)) 0x0402 (fun e => e.targets.contains (.channel (Fin.ofNat 64 h)))

/-- R532-R534: a controller freezes its channel: cause (1 DATA, 2 CMD, 3 PHY), the failing line, the capture and the event; its cached lines are invalid,
and its outstanding requests complete. -/
def freezeChannel (s : State) (h cause line : Nat) (info : FreezeInfo) : State :=
  let site := h / 4
  let l := h % 4
  let c := setFld (setFld (setFld 0#64 0 4 cause) 8 24 line) 32 32 info.syndrome.toNat
  let q := setFld (setFld (setFld (setFld 0#64 0 10 info.rdq.toNat) 10 10 info.wrq.toNat) 20 8 info.lastCmd.toNat) 32 32
    info.frzLost.toNat
  let s1 := ((s.setReg (Reg.memcFrzcause site l) c).setReg (Reg.memcFrztime site l) (BitVec.ofNat 64 s.now)).setReg (Reg.memcFrzq site l) q
  let s2 := (s1.setChSt h 3).bumpSat (chstat h) 12 4
  fenceController (dropChannel (freezeDomain ((syncScrub s2 h).logMemc (0x0406 + cause) h) h) h) h

/-- A freeze that meets a channel in SERVICE, or in self-refresh for a PHY cause (R536). -/
def freezeIf (s : State) (h cause line : Nat) (info : FreezeInfo) : State :=
  if s.chSt h = 2 ∨ (s.chSt h = 6 ∧ cause = 3) then freezeChannel s h cause line info else s

/-- CA_PARITY_ERROR (R532 CMD). -/
def execCaParityError (ch : Fin 64) (info : FreezeInfo) (t : Nat) (s : State) : Out :=
  .next (freezeIf (s.at t) ch.val 2 0 info)

/-- PHY_LOCK_LOSS (R532 PHY, R536). -/
def execPhyLockLoss (ch : Fin 64) (info : FreezeInfo) (t : Nat) (s : State) : Out :=
  .next (freezeIf (s.at t) ch.val 3 0 info)

/-- R535: a channel retires: CHAN_RETIRED, the capacity recomputed; lines held for it are lost. -/
def retireChannel (s : State) (h : Nat) : State :=
  let s1 := (s.setChSt h 5).logMemc 0x040B h
  let s2 := { s1 with mem := { s1.mem with held := s1.mem.held.filter (fun x => decide (x.line / 2 ^ 24 ≠ h)) } }
  releaseDomains (recomputeCaps s2)

/-- R534: the hold of a frozen channel ends: recovery, or retirement once NFRZ has reached FRZMAX (0 acts as 1). -/
def endFreezeHold (s : State) (h : Nat) : State :=
  if s.chSt h ≠ 3 then s
  else if max 1 (s.regFld Reg.devMemctl 16 4) ≤ s.regFld (chstat h) 12 4 then retireChannel s h
  else s.setChSt h 4

/-- FRZACK (R534 step 5, R547): only Gaffer firmware writes the MEMC registers. -/
def execFrzack (who : Ident) (ch : Fin 64) (t : Nat) (s : State) : Out :=
  let s := s.at t
  if who.val ≠ 16 then .next s else .next (endFreezeHold s ch.val)

/-- FRZHOLD in ns; above 30,000 microseconds it acts as 30,000 (R534). -/
def State.frzhold (s : State) : Nat := min 30000 (s.regFld Reg.devMemctl 0 16) * 1000

/-- FRZHOLD_TIMEOUT (R534 step 5). -/
def execFrzholdTimeout (ch : Fin 64) (t : Nat) (s : State) : Out :=
  let s := s.at t
  let h := ch.val
  if s.now < (s.reg (Reg.memcFrztime (h / 4) (h % 4))).toNat + s.frzhold then .next s
  else .next (endFreezeHold s h)

/-- The staging flips held for a channel land as it returns to service (R533 point 3). -/
def landHeld (s : State) (h : Nat) : State :=
  let mine := s.mem.held.filter (fun x => decide (x.line / 2 ^ 24 = h))
  let s1 := { s with mem := { s.mem with held := s.mem.held.filter (fun x => decide (x.line / 2 ^ 24 ≠ h)) } }
  mine.foldl (fun s x =>
    let s2 := writeLine s x.line x.bytes
    if x.poisoned then s2.setMark x.line ⟨.poisoned, s2.epoch h (x.line / 2 ^ 21 % 8)⟩ else s2) s1

/-- R534 step 7, R536: a channel goes to SERVICE; one that recovers advances its epochs, releases the fence and logs CHAN_RECOVERED. -/
def toService (s : State) (h : Nat) : State :=
  if s.chSt h = 4 then
    let s1 := syncScrub (advanceChannel (s.setChSt h 2) h) h
    releaseDomains (releaseTarget (landHeld (s1.logMemc 0x040A h) h) (.channel (Fin.ofNat 64 h)))
  else releaseDomains (syncScrub (s.setChSt h 2) h)

/-- TRAIN_FAIL and retirement of a channel in training (R536, R542). -/
def failTraining (s : State) (h : Nat) : State := retireChannel (s.logMemc 0x040C h) h

/-- GOSERVICE (R534, R536, R547): no later than 20.1 ms after RECOVERING was entered, or 300 ms after the reset in TRAINING; later the
channel is retired. -/
def execGoservice (who : Ident) (ch : Fin 64) (t : Nat) (s : State) : Out :=
  let s := s.at t
  let h := ch.val
  let e := sget 0 s.mem.entered h
  if who.val ≠ 16 then .next s
  else if s.chSt h = 1 then .next (if e + 300000000 < s.now then failTraining s h else toService s h)
  else if s.chSt h = 4 then .next (if e + 20100000 < s.now then retireChannel s h else toService s h)
  else .next s

/-- RETIRE (R536, R547): no effect outside TRAINING and RECOVERING. -/
def execRetire (who : Ident) (ch : Fin 64) (s : State) : Out :=
  let h := ch.val
  if who.val ≠ 16 then .next s
  else if s.chSt h = 1 then .next (failTraining s h)
  else if s.chSt h = 4 then .next (retireChannel s h)
  else .next s

/-- RECOVERY_TIMEOUT (R536): more than 20.1 ms in RECOVERING without GOSERVICE. -/
def execRecoveryTimeout (ch : Fin 64) (t : Nat) (s : State) : Out :=
  let s := s.at t
  if s.chSt ch.val = 4 ∧ sget 0 s.mem.entered ch.val + 20100000 < s.now then .next (retireChannel s ch.val) else .next s

/-- TRAINING_TIMEOUT (R536): no GOSERVICE within 300 ms of the reset. -/
def execTrainingTimeout (ch : Fin 64) (t : Nat) (s : State) : Out :=
  let s := s.at t
  if s.chSt ch.val = 1 ∧ sget 0 s.mem.entered ch.val + 300000000 < s.now then .next (failTraining s ch.val) else .next s

/-! ## Refresh (R528-R530) -/

/-- The refresh interval in force: INTERVAL, or half of it while HOT is in force (R528, R529). -/
def refreshP (s : State) : Nat := if s.mem.hotForce then fld s.mem.refForce 0 13 / 2 else fld s.mem.refForce 0 13

/-- The stall window in force (R528). -/
def stallNs (s : State) : Nat := fld s.mem.refForce 16 9 + 35

/-- DEV_MEMSTAT.STALL shows the stall window in force. DESIGN CHOICE: R546 gives the field 9 bits, and of a window above 511 ns it shows the low 9. -/
def showStall (s : State) : State := s.setRegFld Reg.devMemstat 16 9 (stallNs s)

/-- Whether a time is a point of a grid (R528). -/
def onGrid (t ph p : Nat) : Bool := decide (((t : Int) - (ph : Int)) % (p : Int) = 0)

/-- REFRESH_POINT (R528-R530): a pending MEMREF and a pending HOT take effect, and every channel in SERVICE opens its stall window. -/
def execRefreshPoint (t : Nat) (s : State) : Out :=
  let ph := fld s.mem.refForce 32 32
  if !onGrid t ph (refreshP s) || s.regBit Reg.devMemstat 1 then .next s
  else
    let s1 := s.at t
    let changed := decide (s1.reg Reg.devMemref ≠ s1.mem.refForce)
    let full := onGrid t ph (fld s.mem.refForce 0 13)
    let hot := if full then s1.regBit Reg.devMemstat 0 else s1.mem.hotForce
    let s2 := { s1 with mem := { s1.mem with
      hotForce := hot, stallUntil := some (t + stallNs s1), refForce := s1.reg Reg.devMemref } }
    .next (if changed then recomputeCaps (showStall s2) else s2)

/-- STALL_WINDOW_END (R528). -/
def execStallWindowEnd (t : Nat) (s : State) : Out :=
  match s.mem.stallUntil with
  | none => .next s
  | some u => if t < u then .next s else
    let s1 := s.at t
    .next { s1 with mem := { s1.mem with stallUntil := none } }

/-- R530: whether a MEMREF value is accepted. -/
def memrefOk (v : Nat) : Bool :=
  let i := bitsOf v 0 13
  let r := bitsOf v 16 9
  decide (i % 2 = 0) && decide (1000 ≤ i) && decide (i ≤ 4638) && decide (240 ≤ r) && decide (r + 35 < i / 2)

/-- MEMREF_WRITE (R530, R545): range-checked; takes effect at the next refresh point. -/
def execMemrefWrite (who : Ident) (v : BitVec 64) (s : State) : Out :=
  if !mgmt who then .next s
  else if memrefOk v.toNat then
    .next (s.setReg Reg.devMemref (setFld (setFld (setFld 0#64 0 13 (bitsOf v.toNat 0 13)) 16 9 (bitsOf v.toNat 16 9)) 32 32 (bitsOf v.toNat 32 32)))
  else .next (s.setRegBit Reg.devMemstat 5 true)

/-- The site with the highest reported temperature (the lowest site on a tie), and that temperature. -/
def hottest (s : State) : Option (Nat × Int) :=
  (List.range 16).foldl (fun (best : Option (Nat × Int)) site =>
    if s.regBit (Reg.memcTemp site) 8 then
      let v := signedOf (s.regFld (Reg.memcTemp site) 0 8) 8
      match best with
      | some (b, w) => if w < v then some (site, v) else some (b, w)
      | none => some (site, v)
    else best) none

/-- THERM_MEMLIM fields with their ranges (R643). -/
def State.memHot (s : State) : Nat := clampNat 90 104 (s.regFld Reg.thermMemlim 0 8)
/-- MEMTRIP (R643). -/
def State.memTrip (s : State) : Nat := clampNat 100 105 (s.regFld Reg.thermMemlim 8 8)
/-- MEMREL (R643). -/
def State.memRel (s : State) : Nat := clampNat 80 100 (s.regFld Reg.thermMemlim 16 8)

/-- R629: a stack's temperature against THERM_MEMLIM: throttling of its crucible's scheduler, and the trip of its crucible. -/
def stackLimits (s : State) (site : Nat) (ts : Int) : State :=
  let k := site / 4
  let s1 := if (s.memHot : Int) ≤ ts then
      if s.therm.memThrottled.contains site then s
      else ({ s with therm := { s.therm with memThrottled := s.therm.memThrottled ++ [site] } }).logTherm 0x0A09 (0x80 + site)
    else if ts < (s.memHot : Int) - 3 then
      { s with therm := { s.therm with memThrottled := s.therm.memThrottled.filter (fun x => decide (x ≠ site)) } }
    else s
  let s2 := s1.setRegBit Reg.thermStat 5 (decide (s1.therm.memThrottled ≠ []))
  if (s2.memTrip : Int) ≤ ts then tripCrucible ((s2.bumpSat (Reg.thermUnit (108 + k)) 48 16).logTherm 0x0A02 (0x80 + site)) k site
  else if ts < (s2.memRel : Int) then dropHolder s2 k site
  else s2

/-- STACK_TEMP_REPORT (R529, R629): the stack's temperature, the hottest of all, HOT, and what R629 does with it. -/
def execStackTempReport (site : Fin 16) (temp : BitVec 8) (t : Nat) (s : State) : Out :=
  let s := s.at t
  let s1 := s.setReg (Reg.memcTemp site.val) (setBit (setFld 0#64 0 8 temp.toNat) 8 true)
  match hottest s1 with
  | none => .next s1
  | some (m, v) =>
    let s2 := s1.setReg Reg.devMemtemp (setFld (setFld 0#64 0 8 (wrapInt v 8)) 8 4 m)
    let s3 := if 85 < v then s2.setRegBit Reg.devMemstat 0 true
      else if v ≤ 82 then s2.setRegBit Reg.devMemstat 0 false else s2
    .next (stackLimits s3 site.val (signedOf temp.toNat 8))

/-! ## Installing a map (R522-R524) -/

/-- A pending range (the register pair). -/
def pendA (s : State) (n : Nat) : Word := s.reg (Reg.devMemmapa n)
/-- The channel set of a pending range. -/
def pendM (s : State) (n : Nat) : Word := s.reg (Reg.devMemmapm n)

/-- The conditions of R522 on one range. -/
def rangeOk (s : State) (a m : Word) : Bool :=
  let n := (maskChannels m).length
  let base := fld a 0 15
  let size := fld a 16 16
  [1, 2, 4, 8, 16, 32, 64].contains n && decide (1 ≤ size) && decide (size % n = 0) && decide (base + size ≤ 32768) &&
    decide (fld a 32 9 + size / n ≤ 512) && decide (fld a 41 4 ≤ 8) && (maskChannels m).all (fun h => decide (s.chSt h ≠ 5))

/-- Whether two half-open spans meet. -/
def spansMeet (a b c d : Nat) : Bool := decide (a < d) && decide (c < b)

/-- Whether two ranges overlap in device address, or in a 4 MiB unit of a channel both use (R522). -/
def rangesClash (a m a' m' : Word) : Bool :=
  let n := (maskChannels m).length
  let n' := (maskChannels m').length
  spansMeet (fld a 0 15) (fld a 0 15 + fld a 16 16) (fld a' 0 15) (fld a' 0 15 + fld a' 16 16) ||
  ((maskChannels m).any (fun h => bitAt m' h) &&
    spansMeet (fld a 32 9) (fld a 32 9 + fld a 16 16 / n) (fld a' 32 9) (fld a' 32 9 + fld a' 16 16 / n'))

/-- R522: whether the pending map is valid. -/
def pendingMapValid (s : State) : Bool :=
  let ns := (List.range 16).filter (fun n => bitAt (pendA s n) 47)
  ns.all (fun n => rangeOk s (pendA s n) (pendM s n)) &&
  ns.all (fun n => ns.all (fun j => decide (j ≤ n) || !rangesClash (pendA s n) (pendM s n) (pendA s j) (pendM s j)))

/-- Whether every stream is disabled (MARVER_SCFGs.EN, R524, R541). -/
def streamsOff (s : State) : Bool := (List.range 64).all (fun i => !s.regBit (Reg.marverScfg i) 0)

/-- APPLY (R524, R545): accepted only under R524's conditions; otherwise MAPREF is set. -/
def execMapApply (who : Ident) (s : State) : Out :=
  if !mgmt who then .next s
  else if pendingMapValid s && decide (s.regFld Reg.devSbstat 0 14 = 0) && streamsOff s &&
      !s.regBit Reg.devMemstat 1 && !s.regBit Reg.devMemstat 2 then .next (s.setRegBit Reg.devMemstat 2 true)
  else .next (s.setRegBit Reg.devMemstat 3 true)

/-- The device addresses that a 4 MiB unit of a channel holds under a map (R521): the first one, the number of channels of the set, and the grain, which
does not matter where the set is one channel; none when the unit is not covered. Two maps give the unit the same addresses when this agrees. -/
def unitUse (ra rm : Nat → Word) (h unit : Nat) : Option (Nat × Nat × Nat) :=
  match (List.range 16).find? (fun n =>
      let a := ra n
      bitAt a 47 && bitAt (rm n) h && decide (fld a 32 9 ≤ unit) &&
        decide (unit < fld a 32 9 + fld a 16 16 / (maskChannels (rm n)).length)) with
  | some n =>
    let chans := maskChannels (rm n)
    let g := 256 * 2 ^ fld (ra n) 41 4
    let loc := (unit - fld (ra n) 32 9) * 2 ^ 22
    some (fld (ra n) 0 15 * 2 ^ 22 + (loc / g * chans.length + chans.findIdx (fun c => decide (c = h))) * g, chans.length,
      if chans.length = 1 then 0 else g)
  | none => none

/-- R524: whether a segment contains a moved unit. -/
def segmentMoved (s : State) (h k : Nat) : Bool :=
  (List.range 64).any (fun i => decide (unitUse (rangeA s) (rangeM s) h (64 * k + i) ≠ unitUse (pendA s) (pendM s) h (64 * k + i)))

/-- The segments of every channel. -/
def allSegments : List (Nat × Nat) := (List.range 64).flatMap (fun h => (List.range 8).map (fun k => (h, k)))

/-- Whether DRAM requests are held because a map is being installed (R524 step 1). -/
def mapHolds (s : State) : Bool := s.regBit Reg.devMemstat 2

/-- MAP_APPLY_DONE (R524 steps 1 to 4): once the spill copies have run to completion, every crucible performs CLEAN_INV, moved segments advance their
epochs, the new map is in force, MAPBUSY clears. -/
def execMapApplyDone (s : State) : Out :=
  if !mapHolds s ∨ s.bench.spillCopies ≠ [] then .next s
  else
    let moved := allSegments.filter (fun p => segmentMoved s p.1 p.2)
    let s0 := (List.range 4).foldl (fun u k => dropCached u k (fun l => !lineStaged u l)) s
    let s1 := moved.foldl (fun s p => advanceEpoch s p.1 p.2) s0
    let newA := (List.range 16).foldl (fun m n => sput (regReset (Reg.devMemmapa n)) m n (pendA s n)) s.mem.mapA
    let newM := (List.range 16).foldl (fun m n => sput (regReset (Reg.devMemmapm n)) m n (pendM s n)) s.mem.mapM
    .next (({ s1 with mem := { s1.mem with mapA := newA, mapM := newM } }).setRegBit Reg.devMemstat 2 false)

/-! ## Parking (R541) -/

/-- PARK (R541, R545): a write of DEV_MEMPWR with PARK = 1. DESIGN CHOICE: one taken while memory is already parked is accepted and kept in the register,
and the park in force, with its mask, stays as it is. -/
def execPark (who : Ident) (mask : BitVec 8) (s : State) : Out :=
  if !mgmt who then .next s
  else if decide (s.regFld Reg.devSbstat 0 14 = 0) && streamsOff s && !s.regBit Reg.devMemstat 2 then
    let s1 := s.setReg Reg.devMempwr (setFld (setBit 0#64 0 true) 8 8 mask.toNat)
    .next (if s.regBit Reg.devMemstat 1 then s1 else { s1 with mem := { s1.mem with parking := true } })
  else .next (s.setRegBit Reg.devMemstat 4 true)

/-- PARK_DONE (R541 steps 1 to 3): the spill copies are complete, and every channel in SERVICE is in self-refresh. A masked segment with SCRUBPEND set
stays refreshed and sets PASRSKIP. -/
def execParkDone (s : State) : Out :=
  if !s.mem.parking ∨ s.bench.spillCopies ≠ [] then .next s
  else
    let mask := s.regFld Reg.devMempwr 8 8
    let chans := (List.range 64).filter (fun h => decide (s.chSt h = 2))
    let skipped := chans.any (fun h => (List.range 8).any (fun k => decide (mask / 2 ^ k % 2 = 1) && s.scrubPend h k))
    let s1 := chans.foldl (fun s h => syncScrub (s.setChSt h 6) h) s
    let s2 := { s1 with mem := { s1.mem with parking := false, maskForce := mask, stallUntil := none } }
    let s3 := s2.setRegBit Reg.devMemstat 1 true
    .next (if skipped then s3.setRegBit Reg.devMemstat 6 true else s3)

/-- The lines written while memory was parked hold their data in the cache: they are written back with the epoch in force after the wake (R541, R667). -/
def keepParked (s : State) : State :=
  let s1 := s.mem.parkLines.foldl (fun u key =>
    match u.mark key with
    | ⟨tag, _⟩ => u.setMark key ⟨tag, u.epoch (key / 2 ^ 24) (key / 2 ^ 21 % 8)⟩) s
  { s1 with mem := { s1.mem with parkLines := [] } }

/-- R541: memory wakes: the epoch of every masked segment that was left unrefreshed advances, PARKED and PARK become 0. -/
def wakeMemory (s : State) : State :=
  let chans := (List.range 64).filter (fun h => decide (s.chSt h = 6))
  let s1 := chans.foldl (fun s h => s.setChSt h 2) s
  let segs := chans.flatMap (fun h => ((List.range 8).filter (fun k =>
    decide (s.mem.maskForce / 2 ^ k % 2 = 1) && !s.scrubPend h k)).map (fun k => (h, k)))
  let s2 := segs.foldl (fun s p => advanceEpoch s p.1 p.2) s1
  let s3 := chans.foldl syncScrub (keepParked s2)
  ((s3.setRegBit Reg.devMemstat 1 false).setRegBit Reg.devMempwr 0 false)

/-- A fill, a write-back or a spill of a parked channel wakes memory (R541). -/
def awake (s : State) (h : Nat) : State := if s.chSt h = 6 then wakeMemory s else s

/-- A parked memory is woken (R541). -/
def wakeParked (s : State) : State := if s.regBit Reg.devMemstat 1 then wakeMemory s else s

/-- WAKE (R541): a fill, a write-back, a spill, or a write of PARK = 0. -/
def execWake (s : State) : Out := if s.regBit Reg.devMemstat 1 then .next (wakeMemory s) else .next s

/-! ## Training (R542-R544) -/

/-- The delay or reference that MEMC_TDSELl of channel h selects. -/
def delayKey (s : State) (h : Nat) : Nat :=
  h * 2 ^ 10 + s.regFld (Reg.memcTdsel (h / 4) (h % 4)) 8 4 * 64 + s.regFld (Reg.memcTdsel (h / 4) (h % 4)) 0 6

/-- MEMC_TDVALl shows the selected value. -/
def syncDelay (s : State) (h : Nat) : State :=
  s.setReg (Reg.memcTdval (h / 4) (h % 4)) (BitVec.ofNat 64 (sget 0 s.mem.delays (delayKey s h)))

/-- Whether the helpers of a channel act: TRAINING or RECOVERING, and no command running (R544). -/
def helperReady (s : State) (h : Nat) : Bool :=
  (decide (s.chSt h = 1) || decide (s.chSt h = 4)) && !s.regBit (Reg.memcTres (h / 4) (h % 4)) 31

/-- The lines a helper command writes, with the generator's bytes (R544): `n` lines from a line. -/
def helperLines : Nat → State → Nat → Nat → State
  | 0, s, _, _ => s
  | n + 1, s, h, line =>
    let pat := (s.reg (Reg.memcTpat (h / 4) (h % 4))).toNat
    let fix := (s.reg (Reg.memcTfix (h / 4) (h % 4))).toNat
    let bs := (List.range 128).map (fun i => some (Config.trainByte h pat fix line i))
    helperLines n (writeLine s (h * 2 ^ 24 + line) bs) h ((line + 1) % 2 ^ 24)

/-- R544: a write of MEMC_TCMDl: BUSY set and the lines of a writing OP written, or REFUSED set. Only Gaffer firmware writes it. -/
def helperStart (who : Ident) (h : Nat) (writes : Bool) (line count : Nat) (s : State) : State :=
  let r := Reg.memcTres (h / 4) (h % 4)
  if who.val ≠ 16 then s
  else if helperReady s h then
    let s1 := s.setReg r (setBit 0#64 31 true)
    if writes then helperLines count s1 h line else s1
  else s.setRegBit r 30 true

/-- TRAIN_WRITE (R544, OP 1). -/
def execTrainWrite (who : Ident) (ch : Fin 64) (line countm1 : BitVec 24) (s : State) : Out :=
  .next (helperStart who ch.val true line.toNat (countm1.toNat + 1) s)
/-- TRAIN_READ_COMPARE (R544, OP 2); its outcome comes with TRAIN_CMD_DONE. -/
def execTrainReadCompare (who : Ident) (ch : Fin 64) (line countm1 : BitVec 24) (s : State) : Out :=
  .next (helperStart who ch.val false line.toNat (countm1.toNat + 1) s)
/-- TRAIN_CA_LOOP (R544, OP 3). -/
def execTrainCaLoop (who : Ident) (ch : Fin 64) (line countm1 : BitVec 24) (s : State) : Out :=
  .next (helperStart who ch.val false line.toNat (countm1.toNat + 1) s)
/-- TRAIN_WRITE_READ (R544, OP 4). -/
def execTrainWriteRead (who : Ident) (ch : Fin 64) (line countm1 : BitVec 24) (s : State) : Out :=
  .next (helperStart who ch.val true line.toNat (countm1.toNat + 1) s)

/-- TRAIN_CMD_DONE (R544): a helper command completes with what its comparisons found. -/
def execTrainCmdDone (ch : Fin 64) (dqFail : BitVec 24) (caFail : Bool) (errs : BitVec 32) (s : State) : Out :=
  let r := Reg.memcTres (ch.val / 4) (ch.val % 4)
  if !s.regBit r 31 then .next s
  else .next (s.setReg r (setFld (setBit (setFld 0#64 0 24 dqFail.toNat) 28 caFail) 32 32 errs.toNat))

/-- ZQ_CALIBRATION_DONE (R542 step 1): the calibrated impedance is electrical and shows in no register. -/
def execZqCalibrationDone (_ch : Fin 64) (s : State) : Out := .next s

/-- MEMORY_FILL_DONE (R542 step 6): every line of a channel in training holds zero data, TAG VALID and epoch 0. -/
def execMemoryFillDone (ch : Fin 64) (s : State) : Out :=
  let h := ch.val
  if s.chSt h ≠ 1 then .next s
  else
    let s1 := { s with mem := { s.mem with
      bytes := sclear (fun a => decide (a / 2 ^ 31 = h)) s.mem.bytes
      marks := sclear (fun a => decide (a / 2 ^ 24 = h)) s.mem.marks
      segBase := sclear (fun a => decide (a / 8 = h)) s.mem.segBase
      advances := sclear (fun a => decide (a / 8 = h)) s.mem.advances } }
    let s2 := s1.setReg (Reg.memcEpoch (h / 4) (h % 4)) 0#64
    .next ((s2.setRegFld (chstat h) 4 8 0).setReg (Reg.memcScrubptr (h / 4) (h % 4)) 0#64)

/-- MEMC_EVLOG_READ (R548). -/
def execMemcEvlogRead (site : Fin 16) (s : State) : Out :=
  let l := sget EvLog.empty s.mem.logs site.val
  .next { s with readData := l.head, mem := { s.mem with logs := sput EvLog.empty s.mem.logs site.val l.pop } }

end Sys2Proof.Machine
end

