-- ==== Sys2Proof/Machine/Flags.lean ====
section
/-! DEFINITION. The arithmetic flags: the four of R62, and the two a drain adds from the accumulators it reads (R125). -/

namespace Sys2Proof.Machine

/-- The flags CORE_AFLAGS collects (R125). -/
structure AFlags where
  inexact : Bool
  sat : Bool
  nan : Bool
  invalid : Bool
  ainex : Bool
  tsat : Bool
  deriving DecidableEq, Repr

/-- No flag. -/
def AFlags.none : AFlags := ⟨false, false, false, false, false, false⟩

/-- INEXACT alone, when a rounding changed the value. -/
def AFlags.ofInexact (b : Bool) : AFlags := ⟨b, false, false, false, false, false⟩

/-- SAT and INEXACT, which every replacement by a finite limit sets (R62). -/
def AFlags.saturated : AFlags := ⟨true, true, false, false, false, false⟩

/-- NAN alone (R62). -/
def AFlags.isNan : AFlags := ⟨false, false, true, false, false, false⟩

/-- INVALID alone. -/
def AFlags.isInvalid : AFlags := ⟨false, false, false, true, false, false⟩

/-- INVALID and NAN (R62, last but one boundary case). -/
def AFlags.invalidNan : AFlags := ⟨false, false, true, true, false, false⟩

/-- The flags of two operations together. -/
def AFlags.or (a b : AFlags) : AFlags :=
  ⟨a.inexact || b.inexact, a.sat || b.sat, a.nan || b.nan, a.invalid || b.invalid, a.ainex || b.ainex, a.tsat || b.tsat⟩

/-- The flags of a list of operations together. -/
def AFlags.all (l : List AFlags) : AFlags := l.foldl AFlags.or AFlags.none

/-- The flags as the bits of CORE_AFLAGS (R125). -/
def AFlags.word (f : AFlags) : Nat :=
  f.inexact.toNat + 2 * f.sat.toNat + 4 * f.nan.toNat + 8 * f.invalid.toNat + 16 * f.ainex.toNat + 32 * f.tsat.toNat

end Sys2Proof.Machine
end

