-- ==== Sys2Proof/Machine/Numerics.lean ====
section
/-! DEFINITION. Number formats and exact arithmetic (R45-R81): the value of every encoding, the one rounding, conversions,
the FP32 and INT32 operations, FP32e and the array's terms. Encodings are natural numbers of their format's width. -/

namespace Sys2Proof.Machine

/-! ## Values -/

/-- The exact value of an encoding: a NaN, an infinity, or (-1)^neg × m × 2^e with the sign of zero kept (R49). -/
inductive Num where
  | nan
  | inf (neg : Bool)
  | fin (neg : Bool) (m : Nat) (e : Int)
  deriving DecidableEq, Repr

/-- A floating-point layout (R48, R53): field widths, bias, the largest finite magnitude encoding, and the encodings of
infinity and of the canonical NaN where the format has them. -/
structure FltFmt where
  ebits : Nat
  mbits : Nat
  bias : Nat
  maxEnc : Nat
  infEnc : Option Nat
  nanEnc : Option Nat
  deriving DecidableEq, Repr

/-- The layout of FP32 (R48). -/
def fp32Fmt : FltFmt := ⟨8, 23, 127, 0x7F7FFFFF, some 0x7F800000, some 0x7FC00000⟩

/-- The layout of UE5M3 read as a positive float (R53). -/
def ue5m3Fmt : FltFmt := ⟨5, 3, 15, 0xFE, none, some 0xFF⟩

/-- The layout of FP32e (R74), which no operation overflows. -/
def fp32eFmt : FltFmt := ⟨10, 23, 511, 0x1FFFFFFFF, none, none⟩

/-- The layout of a float format code (R45, R48); FP32 for any other code. -/
def fltFmt (code : Nat) : FltFmt :=
  match code with
  | 0x4 => ⟨2, 1, 1, 0x7, none, none⟩
  | 0x5 => ⟨2, 3, 1, 0x1F, none, none⟩
  | 0x6 => ⟨3, 2, 3, 0x1F, none, none⟩
  | 0x7 => ⟨4, 3, 7, 0x7E, none, some 0x7F⟩
  | 0x8 => ⟨5, 2, 15, 0x7B, some 0x7C, some 0x7E⟩
  | 0x9 => ⟨8, 7, 127, 0x7F7F, some 0x7F80, some 0x7FC0⟩
  | 0xA => ⟨5, 10, 15, 0x7BFF, some 0x7C00, some 0x7E00⟩
  | _ => fp32Fmt

/-- The width of a format in bits (R45). -/
def fmtWidth (code : Nat) : Nat :=
  match code with
  | 0x0 => 4
  | 0x1 => 8
  | 0x2 => 16
  | 0x3 => 32
  | 0x4 => 4
  | 0x5 => 6
  | 0x6 => 6
  | 0x7 => 8
  | 0x8 => 8
  | 0x9 => 16
  | 0xA => 16
  | 0xB => 32
  | 0xC => 8
  | 0xD => 8
  | _ => 128

/-- Whether a format code names an integer format (R47). -/
def isIntFmt (code : Nat) : Bool := decide (code ≤ 3)

/-- The value of a float's encoding (R49, R51). -/
def decodeFlt (f : FltFmt) (c : Nat) : Num :=
  let mag := c % 2 ^ (f.ebits + f.mbits)
  let neg := decide (c / 2 ^ (f.ebits + f.mbits) % 2 = 1)
  if f.infEnc = some mag then .inf neg
  else if f.infEnc.getD f.maxEnc < mag then .nan
  else
    let e := mag / 2 ^ f.mbits
    let m := mag % 2 ^ f.mbits
    if e = 0 then .fin neg m (1 - f.bias - f.mbits) else .fin neg (2 ^ f.mbits + m) (e - f.bias - f.mbits)

/-- The value of an integer. -/
def numOfInt (v : Int) : Num := .fin (decide (v < 0)) v.natAbs 0

/-- The value of an encoding in the format with a code (R47-R53). -/
def decodeNum (code c : Nat) : Num :=
  if isIntFmt code then numOfInt (signedOf c (fmtWidth code))
  else if code = 0xC then (if c = 0xFF then .nan else .fin false 1 (c - 127))
  else if code = 0xD then (if c = 0xFF then .nan else decodeFlt ue5m3Fmt (c % 256))
  else decodeFlt (fltFmt code) c

/-! ## Rounding (R58-R61) -/

/-- m / 2^k rounded to an integer in a mode of R58 (0 RNE, 1 RTZ, 2 RDN, 3 RUP), and whether that changed the value. -/
def roundShift (mode : Nat) (neg : Bool) (m k : Nat) : Nat × Bool :=
  let k := min k (m.log2 + 2)
  let q := m / 2 ^ k
  let r := m % 2 ^ k
  let up :=
    match mode with
    | 0 => decide (2 ^ k < 2 * r) || (decide (2 * r = 2 ^ k) && decide (q % 2 = 1))
    | 1 => false
    | 2 => neg && decide (r ≠ 0)
    | _ => !neg && decide (r ≠ 0)
  (if up then q + 1 else q, decide (r ≠ 0))

/-- m × 2^e rounded to an integer. -/
def roundToNat (mode : Nat) (neg : Bool) (m : Nat) (e : Int) : Nat × Bool :=
  if 0 ≤ e then (m * 2 ^ e.toNat, false) else roundShift mode neg m (-e).toNat

/-- The magnitude encoding of m × 2^e rounded to a layout, as if its exponents went on for ever, and whether that changed the
value. -/
def roundMag (f : FltFmt) (mode : Nat) (neg : Bool) (m : Nat) (e : Int) : Nat × Bool :=
  if m = 0 then (0, false)
  else
    let qmin : Int := 1 - f.bias - f.mbits
    let q : Int := max (e + m.log2 - f.mbits) qmin
    let r := roundToNat mode neg m (e - q)
    (r.1 + (q - qmin).toNat * 2 ^ f.mbits, r.2)

/-- The sign bit of an encoding of a layout. -/
def signBit (f : FltFmt) (neg : Bool) : Nat := if neg then 2 ^ (f.ebits + f.mbits) else 0

/-- Whether an overflow in a mode goes to infinity (R60, SAT = 0). -/
def overflowsToInf (mode : Nat) (neg : Bool) : Bool :=
  match mode with
  | 0 => true
  | 1 => false
  | 2 => neg
  | _ => !neg

/-- A conversion to a float format (R60). -/
def toFlt (f : FltFmt) (mode : Nat) (sat : Bool) : Num → Nat × AFlags
  | .nan => (f.nanEnc.getD 0, .isNan)
  | .inf neg =>
    match f.infEnc with
    | some i => if sat then (signBit f neg + f.maxEnc, .saturated) else (signBit f neg + i, .none)
    | none => (signBit f neg + f.maxEnc, .saturated)
  | .fin neg m e =>
    let r := roundMag f mode neg m e
    if r.1 ≤ f.maxEnc then (signBit f neg + r.1, .ofInexact r.2)
    else
      match f.infEnc with
      | some i =>
        if !sat && overflowsToInf mode neg then (signBit f neg + i, .ofInexact true)
        else (signBit f neg + f.maxEnc, .saturated)
      | none => (signBit f neg + f.maxEnc, .saturated)

/-- A conversion to a two's-complement integer of a width (R59, R60). -/
def toIntN (w mode : Nat) : Num → Nat × AFlags
  | .nan => (0, .isNan)
  | .inf neg => (if neg then 2 ^ (w - 1) else 2 ^ (w - 1) - 1, .saturated)
  | .fin neg m e =>
    let r := roundToNat mode neg m e
    if neg then
      if 2 ^ (w - 1) < r.1 then (2 ^ (w - 1), .saturated) else ((2 ^ w - r.1) % 2 ^ w, .ofInexact r.2)
    else if 2 ^ (w - 1) - 1 < r.1 then (2 ^ (w - 1) - 1, .saturated) else (r.1, .ofInexact r.2)

/-- A conversion to E8M0 of a positive value (R61): the power of two below it or the next one, clamped to 0x00-0xFE. -/
def toE8M0Pos (mode m : Nat) (e : Int) : Nat × AFlags :=
  let n : Int := e + m.log2
  let low := 2 ^ m.log2
  let up :=
    match mode with
    | 0 => decide (3 * low ≤ 2 * m)
    | 3 => decide (m ≠ low)
    | _ => false
  let k : Int := if up then n + 1 else n
  if 127 < k then (0xFE, .saturated)
  else if k < -127 then (0x00, .ofInexact true)
  else ((k + 127).toNat, .ofInexact (decide (m ≠ low)))

/-- A conversion to a block-scale format (R61, R62). -/
def toScale (code mode : Nat) : Num → Nat × AFlags
  | .nan => (0xFF, .isNan)
  | .inf true => (0xFF, .invalidNan)
  | .inf false => (0xFE, .saturated)
  | .fin neg m e =>
    if m = 0 then (0x00, .ofInexact (decide (code = 0xC)))
    else if neg then (0xFF, .invalidNan)
    else if code = 0xC then toE8M0Pos mode m e
    else
      let r := roundMag ue5m3Fmt mode false m e
      if r.1 ≤ 0xFE then (r.1, .ofInexact r.2) else (0xFE, .saturated)

/-- A conversion to the format with a code, with a rounding mode and a SAT bit (R59-R62). -/
def convertNum (code mode : Nat) (sat : Bool) (x : Num) : Nat × AFlags :=
  if isIntFmt code then toIntN (fmtWidth code) mode x
  else if code = 0xC ∨ code = 0xD then toScale code mode x
  else toFlt (fltFmt code) mode sat x

/-! ## FP32 operations (R79) -/

/-- An FP32 encoding's value. -/
def f32 (c : Nat) : Num := decodeFlt fp32Fmt c

/-- The value as an integer at a scale no greater than its own. -/
def scaledInt (neg : Bool) (m : Nat) (e base : Int) : Int :=
  let v : Int := (m * 2 ^ (e - base).toNat : Nat)
  if neg then -v else v

/-- The exact sum and whether the operation had no defined value; an exact zero takes the sign IEEE 754 gives it. -/
def addNum (mode : Nat) : Num → Num → Num × Bool
  | .nan, _ => (.nan, false)
  | _, .nan => (.nan, false)
  | .inf a, .inf b => if a = b then (.inf a, false) else (.nan, true)
  | .inf a, _ => (.inf a, false)
  | _, .inf b => (.inf b, false)
  | .fin sa ma ea, .fin sb mb eb =>
    let base := min ea eb
    let v := scaledInt sa ma ea base + scaledInt sb mb eb base
    if v = 0 then
      if ma = 0 ∧ mb = 0 ∧ sa = sb then (.fin sa 0 0, false) else (.fin (decide (mode = 2)) 0 0, false)
    else (.fin (decide (v < 0)) v.natAbs base, false)

/-- A value with its sign turned. -/
def negNum : Num → Num
  | .nan => .nan
  | .inf a => .inf (!a)
  | .fin s m e => .fin (!s) m e

/-- The exact product. -/
def mulNum : Num → Num → Num × Bool
  | .nan, _ => (.nan, false)
  | _, .nan => (.nan, false)
  | .inf a, .inf b => (.inf (a != b), false)
  | .inf a, .fin s m _ => if m = 0 then (.nan, true) else (.inf (a != s), false)
  | .fin s m _, .inf a => if m = 0 then (.nan, true) else (.inf (s != a), false)
  | .fin sa ma ea, .fin sb mb eb => (.fin (sa != sb) (ma * mb) (ea + eb), false)

/-- A quotient of naturals to at least 59 significant bits with a sticky bit below them, which every rounding of at most 57 bits
rounds as it would the exact quotient. -/
def quotNum (neg : Bool) (ma mb : Nat) (e : Int) : Num :=
  let k := 60 + mb.log2
  let n := ma * 2 ^ k
  .fin neg (2 * (n / mb) + (if n % mb = 0 then 0 else 1)) (e - k - 1)

/-- The quotient (R62: a finite nonzero value divided by zero is the signed infinity, with no flag). -/
def divNum : Num → Num → Num × Bool
  | .nan, _ => (.nan, false)
  | _, .nan => (.nan, false)
  | .inf _, .inf _ => (.nan, true)
  | .inf a, .fin s _ _ => (.inf (a != s), false)
  | .fin s _ _, .inf a => (.fin (s != a) 0 0, false)
  | .fin sa ma ea, .fin sb mb eb =>
    if mb = 0 then (if ma = 0 then (.nan, true) else (.inf (sa != sb), false))
    else if ma = 0 then (.fin (sa != sb) 0 0, false)
    else (quotNum (sa != sb) ma mb (ea - eb), false)

/-- The integer square root, bit by bit from 2^(fuel-1) down. -/
def isqrtGo : Nat → Nat → Nat → Nat
  | 0, _, r => r
  | b + 1, n, r => isqrtGo b n (if (r + 2 ^ b) * (r + 2 ^ b) ≤ n then r + 2 ^ b else r)

/-- The square root (R62: INVALID for a negative nonzero value; the root of a signed zero is that zero). -/
def sqrtNum : Num → Num × Bool
  | .nan => (.nan, false)
  | .inf true => (.nan, true)
  | .inf false => (.inf false, false)
  | .fin s m e =>
    if m = 0 then (.fin s 0 0, false)
    else if s then (.nan, true)
    else
      let odd := decide (e % 2 = 1)
      let n := (if odd then 2 * m else m) * 2 ^ 128
      let e' : Int := (if odd then e - 1 else e) / 2 - 64
      let r := isqrtGo (n.log2 / 2 + 1) n 0
      (.fin false (2 * r + (if r * r = n then 0 else 1)) (e' - 1), false)

/-- One rounding of an exact result to FP32: an exact infinity is delivered whatever SAT selects (R79). -/
def putF32 (mode : Nat) (sat : Bool) (x : Num × Bool) : Nat × AFlags :=
  let inv : AFlags := if x.2 then .isInvalid else .none
  match x.1 with
  | .inf neg => (signBit fp32Fmt neg + 0x7F800000, inv)
  | y => let r := toFlt fp32Fmt mode sat y; (r.1, inv.or r.2)

/-- FP32 addition. -/
def addF (mode : Nat) (sat : Bool) (a b : Nat) : Nat × AFlags := putF32 mode sat (addNum mode (f32 a) (f32 b))
/-- FP32 subtraction. -/
def subF (mode : Nat) (sat : Bool) (a b : Nat) : Nat × AFlags := putF32 mode sat (addNum mode (f32 a) (negNum (f32 b)))
/-- FP32 multiplication. -/
def mulF (mode : Nat) (sat : Bool) (a b : Nat) : Nat × AFlags := putF32 mode sat (mulNum (f32 a) (f32 b))
/-- FP32 division. -/
def divF (mode : Nat) (sat : Bool) (a b : Nat) : Nat × AFlags := putF32 mode sat (divNum (f32 a) (f32 b))
/-- FP32 square root. -/
def sqrtF (mode : Nat) (sat : Bool) (a : Nat) : Nat × AFlags := putF32 mode sat (sqrtNum (f32 a))
/-- FP32 fused multiply-add, a × b + c rounded once. -/
def fmaF (mode : Nat) (sat : Bool) (a b c : Nat) : Nat × AFlags :=
  let p := mulNum (f32 a) (f32 b)
  let r := addNum mode p.1 (f32 c)
  putF32 mode sat (r.1, p.2 || r.2)

/-- Whether a value is NaN. -/
def Num.isNaN : Num → Bool
  | .nan => true
  | _ => false

/-- Whether a value lies below another; zeros compare equal, NaN compares with nothing. -/
def ltNum : Num → Num → Bool
  | .nan, _ => false
  | _, .nan => false
  | .inf a, .inf b => a && !b
  | .inf a, .fin _ _ _ => a
  | .fin _ _ _, .inf b => !b
  | .fin sa ma ea, .fin sb mb eb =>
    let base := min ea eb
    decide (scaledInt sa ma ea base < scaledInt sb mb eb base)

/-- Whether an FP32 encoding is below another as minimum and maximum order them: -0 below +0. -/
def belowF (a b : Nat) : Bool :=
  ltNum (f32 a) (f32 b) || (!ltNum (f32 b) (f32 a) && decide (b < a) && decide (2 ^ 31 ≤ a) && decide (b < 2 ^ 31))

/-- FP32 minimum: canonical NaN if either input is NaN (R79). -/
def minF (a b : Nat) : Nat × AFlags :=
  if (f32 a).isNaN || (f32 b).isNaN then (0x7FC00000, .isNan) else (if belowF b a then b else a, .none)
/-- FP32 maximum: canonical NaN if either input is NaN (R79). -/
def maxF (a b : Nat) : Nat × AFlags :=
  if (f32 a).isNaN || (f32 b).isNaN then (0x7FC00000, .isNan) else (if belowF a b then b else a, .none)

/-- FP32 absolute value. -/
def absF (a : Nat) : Nat × AFlags := if (f32 a).isNaN then (0x7FC00000, .isNan) else (a % 2 ^ 31, .none)
/-- FP32 negation. -/
def negF (a : Nat) : Nat × AFlags :=
  if (f32 a).isNaN then (0x7FC00000, .isNan) else (if a < 2 ^ 31 then a + 2 ^ 31 else a - 2 ^ 31, .none)

/-- The outcome of a VCMP predicate (R157, R158): 0 EQ, 1 NE, 2 LT, 3 LE, 4 GT, 5 GE. -/
def predHolds (pred : Nat) (lt gt : Bool) : Bool :=
  match pred with
  | 0 => !lt && !gt
  | 1 => lt || gt
  | 2 => lt
  | 3 => !gt
  | 4 => gt
  | _ => !lt

/-- FP32 comparison: with a NaN only NE holds (R158). -/
def cmpF (pred a b : Nat) : Bool :=
  if (f32 a).isNaN || (f32 b).isNaN then decide (pred = 1)
  else predHolds pred (ltNum (f32 a) (f32 b)) (ltNum (f32 b) (f32 a))

/-- VQNT (R158): a lane rounded to the value set of a format and written as FP32; FP32 itself only makes a NaN canonical, and
the INT32 limit 2^31 - 1 is written as 2^31. -/
def qntF (fmt mode : Nat) (sat : Bool) (a : Nat) : Nat × AFlags :=
  if fmt = 0xB then (if (f32 a).isNaN then (0x7FC00000, .isNan) else (a, .none))
  else
    let r := convertNum fmt mode sat (f32 a)
    ((putF32 0 true (decodeNum fmt r.1, false)).1, r.2)

/-! ## INT32 operations (R80) -/

/-- An INT32 lane's value. -/
def i32 (c : Nat) : Int := signedOf c 32

/-- The result of an INT32 operation: wrapped modulo 2^32 with INEXACT, or saturated with SAT and INEXACT (R80, R62). -/
def putI32 (sat : Bool) (v : Int) : Nat × AFlags :=
  if -(2 ^ 31) ≤ v ∧ v < 2 ^ 31 then (wrapInt v 32, .none)
  else if sat then (if v < 0 then 2 ^ 31 else 2 ^ 31 - 1, .saturated)
  else (wrapInt v 32, .ofInexact true)

/-- INT32 division: toward zero; by zero 0 with INVALID (R158). A quotient that truncation changed is inexact (R62). -/
def divI (sat : Bool) (a b : Nat) : Nat × AFlags :=
  if i32 b = 0 then (0, .isInvalid)
  else
    let r := putI32 sat (Int.tdiv (i32 a) (i32 b))
    (r.1, r.2.or (.ofInexact (decide (Int.tmod (i32 a) (i32 b) ≠ 0))))

/-- INT32 comparison. -/
def cmpI (pred a b : Nat) : Bool := predHolds pred (decide (i32 a < i32 b)) (decide (i32 b < i32 a))

/-! ## FP32e and the float tree (R74, R75) -/

/-- The value of an FP32e encoding (R74): exponent 0 encodes zero, whatever its fraction. DESIGN CHOICE: exponent 0x3FF, which R74
calls not used, is read as the finite value its fields spell. -/
def e34 (c : Nat) : Num :=
  if c / 2 ^ 23 % 2 ^ 10 = 0 then .fin (decide (c / 2 ^ 33 % 2 = 1)) 0 0 else decodeFlt fp32eFmt c

/-- An inner node: RNE(left + right); an exact zero is +0 unless both children are -0. -/
def nodeE34 (a b : Nat) : Nat := (toFlt fp32eFmt 0 false (addNum 0 (e34 a) (e34 b)).1).1

/-- The perfect binary tree over 2^level leaves from an index on, over the leaves listed; any other leaf holds +0. -/
def treeE34 : Nat → Nat → List (Nat × Nat) → Nat
  | _, _, [] => 0
  | 0, lo, l => sget0 l lo
  | n + 1, lo, l =>
    let mid := lo + 2 ^ n
    nodeE34 (treeE34 n lo (l.filter (fun p => decide (p.1 < mid)))) (treeE34 n mid (l.filter (fun p => decide (mid ≤ p.1))))
where
  /-- The leaf at an index, +0 where none is listed. -/
  sget0 : List (Nat × Nat) → Nat → Nat
    | [], _ => 0
    | (k, v) :: m, i => if k = i then v else sget0 m i

/-- The root above a node of the first 2^level leaves, `n` levels further up, the leaves listed lying beyond it (R75, R77). -/
def climbE34 : Nat → Nat → Nat → List (Nat × Nat) → Nat
  | 0, _, node, _ => node
  | n + 1, level, node, l =>
    climbE34 n (level + 1) (nodeE34 node (treeE34 level (2 ^ level)
      (l.filter (fun p => decide (2 ^ level ≤ p.1) && decide (p.1 < 2 ^ (level + 1)))))) l

/-! ## The array's terms (R66-R69, R84) -/

/-- What one element product is to an accumulator: a NaN, an infinity, or its exact value (R66, R68). -/
def elemProduct (fa a fb b : Nat) : Num × Bool := mulNum (decodeNum fa a) (decodeNum fb b)

/-- The grid value of a finite product, an integer because no pair's exponents add below -32 (R66 step 2). -/
def gridValue : Num → Int
  | .fin neg m e =>
    let v : Int := (m * 2 ^ (e + 32).toNat : Nat)
    if neg then -v else v
  | _ => 0

/-- A scale written σ × 2^ε (R54), with MXINT8's implicit factor folded in (R56); none for a NaN scale. -/
def scaleOf (code elemFmt c : Nat) : Option (Nat × Int) :=
  if c = 0xFF then none
  else if code = 0xC then some (1, (c : Int) - 127 - (if elemFmt = 0x1 then 6 else 0))
  else match decodeFlt ue5m3Fmt c with
    | .fin _ m e => if c = 0 then some (0, 0) else some (m, e)
    | _ => none

/-- A term: what the segment adds to A, and what it sets (R66 steps 4 to 6, R68). -/
structure Term where
  t : Int
  inexact : Bool
  tsat : Bool
  deriving DecidableEq, Repr

/-- R66 steps 4 to 6: t = P × σ × 2^n, rounded RNE where the grid does not hold it, then clamped to 2^70 - 1. -/
def termOf (p : Int) (sigma : Nat) (n : Int) : Term :=
  let neg := decide (p < 0)
  let r := roundToNat 0 neg (p.natAbs * sigma) n
  let m := min r.1 (2 ^ 70 - 1)
  ⟨if neg then -(m : Int) else m, r.2, decide (2 ^ 70 - 1 < r.1)⟩

/-- The residue of a 96-bit pattern: the sum of its 3-bit groups less bit 95, modulo 7 (R86). -/
def residue96 (v : Nat) : Nat :=
  (((List.range 32).map (fun g => v / 8 ^ g % 8)).foldl (· + ·) 0 + 7 - v / 2 ^ 95 % 2) % 7

end Sys2Proof.Machine
end

