-- ==== Sys2Proof/Machine/Fabric.lean ====
section
/-! DEFINITION. The crucible fabric (R456-R502): homes, routes, the region checker, staging, reads and writes of device
memory, combine targets, and the tracker. -/

namespace Sys2Proof.Machine

/-! ## Requesters and homes -/

/-- Who makes a request: its node and identity (R456), whether it is a core engine (R493), its traffic class, and the command
that owns it, where one does. -/
structure Req where
  node : Nat
  ident : Nat
  engine : Bool
  cls : Nat
  owner : Option Nat
  deriving DecidableEq, Repr

/-- The key of a command: its partition and sequence number (R334). -/
def cmdKey (part seq : Nat) : Nat := part * 2 ^ 32 + seq

/-- What a device address names (R17, R18). -/
inductive AddrKind where
  | dram
  | window (core off : Nat)
  | csr (off : Nat)
  | unmapped
  deriving DecidableEq, Repr

/-- R17, R18. -/
def addrKind (a : Nat) : AddrKind :=
  if a < 0x2000000000 then .dram
  else if 0x800000000000 ≤ a ∧ a < 0x800060000000 then
    let c := (a - 0x800000000000) / 0x1000000
    let o := (a - 0x800000000000) % 0x1000000
    if o < 0x600000 ∨ (0x800000 ≤ o ∧ o < 0x980000) then .window c o else .unmapped
  else if 0xF00000000000 ≤ a ∧ a < 0xF00010000000 then .csr (a - 0xF00000000000)
  else .unmapped

/-- The number of the CSR block that holds an offset (R20, in its order); 15 where none does. -/
def blockNo (off : Nat) : Nat :=
  if off < 0x100000 then 0 else if off < 0x200000 then 1 else if off < 0x2C0000 then 2
  else if off < 0x300000 then 15 else if off < 0x400000 then 3 else if off < 0x480000 then 4
  else if off < 0x500000 then 5 else if off < 0x600000 then 6 else if off < 0x700000 then 7
  else if off < 0x780000 then 8 else if off < 0x800000 then 9 else if off < 0x900000 then 10
  else if off < 0xA00000 then 11 else if off < 0xB00000 then 12 else if off < 0x1000000 then 15
  else if off < 0x1600000 then 13 else if off < 0x2000000 then 15 else if off < 0x2100000 then 14 else 15

/-- Whether a crucible is in reset (a crucible that falls silent is reset at once, R446, R447). -/
def crucDown (s : State) (k : Nat) : Bool := inReset s (3, k)

/-- Whether a lateral module carries traffic: ACTIVE or NARROW (R474, R478). -/
def moduleUp (s : State) (m : Nat) : Bool :=
  let x := s.regFld (Reg.puntyMstat m) 0 3
  decide (x = 1) || decide (x = 3)

/-- Whether one of two attachment modules carries traffic. -/
def attachUp (s : State) (m : Nat) : Bool := moduleUp s m || moduleUp s (m + 1)

/-- The crucible where the host die's requests enter for a home (R456, R457). -/
def hostIngress (s : State) (home : Nat) : Nat :=
  let k := home % 2
  if crucDown s k || !attachUp s (16 + 2 * k) then 1 - k else k

/-- The crucible where the sensor die's requests enter for a home (R456, R457). -/
def sensorIngress (s : State) (home : Nat) : Nat :=
  let k := if home = 0 ∨ home = 2 then 2 else 3
  if crucDown s k || !attachUp s (16 + 2 * k) then 5 - k else k

/-- The home of a CSR offset (R662). -/
def csrHome (s : State) (off : Nat) : Nat :=
  match blockNo off with
  | 2 => (off - 0x200000) / 0x10000 / 3
  | 3 => if crucDown s 2 || !attachUp s 20 then 3 else 2
  | 4 => 0
  | 5 => 3
  | 6 => (off - 0x500000) / 0x40000 % 4
  | 7 => (off - 0x600000) / 0x10000 / 4
  | 11 => 0
  | 13 => (off - 0x1000000) / 0x10000 / 24
  | 14 => (off - 0x2000000) / 0x40000 % 4
  | _ => if crucDown s 0 || !attachUp s 16 then 1 else 0

/-- The home crucible of a device address; crucible 0 where it has none (R459, R666). -/
def homeOf (s : State) (a : Nat) : Nat :=
  match addrKind a with
  | .dram => match mapAddr s a with
    | some p => p.1 / 16
    | none => 0
  | .window c _ => c / 24
  | .csr off => csrHome s off
  | .unmapped => 0

/-- The ingress crucible of a node for a home (R456). -/
def ingressOf (s : State) (node home : Nat) : Nat :=
  if node < 0x60 then node / 24
  else if node < 0x64 then node - 0x60
  else if node = 0x64 then hostIngress s home
  else if node = 0x65 then sensorIngress s home
  else if node = 0x67 then 3 else 0

/-! ## Routes (R460, R461) -/

/-- The lateral pair between two adjacent crucibles (R458). -/
def pairBetween (a b : Nat) : Option Nat :=
  match min a b, max a b with
  | 0, 1 => some 0
  | 1, 3 => some 1
  | 2, 3 => some 2
  | 0, 2 => some 3
  | _, _ => none

/-- Whether a pair has a usable module. -/
def pairUp' (s : State) (q : Nat) : Bool := attachUp s (4 * q) || attachUp s (4 * q + 2)

/-- The pairs and intermediate crucibles on a path of crucibles, when every pair is usable and no intermediate is down. -/
def pathTargets (s : State) : List Nat → Option (List (Nat ⊕ Nat))
  | a :: b :: rest =>
    match pairBetween a b with
    | none => none
    | some q =>
      if !pairUp' s q || (decide (rest ≠ []) && crucDown s b) then none
      else match pathTargets s (b :: rest) with
        | none => none
        | some l => some (.inl q :: (if rest ≠ [] then [.inr b] else []) ++ l)
  | _ => some []

/-- The first path that is usable. -/
def firstPath (s : State) (ps : List (List Nat)) : Option (List (Nat ⊕ Nat)) :=
  (ps.map (pathTargets s)).findSome? id

/-- The paths between two crucibles in order of choice: the direct pair and then the long way round, or for a diagonal the
candidate address bit 7 names and then the other (R460, R461). -/
def pathsOf (a b bit7 : Nat) : List (List Nat) :=
  if a = b then [[a]]
  else if (pairBetween a b).isSome then
    let rest := [0, 1, 2, 3].filter (fun x => decide (x ≠ a) && decide (x ≠ b))
    [[a, b], [a] ++ rest ++ [b], [a] ++ rest.reverse ++ [b]]
  else
    let lo := if a = 0 ∨ b = 0 then 1 else 0
    let hi := if a = 0 ∨ b = 0 then 2 else 3
    if bit7 = 0 then [[a, lo, b], [a, hi, b]] else [[a, hi, b], [a, lo, b]]

/-- What a request between two crucibles passes through, or none without a usable route. -/
def routeOf (s : State) (a b addr : Nat) : Option (List (Nat ⊕ Nat)) := firstPath s (pathsOf a b (addr / 128 % 2))

/-- A route's pairs and intermediate crucibles as fence targets. -/
def routeTargets (l : List (Nat ⊕ Nat)) : List Target :=
  l.map (fun x => match x with
    | .inl q => Target.pair (Fin.ofNat 4 q)
    | .inr k => Target.crucible (Fin.ofNat 4 k))

/-- What a request to a device address depends on beside its route (R466). A block that the host or sensor die holds is not
fenced with its home crucible (R662). -/
def addrTargets (s : State) (a : Nat) : List Target :=
  match addrKind a with
  | .dram => match mapAddr s a with
    | some p => [.channel (Fin.ofNat 64 p.1), .memSite (Fin.ofNat 16 (p.1 / 4)), .crucible (Fin.ofNat 4 (p.1 / 16))]
    | none => []
  | .window c _ => [.core (Fin.ofNat 96 c), .crucible (Fin.ofNat 4 (c / 24))]
  | .csr off =>
    let b := blockNo off
    (if h : b < 15 then [Target.block ⟨b, h⟩] else []) ++
      (if b = 2 ∨ b = 6 ∨ b = 7 ∨ b = 13 ∨ b = 14 then [Target.crucible (Fin.ofNat 4 (csrHome s off))] else [])
  | .unmapped => []

/-! ## Poisoned responses -/

/-- Why a response is poisoned (R19, R495, R466, R527). -/
inductive Poison where
  | unmapped
  | refused
  | fenced
  | mem (code : Nat)
  deriving DecidableEq, Repr

/-! ## The region checker (R492-R496) -/

/-- The lowest-numbered valid region of crucible k that holds an address (R494). -/
def regionFor (s : State) (k a : Nat) : Option Nat :=
  (List.range 256).find? (fun n =>
    let ra := s.reg (Reg.crucRgna k n)
    let base := fld ra 12 36 * 4096
    bitAt ra 0 && decide (base ≤ a) && decide (a < base + s.regFld (Reg.crucRgnb k n) 0 37 * 4096))

/-- Whether region n of crucible k permits an identity to read or write (R494). -/
def regionPermits (s : State) (k n ident : Nat) (write : Bool) : Bool :=
  s.regBit (Reg.crucRgnb k n) (46 + ident) && s.regBit (Reg.crucRgna k n) (if write then 2 else 1)

/-- A region's CLASS (R576): 0 ordinary, 1 cullet-pool, 2 combine. -/
def regionClass (s : State) (k n : Nat) : Nat := s.regFld (Reg.crucRgna k n) 3 3

/-- The cullet manager of crucible k beside its registers. -/
def State.cull (s : State) (k : Nat) : Cullet := sget Cullet.empty s.cullet k

/-- A cullet manager replaced. -/
def State.setCull (s : State) (k : Nat) (x : Cullet) : State := { s with cullet := sput Cullet.empty s.cullet k x }

/-- The crucible and page of the cullet pool an address lies in (R212). -/
def poolPage (s : State) (a : Nat) : Option (Nat × Nat) :=
  ((List.range 4).map (fun k =>
    let base := s.regFld (Reg.culletPoolbase k) 12 36 * 4096
    let size := s.regFld (Reg.culletPoolcfg k) 24 9 * 4096
    let n := s.regFld (Reg.culletPoolcfg k) 0 21
    if base ≤ a ∧ a < base + n * size then some (k, (a - base) / size) else none)).findSome? id

/-- The page-owner check (R213): the page belongs to the partition. -/
def pageOwned (s : State) (kp : Nat × Nat) (ident : Nat) : Bool :=
  match sget PageSt.free (s.cull kp.1).pages kp.2 with
  | .owned p _ => decide (p = ident)
  | _ => false

/-- A refusal by the region checker of crucible k (R495). -/
def refuse (s : State) (k code : Nat) (r : Req) (a : Nat) : State :=
  poisonAt ((s.bump (Reg.crucRgnref k) 1).logCruc k code r.node r.ident a) k

/-- The checks of R493 at the ingress crucible: the state with its counts and events, and why the request fails, or the class of the region
that admits it. -/
def checkReq (s : State) (r : Req) (a : Nat) (write : Bool) : State × Except Poison Nat :=
  let k := ingressOf s r.node (homeOf s a)
  match addrKind a with
  | .unmapped => (poisonAt ((s.bump (Reg.crucUnmap k) 1).logCruc k 0x0510 r.node r.ident a) k, .error .unmapped)
  | kind =>
    if 18 ≤ r.ident then (s, .ok 0)
    else if r.engine && decide (kind ≠ .dram) then
      let s1 := match kind with
        | .window c _ => s.bump (Reg.coreWinref c) 1
        | .csr off => if blockNo off = 13 then s.bump (Reg.coreWinref ((off - 0x1000000) / 0x10000)) 1 else s
        | _ => s
      (poisonAt (s1.logCruc k 0x0502 r.node r.ident a) k, .error .refused)
    else match regionFor s k a with
      | none => (refuse s k 0x0501 r a, .error .refused)
      | some n =>
        if !regionPermits s k n r.ident write then (refuse s k 0x0501 r a, .error .refused)
        else match poolPage s a with
          | some kp =>
            if regionClass s k n = 1 ∧ !pageOwned s kp r.ident then
              (poisonAt (s.bump (Reg.culletOwnref kp.1) 1) k, .error .refused)
            else (s, .ok (regionClass s k n))
          | none => (s, .ok (regionClass s k n))

/-- What is fenced when a block enters RESET (R466, R558). -/
def blockTargets : Block → List Target
  | .core c => [.core c]
  | .die d => (coresOfDie d.val).map (fun c => Target.core (Fin.ofNat 96 c))
  | .crucible k => [.crucible k]
  | .channel h => [.channel h]
  | .sensorDie => [.block 3]
  | .hostDie => []

/-- Whether a target's block has been asked to be idle before its reset (R557). -/
def idleAsked (s : State) (g : Target) : Bool :=
  s.rst.blocks.any (fun x => decide (x.phase = .idlereq) && (blockTargets x.blk).contains g)

/-- What a request depends on: its ingress crucible, what its address lies in, and its route (R457, R466); none without a usable route, or while its
ingress crucible is in reset. -/
def pathOf (s : State) (r : Req) (a : Nat) : Option (List Target) :=
  let home := homeOf s a
  let k := ingressOf s r.node home
  if crucDown s k then none
  else (routeOf s k home a).map (fun l => .crucible (Fin.ofNat 4 k) :: addrTargets s a ++ routeTargets l)

/-- Whether a request finds its way: a path, no fence on it (R457, R466), and no block asked to be idle at its end (R557). DEDUCED: a request that would
wait for such a block is answered poisoned at once, as R558 point 1 answers it when the block enters RESET. -/
def reachable (s : State) (r : Req) (a : Nat) : Bool :=
  match pathOf s r a with
  | none => false
  | some l => l.all (fun t => !s.fab.fences.contains t) && (addrTargets s a).all (fun t => !idleAsked s t)

/-! ## Staging (R383) -/

/-- The key under which a run of program `prog` stages: its command's key and the program, because no program of a command sees another's staged
writes (R372). An operation without programs stages as program 0. -/
def runKey (owner prog : Nat) : Nat := owner + prog * 2 ^ 41

/-- The command (or Blowpipe channel) a staging key belongs to. -/
def ownerOf (key : Nat) : Nat := key % 2 ^ 41

/-- The staged bytes under a key. -/
def stagedOf (s : State) (key : Nat) : List (Nat × Byte) := sget [] s.mem.staged key

/-- All that a command's programs have staged. DESIGN CHOICE: where two of them staged one byte, the higher program's prevails. -/
def stagedAll (s : State) (owner : Nat) : List (Nat × Byte) :=
  match (s.mem.staged.filter (fun p => decide (ownerOf p.1 = owner))).map (·.2) with
  | [] => []
  | l :: ls => ls.foldl (fun m x => x.foldl (fun m q => sins m q.1 q.2) m) l

/-- The staged byte of a command at an address, if it has one. -/
def stagedByte (s : State) (owner : Option Nat) (a : Nat) : Option Byte :=
  match owner with
  | none => none
  | some o => (stagedOf s o).lookup a

/-- The 64-byte lines of a sorted run of staged bytes. -/
def lines64 : List (Nat × Byte) → List Nat
  | [] => []
  | p :: ps =>
    match lines64 ps with
    | [] => [p.1 / 64]
    | l :: ls => if l = p.1 / 64 then l :: ls else p.1 / 64 :: l :: ls

/-- The 64-byte lines of a combine target's staged copy (R486). -/
def combLines (x : CombTarget) : List Nat := (List.range ((32 + x.rows * 2048 + 63) / 64)).map (x.base / 64 + ·)

/-- The 64-byte lines staged at crucible k, combine targets among them (R491): each counts at its own home. -/
def stagedLines (s : State) (k : Nat) : Nat :=
  ((s.mem.staged.map (fun p => lines64 p.2) ++ s.fab.comb.map combLines).map
    (fun ls => (ls.filter (fun l => decide (homeOf s (64 * l) = k))).length)).foldl (· + ·) 0

/-- The lines of crucible k in its spill region: spilled ones, and flipped ones not copied home yet. -/
def spillLines (s : State) (k : Nat) : Nat :=
  (s.mem.spilled.map (fun p => (p.2.filter (fun l => decide (homeOf s (64 * l) = k))).length)).foldl (· + ·) 0 +
    (s.bench.spillCopies.filter (fun p => decide (p.1 = k))).length

/-- Flipped lines of crucible k not copied home yet. -/
def copyLines (s : State) (k : Nat) : Nat := (s.bench.spillCopies.filter (fun p => decide (p.1 = k))).length

/-- Lines the system cache of crucible k may stage (DEV_STAGECFGk.CAP, above 64 MiB acting as 64). -/
def stageCap (s : State) (k : Nat) : Nat := min 64 (s.regFld (Reg.devStagecfg k) 0 8) * 16384

/-- Lines the spill region of crucible k holds: none where it does not lie wholly in DRAM (R402). -/
def spillCap (s : State) (k : Nat) : Nat :=
  let base := s.regFld (Reg.devStagecfg k) 20 28 * 2 ^ 20
  let size := s.regFld (Reg.devStagecfg k) 48 16
  if base + size * 2 ^ 20 ≤ 0x2000000000 then size * 16384 else 0

/-- DEV_STAGEUSEk follows what is staged. -/
def syncStage (s : State) (k : Nat) : State :=
  s.setReg (Reg.devStageuse k) (BitVec.ofNat 64 (64 * (stagedLines s k + copyLines s k)))


/-- R384: a write that would stage more lines at a crucible than its staging and its spill region hold. -/
def stageWaitsAt (s s' : State) (k : Nat) : Bool :=
  decide (stageCap s k + spillCap s k < stagedLines s' k + copyLines s' k) && decide (stagedLines s k < stagedLines s' k)

/-- Whether an access would stage lines that some crucible has no room for. -/
def stageWaits (s s' : State) : Bool := (List.range 4).any (stageWaitsAt s s')

/-- A staged write waits, without effect, while it finds no room (R384). -/
def orWait (s s' : State) : State := if stageWaits s s' then s else s'

/-- A staged line that is written to the spill area (R383). -/
def spillLine (s : State) (owner l : Nat) : State :=
  { s with mem := { s.mem with spilled := sput [] s.mem.spilled owner (sget [] s.mem.spilled owner ++ [l]) } }

/-- Lines newly staged for a command: beyond CAP they spill (R383), which wakes a parked memory (R541). -/
def placeLines (owner : Nat) : List Nat → State → State
  | [], s => s
  | l :: ls, s =>
    let k := homeOf s (64 * l)
    let s1 := if stageCap s k + spillLines s k < stagedLines s k + copyLines s k then
        spillLine (wakeParked s) owner l
      else s
    placeLines owner ls (syncStage s1 k)

/-- Bytes staged for a command. -/
def stageBytes (s : State) (owner a : Nat) (bs : List Byte) : State :=
  let old := lines64 (stagedOf s owner)
  let l := (bs.zipIdx).foldl (fun m p => sins m (a + p.2) p.1) (stagedOf s owner)
  let whole := decide (a % 128 = 0) && decide (bs.length = 128)
  let s1 := { s with
    mem := { s.mem with staged := sput [] s.mem.staged owner l }
    fab := { s.fab with badStaged := if whole then s.fab.badStaged.filter (fun x => decide (x ≠ (owner, a / 128))) else s.fab.badStaged } }
  placeLines owner ((lines64 ((bs.zipIdx).map (fun p => (a + p.2, p.1)))).filter (fun x => !old.contains x)) s1

/-- The bytes of a command's combine targets that an address falls in (R486): the record's bytes of the staged copy. -/
def combByte (s : State) (owner : Option Nat) (a : Nat) : Option Byte :=
  match owner with
  | none => none
  | some o =>
    match s.fab.comb.find? (fun x => decide (x.owner = ownerOf o) && decide (x.base + 32 ≤ a) && decide (a < x.base + 32 + x.rows * 2048)) with
    | none => none
    | some x => (leBytes 16 (sget 0#128 x.recs ((a - x.base - 32) / 16)).toNat)[(a - x.base - 32) % 16]?

/-! ## Reads and writes -/

/-- The key of a way of crucible k in the set of a line (R482). -/
def cacheKey (k way line : Nat) : Nat := (24 * k + way) * 32768 + Config.cacheSet line % 32768

/-- Whether a line is in the cache of crucible k: in any way of its set (R482, R483). -/
def cached (s : State) (k line : Nat) : Bool := (List.range 24).any (fun w => decide (sget 0 s.cache (cacheKey k w line) = line + 1))


/-- The ways of a line's set that a mask allows to be replaced; one that holds a staged line is not (R482). -/
def freeWays (s : State) (k line mask : Nat) : List Nat :=
  (List.range 24).filter (fun w => mask.testBit w &&
    (match sget 0 s.cache (cacheKey k w line) with
      | 0 => true
      | l + 1 => !lineStaged s l))

/-- The allocation ways of an identity (R483); a staged line ignores the masks. -/
def wayMask (s : State) (k ident : Nat) (staged : Bool) : Nat :=
  if staged then 2 ^ 24 - 1 else s.regFld (Reg.crucCway k (min ident 16)) 0 24

/-- A line allocated among the ways of a mask; a mask of 0 serves the miss without allocating (R483). -/
def allocLine (s : State) (k line mask : Nat) : State :=
  match freeWays s k line mask with
  | [] => s
  | w :: ws =>
    let way := (w :: ws).getD (Config.cacheVictim s.fresh % (ws.length + 1)) w
    { s with cache := sput 0 s.cache (cacheKey k way line) (line + 1) }

/-- A cache access (R482, R483): a hit in any way, or a miss that allocates, each counted. -/
def countCache (s : State) (k line mask : Nat) : State :=
  if cached s k line then s.bump (Reg.crucChit k) 1 else ((allocLine s k line mask).bump (Reg.crucCmiss k) 1).nextFresh

/-- A cache access that leaves nothing in the cache: its fill is poisoned (R526). -/
def countFailed (s : State) (k line : Nat) : State :=
  if cached s k line then s.bump (Reg.crucChit k) 1 else s.bump (Reg.crucCmiss k) 1

/-- Whether a command has staged something in a line, a combine target among it. -/
def ownStaged (s : State) (owner line : Nat) : Bool :=
  (stagedOf s owner).any (fun q => decide (q.1 / 128 = line)) ||
    s.fab.comb.any (fun x => decide (x.owner = ownerOf owner) && decide (x.base / 128 ≤ line) && decide (line * 128 < x.base + 32 + x.rows * 2048))

/-- A cache error met in a line that the cache of its home holds (R484): a corrected one is counted; a clean line is invalidated, to be fetched again; a
dirty or staged line is poisoned. -/
def cacheError (s : State) (r : Req) (a : Nat) (e : CacheEcc) : State :=
  let k := homeOf s a
  let line := a / 128
  let mine := r.owner.any (fun o => ownStaged s o line)
  let lost (s : State) : State :=
    let s1 := ((s.bump (Reg.crucCunc k) 1).setRegBit (Reg.crucStat k) 0 true).logCruc k 0x0503 r.node r.ident a
    if mine then { s1 with fab := { s1.fab with badStaged := (r.owner.getD 0, line) :: s1.fab.badStaged } } else poisonLine s1 line
  if !(cached s k line || lineStaged s line) then s
  else match e with
    | .clean => s
    | .corrected => s.bump (Reg.crucCcorr k) 1
    | .refetched => if lineStaged s line then lost s else dropCached (s.bump (Reg.crucCunc k) 1) k (fun l => decide (l = line))
    | .lost => lost s

/-- What the cache's code makes of an access to a line (R484). -/
def cacheMet : MemEcc → Nat → CacheEcc
  | .cache b e, a => if b.toNat / 128 = a / 128 then e else .clean
  | _, _ => .clean

/-- Whether the DRAM line of an address is corrected as it is read (R526). -/
def lineCorrected : MemEcc → Nat → Bool
  | .corrected b, a => decide (b.toNat / 128 = a / 128)
  | _, _ => false

/-- What the controller captures where the DRAM line of an address is uncorrectable (R526). -/
def lineFails : MemEcc → Nat → Option FreezeInfo
  | .uncorrectable b info, a => if b.toNat / 128 = a / 128 then some info else none
  | _, _ => none
/-- What a failed line check counts (R526). -/
def countLine (s : State) (h code : Nat) : State :=
  if code = 0x0403 ∨ code = 0x0404 then s.bump (Reg.memcLost (h / 4) (h % 4)) 1 else s

/-- An uncorrectable DRAM line met by a read (R526): in a pending segment it is lost, otherwise the channel freezes. -/
def uncorrectable (s : State) (a : Nat) (info : FreezeInfo) : State × Poison :=
  match mapAddr s a with
  | none => (s, .mem 0x0406)
  | some p =>
    let h := p.1
    let s1 := s.bump (Reg.memcUnc (h / 4) (h % 4)) 1
    if s.scrubPend h (p.2 / 2 ^ 28) then (s1.bump (Reg.memcLost (h / 4) (h % 4)) 1, .mem 0x0403)
    else (freezeChannel s1 h 1 (p.2 / 128) info, .mem 0x0401)

/-- The byte a command has staged at an address, in a combine target or otherwise. -/
def ownByte (s : State) (owner : Option Nat) (a : Nat) : Option Byte :=
  match combByte s owner a with
  | some b => some b
  | none => stagedByte s owner a

/-- The bytes of one transaction, at most 128 bytes of one 128-byte granule: the command's own staged ones, and committed ones. -/
def dramBytes (s : State) (owner : Option Nat) (a n : Nat) : MemRes :=
  gather ((List.range n).map (fun i =>
    match ownByte s owner (a + i) with
    | some b => .ok b
    | none => readCell s (a + i)))

/-- Whether a transaction's bytes are all staged by its command, so that its read needs no other. -/
def allOwn (s : State) (owner : Option Nat) (a n : Nat) : Bool := (List.range n).all (fun i => (ownByte s owner (a + i)).isSome)

/-- A request at the home of its address (R504, R523, R533): the ingress crucible answers an unbacked one; the others are metered, and a channel out of
service answers MEM_FROZEN. Otherwise its channel. -/
def atHome (s : State) (r : Req) (a len : Nat) : State × Except Poison Nat :=
  let home := homeOf s a
  match mapAddr s a with
  | none => (poisonAt (s.bump Reg.devMemunbk 1) (ingressOf s r.node home), .error (.mem 0x0406))
  | some p =>
    let s1 := admitRequest s home r.ident r.cls len
    if s1.chSt p.1 ≠ 2 ∧ s1.chSt p.1 ≠ 6 then (poisonAt s1 home, .error (.mem 0x0402)) else (s1, .ok p.1)

/-- A read resolved from the command's staged bytes and DRAM (R526). -/
def resolveRead (s : State) (r : Req) (h a n : Nat) : State × Except Poison (List Byte) :=
  let home := homeOf s a
  match dramBytes s r.owner a n with
  | .poisoned c => (poisonAt (countLine (countFailed s home (a / 128)) h c) home, .error (.mem c))
  | .data bs => (countCache s home (a / 128) (wayMask s home r.ident false), .ok bs)

/-- A read whose line the cache does not hold, as the DRAM line's code makes it (R526); the fill wakes a parked memory (R541). -/
def readDramLine (s : State) (r : Req) (ecc : MemEcc) (h a n : Nat) : State × Except Poison (List Byte) :=
  let home := homeOf s a
  let s0 := awake s h
  match lineFails ecc a with
  | some info =>
    let u := uncorrectable (countFailed s0 home (a / 128)) a info
    (poisonAt u.1 home, .error u.2)
  | none =>
    let x := resolveRead s0 r h a n
    (if x.2.toOption.isSome && lineCorrected ecc a then x.1.bump (Reg.memcCorr (h / 4) (h % 4)) 1 else x.1, x.2)

/-- One read transaction of DRAM that has passed its checks. -/
def readTxn (s : State) (r : Req) (ecc : MemEcc) (a n : Nat) : State × Except Poison (List Byte) :=
  let home := homeOf s a
  let x := atHome s r a n
  match x.2 with
  | .error p => (x.1, .error p)
  | .ok h =>
    let s1 := cacheError x.1 r a (cacheMet ecc a)
    if r.owner.any (fun o => s1.fab.badStaged.contains (o, a / 128)) then (poisonAt s1 home, .error (.mem 0x0404))
    else if cached s1 home (a / 128) || allOwn s1 r.owner a n then resolveRead s1 r h a n
    else readDramLine s1 r ecc h a n

/-- A request to a core's window that R100's table refuses, its response poisoned: counted in CORE_WINREF. -/
def refuseWindow (s : State) (a : Nat) : State :=
  match addrKind a with
  | .window c _ => poisonAt (s.bump (Reg.coreWinref c) 1) (c / 24)
  | _ => s

/-- Whether an address is DRAM in no valid range (R523): its ingress crucible answers, so a request to it needs no route (R666). -/
def unbacked (s : State) (a : Nat) : Bool := decide (addrKind a = .dram) && (mapAddr s a).isNone

/-- One read request to DRAM: checks, route and service (R492, R460, R482). A request to anything else is answered poisoned here (R100): windows
and CSR space are read through their own commands. -/
def readReq (s : State) (r : Req) (ecc : MemEcc) (a n : Nat) : State × Except Poison (List Byte) :=
  let c := checkReq s r a false
  match c.2 with
  | .error p => (c.1, .error p)
  | .ok _ =>
    if !unbacked c.1 a && !reachable c.1 r a then (poisonAt c.1 (ingressOf c.1 r.node (homeOf c.1 a)), .error .fenced)
    else if addrKind a = .dram then readTxn c.1 r ecc a n
    else (refuseWindow c.1 a, .error .refused)

/-- A run of bytes read transaction by transaction, none crossing a 128-byte boundary (R108, R459); the first failure ends it. -/
def devReadGo : Nat → State → Req → MemEcc → Nat → Nat → State × Except Poison (List Byte)
  | 0, s, _, _, _, _ => (s, .ok [])
  | f + 1, s, r, ecc, a, n =>
    if n = 0 then (s, .ok [])
    else
      let k := min n (128 - a % 128)
      let x := readReq s r ecc a k
      match x.2 with
      | .error p => (x.1, .error p)
      | .ok bs =>
        let y := devReadGo f x.1 r ecc (a + k) (n - k)
        match y.2 with
        | .error p => (y.1, .error p)
        | .ok bs' => (y.1, .ok (bs ++ bs'))

/-- A run of bytes read from device memory. -/
def devRead (s : State) (r : Req) (ecc : MemEcc) (a n : Nat) : State × Except Poison (List Byte) :=
  devReadGo (n + a % 128) s r ecc a n

/-- The address of the first transaction of a run that is answered poisoned, or the run's end. -/
def readFailsGo : Nat → State → Req → MemEcc → Nat → Nat → Nat
  | 0, _, _, _, a, _ => a
  | f + 1, s, r, ecc, a, n =>
    if n = 0 then a
    else
      let k := min n (128 - a % 128)
      let x := readReq s r ecc a k
      match x.2 with
      | .error _ => a
      | .ok _ => readFailsGo f x.1 r ecc (a + k) (n - k)

/-- Where a run of bytes read fails (R184). -/
def readFailsAt (s : State) (r : Req) (ecc : MemEcc) (a n : Nat) : Nat := readFailsGo (n + a % 128) s r ecc a n

/-- The command for which a write to DRAM is staged: its owner, but not for the rows that a core's engine writes to a pool page, which are committed at
once (R219, R383). -/
def stagesFor (s : State) (r : Req) (a : Nat) : Option Nat := if r.engine && (poolPage s a).isSome then none else r.owner

/-- A committed write of part of a line that DRAM must supply the rest of, where that line is uncorrectable (R667): in a pending segment the line becomes
LOST and the write is done; otherwise the channel freezes, and the write is answered MEM_UNCORR (DEDUCED: "as for a read"). -/
def mergeFails (s : State) (a : Nat) (info : FreezeInfo) : State × Option Poison :=
  let home := homeOf s a
  let u := uncorrectable s a info
  match u.2, mapAddr s a with
  | .mem 0x0403, some p => (u.1.setMark (cellKey p / 128) ⟨.lost, s.epoch p.1 (p.2 / 2 ^ 28)⟩, none)
  | q, _ => (poisonAt u.1 home, some q)

/-- A committed write at the home of its address, as the codes of its line make it (R484, R667); a fill wakes a parked memory (R541). -/
def commitTxn (s : State) (r : Req) (ecc : MemEcc) (h a : Nat) (bs : List Byte) : State × Option Poison :=
  let home := homeOf s a
  let line := a / 128
  let fetch := decide (bs.length < 128) && !cached s home line
  let s0 := if fetch then awake s h else s
  match lineFails ecc a with
  | some info =>
    if fetch then mergeFails (countFailed s0 home line) a info
    else (writeDram (countCache s0 home line (wayMask s home r.ident false)) a bs, none)
  | none =>
    let s1 := if fetch && lineCorrected ecc a then s0.bump (Reg.memcCorr (h / 4) (h % 4)) 1 else s0
    (writeDram (countCache s1 home line (wayMask s home r.ident false)) a bs, none)

/-- One write transaction of DRAM that has passed its checks: staged for the command that owns it, or committed at once. -/
def writeTxn (s : State) (r : Req) (ecc : MemEcc) (a : Nat) (bs : List Byte) : State × Option Poison :=
  let home := homeOf s a
  let x := atHome s r a bs.length
  match x.2 with
  | .error p => (x.1, some p)
  | .ok h =>
    match stagesFor x.1 r a with
    | some o => (stageBytes (countCache x.1 home (a / 128) (wayMask s home r.ident true)) o a bs, none)
    | none => commitTxn x.1 r ecc h a bs

/-- A packet that the collective engine of an address's home refuses with a code (R489), once the home has metered it. -/
def combRefuse (s : State) (r : Req) (a code : Nat) : State × Option Poison :=
  let home := homeOf s a
  (poisonAt ((s.bump (Reg.crucCombref home) 1).logCruc home code r.node r.ident a) home, some .refused)

/-- One write request to DRAM (R492, R486: a WR to a combine region is refused). -/
def writeReq (s : State) (r : Req) (ecc : MemEcc) (a : Nat) (bs : List Byte) : State × Option Poison :=
  let c := checkReq s r a true
  match c.2 with
  | .error p => (c.1, some p)
  | .ok cls =>
    if !unbacked c.1 a && !reachable c.1 r a then (poisonAt c.1 (ingressOf c.1 r.node (homeOf c.1 a)), some .fenced)
    else if addrKind a ≠ .dram then (refuseWindow c.1 a, some .refused)
    else if cls = 2 then
      let x := atHome c.1 r a bs.length
      match x.2 with
      | .error p => (x.1, some p)
      | .ok _ => combRefuse x.1 r a 0x0512
    else writeTxn c.1 r ecc a bs

/-- A run of bytes written transaction by transaction; the first failure ends it. -/
def devWriteGo : Nat → State → Req → MemEcc → Nat → List Byte → State × Option Poison
  | 0, s, _, _, _, _ => (s, none)
  | f + 1, s, r, ecc, a, bs =>
    match bs with
    | [] => (s, none)
    | _ =>
      let k := min bs.length (128 - a % 128)
      let x := writeReq s r ecc a (bs.take k)
      match x.2 with
      | some p => (x.1, some p)
      | none => devWriteGo f x.1 r ecc (a + k) (bs.drop k)

/-- A run of bytes written to device memory. -/
def devWrite (s : State) (r : Req) (ecc : MemEcc) (a : Nat) (bs : List Byte) : State × Option Poison :=
  devWriteGo (bs.length + a % 128) s r ecc a bs

/-- The address of the first transaction of a run that is refused, or the run's end. -/
def writeFailsGo : Nat → State → Req → MemEcc → Nat → List Byte → Nat
  | 0, _, _, _, a, _ => a
  | f + 1, s, r, ecc, a, bs =>
    match bs with
    | [] => a
    | _ =>
      let k := min bs.length (128 - a % 128)
      let x := writeReq s r ecc a (bs.take k)
      match x.2 with
      | some _ => a
      | none => writeFailsGo f x.1 r ecc (a + k) (bs.drop k)

/-- Where a run of bytes written fails (R184). -/
def writeFailsAt (s : State) (r : Req) (ecc : MemEcc) (a : Nat) (bs : List Byte) : Nat := writeFailsGo (bs.length + a % 128) s r ecc a bs

/-- The code a core engine reports for a poisoned response (R527, R177). -/
def Poison.coreCode : Poison → Nat
  | .mem c => c
  | _ => 0x020F

/-- The code a Bomus command reports for a poisoned response (R527, R345, R19); 0x0A is refined by its chapter. -/
def Poison.isRegion : Poison → Bool
  | .refused => true
  | _ => false

/-! ## Combine targets (R486-R490) -/

/-- A record's fields (R71). -/
structure Rec where
  value : Nat
  res : Nat
  flags : Nat
  fmode : Bool
  terms : Nat
  deriving DecidableEq, Repr

/-- The record in a 128-bit word (R71); `flags` holds NAN, PINF, NINF, INEXACT, TSAT from bit 0. -/
def recOf (w : Nat) : Rec := ⟨w % 2 ^ 96, bitsOf w 96 3, bitsOf w 99 5, decide (bitsOf w 104 1 = 1), bitsOf w 105 23⟩

/-- The word of a record. -/
def Rec.word (r : Rec) : Nat :=
  r.value + r.res * 2 ^ 96 + r.flags * 2 ^ 99 + r.fmode.toNat * 2 ^ 104 + r.terms * 2 ^ 105

/-- R88: a fixed-point record passes when the residue of VALUE equals RES; float-tree records are not checked. -/
def Rec.resOk (r : Rec) : Bool := r.fmode || decide (residue96 r.value = r.res)

/-- R73: two fixed-point records combined. -/
def combineFixed (a b : Rec) : Rec :=
  ⟨(a.value + b.value) % 2 ^ 96, (a.res + b.res) % 7, a.flags ||| b.flags, false, a.terms + b.terms⟩

/-- R78: sibling float-tree records combined, left first. -/
def combineFloat (a b : Rec) : Rec :=
  ⟨nodeE34 (a.value % 2 ^ 34) (b.value % 2 ^ 34), 7, a.flags ||| b.flags, true, a.terms + b.terms⟩

/-- The combination of a record at an index of a staged copy (R487, R488), or the code that refuses it (R489). `lg` is the
contribution's KLOG, `ks` its KSTART. -/
def combineAt (x : CombTarget) (fmode : Bool) (ks lg idx w : Nat) : Except Nat CombTarget :=
  let r := recOf w
  let cur := recOf (sget 0#128 x.recs idx).toNat
  if r.fmode ≠ fmode then .error 0x0504
  else if !r.resOk then .error 0x0505
  else if 8388607 < cur.terms + r.terms then .error 0x0504
  else if !fmode then .ok { x with recs := sput 0#128 x.recs idx (BitVec.ofNat 128 (combineFixed cur r).word) }
  else match x.ranges.find? (fun q => decide (q.1 = idx)) with
    | none => .ok { x with
        recs := sput 0#128 x.recs idx (BitVec.ofNat 128 w), ranges := x.ranges ++ [(idx, ks, lg, 1)] }
    | some (_, ks0, lg0, n) =>
      if n = 1 ∧ lg = lg0 ∧ ks0 / 2 ^ lg / 2 = ks / 2 ^ lg / 2 ∧ ks0 ≠ ks ∧ ks0 % 2 ^ lg = 0 ∧ ks % 2 ^ lg = 0 then
        let y := if ks0 < ks then combineFloat cur r else combineFloat r cur
        .ok { x with
          recs := sput 0#128 x.recs idx (BitVec.ofNat 128 y.word)
          ranges := x.ranges.map (fun q => if q.1 = idx then (idx, min ks0 ks, lg + 1, 2) else q) }
      else .error 0x0504

/-- Every record of a packet combined from an index on; the first refusal refuses the packet whole (R489). -/
def combineAll (fmode : Bool) (ks lg : Nat) : CombTarget → Nat → List Nat → Except Nat CombTarget
  | x, _, [] => .ok x
  | x, idx, w :: ws =>
    match combineAt x fmode ks lg idx w with
    | .error c => .error c
    | .ok y => combineAll fmode ks lg y (idx + 1) ws

/-- The 16-byte words of a run of bytes. -/
def words16 : Nat → List Byte → List Nat
  | 0, _ => []
  | n + 1, bs => if bs = [] then [] else leNat (bs.take 16) :: words16 n (bs.drop 16)

/-- The tile state of an extension with KSTART and KLOG left out (R487): record-header bytes 2-7 and 12's place cleared. -/
def tileKey (tile : List Byte) : List Byte := tile.take 6

/-- KSTART of a tile state (record-header bytes 8-11). -/
def tileKstart (tile : List Byte) : Nat := leAt tile 6 4 % 2 ^ 24

/-- KLOG of a tile state (record-header byte 12). -/
def tileKlog (tile : List Byte) : Nat := leAt tile 10 1

/-- FMODE of a tile state (bit 15 of record-header bytes 6-7). -/
def tileFmode (tile : List Byte) : Bool := decide (bitsOf (leAt tile 4 2) 15 1 = 1)

/-- Whether a block that a REC's extension names is one that its packet may go to (R486): it starts on a 128-byte boundary, lies in one combine region,
holds the packet's addresses, and overlaps no other block of the command. -/
def combineBlockOk (s : State) (k o a base rows n : Nat) : Bool :=
  let len := 32 + rows * 2048
  let inRegion := match regionFor s k base with
    | none => false
    | some j => decide (regionClass s k j = 2) &&
        decide (base + len ≤ fld (s.reg (Reg.crucRgna k j)) 12 36 * 4096 + s.regFld (Reg.crucRgnb k j) 0 37 * 4096)
  let clash := s.fab.comb.any (fun x => decide (x.owner = o) && decide (x.base < base + len) &&
    decide (base < x.base + 32 + x.rows * 2048) && !(decide (x.base = base) && decide (x.rows = rows)))
  decide (base % 128 = 0) && inRegion && !clash && decide (base ≤ a) && decide (a + n ≤ base + len)

/-- A REC packet at the collective engine (R486-R489). -/
def combineReq (s : State) (r : Req) (o a : Nat) (tile : List Byte) (base rows : Nat) (bs : List Byte) : State × Option Poison :=
  let home := homeOf s a
  let x0 := (s.fab.comb.find? (fun x => decide (x.owner = o) && decide (x.base = base))).getD ⟨o, base, rows, tile, tileKstart tile, [], []⟩
  if !combineBlockOk s (ingressOf s r.node home) o a base rows bs.length then combRefuse s r a 0x0512
  else if tileKey x0.tile ≠ tileKey tile then combRefuse s r a 0x0504
  else
    let skip := min bs.length (base + 32 - a)
    let body := bs.drop skip
    match combineAll (tileFmode tile) (tileKstart tile) (tileKlog tile) x0 ((a + skip - base - 32) / 16) (words16 8 body) with
    | .error code => combRefuse s r a code
    | .ok x =>
      let x' := { x with kmin := min x.kmin (tileKstart tile) }
      let rest := s.fab.comb.filter (fun y => !(decide (y.owner = o) && decide (y.base = base)))
      let s1 := (List.range 4).foldl syncStage { s with fab := { s.fab with comb := rest ++ [x'] } }
      ((countCache s1 home (a / 128) (2 ^ 24 - 1)).bump (Reg.crucComb home) (body.length / 16), none)

/-- One REC packet (R469, R486-R489): a REC outside every combine region is a staged write of its data. `tile` is bytes 4-14 of the
extension, `base` and `rows` name the block. -/
def recReq (s : State) (r : Req) (a : Nat) (tile : List Byte) (base rows : Nat) (bs : List Byte) : State × Option Poison :=
  let c := checkReq s r a true
  match c.2, r.owner.map ownerOf with
  | .error p, _ => (c.1, some p)
  | .ok _, none => (c.1, some .refused)
  | .ok cls, some o =>
    if !unbacked c.1 a && !reachable c.1 r a then (poisonAt c.1 (ingressOf c.1 r.node (homeOf c.1 a)), some .fenced)
    else if cls ≠ 2 then writeTxn c.1 r .clean a bs
    else
      let y := atHome c.1 r a bs.length
      match y.2 with
      | .error p => (y.1, some p)
      | .ok _ => combineReq y.1 r o a tile base rows bs

/-- The bytes a combine target becomes at the staging flip (R490): the header from its tile state, then the combined records. -/
def combBlock (x : CombTarget) : List Byte :=
  let recs := ((List.range (x.rows * 128)).map (fun i => leBytes 16 (sget 0#128 x.recs i).toNat)).flatten
  let fm := tileFmode x.tile
  let klog := if fm then (x.ranges.headD (0, 0, 0, 0)).2.2.1 else 0
  let ks := if fm then (x.ranges.headD (0, x.kmin, 0, 0)).2.1 else x.kmin
  leBytes 2 0xACC0 ++ x.tile.take 6 ++ leBytes 4 ks ++ leBytes 1 klog ++ [0#8] ++ leBytes 2 (x.rows - 1) ++
    leBytes 4 (crc32c recs) ++ leBytes 12 0 ++ recs

/-- The 128-byte lines a sorted run of staged bytes touches. -/
def linesOf : List (Nat × Byte) → List Nat
  | [] => []
  | p :: ps =>
    match linesOf ps with
    | [] => [p.1 / 128]
    | l :: ls => if l = p.1 / 128 then l :: ls else p.1 / 128 :: l :: ls

/-- A staged line with its byte mask. -/
def maskedLine (runs : List (Nat × Byte)) (line : Nat) : List (Option Byte) :=
  (List.range 128).map (fun i => runs.lookup (line * 128 + i))


/-- A staged line that becomes committed content (R667). Part of a line that comes from DRAM is a fill, which wakes a parked memory (R541). Where part of it comes from a DRAM line that is uncorrectable, the line becomes LOST in a pending
segment, and otherwise the channel freezes and the staged bytes wait for it (R533 point 3). -/
def flipLine (s : State) (ecc : MemEcc) (line : Nat) (bs : List (Option Byte)) : State :=
  let a := line * 128
  match mapAddr s a with
  | none => writeDramLine s a bs
  | some p =>
    let s0 := awake s p.1
    if bs.all Option.isSome || cached s (p.1 / 16) line then writeDramLine s a bs
    else if s0.chSt p.1 ≠ 2 then writeDramLine s a bs
    else match lineFails ecc a with
      | some info =>
        let u := uncorrectable s0 a info
        if u.2 = .mem 0x0403 then u.1.setMark (cellKey p / 128) ⟨.lost, s0.epoch p.1 (p.2 / 2 ^ 28)⟩ else writeDramLine u.1 a bs
      | none => writeDramLine (if lineCorrected ecc a then s0.bump (Reg.memcCorr (p.1 / 4) (p.1 % 4)) 1 else s0) a bs

/-- R382 step 1: the staged bytes of a command become the committed content; a poisoned line is written back as poisoned (R484). -/
def flipStaged (s : State) (ecc : MemEcc) (owner : Nat) : State :=
  let runs := stagedAll s owner
  let other (k : Nat) : Bool := decide (ownerOf k ≠ owner)
  let blocks := s.fab.comb.filter (fun x => decide (x.owner = owner))
  let spilled := (s.mem.spilled.filter (fun p => !other p.1)).flatMap (·.2)
  let s1 := { s with
    mem := { s.mem with staged := s.mem.staged.filter (fun p => other p.1), spilled := s.mem.spilled.filter (fun p => other p.1) }
    fab := { s.fab with
      comb := s.fab.comb.filter (fun x => decide (x.owner ≠ owner)), badStaged := s.fab.badStaged.filter (fun x => other x.1) }
    bench := { s.bench with spillCopies := s.bench.spillCopies ++ spilled.map (fun l => (homeOf s (64 * l), l)) } }
  let s2 := (linesOf runs).foldl (fun s l => flipLine s ecc l (maskedLine runs l)) s1
  let s3 := blocks.foldl (fun s x => writeDram s x.base (combBlock x)) s2
  let bad := (s.fab.badStaged.filter (fun x => !other x.1)).map (·.2)
  (List.range 4).foldl syncStage (bad.foldl poisonLine s3)

/-- A command's staged lines and combine targets discarded (R384, R395). -/
def dropStaged (s : State) (owner : Nat) : State :=
  let other (k : Nat) : Bool := decide (ownerOf k ≠ owner)
  (List.range 4).foldl syncStage { s with
    mem := { s.mem with staged := s.mem.staged.filter (fun p => other p.1), spilled := s.mem.spilled.filter (fun p => other p.1) }
    fab := { s.fab with
      comb := s.fab.comb.filter (fun x => decide (x.owner ≠ owner)), badStaged := s.fab.badStaged.filter (fun x => other x.1) } }

/-- What one run has staged put back to what it had staged at a saved checkpoint (R118, R384). -/
def dropSince (s : State) (key : Nat) (kept : List (Nat × Byte)) : State :=
  let ls := lines64 kept
  (List.range 4).foldl syncStage { s with
    mem := { s.mem with
      staged := sput [] s.mem.staged key kept
      spilled := sput [] s.mem.spilled key ((sget [] s.mem.spilled key).filter (fun l => ls.contains l)) }
    fab := { s.fab with badStaged := s.fab.badStaged.filter (fun x => decide (x.1 ≠ key) || ls.any (fun l => decide (l / 2 = x.2))) } }

/-- The staged lines of one run discarded (R384). -/
def dropRun (s : State) (key : Nat) : State :=
  (List.range 4).foldl syncStage { s with
    mem := { s.mem with staged := sput [] s.mem.staged key [], spilled := sput [] s.mem.spilled key [] }
    fab := { s.fab with badStaged := s.fab.badStaged.filter (fun x => decide (x.1 ≠ key)) } }

/-! ## Fences and orphans (R466, R558) -/

/-- The node IDs a block's requests carry (R456). -/
def blockNodes : Block → List Nat
  | .core c => [c.val]
  | .die d => (List.range 8).map (8 * d.val + ·)
  | .crucible k => [0x60 + k.val]
  | .channel _ => []
  | .sensorDie => [0x65]
  | .hostDie => [0x64]


/-- R558 point 2: the entries of a block's nodes become orphans. -/
def orphanNodes (s : State) (ns : List Nat) : State :=
  { s with fab := { s.fab with track := s.fab.track.map (fun e => if ns.contains e.node then { e with orphan := true } else e) } }

/-- Whether the ingress crucibles hold an entry of a block's nodes (R558 point 3). -/
def hasEntries (s : State) (ns : List Nat) : Bool := s.fab.track.any (fun e => ns.contains e.node)

/-- A block enters RESET, by either path (R558). -/
def blockToReset (s : State) (b : Block) : State :=
  let s1 := (blockTargets b).foldl fenceTarget s
  let s2 := orphanNodes s1 (blockNodes b)
  s2.setBlock ⟨b, .reset, !hasEntries s2 (blockNodes b)⟩

/-- A block returns to RUN: its fence is lifted and its entry leaves (R557). -/
def blockToRun (s : State) (b : Block) : State :=
  let s1 := { s with rst := { s.rst with blocks := s.rst.blocks.filter (fun x => decide (x.blk ≠ b)) } }
  (blockTargets b).foldl releaseTarget s1

end Sys2Proof.Machine
end

