-- ==== Sys2Proof/Machine/Operands.lean ====
section
/-! DEFINITION. Operand forms of the tile programs: packed elements (R46), the fields of an instruction word (R137), stride and gather
descriptors (R146, R148), the record-block header (R167), the page descriptor (R221) and the word checks (R138, R139, R178). -/

namespace Sys2Proof.Machine

/-! ## Packed elements -/

/-- The bytes that `n` packed elements of a format occupy; FP6 is stored in groups of four elements (R46). -/
def packedBytes (fmt n : Nat) : Nat := if fmtWidth fmt = 6 then 3 * ((n + 3) / 4) else (n * fmtWidth fmt + 7) / 8

/-- Element `i` of packed bytes (R46): the formats' groups are little-endian, so it is a field of the bytes read as one number. -/
def elemAt (fmt : Nat) (bs : List Byte) (i : Nat) : Nat :=
  let w := fmtWidth fmt
  bitsOf (leNat ((bs.drop (i * w / 8)).take (w / 8 + 2))) (i * w % 8) w

/-- `n` elements of packed bytes. -/
def unpackElems (fmt n : Nat) (bs : List Byte) : List Nat := (List.range n).map (elemAt fmt bs)

/-- Elements as one number, element 0 lowest. -/
def packNat (w : Nat) : List Nat → Nat
  | [] => 0
  | x :: xs => x % 2 ^ w + 2 ^ w * packNat w xs

/-- Elements packed into bytes, the unused bits zero (R46). -/
def packElems (fmt : Nat) (xs : List Nat) : List Byte :=
  leBytes (packedBytes fmt xs.length) (packNat (fmtWidth fmt) xs)

/-! ## Instruction words (R137) -/

/-- ENG of a word. -/
def wEng (w : Nat) : Nat := bitsOf w 0 3
/-- OP of a word. -/
def wOp (w : Nat) : Nat := bitsOf w 3 6
/-- WCTR of a word. -/
def wWctr (w : Nat) : Nat := bitsOf w 10 11
/-- WAMT of a word. -/
def wWamt (w : Nat) : Nat := bitsOf w 21 8
/-- SCTR of a word. -/
def wSctr (w : Nat) : Nat := bitsOf w 29 11
/-- SAMT of a word. -/
def wSamt (w : Nat) : Nat := bitsOf w 40 8

/-- Whether the opcode map defines an opcode for an engine (R150). -/
def opDefined (eng op : Nat) : Bool :=
  match eng with
  | 0 => decide (1 ≤ op) && decide (op ≤ 3)
  | 1 => decide (op = 1)
  | 2 => (decide (1 ≤ op) && decide (op ≤ 4)) || (decide (0x08 ≤ op) && decide (op ≤ 0x1A)) ||
      (decide (0x20 ≤ op) && decide (op ≤ 0x27)) || (decide (0x30 ≤ op) && decide (op ≤ 0x33))
  | 3 => decide (op = 1) || decide (op = 2)
  | 4 => decide (1 ≤ op) && decide (op ≤ 3)
  | 5 => decide (op = 1) || decide (op = 2)
  | 6 => decide (1 ≤ op) && decide (op ≤ 4)
  | _ => false

/-- Whether a stream accepts an ENG value (R138). -/
def streamAccepts (stream eng : Nat) : Bool :=
  decide (eng = 6) ||
  match stream with
  | 0 => decide (eng ≤ 1)
  | k => decide (eng = k + 1)

/-! ## Word checks (R178 phase 1) -/

/-- A tile-program fault (R177): its code, its address and whether that is a device address, the slot named and the auxiliary code. -/
structure TFault where
  code : Nat
  addr : Nat
  dev : Bool
  slot : Nat
  xcode : Nat
  deriving DecidableEq, Repr

/-- A fault that has no address. -/
def TFault.plain (code : Nat) : TFault := ⟨code, 0, false, 0, 0⟩

/-- A fault of an instruction that names a slot (R184). -/
def TFault.inSlot (n : Nat) (f : TFault) : TFault := { f with slot := n }

/-- Faults that hold, each under its condition. -/
def whenF (b : Bool) (f : TFault) : List TFault := if b then [f] else []

/-- The fault that stands earliest in R177 (the lowest code, the first of them where two share it). -/
def firstFault : List TFault → Option TFault
  | [] => none
  | f :: fs =>
    match firstFault fs with
    | none => some f
    | some g => if g.code < f.code then some g else some f

/-- RESERVED when a field that must be zero is not. -/
def resv (w lo n : Nat) : List TFault := whenF (decide (bitsOf w lo n ≠ 0)) (.plain 0x0202)

/-- The end of scratchpad (R92). -/
def spEnd : Nat := 0x600000

/-- SP_ADDRESS for a footprint outside scratchpad or off its alignment (R145, R184: the first failing byte). -/
def spCheck (addr len align : Nat) : List TFault :=
  whenF (decide (addr % align ≠ 0)) ⟨0x0208, addr, false, 0, 0⟩ ++
  whenF (decide (spEnd < addr + len)) ⟨0x0208, max addr spEnd, false, 0, 0⟩

/-- Formats the array takes as elements (R64): INT4, INT8, INT16 and the floats up to FP16. -/
def arrayFmt (f : Nat) : Bool := decide (f ≤ 2) || (decide (4 ≤ f) && decide (f ≤ 0xA))

/-- Formats with no more than 8 bits. -/
def narrowFmt (f : Nat) : Bool := decide (f = 0) || decide (f = 1) || (decide (4 ≤ f) && decide (f ≤ 8))

/-- BF16 and FP16. -/
def treeFmt (f : Nat) : Bool := decide (f = 9) || decide (f = 0xA)

/-- The operand pairs of R64. -/
def pairOk (a b : Nat) : Bool :=
  (narrowFmt a && narrowFmt b) || (treeFmt a && treeFmt b) ||
  (decide (a = 2) && decide (b ≤ 2)) || (decide (b = 2) && decide (a ≤ 2))

/-- The scale combinations of R55. -/
def scaleOk (scale elem : Nat) : Bool :=
  if scale = 0xC then [7, 8, 5, 6, 4, 1].contains elem
  else if scale = 0xD then [7, 5, 6, 4, 0].contains elem else false

/-- CLR (R151). -/
def checkClr (w : Nat) : List TFault :=
  let a := bitsOf w 62 4
  let b := bitsOf w 66 4
  let sa := bitsOf w 70 4
  let ea := decide (bitsOf w 74 1 = 1)
  let sb := bitsOf w 75 4
  let eb := decide (bitsOf w 79 1 = 1)
  let fm := treeFmt a && treeFmt b
  resv w 51 1 ++ resv w 109 19 ++ whenF (!fm && decide (bitsOf w 104 5 ≠ 0)) (.plain 0x0202) ++
  whenF (!arrayFmt a || !arrayFmt b) (.plain 0x0203) ++
  whenF (ea && decide (sa ≠ 0xC) && decide (sa ≠ 0xD)) (.plain 0x0203) ++
  whenF (eb && decide (sb ≠ 0xC) && decide (sb ≠ 0xD)) (.plain 0x0203) ++
  whenF (!pairOk a b) (.plain 0x0204) ++
  whenF ((ea && !scaleOk sa a) || (eb && !scaleOk sb b)) (.plain 0x0205) ++
  whenF (fm && decide (23 < bitsOf w 104 5)) (.plain 0x020C)

/-- The line of a weight row (R152). -/
def weightLine (fmt : Nat) : Nat :=
  match fmtWidth fmt with
  | 4 => 64
  | 6 => 96
  | 8 => 128
  | _ => 256

/-- The scale format SCLB names (R152). -/
def sclbFmt (b : Nat) : Nat := if b = 1 then 0xD else 0xC

/-- The length of a scale block (R55). -/
def blockLen (scale : Nat) : Nat := if scale = 0xD then 16 else 32

/-- WLD (R152). -/
def checkWld (w : Nat) : List TFault :=
  let f := bitsOf w 120 4
  let depth := bitsOf w 71 8 + 1
  let scaled := decide (bitsOf w 124 1 = 1)
  let l := blockLen (sclbFmt (bitsOf w 125 1))
  resv w 126 2 ++ whenF (!arrayFmt f) (.plain 0x0203) ++
  whenF (scaled && !scaleOk (sclbFmt (bitsOf w 125 1)) f) (.plain 0x0205) ++
  spCheck (bitsOf w 48 16 * 128) (depth * weightLine f) 1 ++
  (if scaled then spCheck (bitsOf w 79 17 * 64) ((depth + l - 1) / l * 128) 1 else [])

/-- MM (R153). DESIGN CHOICE: the alignment of ASPA and its first byte, which the word alone fixes, are word checks; the rest of the footprint depends on
the tile and the weights and is an issue check, a phase that R178 names for neither. -/
def checkMm (w : Nat) : List TFault :=
  resv w 122 6 ++ spCheck (bitsOf w 48 23) 1 64 ++
  whenF (decide (127 < bitsOf w 71 7 + bitsOf w 78 7)) (.plain 0x020C) ++
  whenF (decide (bitsOf w 88 16 % 64 ≠ 0)) (.plain 0x020C)

/-- The bytes of a drained row (R156). -/
def drainRow (fmt : Nat) : Nat := if fmt = 0xE then 2048 else 128 * fmtWidth fmt / 8

/-- DRN (R156). -/
def checkDrn (w : Nat) : List TFault :=
  let f := bitsOf w 104 4
  let rows := bitsOf w 58 7
  let pitch := bitsOf w 88 16
  resv w 111 17 ++ whenF (decide (f = 0xE) && decide (bitsOf w 108 3 ≠ 0)) (.plain 0x0202) ++
  whenF (decide (f = 0xC) || decide (f = 0xD) || decide (f = 0xF)) (.plain 0x0203) ++
  spCheck (bitsOf w 65 23) (rows * pitch + drainRow f) 64 ++
  whenF (decide (127 < bitsOf w 51 7 + rows)) (.plain 0x020C) ++
  whenF (decide (pitch % 64 ≠ 0) || decide (pitch < drainRow f)) (.plain 0x020C)

/-- Which fields an opcode of the register form consults (R661): VA, VB with BIMM and IMM, VC, TYPE, RM, SAT, PRED, FMT. A TYPE of 0 or 1
must hold that type, 2 is either. -/
structure VForm where
  va : Bool
  vb : Bool
  vc : Bool
  type : Option Nat
  rm : Bool
  sat : Bool
  pred : Option Nat
  fmt : Bool
  bimm : Bool
  imm : Bool
  deriving DecidableEq, Repr

/-- The rows of R661. -/
def vform (op : Nat) : VForm :=
  match op with
  | 0x04 => ⟨false, false, false, none, false, false, none, false, false, true⟩
  | 0x0B => ⟨true, true, true, some 2, true, true, none, false, true, true⟩
  | 0x0D => ⟨true, false, false, some 0, true, false, none, false, false, false⟩
  | 0x0E => ⟨true, true, false, some 2, false, false, none, false, true, true⟩
  | 0x0F => ⟨true, true, false, some 2, false, false, none, false, true, true⟩
  | 0x10 => ⟨true, false, false, some 2, false, true, none, false, false, false⟩
  | 0x11 => ⟨true, false, false, some 2, false, true, none, false, false, false⟩
  | 0x12 => ⟨true, true, false, some 2, false, false, some 5, false, true, true⟩
  | 0x13 => ⟨true, true, true, none, false, false, none, false, true, true⟩
  | 0x14 => ⟨true, true, false, some 1, false, false, none, false, true, true⟩
  | 0x15 => ⟨true, true, false, some 1, false, false, none, false, true, true⟩
  | 0x16 => ⟨true, true, false, some 1, false, false, none, false, true, true⟩
  | 0x17 => ⟨true, true, false, some 1, false, false, none, false, true, true⟩
  | 0x18 => ⟨true, true, false, some 1, false, false, some 1, false, true, true⟩
  | 0x19 => ⟨true, false, false, some 2, true, true, none, false, false, false⟩
  | 0x1A => ⟨true, false, false, some 0, true, true, none, true, false, false⟩
  | 0x20 => ⟨true, false, false, some 0, false, true, none, false, false, false⟩
  | 0x21 => ⟨true, false, false, some 0, false, false, none, false, false, false⟩
  | 0x22 => ⟨true, false, false, some 0, false, false, none, false, false, false⟩
  | 0x23 => ⟨true, false, false, some 0, false, false, none, false, false, false⟩
  | 0x24 => ⟨true, false, false, some 0, false, false, none, false, false, false⟩
  | 0x25 => ⟨true, false, false, some 0, false, false, none, false, false, false⟩
  | 0x26 => ⟨true, false, false, some 0, false, false, none, false, false, false⟩
  | 0x27 => ⟨true, true, false, some 0, false, true, none, false, false, true⟩
  | 0x30 => ⟨true, false, false, some 2, true, true, none, false, false, false⟩
  | 0x31 => ⟨true, false, false, some 2, false, false, none, false, false, false⟩
  | 0x32 => ⟨true, false, false, some 2, false, false, none, false, false, false⟩
  | 0x33 => ⟨true, false, false, some 2, true, true, none, false, false, false⟩
  | _ => ⟨true, true, false, some 2, true, true, none, false, true, true⟩

/-- The register form (R157, R661). -/
def checkVreg (w : Nat) : List TFault :=
  let f := vform (wOp w)
  let t := bitsOf w 68 1
  let p := bitsOf w 83 3
  (if f.va then [] else resv w 53 5) ++ (if f.vb then [] else resv w 58 5) ++ (if f.vc then [] else resv w 63 5) ++
  (if f.type.isSome then [] else resv w 68 1) ++ (if f.rm then [] else resv w 69 2) ++ (if f.sat then [] else resv w 71 1) ++
  (if f.bimm then [] else resv w 82 1) ++ (if f.pred.isSome then [] else resv w 83 3) ++ resv w 86 1 ++
  (if f.fmt then [] else resv w 87 4) ++ resv w 91 5 ++ (if f.imm then [] else resv w 96 32) ++
  whenF (f.fmt && decide (0xE ≤ bitsOf w 87 4)) (.plain 0x0203) ++
  whenF (match f.type with
    | some 0 => decide (t ≠ 0)
    | some 1 => decide (t ≠ 1)
    | _ => false) (.plain 0x020C) ++
  whenF (match f.pred with
    | some m => decide (m < p)
    | none => false) (.plain 0x020C) ++
  whenF (decide (511 < bitsOf w 72 10)) (.plain 0x020C)

/-- The memory form (R159). -/
def checkVmem (w : Nat) : List TFault :=
  let op := wOp w
  let f := bitsOf w 76 4
  let n := bitsOf w 80 10 + 1
  resv w 93 35 ++ (if op = 2 then [] else resv w 90 3) ++
  whenF (if op = 3 then decide (f ≠ 0xC) && decide (f ≠ 0xD) else decide (0xE ≤ f)) (.plain 0x0203) ++
  spCheck (bitsOf w 53 23)
    (if op = 3 then (n + blockLen f - 1) / blockLen f else packedBytes f n) (if fmtWidth f = 6 then 3 else 1) ++
  whenF (decide (511 < bitsOf w 80 10)) (.plain 0x020C)

/-- A descriptor's place (R146): 32 bytes at index × 32. -/
def descCheck (idx : Nat) : List TFault := spCheck (idx * 32) 32 1

/-- LD and ST (R166). The footprint depends on the descriptor and is checked at issue (R145). -/
def checkLdSt (w : Nat) : List TFault := resv w 89 39 ++ descCheck (bitsOf w 71 18)

/-- LDACC and STACC (R167). -/
def checkRecBlock (load : Bool) (w : Nat) : List TFault :=
  resv w 84 44 ++ (if load then [] else resv w 83 1) ++ descCheck (bitsOf w 65 18) ++
  whenF (decide (127 < bitsOf w 51 7 + bitsOf w 58 7)) (.plain 0x020C)

/-- STSIG (R169). -/
def checkStsig (w : Nat) : List TFault :=
  let f := bitsOf w 87 4
  resv w 111 1 ++ whenF (decide (f = 0xF)) (.plain 0x0203) ++
  spCheck (bitsOf w 48 23) (bitsOf w 71 16 * (128 * fmtWidth f / 8)) 64 ++
  (if bitsOf w 110 1 = 1 then spCheck (bitsOf w 92 18 * 32) 128 1 else []) ++
  whenF (decide (bitsOf w 71 16 = 0)) (.plain 0x020C) ++
  whenF (decide (0xC ≤ f) && decide (f ≠ 0xF)) (.plain 0x020C)

/-- GIDX (R170). Its footprints depend on the descriptor and are checked at issue (R145). -/
def checkGidx (w : Nat) : List TFault := resv w 112 16 ++ descCheck (bitsOf w 71 18)

/-- GPAGE (R170). -/
def checkGpage (w : Nat) : List TFault := resv w 89 39 ++ spCheck (bitsOf w 48 23) 1 1 ++ descCheck (bitsOf w 71 18)

/-- Every word check of a word at the head of a stream (R138, R139, R178, R200); `carry` says that the program has
checkpoint markers. -/
def wordChecks (stream : Nat) (carry : Bool) (w : Nat) : List TFault :=
  let eng := wEng w
  let op := wOp w
  if w = 0 ∨ !streamAccepts stream eng ∨ !opDefined eng op then [.plain 0x0201]
  else
    resv w 9 1 ++
    (match eng, op with
      | 0, 1 => checkClr w
      | 0, 2 => checkWld w
      | 0, _ => checkMm w
      | 1, _ => checkDrn w
      | 2, 1 => checkVmem w
      | 2, 2 => checkVmem w
      | 2, 3 => checkVmem w
      | 2, _ => checkVreg w
      | 3, 1 => checkLdSt w
      | 3, _ => checkRecBlock true w
      | 4, 1 => checkLdSt w
      | 4, 2 => checkRecBlock false w
      | 4, _ => checkStsig w
      | 5, 1 => checkGidx w
      | 5, _ => checkGpage w
      | _, 3 => resv w 72 56
      | _, _ => resv w 48 80) ++
    whenF (carry && ((decide (wWamt w ≠ 0) && decide (1920 ≤ wWctr w)) || (decide (wSamt w ≠ 0) && decide (1920 ≤ wSctr w))))
      (.plain 0x0303)

/-! ## Descriptors -/

/-- A stride descriptor (R146). -/
structure Stride where
  offset : Int
  slot : Nat
  run : Nat
  cnt1 : Nat
  str1 : Int
  cnt2 : Nat
  str2 : Int
  cnt3 : Nat
  str3 : Int
  pitch : Nat
  deriving DecidableEq, Repr

/-- A stride descriptor read from its 32 bytes. -/
def strideOf (v : Nat) : Stride :=
  ⟨signedOf (bitsOf v 0 40) 40, bitsOf v 40 5, bitsOf v 48 16, bitsOf v 64 16, signedOf (bitsOf v 80 32) 32,
    bitsOf v 112 16, signedOf (bitsOf v 128 32) 32, bitsOf v 160 16, signedOf (bitsOf v 176 32) 32, bitsOf v 208 24⟩

/-- The reserved bits of a stride descriptor. -/
def strideResv (v : Nat) : List TFault := resv v 45 3 ++ resv v 232 24

/-- The scratchpad pitch in force. -/
def Stride.p (d : Stride) : Nat := if d.pitch = 0 then d.run else d.pitch

/-- The runs in the order of R147 (i1 fastest): device address relative to BASE, and scratchpad offset. -/
def Stride.runs (d : Stride) : List (Int × Nat) :=
  (List.range d.cnt3).flatMap (fun (i3 : Nat) => (List.range d.cnt2).flatMap (fun (i2 : Nat) => (List.range d.cnt1).map (fun (i1 : Nat) =>
    (d.offset + (i1 : Int) * d.str1 + (i2 : Int) * d.str2 + (i3 : Int) * d.str3,
      ((i3 * d.cnt2 + i2) * d.cnt1 + i1) * d.p))))

/-- The lowest device offset of a dimension's runs. -/
def dimLow (cnt : Nat) (str : Int) : Int := min 0 (((cnt : Int) - 1) * str)

/-- The highest device offset of a dimension's runs. -/
def dimHigh (cnt : Nat) (str : Int) : Int := max 0 (((cnt : Int) - 1) * str)

/-- The lowest and highest byte offsets of the whole footprint (R136). -/
def Stride.span (d : Stride) : Int × Int :=
  (d.offset + dimLow d.cnt1 d.str1 + dimLow d.cnt2 d.str2 + dimLow d.cnt3 d.str3,
   d.offset + dimHigh d.cnt1 d.str1 + dimHigh d.cnt2 d.str2 + dimHigh d.cnt3 d.str3 + d.run - 1)

/-- The scratchpad bytes from the first run's start to the last run's end. -/
def Stride.spLen (d : Stride) : Nat := (d.cnt1 * d.cnt2 * d.cnt3 - 1) * d.p + d.run

/-- A gather descriptor (R148). -/
structure GatherD where
  offset : Int
  slot : Nat
  rowb : Nat
  rowstr : Int
  cnt : Nat
  pitch : Nat
  deriving DecidableEq, Repr

/-- A gather descriptor read from its 32 bytes. -/
def gatherOf (v : Nat) : GatherD :=
  ⟨signedOf (bitsOf v 0 40) 40, bitsOf v 40 5, bitsOf v 48 16, signedOf (bitsOf v 64 32) 32, bitsOf v 96 16, bitsOf v 112 24⟩

/-- The scratchpad pitch in force. -/
def GatherD.p (d : GatherD) : Nat := if d.pitch = 0 then d.rowb else d.pitch

/-- A page descriptor (R221). -/
structure PageD where
  seq : Nat
  mode : Nat
  pad : Bool
  layer : Nat
  head : Nat
  pos0 : Nat
  ntok : Nat
  pitch : Nat
  qpos0 : Nat
  nqm1 : Nat
  deriving DecidableEq, Repr

/-- A page descriptor read from its 32 bytes. -/
def pageOf (v : Nat) : PageD :=
  ⟨bitsOf v 0 10, bitsOf v 10 2, decide (bitsOf v 12 1 = 1), bitsOf v 16 8, bitsOf v 24 8, bitsOf v 32 16, bitsOf v 48 17,
    bitsOf v 65 24, bitsOf v 89 16, bitsOf v 105 7⟩

/-- The record-block header of a tile (R167): 32 bytes. -/
def blockHeader (t : TileSt) (rows crc : Nat) : List Byte :=
  leBytes 2 0xACC0 ++ leBytes 1 (t.fmta + 16 * t.fmtb) ++ leBytes 1 (t.scfa + 16 * t.scea.toNat) ++
    leBytes 1 (t.scfb + 16 * t.sceb.toNat) ++ leBytes 1 t.seg ++ leBytes 2 (wrapInt t.anchor 10 + 0x8000 * t.fmode.toNat) ++
    leBytes 4 t.kstart ++ leBytes 1 t.klog ++ [0#8] ++ leBytes 2 (rows - 1) ++ leBytes 4 crc ++ leBytes 12 0

/-- The tile state of record-header bytes 2-12. -/
def tileOfHeader (h : List Byte) : TileSt :=
  let b (i : Nat) : Nat := leAt h i 1
  let am := leAt h 6 2
  ⟨signedOf (bitsOf am 0 10) 10, decide (bitsOf am 15 1 = 1), b 2 % 16, b 2 / 16, b 3 % 16, decide (bitsOf (b 3) 4 1 = 1),
    b 4 % 16, decide (bitsOf (b 4) 4 1 = 1), b 5, leAt h 8 4 % 2 ^ 24, b 12⟩

/-- Whether a record-block header is well formed (R167, R168 step 1): MAGIC, reserved bits, and a tile state that CLR could set. -/
def headerOk (h : List Byte) : Bool :=
  let t := tileOfHeader h
  let b (i : Nat) : Nat := leAt h i 1
  let fm := treeFmt t.fmta && treeFmt t.fmtb
  let segOk := t.seg = (if (t.scea ∧ t.scfa = 0xD) ∨ (t.sceb ∧ t.scfb = 0xD) then 16
    else if t.scea ∨ t.sceb then 32 else 1)
  decide (leAt h 0 2 = 0xACC0) && decide (b 3 / 32 = 0) && decide (b 4 / 32 = 0) && decide (bitsOf (leAt h 6 2) 10 5 = 0) &&
    decide (b 11 = 0) && decide (b 13 = 0) && allZero (sliceBytes h 20 12) && pairOk t.fmta t.fmtb &&
    (!t.scea || scaleOk t.scfa t.fmta) && (!t.sceb || scaleOk t.scfb t.fmtb) && decide (t.fmode = fm) && decide segOk &&
    decide (t.klog ≤ 23) && (fm || decide (t.klog = 0)) && (!fm || decide (t.kstart % 2 ^ t.klog = 0))

end Sys2Proof.Machine
end

