-- ==== Sys2Proof/Machine/Seq.lean ====
section
/-! DEFINITION. The sequencer of a core: scratchpad access, tile-program faults (R177-R180), sync counters and pending
records (R187-R199), issue and completion (R137-R144, R178), and the stream states it reports (R182). -/

namespace Sys2Proof.Machine

/-! ## The program on a core -/

/-- CORE_CMD.SEQ. -/
def State.cmdSeq (s : State) (c : Nat) : Nat := s.regFld (Reg.coreCmd c) 0 32
/-- CORE_CMD.PART. -/
def State.cmdPart (s : State) (c : Nat) : Nat := s.regFld (Reg.coreCmd c) 32 4
/-- CORE_CMD.CLASS. -/
def State.cmdClass (s : State) (c : Nat) : Nat := s.regFld (Reg.coreCmd c) 36 2
/-- CORE_CMD.SPEC. -/
def State.cmdSpec (s : State) (c : Nat) : Bool := s.regBit (Reg.coreCmd c) 38
/-- CORE_CMD.VALID. -/
def State.cmdValid (s : State) (c : Nat) : Bool := s.regBit (Reg.coreCmd c) 39

/-- The key of the command that owns a core's program. -/
def State.cmdOwner (s : State) (c : Nat) : Nat := cmdKey (s.cmdPart c) (s.cmdSeq c)

/-- The requests of a core's engines (R108, R109, R456); they stage for the run (R372). -/
def coreReq (s : State) (c : Nat) : Req :=
  ⟨c, s.cmdPart c, true, s.cmdClass c, some (runKey (s.cmdOwner c) (s.core c).run.prog)⟩

/-- The register of a stream's next word index (R181). -/
def tpword (c k : Nat) : Nat := Reg.coreTpword0 c + 8 * k

/-- A stream of the program. -/
def Core.stream (x : Core) (k : Nat) : Stream := x.streams.getD k ⟨0, 0, 0, true, false⟩

/-- A stream's next word index: CORE_TPWORD's 24 bits, and 2^24 behind the last word of the longest stream (R134, R181). -/
def State.nextWord (s : State) (c k : Nat) : Nat :=
  s.regFld (tpword c k) 0 24 + (if ((s.core c).stream k).past then 2 ^ 24 else 0)

/-- A stream replaced. -/
def Core.setStream (x : Core) (k : Nat) (v : Stream) : Core := { x with streams := x.streams.set k v }

/-- A request for a checkpoint is pending (R183). -/
def State.ckptReq (s : State) (c : Nat) : Bool := s.regBit (Reg.coreTpckpt c) 48

/-- CORE_TPCKPT.TARGET. -/
def State.ckptTarget (s : State) (c : Nat) : Nat := s.regFld (Reg.coreTpckpt c) 24 24

/-- Whether a stream has issued the marker of the last request's target. No marker has the number 2^24, which TARGET shows as 0. -/
def markerPassed (s : State) (c k : Nat) : Bool :=
  decide (s.ckptTarget c ≠ 0) && decide (s.ckptTarget c ≤ ((s.core c).stream k).marker)

/-- Whether a stream stands at the marker of a pending request's target, beyond which it issues nothing (R172). -/
def atTarget (s : State) (c k : Nat) : Bool := s.ckptReq c && markerPassed s c k

/-- The word a stream issues next, when the instruction buffer holds it: none when it is not there, some none when it is poisoned. -/
def headWord (s : State) (c k : Nat) : Option (Option (BitVec 128)) :=
  if ((s.core c).stream k).ended then none else (s.core c).buf.lookup (k * 2 ^ 24 + s.nextWord c k)

/-- Whether the program has checkpoint markers. -/
def hasMarkers (s : State) (c : Nat) : Bool := decide ((s.core c).nckpt ≠ 0)

/-! ## Scratchpad (R92-R95) -/

/-- A scratchpad byte. -/
def Core.spByte (x : Core) (a : Nat) : Byte := sget 0#8 x.sp a

/-- Scratchpad bytes. -/
def Core.spRead (x : Core) (a n : Nat) : List Byte := (List.range n).map (fun i => x.spByte (a + i))

/-- Scratchpad bytes written. -/
def Core.spPut : Core → Nat → List Byte → Core
  | x, _, [] => x
  | x, a, b :: bs => Core.spPut { x with sp := sput 0#8 x.sp a b } (a + 1) bs

/-- Words a write covers whole hold a fresh code whatever error they held (R94). -/
def Core.spClean (x : Core) (a n : Nat) : Core :=
  { x with spBad := x.spBad.filter (fun w => !(decide (a ≤ 8 * w) && decide (8 * w + 8 ≤ a + n))) }

/-- Scratchpad bytes written with their words' codes. -/
def Core.spWrite (x : Core) (a : Nat) (bs : List Byte) : Core := (x.spPut a bs).spClean a bs.length

/-- The lowest uncorrectable word in a range of bytes, partly covered words included. -/
def Core.spBadIn (x : Core) (a n : Nat) : Option Nat :=
  if n = 0 then none else (x.spBad.filter (fun w => decide (8 * w < a + n) && decide (a < 8 * w + 8))).min?

/-- The lowest uncorrectable word that a write covers only in part: the read-merge-write finds it (R94). -/
def Core.spBadPart (x : Core) (a n : Nat) : Option Nat :=
  if n = 0 then none
  else (x.spBad.filter (fun w => decide (8 * w < a + n) && decide (a < 8 * w + 8) &&
    !(decide (a ≤ 8 * w) && decide (8 * w + 8 ≤ a + n)))).min?

/-- What the check bits show during an instruction, taken into the core: corrected words are counted, an uncorrectable word stays so until it
is written whole (R94). -/
def takeEcc (s : State) (c : Nat) (e : SpEcc) : State :=
  match e with
  | .clean => s
  | .corrected n => s.bump (Reg.coreSpecc c) n.toNat
  | .uncorrectable w =>
    let x := s.core c
    if x.spBad.contains w.val then s else s.setCore c { x with spBad := x.spBad ++ [w.val] }

/-- SP_DATA at an uncorrectable word (R94, R184). -/
def spData (a w : Nat) : TFault := ⟨0x0209, max a (8 * w), false, 0, 0⟩

/-- Bytes an engine reads, or the scratchpad data fault. -/
def spFetch (s : State) (c a n : Nat) : Except TFault (List Byte) :=
  match (s.core c).spBadIn a n with
  | some w => .error (spData a w)
  | none => .ok ((s.core c).spRead a n)

/-- Bytes an engine writes, or the scratchpad data fault of a partly covered uncorrectable word. -/
def spStore (s : State) (c a : Nat) (bs : List Byte) : Except TFault State :=
  match (s.core c).spBadPart a bs.length with
  | some w => .error (spData a w)
  | none => .ok (s.setCore c ((s.core c).spWrite a bs))

/-! ## Sync counters (R187-R199) -/

/-- Whether a counter is carried (R187). -/
def isCarried (n : Nat) : Bool := decide (1920 ≤ n)

/-- Whether a core executes a reblow or tie-break run: carried counters act on a private copy (R409), and stores are not sent (R407, R429). -/
def shadowRun (s : State) (c : Nat) : Bool := decide ((s.core c).run.kind ≠ .main)

/-- Whether a counter goes through the pending record of the owning command. -/
def recorded (s : State) (c n : Nat) : Bool := isCarried n && !shadowRun s c

/-- The value a wait compares: for a carried counter its register shows V (R198); in a reblow or tie-break run the private copy (R409). -/
def State.syncVal (s : State) (c n : Nat) : Nat :=
  if isCarried n && shadowRun s c then sget 0 (s.core c).priv n else s.regFld (Reg.coreSync c n) 0 32

/-- A counter's register, or its private copy, replaced. -/
def State.setSync (s : State) (c n v : Nat) : State :=
  if isCarried n && shadowRun s c then s.setCore c { s.core c with priv := sput 0 (s.core c).priv n v }
  else s.setRegFld (Reg.coreSync c n) 0 32 v

/-- The committed value of a carried counter. -/
def Core.committed (x : Core) (n : Nat) : Nat := sget 0 x.carried n

/-- The sum of D over the pending records. -/
def Core.sumD (x : Core) (n : Nat) : Nat := (x.records.map (fun r => sget 0 r.d n)).foldl (· + ·) 0

/-- The sum of P over the pending records. -/
def Core.sumP (x : Core) (n : Nat) : Nat := (x.records.map (fun r => sget 0 r.p n)).foldl (· + ·) 0

/-- V of a carried counter written into its register. -/
def syncV (s : State) (c n : Nat) : State :=
  s.setRegFld (Reg.coreSync c n) 0 32 ((s.core c).committed n - (s.core c).sumD n)

/-- V of every carried counter written into its register. -/
def syncAllV (s : State) (c : Nat) : State := (List.range 128).foldl (fun s i => syncV s c (1920 + i)) s

/-- Whether the owning command has, or can be given, a pending record (R196). -/
def recordReady (s : State) (c : Nat) : Bool :=
  (s.core c).records.any (fun r => decide (r.owner = s.cmdOwner c)) || decide ((s.core c).records.length < 4)

/-- The owning command is given its pending record at its first wait on or signal of a carried counter (R196). -/
def giveRecord (s : State) (c : Nat) : State :=
  let x := s.core c
  if x.records.any (fun r => decide (r.owner = s.cmdOwner c)) then s
  else if x.records.length < 4 then s.setCore c { x with records := x.records ++ [⟨s.cmdOwner c, [], []⟩] } else s

/-- The owning command's record changed. -/
def mapRecord (s : State) (c : Nat) (f : PendRec → PendRec) : State :=
  let x := s.core c
  s.setCore c { x with records := x.records.map (fun r => if r.owner = s.cmdOwner c then f r else r) }

/-- A wait taken (R191, R198). -/
def takeWait (s : State) (c n amt : Nat) : State :=
  if recorded s c n then syncV (mapRecord s c (fun r => { r with d := sput 0 r.d n (sget 0 r.d n + amt) })) c n
  else s.setSync c n (s.syncVal c n - amt)

/-- The limit of every counter. -/
def syncMax : Nat := 2 ^ 32 - 1

/-- Whether a signal would take its counter beyond the limit (R193, R198). -/
def signalOverflows (s : State) (c n amt : Nat) : Bool :=
  if recorded s c n then decide (syncMax < (s.core c).committed n + (s.core c).sumP n + amt)
  else decide (syncMax < s.syncVal c n + amt)

/-- A signal applied (R190, R197). -/
def applySignal (s : State) (c n amt : Nat) : State :=
  if recorded s c n then mapRecord (giveRecord s c) c (fun r => { r with p := sput 0 r.p n (sget 0 r.p n + amt) })
  else s.setSync c n (s.syncVal c n + amt)

/-! ## The core window (R97, R100) and the replay of debug writes (R415) -/

/-- A byte of the core's window: scratchpad, or a byte of an accumulator's VALUE (R97). -/
def Core.windowByte (x : Core) (off : Nat) : Byte :=
  if off < 0x600000 then x.spByte off
  else
    let o := off - 0x800000
    BitVec.ofNat 8 ((sget Acc.zero x.accs (o / 12)).value.toNat / 256 ^ (o % 12))

/-- Bytes of the window. -/
def Core.windowRead (x : Core) (off n : Nat) : List Byte := (List.range n).map (fun i => x.windowByte (off + i))

/-- A byte of an accumulator's VALUE replaced; its tag byte stands (R97). -/
def Core.putValueByte (x : Core) (o : Nat) (b : Byte) : Core :=
  let a := sget Acc.zero x.accs (o / 12)
  let v := a.value.toNat - a.value.toNat / 256 ^ (o % 12) % 256 * 256 ^ (o % 12) + b.toNat * 256 ^ (o % 12)
  { x with accs := sput Acc.zero x.accs (o / 12) { a with value := BitVec.ofNat 96 v } }

/-- Bytes written through the window; scratchpad words take fresh codes (R94). -/
def Core.windowWrite (x : Core) (off : Nat) (bs : List Byte) : Core :=
  if off < 0x600000 then x.spWrite off bs
  else (bs.zipIdx).foldl (fun x p => x.putValueByte (off - 0x800000 + p.2) p.1) x

/-- The device address of a core's window. -/
def windowBase (c : Nat) : Nat := 0x800000000000 + 0x1000000 * c

/-- The five next word indices. -/
def nextWords (s : State) (c : Nat) : List Nat := (List.range 5).map (s.nextWord c)

/-- A logged debug write applied to the core that replays it: to its window, or to its counter of the number logged. -/
def applyDebugWrite (s : State) (c : Nat) (d : DebugWrite) : State :=
  if d.addr < 0xF00000000000 then s.setCore c ((s.core c).windowWrite d.addr d.bytes)
  else s.setSync c (d.addr - 0xF00000000000) (leNat d.bytes)

/-- A stream of a reblow run that stands at the next logged halt point (R415). -/
def atReplay (s : State) (c k : Nat) : Bool :=
  match (s.core c).debugLog with
  | d :: _ => decide ((s.core c).run.kind = .reblow) && decide (d.points.getD k 0 ≤ s.nextWord c k)
  | [] => false

/-- R415: a reblow run whose streams all stand at the next logged halt point, everything before it completed, applies that point's
writes in logged order. -/
def replay (s : State) (c : Nat) : State :=
  let x := s.core c
  match x.debugLog with
  | [] => s
  | d :: _ =>
    if (List.range 5).all (atReplay s c) && x.flight.isEmpty then
      let now := x.debugLog.takeWhile (fun e => decide (e.points = d.points))
      let s1 := now.foldl (fun s e => applyDebugWrite s c e) s
      s1.setCore c { s1.core c with debugLog := x.debugLog.dropWhile (fun e => decide (e.points = d.points)) }
    else s

/-! ## Stream states (R182) -/

/-- Whether a wait of the head word stalls because it needs a fifth record, which is no starved wait (R196). -/
def recordStalled (s : State) (c w : Nat) : Bool := decide (wWamt w ≠ 0) && recorded s c (wWctr w) && !recordReady s c

/-- Whether a wait of the head word is blocked on its counter (R191). -/
def counterBlocked (s : State) (c w : Nat) : Bool :=
  !recordStalled s c w && decide (wWamt w ≠ 0) && decide (s.syncVal c (wWctr w) < wWamt w)

/-- Whether a wait of the head word is not satisfied (R191, R196). -/
def waitBlocked (s : State) (c w : Nat) : Bool := recordStalled s c w || counterBlocked s c w

/-- The transactions an engine of a core has in flight (R108). -/
def engineTxns (s : State) (c eng : Nat) : Nat :=
  (((s.core c).flight.filter (fun f => decide (f.eng = eng) && !f.done)).map (·.txns)).foldl (· + ·) 0

/-- The transactions an engine may have in flight (R108): the load engine with the sequencer's fetches, the store and the gather engine. -/
def engineLimit (eng : Nat) : Nat := if eng = 3 then 768 else 256

/-- Whether the unit an instruction needs is held (R91, R108, R152): the MAC unit and the drain unit execute one instruction at a time, but
for a WLD beside an MM; an MM that swaps waits for its weight load; a load, store or gather engine at its limit waits for a completion. -/
def unitBusy (s : State) (c eng op w : Nat) : Bool :=
  let fl := (s.core c).flight.filter (fun f => !f.done)
  let wld := fl.any (fun f => decide (f.eng = 0) && decide (f.op = 2))
  if eng = 0 ∧ op = 2 then fl.any (fun f => decide (f.eng = 0) && decide (f.op ≠ 3))
  else if eng = 0 then
    fl.any (fun f => decide (f.eng = 0) && (decide (f.op ≠ 2) || decide (op ≠ 3))) ||
      (decide (op = 3) && decide (bitsOf w 121 1 = 1) && !(s.core c).swapped && wld)
  else if eng = 1 then fl.any (fun f => decide (f.eng = 1))
  else if 3 ≤ eng ∧ eng ≤ 5 then decide (engineLimit eng ≤ engineTxns s c eng)
  else false

/-- The code of a stream's state (R182). DESIGN CHOICE: the table of R182 names no code for a stream of a core in FAULTED or KILL. In FAULTED a stream
shows the code 1 to 6 that its head word gives it; in KILL, where the kill has stopped the streams, the register reads 0. -/
def streamCode (s : State) (c k : Nat) : Nat :=
  let st := s.coreSt c
  if !s.cmdValid c ∨ ((s.core c).streams = []) then 0
  else if ((s.core c).stream k).ended then 6
  else if st = .halt then 7
  else if atTarget s c k || (decide (st = .ckpt) && markerPassed s c k) then 5
  else match headWord s c k with
    | some (some w) =>
      if waitBlocked s c w.toNat then 2 else if unitBusy s c (wEng w.toNat) (wOp w.toNat) w.toNat then 3 else 1
    | _ => 4

/-- CORE_TPSTAT and CORE_OUTST follow the streams (R130, R182). -/
def syncTpstat (s : State) (c : Nat) : State :=
  let code := (List.range 5).foldl (fun (w : Word) k => setFld w (4 * k) 4 (streamCode s c k)) 0#64
  let sum (eng : Nat) : Nat := min (engineLimit eng) (engineTxns s c eng)
  let out := setFld (setFld (setFld 0#64 0 10 (sum 3)) 10 9 (sum 4)) 19 9 (sum 5)
  (s.setReg (Reg.coreTpstat c) code).setReg (Reg.coreOutst c) out

/-! ## Faults (R179, R180, R184) -/

/-- CORE_FAULT for a fault (R124). -/
def faultWord (code eng word : Nat) : Word :=
  setFld (setBit (setFld (setFld 0#64 0 16 code) 16 3 eng) 19 true) 32 32 word

/-- R179: a tile-program fault. SP_DATA and RESIDUE are counted and raised to Lehr A (R89, R94). -/
def tileFault (s : State) (c eng word : Nat) (f : TFault) : State :=
  let aux := setFld (setFld (setFld (setFld 0#64 0 48 f.addr) 48 5 f.slot) 53 1 f.dev.toNat) 56 8 f.xcode
  let s1 := (s.setReg (Reg.coreFault c) (faultWord f.code eng word)).setReg (Reg.coreTpfaux c) aux
  let s2 := if f.code = 0x0209 then coreCheckEvent (s1.bump (Reg.coreSpunc c) 1) c
    else if f.code = 0x020B then coreCheckEvent (s1.bump (Reg.coreResfail c) 1) c else s1
  let s3 := (stopStreams s2 c).setRegBit (Reg.coreTpckpt c) 48 false
  let s4 := s3.setCore c { s3.core c with faultAt := some s3.now }
  syncTpstat (if s4.coreSt c = .quarantine then s4 else s4.setCoreSt c .faulted) c

/-- Further faults of the step of the recorded fault (R180). -/
def countFaults (s : State) (c n : Nat) : State :=
  s.setRegFld (Reg.coreTpfcnt c) 0 16 (min 65535 (s.regFld (Reg.coreTpfcnt c) 0 16 + n))

/-- R180: the faults of one step, each with its ENGINE and word: that of the lowest ENGINE is recorded, the first listed of those that share it
(DESIGN CHOICE: the lowest stream), and the others are counted. -/
def stepFaults (s : State) (c : Nat) (l : List (Nat × Nat × TFault)) : State :=
  match l.find? (fun p => l.all (fun q => decide (p.1 ≤ q.1))) with
  | none => s
  | some p => countFaults (tileFault s c p.1 p.2.1 p.2.2) c (l.length - 1)

/-- The engine that a tracker entry of a core serves. DESIGN CHOICE: the rows RD and WR name no engine; a read is the load engine's, a write the store
engine's and a walk the gather engine's. -/
def TrackEntry.engine (e : TrackEntry) : Nat := if e.kind = 1 then 4 else if e.kind = 3 then 5 else 3

/-- The fault of a core's engine whose outstanding transaction a fence completes (R466, R527): with the word and the slot of the engine's first
instruction in execution. -/
def poisonedFault (s : State) (e : TrackEntry) : Nat × Nat × TFault :=
  let f := (s.core e.node).flight.find? (fun x => decide (x.eng = e.engine) && !x.done)
  let v := leNat (e.data.take 2)
  let code := if e.kind = 0 ∧ 1 < e.data.length ∧ v / 256 = 4 then v else 0x020F
  (e.engine, (f.map (·.word)).getD 0, ⟨code, e.addr, true, (f.map (·.slot)).getD 0, 0⟩)

/-- The runs that a step's fences have completed transactions of fault (R466, R479, R533 point 4). -/
def poisonRuns (s0 s : State) : State :=
  let new := s.fab.track.filter (fun e => e.fenced && decide (e.node < 96) && !e.orphan &&
    s0.fab.track.any (fun x => decide (x.node = e.node) && decide (x.tag = e.tag) && !x.fenced))
  match new with
  | [] => s
  | _ => (new.map (·.node)).eraseDups.foldl (fun s c =>
    if s.coreSt c = .run ∨ s.coreSt c = .ckpt then stepFaults s c ((new.filter (fun e => decide (e.node = c))).map (poisonedFault s)) else s) s

/-- A read by a core's engine; a freeze it causes fails the runs whose transactions it completes (R533 point 4). -/
def coreRead (s : State) (r : Req) (ecc : MemEcc) (a n : Nat) : State × Except Poison (List Byte) :=
  let x := devRead s r ecc a n
  (poisonRuns s x.1, x.2)

/-- Whether the vertical port of a core pauses (R476 point 1): its engines stall. -/
def portPauses (s : State) (c : Nat) : Bool := decide (s.regFld (Reg.puntyVstat c) 0 2 = 2)

/-- A core runs a program whose memories are clear (R110) and restored (R175), and its port does not pause (R476). -/
def running (s : State) (c : Nat) : Bool :=
  decide (s.coreSt c = .run) && !(s.core c).clearing && !(s.core c).resuming && !portPauses s c

/-- The device address of a word of a stream's image (R133). -/
def wordAddr (s : State) (c k i : Nat) : Nat := s.regFld (Reg.coreTpimage c) 0 48 + (((s.core c).stream k).offset + i) * 16

/-- FETCH of a poisoned word (R134, R184). -/
def fetchFault (s : State) (c k : Nat) : TFault := ⟨0x0213, wordAddr s c k (s.nextWord c k), true, 0, 0⟩

/-- The fault that the word at the head of a stream meets in its fetch or its word checks (R134, R178), with ENGINE and word; a core that does not
run makes no check. DESIGN CHOICE: a word the stream does not accept is recorded with its own ENG bits. -/
def headFault (s : State) (c k : Nat) : Option (Nat × Nat × TFault) :=
  if !running s c || ((s.core c).stream k).ended then none
  else if ((s.core c).stream k).length ≤ s.nextWord c k then some (6, ((s.core c).stream k).length, .plain 0x0213)
  else match headWord s c k with
    | none => none
    | some none => some (6, s.nextWord c k, fetchFault s c k)
    | some (some w) => (firstFault (wordChecks k (hasMarkers s c) w.toNat)).map (fun f => (wEng w.toNat, s.nextWord c k, f))

/-- The word at the head of a stream checked. -/
def headCheck (s : State) (c k : Nat) : State :=
  match headFault s c k with
  | none => s
  | some f => tileFault s c f.1 f.2.1 f.2.2

/-- Every stream's head checked in one step (R180). -/
def headChecks (s : State) (c : Nat) : State := stepFaults s c ((List.range 5).filterMap (headFault s c))

/-! ## Completion (R141, R142) -/

/-- What is left in execution, and the entries whose signals are raised, in program order. `sig` says that an earlier signalling entry of the stream
has not raised its signal, `open` that an earlier entry has not completed. -/
def settle (k : Nat) (sig opn : Bool) : List InFlight → List InFlight × List InFlight
  | [] => ([], [])
  | e :: es =>
    if e.stream ≠ k then
      let r := settle k sig opn es
      (e :: r.1, r.2)
    else
      let done := e.done || (decide (e.eng = 6) && !opn)
      if done && (decide (e.samt = 0) || !sig) then
        let r := settle k sig opn es
        (r.1, if e.samt = 0 then r.2 else e :: r.2)
      else
        let r := settle k (sig || decide (e.samt ≠ 0)) (opn || !done) es
        ({ e with done := done } :: r.1, r.2)

/-- Signals raised in order; one beyond its counter's limit faults its instruction (R193), with every other signal of the step that is
(R180). A carried counter's signal waits for a record (R196). -/
def raiseAll (s : State) (c : Nat) : List InFlight → State
  | [] => s
  | e :: es =>
    if recorded s c e.sctr.toNat && !recordReady s c then
      let x := s.core c
      s.setCore c { x with flight := (e :: es).map (fun f => { f with done := true }) ++ x.flight }
    else if signalOverflows s c e.sctr.toNat e.samt then
      stepFaults s c (((e :: es).filter (fun f => signalOverflows s c f.sctr.toNat f.samt)).map
        (fun f => (f.eng, f.word, (TFault.plain 0x0302).inSlot f.slot)))
    else raiseAll (applySignal s c e.sctr.toNat e.samt) c es

/-- A stream's completed instructions leave, their signals raised (R142). -/
def flush (s : State) (c k : Nat) : State :=
  let r := settle k false false (s.core c).flight
  raiseAll (s.setCore c { s.core c with flight := r.1 }) c r.2

/-! ## Issue (R91, R140, R178) -/

/-- What an instruction does once its wait is taken: a new state with the transactions it holds, or a fault with what it left. -/
abbrev Effect := State × Except TFault Nat

/-- An engine other than the instruction's own uses a tile (R99). The MAC unit and the drain unit are one engine. -/
def tileConflict (s : State) (c eng tile : Nat) : Bool :=
  (s.core c).flight.any (fun f => decide (f.tile = some tile) && !f.done &&
    decide ((if f.eng ≤ 1 then 0 else f.eng) ≠ (if eng ≤ 1 then 0 else eng)))

/-- A tile a word names (R151, R153, R156, R167). -/
def wordTile (w : Nat) : Option Nat :=
  match wEng w, wOp w with
  | 0, 1 => some (bitsOf w 48 3)
  | 0, 3 => some (bitsOf w 85 3)
  | 1, _ => some (bitsOf w 48 3)
  | 3, 2 => some (bitsOf w 48 3)
  | 4, 2 => some (bitsOf w 48 3)
  | _, _ => none

/-- A descriptor's 32 bytes as a number, or the scratchpad fault met as it is read. -/
def descAt (s : State) (c idx : Nat) : Except TFault Nat :=
  match spFetch s c (idx * 32) 32 with
  | .error f => .error f
  | .ok bs => .ok (leNat bs)

/-- The index of the stride or gather descriptor a word names (R166, R167, R170). -/
def wordDesc (w : Nat) : Option Nat :=
  match wEng w, wOp w with
  | 3, 1 => some (bitsOf w 71 18)
  | 4, 1 => some (bitsOf w 71 18)
  | 5, 1 => some (bitsOf w 71 18)
  | 3, 2 => some (bitsOf w 65 18)
  | 4, 2 => some (bitsOf w 65 18)
  | _, _ => none

/-- The base slot that an instruction's descriptor names as the engine reads it at issue (R149, R184); 0 where there is none. -/
def wordSlot (s : State) (c w : Nat) : Nat :=
  match wordDesc w with
  | none => 0
  | some i => match descAt s c i with
    | .error _ => 0
    | .ok v => bitsOf v 40 5

/-- An issued instruction is in execution and the stream's head moves on (R140, R141). -/
def issueDone (s : State) (c k w txns slot : Nat) : State :=
  let eng := wEng w
  let idx := s.nextWord c k
  let s1 := s.setRegFld (tpword c k) 0 24 (idx + 1)
  let x0 := s1.core c
  let x := if idx + 1 = 2 ^ 24 then x0.setStream k { x0.stream k with past := true } else x0
  let entry : InFlight := ⟨k, idx, eng, wOp w, wordTile w, BitVec.ofNat 11 (wSctr w), wSamt w, txns,
    decide (eng = 6) && (decide (wOp w = 1) || decide (wOp w = 3)), slot⟩
  let s2 := flush (s1.setCore c { x with flight := x.flight ++ [entry] }) c k
  syncTpstat (if s2.coreSt c = .halt then s2 else headCheck s2 c k) c

/-- The issue checks of R178, with an accumulator conflict after them, and then the effect; a failed one faults the tile. DESIGN CHOICE: R178 gives
ACC_CONFLICT no precedence over the engine's own issue checks, so an own check is reported before it even where its code stands after ACC_CONFLICT in
R177 (BAD_OPERAND, SLOT_INVALID, SLOT_BOUNDS, WEIGHT_STATE). -/
def issueChecked (s : State) (c k w : Nat) (checks : State → Nat → List TFault) (effect : State → Nat → Effect) : State :=
  let eng := wEng w
  let idx := s.nextWord c k
  let slot := wordSlot s c w
  let conflict := match wordTile w with
    | some t => whenF (tileConflict s c eng t) ((TFault.plain 0x020A).inSlot slot)
    | none => []
  match (firstFault (checks s w)).orElse (fun _ => firstFault conflict) with
  | some f => tileFault s c eng idx f
  | none =>
    match effect s w with
    | (s1, .error f) => tileFault s1 c eng idx f
    | (s1, .ok txns) => issueDone s1 c k w txns slot

/-- The head of stream `k` issues, if it may: its word checks have passed, its wait is satisfied and its unit is free (R91, R140). -/
def issueHead (s : State) (c k : Nat) (checks : State → Nat → List TFault) (effect : State → Nat → Effect) : State :=
  match headWord s c k with
  | some (some bw) =>
    let w := bw.toNat
    let eng := wEng w
    match firstFault (wordChecks k (hasMarkers s c) w) with
    | some f => tileFault s c eng (s.nextWord c k) f
    | none =>
      if atTarget s c k || atReplay s c k then s
      else
        let s0 := if wWamt w ≠ 0 ∧ recorded s c (wWctr w) then giveRecord s c else s
        if waitBlocked s0 c w ∨ unitBusy s0 c eng (wOp w) w then syncTpstat s0 c
        else issueChecked (if wWamt w ≠ 0 then takeWait s0 c (wWctr w) (wWamt w) else s0) c k w checks effect
  | _ => s

/-- Whether the head of a stream is an instruction with an ENG and OP. -/
def headIs (s : State) (c k eng op : Nat) : Bool :=
  match headWord s c k with
  | some (some w) => decide (wEng w.toNat = eng) && decide (wOp w.toNat = op)
  | _ => false

/-- The head of stream `k` issues when the core runs and it is the instruction named; otherwise nothing happens. -/
def issueIf (s : State) (c k eng op : Nat) (checks : State → Nat → List TFault) (effect : State → Nat → Effect) : State :=
  let s0 := replay s c
  if running s0 c && headIs s0 c k eng op then issueHead s0 c k checks effect else s

/-- No issue check. -/
def noChecks (_ : State) (_ : Nat) : List TFault := []

end Sys2Proof.Machine
end

