-- ==== Sys2Proof/Machine/TileArray.lean ====
section
/-! DEFINITION. The array stream: CLR, WLD, MM and DRN (R151-R156), with the weight swap (R101), the exact accumulator (R64-R70,
R84-R89) and the transforms of a reblow run (R407). -/

namespace Sys2Proof.Machine

/-! ## Accumulator memory -/

/-- Whether the core executes a reblow run. -/
def isReblow (s : State) (c : Nat) : Bool := decide ((s.core c).run.kind = .reblow)

/-- The physical tile of a logical tile: a reblow run uses tile t XOR 4 (R407). -/
def physTile (s : State) (c t : Nat) : Nat := if isReblow s c then (t + 4) % 8 else t

/-- A tile's state. -/
def Core.tileSt (x : Core) (t : Nat) : TileSt := sget TileSt.zero x.tiles t

/-- The array column of a logical column, before the repair map: a reblow run rotates by 64 (R407). -/
def Core.physCol (x : Core) (j : Nat) : Nat := if x.run.kind = .reblow then (j + 64) % 128 else j

/-- Where the accumulator of a logical column lies. -/
def Core.accKey (x : Core) (t row col : Nat) : Nat := 16384 * t + 128 * row + x.physCol col

/-- An accumulator. -/
def Core.acc (x : Core) (t row col : Nat) : Acc := sget Acc.zero x.accs (x.accKey t row col)

/-- An accumulator replaced. -/
def Core.setAcc (x : Core) (t row col : Nat) (a : Acc) : Core :=
  { x with accs := sput Acc.zero x.accs (x.accKey t row col) a }

/-- A row's term count. -/
def Core.rowTerms (x : Core) (t row : Nat) : Nat := sget 0 x.terms (128 * t + row)

/-- A row's next-K index. -/
def Core.rowNextK (x : Core) (t row : Nat) : Nat := sget 0 x.nextK (128 * t + row)

/-- A row's term count replaced. -/
def Core.setTerms (x : Core) (t row v : Nat) : Core := { x with terms := sput 0 x.terms (128 * t + row) v }

/-- A row's next-K index replaced. -/
def Core.setNextK (x : Core) (t row v : Nat) : Core := { x with nextK := sput 0 x.nextK (128 * t + row) v }

/-- A tile cleared: values, tags and term counts zero, no leaves (R151). RES of a float-tree accumulator reads 0b111 all the same
(R71, R87): `Acc.shown`. -/
def Core.clearTile (x : Core) (t : Nat) : Core :=
  let mine (k : Nat) : Bool := decide (k / 16384 = t)
  { x with
    accs := sclear mine x.accs
    leaves := sclear mine x.leaves
    terms := sclear (fun k => decide (k / 128 = t)) x.terms }

/-- Every row's next-K index set. -/
def Core.setAllNextK (x : Core) (t v : Nat) : Core := (List.range 128).foldl (fun x r => x.setNextK t r v) x

/-- The tile state a CLR word sets (R151). -/
def clrTile (w : Nat) : TileSt :=
  let a := bitsOf w 62 4
  let b := bitsOf w 66 4
  let ea := decide (bitsOf w 74 1 = 1)
  let eb := decide (bitsOf w 79 1 = 1)
  let sa := bitsOf w 70 4
  let sb := bitsOf w 75 4
  let fm := treeFmt a && treeFmt b
  let seg := if (ea && decide (sa = 0xD)) || (eb && decide (sb = 0xD)) then 16 else if ea || eb then 32 else 1
  ⟨signedOf (bitsOf w 52 10) 10, fm, a, b, sa, ea, sb, eb, seg, bitsOf w 80 24, bitsOf w 104 5⟩

/-- CLR's issue check: in float-tree mode KSTART is a multiple of 2^KLOG. -/
def clrChecks (_ : State) (w : Nat) : List TFault :=
  let t := clrTile w
  whenF (t.fmode && decide (t.kstart % 2 ^ t.klog ≠ 0)) (.plain 0x0206)

/-- CLR (R151). -/
def clrEffect (c : Nat) (s : State) (w : Nat) : Effect :=
  let t := physTile s c (bitsOf w 48 3)
  let st := clrTile w
  let x := ((s.core c).clearTile t).setAllNextK t st.kstart
  (s.setCore c { x with tiles := sput TileSt.zero x.tiles t st }, .ok 0)

/-! ## Weights -/

/-- WLD's issue check: a depth above 128 with weights of 8 bits or more (R152). -/
def wldChecks (_ : State) (w : Nat) : List TFault :=
  whenF (decide (127 < bitsOf w 71 8) && decide (8 ≤ fmtWidth (bitsOf w 120 4))) (.plain 0x0206)

/-- Rows of bytes read from scratchpad, or the first fault. -/
def fetchRows (s : State) (c : Nat) : List (Nat × Nat) → Except TFault (List (List Byte))
  | [] => .ok []
  | (a, n) :: rs =>
    match spFetch s c a n with
    | .error f => .error f
    | .ok bs =>
      match fetchRows s c rs with
      | .error f => .error f
      | .ok bss => .ok (bs :: bss)

/-- Where one further row of weight scales cannot be had (R94, R145): its first byte beyond scratchpad or in an uncorrectable word; 0 where it
can. -/
def scaleLack (s : State) (c a n : Nat) : Nat :=
  if spEnd < a + n then max a spEnd
  else match (s.core c).spBadIn a n with
    | some w => max a (8 * w)
    | none => 0

/-- WLD (R152): the weights and their scales go to the shadow registers. One block of scales beyond the least is taken too, because B0 is
formed only at each MM; where it cannot be had, an MM that needs it faults (DEDUCED from R145 and R94). -/
def wldEffect (c : Nat) (ph : Phys) (s : State) (w : Nat) : Effect :=
  let s1 := takeEcc s c ph.sp
  let f := bitsOf w 120 4
  let wn := bitsOf w 64 7 + 1
  let wk := bitsOf w 71 8 + 1
  let scaled := decide (bitsOf w 124 1 = 1)
  let l := blockLen (sclbFmt (bitsOf w 125 1))
  let nb := (wk + l - 1) / l
  let rows := (List.range wk).map (fun k => (bitsOf w 48 16 * 128 + k * weightLine f, packedBytes f wn))
  let srows := if scaled then (List.range nb).map (fun b => (bitsOf w 79 17 * 64 + b * 128, wn)) else []
  match fetchRows s1 c rows, fetchRows s1 c srows with
  | .ok bs, .ok sc =>
    let at' := bitsOf w 79 17 * 64 + nb * 128
    let lack := if scaled then scaleLack s1 c at' wn else 0
    let extra := if scaled && decide (lack = 0) then [((s1.core c).spRead at' wn)] else []
    let x := s1.core c
    let tile : WTile := ⟨f, scaled, decide (bitsOf w 125 1 = 1), wn, wk, bitsOf w 96 24, bs.map (unpackElems f wn),
      (sc ++ extra).map (fun r => r.map BitVec.toNat), lack⟩
    (s1.setCore c { x with shadow := some tile, wldFresh := true }, .ok 0)
  | .error f, _ => (s1, .error f)
  | _, .error f => (s1, .error f)

/-- The shadow weights become active (R101). -/
def swapWeights (x : Core) : Core := { x with active := x.shadow, wldFresh := false }

/-- Whether the word at the head of the array stream is an MM that swaps (R153). -/
def headSwaps (s : State) (c : Nat) : Bool :=
  match headWord s c 0 with
  | some (some w) => decide (wEng w.toNat = 0) && decide (wOp w.toNat = 3) && decide (bitsOf w.toNat 121 1 = 1)
  | _ => false

/-! ## Terms -/

/-- What a column of a row adds to its accumulator: the sum of its terms and the flags they set (R66, R68). -/
structure ColSum where
  sum : Int
  nan : Bool
  pinf : Bool
  ninf : Bool
  inexact : Bool
  tsat : Bool
  invalid : Bool
  deriving DecidableEq, Repr

/-- Nothing added. -/
def ColSum.zero : ColSum := ⟨0, false, false, false, false, false, false⟩

/-- Two sums together. -/
def ColSum.add (a b : ColSum) : ColSum :=
  ⟨a.sum + b.sum, a.nan || b.nan, a.pinf || b.pinf, a.ninf || b.ninf, a.inexact || b.inexact, a.tsat || b.tsat,
    a.invalid || b.invalid⟩

/-- One segment's term (R66 steps 3 to 6, R68): the element products with their undefined marks, and the two scales (none for NaN). DESIGN
CHOICE: beside a NaN scale an infinite product sets PINF or NINF as well as NAN; beside a zero scale it sets NAN alone. -/
def segTerm (anchor : Int) (prods : List (Num × Bool)) (sa sb : Option (Nat × Int)) : ColSum :=
  let zero := (match sa with
    | some (0, _) => true
    | _ => false) || (match sb with
    | some (0, _) => true
    | _ => false)
  let isInf (neg : Bool) (p : Num × Bool) : Bool := decide (p.1 = .inf neg)
  let anyInf := prods.any (fun p => isInf true p || isInf false p)
  let nanEl := prods.any (fun p => p.1.isNaN)
  let inv := prods.any (fun p => p.2) || (zero && anyInf)
  match sa, sb with
  | some (ga, ea), some (gb, eb) =>
    let flags : ColSum := ⟨0, nanEl || (zero && anyInf), !zero && prods.any (isInf false), !zero && prods.any (isInf true),
      false, false, inv⟩
    if nanEl || anyInf then flags
    else
      let p := (prods.map (fun p => gridValue p.1)).foldl (· + ·) 0
      let t := termOf p (ga * gb) (ea + eb - anchor)
      ⟨t.t, false, false, false, t.inexact, t.tsat, false⟩
  | _, _ => ⟨0, true, prods.any (isInf false), prods.any (isInf true), false, false, inv⟩

/-- The products of a column taken segment by segment from K index `k` on, `n` of them at most; the scales are found by index. -/
def segSums (anchor : Int) (seg : Nat) (scaleA scaleB : Nat → Option (Nat × Int)) :
    Nat → Nat → List (Num × Bool) → ColSum
  | 0, _, _ => .zero
  | n + 1, k, ps =>
    match ps with
    | [] => .zero
    | _ => (segTerm anchor (ps.take seg) (scaleA k) (scaleB k)).add
        (segSums anchor seg scaleA scaleB n (k + seg) (ps.drop seg))

/-- The scale of a K index (R57, R152, R153): byte B - B0 of a list of scale bytes, B0 the block of the first index. -/
def scaleAt (scaled : Bool) (code fmt : Nat) (k0 : Nat) (bytes : List Nat) (k : Nat) : Option (Nat × Int) :=
  if scaled then scaleOf code fmt (bytes.getD (k / blockLen code - k0 / blockLen code) 0) else some (1, 0)

/-- An accumulator with a column's terms added (R66 step 7, R68, R84, R85). -/
def Acc.addCol (a : Acc) (c : ColSum) : Acc :=
  ⟨BitVec.ofNat 96 (wrapInt (a.value.toNat + c.sum) 96), BitVec.ofNat 3 ((a.res.toNat + wrapMod7 c.sum) % 7),
    a.nan || c.nan, a.pinf || c.pinf, a.ninf || c.ninf, a.inexact || c.inexact, a.tsat || c.tsat⟩
where
  /-- The residue of an integer modulo 7. -/
  wrapMod7 (x : Int) : Nat := (x % 7).toNat

/-- The terms a row of an MM adds to its row's count (R154). -/
def rowTermsOf (t : TileSt) (depth : Nat) : Nat := if t.fmode then depth else (depth + t.seg - 1) / t.seg

/-- The leaf of an element product (R74, R75): its exact FP32e value, +0 when it is NaN or infinite. -/
def leafOf (p : Num) : Nat :=
  match p with
  | .fin _ _ _ => (toFlt fp32eFmt 0 false p).1
  | _ => 0

/-- The least level whose aligned subtree holds `n` leaves. -/
def treeLevel (n : Nat) : Nat := if n ≤ 1 then 0 else (n - 1).log2 + 1

/-- The root over a node saved before a resumption that stands for the first `n` leaves, and the leaves listed after it (R75, R77, R174). The node is
that of the whole aligned subtree of those leaves where no leaf listed falls into it, and the root follows exactly; a saved +0 may have been -0
below the root, so both must give one root. Where a leaf falls into the subtree, the image does not hold the inner nodes: the root is free. -/
def resumedRoot (klog n saved : Nat) (leaves : List (Nat × Nat)) : Nat :=
  let m := min klog (treeLevel n)
  let free := (Config.resumedTree saved leaves).toNat
  let up (v : Nat) : Nat := climbE34 (klog - m) m v leaves
  if leaves = [] then saved
  else if leaves.any (fun p => decide (p.1 < 2 ^ m)) then free
  else if saved = 0 ∧ up 0 ≠ up (2 ^ 33) then free
  else up saved

/-- The root of the leaves listed; a leaf with a key from 2^24 on is a node saved before a resumption, for the key's rest of leaves. -/
def rootOf (klog : Nat) (leaves : List (Nat × Nat)) : Nat :=
  match leaves.find? (fun p => decide (2 ^ 24 ≤ p.1)) with
  | some p => resumedRoot klog (p.1 - 2 ^ 24) p.2 (leaves.filter (fun q => decide (q.1 < 2 ^ 24)))
  | none => treeE34 klog 0 leaves

/-- One row of an MM in float-tree mode (R75, R155). -/
def floatCol (x : Core) (t row col klog rel : Nat) (prods : List (Num × Bool)) : Core :=
  let key := x.accKey t row col
  let new := ((prods.zipIdx).map (fun p => (rel + p.2, leafOf p.1.1))).filter (fun p => decide (p.2 ≠ 0))
  let leaves := sget [] x.leaves key ++ new
  let a := x.acc t row col
  let a' : Acc := { a with
    value := BitVec.ofNat 96 (rootOf klog leaves)
    res := 7#3
    nan := a.nan || prods.any (fun p => p.1.isNaN)
    pinf := a.pinf || prods.any (fun p => decide (p.1 = .inf false))
    ninf := a.ninf || prods.any (fun p => decide (p.1 = .inf true)) }
  { (x.setAcc t row col a') with leaves := sput [] x.leaves key leaves }

/-- One row of A against the active weights (R102, R154): all 128 accumulators of the row, weight columns beyond the valid width holding zero. -/
def mmRow (reblow : Bool) (x : Core) (t row : Nat) (st : TileSt) (wt : WTile) (as : List Nat) (sa : List Nat) : Core × Bool :=
  let k0 := st.kstart + wt.krel
  let neg := reblow && !st.fmode
  let step (p : Core × Bool) (j : Nat) : Core × Bool :=
    let prods := (as.zipIdx).map (fun a =>
      let b := if j < wt.wn then ((wt.codes.getD a.2 []).getD j 0) else 0
      let pr := elemProduct st.fmta a.1 st.fmtb b
      if neg then (negNum pr.1, pr.2) else pr)
    if st.fmode then (floatCol p.1 t row j st.klog (k0 - st.kstart) prods, p.2 || prods.any (·.2))
    else
      let sb := scaleAt (st.sceb && decide (j < wt.wn)) st.scfb st.fmtb k0 (wt.scales.map (fun r => r.getD j 0))
      let cs := segSums st.anchor st.seg (scaleAt st.scea st.scfa st.fmta k0 sa) sb as.length k0 prods
      (p.1.setAcc t row j ((p.1.acc t row j).addCol cs), p.2 || cs.invalid)
  let r := (List.range 128).foldl step (x, false)
  (((r.1).setTerms t row (x.rowTerms t row + rowTermsOf st as.length)).setNextK t row
    (if st.fmode then k0 + as.length else x.rowNextK t row), r.2)

/-- The weights an MM word streams against: the shadow tile when it swaps, otherwise the active tile. -/
def mmWeights (x : Core) (w : Nat) : Option WTile :=
  if bitsOf w 121 1 = 1 then (if x.swapped then x.active else if x.wldFresh then x.shadow else none) else x.active

/-- The number of scale bytes an A row needs (R153). -/
def aScaleLen (st : TileSt) (k0 depth : Nat) : Nat :=
  (k0 + depth - 1) / blockLen st.scfa - k0 / blockLen st.scfa + 1

/-- Whether an MM into a tile needs a row of weight scales that its WLD could not take (R152). Scales that do not go with the tile are WEIGHT_STATE
(R154), and none of them is needed. -/
def lacksScales (st : TileSt) (wt : WTile) : Bool :=
  let l := blockLen (sclbFmt wt.sclb.toNat)
  let k0 := st.kstart + wt.krel
  st.sceb && wt.sceb && decide (sclbFmt wt.sclb.toNat = st.scfb) && decide (wt.lack ≠ 0) &&
    decide (wt.scales.length < (k0 + wt.wk - 1) / l - k0 / l + 1)

/-- The weight scales an MM lacks because they lie beyond scratchpad (R145): SP_ADDRESS, an issue check. -/
def lackAddress (st : TileSt) (wt : WTile) : List TFault :=
  whenF (lacksScales st wt && decide (spEnd ≤ wt.lack)) ⟨0x0208, wt.lack, false, 0, 0⟩

/-- The weight scales an MM lacks because of an uncorrectable word (R94): SP_DATA, an execution fault (R178). -/
def lackData (st : TileSt) (wt : WTile) : Option TFault :=
  if lacksScales st wt then some ⟨0x0209, wt.lack, false, 0, 0⟩ else none

/-- MM's issue checks (R154, R155, R152, R145). -/
def mmChecks (c : Nat) (s : State) (w : Nat) : List TFault :=
  let x := s.core c
  let t := physTile s c (bitsOf w 85 3)
  let st := x.tileSt t
  let rows := (List.range (bitsOf w 71 7 + 1)).map (bitsOf w 78 7 + ·)
  match mmWeights x w with
  | none => [.plain 0x0210]
  | some wt =>
    let k0 := st.kstart + wt.krel
    whenF (decide (wt.fmtb ≠ st.fmtb) || decide (wt.sceb ≠ st.sceb) ||
      (st.sceb && decide (sclbFmt wt.sclb.toNat ≠ st.scfb))) (.plain 0x0210) ++
    whenF (decide (128 < wt.wk) && decide (8 ≤ fmtWidth st.fmta)) (.plain 0x0206) ++
    whenF (decide (1 < st.seg) && decide (k0 % st.seg ≠ 0)) (.plain 0x0206) ++
    whenF (st.fmode && (decide (2 ^ st.klog < wt.krel + wt.wk) || rows.any (fun r => decide (k0 < x.rowNextK t r))))
      (.plain 0x0206) ++
    whenF (rows.any (fun r => decide (8388607 < x.rowTerms t r + rowTermsOf st wt.wk))) (.plain 0x0207) ++
    lackAddress st wt ++ spCheck (bitsOf w 48 23) (bitsOf w 71 7 * bitsOf w 88 16 + packedBytes st.fmta wt.wk) 1 ++
    (if st.scea then spCheck (bitsOf w 104 17 * 64) (bitsOf w 71 7 * 16 + aScaleLen st k0 wt.wk) 1 else [])

/-- The rows of an MM from row `r` on, `n` of them; a scratchpad fault leaves the earlier rows updated (R179). -/
def mmRows (c w : Nat) (wt : WTile) : Nat → Nat → State → Effect
  | 0, _, s => (s, .ok 0)
  | n + 1, r, s =>
    let t := physTile s c (bitsOf w 85 3)
    let st := (s.core c).tileSt t
    let sl := if st.scea then aScaleLen st (st.kstart + wt.krel) wt.wk else 0
    match spFetch s c (bitsOf w 48 23 + r * bitsOf w 88 16) (packedBytes st.fmta wt.wk),
      spFetch s c (bitsOf w 104 17 * 64 + r * 16) sl with
    | .ok as, .ok ss =>
      let y := mmRow (isReblow s c) (s.core c) t (bitsOf w 78 7 + r) st wt (unpackElems st.fmta wt.wk as) (ss.map BitVec.toNat)
      let s1 := s.setCore c y.1
      mmRows c w wt n (r + 1) (if y.2 then s1.setRegBit (Reg.coreAflags c) 3 true else s1)
    | .error f, _ => (s, .error f)
    | _, .error f => (s, .error f)

/-- MM (R153-R155). -/
def mmEffect (c : Nat) (ph : Phys) (s : State) (w : Nat) : Effect :=
  let s1 := takeEcc s c ph.sp
  let x := s1.core c
  match mmWeights x w with
  | none => (s1, .error (.plain 0x0210))
  | some wt =>
    let swap := decide (bitsOf w 121 1 = 1)
    let x1 := if swap && !x.swapped then swapWeights x else x
    match lackData (x.tileSt (physTile s1 c (bitsOf w 85 3))) wt with
    | some f => (s1, .error f)
    | none => mmRows c w wt (bitsOf w 71 7 + 1) 0 (s1.setCore c { x1 with swapped := if swap then false else x.swapped })

/-! ## Drain -/

/-- The flags of R62 added to CORE_AFLAGS (R111, R125). -/
def addFlags (s : State) (c : Nat) (f : AFlags) : State :=
  s.setReg (Reg.coreAflags c) (BitVec.ofNat 64 ((s.reg (Reg.coreAflags c)).toNat ||| f.word))

/-- An accumulator as a reblow run's drain reads it (R407): negated, PINF and NINF exchanged. -/
def Acc.negated (a : Acc) : Acc :=
  { a with value := -a.value, res := BitVec.ofNat 3 ((7 - a.res.toNat) % 7), pinf := a.ninf, ninf := a.pinf }

/-- Whether an accumulator passes its residue check (R88). -/
def Acc.resOk (a : Acc) (fmode : Bool) : Bool := fmode || decide (residue96 a.value.toNat = a.res.toNat)

/-- The value a drain converts (R70). -/
def Acc.drained (a : Acc) (st : TileSt) : Num :=
  if a.nan || (a.pinf && a.ninf) then .nan
  else if a.pinf then .inf false
  else if a.ninf then .inf true
  else if st.fmode then e34 (a.value.toNat % 2 ^ 34)
  else
    let v := signedOf a.value.toNat 96
    .fin (decide (v < 0)) v.natAbs (st.anchor - 32)

/-- An accumulator as its tag shows it: RES of a float-tree accumulator is 0b111 (R71, R87), right after a CLR as well (DEDUCED: R151 clears the
tag, and the two rules state what RES of such a tile reads). -/
def Acc.shown (a : Acc) (fmode : Bool) : Acc := if fmode then { a with res := 7#3 } else a

/-- The record of an accumulator (R71). -/
def Acc.record (a : Acc) (st : TileSt) (terms : Nat) : Nat :=
  (Rec.mk a.value.toNat (if st.fmode then 7 else a.res.toNat)
    (a.nan.toNat + 2 * a.pinf.toNat + 4 * a.ninf.toNat + 8 * a.inexact.toNat + 16 * a.tsat.toNat) st.fmode terms).word

/-- An accumulator of a tile as a run's drain or export reads it: a reblow run negates those of fixed-point tiles (R407). -/
def runAcc (reblow : Bool) (st : TileSt) (a : Acc) : Acc := if reblow && !st.fmode then a.negated else a

/-- One drained row: its bytes and flags (R70, R103, R125). -/
def drainBytes (reblow : Bool) (x : Core) (t row fmt mode : Nat) (sat : Bool) : List Byte × AFlags :=
  let st := x.tileSt t
  let accs := (List.range 128).map (fun j => runAcc reblow st (x.acc t row j))
  let read : AFlags := ⟨false, false, false, false, accs.any (·.inexact), accs.any (·.tsat)⟩
  if fmt = 0xE then ((accs.map (fun a => leBytes 16 (a.record st (x.rowTerms t row)))).flatten, read)
  else
    let rs := accs.map (fun a => convertNum fmt mode sat (a.drained st))
    (packElems fmt (rs.map (·.1)), (AFlags.all (rs.map (·.2))).or read)

/-- The rows of a drain from row `r` on, `n` of them. -/
def drnRows (c w : Nat) : Nat → Nat → State → Effect
  | 0, _, s => (s, .ok 0)
  | n + 1, r, s =>
    let t := physTile s c (bitsOf w 48 3)
    let y := drainBytes (isReblow s c) (s.core c) t (bitsOf w 51 7 + r) (bitsOf w 104 4) (bitsOf w 108 2)
      (decide (bitsOf w 110 1 = 1))
    match spStore s c (bitsOf w 65 23 + r * bitsOf w 88 16) y.1 with
    | .error f => (s, .error f)
    | .ok s1 => drnRows c w n (r + 1) (addFlags s1 c y.2)

/-- DRN (R156, R88, R89): residues and parities are checked first, and nothing is written where one fails. -/
def drnEffect (c : Nat) (ph : Phys) (s : State) (w : Nat) : Effect :=
  let s1 := takeEcc s c ph.sp
  let x := s1.core c
  let t := physTile s1 c (bitsOf w 48 3)
  let st := x.tileSt t
  let rows := (List.range (bitsOf w 58 7 + 1)).map (bitsOf w 51 7 + ·)
  let bad := rows.any (fun r => (List.range 128).any (fun j => !(x.acc t r j).resOk st.fmode))
  if ph.upset || bad then (s1, .error (.plain 0x020B)) else drnRows c w (bitsOf w 58 7 + 1) 0 s1

/-! ## The rows -/

/-- CLR (R151). -/
def execClr (core : Fin 96) (s : State) : Out := .next (issueIf s core.val 0 0 1 clrChecks (clrEffect core.val))

/-- WLD (R152). -/
def execWld (core : Fin 96) (ph : Phys) (s : State) : Out :=
  .next (issueIf s core.val 0 0 2 wldChecks (wldEffect core.val ph))

/-- MM (R153-R155). -/
def execMm (core : Fin 96) (ph : Phys) (s : State) : Out :=
  .next (issueIf s core.val 0 0 3 (mmChecks core.val) (mmEffect core.val ph))

/-- DRN (R156). -/
def execDrn (core : Fin 96) (ph : Phys) (s : State) : Out :=
  .next (issueIf s core.val 0 1 1 noChecks (drnEffect core.val ph))

/-- WEIGHT_SWAP (R101): the shadow weights become active for the MM that swaps, once the previous MM has streamed and the load has finished. -/
def execWeightSwap (core : Fin 96) (s : State) : Out :=
  let c := core.val
  let x := s.core c
  let fl := x.flight.filter (fun f => !f.done && decide (f.eng = 0))
  if running s c && headSwaps s c && !x.swapped && x.wldFresh && fl.isEmpty then
    .next (syncTpstat (s.setCore c { swapWeights x with swapped := true }) c)
  else .next s

end Sys2Proof.Machine
end

