-- ==== Sys2Proof/Machine/VecMath.lean ====
section
/-! DEFINITION. The vector engine's defined functions (R162-R165): fixed sequences of FP32 operations, each rounded RNE. -/

namespace Sys2Proof.Machine

/-- TE[i], the FP32 value nearest 2^(i/256) (R162). -/
def teTable : List Nat :=
  [0x3F800000, 0x3F8058D8, 0x3F80B1ED, 0x3F810B41, 0x3F8164D2, 0x3F81BEA1, 0x3F8218AF, 0x3F8272FC,
    0x3F82CD87, 0x3F832850, 0x3F838359, 0x3F83DEA1, 0x3F843A29, 0x3F8495F0, 0x3F84F1F6, 0x3F854E3D,
    0x3F85AAC3, 0x3F86078A, 0x3F866491, 0x3F86C1D9, 0x3F871F62, 0x3F877D2B, 0x3F87DB35, 0x3F883981,
    0x3F88980F, 0x3F88F6DD, 0x3F8955EE, 0x3F89B541, 0x3F8A14D5, 0x3F8A74AD, 0x3F8AD4C6, 0x3F8B3523] ++
  [0x3F8B95C2, 0x3F8BF6A4, 0x3F8C57CA, 0x3F8CB933, 0x3F8D1ADF, 0x3F8D7CD0, 0x3F8DDF04, 0x3F8E417D,
    0x3F8EA43A, 0x3F8F073B, 0x3F8F6A81, 0x3F8FCE0C, 0x3F9031DC, 0x3F9095F2, 0x3F90FA4D, 0x3F915EED,
    0x3F91C3D3, 0x3F922900, 0x3F928E72, 0x3F92F42C, 0x3F935A2B, 0x3F93C072, 0x3F9426FF, 0x3F948DD4,
    0x3F94F4F0, 0x3F955C53, 0x3F95C3FF, 0x3F962BF2, 0x3F96942D, 0x3F96FCB1, 0x3F97657D, 0x3F97CE92] ++
  [0x3F9837F0, 0x3F98A197, 0x3F990B88, 0x3F9975C2, 0x3F99E046, 0x3F9A4B13, 0x3F9AB62B, 0x3F9B218D,
    0x3F9B8D3A, 0x3F9BF931, 0x3F9C6573, 0x3F9CD201, 0x3F9D3EDA, 0x3F9DABFE, 0x3F9E196E, 0x3F9E872A,
    0x3F9EF532, 0x3F9F6387, 0x3F9FD228, 0x3FA04116, 0x3FA0B051, 0x3FA11FD9, 0x3FA18FAF, 0x3FA1FFD2,
    0x3FA27043, 0x3FA2E102, 0x3FA3520F, 0x3FA3C36B, 0x3FA43516, 0x3FA4A70F, 0x3FA51958, 0x3FA58BEF] ++
  [0x3FA5FED7, 0x3FA6720E, 0x3FA6E595, 0x3FA7596C, 0x3FA7CD94, 0x3FA8420C, 0x3FA8B6D5, 0x3FA92BEF,
    0x3FA9A15B, 0x3FAA1718, 0x3FAA8D26, 0x3FAB0387, 0x3FAB7A3A, 0x3FABF13F, 0x3FAC6897, 0x3FACE041,
    0x3FAD583F, 0x3FADD090, 0x3FAE4934, 0x3FAEC22D, 0x3FAF3B79, 0x3FAFB519, 0x3FB02F0E, 0x3FB0A957,
    0x3FB123F6, 0x3FB19EE9, 0x3FB21A32, 0x3FB295D0, 0x3FB311C4, 0x3FB38E0E, 0x3FB40AAF, 0x3FB487A6] ++
  [0x3FB504F3, 0x3FB58298, 0x3FB60094, 0x3FB67EE7, 0x3FB6FD92, 0x3FB77C95, 0x3FB7FBF0, 0x3FB87BA3,
    0x3FB8FBAF, 0x3FB97C14, 0x3FB9FCD2, 0x3FBA7DEA, 0x3FBAFF5B, 0x3FBB8126, 0x3FBC034A, 0x3FBC85CA,
    0x3FBD08A4, 0x3FBD8BD8, 0x3FBE0F68, 0x3FBE9353, 0x3FBF179A, 0x3FBF9C3C, 0x3FC0213B, 0x3FC0A695,
    0x3FC12C4D, 0x3FC1B261, 0x3FC238D2, 0x3FC2BFA1, 0x3FC346CD, 0x3FC3CE57, 0x3FC4563F, 0x3FC4DE85] ++
  [0x3FC5672A, 0x3FC5F02E, 0x3FC67991, 0x3FC70353, 0x3FC78D75, 0x3FC817F7, 0x3FC8A2D8, 0x3FC92E1B,
    0x3FC9B9BE, 0x3FCA45C1, 0x3FCAD226, 0x3FCB5EED, 0x3FCBEC15, 0x3FCC799F, 0x3FCD078C, 0x3FCD95DA,
    0x3FCE248C, 0x3FCEB3A1, 0x3FCF4319, 0x3FCFD2F4, 0x3FD06334, 0x3FD0F3D7, 0x3FD184DF, 0x3FD2164C,
    0x3FD2A81E, 0x3FD33A54, 0x3FD3CCF1, 0x3FD45FF3, 0x3FD4F35B, 0x3FD58729, 0x3FD61B5E, 0x3FD6AFFA] ++
  [0x3FD744FD, 0x3FD7DA67, 0x3FD87039, 0x3FD90673, 0x3FD99D16, 0x3FDA3421, 0x3FDACB94, 0x3FDB6371,
    0x3FDBFBB8, 0x3FDC9468, 0x3FDD2D82, 0x3FDDC706, 0x3FDE60F5, 0x3FDEFB4E, 0x3FDF9613, 0x3FE03143,
    0x3FE0CCDF, 0x3FE168E7, 0x3FE2055B, 0x3FE2A23C, 0x3FE33F89, 0x3FE3DD44, 0x3FE47B6D, 0x3FE51A03,
    0x3FE5B907, 0x3FE65879, 0x3FE6F85B, 0x3FE798AB, 0x3FE8396A, 0x3FE8DA99, 0x3FE97C38, 0x3FEA1E47] ++
  [0x3FEAC0C7, 0x3FEB63B7, 0x3FEC0719, 0x3FECAAEC, 0x3FED4F30, 0x3FEDF3E7, 0x3FEE9910, 0x3FEF3EAB,
    0x3FEFE4BA, 0x3FF08B3B, 0x3FF13231, 0x3FF1D99A, 0x3FF28177, 0x3FF329C9, 0x3FF3D290, 0x3FF47BCC,
    0x3FF5257D, 0x3FF5CFA4, 0x3FF67A41, 0x3FF72555, 0x3FF7D0DF, 0x3FF87CE1, 0x3FF9295A, 0x3FF9D64A,
    0x3FFA83B3, 0x3FFB3194, 0x3FFBDFED, 0x3FFC8EC0, 0x3FFD3E0C, 0x3FFDEDD2, 0x3FFE9E11, 0x3FFF4ECB]

/-- TL[i], the FP32 value nearest log2(1 + i/256) (R162). -/
def tlTable : List Nat :=
  [0x00000000, 0x3BB84E23, 0x3C37F286, 0x3C89B189, 0x3CB73CB4, 0x3CE49B1E, 0x3D08E68F, 0x3D1F6985,
    0x3D35D69C, 0x3D4C2DFE, 0x3D626FD6, 0x3D789C4C, 0x3D8759C5, 0x3D925ADC, 0x3D9D517F, 0x3DA83DC2,
    0x3DB31FB8, 0x3DBDF775, 0x3DC8C50B, 0x3DD3888F, 0x3DDE4212, 0x3DE8F1A7, 0x3DF39761, 0x3DFE3350,
    0x3E0462C4, 0x3E09A70E, 0x3E0EE68D, 0x3E14214A, 0x3E19574F, 0x3E1E88A3, 0x3E23B550, 0x3E28DD5D] ++
  [0x3E2E00D2, 0x3E331FB8, 0x3E383A17, 0x3E3D4FF6, 0x3E42615F, 0x3E476E57, 0x3E4C76E8, 0x3E517B19,
    0x3E567AF1, 0x3E5B7679, 0x3E606DB6, 0x3E6560B2, 0x3E6A4F72, 0x3E6F39FF, 0x3E74205F, 0x3E79029A,
    0x3E7DE0B6, 0x3E815D5D, 0x3E83C857, 0x3E86314C, 0x3E88983F, 0x3E8AFD34, 0x3E8D602E, 0x3E8FC130,
    0x3E92203D, 0x3E947D5A, 0x3E96D888, 0x3E9931CB, 0x3E9B8926, 0x3E9DDE9D, 0x3EA03232, 0x3EA283E8] ++
  [0x3EA4D3C2, 0x3EA721C4, 0x3EA96DF0, 0x3EABB849, 0x3EAE00D2, 0x3EB0478E, 0x3EB28C7F, 0x3EB4CFA9,
    0x3EB7110E, 0x3EB950B2, 0x3EBB8E96, 0x3EBDCABD, 0x3EC0052B, 0x3EC23DE2, 0x3EC474E4, 0x3EC6AA34,
    0x3EC8DDD4, 0x3ECB0FC8, 0x3ECD4012, 0x3ECF6EB4, 0x3ED19BB0, 0x3ED3C70A, 0x3ED5F0C4, 0x3ED818DF,
    0x3EDA3F60, 0x3EDC6447, 0x3EDE8797, 0x3EE0A953, 0x3EE2C97D, 0x3EE4E818, 0x3EE70525, 0x3EE920A6] ++
  [0x3EEB3A9F, 0x3EED5311, 0x3EEF69FF, 0x3EF17F6A, 0x3EF39355, 0x3EF5A5C2, 0x3EF7B6B4, 0x3EF9C62B,
    0x3EFBD42B, 0x3EFDE0B6, 0x3EFFEBCD, 0x3F00FAB9, 0x3F01FED4, 0x3F030239, 0x3F0404E8, 0x3F0506E2,
    0x3F060828, 0x3F0708BC, 0x3F08089E, 0x3F0907CF, 0x3F0A0650, 0x3F0B0422, 0x3F0C0146, 0x3F0CFDBE,
    0x3F0DF989, 0x3F0EF4A9, 0x3F0FEF1F, 0x3F10E8EB, 0x3F11E20F, 0x3F12DA8B, 0x3F13D260, 0x3F14C990] ++
  [0x3F15C01A, 0x3F16B601, 0x3F17AB44, 0x3F189FE4, 0x3F1993E3, 0x3F1A8742, 0x3F1B7A00, 0x3F1C6C1F,
    0x3F1D5DA0, 0x3F1E4E83, 0x3F1F3ECA, 0x3F202E74, 0x3F211D84, 0x3F220BF9, 0x3F22F9D5, 0x3F23E718,
    0x3F24D3C2, 0x3F25BFD6, 0x3F26AB53, 0x3F27963A, 0x3F28808C, 0x3F296A4A, 0x3F2A5374, 0x3F2B3C0C,
    0x3F2C2411, 0x3F2D0B85, 0x3F2DF268, 0x3F2ED8BC, 0x3F2FBE80, 0x3F30A3B5, 0x3F31885C, 0x3F326C77] ++
  [0x3F335004, 0x3F343306, 0x3F35157D, 0x3F35F769, 0x3F36D8CB, 0x3F37B9A4, 0x3F3899F5, 0x3F3979BD,
    0x3F3A58FF, 0x3F3B37B9, 0x3F3C15EE, 0x3F3CF39D, 0x3F3DD0C8, 0x3F3EAD6E, 0x3F3F8991, 0x3F406531,
    0x3F41404F, 0x3F421AEB, 0x3F42F506, 0x3F43CEA0, 0x3F44A7BA, 0x3F458055, 0x3F465872, 0x3F473010,
    0x3F480731, 0x3F48DDD4, 0x3F49B3FB, 0x3F4A89A7, 0x3F4B5ED7, 0x3F4C338C, 0x3F4D07C7, 0x3F4DDB88] ++
  [0x3F4EAED0, 0x3F4F819F, 0x3F5053F7, 0x3F5125D7, 0x3F51F740, 0x3F52C832, 0x3F5398AF, 0x3F5468B6,
    0x3F553848, 0x3F560765, 0x3F56D60F, 0x3F57A446, 0x3F587209, 0x3F593F5A, 0x3F5A0C3A, 0x3F5AD8A8,
    0x3F5BA4A4, 0x3F5C7031, 0x3F5D3B4E, 0x3F5E05FB, 0x3F5ED039, 0x3F5F9A09, 0x3F60636A, 0x3F612C5E,
    0x3F61F4E5, 0x3F62BCFF, 0x3F6384AD, 0x3F644BF0, 0x3F6512C7, 0x3F65D933, 0x3F669F35, 0x3F6764CD] ++
  [0x3F6829FB, 0x3F68EEC1, 0x3F69B31E, 0x3F6A7712, 0x3F6B3A9F, 0x3F6BFDC5, 0x3F6CC083, 0x3F6D82DB,
    0x3F6E44CD, 0x3F6F065A, 0x3F6FC781, 0x3F708843, 0x3F7148A1, 0x3F72089B, 0x3F72C832, 0x3F738765,
    0x3F744636, 0x3F7504A4, 0x3F75C2B0, 0x3F76805A, 0x3F773DA4, 0x3F77FA8C, 0x3F78B714, 0x3F79733C,
    0x3F7A2F04, 0x3F7AEA6D, 0x3F7BA578, 0x3F7C6023, 0x3F7D1A71, 0x3F7DD460, 0x3F7E8DF2, 0x3F7F4728]

/-- TE[i]. -/
def te (i : Nat) : Nat := teTable.getD i 0
/-- TL[i]. -/
def tl (i : Nat) : Nat := tlTable.getD i 0
/-- RC[i], the FP32 value nearest 256 / (256 + i) (R162). -/
def rc (i : Nat) : Nat := (divF 0 false 0x43800000 (toFlt fp32Fmt 0 false (.fin false (256 + i) 0)).1).1

/-- A result in the making: an FP32 value and the flags so far. -/
abbrev FVal := Nat × AFlags

/-- An FP32 constant. -/
def constF (c : Nat) : FVal := (c, .none)

/-- An RNE step on values in the making; overflow in an inner step gives the IEEE result. -/
def stepF2 (f : Nat → Bool → Nat → Nat → Nat × AFlags) (a b : FVal) : FVal :=
  let r := f 0 false a.1 b.1
  (r.1, (a.2.or b.2).or r.2)

/-- Fused multiply-add on values in the making. -/
def stepFma (a b c : FVal) : FVal :=
  let r := fmaF 0 false a.1 b.1 c.1
  (r.1, ((a.2.or b.2).or c.2).or r.2)

/-- VEXP2 (R163); `sat` decides only the overflow of the last rounding. -/
def exp2F (sat : Bool) (x : FVal) : FVal :=
  match f32 x.1 with
  | .nan => (0x7FC00000, x.2.or .isNan)
  | .inf neg => (if neg then 0 else 0x7F800000, x.2)
  | .fin neg m e =>
    let num : Int := if neg then -(m : Int) else m
    let scale : Int := ((2 ^ (-e).toNat : Nat) : Int)
    let v : Int := if 0 ≤ e then num * ((2 ^ e.toNat : Nat) : Int) else num
    let n : Int := if 0 ≤ e then v else num / scale
    let f : Nat := if 0 ≤ e then 0 else (num % scale).toNat
    let d : Nat := (-e).toNat
    let i : Nat := f * 256 / 2 ^ d
    let r := toFlt fp32Fmt 0 false (.fin false (f * 256 - i * 2 ^ d) (-(d : Int) - 8))
    let rv : FVal := (r.1, x.2.or r.2)
    let q1 := stepFma (constF 0x3D635847) rv (constF 0x3E75FDF0)
    let q2 := stepFma q1 rv (constF 0x3F317218)
    let q3 := stepF2 mulF q2 rv
    let y := stepFma (constF (te i)) q3 (constF (te i))
    match f32 y.1 with
    | .fin s ym ye => let z := toFlt fp32Fmt 0 sat (.fin s ym (ye + n)); (z.1, y.2.or z.2)
    | _ => y

/-- VLOG2 (R164). -/
def log2F (x : FVal) : FVal :=
  match f32 x.1 with
  | .nan => (0x7FC00000, x.2.or .isNan)
  | .inf true => (0x7FC00000, x.2.or .invalidNan)
  | .inf false => (0x7F800000, x.2)
  | .fin neg m e =>
    if m = 0 then (0xFF800000, x.2)
    else if neg then (0x7FC00000, x.2.or .invalidNan)
    else
      let p2 := m.log2
      let i : Nat := (m - 2 ^ p2) * 256 / 2 ^ p2
      let d := toFlt fp32Fmt 0 false (.fin false ((m - 2 ^ p2) * 256 - i * 2 ^ p2) (-(p2 : Int) - 8))
      let t := stepF2 mulF (d.1, x.2.or d.2) (constF (rc i))
      let p := stepFma (constF 0x3EF6384F) t (constF 0xBF38AA3B)
      let p' := stepFma p t (constF 0x3FB8AA3B)
      let p'' := stepF2 mulF p' t
      let s := stepF2 addF (constF (tl i)) p''
      let ev := toFlt fp32Fmt 0 false (numOfInt (e + p2))
      stepF2 addF (constF ev.1) s

/-- VRCP (R165). -/
def rcpF (x : FVal) : FVal := stepF2 divF (constF 0x3F800000) x

/-- VRSQRT (R165): two operations. -/
def rsqrtF (x : FVal) : FVal :=
  let r := sqrtF 0 false x.1
  rcpF (r.1, x.2.or r.2)

/-- VSIGM (R165). -/
def sigmF (x : FVal) : FVal :=
  let t := exp2F false (stepF2 mulF x (constF 0xBFB8AA3B))
  stepF2 divF (constF 0x3F800000) (stepF2 addF (constF 0x3F800000) t)

/-- VTANH (R165). -/
def tanhF (x : FVal) : FVal :=
  if (f32 x.1).isNaN then (0x7FC00000, x.2.or .isNan)
  else
    let sign := x.1 / 2 ^ 31 * 2 ^ 31
    let a := x.1 % 2 ^ 31
    if !ltNum (f32 a) (f32 0x41100000) then (0x3F800000 + sign, x.2)
    else
      let t := exp2F false (stepF2 mulF (a, x.2) (constF 0xC038AA3B))
      let r := stepF2 divF (stepF2 subF (constF 0x3F800000) t) (stepF2 addF (constF 0x3F800000) t)
      (r.1 % 2 ^ 31 + sign, r.2)

/-- VGELU (R165). -/
def geluF (x : FVal) : FVal :=
  let a := stepF2 mulF x x
  let b := stepF2 mulF a x
  let u := stepFma (constF 0x3D372713) b x
  let v := stepF2 mulF u (constF 0x3F4C422A)
  let h := stepF2 mulF x (constF 0x3F000000)
  stepF2 mulF h (stepF2 addF (constF 0x3F800000) (tanhF v))

/-- VEXPD (R165): exp2((a - b) × imm). -/
def expdF (sat : Bool) (a b imm : Nat) : FVal :=
  exp2F sat (stepF2 mulF (stepF2 subF (constF a) (constF b)) (constF imm))

/-! ## Reductions (R160, R81) -/

/-- Neighbouring pairs of a level of the tree combined. -/
def pairUp (f : FVal → FVal → FVal) : List FVal → List FVal
  | a :: b :: l => f a b :: pairUp f l
  | l => l

/-- The root of the perfect binary tree over 2^n leaves. -/
def treeReduce (f : FVal → FVal → FVal) : Nat → List FVal → FVal
  | 0, l => l.headD (0, .none)
  | n + 1, l => treeReduce f n (pairUp f l)

/-- A two-operand FP32 or INT32 operation as an inner node. -/
def nodeOf (f : Nat → Nat → Nat × AFlags) (a b : FVal) : FVal :=
  let r := f a.1 b.1
  (r.1, (a.2.or b.2).or r.2)

end Sys2Proof.Machine
end

