-- ==== Sys2Proof/Machine/TileVector.lean ====
section
/-! DEFINITION. The vector stream (R157-R165): memory form, register form, defined functions and tree reductions. -/

namespace Sys2Proof.Machine

/-! ## Lanes -/

/-- The physical lane of a logical lane: a reblow run rotates by 256 (R407). -/
def Core.physLane (x : Core) (i : Nat) : Nat := if x.run.kind = .reblow then (i + 256) % 512 else i

/-- A lane of a vector register. -/
def Core.lane (x : Core) (v i : Nat) : Nat := (sget 0#32 x.vregs (512 * v + x.physLane i)).toNat

/-- A lane replaced. -/
def Core.setLane (x : Core) (v i n : Nat) : Core :=
  { x with vregs := sput 0#32 x.vregs (512 * v + x.physLane i) (BitVec.ofNat 32 n) }

/-- Lanes written from lane `i` on. -/
def Core.setLanes : Core → Nat → Nat → List Nat → Core
  | x, _, _, [] => x
  | x, v, i, n :: ns => Core.setLanes (x.setLane v i n) v (i + 1) ns

/-- VD. -/
def wVd (w : Nat) : Nat := bitsOf w 48 5
/-- VA. -/
def wVa (w : Nat) : Nat := bitsOf w 53 5
/-- The lanes an instruction of the register form operates on. -/
def wLen (w : Nat) : Nat := bitsOf w 72 10 + 1
/-- TYPE: INT32. -/
def wInt (w : Nat) : Bool := decide (bitsOf w 68 1 = 1)
/-- RM. -/
def wRm (w : Nat) : Nat := bitsOf w 69 2
/-- SAT. -/
def wSat (w : Nat) : Bool := decide (bitsOf w 71 1 = 1)
/-- PRED. -/
def wPred (w : Nat) : Nat := bitsOf w 83 3
/-- IMM. -/
def wImm (w : Nat) : Nat := bitsOf w 96 32

/-- Source A's lane. -/
def srcA (x : Core) (w i : Nat) : Nat := x.lane (wVa w) i
/-- Source B's lane: the register, or IMM in every lane when BIMM is 1 (R157). -/
def srcB (x : Core) (w i : Nat) : Nat := if bitsOf w 82 1 = 1 then wImm w else x.lane (bitsOf w 58 5) i
/-- Source C's lane. -/
def srcC (x : Core) (w i : Nat) : Nat := x.lane (bitsOf w 63 5) i

/-- An elementwise instruction (R158): lanes 0 through LEN of VD take the operation's results, every lane above keeps its value; the
flags of all lanes go to CORE_AFLAGS. Sources are read before the destination is written. -/
def lanesEffect (c : Nat) (f : Core → Nat → Nat → FVal) (s : State) (w : Nat) : Effect :=
  let x := s.core c
  let rs := (List.range (wLen w)).map (f x w)
  (addFlags (s.setCore c (x.setLanes (wVd w) 0 (rs.map (·.1)))) c (AFlags.all (rs.map (·.2))), .ok 0)

/-- The lane of a two-source operation in either type. -/
def laneTwo (ff : Nat → Bool → Nat → Nat → FVal) (fi : Bool → Nat → Nat → FVal) (x : Core) (w i : Nat) : FVal :=
  if wInt w then fi (wSat w) (srcA x w i) (srcB x w i) else ff (wRm w) (wSat w) (srcA x w i) (srcB x w i)

/-- VADD. -/
def laneAdd : Core → Nat → Nat → FVal := laneTwo addF (fun s a b => putI32 s (i32 a + i32 b))
/-- VSUB. -/
def laneSub : Core → Nat → Nat → FVal := laneTwo subF (fun s a b => putI32 s (i32 a - i32 b))
/-- VMUL. -/
def laneMul : Core → Nat → Nat → FVal := laneTwo mulF (fun s a b => putI32 s (i32 a * i32 b))
/-- VDIV. -/
def laneDiv : Core → Nat → Nat → FVal := laneTwo divF divI

/-- VFMA. -/
def laneFma (x : Core) (w i : Nat) : FVal :=
  let a := srcA x w i
  let b := srcB x w i
  let d := srcC x w i
  if wInt w then putI32 (wSat w) (i32 a * i32 b + i32 d) else fmaF (wRm w) (wSat w) a b d

/-- The lower or higher of two INT32 lanes. -/
def pickI (low : Bool) (a b : Nat) : FVal :=
  (if low then (if i32 b < i32 a then b else a) else (if i32 a < i32 b then b else a), .none)

/-- VMIN. -/
def laneMin : Core → Nat → Nat → FVal := laneTwo (fun _ _ => minF) (fun _ => pickI true)
/-- VMAX. -/
def laneMax : Core → Nat → Nat → FVal := laneTwo (fun _ _ => maxF) (fun _ => pickI false)

/-- VABS. -/
def laneAbs (x : Core) (w i : Nat) : FVal :=
  if wInt w then putI32 (wSat w) ((i32 (srcA x w i)).natAbs : Int) else absF (srcA x w i)

/-- VNEG. -/
def laneNeg (x : Core) (w i : Nat) : FVal :=
  if wInt w then putI32 (wSat w) (-(i32 (srcA x w i))) else negF (srcA x w i)

/-- VCMP: INT32 1 or 0. -/
def laneCmp (x : Core) (w i : Nat) : FVal :=
  let r := if wInt w then cmpI (wPred w) (srcA x w i) (srcB x w i) else cmpF (wPred w) (srcA x w i) (srcB x w i)
  (r.toNat, .none)

/-- VSEL: VA where the lane of VC is nonzero. -/
def laneSel (x : Core) (w i : Nat) : FVal := (if srcC x w i ≠ 0 then srcA x w i else srcB x w i, .none)

/-- VSQRT. -/
def laneSqrt (x : Core) (w i : Nat) : FVal := sqrtF (wRm w) false (srcA x w i)

/-- A bit operation. -/
def laneBits (f : Nat → Nat → Nat) (x : Core) (w i : Nat) : FVal := (f (srcA x w i) (srcB x w i) % 2 ^ 32, .none)

/-- VSHR: the amount is bits [4:0] of VB; PRED 1 keeps the sign. -/
def laneShr (x : Core) (w i : Nat) : FVal :=
  let k := srcB x w i % 32
  let a := srcA x w i
  (if wPred w = 1 then wrapInt (i32 a / (2 ^ k : Nat)) 32 else a / 2 ^ k, .none)

/-- VCVT: from the type TYPE names to the other. -/
def laneCvt (x : Core) (w i : Nat) : FVal :=
  if wInt w then toFlt fp32Fmt (wRm w) (wSat w) (numOfInt (i32 (srcA x w i)))
  else toIntN 32 (wRm w) (f32 (srcA x w i))

/-- VQNT. -/
def laneQnt (x : Core) (w i : Nat) : FVal := qntF (bitsOf w 87 4) (wRm w) (wSat w) (srcA x w i)

/-- A defined function of one source. -/
def laneFn (f : Nat → FVal → FVal) (x : Core) (w i : Nat) : FVal := f w (srcA x w i, .none)

/-- VEXPD: VB and IMM. -/
def laneExpd (x : Core) (w i : Nat) : FVal := expdF (wSat w) (srcA x w i) (x.lane (bitsOf w 58 5) i) (wImm w)

/-! ## Reductions (R160) -/

/-- A tree reduction over all 512 lanes, those above LEN supplying the identity; lane 0 takes the result and every other lane of VD 0. -/
def reduceEffect (c : Nat) (leaf : Nat → Nat → FVal) (node : Nat → Nat → Nat → FVal) (ident : Nat → Nat) (s : State)
    (w : Nat) : Effect :=
  let x := s.core c
  let leaves := (List.range 512).map (fun i => if i < wLen w then leaf w (srcA x w i) else (ident w, AFlags.none))
  let r := treeReduce (nodeOf (node w)) 9 leaves
  (addFlags (s.setCore c (x.setLanes (wVd w) 0 (r.1 :: List.replicate 511 0))) c r.2, .ok 0)

/-- The sum of two nodes. -/
def nodeSum (w a b : Nat) : FVal := if wInt w then putI32 (wSat w) (i32 a + i32 b) else addF (wRm w) (wSat w) a b

/-- The larger of two nodes. -/
def nodeMax (w a b : Nat) : FVal := if wInt w then pickI false a b else maxF a b

/-- The smaller of two nodes. -/
def nodeMin (w a b : Nat) : FVal := if wInt w then pickI true a b else minF a b

/-- A lane as a leaf. -/
def leafSelf (_ a : Nat) : FVal := (a, .none)

/-- A lane's square as a leaf. -/
def leafSquare (w a : Nat) : FVal := if wInt w then putI32 (wSat w) (i32 a * i32 a) else mulF (wRm w) (wSat w) a a

/-! ## Memory form (R159) -/

/-- A lane from an element, with its flags: integers become INT32, floats and scales FP32 (a NaN sets NAN, R62), and 32-bit elements are
copied. -/
def laneOfElem (fmt e : Nat) : FVal :=
  if fmtWidth fmt = 32 then (e, .none)
  else if isIntFmt fmt then (wrapInt (signedOf e (fmtWidth fmt)) 32, .none)
  else putF32 0 true (decodeNum fmt e, false)

/-- Lanes 0 on of a register loaded, their flags collected. -/
def loadLanes (s : State) (c v : Nat) (rs : List FVal) : State :=
  addFlags (s.setCore c ((s.core c).setLanes v 0 (rs.map (·.1)))) c (AFlags.all (rs.map (·.2)))

/-- VLD. -/
def vldEffect (c : Nat) (e : SpEcc) (s : State) (w : Nat) : Effect :=
  let s1 := takeEcc s c e
  let f := bitsOf w 76 4
  let n := bitsOf w 80 10 + 1
  match spFetch s1 c (bitsOf w 53 23) (packedBytes f n) with
  | .error x => (s1, .error x)
  | .ok bs => (loadLanes s1 c (wVd w) ((unpackElems f n bs).map (laneOfElem f)), .ok 0)

/-- VST. -/
def vstEffect (c : Nat) (e : SpEcc) (s : State) (w : Nat) : Effect :=
  let s1 := takeEcc s c e
  let f := bitsOf w 76 4
  let n := bitsOf w 80 10 + 1
  let x := s1.core c
  let lanes := (List.range n).map (x.lane (wVd w))
  let rs : List FVal :=
    if fmtWidth f = 32 then lanes.map (fun a => (a, .none))
    else lanes.map (fun a => convertNum f (bitsOf w 90 2) (decide (bitsOf w 92 1 = 1))
      (if isIntFmt f then numOfInt (i32 a) else f32 a))
  match spStore s1 c (bitsOf w 53 23) (packElems f (rs.map (·.1))) with
  | .error y => (s1, .error y)
  | .ok s2 => (addFlags s2 c (AFlags.all (rs.map (·.2))), .ok 0)

/-- VLDSC. -/
def vldscEffect (c : Nat) (e : SpEcc) (s : State) (w : Nat) : Effect :=
  let s1 := takeEcc s c e
  let f := bitsOf w 76 4
  let n := bitsOf w 80 10 + 1
  let l := blockLen f
  match spFetch s1 c (bitsOf w 53 23) ((n + l - 1) / l) with
  | .error x => (s1, .error x)
  | .ok bs =>
    (loadLanes s1 c (wVd w) ((List.range n).map (fun i => laneOfElem f ((bs.getD (i / l) 0#8).toNat))), .ok 0)

/-- A vector instruction of the register form issues. -/
def issueVec (core : Fin 96) (op : Nat) (f : Core → Nat → Nat → FVal) (s : State) : State :=
  issueIf s core.val 1 2 op noChecks (lanesEffect core.val f)

/-! ## The rows -/

/-- VLD (R159). -/
def execVld (core : Fin 96) (ecc : SpEcc) (s : State) : Out :=
  .next (issueIf s core.val 1 2 0x01 noChecks (vldEffect core.val ecc))
/-- VST (R159). -/
def execVst (core : Fin 96) (ecc : SpEcc) (s : State) : Out :=
  .next (issueIf s core.val 1 2 0x02 noChecks (vstEffect core.val ecc))
/-- VLDSC (R159). -/
def execVldsc (core : Fin 96) (ecc : SpEcc) (s : State) : Out :=
  .next (issueIf s core.val 1 2 0x03 noChecks (vldscEffect core.val ecc))
/-- VBC (R157): IMM in every lane that operates. -/
def execVbc (core : Fin 96) (s : State) : Out := .next (issueVec core 0x04 (fun _ w _ => (wImm w, .none)) s)
/-- VADD (R158). -/
def execVadd (core : Fin 96) (s : State) : Out := .next (issueVec core 0x08 laneAdd s)
/-- VSUB (R158). -/
def execVsub (core : Fin 96) (s : State) : Out := .next (issueVec core 0x09 laneSub s)
/-- VMUL (R158). -/
def execVmul (core : Fin 96) (s : State) : Out := .next (issueVec core 0x0A laneMul s)
/-- VFMA (R158). -/
def execVfma (core : Fin 96) (s : State) : Out := .next (issueVec core 0x0B laneFma s)
/-- VDIV (R158). -/
def execVdiv (core : Fin 96) (s : State) : Out := .next (issueVec core 0x0C laneDiv s)
/-- VSQRT (R158). -/
def execVsqrt (core : Fin 96) (s : State) : Out := .next (issueVec core 0x0D laneSqrt s)
/-- VMIN (R158). -/
def execVmin (core : Fin 96) (s : State) : Out := .next (issueVec core 0x0E laneMin s)
/-- VMAX (R158). -/
def execVmax (core : Fin 96) (s : State) : Out := .next (issueVec core 0x0F laneMax s)
/-- VABS (R158). -/
def execVabs (core : Fin 96) (s : State) : Out := .next (issueVec core 0x10 laneAbs s)
/-- VNEG (R158). -/
def execVneg (core : Fin 96) (s : State) : Out := .next (issueVec core 0x11 laneNeg s)
/-- VCMP (R158). -/
def execVcmp (core : Fin 96) (s : State) : Out := .next (issueVec core 0x12 laneCmp s)
/-- VSEL (R158). -/
def execVsel (core : Fin 96) (s : State) : Out := .next (issueVec core 0x13 laneSel s)
/-- VAND (R158). -/
def execVand (core : Fin 96) (s : State) : Out := .next (issueVec core 0x14 (laneBits (· &&& ·)) s)
/-- VOR (R158). -/
def execVor (core : Fin 96) (s : State) : Out := .next (issueVec core 0x15 (laneBits (· ||| ·)) s)
/-- VXOR (R158). -/
def execVxor (core : Fin 96) (s : State) : Out := .next (issueVec core 0x16 (laneBits (· ^^^ ·)) s)
/-- VSHL (R158). -/
def execVshl (core : Fin 96) (s : State) : Out := .next (issueVec core 0x17 (laneBits (fun a b => a * 2 ^ (b % 32))) s)
/-- VSHR (R158). -/
def execVshr (core : Fin 96) (s : State) : Out := .next (issueVec core 0x18 laneShr s)
/-- VCVT (R158). -/
def execVcvt (core : Fin 96) (s : State) : Out := .next (issueVec core 0x19 laneCvt s)
/-- VQNT (R158). -/
def execVqnt (core : Fin 96) (s : State) : Out := .next (issueVec core 0x1A laneQnt s)
/-- VEXP2 (R163). -/
def execVexp2 (core : Fin 96) (s : State) : Out := .next (issueVec core 0x20 (laneFn (fun w => exp2F (wSat w))) s)
/-- VLOG2 (R164). -/
def execVlog2 (core : Fin 96) (s : State) : Out := .next (issueVec core 0x21 (laneFn (fun _ => log2F)) s)
/-- VRCP (R165). -/
def execVrcp (core : Fin 96) (s : State) : Out := .next (issueVec core 0x22 (laneFn (fun _ => rcpF)) s)
/-- VRSQRT (R165). -/
def execVrsqrt (core : Fin 96) (s : State) : Out := .next (issueVec core 0x23 (laneFn (fun _ => rsqrtF)) s)
/-- VSIGM (R165). -/
def execVsigm (core : Fin 96) (s : State) : Out := .next (issueVec core 0x24 (laneFn (fun _ => sigmF)) s)
/-- VTANH (R165). -/
def execVtanh (core : Fin 96) (s : State) : Out := .next (issueVec core 0x25 (laneFn (fun _ => tanhF)) s)
/-- VGELU (R165). -/
def execVgelu (core : Fin 96) (s : State) : Out := .next (issueVec core 0x26 (laneFn (fun _ => geluF)) s)
/-- VEXPD (R165). -/
def execVexpd (core : Fin 96) (s : State) : Out := .next (issueVec core 0x27 laneExpd s)

/-- A reduction issues. -/
def issueRed (core : Fin 96) (op : Nat) (leaf : Nat → Nat → FVal) (node : Nat → Nat → Nat → FVal) (identF identI : Nat)
    (s : State) : State :=
  issueIf s core.val 1 2 op noChecks (reduceEffect core.val leaf node (fun w => if wInt w then identI else identF))

/-- VRSUM (R160). -/
def execVrsum (core : Fin 96) (s : State) : Out := .next (issueRed core 0x30 leafSelf nodeSum 0 0 s)
/-- VRMAX (R160). -/
def execVrmax (core : Fin 96) (s : State) : Out := .next (issueRed core 0x31 leafSelf nodeMax 0xFF800000 0x80000000 s)
/-- VRMIN (R160). -/
def execVrmin (core : Fin 96) (s : State) : Out := .next (issueRed core 0x32 leafSelf nodeMin 0x7F800000 0x7FFFFFFF s)
/-- VRSSQ (R160). -/
def execVrssq (core : Fin 96) (s : State) : Out := .next (issueRed core 0x33 leafSquare nodeSum 0 0 s)

end Sys2Proof.Machine
end

