-- ==== Sys2Proof/Machine/TileMove.lean ====
section
/-! DEFINITION. The load, store and gather streams (R144-R149, R166-R170) and the sequencer's own instructions (R141, R171). -/

namespace Sys2Proof.Machine

/-! ## Base slots (R135, R136) -/

/-- BASE of a slot. -/
def State.slotBase (s : State) (c n : Nat) : Nat := s.regFld (Reg.coreTpslotbase c n) 0 48
/-- SIZE of a slot. -/
def State.slotSize (s : State) (c n : Nat) : Nat := s.regFld (Reg.coreTpslotsize c n) 0 48

/-- SLOT_INVALID, or SLOT_BOUNDS for a footprint outside the slot (R135, R136); the address is that of the first failing byte. -/
def slotCheck (s : State) (c n : Nat) (lo hi : Int) : List TFault :=
  let size := s.slotSize c n
  if (s.core c).nslot ≤ n ∨ size = 0 then [⟨0x020D, 0, false, n, 0⟩]
  else if 0 ≤ lo ∧ hi < size then []
  else
    let first : Int := if lo < 0 then lo else max lo size
    [⟨0x020E, (((s.slotBase c n : Nat) : Int) + first).toNat, true, n, 0⟩]

/-- A device address from a slot and an offset. -/
def slotAddr (s : State) (c n : Nat) (off : Int) : Nat := (((s.slotBase c n : Nat) : Int) + off).toNat

/-- The fault of a poisoned response (R136, R527) to the transaction of a run of `n` bytes at `a` that begins at `at'` (R108, R184): its class 0x04 code
where its response brings one, which a transaction of one byte cannot (R527), else ADDRESS. -/
def poisonFault (p : Poison) (at' a n slot : Nat) : TFault :=
  ⟨if min (128 - at' % 128) (a + n - at') = 1 then 0x020F else p.coreCode, at', true, slot, 0⟩

/-- The transactions a run of bytes is split into (R108). -/
def txnCount (a n : Nat) : Nat := if n = 0 then 0 else (a + n - 1) / 128 - a / 128 + 1

/-! ## LD and ST (R166) -/

/-- The issue checks of LD and ST: the descriptor's fields, the scratchpad footprint and the slot (R145, R146, R136). A descriptor that cannot be read is
an execution fault (R178). -/
def strideChecks (c : Nat) (ph : Phys) (s : State) (w : Nat) : List TFault :=
  match descAt (takeEcc s c ph.sp) c (bitsOf w 71 18) with
  | .error _ => []
  | .ok v =>
    let d := strideOf v
    (strideResv v ++
      (if d.run = 0 ∨ d.cnt1 = 0 ∨ d.cnt2 = 0 ∨ d.cnt3 = 0 then [.plain 0x020C]
        else spCheck (bitsOf w 48 23) d.spLen 1 ++ slotCheck s c d.slot d.span.1 d.span.2)).map (TFault.inSlot d.slot)

/-- Runs loaded one after another; a poisoned response or a scratchpad fault ends the load with what it has written. -/
def loadRuns (c : Nat) (e : MemEcc) (slot spa len : Nat) : List (Int × Nat) → Nat → State → Effect
  | [], n, s => (s, .ok n)
  | r :: rs, n, s =>
    let a := slotAddr s c slot r.1
    let x := coreRead s (coreReq s c) e a len
    match x.2 with
    | .error p => (x.1, .error (poisonFault p (readFailsAt s (coreReq s c) e a len) a len slot))
    | .ok bs =>
      match spStore (x.1.bump (Reg.corePortrd c) len) c (spa + r.2) bs with
      | .error f => (x.1, .error (f.inSlot slot))
      | .ok s1 => loadRuns c e slot spa len rs (n + txnCount a len) s1

/-- LD (R166, R147). -/
def ldEffect (c : Nat) (ph : Phys) (s : State) (w : Nat) : Effect :=
  let s1 := takeEcc s c ph.sp
  match descAt s1 c (bitsOf w 71 18) with
  | .error f => (s1, .error f)
  | .ok v => let d := strideOf v; loadRuns c ph.mem d.slot (bitsOf w 48 23) d.run d.runs 0 s1

/-- Runs stored one after another in the order of R147. The stores of a reblow or tie-break run end at the vertical port (R407, R429). -/
def storeRuns (c slot spa len : Nat) : List (Int × Nat) → Nat → State → Effect
  | [], n, s => (s, .ok n)
  | r :: rs, n, s =>
    let a := slotAddr s c slot r.1
    match spFetch s c (spa + r.2) len with
    | .error f => (s, .error (f.inSlot slot))
    | .ok bs =>
      if shadowRun s c then storeRuns c slot spa len rs (n + txnCount a len) s
      else
        let x := devWrite (s.bump (Reg.corePortwr c) len) (coreReq s c) .clean a bs
        match x.2 with
        | some _ => (x.1, .error ⟨0x020F, writeFailsAt (s.bump (Reg.corePortwr c) len) (coreReq s c) .clean a bs, true, slot, 0⟩)
        | none => storeRuns c slot spa len rs (n + txnCount a len) x.1

/-- ST (R166, R147). -/
def stEffect (c : Nat) (ph : Phys) (s : State) (w : Nat) : Effect :=
  let s1 := takeEcc s c ph.sp
  match descAt s1 c (bitsOf w 71 18) with
  | .error f => (s1, .error f)
  | .ok v => let d := strideOf v; storeRuns c d.slot (bitsOf w 48 23) d.run d.runs 0 s1

/-! ## Record blocks (R167, R168) -/

/-- The issue checks of LDACC and STACC: the descriptor names only OFFSET and SLOT. A descriptor that cannot be read is an execution fault (R178). -/
def blockChecks (c : Nat) (ph : Phys) (s : State) (w : Nat) : List TFault :=
  match descAt (takeEcc s c ph.sp) c (bitsOf w 65 18) with
  | .error _ => []
  | .ok v =>
    let d := strideOf v
    (resv v 45 211 ++ slotCheck s c d.slot d.offset (d.offset + 32 + (bitsOf w 58 7 + 1) * 2048 - 1)).map (TFault.inSlot d.slot)

/-- A record as an accumulator. DESIGN CHOICE: a float-tree record's VALUE is kept whole, its bits [95:34] among it, which arithmetic does not
read. -/
def accOfRec (r : Rec) : Acc :=
  let f (i : Nat) : Bool := decide (bitsOf r.flags i 1 = 1)
  ⟨BitVec.ofNat 96 r.value, BitVec.ofNat 3 r.res, f 0, f 1, f 2, f 3, f 4⟩

/-- An accumulator as a record of a tile. -/
def recOfAcc (a : Acc) (st : TileSt) (terms : Nat) : Rec := recOf (a.record st terms)

/-- The records of a block row by row. -/
def blockRecs (rows : Nat) (body : List Byte) : List (List Rec) :=
  (List.range rows).map (fun r => (words16 128 (sliceBytes body (r * 2048) 2048)).map recOf)

/-- The range of a header or tile is the sibling subtree of another (R77, R168). -/
def siblings (ks1 lg1 ks2 lg2 : Nat) : Bool :=
  decide (lg1 = lg2) && decide (ks1 ≠ ks2) && decide (ks1 % 2 ^ lg1 = 0) && decide (ks2 % 2 ^ lg1 = 0) &&
    decide (ks1 / 2 ^ (lg1 + 1) = ks2 / 2 ^ (lg1 + 1))

/-- A tile state without what R168 does not compare, the range, and without the fields that R139 has ignored: a scale format whose enable is 0, and the
anchor of float-tree mode, which has no grid (R75). -/
def TileSt.compared (a : TileSt) : TileSt :=
  { a with
    kstart := 0, klog := 0
    scfa := if a.scea then a.scfa else 0
    scfb := if a.sceb then a.scfb else 0
    anchor := if a.fmode then 0 else a.anchor }

/-- Whether two tile states agree in what R168 compares (R139). -/
def sameTile (a b : TileSt) : Bool := decide (a.compared = b.compared)

/-- The offset in a block of the first record, in its order, that a test picks. The test is given the record and the first of its row. -/
def firstRec (recs : List (List Rec)) (p : Rec → Rec → Bool) : Option Nat :=
  (((recs.zipIdx).flatMap (fun r => (r.1.zipIdx).map (fun q => (32 + r.2 * 2048 + q.2 * 16, p q.1 (r.1.headD q.1))))).find? (·.2)).map (·.1)

/-- The offset in a block of the first row whose summed term count exceeds the limit in combine mode (R67, R168). -/
def firstFull (x : Core) (t row0 : Nat) (recs : List (List Rec)) : Option Nat :=
  ((recs.zipIdx).find? (fun r => decide (8388607 < x.rowTerms t (row0 + r.2) + ((r.1.headD ⟨0, 0, 0, false, 0⟩).terms)))).map
    (fun r => 32 + r.2 * 2048)

/-- The checks of R168 in their order; a fault with the offset in the block of the first byte that fails (R184). DESIGN CHOICE: a reserved header bit that
is not zero is a header that is not well formed, RECORD, and no RESERVED of R139, since R168 gives the block's own check; a check of the header, of its
CRC or of its agreement with the tile fails at the block's first byte, one of a record or of a row's terms at that record or at the row's first. -/
def ldaccFault (x : Core) (t row0 rows : Nat) (combine : Bool) (head body : List Byte) : Option (Nat × TFault) :=
  let st := tileOfHeader head
  let cur := x.tileSt t
  let recs := blockRecs rows body
  if !headerOk head ∨ leAt head 14 2 ≠ rows - 1 ∨ leAt head 16 4 ≠ crc32c body then some (0, .plain 0x0211)
  else match firstRec recs (fun q h => decide (q.fmode ≠ st.fmode) || decide (q.terms ≠ h.terms)) with
    | some o => some (o, .plain 0x0211)
    | none =>
      if combine && (!sameTile st cur || (st.fmode && !siblings st.kstart st.klog cur.kstart cur.klog)) then some (0, .plain 0x0211)
      else match (if combine then firstFull x t row0 recs else none) with
        | some o => some (o, .plain 0x0207)
        | none => (firstRec recs (fun q _ => !q.resOk)).map (fun o => (o, .plain 0x020B))

/-- One record taken into an accumulator (R168, R73, R78, R407). -/
def takeRec (reblow : Bool) (st : TileSt) (combine left : Bool) (terms : Nat) (a : Acc) (r : Rec) : Acc :=
  let b := runAcc reblow st (accOfRec r)
  if !combine then b.shown st.fmode
  else if st.fmode then
    let q := recOfAcc a st terms
    let p := if left then combineFloat r q else combineFloat q r
    { accOfRec p with res := 7#3 }
  else accOfRec (combineFixed (recOfAcc a st terms) (recOfAcc b st 0))

/-- One row of records taken into a row of accumulators. -/
def takeRow (reblow : Bool) (t : Nat) (st : TileSt) (combine left : Bool) (x : Core) (row : Nat) (rs : List Rec) : Core :=
  let terms := x.rowTerms t row
  let x1 := (rs.zipIdx).foldl (fun x r =>
    let y := x.setAcc t row r.2 (takeRec reblow st combine left terms (x.acc t row r.2) r.1)
    { y with leaves := sput [] y.leaves (y.accKey t row r.2) [] }) x
  let n := (rs.headD ⟨0, 0, 0, false, 0⟩).terms
  x1.setTerms t row (if combine then terms + n else n)

/-- LDACC (R167, R168). DESIGN CHOICE: in replace mode the next-K index is set of the rows that the block writes; in combine mode, where R168 changes the
tile's range itself, of every row of the tile. DESIGN CHOICE: the block's header, which is in memory, is checked when it has been read, after
ACC_CONFLICT, though R178 lists header fields among the issue checks. -/
def ldaccEffect (c : Nat) (ph : Phys) (s : State) (w : Nat) : Effect :=
  let s1 := takeEcc s c ph.sp
  match descAt s1 c (bitsOf w 65 18) with
  | .error f => (s1, .error f)
  | .ok v =>
    let d := strideOf v
    let rows := bitsOf w 58 7 + 1
    let row0 := bitsOf w 51 7
    let combine := decide (bitsOf w 83 1 = 1)
    let a := slotAddr s1 c d.slot d.offset
    let len := 32 + rows * 2048
    let r := coreRead s1 (coreReq s1 c) ph.mem a len
    match r.2 with
    | .error p => (r.1, .error (poisonFault p (readFailsAt s1 (coreReq s1 c) ph.mem a len) a len d.slot))
    | .ok bs =>
      let s2 := r.1.bump (Reg.corePortrd c) len
      let x := s2.core c
      let t := physTile s2 c (bitsOf w 48 3)
      let head := bs.take 32
      let body := bs.drop 32
      match ldaccFault x t row0 rows combine head body with
      | some (o, f) => (s2, .error { f with addr := a + o, dev := true, slot := d.slot })
      | none =>
        let st := tileOfHeader head
        let cur := x.tileSt t
        let left := decide (st.kstart < cur.kstart)
        let fin : TileSt := if combine then
            (if st.fmode then { cur with kstart := min st.kstart cur.kstart, klog := cur.klog + 1 } else cur)
          else st
        let x1 := ((blockRecs rows body).zipIdx).foldl (fun x r => takeRow (isReblow s2 c) t st combine left x (row0 + r.2) r.1) x
        let x2 := if st.fmode then
            (if combine then x1.setAllNextK t (fin.kstart + 2 ^ fin.klog)
              else (List.range rows).foldl (fun x r => x.setNextK t (row0 + r) (fin.kstart + 2 ^ fin.klog)) x1)
          else x1
        (s2.setCore c { x2 with tiles := sput TileSt.zero x2.tiles t fin }, .ok (txnCount a len))

/-- A record block sent as REC packets of at most 128 bytes (R469); where one is refused, its address (R184). -/
def recRuns (c base rows : Nat) (tile : List Byte) : Nat → State → Nat → List Byte → State × Option Nat
  | 0, s, _, _ => (s, none)
  | f + 1, s, a, bs =>
    match bs with
    | [] => (s, none)
    | _ =>
      let k := min bs.length (128 - a % 128)
      let x := recReq s (coreReq s c) a tile base rows (bs.take k)
      match x.2 with
      | some _ => (x.1, some a)
      | none => recRuns c base rows tile f x.1 (a + k) (bs.drop k)

/-- STACC (R167, R469): residues and parities are checked on export (R88, R98). -/
def staccEffect (c : Nat) (ph : Phys) (s : State) (w : Nat) : Effect :=
  let s1 := takeEcc s c ph.sp
  match descAt s1 c (bitsOf w 65 18) with
  | .error f => (s1, .error f)
  | .ok v =>
    let d := strideOf v
    let rows := bitsOf w 58 7 + 1
    let row0 := bitsOf w 51 7
    let x := s1.core c
    let t := physTile s1 c (bitsOf w 48 3)
    let st := x.tileSt t
    let bad := (List.range rows).any (fun r => (List.range 128).any (fun j => !(x.acc t (row0 + r) j).resOk st.fmode))
    if ph.upset || bad then (s1, .error ((TFault.plain 0x020B).inSlot d.slot))
    else
      let body := ((List.range rows).map (fun r => (List.range 128).map (fun j =>
        leBytes 16 ((runAcc (isReblow s1 c) st (x.acc t (row0 + r) j)).record st (x.rowTerms t (row0 + r)))))).flatten.flatten
      let head := blockHeader st rows (crc32c body)
      let a := slotAddr s1 c d.slot d.offset
      let len := 32 + rows * 2048
      if shadowRun s1 c then (s1, .ok (txnCount a len))
      else
        let r := recRuns c a rows (sliceBytes head 2 11) (len / 128 + 2) (s1.bump (Reg.corePortwr c) len) a (head ++ body)
        match r.2 with
        | some at' => (r.1, .error ⟨0x020F, at', true, d.slot, 0⟩)
        | none => (r.1, .ok (txnCount a len))

/-! ## STSIG (R169) -/

/-- An element negated: the sign bit of a float turned but for a canonical NaN, an integer negated with its least value going to the greatest. -/
def negElem (fmt e : Nat) : Nat :=
  let wd := fmtWidth fmt
  if isIntFmt fmt then
    let v := signedOf e wd
    wrapInt (if v = -((2 ^ (wd - 1) : Nat) : Int) then ((2 ^ (wd - 1) : Nat) : Int) - 1 else -v) wd
  else if (fltFmt fmt).nanEnc = some e then e
  else if e < 2 ^ (wd - 1) then e + 2 ^ (wd - 1) else e - 2 ^ (wd - 1)

/-- A row as STSIG transforms it. -/
def sigRow (fmt : Nat) (neg : Bool) (perm : List Nat) (bs : List Byte) : List Byte :=
  let es := unpackElems fmt 128 bs
  packElems fmt (perm.map (fun p => let e := es.getD p 0; if neg then negElem fmt e else e))

/-- STSIG (R169, R417): the signature goes to Lehr A with the run's identity and ordinal. DESIGN CHOICE: an uncorrectable word of the
permutation or of the data is reported before a permutation byte above 127. -/
def stsigEffect (c : Nat) (ph : Phys) (s : State) (w : Nat) : Effect :=
  let s1 := takeEcc s c ph.sp
  let f := bitsOf w 87 4
  let rb := 128 * fmtWidth f / 8
  let n := bitsOf w 71 16
  let perm := if bitsOf w 110 1 = 1 then spFetch s1 c (bitsOf w 92 18 * 32) 128
    else .ok ((List.range 128).map (BitVec.ofNat 8))
  match perm, spFetch s1 c (bitsOf w 48 23) (n * rb) with
  | .error e, _ => (s1, .error e)
  | _, .error e => (s1, .error e)
  | .ok ps, .ok bs =>
    if ps.any (fun p => decide (127 < p.toNat)) then (s1, .error (.plain 0x020C))
    else
      let rows := (List.range n).map (fun r =>
        sigRow f (decide (bitsOf w 91 1 = 1)) (ps.map BitVec.toNat) (sliceBytes bs (r * rb) rb))
      let x := s1.core c
      let msg : SigMsg := ⟨s1.cmdSeq c, s1.cmdPart c, x.run.kind, x.run.prog, bitsOf w 112 16, crc32c rows.flatten, x.run.sigs,
        x.run.frame, c⟩
      let s2 := s1.setCore c { x with run := { x.run with sigs := x.run.sigs + 1 } }
      ({ s2 with sigOut := s2.sigOut ++ [msg] }, .ok 0)

/-! ## GIDX (R170) -/

/-- GIDX's issue checks. A descriptor that cannot be read is an execution fault (R178). -/
def gidxChecks (c : Nat) (ph : Phys) (s : State) (w : Nat) : List TFault :=
  match descAt (takeEcc s c ph.sp) c (bitsOf w 71 18) with
  | .error _ => []
  | .ok v =>
    let d := gatherOf v
    (resv v 45 3 ++ resv v 136 120 ++
    (if d.rowb = 0 ∨ d.cnt = 0 then [.plain 0x020C]
      else spCheck (bitsOf w 48 23) ((d.cnt - 1) * d.p + d.rowb) 1 ++ spCheck (bitsOf w 89 23) (4 * d.cnt) 4 ++
        (slotCheck s c d.slot 0 0).filter (fun f => decide (f.code = 0x020D)))).map (TFault.inSlot d.slot)

/-- The rows of a gather from position `n` on; each row is checked against the slot before its transactions (R136). -/
def gatherRows (c : Nat) (e : MemEcc) (d : GatherD) (spa : Nat) : List Int → Nat → Nat → State → Effect
  | [], _, k, s => (s, .ok k)
  | x :: xs, n, k, s =>
    let off := d.offset + x * d.rowstr
    match firstFault (slotCheck s c d.slot off (off + d.rowb - 1)) with
    | some f => (s, .error f)
    | none =>
      let a := slotAddr s c d.slot off
      let r := coreRead s (coreReq s c) e a d.rowb
      match r.2 with
      | .error p => (r.1, .error (poisonFault p (readFailsAt s (coreReq s c) e a d.rowb) a d.rowb d.slot))
      | .ok bs =>
        match spStore (r.1.bump (Reg.corePortrd c) d.rowb) c (spa + n * d.p) bs with
        | .error f => (r.1, .error (f.inSlot d.slot))
        | .ok s1 => gatherRows c e d spa xs (n + 1) (k + txnCount a d.rowb) s1

/-- GIDX (R170). -/
def gidxEffect (c : Nat) (ph : Phys) (s : State) (w : Nat) : Effect :=
  let s1 := takeEcc s c ph.sp
  match descAt s1 c (bitsOf w 71 18) with
  | .error f => (s1, .error f)
  | .ok v =>
    let d := gatherOf v
    match spFetch s1 c (bitsOf w 89 23) (4 * d.cnt) with
    | .error f => (s1, .error (f.inSlot d.slot))
    | .ok bs =>
      let idx := (List.range d.cnt).map (fun i => signedOf (leAt bs (4 * i) 4) 32)
      gatherRows c ph.mem d (bitsOf w 48 23) idx 0 0 s1

/-! ## The sequencer's instructions -/

/-- An instruction that only waits and signals. -/
def nopEffect (s : State) (_ : Nat) : Effect := (s, .ok 0)

/-- END (R133, R141): the stream ends. -/
def endEffect (c k : Nat) (s : State) (_ : Nat) : Effect :=
  let x := s.core c
  (s.setCore c (x.setStream k { x.stream k with ended := true }), .ok 0)

/-- CKPT's issue check (R171): markers are numbered 1, 2, 3 and so on in each stream, none above NCKPT. -/
def ckptChecks (c k : Nat) (s : State) (w : Nat) : List TFault :=
  let x := s.core c
  let n := bitsOf w 48 24
  whenF (decide (n ≠ (x.stream k).marker + 1) || decide (x.nckpt < n)) (.plain 0x0214)

/-- CKPT (R171, R183): the marker is issued. -/
def ckptEffect (c k : Nat) (s : State) (w : Nat) : Effect :=
  let x := s.core c
  let n := bitsOf w 48 24
  let s1 := s.setCore c (x.setStream k { x.stream k with marker := n })
  (s1.setRegFld (Reg.coreTpckpt c) 0 24 (max n (s1.regFld (Reg.coreTpckpt c) 0 24)), .ok 0)

/-! ## The rows -/

/-- LD (R166). -/
def execLd (core : Fin 96) (ph : Phys) (s : State) : Out :=
  .next (issueIf s core.val 2 3 1 (strideChecks core.val ph) (ldEffect core.val ph))
/-- LDACC (R167, R168). -/
def execLdacc (core : Fin 96) (ph : Phys) (s : State) : Out :=
  .next (issueIf s core.val 2 3 2 (blockChecks core.val ph) (ldaccEffect core.val ph))
/-- ST (R166). -/
def execSt (core : Fin 96) (ph : Phys) (s : State) : Out :=
  .next (orWait s (issueIf s core.val 3 4 1 (strideChecks core.val ph) (stEffect core.val ph)))
/-- STACC (R167). -/
def execStacc (core : Fin 96) (ph : Phys) (s : State) : Out :=
  .next (orWait s (issueIf s core.val 3 4 2 (blockChecks core.val ph) (staccEffect core.val ph)))
/-- STSIG (R169). -/
def execStsig (core : Fin 96) (ph : Phys) (s : State) : Out :=
  .next (issueIf s core.val 3 4 3 noChecks (stsigEffect core.val ph))
/-- GIDX (R170). -/
def execGidx (core : Fin 96) (ph : Phys) (s : State) : Out :=
  .next (issueIf s core.val 4 5 1 (gidxChecks core.val ph) (gidxEffect core.val ph))
/-- NOP (R150). -/
def execNop (core : Fin 96) (stream : Fin 5) (s : State) : Out :=
  .next (issueIf s core.val stream.val 6 1 noChecks nopEffect)
/-- END (R133, R141). -/
def execEndStream (core : Fin 96) (stream : Fin 5) (s : State) : Out :=
  .next (issueIf s core.val stream.val 6 2 noChecks (endEffect core.val stream.val))
/-- CKPT (R171). -/
def execCkpt (core : Fin 96) (stream : Fin 5) (s : State) : Out :=
  .next (issueIf s core.val stream.val 6 3 (ckptChecks core.val stream.val) (ckptEffect core.val stream.val))
/-- FENCE (R141). -/
def execFence (core : Fin 96) (stream : Fin 5) (s : State) : Out :=
  .next (issueIf s core.val stream.val 6 4 noChecks nopEffect)

end Sys2Proof.Machine
end

