-- ==== Sys2Proof/Machine/Cullet.lean ====
section
/-! DEFINITION. The cullet managers (R208-R243): sequences and their geometry, reservation records, walks and dependency notices,
rollback, merging and resolving, the page gather, and the operations of the port. -/

namespace Sys2Proof.Machine

/-! ## Sequences (R208-R211, R241) -/

/-- CULLET_SEQCFGs. -/
def seqCfg (s : State) (k i : Nat) : Word := s.reg (Reg.culletSeqcfg k i)
/-- The sequence is live. -/
def seqLive (s : State) (k i : Nat) : Bool := bitAt (seqCfg s k i) 0
/-- The sequence is failed (R218). -/
def seqFailed (s : State) (k i : Nat) : Bool := bitAt (seqCfg s k i) 1
/-- The owning partition. -/
def seqPart (s : State) (k i : Nat) : Nat := fld (seqCfg s k i) 4 4
/-- LC. -/
def seqLc (s : State) (k i : Nat) : Nat := s.regFld (Reg.culletSeqlen k i) 0 17
/-- LR. -/
def seqLr (s : State) (k i : Nat) : Nat := s.regFld (Reg.culletSeqlen k i) 32 17
/-- LC replaced. -/
def setLc (s : State) (k i v : Nat) : State := s.setRegFld (Reg.culletSeqlen k i) 0 17 v
/-- LR replaced. -/
def setLr (s : State) (k i v : Nat) : State := s.setRegFld (Reg.culletSeqlen k i) 32 17 v

/-- A geometry (R209). -/
structure Geometry where
  nl : Nat
  nkv : Nat
  d : Nat
  fmt : Nat
  tbase : Nat
  deriving DecidableEq, Repr

/-- The geometry in bits [35:8] of a sequence register or of OPARG. -/
def geometryOf (w : Word) : Geometry := ⟨fld w 8 8 + 1, fld w 16 6 + 1, (fld w 22 4 + 1) * 32, fld w 26 4, fld w 30 6⟩

/-- A sequence's geometry. -/
def geom (s : State) (k i : Nat) : Geometry := geometryOf (seqCfg s k i)

/-- The width of an element in bytes: 8-bit or 16-bit formats. -/
def Geometry.eltBytes (g : Geometry) : Nat := fmtWidth g.fmt / 8

/-- RB (R210). -/
def Geometry.rb (g : Geometry) : Nat := (g.d * g.eltBytes + 63) / 64 * 64

/-- The page bytes of a sequence (R211). -/
def Geometry.pageBytes (g : Geometry) : Nat := g.nl * 2 * g.nkv * 16 * g.rb

/-- R209's formats and tables. -/
def Geometry.ok (g : Geometry) : Bool :=
  [1, 7, 8, 9, 10].contains g.fmt && decide (g.tbase + g.nkv ≤ 64)

/-- The page size of a pool. -/
def poolPageSize (s : State) (k : Nat) : Nat := s.regFld (Reg.culletPoolcfg k) 24 9 * 4096
/-- The pages of a pool. -/
def poolPages (s : State) (k : Nat) : Nat := s.regFld (Reg.culletPoolcfg k) 0 21
/-- The device address of a pool page. -/
def poolAddr (s : State) (k p : Nat) : Nat := s.regFld (Reg.culletPoolbase k) 12 36 * 4096 + p * poolPageSize s k

/-- The records of a sequence. -/
def seqRecs (s : State) (k i : Nat) : List KvRec := sget [] (s.cull k).recs i

/-- The records of a sequence replaced. -/
def setRecs (s : State) (k i : Nat) (rs : List KvRec) : State :=
  s.setCull k { s.cull k with recs := sput [] (s.cull k).recs i rs }

/-- A page-table entry (R218). -/
def pte (s : State) (k i p : Nat) : BitVec 32 := sget 0#32 (s.cull k).table (4096 * i + p)

/-- A page-table entry replaced. -/
def setPte (s : State) (k i p : Nat) (e : BitVec 32) : State :=
  s.setCull k { s.cull k with table := sput 0#32 (s.cull k).table (4096 * i + p) e }

/-- PAGE of an entry. -/
def ptePage (e : BitVec 32) : Nat := bitsOf e.toNat 0 20
/-- VALID of an entry. -/
def pteValid (e : BitVec 32) : Bool := decide (bitsOf e.toNat 20 1 = 1)

/-- The entries of a sequence that hold a page. -/
def seqPages (s : State) (k i : Nat) : List (Nat × BitVec 32) :=
  (s.cull k).table.filter (fun e => decide (e.1 / 4096 = i) && pteValid e.2)

/-- CULLET_SEQRECs of a sequence follows its records and pages (R241). -/
def syncSeq (s : State) (k i : Nat) : State :=
  let rs := seqRecs s k i
  let draft := match rs with
    | r :: _ => decide (r.st = .draft)
    | [] => false
  let spec0 := match rs.find? (·.spec) with
    | some r => r.start
    | none => seqLr s k i
  let w := setFld (setFld (setBit (setBit (setFld 0#64 0 4 rs.length) 4 draft) 5 (rs.any (·.spec))) 16 13
    (seqPages s k i).length) 32 17 spec0
  s.setReg (Reg.culletSeqrec k i) (if seqLive s k i then w else 0#64)

/-- CULLET_STATUS, CULLET_FREE, CULLET_SCRUBQ and CULLET_USEDn follow the pool (R213, R214, R240). -/
def syncPool (s : State) (k : Nat) : State :=
  let ps := (s.cull k).pages
  let scrub := (ps.filter (fun p => decide (p.2 = .scrub))).length
  let live := ((List.range 256).filter (fun i => seqLive s k i)).length
  let s1 := (s.setRegFld (Reg.culletFree k) 0 21 (poolPages s k - ps.length)).setRegFld (Reg.culletScrubq k) 0 21 scrub
  let s2 := (s1.setRegFld (Reg.culletStatus k) 0 9 live).setRegBit (Reg.culletStatus k) 11 (decide (scrub ≠ 0))
  (List.range 16).foldl (fun s n => s.setRegFld (Reg.culletUsed k n) 0 21
    (ps.filter (fun p => match p.2 with
      | .owned q _ => decide (q = n)
      | _ => false)).length) s2

/-! ## Drawing pages (R214) -/

/-- The lowest `n` free pages from a page on, below a limit, of a list of the pages that are not free. -/
def freeFrom : Nat → Nat → Nat → Nat → List (Nat × PageSt) → List Nat
  | 0, _, _, _, _ => []
  | f + 1, n, c, lim, ps =>
    if n = 0 ∨ lim ≤ c then []
    else match ps with
      | [] => c :: freeFrom f (n - 1) (c + 1) lim []
      | p :: rest => if p.1 = c then freeFrom f n (c + 1) lim rest else c :: freeFrom f (n - 1) (c + 1) lim ps

/-- The pages the pool can draw, lowest first, at most `n`. -/
def drawable (s : State) (k n : Nat) : List Nat :=
  let ps := (s.cull k).pages
  freeFrom (n + ps.length + 1) n 0 (poolPages s k) ps

/-- Pages drawn for logical pages from `p` on, with PEND and perhaps SPEC set. -/
def drawPages (k i : Nat) (spec : Bool) : State → Nat → List Nat → State
  | s, _, [] => s
  | s, p, pg :: rest =>
    let e := BitVec.ofNat 32 (pg + 2 ^ 20 + (if spec then 2 ^ 21 else 0) + 2 ^ 22)
    let s1 := setPte s k i p e
    let s2 := s1.setCull k { s1.cull k with pages := sput PageSt.free (s1.cull k).pages pg (.owned (seqPart s k i) i) }
    drawPages k i spec s2 (p + 1) rest

/-! ## Who may act on a sequence -/

/-- SEQ_INVALID, SEQ_PARTITION, TABLE_ERROR in that order (R216, R218, R223). -/
def seqCheck (s : State) (k i part : Nat) : Option Nat :=
  if !seqLive s k i then some 0x0801
  else if seqPart s k i ≠ part then some 0x0802
  else if seqFailed s k i then some 0x080D
  else none

/-- A refusal by a manager, counted. -/
def refused (s : State) (k : Nat) : State := s.bump (Reg.culletRefused k) 1

/-! ## Speculation of records (R233) -/

/-- The number that names a record: its sequence's handle and its start. -/
def recId (handle start : Nat) : Nat := handle * 2 ^ 17 + start

/-- The entries a record drew: logical pages that begin within its run. -/
def recPages (r : KvRec) : List Nat :=
  let a := (r.start + 15) / 16
  (List.range ((r.start + r.count + 15) / 16 - a)).map (a + ·)

/-- Bits of the entries a record drew, set or cleared. -/
def markPages (s : State) (k i : Nat) (r : KvRec) (bit : Nat) (b : Bool) : State :=
  (recPages r).foldl (fun s p =>
    let e := pte s k i p
    if pteValid e then
      let v := e.toNat - bitsOf e.toNat bit 1 * 2 ^ bit + (if b then 2 ^ bit else 0)
      setPte s k i p (BitVec.ofNat 32 v)
    else s) s

/-- R233: the records an owner holds on a sequence become speculative, with their pages. -/
def specRecs (s : State) (k i owner : Nat) : State :=
  let rs := seqRecs s k i
  if rs.any (fun r => decide (r.owner = owner) && !r.spec) then
    let s1 := (rs.filter (fun r => decide (r.owner = owner))).foldl (fun s r => markPages s k i r 21 true) s
    syncSeq (setRecs s1 k i (rs.map (fun r => if r.owner = owner then { r with spec := true } else r))) k i
  else s

/-- The sequences that hold records. -/
def withRecs (s : State) : List (Nat × Nat) :=
  (List.range 4).flatMap (fun k => ((s.cull k).recs.map (fun p => (k, p.1))))

/-- A command's sources have changed: CORE_CMD.SPEC on its cores follows them, its records are speculative while it is (R233, R393). -/
def syncSpec (s : State) (key : Nat) : State :=
  match s.cmd key with
  | none => s
  | some c =>
    let s1 := if c.spec then mapCmd s key (fun c => { c with everSpec := true }) else s
    let s2 := (c.runs.filterMap (fun r => match r.st with
      | .active k => some k
      | _ => none)).foldl (fun s k => s.setRegBit (Reg.coreCmd k) 38 c.spec) s1
    if c.spec then (withRecs s2).foldl (fun s p => specRecs s p.1 p.2 key) s2 else s2

/-! ## Dependency notices (R234) -/

/-- The notice for one record that a walk by `reader` covers up to `hi` (R234). DESIGN CHOICE: the third consequence, the reader's own records become
speculative, stands without an "if"; the model reads it with the second, so that it follows a speculative record only (as R233 has it). -/
def notice (reader handle hi : Nat) (s : State) (r : KvRec) : State :=
  let s1 := s.bump (Reg.culletTaint (handle / 256)) 1
  let id := recId handle r.start
  let spec := r.spec && !r.resolvers.contains reader
  let s2 := mapCmd s1 reader (fun c => { c with
    follows := if c.follows.contains r.owner then c.follows else c.follows ++ [r.owner]
    reads := c.reads ++ [(id, hi)]
    srcKv := if spec ∧ !c.srcKv.contains id then c.srcKv ++ [id] else c.srcKv })
  if spec then
    let s3 := (withRecs s2).foldl (fun s p => specRecs s p.1 p.2 reader) s2
    syncSpec s3 reader
  else s2

/-- The notices of a walk of positions `lo` to `hi - 1`: every record of another command that it covers. -/
def notices (reader handle lo hi : Nat) (s : State) : State :=
  ((seqRecs s (handle / 256) (handle % 256)).filter (fun r =>
    decide (r.owner ≠ reader) && decide (r.start < hi) && decide (lo < r.start + r.count))).foldl
      (fun s r => notice reader handle (min hi (r.start + r.count)) s r) s

/-- The walk requests a run of positions takes: one for each 16 consecutive logical pages (R225). -/
def walkCount (lo hi : Nat) : Nat := if hi ≤ lo then 0 else ((hi - 1) / 16 - lo / 16) / 16 + 1

/-! ## Reservations, merging, resolving and rollback (R216, R217, R235, R236) -/

/-- R216: a reservation, or the code that refuses it. -/
def reserve (s : State) (handle part owner count : Nat) (draft spec : Bool) : Except Nat (State × Nat) :=
  let k := handle / 256
  let i := handle % 256
  match seqCheck s k i part with
  | some c => .error c
  | none =>
    let rs := seqRecs s k i
    let lr := seqLr s k i
    let have' := (seqPages s k i).length
    let need := (lr + count + 15) / 16 - have'
    let pgs := drawable s k need
    if 8 ≤ rs.length then .error 0x0809
    else if 65536 < lr + count then .error 0x0805
    else if pgs.length < need ∨ poolPages s k = 0 then .error 0x0806
    else if s.regFld (Reg.culletQuota k part) 0 21 < s.regFld (Reg.culletUsed k part) 0 21 + need then .error 0x0807
    else
      let sp := draft || spec
      let s1 := drawPages k i sp s have' pgs
      let s2 := setRecs s1 k i (rs ++ [⟨owner, lr, count, draft, sp, .held, []⟩])
      .ok (syncPool (syncSeq (setLr s2 k i (lr + count)) k i) k, lr)

/-- A record that merges is no longer a source of anyone's speculation (R234, R393). -/
def releaseReaders (s : State) (id : Nat) : State :=
  let keys := (s.bench.cmds.filter (fun c => c.srcKv.contains id)).map Cmd.key
  let s1 := { s with bench := { s.bench with cmds := s.bench.cmds.map (fun c =>
    { c with srcKv := c.srcKv.filter (fun x => decide (x ≠ id)), reads := c.reads.filter (fun x => decide (x.1 ≠ id)) }) } }
  keys.foldl syncSpec s1

/-- R217: ready records at LC merge one after another. -/
def mergeReady (k i : Nat) : Nat → State → State
  | 0, s => s
  | n + 1, s =>
    match seqRecs s k i with
    | r :: rest =>
      if r.st = .ready ∧ r.start = seqLc s k i then
        let s1 := markPages (markPages s k i r 21 false) k i r 22 false
        let s2 := setRecs (setLc s1 k i (r.start + r.count)) k i rest
        mergeReady k i n (releaseReaders s2 (recId (k * 256 + i) r.start))
      else s
    | [] => s

/-- Pages of entries wholly at or above a length cleared and handed back; they wait until the programs of the commands named have settled
(R235, R238). The number of pages. -/
def dropPages (s : State) (k i len : Nat) (owners : List Nat) : State × Nat :=
  let gone := (seqPages s k i).filter (fun e => decide (len ≤ e.1 % 4096 * 16))
  (gone.foldl (fun s e =>
    let s1 := setPte s k i (e.1 % 4096) 0#32
    s1.setCull k { s1.cull k with pages := sput PageSt.free (s1.cull k).pages (ptePage e.2) (.waiting owners) }) s, gone.length)

/-- R235: positions from `p0` on rolled back, with every record from there. `owners` are the commands whose programs must settle first. DESIGN CHOICE: a
record of which nothing is left is gone at once, a committed draft too (a resolve of 0 positions, R236). -/
def rollbackFrom (s : State) (k i p0 : Nat) (owners : List Nat) : State :=
  let d := dropPages (setLr s k i p0) k i p0 owners
  let s1 := setRecs d.1 k i (((seqRecs d.1 k i).filter (fun r => decide (r.start < p0))).map (fun r =>
    if p0 < r.start + r.count then { r with count := p0 - r.start } else r))
  syncPool (syncSeq (s1.bump (Reg.culletRolled k) d.2) k i) k

/-- The commands a rollback of positions from `p0` on cancels: the owners of the records from there but `key`, and the readers of what goes
(R235). -/
def rollVictims (s : State) (k i p0 key : Nat) : List Nat :=
  let owners := ((seqRecs s k i).filter (fun r => decide (p0 ≤ r.start))).map (·.owner)
  let h := k * 256 + i
  let readers := (s.bench.cmds.filter (fun c => c.reads.any (fun x => decide (x.1 / 2 ^ 17 = h) && decide (p0 < x.2)))).map Cmd.key
  ((owners ++ readers).filter (fun x => decide (x ≠ key))).eraseDups

/-- The first position a command holds on a sequence. -/
def firstHeld (s : State) (k i owner : Nat) : Option Nat :=
  ((seqRecs s k i).find? (fun r => decide (r.owner = owner) && decide (r.st ≠ .draft))).map (·.start)

/-- Everyone a rollback of a command's records takes with it. -/
def rollbackHits (s : State) (owner : Nat) : List Nat :=
  (withRecs s).flatMap (fun p => match firstHeld s p.1 p.2 owner with
    | some p0 => rollVictims s p.1 p.2 p0 owner
    | none => [])

/-- Whom a cancelled command takes with it (R395): DEP dependants with DEP_FAILED, readers of its positions and the owners of later records with
CANCELLED. -/
def closureNext (s : State) (key : Nat) : List (Nat × Nat) :=
  ((s.bench.cmds.filter (fun d => decide (d.depKey = some key) && decide (d.dep = some key))).map (fun d => (d.key, 0x010F))) ++
    ((s.bench.cmds.filter (fun d => d.follows.contains key)).map (fun d => (d.key, 0x0112))) ++
    (rollbackHits s key).map (fun k => (k, 0x0112))

/-- The closure of the commands in `todo`, found in at most so many rounds. -/
def closureOf : Nat → State → List Nat → List (Nat × Nat) → List (Nat × Nat)
  | 0, _, _, acc => acc
  | n + 1, s, todo, acc =>
    match todo with
    | [] => acc
    | k :: ks =>
      let new := (closureNext s k).filter (fun p => !acc.any (fun q => decide (q.1 = p.1)))
      let new' := new.foldl (fun l p => if l.any (fun q => decide (q.1 = p.1)) then l else l ++ [p]) []
      closureOf n s (ks ++ new'.map (·.1)) (acc ++ new')

/-- Every command that goes when the commands named go (R235 step 1, R395). -/
def allVictims (s : State) (keys : List Nat) : List Nat :=
  (closureOf (8192 + s.bench.cmds.length) s keys (keys.map (fun x => (x, 0)))).map (·.1)

/-- R235 for one command: its records on every sequence rolled back; the pages wait for the programs of every command that goes with it. -/
def rollbackCmd (s : State) (owner : Nat) : State :=
  let gone := allVictims s [owner]
  (withRecs s).foldl (fun s p =>
    match firstHeld s p.1 p.2 owner with
    | some p0 => rollbackFrom s p.1 p.2 p0 gone
    | none => s) s

/-- R217, R236: the owner commits: its records become ready or drafts, and a resolve it carries takes effect. -/
def commitRecords (s : State) (owner : Nat) : State :=
  (withRecs s).foldl (fun s p =>
    let rs := (seqRecs s p.1 p.2).map (fun r =>
      if r.resolvers.contains owner then { r with st := .ready, resolvers := [] }
      else if r.owner = owner ∧ r.st = .held then { r with st := if r.draft then .draft else .ready } else r)
    syncSeq (mergeReady p.1 p.2 9 (setRecs s p.1 p.2 rs)) p.1 p.2) s

/-- R236: whether a resolve is refused: NOT_DRAFT after the tests on the sequence. -/
def resolveCheck (s : State) (handle part a : Nat) : Option Nat :=
  let k := handle / 256
  let i := handle % 256
  match seqCheck s k i part with
  | some c => some c
  | none => match seqRecs s k i with
    | r :: _ => if r.st = .draft ∧ a ≤ r.count then none else some 0x080A
    | [] => some 0x080A

/-- R236 at the dispatch: the rejected part of the draft goes, and the accepted part waits for the resolver's commit. The commands that the
rollback cancels. -/
def resolveAt (s : State) (handle key a : Nat) : State × List Nat :=
  let k := handle / 256
  let i := handle % 256
  match seqRecs s k i with
  | r :: _ =>
    let p0 := r.start + a
    let hits := if p0 < seqLr s k i then rollVictims s k i p0 key else []
    let later := hits.filter (fun x => decide (x ≠ r.owner))
    let s1 := if p0 < seqLr s k i then rollbackFrom s k i p0 (allVictims s later) else s
    let s2 := setRecs s1 k i ((seqRecs s1 k i).map (fun q => if q.start = r.start then { q with resolvers := q.resolvers ++ [key] } else q))
    let own := recId handle r.start
    let s3 := mapCmd s2 key (fun c => { c with srcKv := c.srcKv.filter (fun x => decide (x ≠ own)) })
    (syncSeq s3 k i, later)
  | [] => (s, [])

/-- A resolver that does not commit leaves the accepted part in DRAFT (R236). -/
def unresolve (s : State) (key : Nat) : State :=
  (withRecs s).foldl (fun s p => setRecs s p.1 p.2 ((seqRecs s p.1 p.2).map (fun r =>
    { r with resolvers := r.resolvers.filter (fun x => decide (x ≠ key)) }))) s

/-! ## Bias tables (R226-R229) -/

/-- An entry of a bias table. -/
def biasEntry (s : State) (k t e : Nat) : Nat := (sget 0#16 (s.cull k).bias (2048 * t + e)).toNat

/-- The segment of a position (R227). -/
def segmentOf (s : State) (k i p : Nat) : Nat :=
  ((List.range 4).filter (fun j =>
    let b := s.regFld (Reg.culletSeqseg k i) (16 * j) 16
    decide (b ≠ 0) && decide (b ≤ p))).length

/-- R228: the FP32 bias of a query against a key. -/
def biasValue (s : State) (k i t q key : Nat) : Nat :=
  let d : Int := (q : Int) - (key : Int)
  let e := biasEntry s k t ((max (-1024) (min d 1023)) + 1024).toNat
  let masked := s.regBit (Reg.culletBtflags k) t && decide (segmentOf s k i key ≠ segmentOf s k i q)
  if e = 0xFF80 ∨ masked ∨ seqLr s k i ≤ key then 0xFF800000 else e * 65536

/-! ## GPAGE (R221-R228) -/

/-- Step 2 of R223: the descriptor's fields. -/
def pageFieldsOk (v : Nat) : Bool :=
  let d := pageOf v
  let lim := if d.mode = 2 then 128 else if d.mode = 3 then 512 else 65536
  decide (bitsOf v 13 3 = 0) && decide (bitsOf v 112 144 = 0) && decide (1 ≤ d.ntok) && decide (d.ntok ≤ lim) &&
    decide (d.pitch % 64 = 0) &&
    (if d.mode = 3 then decide (d.layer = 0) else decide (d.qpos0 = 0) && decide (d.nqm1 = 0))

/-- The issue checks of GPAGE (R223 steps 1 and 2). -/
def gpageChecks (c : Nat) (ph : Phys) (s : State) (w : Nat) : List TFault :=
  match descAt (takeEcc s c ph.sp) c (bitsOf w 71 18) with
  | .error _ => []
  | .ok v => whenF (!pageFieldsOk v) (.plain 0x020C)

/-- The natural pitch, the number of output rows and the bytes of each (R222). -/
def pageShape (g : Geometry) (d : PageD) : Nat × Nat × Nat :=
  match d.mode with
  | 2 => (128 * g.eltBytes, g.d, 128 * g.eltBytes)
  | 3 => ((4 * d.ntok + 63) / 64 * 64, d.nqm1 + 1, 4 * d.ntok)
  | _ => (g.rb, d.ntok, g.rb)

/-- The rows of keys from position `p` on, each read as ordinary transactions; rows at or above LR are zero (R224). -/
def pageRows (c k i : Nat) (e : MemEcc) (g : Geometry) (blk lr : Nat) : Nat → Nat → List (List Byte) → State → State × Except TFault (List (List Byte))
  | 0, _, acc, s => (s, .ok acc.reverse)
  | n + 1, p, acc, s =>
    if lr ≤ p ∨ !pteValid (pte s k i (p / 16)) then pageRows c k i e g blk lr n (p + 1) (List.replicate g.rb 0#8 :: acc) s
    else
      let a := poolAddr s k (ptePage (pte s k i (p / 16))) + blk * 16 * g.rb + p % 16 * g.rb
      let r := coreRead s (coreReq s c) e a g.rb
      match r.2 with
      | .error q => (r.1, .error (poisonFault q (readFailsAt s (coreReq s c) e a g.rb) a g.rb 0))
      | .ok bs => pageRows c k i e g blk lr n (p + 1) (bs :: acc) (r.1.bump (Reg.corePortrd c) g.rb)

/-- Output rows written to scratchpad at a pitch. -/
def storeRows (c spa pitch : Nat) : List (List Byte) → Nat → State → State × Option TFault
  | [], _, s => (s, none)
  | r :: rs, n, s =>
    match spStore s c (spa + n * pitch) r with
    | .error f => (s, some f)
    | .ok s1 => storeRows c spa pitch rs (n + 1) s1

/-- Mode 2: line `d` holds element d of every key, zero beyond NTOK (R222). -/
def transposed (g : Geometry) (rows : List (List Byte)) : List (List Byte) :=
  let w := g.eltBytes
  (List.range g.d).map (fun e =>
    let xs := (rows.map (fun r => sliceBytes r (e * w) w)).flatten
    xs ++ List.replicate (128 * w - xs.length) 0#8)

/-- A refusal of GPAGE's walk (R223): PAGE_WALK with the low byte of the manager's code. -/
def walkFault (code : Nat) : TFault := ⟨0x0212, 0, false, 0, code % 256⟩

/-- GPAGE's execution: steps 3 to 5 of R223, then the rows. DESIGN CHOICE: a GPAGE of more than 16 pages sends several walk requests (R225); its notices
are sent once for each record that the whole GPAGE covers, and CULLET_TAINT counts them so (R234). -/
def gpageEffect (c : Nat) (ph : Phys) (s0 : State) (w : Nat) : Effect :=
  let s := takeEcc s0 c ph.sp
  let spa := bitsOf w 48 23
  match descAt s c (bitsOf w 71 18) with
  | .error f => (s, .error f)
  | .ok v =>
    let d := pageOf v
    let k := d.seq / 256
    let i := d.seq % 256
    let g := geom s k i
    match seqCheck s k i (s.cmdPart c) with
    | some code => (refused s k, .error (walkFault code))
    | none =>
      if g.nkv ≤ d.head ∨ (d.mode ≠ 3 ∧ g.nl ≤ d.layer) then (refused s k, .error (walkFault 0x0804))
      else
        let sh := pageShape g d
        let pitch := if d.pitch = 0 then sh.1 else d.pitch
        if pitch < sh.1 then (s, .error (.plain 0x020C))
        else match firstFault (spCheck spa ((sh.2.1 - 1) * pitch + sh.2.2) 1) with
          | some f => (s, .error f)
          | none =>
            let lr := seqLr s k i
            if (!d.pad && decide (lr < d.pos0 + d.ntok)) || decide (65536 < d.pos0 + d.ntok) ||
                (decide (d.mode = 3) && decide (65536 < d.qpos0 + d.nqm1 + 1)) then (refused s k, .error (walkFault 0x0808))
            else
              let hi := min (d.pos0 + d.ntok) lr
              let s1 := notices (s.cmdOwner c) d.seq d.pos0 hi (s.bump (Reg.culletWalks k) (walkCount d.pos0 hi))
              let out : State × Except TFault (List (List Byte)) :=
                if d.mode = 3 then
                  (s1, .ok ((List.range (d.nqm1 + 1)).map (fun q => ((List.range d.ntok).map (fun j =>
                    leBytes 4 (biasValue s1 k i (g.tbase + d.head) (d.qpos0 + q) (d.pos0 + j)))).flatten)))
                else
                  let blk := (d.layer * 2 + d.mode % 2) * g.nkv + d.head
                  let r := pageRows c k i ph.mem g blk lr d.ntok d.pos0 [] s1
                  match r.2 with
                  | .error f => (r.1, .error f)
                  | .ok rows => (r.1, .ok (if d.mode = 2 then transposed g rows else rows))
              match out.2 with
              | .error f => (out.1, .error f)
              | .ok rows =>
                let z := storeRows c spa pitch rows 0 out.1
                match z.2 with
                | some f => (z.1, .error f)
                | none => (z.1, .ok (if d.mode = 3 then 0 else d.ntok * txnCount 0 g.rb))

/-- GPAGE (R170, R221-R228). -/
def execGpage (core : Fin 96) (ph : Phys) (s : State) : Out :=
  .next (issueIf s core.val 4 5 2 (gpageChecks core.val ph) (gpageEffect core.val ph))

end Sys2Proof.Machine
end

