-- ==== Sys2Proof/Machine/Frame.lean ====
section
/-! DEFINITION. The frame timer (R36-R42, R664, R665), locked registers (R579, R580), and device time adjustment. -/

namespace Sys2Proof.Machine

/-- R580: the region registers and DEV_SECARBt are locked from cold reset, every other lockable register from the
first commit, when DEV_CFGGEN first becomes nonzero. -/
def locked (s : State) (off : Nat) : Bool :=
  (decide (0x500000 ≤ off) && decide (off < 0x600000)) ||
  (decide (0x5058 ≤ off) && decide (off < 0x5078)) ||
  decide (s.regFld Reg.devCfggen 0 32 ≠ 0)

/-- R580: a direct write that would change a locked field is recorded. -/
def recordLocked (s : State) (who : Ident) (off : Nat) : State :=
  let s1 := s.bump Reg.devLockrefcnt 1
  let s2 := s1.setReg Reg.devLockrefaddr (setFld (setFld 0#64 0 28 off) 32 5 who.val)
  s2.logCfg 0x094E

/-- The first grid point phase + k × per (k any integer) at or after a time (R36). -/
def gridFrom (phase per m : Nat) : Nat := m + (((phase : Int) - (m : Int)) % (per : Int)).toNat

/-- The period in force (R664). -/
def State.frmper (s : State) : Nat := s.regFld Reg.devFrmper 0 32

/-- The phase in force (R664). -/
def State.frmphase (s : State) : Nat := s.regFld Reg.devFrmphase 0 64

/-- DEV_FRMCTL.EN. -/
def State.frmEn (s : State) : Bool := s.regBit Reg.devFrmctl 0

/-- R41: no boundary can occur: EN is 0 and none remains after a clear. -/
def State.timerStopped (s : State) : Bool := !s.frmEn && s.frame.nextBoundary.isNone

/-- A new grid waits for the next boundary. Only Lehr A moves to it: Lehr B generates boundaries with the last period in force (R448). -/
def gridPending (s : State) : Bool := s.lehrB.lehrARuns && (s.frame.pendPeriod.isSome || s.frame.pendPhase.isSome)

/-- DEV_FRMCTL.PEND follows the pending values. -/
def State.syncPend (s : State) : State :=
  s.setRegBit Reg.devFrmctl 3 (s.frame.pendPeriod.isSome || s.frame.pendPhase.isSome)

/-- R37: EN becomes 1. The first boundary is the first grid point strictly after the write; a boundary that a clear still lets occur
stands, and the pending stop is cancelled. There is none once device time has been lost (R449). -/
def enableTimer (s : State) : State :=
  let s1 := s.setRegBit Reg.devFrmctl 0 true
  match s1.frame.nextBoundary with
  | some _ => s1
  | none =>
    if s1.lehrA.alone then s1
    else { s1 with frame := { s1.frame with nextBoundary := some (gridFrom s1.frmphase s1.frmper (s1.now + 1)) } }

/-- R42: EN becomes 0; the next boundary still occurs. -/
def disableTimer (s : State) : State := s.setRegBit Reg.devFrmctl 0 false

/-- R40: a write of a period out of range is reported, whether or not the register is locked. -/
def badPeriod (s : State) (v : Nat) : State := if v < 10000000 ∨ 100000000 < v then s.setRegBit Reg.devFrmctl 1 true else s

/-- R39-R41: a period written with its range check; at once when the timer is stopped, otherwise pending. -/
def writePeriod (s : State) (v : Nat) : State :=
  if v < 10000000 ∨ 100000000 < v then s.setRegBit Reg.devFrmctl 1 true
  else if s.timerStopped then
    ({ (s.setReg Reg.devFrmper (BitVec.ofNat 64 v)) with frame := { s.frame with pendPeriod := none } }).syncPend
  else ({ s with frame := { s.frame with pendPeriod := some v } }).syncPend

/-- R39, R41: a phase written; at once when the timer is stopped, otherwise pending. -/
def writePhase (s : State) (v : Nat) : State :=
  if s.timerStopped then
    ({ (s.setReg Reg.devFrmphase (BitVec.ofNat 64 v)) with frame := { s.frame with pendPhase := none } }).syncPend
  else ({ s with frame := { s.frame with pendPhase := some v } }).syncPend

/-- R38 step 3: pending period and phase take effect. -/
def applyPending (s : State) : State :=
  let s1 := match s.frame.pendPeriod with
    | some v => s.setReg Reg.devFrmper (BitVec.ofNat 64 v)
    | none => s
  let s2 := match s.frame.pendPhase with
    | some v => s1.setReg Reg.devFrmphase (BitVec.ofNat 64 v)
    | none => s1
  ({ s2 with frame := { s2.frame with pendPeriod := none, pendPhase := none } }).syncPend

/-- R38 steps 1 to 3 at the boundary B, and the boundary after it: on a new grid the first point at least 10 ms after B
(R39), on the grid in force the next point, and none once EN is 0 (R42). The boundaries of the latest 2^32 ns stay known. -/
def timerBoundary (s : State) (b : Nat) : State :=
  let changed := gridPending s
  let s0 := s.at b
  let s1 := s0.setReg Reg.devFrmcnt (BitVec.ofNat 64 ((s0.frmcnt + 1) % 2 ^ 32))
  let s2 := s1.setReg Reg.devFrmstart (BitVec.ofNat 64 b)
  let s3 := if changed then applyPending s2 else s2
  let next := if s3.frmEn then
      some (if changed then gridFrom s3.frmphase s3.frmper (b + 10000000) else gridFrom s3.frmphase s3.frmper (b + 1))
    else none
  { s3 with frame := { s3.frame with
    nextBoundary := next, latest := some b
    past := (s3.frame.latest.toList ++ s3.frame.past).filter (fun x => decide (b < x + 2 ^ 32)) } }

/-- FRAME_TIMER_ENABLE (R37, R664, R580). -/
def execFrameTimerEnable (who : Ident) (t : Nat) (s : State) : Out :=
  let s := s.at t
  if !mgmt who then .next s
  else if locked s Reg.devFrmctl then .next (if s.frmEn then s else recordLocked s who Reg.devFrmctl)
  else .next (enableTimer s)

/-- FRAME_TIMER_DISABLE (R42, R664, R580). -/
def execFrameTimerDisable (who : Ident) (s : State) : Out :=
  if !mgmt who then .next s
  else if locked s Reg.devFrmctl then .next (if s.frmEn then recordLocked s who Reg.devFrmctl else s)
  else .next (disableTimer s)

/-- FRMPER_WRITE (R39-R41, R664, R580). -/
def execFrmperWrite (who : Ident) (v : BitVec 32) (s : State) : Out :=
  if !mgmt who then .next s
  else if locked s Reg.devFrmper then .next (if s.frmper = v.toNat then s else badPeriod (recordLocked s who Reg.devFrmper) v.toNat)
  else .next (writePeriod s v.toNat)

/-- FRMPHASE_WRITE (R39, R41, R664, R580). -/
def execFrmphaseWrite (who : Ident) (v : BitVec 64) (s : State) : Out :=
  if !mgmt who then .next s
  else if locked s Reg.devFrmphase then .next (if s.frmphase = v.toNat then s else recordLocked s who Reg.devFrmphase)
  else .next (writePhase s v.toNat)

/-- FRMCNT_WRITE (R40, R664): accepted only while the timer is stopped, otherwise BADCNT is set. -/
def execFrmcntWrite (who : Ident) (v : BitVec 32) (s : State) : Out :=
  if !mgmt who then .next s
  else if s.timerStopped then .next (s.setReg Reg.devFrmcnt (BitVec.ofNat 64 v.toNat))
  else .next (s.setRegBit Reg.devFrmctl 2 true)

end Sys2Proof.Machine
end

