-- ==== Sys2Proof/Machine/Deadline.lean ====
section
/-! DEFINITION. Predicted boundaries and absolute deadlines (R388, R665), and the deadline words that requests and their responses carry
(R514, R515). -/

namespace Sys2Proof.Machine

/-! ## Predicted boundaries and deadlines (R665, R388) -/

/-- The predicted time of the boundary that begins a frame; none while no boundary is scheduled for it (R665). -/
def predictBoundary (s : State) (f : Nat) : Option Nat :=
  let d := countDiff f s.frmcnt
  match s.frame.nextBoundary with
  | none => none
  | some b =>
    if d = 0 then some (s.regFld Reg.devFrmstart 0 64)
    else if d = 1 then some b
    else if !s.frmEn then none
    else
      let changed := gridPending s
      let per := if changed then s.frame.pendPeriod.getD s.frmper else s.frmper
      let ph := if changed then s.frame.pendPhase.getD s.frmphase else s.frmphase
      some ((if changed then gridFrom ph per (b + 10000000) else gridFrom ph per (b + 1)) + (d - 2) * per)

/-- The absolute deadline of a command (R388, R665). -/
def deadlineOf (s : State) (c : Cmd) : Option Nat :=
  if c.frameb ∧ c.deadline ≠ 0 then
    match c.began with
    | some b => some (b + c.deadline)
    | none => (predictBoundary s c.frame).map (· + c.deadline)
  else none

/-- The key of a deadline in an order where a command without one comes last. -/
def lateKey : Option Nat → Nat
  | some d => d
  | none => 2 ^ 80

/-! ## Deadline words (R514, R515) -/

/-- The deadline word of a device time (R514): its bits [40:10] with VALID, clamped to 2^30 - 1 units after the present; 0 for none. -/
def dlWord (now : Nat) : Option Nat → BitVec 32
  | none => 0#32
  | some d => BitVec.ofNat 32 (min d (now + (2 ^ 30 - 1) * 1024) / 1024 % 2 ^ 31 + 2 ^ 31)

/-- Whether a deadline word comes before another (R514): by the distance modulo 2^31, and one without a deadline after every other. -/
def dlBefore (a b : BitVec 32) : Bool :=
  if a.toNat < 2 ^ 31 then false
  else if b.toNat < 2 ^ 31 then true
  else
    let d := (b.toNat + 2 ^ 31 - a.toNat) % 2 ^ 31
    decide (1 ≤ d) && decide (d < 2 ^ 30)

/-- The deadline a source gives its requests (R515): a core's engines and the host die for a command that command's, Marver MARVDL after the
issue, Lehr A, Lehr B and the crucibles' own agents the time of issue, and the host die for itself none. -/
def sourceDeadline (s : State) (node : Nat) (owner : Option Nat) : Option Nat :=
  let ofCmd : Option Nat := ((owner.map ownerOf).bind s.cmd).bind (deadlineOf s)
  if node < 0x60 ∨ node = 0x64 then ofCmd
  else if node = 0x65 then some (s.now + s.regFld Reg.devRegctl 8 16 * 1000)
  else some s.now

/-- The deadline word of a request (R514, R515); its response carries the same. -/
def sourceDl (s : State) (node : Nat) (owner : Option Nat) : BitVec 32 := dlWord s.now (sourceDeadline s node owner)

end Sys2Proof.Machine
end

