-- ==== Sys2Proof/Machine/CulletPort.lean ====
section
/-! DEFINITION. The cullet managers' packets and operation port (R212, R214, R218, R225, R229, R235, R238), and the notices of Bench (R199,
R395). -/

namespace Sys2Proof.Machine

/-! ## Walks (R225) -/

/-- The answer of a manager to a walk for positions `lo` to `hi - 1` by a command: the entries of the logical pages it covers, or the
code that refuses it. -/
def walkAt (s : State) (handle part reader lo n : Nat) (pad : Bool) : State × Except Nat (List Byte) :=
  let k := handle / 256
  let i := handle % 256
  match seqCheck s k i part with
  | some c => (refused s k, .error c)
  | none =>
    if (!pad && decide (seqLr s k i < lo + n)) || decide (65536 < lo + n) then (refused s k, .error 0x0808)
    else
      let hi := min (lo + n) (seqLr s k i)
      let s1 := notices reader handle lo hi (s.bump (Reg.culletWalks k) (walkCount lo hi))
      let pages := if hi ≤ lo then [] else (List.range ((hi - 1) / 16 - lo / 16 + 1)).map (lo / 16 + ·)
      (s1, .ok ((pages.map (fun p => leBytes 4 (pte s1 k i p).toNat)).flatten))

/-- What a walk of a core to a manager depends on: a packet without an address goes by the lower-numbered candidate where it passes diagonally (R460), and
never through a crucible in reset (R461); none without a usable route. -/
def walkPath (s : State) (c k : Nat) : Option (List Target) :=
  if crucDown s (c / 24) || crucDown s k then none
  else (routeOf s (c / 24) k 0).map (fun l => .crucible (Fin.ofNat 4 (c / 24)) :: .crucible (Fin.ofNat 4 k) :: routeTargets l)

/-- The answer that a core's walk draws, whether it is poisoned, and its data: a walk without a path, or one that a fence bars, is completed poisoned
(R461, R466), and a refusal is a poisoned answer that brings its code. -/
def walkAnswer (s : State) (c handle pos npos : Nat) (pad : Bool) : State × Bool × List Byte :=
  match walkPath s c (handle / 256) with
  | none => (poisonAt s (c / 24), true, [])
  | some l =>
    if l.any (fun t => s.fab.fences.contains t) || idleAsked s (.crucible (Fin.ofNat 4 (handle / 256))) then (poisonAt s (c / 24), true, [])
    else
      let r := walkAt s handle (s.cmdPart c) (s.cmdOwner c) pos npos pad
      match r.2 with
      | .ok bs => (r.1, false, bs)
      | .error code => (r.1, true, leBytes 2 code)

/-- WALK (R225, R223 step 5, R234, R460): a request reaches the owning manager; its answer waits in the tracker. -/
def execWalk (core : Fin 96) (tag : BitVec 12) (handle : BitVec 10) (pos : BitVec 16) (npos : BitVec 9) (pad : Bool) (s : State) : Out :=
  let c := core.val
  if !trackRoom s (c / 24) c 0 tag.toNat || portPauses s c then .next s
  else
    let r := walkAnswer s c handle.toNat pos.toNat npos.toNat pad
    let ts := (walkPath s c (handle.toNat / 256)).getD [.crucible (Fin.ofNat 4 (c / 24))]
    .next (pushTrack r.1 ⟨c, tag.toNat, c / 24, ts, 3, s.cmdClass c, r.2.1, r.2.2, false, false, sourceDl s c (some (s.cmdOwner c)), s.cmdPart c, 0, 0⟩)

/-- WALKRSP (R225, R466): the answer returns to the gather engine; one for a fenced entry is dropped, counted and logged. -/
def execWalkrsp (core : Fin 96) (tag : BitVec 12) (s : State) : Out :=
  .next (answer s core.val tag.toNat)

/-! ## Pages (R214, R218, R235) -/

/-- Whether the programs of a command have settled: no core holds one any more (R118, R235). -/
def settled (s : State) (owner : Nat) : Bool :=
  allCores.all (fun c => !(s.cmdValid c && decide (s.cmdOwner c = owner)))

/-- PAGE_RETURN (R235 step 4, R214): pages handed back go to the scrub once the programs they wait for have settled. -/
def execPageReturn (cruc : Fin 4) (s : State) : Out :=
  let k := cruc.val
  let ps := (s.cull k).pages.map (fun p => match p.2 with
    | .waiting os => if os.all (settled s) then (p.1, PageSt.scrub) else p
    | _ => p)
  .next (syncPool (s.setCull k { s.cull k with pages := ps }) k)

/-- A pool page scrubbed: zeros written by the manager's own class B writes (R214). -/
def scrubPage (s : State) (k page : Nat) : State × Option Poison :=
  devWrite s ⟨0x60 + k, 20, false, 2, none⟩ .clean (poolAddr s k page) (List.replicate (poolPageSize s k) 0#8)

/-- POOL_PAGE_SCRUBBED (R214): a page awaiting scrub is written to zero and is free; a page that the writes do not reach goes on waiting. -/
def execPoolPageScrubbed (cruc : Fin 4) (page : BitVec 20) (s : State) : Out :=
  let k := cruc.val
  if sget PageSt.free (s.cull k).pages page.toNat = .scrub ∧ !mapHolds s then
    let r := scrubPage s k page.toNat
    match r.2 with
    | some _ => .next r.1
    | none => .next (syncPool (r.1.setCull k { r.1.cull k with pages := sdel (r.1.cull k).pages page.toNat }) k)
  else .next s

/-- PAGE_TABLE_UNCORRECTABLE (R218). DESIGN CHOICE: R243 gives 0x080D for an uncorrectable owner-table error as well, but no rule gives such an error an
event or an effect; the model has none. -/
def execPageTableUncorrectable (cruc : Fin 4) (sq : Fin 256) (s : State) : Out :=
  let k := cruc.val
  if seqLive s k sq.val then
    let s1 := (s.setRegBit (Reg.culletSeqcfg k sq.val) 1 true).setRegBit (Reg.culletStatus k) 10 true
    .next (s1.raise 0x080D k)
  else .next s

/-! ## The operation port (R238) -/

/-- CREATE (R209, R211, R238). -/
def opCreate (s : State) (k part : Nat) : State × Nat × Nat :=
  let arg := s.reg (Reg.culletOparg k)
  let g := geometryOf arg
  match (List.range 256).find? (fun i => !seqLive s k i) with
  | none => (s, 0x0803, 0)
  | some i =>
    if !g.ok ∨ poolPageSize s k < g.pageBytes then (s, 0x0804, 0)
    else
      let w := setFld (setFld (setBit 0#64 0 true) 4 4 part) 8 28 (fld arg 8 28)
      let s1 := (s.setReg (Reg.culletSeqcfg k i) w).setReg (Reg.culletSeqlen k i) 0#64
      (syncPool (syncSeq (s1.setReg (Reg.culletSeqseg k i) 0#64) k i) k, 0, k * 256 + i)

/-- A sequence ceases to live: its pages are queued for return, and a record that it still holds goes (R238, R242). -/
def freeSeq (s : State) (k i : Nat) : State :=
  let s1 := (dropPages (setRecs s k i []) k i 0 []).1
  let s2 := (s1.setReg (Reg.culletSeqcfg k i) 0#64).setReg (Reg.culletSeqlen k i) 0#64
  syncPool (syncSeq (s2.setReg (Reg.culletSeqseg k i) 0#64) k i) k

/-- FREE (R238). -/
def opFree (s : State) (k i part : Nat) : State × Nat :=
  if !seqLive s k i then (s, 0x0801)
  else if seqPart s k i ≠ part then (s, 0x0802)
  else if seqRecs s k i ≠ [] then (s, 0x0809)
  else (freeSeq s k i, 0)

/-- TRUNCATE (R238). -/
def opTruncate (s : State) (k i part arg : Nat) : State × Nat :=
  match seqCheck s k i part with
  | some c => (s, c)
  | none =>
    if seqRecs s k i ≠ [] then (s, 0x0809)
    else if seqLc s k i < arg then (s, 0x0808)
    else
      let s1 := (dropPages s k i arg []).1
      (syncPool (syncSeq (setLr (setLc s1 k i arg) k i arg) k i) k, 0)

/-- R227: used boundaries first, strictly ascending, then zeros. -/
def segsOk : Nat → List Nat → Bool
  | _, [] => true
  | p, b :: bs => if b = 0 then bs.all (· = 0) else decide (p < b) && segsOk b bs

/-- SETSEG (R227, R238). -/
def opSetseg (s : State) (k i part : Nat) : State × Nat :=
  match seqCheck s k i part with
  | some c => (s, c)
  | none =>
    let v := s.reg (Reg.culletOparg k)
    if seqRecs s k i ≠ [] then (s, 0x0809)
    else if !segsOk 0 ((List.range 4).map (fun j => fld v (16 * j) 16)) then (s, 0x0804)
    else (s.setReg (Reg.culletSeqseg k i) v, 0)

/-- A BF16 value that a bias table may not hold: plus infinity or a NaN (R229). -/
def badBias (e : Nat) : Bool := decide (bitsOf e 7 8 = 255) && decide (e ≠ 0xFF80)

/-- LOADBIAS (R229, R238): tests, then one read by the manager; a refused load leaves the old table. -/
def opLoadbias (s : State) (k arg : Nat) (ecc : MemEcc) : State × Nat :=
  let t := bitsOf arg 0 6
  let a := s.regFld (Reg.culletOparg k) 0 48
  let busy := (List.range 256).any (fun i => seqLive s k i &&
    decide ((geom s k i).tbase ≤ t) && decide (t < (geom s k i).tbase + (geom s k i).nkv))
  if busy then (s, 0x080B)
  else if a % 64 ≠ 0 ∨ 0x2000000000 < a + 4096 then (s, 0x0808)
  else
    let r := devRead s ⟨0x60 + k, 20, false, 2, none⟩ ecc a 4096
    match r.2 with
    | .error (.mem c) => (r.1, c)
    | .error _ => (r.1, 0x0405)
    | .ok bs =>
      let es := (List.range 2048).map (fun j => leAt bs (2 * j) 2)
      if es.any badBias then (r.1, 0x080C)
      else
        let b := (es.zipIdx).foldl (fun m e => sput 0#16 m (2048 * t + e.2) (BitVec.ofNat 16 e.1)) (r.1.cull k).bias
        ((r.1.setCull k { r.1.cull k with bias := b }).setRegBit (Reg.culletBtflags k) t (decide (bitsOf arg 8 1 = 1)), 0)

/-- CODE and RESULT of CULLET_OPSTAT (R240). -/
def opCode (s : State) (k code result : Nat) : State :=
  s.setReg (Reg.culletOpstat k) (setFld (setFld 0#64 0 16 code) 32 32 (if code = 0 then result else 0))

/-- CULLET_OPSTAT of an operation; a refusal is counted. -/
def opDone (s : State) (k code result : Nat) : State := opCode (if code = 0 then s else refused s k) k code result

/-- CULLET_OPSTAT.BUSY: an operation of the port is in progress (R238, R240). -/
def opBusy (s : State) (k : Nat) : Bool := decide (s.now < (s.cull k).busyUntil)

/-- A write of the port while BUSY is 1: no effect, CFGREF set (R238). -/
def portRefused (s : State) (k : Nat) : State := s.setRegBit (Reg.culletStatus k) 9 true

/-- The operation started on a port is in progress for a time of the manager's own, at most R238's bound. DESIGN CHOICE: its effect is made, and its code
shown, as it starts. -/
def portBusy (s : State) (k bound : Nat) : State :=
  s.setCull k { s.cull k with busyUntil := s.now + min (Config.portTime k s.now) bound }

/-- A write of CULLET_OPCMD: only Gaffer firmware writes the port, and a busy port refuses it (R238). -/
def onPort (who : Ident) (k : Nat) (s op : State) (bound : Nat) : Out :=
  if who.val ≠ 16 then .next s
  else if opBusy s k then .next (portRefused s k)
  else .next (portBusy op k bound)

/-- CREATE (R238). -/
def execCreateSeq (who : Ident) (cruc : Fin 4) (part : Fin 16) (s : State) : Out :=
  let r := opCreate s cruc.val part.val
  onPort who cruc.val s (opDone r.1 cruc.val r.2.1 r.2.2) 2000

/-- FREE (R238). -/
def execFreeSeq (who : Ident) (cruc : Fin 4) (part : Fin 16) (sq : Fin 256) (s : State) : Out :=
  let r := opFree s cruc.val sq.val part.val
  onPort who cruc.val s (opDone r.1 cruc.val r.2 0) (1000 + 2 * (seqPages s cruc.val sq.val).length)

/-- TRUNCATE (R238). -/
def execTruncateSeq (who : Ident) (cruc : Fin 4) (part : Fin 16) (sq : Fin 256) (arg : BitVec 32) (s : State) : Out :=
  let r := opTruncate s cruc.val sq.val part.val arg.toNat
  onPort who cruc.val s (opDone r.1 cruc.val r.2 0) (1000 + 2 * (seqPages s cruc.val sq.val).length)

/-- SETSEG (R238). -/
def execSetseg (who : Ident) (cruc : Fin 4) (part : Fin 16) (sq : Fin 256) (s : State) : Out :=
  let r := opSetseg s cruc.val sq.val part.val
  onPort who cruc.val s (opDone r.1 cruc.val r.2 0) 1000

/-- LOADBIAS (R229, R238): a table belongs to the manager, so the partition is not tested. -/
def execLoadbias (who : Ident) (cruc : Fin 4) (_part : Fin 16) (arg : BitVec 32) (ecc : MemEcc) (s : State) : Out :=
  let r := opLoadbias s cruc.val arg.toNat ecc
  onPort who cruc.val s (opDone r.1 cruc.val r.2 0) 10000

/-- Whether the pool two register values describe is allowed (R212, R240). DESIGN CHOICE: a base beyond DRAM is refused for a pool of no pages too. -/
def poolOk (base cfg : Nat) : Bool :=
  let n := bitsOf cfg 0 21
  let u := bitsOf cfg 24 9
  decide (n ≤ 1048576) && (decide (n = 0) || (decide (1 ≤ u) && decide (u ≤ 256))) &&
    decide (bitsOf base 12 36 * 4096 + n * u * 4096 ≤ 0x2000000000)

/-- The pages that are still to be scrubbed, or wait for programs to settle. -/
def unscrubbed (s : State) (k : Nat) : List Nat :=
  ((s.cull k).pages.filter (fun p => match p.2 with
    | .waiting _ | .scrub => true
    | _ => false)).map (·.1)

/-- Pages of a pool scrubbed one after another; the addresses of those whose scrub a channel refused are collected (R214). -/
def scrubPages (k : Nat) : List Nat → State → State × List Nat
  | [], s => (s, [])
  | p :: ps, s =>
    let r := scrubPage s k p
    let z := scrubPages k ps r.1
    (z.1, if r.2.isSome then poolAddr s k p :: z.2 else z.2)

/-- The pages of a new pool that hold bytes of old pages of `size` bytes whose scrub failed: they still wait for their scrub, and none of them is free
(R214). -/
def leftPages (s : State) (k size : Nat) (old : List Nat) : List (Nat × PageSt) :=
  let base := poolAddr s k 0
  let n := poolPageSize s k
  let hit (a p : Nat) : Bool := decide (p < poolPages s k) && decide (base + p * n < a + size) && decide (a < base + p * n + n)
  (old.flatMap (fun a => ((List.range (size / n + 2)).map ((a - base) / n + ·)).filter (hit a))).foldl
    (fun l p => sput PageSt.free l p .scrub) []

/-- A pool register written (R212): with a live sequence, or a pool partly outside DRAM, the write has no effect and sets CFGREF. A refusal that Gaffer
firmware asked for shows in CULLET_OPSTAT (R243). DESIGN CHOICE: pages of the old pool that are not scrubbed yet are scrubbed with the write, so that no
page drawn from the new pool shows their data (R214). -/
def writePool (s : State) (k : Nat) (cfg gaffer : Bool) (new : Word) : State :=
  let live := (List.range 256).any (fun i => seqLive s k i)
  let ok := if cfg then poolOk (s.reg (Reg.culletPoolbase k)).toNat new.toNat
    else poolOk new.toNat (s.reg (Reg.culletPoolcfg k)).toNat
  if live || !ok then
    let s1 := s.setRegBit (Reg.culletStatus k) 9 true
    if gaffer then opCode s1 k 0x080F 0 else s1
  else
    let z := scrubPages k (unscrubbed s k) s
    let s1 := z.1.setReg (if cfg then Reg.culletPoolcfg k else Reg.culletPoolbase k) new
    syncPool (s1.setCull k { s1.cull k with pages := leftPages s1 k (poolPageSize s k) z.2 }) k

/-- The fields of CULLET_POOLCFG or CULLET_POOLBASE in a value written. -/
def poolFields (cfg : Bool) (v : Nat) : Word :=
  if cfg then setFld (setFld 0#64 0 21 (bitsOf v 0 21)) 24 9 (bitsOf v 24 9) else setFld 0#64 12 36 (bitsOf v 12 36)

/-- POOL_CONFIG_WRITE (R212, R239, R580): a write of CULLET_POOLBASE or, with `cfg`, of CULLET_POOLCFG. -/
def execPoolConfigWrite (who : Ident) (cruc : Fin 4) (cfg : Bool) (v : BitVec 64) (s : State) : Out :=
  let k := cruc.val
  let off := if cfg then Reg.culletPoolcfg k else Reg.culletPoolbase k
  let new := poolFields cfg v.toNat
  if !mgmt who then .next s
  else if locked s off then .next (if new = s.reg off then s else recordLocked s who off)
  else .next (writePool s k cfg (decide (who.val = 16)) new)

/-! ## Notices of Bench (R199, R235, R395) -/

/-- R199: the record of an owner on a core commits: C := C - D + P for every carried counter, and the record is freed. -/
def commitRecord (s : State) (c owner : Nat) : State :=
  let x := s.core c
  match x.records.find? (fun r => decide (r.owner = owner)) with
  | none => s
  | some r =>
    let cs := (List.range 128).foldl (fun m j =>
      let n := 1920 + j
      sput 0 m n (sget 0 m n - sget 0 r.d n + sget 0 r.p n)) x.carried
    syncTpstat (syncBind (syncAllV (s.setCore c { x with carried := cs, records := x.records.filter (fun q => decide (q.owner ≠ owner)) }) c) c) c

/-- R199: the record of an owner on a core is discarded, its waits undone and its signals dropped. -/
def discardRecord (s : State) (c owner : Nat) : State :=
  let x := s.core c
  if x.records.any (fun r => decide (r.owner = owner)) then
    syncTpstat (syncAllV (s.setCore c { x with records := x.records.filter (fun q => decide (q.owner ≠ owner)) }) c) c
  else s

/-- Signals of carried counters that waited for a record are raised once there is room (R196). -/
def retrySignals (s : State) (c : Nat) : State :=
  if running s c then syncTpstat ((List.range 5).foldl (fun s k => flush s c k) s) c else s

/-- COMMIT_NOTICE (R199). -/
def execCommitNotice (core : Fin 96) (part : Fin 16) (seq : BitVec 32) (s : State) : Out :=
  .next (retrySignals (commitRecord s core.val (cmdKey part.val seq.toNat)) core.val)

/-- DISCARD_NOTICE (R199). -/
def execDiscardNotice (core : Fin 96) (part : Fin 16) (seq : BitVec 32) (s : State) : Out :=
  .next (retrySignals (discardRecord s core.val (cmdKey part.val seq.toNat)) core.val)

/-- R235: the manager rolls back a command's records, and Bench cancels the owners and readers that go with them. -/
def rollbackNow (s : State) (key : Nat) : State :=
  let hits := rollbackHits s key
  unresolve (rollbackCmd (hits.foldl (fun s k => markCancel k 0x0112 s) s) key) key

/-- ROLLBACK (R235). -/
def execRollback (part : Fin 16) (seq : BitVec 32) (s : State) : Out :=
  .next (rollbackNow s (cmdKey part.val seq.toNat))

/-- CANCELLATION_NOTICE (R395): crucibles and managers discard a command's staged lines and records. -/
def execCancellationNotice (part : Fin 16) (seq : BitVec 32) (s : State) : Out :=
  let key := cmdKey part.val seq.toNat
  .next (rollbackNow (dropStaged s key) key)

end Sys2Proof.Machine
end

