-- ==== Sys2Proof/Machine/FrameView.lean ====
section
/-! DEFINITION. Lehr A's view of a frame (R422-R424): the frame set and what the view holds of a frame. -/

namespace Sys2Proof.Machine

/-- What Lehr A knows of a frame it has heard nothing of. -/
def FrameSel.new (f : Nat) : FrameSel := ⟨f, [], none, none, false, false, false, false, none⟩

/-- Lehr A's view of a frame. -/
def State.frameSel (s : State) (f : Nat) : FrameSel :=
  (s.lehrA.frames.find? (fun x => decide (x.frame = f))).getD (FrameSel.new f)

/-- A frame's view replaced; views of long past frames are dropped. -/
def setFrameSel (s : State) (x : FrameSel) : State :=
  let fs := s.lehrA.frames
  let fs' := if fs.any (fun y => decide (y.frame = x.frame)) then fs.map (fun y => if y.frame = x.frame then x else y)
    else (fs ++ [x]).drop (fs.length - 127)
  { s with lehrA := { s.lehrA with frames := fs' } }

/-- LEHRA_SELCFG.PART. -/
def State.selPart (s : State) : Nat := s.regFld Reg.lehraSelcfg 0 4

/-- Whether a command belongs to a frame set (R422): class S, of the driving partition, with FRAMEB = 1. DEDUCED: a FRAME_RESULT, which waits for
the very selection that the set decides (R348), is not of the set. -/
def inFrameSet (s : State) (c : Cmd) : Bool := decide (c.cls = 0) && c.frameb && decide (c.part = s.selPart) && decide (c.op ≠ 0x40)

/-- A frame-set main run was debugged (R416). -/
def memberDebugged (s : State) (f : Nat) : State := setFrameSel s { s.frameSel f with debug := true }

/-- A debug write was logged on a core (R416): the frame of the frame-set command that runs there is marked. -/
def noteDebug (s : State) (c : Nat) : State :=
  match runOn s c with
  | some (d, r) => if inFrameSet s d ∧ r.kind = .main then memberDebugged s d.frame else s
  | none => s

end Sys2Proof.Machine
end

