-- ==== Sys2Proof/Machine/CoreCtl.lean ====
section
/-! DEFINITION. What happens to a core between and around its programs: restart and release (R117, R663), partition clear (R110), the
end of a program, checkpoints (R171-R175), debug halt and the core window (R100, R123, R186, R206, R415), and its sequencer's
fetches and completions (R134, R141, R194). -/

namespace Sys2Proof.Machine

/-! ## Restart and release -/

/-- Whether a device reset has not come to the step that releases the compute dies: step 9 of R563, step 5 of R571. -/
def diesHeld (s : State) : Bool :=
  let x := s.reg Reg.resetStat
  (bitAt x 1 && decide (fld x 3 4 < 9)) || (bitAt x 2 && decide (fld x 3 4 < 5))

/-- Whether a block whose reset line a core sits under is still held: its own, its die's, its crucible's, or the device's. -/
def heldInReset (s : State) (c : Nat) : Bool :=
  diesHeld s || s.rst.blocks.any (fun x => decide (x.phase ≠ .release) && covers (blockDomain x.blk) (1, c))

/-- CORE_RESET_RELEASE (R117, R129): Lehr A's reset controller releases the core's reset; the map it wrote is applied in REPAIR. -/
def execCoreResetRelease (core : Fin 96) (s : State) : Out :=
  let c := core.val
  if s.coreSt c ≠ .reset ∨ heldInReset s c then .next s
  else .next ((s.setReg (Reg.coreColmap c) (colmapWord (s.failedCols c))).setCoreSt c .repair)

/-- The spare columns a list of failed columns takes up (R114, R129). DESIGN CHOICE: the spec names no position for the spares, so CORE_REPSTAT.USED counts
every failed column that is listed, up to 4, a column that would itself have been an idle spare (column 131) among them. -/
def sparesUsed (cols : List Nat) : Nat := min 4 cols.length

/-- The physical columns CORE_COLMAP does not list, in ascending order (R114). -/
def goodColumns (s : State) (c : Nat) : List Nat :=
  let w := s.reg (Reg.coreColmap c)
  (List.range 132).filter (fun p => !((List.range 4).any (fun k => decide (fld w (8 * k) 8 = p))))

/-- The physical column that serves logical column `j` (R114). -/
def colMap (s : State) (c j : Nat) : Nat := (goodColumns s c).getD j 0

/-- The physical columns that are power-gated: those no logical column uses (R114). -/
def gatedColumns (s : State) (c : Nat) : List Nat :=
  (List.range 132).filter (fun p => !((List.range 128).any (fun j => decide (colMap s c j = p))))

/-- REPAIR_DONE (R115-R117): more than four failed columns disable the core. -/
def execRepairDone (core : Fin 96) (s : State) : Out :=
  let c := core.val
  if s.coreSt c ≠ .repair then .next s
  else
    let cols := s.failedCols c
    let s1 := (s.setRegFld (Reg.coreRepstat c) 0 3 (sparesUsed cols)).setRegBit (Reg.coreRepstat c) 4 false
    if 4 < cols.length then
      let s2 := (((s1.setRegBit (Reg.coreRepstat c) 3 true).setRegFld (Reg.coreSteprate c) 0 31 0).setCoreSt c .disabled).setSclass c false
      .next (releaseDomains (s2.raise 0 c))
    else .next (s1.setCoreSt c .selftest)

/-- SELFTEST_DONE (R117, R640): the full pass from index 0 ends; `fail` is the index of the pattern that failed. -/
def execSelftestDone (core : Fin 96) (fail : Option (BitVec 10)) (t : Nat) (s : State) : Out :=
  let s := s.at t
  let c := core.val
  if s.coreSt c ≠ .selftest then .next s
  else match fail with
    | none => .next (passDone ((s.setRegFld (Reg.thermRh c) 0 10 0).setCoreSt c .held) c)
    | some p => .next (patternFail (s.setRegFld (Reg.thermRh c) 0 10 p.toNat) c)

/-- R414: whether a core that leaves HELD may take class S work. -/
def sEligible (s : State) (c : Nat) : Bool :=
  s.regBit Reg.lehraStat 1 && !s.regBit (Reg.lehraCorestat c) 8 && decide (s.unitState c ≠ 3) &&
    !s.regBit (Reg.thermAge c) 49 && !s.regBit (Reg.thermRh c) 10

/-- HELD_RELEASE (R663, R414): CMPPASS is 1 and HOLD is 0; a restarted Lehr A first takes device time back (R449). -/
def execHeldRelease (core : Fin 96) (s : State) : Out :=
  let c := core.val
  if s.coreSt c ≠ .held ∨ !s.regBit Reg.lehraStat 1 ∨ s.regBit Reg.resetStat 7 ∨ s.lehrB.handover.isSome then .next s
  else
    let s1 := ((s.setCoreSt c .idle).setSclass c (sEligible s c)).setRegBit Reg.lehraStat 0 true
    .next (releaseDomains s1)

/-- Every stream has ended and nothing is in execution. -/
def allEnded (s : State) (c : Nat) : Bool :=
  (s.core c).streams.all (·.ended) && decide ((s.core c).streams ≠ []) && (s.core c).flight.isEmpty

/-- Whether Bench has taken the completion of the program on a core: no run and no tie-break is active there. -/
def reportTaken (s : State) (c : Nat) : Bool :=
  (runOn s c).isNone && !(s.bench.ties.any (fun x => decide (x.core = some c)))

/-- A run on the core has faulted and stands so, be it that the core has been quarantined since (R117, R428). -/
def faultStands (s : State) (c : Nat) : Bool :=
  decide (s.coreSt c = .faulted) || (decide (s.coreSt c = .quarantine) && s.regBit (Reg.coreFault c) 19)

/-- A run on the core has ended and stands so, be it that the core has been quarantined since (R117, R119). -/
def endStands (s : State) (c : Nat) : Bool :=
  (decide (s.coreSt c = .idle) || decide (s.coreSt c = .quarantine)) && allEnded s c && !s.regBit (Reg.coreFault c) 19

/-- Bench has still to take the completion of the run on a core (R373). -/
def reportDue (s : State) (c : Nat) : Bool := !reportTaken s c && (faultStands s c || endStands s c)

/-- QUARANTINE_RESTART (R663): Lehr A restarts a quarantined core unless its vertical port is lost. The kill actions have emptied it, so it
enters RESET at once; a restart of its own domain is in progress till the core is released. DEDUCED: an end or a fault that Bench has not
taken yet is taken first, since R373 has Bench react to every one of them. -/
def execQuarantineRestart (core : Fin 96) (t : Nat) (s : State) : Out :=
  let s := s.at t
  let c := core.val
  if s.coreSt c ≠ .quarantine ∨ (s.core c).portLost ∨ reportDue s c then .next s
  else
    let s1 := if inReset s (1, c) then s else openDomain (recordCause s 1 c 9) 1 c 9 false
    .next (enterReset (if (s1.blockPhase (.core core)).isSome then blockToReset s1 (.core core) else s1) c)

/-! ## Between programs -/

/-- Memories cleared by R110; what stays is not memory: the program, its streams and its context. -/
def clearMemories (x : Core) : Core :=
  { x with sp := [], spBad := [], accs := [], leaves := [], terms := [], nextK := [], tiles := [], vregs := [], carried := [], records := [] }

/-- Every sync counter register set to zero. -/
def zeroCounters (s : State) (c lo hi : Nat) : State := s.resetRegs (Reg.coreSync c lo) (Reg.coreSync c hi)

/-- PARTITION_CLEAR_DONE (R110): the memories are clear, they are the new partition's, and its program may issue. -/
def execPartitionClearDone (core : Fin 96) (s : State) : Out :=
  let c := core.val
  if !(s.core c).clearing ∨ s.coreSt c ≠ .run then .next s
  else
    let x := { clearMemories (s.core c) with clearing := false }
    let s1 := zeroCounters (s.setCore c x) c 0 2048
    .next (syncTpstat (headChecks s1 c) c)

/-- The core enters IDLE: engine time is taken, and the program is gone (R117, R126, R182, R183). -/
def toIdle (s : State) (c : Nat) : State := (endProgram (accrue s c) c).setCoreSt c .idle

/-- PROGRAM_END (R117, R119, R172): all five streams have reached END. -/
def execProgramEnd (core : Fin 96) (t : Nat) (s : State) : Out :=
  let s := s.at t
  let c := core.val
  if running s c && allEnded s c then .next (toIdle (replay s c) c) else .next s

/-- FAULT_ACK (R117, R373): Bench, which has taken the completion with the fault code, acknowledges the fault. -/
def execFaultAck (core : Fin 96) (s : State) : Out :=
  let c := core.val
  if s.coreSt c = .faulted ∧ reportTaken s c then .next ((endProgram s c).setCoreSt c .idle) else .next s

/-- KILL_SETTLED (R117, R118): streams stopped and transactions settled. -/
def execKillSettled (core : Fin 96) (s : State) : Out :=
  let c := core.val
  if s.coreSt c = .kill then .next ((killActions s c).setCoreSt c .idle) else .next s

/-! ## Checkpoints -/

/-- A checkpoint request reaches a core (R172, R173): refused without markers or for a speculative command, else the target is one beyond the
highest marker issued. -/
def requestCkpt (s : State) (c : Nat) : State :=
  let w := s.reg (Reg.coreTpckpt c)
  if (s.core c).nckpt = 0 ∨ s.cmdSpec c then s.setReg (Reg.coreTpckpt c) (setBit w 50 true)
  else
    let w1 := setFld w 24 24 (fld w 0 24 + 1)
    let s1 := s.setReg (Reg.coreTpckpt c) (setBit (setBit (setBit w1 48 true) 49 false) 50 false)
    syncTpstat (s1.setCore c { s1.core c with ckptSince := s1.now }) c

/-- CHECKPOINT_REQUEST (R172, R173). -/
def execCheckpointRequest (core : Fin 96) (t : Nat) (s : State) : Out :=
  let s := s.at t
  if s.coreSt core.val = .run then .next (requestCkpt s core.val) else .next s

/-- The checkpoint boundary is reached (R172): every stream is stopped at the target or has ended, not all have ended, and everything before has
completed with its signal raised. -/
def atBoundary (s : State) (c : Nat) : Bool :=
  running s c && s.ckptReq c && (List.range 5).all (fun k => ((s.core c).stream k).ended || atTarget s c k) &&
    (s.core c).flight.isEmpty && !allEnded s c

/-- CHECKPOINT_BOUNDARY (R172, R117): the save begins. A command that has become speculative since the request is not saved: the core refuses
(R173, R393). -/
def execCheckpointBoundary (core : Fin 96) (t : Nat) (s : State) : Out :=
  let s := s.at t
  let c := core.val
  if !atBoundary s c then .next s
  else if s.cmdSpec c then
    .next (syncTpstat (s.setReg (Reg.coreTpckpt c) (setBit (setBit (s.reg (Reg.coreTpckpt c)) 48 false) 50 true)) c)
  else
    let w := s.reg (Reg.coreTpckpt c)
    let s1 := (accrue s c).setReg (Reg.coreTpckpt c) (setBit (setBit w 48 false) 49 true)
    .next (syncTpstat (s1.setCoreSt c .ckpt) c)

/-- The size of a checkpoint image (R174). -/
def ckptSize : Nat := 8012288

/-- The tag byte of an accumulator (R174). -/
def Acc.tagByte (a : Acc) : Nat :=
  a.res.toNat + 8 * a.nan.toNat + 16 * a.pinf.toNat + 32 * a.ninf.toNat + 64 * a.inexact.toNat + 128 * a.tsat.toNat

/-- Byte `i` of the checkpoint image's 0x00_0000 to 0x7A_40FF (R174). -/
def ckptByte (s : State) (c i : Nat) : Byte :=
  let x := s.core c
  let nth (v k : Nat) : Byte := BitVec.ofNat 8 (v / 256 ^ k)
  if i < 0x600000 then x.spByte i
  else if i < 0x780000 then nth (sget Acc.zero x.accs ((i - 0x600000) / 12)).value.toNat ((i - 0x600000) % 12)
  else if i < 0x7A0000 then
    BitVec.ofNat 8 ((sget Acc.zero x.accs (i - 0x780000)).shown (x.tileSt ((i - 0x780000) / 16384)).fmode).tagByte
  else if i < 0x7A1000 then nth (sget 0 x.terms ((i - 0x7A0000) / 4)) (i % 4)
  else if i < 0x7A2000 then nth (sget 0 x.nextK ((i - 0x7A1000) / 4)) (i % 4)
  else if i < 0x7A4000 then nth (s.syncVal c ((i - 0x7A2000) / 4)) (i % 4)
  else
    let b := (i - 0x7A4000) % 32
    if 2 ≤ b ∧ b ≤ 12 then (blockHeader (x.tileSt ((i - 0x7A4000) / 32)) 1 0).getD b 0#8 else 0#8

/-- The header of the image (R174). -/
def ckptHeader (s : State) (c crc : Nat) : List Byte :=
  leBytes 4 0x4B43394A ++ leBytes 4 0 ++ leBytes 8 (s.regFld (Reg.coreTpimage c) 0 48) ++ leBytes 4 (s.ckptTarget c) ++
    (nextWords s c).flatMap (leBytes 4) ++ leBytes 4 crc ++ leBytes 212 0

/-- The checkpoint image of a core (R174). -/
def ckptImage (s : State) (c : Nat) : List Byte :=
  let body := (List.range 0x7A4100).map (ckptByte s c)
  body ++ ckptHeader s c (crc32c body)

/-- The CRC-32C an image carries in its header (R174). -/
def ckptCrc (img : List Byte) : Nat := leAt (img.drop 0x7A4100) 40 4

/-- An image written at its address, or the fault of a refused write. -/
def saveImage (s : State) (r : Req) (addr : Nat) (img : List Byte) : State × Option TFault :=
  match devWrite s r .clean addr img with
  | (s1, some _) => (s1, some ⟨0x020F, writeFailsAt s r .clean addr img, true, 0, 0⟩)
  | (s1, none) => (s1, none)

/-- What an image stands for kept beside it (R82, R118). -/
def keepSaved (s : State) (v : SavedRun) : State :=
  { s with bench := { s.bench with saved := s.bench.saved.filter (fun t => decide (t.addr ≠ v.addr)) ++ [v] } }

/-- The leaves kept beside an image, where the image read is still the one that the machine saved there (R75, R82). -/
def keptTree (s : State) (addr crc : Nat) : Option (List (Nat × List (Nat × Nat))) :=
  (s.bench.saved.find? (fun t => decide (t.addr = addr) && decide (t.crc = crc))).map (·.leaves)

/-- An image written to a core's checkpoint area and the run noted as saved, or the fault of a refused write (R98, R117). -/
def saveAs (s : State) (c : Nat) (img : List Byte) : State × Option TFault :=
  let x := s.core c
  match saveImage (s.bump (Reg.corePortwr c) ckptSize) { coreReq s c with owner := none } x.ckptAddr img with
  | (s1, some f) => (s1, some f)
  | (s1, none) =>
    (keepSaved s1 ⟨x.ckptAddr, ckptCrc img, x.leaves, stagedOf s1 (runKey (s1.cmdOwner c) x.run.prog)⟩, none)

/-- A core's image saved, or the fault met in the saved data (R98, R94, R117): an uncorrectable scratchpad word, a parity or residue failure, or a
refused write. `upset` is what the tag parities show, `ecc` what the scratchpad reads meet. -/
def saveCkpt (s0 : State) (c : Nat) (upset : Bool) (ecc : SpEcc) : State × Option TFault :=
  let s := takeEcc s0 c ecc
  match (s.core c).spBad.min? with
  | some w => (s, some (spData 0 w))
  | none =>
    if upset || (s.core c).accs.any (fun p => !p.2.resOk ((s.core c).tileSt (p.1 / 16384)).fmode) then (s, some (.plain 0x020B))
    else saveAs s c (ckptImage s c)

/-- A list of words of an image as a sparse table, zero entries left out. -/
def sparseWords (n width : Nat) (bs : List Byte) (m : Nat) : List (Nat × Nat) :=
  ((List.range n).map (fun i => (i, leAt bs (width * i) width % m))).filter (fun p => decide (p.2 ≠ 0))

/-- The accumulators of an image. -/
def imageAccs (vals tags : List Byte) : List (Nat × Acc) :=
  ((List.range 131072).map (fun i =>
    let t := leAt tags i 1
    let b (k : Nat) : Bool := decide (bitsOf t k 1 = 1)
    (i, (⟨BitVec.ofNat 96 (leAt vals (12 * i) 12), BitVec.ofNat 3 t, b 3, b 4, b 5, b 6, b 7⟩ : Acc)))).filter
      (fun p => decide (p.2 ≠ Acc.zero))

/-- The tiles of an image. -/
def imageTiles (bs : List Byte) : List (Nat × TileSt) :=
  ((List.range 8).map (fun i => (i, tileOfHeader (sliceBytes bs (32 * i) 32)))).filter (fun p => decide (p.2 ≠ TileSt.zero))

/-- The leaf lists of a core restored from an image that the machine has not saved there itself: an accumulator of a float-tree tile that has taken terms stands for a saved node, with the number of leaves
that the row's next-K index shows (R155, R174). -/
def imageLeaves (accs : List (Nat × Acc)) (terms nextK : List (Nat × Nat)) (tiles : List (Nat × TileSt)) :
    List (Nat × List (Nat × Nat)) :=
  (accs.filter (fun p => (sget TileSt.zero tiles (p.1 / 16384)).fmode && decide (sget 0 terms (p.1 / 128) ≠ 0))).map
    (fun p => (p.1, [(2 ^ 24 + (sget 0 nextK (p.1 / 128) - (sget TileSt.zero tiles (p.1 / 16384)).kstart),
      p.2.value.toNat % 2 ^ 34)]))

/-- Whether the word at an index of a stream of the image in memory is an END (R133). -/
def endInMemory (s : State) (c k idx : Nat) : Bool :=
  match readBytes s (wordAddr s c k idx) 16 with
  | some bs => decide (wEng (leNat bs) = 6) && decide (wOp (leNat bs) = 2)
  | none => false

/-- Whether the word before an index of a stream of the image in memory is an END (R174): the stream had ended. -/
def endedBefore (s : State) (c k idx : Nat) : Bool := decide (idx ≠ 0) && endInMemory s c k (idx - 1)

/-- The core's state restored from an image whose checks have passed (R175, R188). A request that came before the restore has its target beyond the
image's markers (R172). -/
def restoreCkpt (s : State) (c : Nat) (bs : List Byte) : State :=
  let x := s.core c
  let head := bs.drop 0x7A4100
  let accs := imageAccs (sliceBytes bs 0x600000 0x180000) (sliceBytes bs 0x780000 0x20000)
  let terms := sparseWords 1024 4 (sliceBytes bs 0x7A0000 0x1000) (2 ^ 23)
  let nextK := sparseWords 1024 4 (sliceBytes bs 0x7A1000 0x1000) (2 ^ 24)
  let tiles := imageTiles (sliceBytes bs 0x7A4000 256)
  let sp := (((bs.take 0x600000).zipIdx).map (fun p => (p.2, p.1))).filter (fun p => decide (p.2 ≠ 0#8))
  let marker := leAt head 16 4
  let streams := (x.streams.zipIdx).map (fun p =>
    { p.1 with
      marker := marker, ended := endedBefore s c p.2 (leAt head (20 + 4 * p.2) 4)
      past := decide (2 ^ 24 ≤ leAt head (20 + 4 * p.2) 4) })
  let s1 := s.setCore c { x with
    sp := sp, spBad := [], accs := accs, terms := terms
    leaves := (keptTree s x.ckptAddr (leAt head 40 4)).getD (imageLeaves accs terms nextK tiles)
    nextK := nextK, tiles := tiles, vregs := []
    streams := streams, resuming := false }
  let s2 := (List.range 1920).foldl (fun s n => s.setRegFld (Reg.coreSync c n) 0 32 (leAt bs (0x7A2000 + 4 * n) 4)) s1
  let s3 := (List.range 5).foldl (fun s k => s.setRegFld (tpword c k) 0 24 (leAt head (20 + 4 * k) 4)) s2
  let w := setFld (s3.reg (Reg.coreTpckpt c)) 0 24 marker
  s3.setReg (Reg.coreTpckpt c) (setBit (if bitAt w 48 then setFld w 24 24 (marker + 1) else w) 51 true)

/-- Whether an image's header and CRC-32C are those of the program (R174, R175). -/
def ckptHeadOk (s : State) (c : Nat) (bs : List Byte) : Bool :=
  let head := bs.drop 0x7A4100
  decide (leAt head 0 4 = 0x4B43394A) && decide (leAt head 8 8 = s.regFld (Reg.coreTpimage c) 0 48) &&
    decide (ckptCrc bs = crc32c (bs.take 0x7A4100))

/-- The core resumes from an image of `z` bytes as it was read, or faults (R175). -/
def resumeFrom (s : State) (c z : Nat) (bs : List Byte) : State :=
  let s1 := s.bump (Reg.corePortrd c) z
  if !ckptHeadOk s1 c bs then tileFault s1 c 6 0 (.plain 0x0215)
  else if ((restoreCkpt s1 c bs).core c).accs.any
      (fun p => !p.2.resOk (((restoreCkpt s1 c bs).core c).tileSt (p.1 / 16384)).fmode) then tileFault s1 c 3 0 (.plain 0x020B)
  else syncTpstat (headChecks (restoreCkpt s1 c bs) c) c

/-- An image of `z` bytes read at its address, and the core resumed from it. -/
def resumeCkpt (s : State) (c addr z : Nat) (ecc : MemEcc) : State :=
  match devRead s { coreReq s c with owner := none } ecc addr z with
  | (s1, .error p) => tileFault s1 c 3 0 (poisonFault p (readFailsAt s { coreReq s c with owner := none } ecc addr z) addr z 0)
  | (s1, .ok bs) => resumeFrom s1 c z bs

/-- CHECKPOINT_RESUME (R175): the image is read, checked and restored. -/
def execCheckpointResume (core : Fin 96) (ecc : MemEcc) (s : State) : Out :=
  let x := s.core core.val
  if s.coreSt core.val ≠ .run ∨ x.clearing ∨ !x.resuming then .next s
  else .next (resumeCkpt s core.val x.ckptAddr ckptSize ecc)

/-! ## Debug -/

/-- Whether a debug scope is unlocked (R595). -/
def unlocked (s : State) (scope : Nat) : Bool := s.regBit Reg.devDbgstat scope

/-- Gaffer firmware or the debug access port, who alone write CORE_CTL, CORE_TPBRK and CORE_TPSTEP (R123, R186). -/
def debugWriter (acc : Accessor) : Bool :=
  match acc with
  | .ident who => decide (who.val = 16)
  | .debugPort => true

/-- A request refused under R100, R123, R186 or R206. -/
def windowRefused (s : State) (c : Nat) : State := s.bump (Reg.coreWinref c) 1

/-- The core enters HALT (R117, R415): its streams stop at the next instruction boundary. -/
def haltCore (s : State) (c : Nat) : State :=
  let s1 := (accrue s c).setCoreSt c .halt
  syncTpstat (s1.setCore c { s1.core c with haltPoint := none }) c

/-- Whether a core in RUN may be halted: debug is unlocked and the run is a main run (R123, R415). -/
def mayHalt (s : State) (c : Nat) : Bool :=
  decide (s.coreSt c = .run) && unlocked s 0 && !shadowRun s c

/-- HALTREQ (R123). -/
def execHaltreq (acc : Accessor) (core : Fin 96) (t : Nat) (s : State) : Out :=
  let s := s.at t
  let c := core.val
  if !debugWriter acc then .next (windowRefused s c)
  else if mayHalt s c then .next (haltCore s c)
  else .next (s.setRegBit (Reg.coreCtl c) 3 true)

/-- RESUME (R123, R117): the core runs again. -/
def execResume (acc : Accessor) (core : Fin 96) (t : Nat) (s : State) : Out :=
  let s := s.at t
  let c := core.val
  if !debugWriter acc then .next (windowRefused s c)
  else if s.coreSt c ≠ .halt then .next s
  else
    let s1 := s.setCore c { s.core c with haltPoint := none, since := s.now }
    .next (syncTpstat (headChecks (s1.setCoreSt c .run) c) c)

/-- Whether a restart request for a core is absorbed (R553). -/
def restartAbsorbed (s : State) (c : Nat) : Bool :=
  match s.coreSt c with
  | .off | .quarantine | .reset | .repair | .selftest => true
  | _ => inReset s (1, c)

/-- R553: a request for a core's domain, by CORE_CTL or by RESET_REQ. -/
def requestRestart (s : State) (c : Nat) (requested : Bool) : State :=
  if restartAbsorbed s c then s.logReset 0x0909 1 c else startReset 1 c 11 requested s

/-- RESTARTREQ (R123, R553). -/
def execRestartreq (acc : Accessor) (core : Fin 96) (t : Nat) (s : State) : Out :=
  let s := s.at t
  let c := core.val
  if !debugWriter acc then .next (windowRefused s c) else .next (requestRestart s c false)

/-- BREAKPOINT_HIT (R186): the stream's next word to issue is WORD. -/
def execBreakpointHit (core : Fin 96) (t : Nat) (s : State) : Out :=
  let s := s.at t
  let c := core.val
  let b := s.reg (Reg.coreTpbrk c)
  let k := fld b 24 3
  if mayHalt s c && bitAt b 27 && decide (k < 5) && !((s.core c).stream k).ended && decide (s.nextWord c k = fld b 0 24) then
    .next (haltCore s c)
  else .next s

/-- What the head of a stream does when it issues: its issue checks and its effect, by engine and opcode (R150). -/
def opOf (core : Fin 96) (k : Nat) (ph : Phys) (eng op : Nat) : Option ((State → Nat → List TFault) × (State → Nat → Effect)) :=
  let c := core.val
  let vec (f : Core → Nat → Nat → FVal) : Option ((State → Nat → List TFault) × (State → Nat → Effect)) :=
    some (noChecks, lanesEffect c f)
  let red (leaf : Nat → Nat → FVal) (node : Nat → Nat → Nat → FVal) (a b : Nat) :
      Option ((State → Nat → List TFault) × (State → Nat → Effect)) :=
    some (noChecks, reduceEffect c leaf node (fun w => if wInt w then b else a))
  match eng, op with
  | 0, 0x01 => some (clrChecks, clrEffect c)
  | 0, 0x02 => some (wldChecks, wldEffect c ph)
  | 0, 0x03 => some (mmChecks c, mmEffect c ph)
  | 1, 0x01 => some (noChecks, drnEffect c ph)
  | 2, 0x01 => some (noChecks, vldEffect c ph.sp)
  | 2, 0x02 => some (noChecks, vstEffect c ph.sp)
  | 2, 0x03 => some (noChecks, vldscEffect c ph.sp)
  | 2, 0x04 => vec (fun _ w _ => (wImm w, .none))
  | 2, 0x08 => vec laneAdd
  | 2, 0x09 => vec laneSub
  | 2, 0x0A => vec laneMul
  | 2, 0x0B => vec laneFma
  | 2, 0x0C => vec laneDiv
  | 2, 0x0D => vec laneSqrt
  | 2, 0x0E => vec laneMin
  | 2, 0x0F => vec laneMax
  | 2, 0x10 => vec laneAbs
  | 2, 0x11 => vec laneNeg
  | 2, 0x12 => vec laneCmp
  | 2, 0x13 => vec laneSel
  | 2, 0x14 => vec (laneBits (· &&& ·))
  | 2, 0x15 => vec (laneBits (· ||| ·))
  | 2, 0x16 => vec (laneBits (· ^^^ ·))
  | 2, 0x17 => vec (laneBits (fun a b => a * 2 ^ (b % 32)))
  | 2, 0x18 => vec laneShr
  | 2, 0x19 => vec laneCvt
  | 2, 0x1A => vec laneQnt
  | 2, 0x20 => vec (laneFn (fun w => exp2F (wSat w)))
  | 2, 0x21 => vec (laneFn (fun _ => log2F))
  | 2, 0x22 => vec (laneFn (fun _ => rcpF))
  | 2, 0x23 => vec (laneFn (fun _ => rsqrtF))
  | 2, 0x24 => vec (laneFn (fun _ => sigmF))
  | 2, 0x25 => vec (laneFn (fun _ => tanhF))
  | 2, 0x26 => vec (laneFn (fun _ => geluF))
  | 2, 0x27 => vec laneExpd
  | 2, 0x30 => red leafSelf nodeSum 0 0
  | 2, 0x31 => red leafSelf nodeMax 0xFF800000 0x80000000
  | 2, 0x32 => red leafSelf nodeMin 0x7F800000 0x7FFFFFFF
  | 2, 0x33 => red leafSquare nodeSum 0 0
  | 3, 0x01 => some (strideChecks c ph, ldEffect c ph)
  | 3, 0x02 => some (blockChecks c ph, ldaccEffect c ph)
  | 4, 0x01 => some (strideChecks c ph, stEffect c ph)
  | 4, 0x02 => some (blockChecks c ph, staccEffect c ph)
  | 4, 0x03 => some (noChecks, stsigEffect c ph)
  | 5, 0x01 => some (gidxChecks c ph, gidxEffect c ph)
  | 5, 0x02 => some (gpageChecks c ph, gpageEffect c ph)
  | 6, 0x01 => some (noChecks, nopEffect)
  | 6, 0x02 => some (noChecks, endEffect c k)
  | 6, 0x03 => some (ckptChecks c k, ckptEffect c k)
  | 6, 0x04 => some (noChecks, nopEffect)
  | _, _ => none

/-- Instructions in execution completed: those a test picks, then the signals of their stream (R141, R142). -/
def completeInstrs (s : State) (c k : Nat) (p : InFlight → Bool) : State :=
  let x := s.core c
  let s1 := s.setCore c { x with flight := x.flight.map (fun f => if f.stream = k ∧ p f then { f with done := true } else f) }
  syncTpstat (flush s1 c k) c

/-- The head of a stream issues whatever instruction it is, and completes. -/
def stepHead (s : State) (core : Fin 96) (k : Nat) (ph : Phys) (w : Nat) : State :=
  let s1 := match opOf core k ph (wEng w) (wOp w) with
    | some (checks, effect) => orWait s (issueHead s core.val k checks effect)
    | none => issueHead s core.val k noChecks (fun s _ => (s, .ok 0))
  completeInstrs s1 core.val k (fun _ => true)

/-- Whether the store stream of a core in RUN stands at a store that waits for staging at a crucible (R384). -/
def storeStalls (s : State) (core : Fin 96) (cruc : Nat) : Bool :=
  match headWord s core.val 3 with
  | some (some w) =>
    running s core.val && decide (wEng w.toNat = 4) && !waitBlocked s core.val w.toNat &&
      (match opOf core 3 ⟨.clean, .clean, false⟩ (wEng w.toNat) (wOp w.toNat) with
        | some (checks, effect) => stageWaitsAt s (issueHead s core.val 3 checks effect) cruc
        | none => false)
  | _ => false

/-- The halt point of a core still in HALT is where its streams stand. -/
def moveHaltPoint (s : State) (c : Nat) : State :=
  if s.coreSt c = .halt then s.setCore c { s.core c with haltPoint := some (nextWords s c) } else s

/-- TPSTEP (R186): one instruction of a stream issued in HALT, its completion awaited; the halt point moves with it (R415). -/
def execTpstep (acc : Accessor) (core : Fin 96) (stream : BitVec 3) (ph : Phys) (s : State) : Out :=
  let c := core.val
  let k := stream.toNat
  if !debugWriter acc then .next (windowRefused s c)
  else if s.coreSt c ≠ .halt ∨ !unlocked s 0 ∨ 5 ≤ k ∨ (s.core c).clearing ∨ (s.core c).resuming then .next s
  else match headWord s c k with
    | some (some w) => .next (moveHaltPoint (stepHead s core k ph w.toNat) c)
    | some none => .next (tileFault s c 6 (s.nextWord c k) (fetchFault s c k))
    | none => .next s

/-- DEBUG_HALT_POINT (R415): everything issued before the halt has completed. -/
def execDebugHaltPoint (core : Fin 96) (s : State) : Out :=
  let c := core.val
  if s.coreSt c = .halt ∧ !shadowRun s c ∧ (s.core c).flight.isEmpty then
    .next (s.setCore c { s.core c with haltPoint := some (nextWords s c) })
  else .next s

/-- A debug write of a halted main run entered in its log of 1,024 (R415, R416); none when the log is full. -/
def logDebugWrite (s : State) (c off : Nat) (bs : List Byte) : Option State :=
  let x := s.core c
  if 1024 ≤ x.debugLog.length then none
  else some (noteDebug (s.setCore c { x with debugLog := x.debugLog ++ [⟨off, bs, x.haltPoint.getD (nextWords s c)⟩] }) c)

/-- Whether R100's table serves a request to a core's window. -/
def windowServes (s : State) (acc : Accessor) (c : Nat) (write : Bool) : Bool :=
  match acc with
  | .ident who =>
    decide (who.val = 16) && (match s.coreSt c with
      | .idle | .held => true
      | .faulted | .quarantine | .run | .kill | .ckpt | .halt => !write
      | _ => false)
  | .debugPort =>
    unlocked s 1 && (match s.coreSt c with
      | .idle | .held | .faulted | .quarantine => !write
      | .halt => !(write && shadowRun s c)
      | _ => false)

/-- A window read that R100 serves: poisoned where it meets an uncorrectable word (R94). -/
def windowGet (s : State) (c off n : Nat) : State × Option (List Byte) :=
  match if off < 0x600000 then (s.core c).spBadIn off n else none with
  | some _ => (coreCheckEvent (s.bump (Reg.coreSpunc c) 1) c, none)
  | none => (s, some ((s.core c).windowRead off n))

/-- What a served window read of the scratchpad meets there (R94): a corrected error is counted, and an uncorrectable word is found. -/
def windowMeets (s : State) (acc : Accessor) (c off : Nat) (write : Bool) (ecc : SpEcc) : State :=
  if windowServes s acc c write && !write && decide (off < 0x600000) then takeEcc s c ecc else s

/-- A window access under R100: the answer, or none where it is poisoned. -/
def windowAccess (s : State) (acc : Accessor) (c off n : Nat) (write : Option (List Byte)) : State × Option (List Byte) :=
  if !windowServes s acc c write.isSome then (windowRefused s c, none)
  else match write with
    | none => windowGet s c off n
    | some bs =>
      let put (s : State) : State := s.setCore c ((s.core c).windowWrite off bs)
      if s.coreSt c = .halt then
        match logDebugWrite s c off bs with
        | some s1 => (put s1, some [])
        | none => (s.logLehrA 0x0611 c s.frmcnt, some [])
      else (put s, some [])

/-- A request of the host die for an address nothing maps (R19): the crucible that receives it counts it and answers poisoned. -/
def unmappedFromHost (s : State) (addr : Nat) : State :=
  let k := ingressOf s 0x64 0
  poisonAt ((s.bump (Reg.crucUnmap k) 1).logCruc k 0x0510 0x64 16 addr) k

/-- CORE_WINDOW_ACCESS (R100, R94, R97, R415, R416): one 64-byte word of a core's window; `ecc` is what a read meets in the scratchpad words
it reads. Offsets the window does not map answer as unmapped addresses (R19). -/
def execCoreWindowAccess (acc : Accessor) (core : Fin 96) (word : BitVec 18) (access : WindowWord) (s : State) : Out :=
  let c := core.val
  let off := 64 * word.toNat
  let r := match addrKind (windowBase c + off) with
    | .window _ _ =>
      windowAccess (windowMeets s acc c off access.write.isSome access.ecc) acc c off 64 (access.write.map (fun (v : BitVec 512) => leBytes 64 v.toNat))
    | _ => (unmappedFromHost s (windowBase c + off), none)
  .next { r.1 with fab := { r.1.fab with lastResp := some ⟨0x64, 0, r.2.isNone, r.2.getD [], 0#32⟩ } }

/-- A read of CORE_SYNCn by the debug access port (R206), served where R100 serves its window reads; a refused one reads zero. The answer is
the last response. -/
def debugSyncRead (s : State) (c n : Nat) : State :=
  let ok := windowServes s .debugPort c false
  let s1 := if ok then s else windowRefused s c
  { s1 with fab := { s1.fab with lastResp := some ⟨0x64, 0, false, leBytes 4 (if ok then s.regFld (Reg.coreSync c n) 0 32 else 0), 0#32⟩ } }

/-- CORE_SYNC_WRITE (R206): Gaffer in IDLE and HELD, the debug access port in HALT, and no carried counter while a record is pending. -/
def writeSync (acc : Accessor) (core : Fin 96) (n : Fin 2048) (v : BitVec 32) (s : State) : Out :=
  let c := core.val
  let held := isCarried n.val && decide ((s.core c).records ≠ [])
  let put (s : State) : State :=
    if isCarried n.val then
      syncBind (syncV (s.setCore c { s.core c with carried := sput 0 (s.core c).carried n.val v.toNat }) c n.val) c
    else s.setRegFld (Reg.coreSync c n.val) 0 32 v.toNat
  match acc with
  | .ident who =>
    if who.val = 16 ∧ (s.coreSt c = .idle ∨ s.coreSt c = .held) ∧ !held then .next (put s) else .next (windowRefused s c)
  | .debugPort =>
    if s.coreSt c = .halt ∧ unlocked s 1 ∧ !held ∧ !shadowRun s c then
      match logDebugWrite s c (0xF00000000000 + n.val) (leBytes 4 v.toNat) with
      | some s1 => .next (syncTpstat (put s1) c)
      | none => .next (s.logLehrA 0x0611 c s.frmcnt)
    else .next (windowRefused s c)

/-- A counter read by an identity (R206): its register, or zero where it is refused. -/
def identSyncRead (s : State) (who : Ident) (c n : Nat) : State :=
  if windowServes s (.ident who) c false then { s with readData := BitVec.ofNat 64 (s.regFld (Reg.coreSync c n) 0 32) }
  else { windowRefused s c with readData := 0#64 }

/-- CORE_SYNC_WRITE (R206): a write of CORE_SYNCn, or, without a value, its read. -/
def execCoreSyncWrite (acc : Accessor) (core : Fin 96) (n : Fin 2048) (v : Option (BitVec 32)) (s : State) : Out :=
  match v, acc with
  | some w, _ => writeSync acc core n w s
  | none, .debugPort => .next (debugSyncRead s core.val n.val)
  | none, .ident who => .next (identSyncRead s who core.val n.val)

/-! ## Step rate -/

/-- CAP below 1,100 at a setpoint of 700 mV or more and 125 degrees or less (R113). -/
def belowFloor (s : State) (c cap : Nat) : Bool :=
  decide (cap < 1100) && decide (700 ≤ s.regFld (Reg.coreVset c) 0 10) &&
    decide (signedOf (s.regFld (Reg.thermUnit c) 0 13) 13 ≤ 500)

/-- STEPRATE_UPDATE (R112, R113, R635): the steps executed in the window of 10,000 ns and the replica loop's capability. DESIGN CHOICE:
the steps of a window expressed in Mstep/s are rounded down. -/
def execSteprateUpdate (core : Fin 96) (steps : BitVec 20) (cap : BitVec 15) (t : Nat) (s : State) : Out :=
  let s := s.at t
  let c := core.val
  match s.coreSt c with
  | .off | .reset | .disabled => .next (s.setRegFld (Reg.coreSteprate c) 0 31 0)
  | _ =>
    let s1 := (s.setRegFld (Reg.coreSteprate c) 0 16 (min 65535 (steps.toNat / 10))).setRegFld (Reg.coreSteprate c) 16 15 cap.toNat
    let s2 := (s1.bump (Reg.coreStepcnt c) steps.toNat).setRegFld (Reg.coreStepmin c) 0 16
      (min (s1.regFld (Reg.coreStepmin c) 0 16) cap.toNat)
    if belowFloor s2 c cap.toNat ∧ !s2.regBit (Reg.coreSteprate c) 31 then
      let s3 := (s2.setRegBit (Reg.coreSteprate c) 31 true).setRegBit (Reg.thermAge c) 49 true
      .next ((s3.setSclass c false).logTherm 0x0A0B c)
    else .next s2

/-- STEPMIN_WRITE (R127): a write of any value. -/
def execStepminWrite (core : Fin 96) (s : State) : Out := .next (s.setRegFld (Reg.coreStepmin core.val) 0 16 0xFFFF)

/-! ## The sequencer -/

/-- Buffered words of a core that its streams have not passed. -/
def freshWords (s : State) (c : Nat) : List (Nat × Option (BitVec 128)) :=
  (s.core c).buf.filter (fun p => decide (s.nextWord c (p.1 / 2 ^ 24) ≤ p.1 % 2 ^ 24))

/-- Whether a buffered word is an END. -/
def isEnd (w : Option (BitVec 128)) : Bool :=
  match w with
  | some b => decide (wEng b.toNat = 6) && decide (wOp b.toNat = 2)
  | none => false

/-- Whether the sequencer may fetch a word (R133, R134, R108): it lies in the stream, at or beyond the next to issue, not beyond an END, be it in the
buffer or still in memory only, it is not there yet, the buffer has room, and the load engine's transactions are below their limit. -/
def mayFetch (s : State) (c k i : Nat) : Bool :=
  let b := freshWords s c
  s.cmdValid c && !((s.core c).stream k).ended && decide (i < ((s.core c).stream k).length) && decide (s.nextWord c k ≤ i) &&
    decide (b.length < 4096) && decide (engineTxns s c 3 < engineLimit 3) && !(b.any (fun p => decide (p.1 = k * 2 ^ 24 + i))) &&
    !(b.any (fun p => decide (p.1 / 2 ^ 24 = k) && decide (p.1 % 2 ^ 24 < i) && isEnd p.2)) &&
    !((List.range (i - s.nextWord c k)).any (fun j => endInMemory s c k (s.nextWord c k + j)))

/-- INSTRUCTION_FETCH (R134): the response places a word, or a poisoned marker. -/
def execInstructionFetch (core : Fin 96) (stream : Fin 5) (index : BitVec 24) (ecc : MemEcc) (s : State) : Out :=
  let c := core.val
  let k := stream.val
  let i := index.toNat
  let st := s.coreSt c
  if (st ≠ .run ∧ st ≠ .halt) ∨ !mayFetch s c k i then .next s
  else
    let r := devRead s (coreReq s c) ecc (wordAddr s c k i) 16
    let w : Option (BitVec 128) := match r.2 with
      | .ok bs => some (BitVec.ofNat 128 (leNat bs))
      | .error _ => none
    let s1 := r.1.bump (Reg.corePortrd c) 16
    let s2 := s1.setCore c { s1.core c with buf := freshWords s1 c ++ [(k * 2 ^ 24 + i, w)] }
    .next (syncTpstat (headCheck s2 c k) c)

/-- INSTR_COMPLETE (R141, R142): an instruction in execution completes. A FENCE or an END completes when every earlier instruction of its
stream has, and by nothing else. -/
def execInstrComplete (core : Fin 96) (stream : Fin 5) (word : BitVec 24) (s : State) : Out :=
  let c := core.val
  let st := s.coreSt c
  if st = .run ∨ st = .halt then
    .next (completeInstrs s c stream.val (fun f => decide (f.word = word.toNat) && decide (f.eng ≠ 6)))
  else .next s

/-- The streams of a core blocked on a counter, with their words; one that stalls for a record is not (R196), nor one of a reblow run
that stands at a logged halt point (R415). -/
def blockedStreams (s : State) (c : Nat) : List (Nat × Nat) :=
  (List.range 5).filterMap (fun k =>
    match headWord s c k with
    | some (some w) => if counterBlocked s c w.toNat && !atReplay s c k then some (k, w.toNat) else none
    | _ => none)

/-- Whether a core is starved (R194). -/
def starved (s : State) (c : Nat) : Bool :=
  let x := s.core c
  let bl := blockedStreams s c
  running s c && decide (bl ≠ []) &&
    (List.range 5).all (fun k => (x.stream k).ended || atTarget s c k || bl.any (fun p => decide (p.1 = k))) &&
    x.flight.isEmpty && !s.ckptReq c &&
    !(x.records.any (fun r => decide (r.owner ≠ s.cmdOwner c) && bl.any (fun p => decide (sget 0 r.p (wWctr p.2) ≠ 0))))

/-- STARVED_FAULT (R194, R180): the blocked instruction of the lowest ENGINE code is recorded, the others are counted. DESIGN CHOICE: of
two blocked instructions of that code the one of the lower stream is recorded. A reblow run first applies the debug writes of a halt point
it stands at (R415). -/
def execStarvedFault (core : Fin 96) (s0 : State) : Out :=
  let c := core.val
  let s := replay s0 c
  if !starved s c then .next s0
  else .next (stepFaults s c ((blockedStreams s c).map (fun p => (wEng p.2, s.nextWord c p.1, .plain 0x0301))))

end Sys2Proof.Machine
end

