-- ==== Sys2Proof/Machine/LehrA.lean ====
section
/-! DEFINITION. Lehr A (R405-R431, R440-R443, R451, R452): the comparator, its view of each frame and the selection, tie-breaks, and the
window watchdogs. -/

namespace Sys2Proof.Machine

/-! ## Watchdogs (R441-R443) -/

/-- LEHRA_WDCFGn. -/
def wdCfg (s : State) (n : Nat) : Word := s.reg (Reg.lehraWdcfg n)

/-- A stage that can be violated: enabled, with CLOSE beyond OPEN (R452). -/
def wdArmed (s : State) (n : Nat) : Bool :=
  bitAt (wdCfg s n) 58 && decide (fld (wdCfg s n) 0 27 < fld (wdCfg s n) 27 27)

/-- SRC of a stage. -/
def wdSrc (s : State) (n : Nat) : Nat := fld (wdCfg s n) 54 3

/-! ## Frames (R422-R424) -/

/-- Lehr A makes selections: EN is 1, the comparator test has passed, nothing holds the cores, and Lehr A runs (R424, R440, R444, R448). -/
def selecting (s : State) : Bool :=
  s.regBit Reg.lehraSelcfg 22 && s.regBit Reg.lehraStat 1 && !s.regBit Reg.resetStat 7 && s.lehrB.lehrARuns

/-- LEHRA_STAT.LEHRBOK. -/
def State.lehrBOk (s : State) : Bool := s.regBit Reg.lehraStat 3

/-- The comparison of a member's command agrees: every program's does (R419). -/
def Member.agrees (m : Member) : Bool := (List.range m.nprog).all (fun i => m.agreed.contains i)

/-- The members the plan command's commit requires, each of which has a property; false before that commit (R423 condition 2). -/
def FrameSel.requiredAll (x : FrameSel) (p : Member → Bool) : Bool :=
  match x.plan with
  | some (req, _) => req.all (fun k => x.members.any (fun m => decide (m.key = k) && p m))
  | none => false

/-- R423 conditions 1 and 2: the plan command has committed, and the members its commit requires have committed and agree. -/
def requiredOk (x : FrameSel) : Bool := x.requiredAll (fun m => decide (m.st = .committed) && m.agrees)

/-- SIGOK (R426): the plan command has committed and every comparison its commit requires agreed. -/
def sigOk (x : FrameSel) : Bool := x.requiredAll Member.agrees

/-- R423: the main output is eligible, Lehr B being present or not. -/
def FrameSel.eligible (x : FrameSel) (lehrBOk : Bool) : Bool :=
  requiredOk x && !x.wdviol && (!lehrBOk || decide (x.verdict = some .pass) || decide (x.verdict = some .unchecked))

/-- What a frame's view decides (R424): MAIN, FALLBACK, or nothing yet; refusal wins. -/
def FrameSel.choice (x : FrameSel) (lehrBOk timeout : Bool) : Option Bool :=
  if x.refused then some false else if x.eligible lehrBOk then some true else if timeout then some false else none

/-- Every crucible and the sensor die serve: while one is lost the fallback plan carries the vehicle-facing output (R35, R447). -/
def mainServed (s : State) : Bool :=
  (List.range 4).all (fun k => !crucDown s k) && !inReset s (4, 0) && !s.lehrA.silent.contains .sensorDie

/-- What Lehr A decides on a frame. -/
def choiceOf (s : State) (x : FrameSel) (timeout : Bool) : Option Bool :=
  if mainServed s then x.choice s.lehrBOk timeout else if x.refused || timeout then some false else none

/-- The fallback plan that is ready for a frame: its own, else the one of the frame before (R439). -/
def readyPlan (s : State) (f : Nat) : Option FbPlan :=
  match s.lehrB.plans.find? (fun p => decide (p.frame = f)) with
  | some p => some p
  | none => s.lehrB.plans.find? (fun p => decide (p.frame = (f + 2 ^ 32 - 1) % 2 ^ 32))

/-- Where the fallback plan of a frame lies (R438). -/
def fbAddr (s : State) (f : Nat) : Nat := s.regFld Reg.lehrbFbbase 10 38 * 1024 + f % 2 * 0x200

/-- The selection detail of R426. -/
def selDetail (s : State) (x : FrameSel) (timeout : Bool) (fb : Option FbPlan) : Nat :=
  let b (i : Nat) (p : Bool) : Nat := if p then 2 ^ i else 0
  b 0 (sigOk x) + b 1 x.verdict.isSome + b 2 (decide (x.verdict = some .pass)) +
    b 3 (!s.lehrBOk || decide (x.verdict = some .unchecked)) + b 4 x.wdviol + b 5 timeout + b 6 x.cmdFail + b 7 x.debug +
    b 8 (match fb with
      | some p => p.vnet
      | none => false) +
    b 9 (x.verdict.isSome && s.regBit Reg.lehrbStat 1) +
    b 10 (match fb with
      | some p => p.blocked
      | none => false)

/-- What SELLAST.SOURCE reports. -/
def SelSource.code : SelSource → Nat
  | .main => 1
  | .fallback => 2
  | .none => 3

/-! ## Vehicle-network messages (R440) -/

/-- The CAN controllers of a Lehr die are on: DBR is 0 to 4. -/
def canOn (w : Word) : Bool := decide (fld w 33 3 ≤ 4)

/-- The identifier of a message: 29 bits with XTD, otherwise 11 (R452). -/
def canId (cfg : Word) (off : Nat) : Nat := (fld cfg 0 29 + off) % (if bitAt cfg 29 then 2 ^ 29 else 2 ^ 11)

/-- A message sent by both controllers of a die. DEDUCED: an 11-bit identifier is the low bits of ID. -/
def sendCan (s : State) (lehr : Nat) (cfg : Word) (off : Nat) (bytes : List Byte) : State :=
  if canOn cfg then { s with canOut := s.canOut ++ [⟨lehr, bitAt cfg 29, bitAt cfg 32, fld cfg 33 3, canId cfg off, bytes⟩] } else s

/-- Why Lehr B's plan message carries ACTIVE for the current frame (R440). -/
def activeAsked (s : State) : Bool :=
  (match (s.frameSel s.frmcnt).sel with
    | some x => decide (x.source ≠ .main)
    | none => false) ||
  s.regBit Reg.lehraStat 2 || s.regBit Reg.resetStat 7 || !s.lehrB.lehrARuns || !s.regBit Reg.lehraStat 4

/-- LEHRB_STAT.ACTIVE follows. -/
def syncActive (s : State) : State := s.setRegBit Reg.lehrbStat 2 (activeAsked s)

/-- A plan record with ACTIVE set and its CRC made anew (R434, R440). -/
def activeRecord (bs : List Byte) : List Byte :=
  let b1 := bs.set 19 (bs.getD 19 0#8 ||| 1#8)
  let n := 32 + 16 * leAt b1 16 2
  let crc := crc32c (b1.take 28 ++ (b1.take n).drop 32)
  b1.take 28 ++ leBytes 4 crc ++ b1.drop 32

/-- Lehr B's plan message: eight frames of 64 bytes, padded with zeros (R440). -/
def planMessage (s : State) (p : FbPlan) : State :=
  let s1 := syncActive s
  let bs := if activeAsked s then activeRecord p.bytes else p.bytes
  let padded := bs ++ List.replicate (512 - bs.length) 0#8
  (List.range 8).foldl (fun s i => sendCan s 1 (s.reg Reg.lehrbVncfg) i (sliceBytes padded (64 * i) 64)) s1

/-- The CRC field of the selected plan: free where none is selected or it cannot be read. -/
def selCrc (s : State) (src : SelSource) (addr : Nat) (fb : Option FbPlan) : State × Nat :=
  match src, fb with
  | .main, _ =>
    match readBytes s (addr + 28) 4 with
    | some bs => (s, leNat bs)
    | none => (s.nextFresh, (Config.planCrc s.fresh).toNat)
  | .fallback, some p => (s, leAt p.bytes 28 4)
  | _, _ => (s.nextFresh, (Config.planCrc s.fresh).toNat)

/-- Lehr A's selection message (R440). -/
def selectionMessage (s : State) (f : Nat) (src : SelSource) (detail addr : Nat) (fb : Option FbPlan) : State :=
  let c := selCrc s src addr fb
  sendCan c.1 0 (s.reg Reg.lehraVncfg) 0
    (leBytes 4 f ++ leBytes 1 (src.code - 1) ++ leBytes 1 0 ++ leBytes 2 detail ++ leBytes 4 c.2 ++ leBytes 4 (s.now % 2 ^ 32))

/-! ## Violations and kicks -/

/-- A stage violated in the current frame (R442, R443): logged, counted, and with ACTION 1 the frame's main output is refused. -/
def violate (s : State) (n code last : Nat) : State :=
  let f := s.frmcnt
  let off := Reg.lehraWdstat n
  let first := !s.lehrA.violated.contains n
  let s1 := s.logLehrA code (0x80 + n) f
  let s2 := ((s1.bumpSat off 0 16).setRegFld off 24 2 last).setRegFld off 32 32 f
  let s3 := if first then { (s2.bumpSat off 16 8) with lehrA := { s2.lehrA with violated := s2.lehrA.violated ++ [n] } } else s2
  let s4 := if bitAt (wdCfg s n) 57 then setFrameSel s3 { s3.frameSel f with refused := true, wdviol := true } else s3
  let esc := s.regFld (Reg.lehraWdsrc n) 24 8
  if first ∧ esc ≠ 0 ∧ esc ≤ s4.regFld off 16 8 then startReset 7 0 8 false (s4.logLehrA 0x060A (0x80 + n) f) else s4

/-- A stage's window closes without a kick (R442); once in a frame. -/
def closeStage (s : State) (n : Nat) : State :=
  if wdArmed s n ∧ !s.lehrA.kicked.contains n ∧
      !(s.lehrA.violated.contains n ∧ s.regFld (Reg.lehraWdstat n) 24 2 = 2) then violate s n 0x0608 2
  else s

/-- A stage's window is over: the boundary plus CLOSE has come (R441). -/
def windowOver (s : State) (n : Nat) : Bool := decide (s.regFld Reg.devFrmstart 0 64 + fld (wdCfg s n) 27 27 ≤ s.now)

/-- A stamped kick of a stage for the current frame (R441, R442); one that comes after the window first finds it closed. -/
def kickStage (s0 : State) (n : Nat) : State :=
  let s := if windowOver s0 n then closeStage s0 n else s0
  if !bitAt (wdCfg s n) 58 then s
  else
    let seen := s.lehrA.kicked.contains n
    let s1 := if seen then s else { s with lehrA := { s.lehrA with kicked := s.lehrA.kicked ++ [n] } }
    if !wdArmed s n then s1
    else
      let early := decide (s.now < s.regFld Reg.devFrmstart 0 64 + fld (wdCfg s n) 0 27)
      let s2 := if early then violate s1 n 0x0607 1 else s1
      if seen then violate s2 n 0x0609 3 else s2

/-- Kicks of every enabled stage with a source that a test accepts. -/
def kickStages (s : State) (src : Nat) (p : Word → Bool) : State :=
  ((List.range 64).filter (fun n => bitAt (wdCfg s n) 58 && decide (wdSrc s n = src) && p (s.reg (Reg.lehraWdsrc n)))).foldl kickStage s

/-- Kicks of a source for a frame; for another frame than the current one they only count in LEHRA_WDSTRAY (R441). A lost Lehr A takes none (R35). -/
def kickFor (s : State) (f src : Nat) (p : Word → Bool) : State :=
  if !s.lehrB.lehrARuns then s
  else if f = s.frmcnt then kickStages s src p
  else
    let n := ((List.range 64).filter (fun n => bitAt (wdCfg s n) 58 && decide (wdSrc s n = src) && p (s.reg (Reg.lehraWdsrc n)))).length
    s.bump Reg.lehraWdstray n

/-- A new frame for the watchdogs (R442): LATE is judged at the boundary for every stage not kicked, and a stage without a violation breaks its
run of consecutive frames. -/
def closeWatchdogs (s : State) : State :=
  let s1 := (List.range 64).foldl closeStage s
  let s2 := ((List.range 64).filter (fun n => !s1.lehrA.violated.contains n)).foldl
    (fun s n => s.setRegFld (Reg.lehraWdstat n) 16 8 0) s1
  { s2 with lehrA := { s2.lehrA with kicked := [], violated := [] } }

/-! ## Selection (R424) -/

/-- The final selection of a frame: reported, kept, sent on the vehicle network, and kicking the stages with SRC 4. -/
def makeSelection (s : State) (x : FrameSel) (main timeout : Bool) : State :=
  let fb := if main then none else readyPlan s x.frame
  let src : SelSource := if main then .main else if fb.isSome then .fallback else .none
  let addr := match src, x.plan, fb with
    | .main, some (_, a), _ => a
    | .fallback, _, some p => if p.vnet then 0 else fbAddr s p.frame
    | _, _, _ => 0
  let recFrame := match fb with
    | some p => p.frame
    | none => x.frame
  let detail := selDetail s x timeout fb
  let s1 := setFrameSel s { x with sel := some ⟨src, detail, addr, recFrame⟩ }
  let w := setFld (setFld (setFld 0#64 0 32 x.frame) 32 2 src.code) 48 16 detail
  let s2 := (s1.setReg Reg.lehraSellast w).setReg (Reg.lehraSelhist (x.frame % 64)) w
  let s3 := if src = .fallback then s2.bump Reg.lehraFbcnt 1 else s2
  let s4 := selectionMessage s3 x.frame src detail addr fb
  let s5 := match src with
    | .main => match readBytes s4 addr 512 with
      | some bs => { s4 with lehrB := { s4.lehrB with mainPlan := some (x.frame, bs) } }
      | none => s4
    | _ => match fb with
      | some p => if s4.lehrBOk then planMessage s4 p else s4
      | none => s4
  syncActive (kickFor s5 x.frame 4 (fun _ => true))

/-- A frame judged again (R424): refusal wins over eligibility; nothing happens once a selection is made or for a frame that has ended. -/
def evalFrame (s : State) (f : Nat) : State :=
  let x := s.frameSel f
  if !selecting s || x.sel.isSome || newer32 s.frmcnt f then s
  else match choiceOf s x false with
    | some main => makeSelection s x main false
    | none => s

/-- The decision time of a frame (R424). -/
def decideFrame (s : State) (f : Nat) : State :=
  let s1 := evalFrame s f
  let x := s1.frameSel f
  if !selecting s1 || x.sel.isSome then s1
  else match choiceOf s1 x true with
    | some main => makeSelection s1 x main true
    | none => s1

/-- A violation with its consequence for the frame. -/
def violateEval (s : State) : State := evalFrame s s.frmcnt

/-! ## The frame set (R422, R423) -/

/-- A member of a frame set was consumed. -/
def addMember (s : State) (c : Cmd) (nprog : Nat) : State :=
  let x := s.frameSel c.frame
  setFrameSel s { x with members := x.members ++ [⟨c.key, nprog, .live, [], c⟩] }

/-- A member changed. -/
def mapMember (s : State) (f key : Nat) (g : Member → Member) : State :=
  let x := s.frameSel f
  setFrameSel s { x with members := x.members.map (fun m => if m.key = key then g m else m) }

/-- A frame-set command ended without commit (R423). -/
def memberFailed (s : State) (f key : Nat) : State :=
  let s1 := mapMember s f key (fun m => { m with st := .failed })
  evalFrame (setFrameSel s1 { s1.frameSel f with refused := true, cmdFail := true }) f

/-- A frame-set command commits. The first plan command of the frame fixes the plan and the commands whose comparisons the selection requires
(R422, R423). -/
def memberCommitted (s : State) (c : Cmd) : State :=
  let f := c.frame
  let s1 := mapMember s f c.key (fun m => { m with st := .committed, cmd := c })
  let x := s1.frameSel f
  let cfg := s1.reg Reg.lehraSelcfg
  let s2 := if x.plan.isNone && decide (c.op = 0x10) && decide (c.layer = fld cfg 4 12) then
      let addr := (c.args.getD (fld cfg 16 6) (0, 0)).1
      setFrameSel s1 { x with plan := some (x.members.map (·.key), addr) }
    else s1
  evalFrame s2 f

/-! ## The comparator (R417-R420, R428, R429) -/

/-- The report of a run, if it has arrived. -/
def reportOf (s : State) (key prog : Nat) (kind : RunKind) : Option RunReport :=
  s.lehrA.reports.find? (fun r => decide (cmdKey r.part r.seq = key) && decide (r.prog = prog) && decide (r.kind = kind))

/-- The signatures of a run among messages. -/
def runSigs (ms : List SigMsg) (key prog : Nat) (kind : RunKind) : List SigMsg :=
  ms.filter (fun m => decide (cmdKey m.part m.seq = key) && decide (m.prog = prog) && decide (m.kind = kind))

/-- The signatures of a run that Lehr A holds. -/
def sigsOf (s : State) (key prog : Nat) (kind : RunKind) : List SigMsg := runSigs s.lehrA.sigs key prog kind

/-- The messages of a run that were lost. -/
def lostOf (s : State) (key prog : Nat) (kind : RunKind) : List LostSig :=
  s.lehrA.lost.filter (fun m => decide (m.key = key) && decide (m.prog = prog) && decide (m.kind = kind))

/-- A run's signatures in order of their ordinals: SIGID and SIG. -/
def sigList (ms : List SigMsg) (n : Nat) : List (Option (Nat × Nat)) :=
  (List.range n).map (fun i => (ms.find? (fun m => decide (m.ord = i))).map (fun m => (m.sigid, m.sig)))

/-- Two runs agree (R419): neither faulted, they completed equally many STSIG, and their signatures are equal ordinal by ordinal. -/
def runsAgree (a b : RunReport) (ma mb : List SigMsg) : Bool :=
  decide (a.fault = 0) && decide (b.fault = 0) && decide (a.count = b.count) && decide (sigList ma a.count = sigList mb b.count)

/-- A run's report and all its signatures have arrived. -/
def runArrived (s : State) (key prog : Nat) (kind : RunKind) : Bool :=
  match reportOf s key prog kind with
  | some r => decide (r.count ≤ (sigsOf s key prog kind).length + (lostOf s key prog kind).length)
  | none => false

/-- Everything Lehr A holds of a run forgotten. -/
def forgetRun (s : State) (key prog : Nat) (kind : RunKind) : State :=
  { s with lehrA := { s.lehrA with
      sigs := s.lehrA.sigs.filter (fun m => !(decide (cmdKey m.part m.seq = key) && decide (m.prog = prog) && decide (m.kind = kind)))
      reports := s.lehrA.reports.filter (fun r => !(decide (cmdKey r.part r.seq = key) && decide (r.prog = prog) && decide (r.kind = kind)))
      lost := s.lehrA.lost.filter (fun m => !(decide (m.key = key) && decide (m.prog = prog) && decide (m.kind = kind))) } }

/-- A comparison of a frame-set program ends without agreement (R423). -/
def refuseFrame (s : State) (r : RunReport) : State :=
  match r.frame with
  | none => s
  | some f =>
    if (s.frameSel f).members.any (fun m => decide (m.key = cmdKey r.part r.seq)) then
      evalFrame (setFrameSel s { s.frameSel f with refused := true }) f
    else s

/-- The frame an event of a run concerns. -/
def runFrame (s : State) (r : RunReport) : Nat := r.frame.getD s.frmcnt

/-- Cores charged without counting a further event (R428). -/
def chargeAll (s : State) (cores : List Nat) (f : Nat) : State := cores.foldl (fun s c => chargeCore s c f) s

/-- A disagreeing comparison (R425, R428, R429): logged and counted; of a frame-set program it waits for a tie-break run that Bench may start,
of any other the record names the command and both cores are charged. -/
def disagree (s : State) (code : Nat) (a b : RunReport) (sa sb : List (Nat × Nat)) : State :=
  let f := runFrame s a
  let key := cmdKey a.part a.seq
  let s1 := (s.logLehrA code a.core f).bump Reg.lehraMismatch 1
  match (s1.frameSel f).members.find? (fun m => decide (m.key = key) && a.frame.isSome) with
  | some m =>
    { s1 with
      lehrA := { s1.lehrA with ties := s1.lehrA.ties ++ [⟨key, a.prog, f, a.core, b.core, sa, sb⟩] }
      bench := { s1.bench with ties := s1.bench.ties ++ [⟨m.cmd, a.prog, a.core, b.core, none⟩] } }
  | none => chargeAll (s1.raise code a.seq) [a.core, b.core] f

/-- The comparison of a program whose two runs have arrived whole (R419). -/
def compareRuns (s : State) (key prog : Nat) (a b : RunReport) : State :=
  let ma := sigsOf s key prog .main
  let mb := sigsOf s key prog .reblow
  let lost := lostOf s key prog .main ++ lostOf s key prog .reblow
  let s1 := (forgetRun (forgetRun s key prog .main) key prog .reblow).bump Reg.lehraCmpcnt 1
  match lost.head? with
  | some l => refuseFrame (s1.logLehrA l.code a.core (runFrame s a)) a
  | none =>
    if runsAgree a b ma mb then
      match a.frame with
      | some f => evalFrame (mapMember s1 f key (fun m => { m with agreed := m.agreed ++ [prog] })) f
      | none => s1
    else
      let code := if a.count = b.count then 0x0601 else 0x0602
      refuseFrame (disagree s1 code a b ((sigList ma a.count).filterMap id) ((sigList mb b.count).filterMap id)) a

/-- A reblow run has faulted after its main run ended without fault (R410): the reblow core is charged. -/
def reblowFault (s : State) (key prog : Nat) (a b : RunReport) : State :=
  let f := runFrame s a
  let s1 := (forgetRun (forgetRun s key prog .main) key prog .reblow).bump Reg.lehraCmpcnt 1
  refuseFrame (disagreement (s1.logLehrA 0x0604 b.core f) [b.core] f) a

/-- A tie-break run has arrived whole: the charge of R428. -/
def resolveTie (s : State) (key prog : Nat) (r : RunReport) : State :=
  match s.lehrA.ties.find? (fun t => decide (t.key = key) && decide (t.prog = prog)) with
  | none => forgetRun s key prog .tiebreak
  | some t =>
    let l := (sigList (sigsOf s key prog .tiebreak) r.count).filterMap id
    let clean := decide (r.fault = 0) && (lostOf s key prog .tiebreak).isEmpty
    let cores := if clean && decide (l = t.reblowSigs) then [t.main] else if clean && decide (l = t.mainSigs) then [t.reblow]
      else [t.main, t.reblow]
    let s1 := forgetRun s key prog .tiebreak
    chargeAll ({ s1 with lehrA := { s1.lehrA with ties := s1.lehrA.ties.filter (fun x => decide (x ≠ t)) } }.bump Reg.lehraCmpcnt 1)
      cores t.frame

/-- Disagreements whose tie-break did not run: both cores are charged (R428). -/
def dropTies (s : State) (p : TiePending → Bool) : State :=
  let gone := s.lehrA.ties.filter p
  let s1 := { s with
    lehrA := { s.lehrA with ties := s.lehrA.ties.filter (fun t => !p t) }
    bench := { s.bench with ties := s.bench.ties.filter (fun t =>
      !(gone.any (fun g => decide (g.key = t.cmd.key) && decide (g.prog = t.prog)))) } }
  gone.foldl (fun s t => chargeAll s [t.main, t.reblow] t.frame) s1

/-- Whatever comparison of a program has become complete is made. -/
def tryCompare (s : State) (key prog : Nat) : State :=
  match reportOf s key prog .tiebreak with
  | some r => if runArrived s key prog .tiebreak then resolveTie s key prog r else s
  | none =>
    match reportOf s key prog .main, reportOf s key prog .reblow with
    | some a, some b =>
      if a.fault = 0 ∧ b.fault ≠ 0 then reblowFault s key prog a b
      else if runArrived s key prog .main && runArrived s key prog .reblow then compareRuns s key prog a b else s
    | _, _ => s

/-- Whether two messages are the two runs' signatures of one instruction (R417, R419). -/
def counterparts (a b : SigMsg) : Bool :=
  decide (a.part = b.part) && decide (a.seq = b.seq) && decide (a.prog = b.prog) && decide (a.ord = b.ord) &&
    ((decide (a.kind = .main) && decide (b.kind = .reblow)) || (decide (a.kind = .reblow) && decide (b.kind = .main)))

/-- The unmatched messages that Lehr A holds (R420): those whose counterpart has not arrived. -/
def unmatched (s : State) : Nat := (s.lehrA.sigs.filter (fun m => !s.lehrA.sigs.any (counterparts m))).length

/-- A signature reaches Lehr A (R417, R420): discarded with a bad CRC or without room, otherwise held. -/
def takeSig (s : State) (m : SigMsg) (crcOk : Bool) : State :=
  let key := cmdKey m.part m.seq
  let lose (s : State) (code : Nat) : State :=
    { s with lehrA := { s.lehrA with lost := s.lehrA.lost ++ [⟨key, m.prog, m.kind, code⟩] } }
  let s1 := if !crcOk then lose (s.bump Reg.lehraSigbad 1) 0x0602
    else if 16384 ≤ unmatched s ∧ !s.lehrA.sigs.any (counterparts m) then lose (s.setRegBit Reg.lehraStat 11 true) 0x0603
    else { s with lehrA := { s.lehrA with sigs := s.lehrA.sigs ++ [m] } }
  tryCompare s1 key m.prog

/-- The reports on their way for a cancelled command's reblow runs that faulted, with those of their main runs that ended without fault (R410). -/
def reblowFaults (s : State) (key : Nat) : List (RunReport × RunReport) :=
  let mine := (s.lehrA.reports ++ s.bench.reports).filter (fun r => decide (cmdKey r.part r.seq = key))
  (s.bench.reports.filter (fun b => decide (cmdKey b.part b.seq = key) && decide (b.kind = .reblow) && decide (b.fault ≠ 0))).filterMap (fun b =>
    (mine.find? (fun a => decide (a.prog = b.prog) && decide (a.kind = .main) && decide (a.fault = 0))).map (fun a => (a, b)))

/-- What a cancelled command left at Lehr A and on its way there (R418). A REBLOW_FAULT that a report on its way brings is recorded first (R410). -/
def dropSigs (s0 : State) (key : Nat) : State :=
  let s := (reblowFaults s0 key).foldl (fun s p => reblowFault s key p.1.prog p.1 p.2) s0
  { s with
    sigOut := s.sigOut.filter (fun m => decide (cmdKey m.part m.seq ≠ key))
    bench := { s.bench with reports := s.bench.reports.filter (fun r => decide (cmdKey r.part r.seq ≠ key)) }
    lehrA := { s.lehrA with
      sigs := s.lehrA.sigs.filter (fun m => decide (cmdKey m.part m.seq ≠ key))
      reports := s.lehrA.reports.filter (fun r => decide (cmdKey r.part r.seq ≠ key))
      lost := s.lehrA.lost.filter (fun m => decide (m.key ≠ key)) } }

/-- A paired core works in split coverage in the current frame (R413): counted once per frame. -/
def noteSplit (s : State) : State :=
  if s.lehrA.splitFrame = some s.frmcnt then s
  else { (s.bump Reg.lehraSplitfr 1) with lehrA := { s.lehrA with splitFrame := some s.frmcnt } }

/-! ## Commands -/

/-- SIG (R417-R420): the oldest message on its way reaches Lehr A; it comes through crucible 0 (R43), and waits while that is in reset or Lehr A is
lost (R35). -/
def execSig (crcOk : Bool) (t : Nat) (s : State) : Out :=
  let s := s.at t
  match s.sigOut with
  | [] => .next s
  | m :: ms => if crucDown s 0 || !s.lehrB.lehrARuns then .next s else .next (takeSig { s with sigOut := ms } m crcOk)

/-- RUN_REPORT (R418): the oldest report on its way reaches Lehr A, after every signature of its run; it waits while Lehr A is lost (R35). -/
def execRunReport (t : Nat) (s : State) : Out :=
  let s := s.at t
  match s.bench.reports with
  | [] => .next s
  | r :: rs =>
    if !s.lehrB.lehrARuns then .next s
    else
      let s1 := { s with bench := { s.bench with reports := rs }, lehrA := { s.lehrA with reports := s.lehrA.reports ++ [r] } }
      .next (tryCompare s1 (cmdKey r.part r.seq) r.prog)

/-- DECISION_TIME (R424): the current frame's boundary plus SELCFG.DECIDE has come. -/
def execDecisionTime (t : Nat) (s : State) : Out :=
  let s := s.at t
  if s.now < s.regFld Reg.devFrmstart 0 64 + s.regFld Reg.lehraSelcfg 32 27 then .next s else .next (decideFrame s s.frmcnt)

/-- WATCHDOG_KICK (R441-R443): a write of LEHRA_WDKICK. -/
def execWatchdogKick (who : Ident) (stage : BitVec 6) (frame : BitVec 32) (t : Nat) (s : State) : Out :=
  let s := s.at t
  let n := stage.toNat
  let allowed := decide (who.val = 0) || decide (who.val = s.regFld (Reg.lehraWdsrc n) 0 4)
  if !s.lehrB.lehrARuns then .next s
  else if !allowed ∨ wdSrc s n ≠ 0 ∨ frame.toNat ≠ s.frmcnt then .next (s.bump Reg.lehraWdstray 1)
  else .next (violateEval (kickStage s n))

/-- WATCHDOG_CLOSE (R442, R443): the stage's CLOSE passes. -/
def execWatchdogClose (stage : BitVec 6) (t : Nat) (s : State) : Out :=
  let s := s.at t
  let n := stage.toNat
  if !windowOver s n || !s.lehrB.lehrARuns then .next s else .next (violateEval (closeStage s n))

/-! ## The comparator test (R444) -/

/-- A signature message of the test. -/
def testSig (kind : RunKind) (part seq sigid sig ord : Nat) : SigMsg := ⟨seq, part, kind, 0, sigid, sig, ord, 0, 0⟩

/-- A run report of the test. -/
def testReport (kind : RunKind) (count : Nat) : RunReport := ⟨5, 3, 0, kind, 0, count, 0, some 0⟩

/-- Whether injected messages and reports of a main and a reblow run make a comparison that agrees; none where it never completes. -/
def testCompare (ms : List SigMsg) (main reblow : Option RunReport) : Option Bool :=
  match main, reblow with
  | some a, some b => some (runsAgree a b (runSigs ms (cmdKey 3 5) 0 .main) (runSigs ms (cmdKey 3 5) 0 .reblow))
  | _, _ => none

/-- The command of the test's frame set. -/
def testCmd : Cmd :=
  ⟨3, 5, 0, 0, [], .waiting, 0, false, false, none, none, none, [], [], false, none, none, false, false, [], false, [], [], 0, 0, none, [], none⟩

/-- The view of a frame whose plan command has committed, after the outcome of its comparison. -/
def testFrame (agreed : Option Bool) (verdict : Option Verdict) (failed late : Bool) : FrameSel :=
  ⟨0, [⟨0, 1, if failed then .failed else .committed, if agreed = some true then [0] else [], testCmd⟩], some ([0], 0), verdict,
    decide (agreed = some false) || decide (verdict = some .fail) || failed || late, late, failed, false, none⟩

/-- The main run's message of an injected pair, and the other's. -/
def testPair (m : SigMsg) : List SigMsg := [testSig .main 3 5 7 0x5A5A0F0F 0, m]

/-- The injected pairs that must differ: in one bit of SIG, in SIGID, ORD, PART or SEQ. -/
def differingPairs : List (List SigMsg) :=
  (List.range 32).map (fun i => testPair (testSig .reblow 3 5 7 (0x5A5A0F0F ^^^ 2 ^ i) 0)) ++
    [testPair (testSig .reblow 3 5 8 0x5A5A0F0F 0), testPair (testSig .reblow 3 5 7 0x5A5A0F0F 1), testPair (testSig .reblow 4 5 7 0x5A5A0F0F 0),
      testPair (testSig .reblow 3 6 7 0x5A5A0F0F 0)]

/-- The injected pairs that must agree. -/
def agreeingPairs : List (List SigMsg) :=
  (List.range 16).map (fun i => [testSig .main 3 5 i (0x1234567 * i) 0, testSig .reblow 3 5 i (0x1234567 * i) 0])

/-- The comparator and the selector on the injected inputs of R444: every difference is detected, every agreeing input accepted, each refusal yields
FALLBACK and the agreeing case MAIN, the UNCHECKED one with it; a comparison that never completes leaves the choice to the decision time. -/
def comparatorSound : Bool :=
  let r (k : RunKind) (n : Nat) : Option RunReport := some (testReport k n)
  let same := testPair (testSig .reblow 3 5 7 0x5A5A0F0F 0)
  differingPairs.all (fun ms => decide (testCompare ms (r .main 1) (r .reblow 1) = some false)) &&
    decide (testCompare same (r .main 1) (r .reblow 2) = some false) && decide (testCompare same (r .main 1) none = none) &&
    agreeingPairs.all (fun ms => decide (testCompare ms (r .main 1) (r .reblow 1) = some true)) &&
    decide ((testFrame (some true) (some .pass) false false).choice true false = some true) &&
    decide ((testFrame (some true) (some .unchecked) false false).choice true false = some true) &&
    decide ((testFrame none (some .pass) false false).choice true false = none) &&
    decide ((testFrame none (some .pass) false false).choice true true = some false) &&
    [testFrame (some false) (some .pass) false false, testFrame (some true) (some .fail) false false, testFrame (some true) (some .pass) true false,
      testFrame (some true) (some .pass) false true].all (fun x => decide (x.choice true false = some false))

/-- COMPARATOR_TEST (R444, R445): one run of the test, which a fault of the hardware can make fail as well (`pass`); the third failure in a row is final
until a cold reset: CMPFAIL, and RESET_STAT.HOLD (R573). -/
def execComparatorTest (pass : Bool) (s : State) : Out :=
  if s.regBit Reg.lehraStat 1 || s.regBit Reg.lehraStat 2 || !s.lehrB.lehrARuns then .next s
  else
    let s1 := s.bump Reg.lehraCmptest 1
    if pass && comparatorSound then .next ({ (s1.setRegBit Reg.lehraStat 1 true) with lehrA := { s1.lehrA with cmpFails := 0 } })
    else
      let n := s1.lehrA.cmpFails + 1
      let s2 := { s1 with lehrA := { s1.lehrA with cmpFails := n } }
      if n < 3 then .next s2
      else .next (syncActive (((s2.logLehrA 0x060C 0xFF s2.frmcnt).setRegBit Reg.lehraStat 2 true).setRegBit Reg.resetStat 7 true))

/-- LEHRA_EVLOG_READ (R451, R452): the oldest event is read and removed. -/
def execLehraEvlogRead (s : State) : Out :=
  .next { s with readData := s.lehrA.log.head, lehrA := { s.lehrA with log := s.lehrA.log.pop } }

end Sys2Proof.Machine
end

