-- ==== Sys2Proof/Machine/Rings.lean ====
section
/-! DEFINITION. The Bomus rings (R323-R331, R356-R361, R367-R370): doorbells, the states of a ring, completion records, BAR4, and the functions
that own rings. -/

namespace Sys2Proof.Machine

/-! ## A ring's registers -/

/-- BOMUS_RSTATn.STATE: 0 DISABLED, 1 ACTIVE, 2 DRAINING, 3 ERROR. -/
def ringSt (s : State) (n : Nat) : Nat := s.regFld (Reg.bomusRstat n) 0 2

/-- A ring put into a state. -/
def setRingSt (s : State) (n x : Nat) : State := s.setRegFld (Reg.bomusRstat n) 0 2 x

/-- BOMUS_RCFGn.OWNER. -/
def ringOwner (s : State) (n : Nat) : Nat := s.regFld (Reg.bomusRcfg n) 2 4

/-- Entries of the submission ring. -/
def sqSize (s : State) (n : Nat) : Nat := 2 ^ s.regFld (Reg.bomusRcfg n) 6 5

/-- Records of the completion ring. -/
def cqSize (s : State) (n : Nat) : Nat := 2 ^ s.regFld (Reg.bomusRcfg n) 11 5

/-- The counts of a ring. -/
def sqHead (s : State) (n : Nat) : Nat := s.regFld (Reg.bomusSqhead n) 0 32
/-- The last accepted SQ tail. -/
def sqTail (s : State) (n : Nat) : Nat := s.regFld (Reg.bomusSqtail n) 0 32
/-- Records written. -/
def cqTail (s : State) (n : Nat) : Nat := s.regFld (Reg.bomusCqtail n) 0 32
/-- The last accepted CQ head. -/
def cqHead (s : State) (n : Nat) : Nat := s.regFld (Reg.bomusCqhead n) 0 32

/-- PCIE_FNSTATp.ENABLED. -/
def fnEnabled (s : State) (p : Nat) : Bool := s.regBit (Reg.pcieFnstat p) 0

/-- The host die's reset in progress (R562): only the link keeper answers. -/
def hostDieDown (s : State) : Bool := inReset s (7, 0)

/-- PCIE_FNSTATp.RINGS follows the rings' owners: a function that is not enabled owns none (R324). -/
def syncRings (s : State) : State :=
  (List.range 16).foldl (fun s p =>
    let n := ((List.range 256).filter (fun r => decide (ringOwner s r = p))).length
    s.setRegFld (Reg.pcieFnstat p) 8 8 (if fnEnabled s p then min 255 n else 0)) s

/-! ## States (R331) -/

/-- An opcode without tile programs that nothing withdraws once it has started (R363). -/
def firmwareOp (op : Nat) : Bool :=
  [0x01, 0x12, 0x13, 0x30, 0x50, 0x60, 0x61].contains op

/-- Whether an abort ends a live command (R362, R363). -/
def abortable (c : Cmd) : Bool :=
  decide (c.op ≠ 0x02) && decide (c.st ≠ .cancelling) &&
    (!firmwareOp c.op || decide (c.st = .waiting) || decide (c.st = .ready))

/-- A draining or failed ring whose last command has gone becomes DISABLED. -/
def ringSettle (s : State) (n : Nat) : State :=
  let st := ringSt s n
  if (st = 2 ∨ (st = 3 ∧ !s.regBit (Reg.bomusRcfg n) 0)) ∧ ringCmds s n = [] then setRingSt s n 0 else s

/-- A ring enters ERROR: its live commands are aborted, and no further record is written. -/
def ringError (s : State) (n : Nat) : State :=
  let cs := ringCmds s n
  let s1 := setRingSt s n 3
  let s2 := { s1 with bench := { s1.bench with cmds := s1.bench.cmds.map (fun c => if c.ring = n then { c with noRecord := true } else c) } }
  (cs.filter abortable).foldl (fun s c => markCancel c.key 0x0111 s) s2

/-- A ring's registers but OWNER at their reset values (R331): its STATE is then DISABLED. -/
def resetRing (s : State) (n : Nat) : State :=
  let o := ringOwner s n
  (s.resetRegs (Reg.bomusRcfg n) (Reg.bomusRcfg n + 0x1000)).setRegFld (Reg.bomusRcfg n) 2 4 o

/-- The owner's function or the host die is reset: its commands are cancelled without records, its rings DISABLED (R331, R370). -/
def resetFunction (s : State) (p : Nat) : State :=
  let keys := (s.bench.cmds.filter (fun c => decide (c.part = p))).map Cmd.key
  let s1 := { s with bench := { s.bench with
    cmds := s.bench.cmds.map (fun c => if c.part = p then { c with noRecord := true } else c) } }
  let s2 := keys.foldl (fun s k => markCancel k 0x0112 s) s1
  let rings := (List.range 256).filter (fun n => decide (ringOwner s n = p))
  let s3 := rings.foldl resetRing s2
  (rings.foldl syncLive { s3 with bench := { s3.bench with lastSet := s3.bench.lastSet.filter (fun n => !rings.contains n) } })

/-! ## Completion records (R356-R361) -/

/-- What goes to the host. -/
def State.toHost (s : State) (m : HostMsg) : State := { s with bench := { s.bench with hostOut := s.bench.hostOut ++ [m] } }

/-- The 32 bytes of a record (R356); `done` is the time of the commit, or of the end without commit. -/
def recordBytes (s : State) (n : Nat) (entry : List Byte) (status result : Nat) (spec : Bool) (done : Nat) : List Byte :=
  let gen := (cqTail s n / cqSize s n + 1) % 2
  let flags := gen + (if s.lehrBOk then 0 else 2) + (if spec then 4 else 0)
  let frame := if bitsOf (leAt entry 1 1) 3 1 = 1 then leAt entry 8 4 else 0
  sliceBytes entry 4 4 ++ leBytes 2 status ++ leBytes 1 flags ++ sliceBytes entry 0 1 ++ leBytes 8 done ++ leBytes 8 result ++
    leBytes 4 frame ++ leBytes 4 (sqHead s n)

/-- A record written and its MSI-X message sent (R358, R361); none on a ring in ERROR or DISABLED (R331). -/
def writeRecord (s : State) (n : Nat) (entry : List Byte) (status result : Nat) (spec : Bool) (done : Nat) : State :=
  if ringSt s n = 0 ∨ ringSt s n = 3 then s
  else
    let a := s.regFld (Reg.bomusCqbase n) 12 52 * 4096 + cqTail s n % cqSize s n * 32
    let o := ringOwner s n
    let s1 := s.toHost (.write o a (recordBytes s n entry status result spec done))
    let s2 := s1.setRegFld (Reg.bomusCqtail n) 0 32 ((cqTail s n + 1) % 2 ^ 32)
    if bitsOf (leAt entry 1 1) 0 1 = 1 then s2.toHost (.msix o (s.regFld (Reg.bomusRcfg n) 16 6)) else s2

/-! ## Doorbells (R326, R329) -/

/-- A doorbell value that R329 does not accept. -/
def badDoorbell (s : State) (n : Nat) : State :=
  let s1 := s.setRegBit (Reg.bomusRstat n) 4 true
  if ringSt s n = 1 ∨ ringSt s n = 2 then ringError s1 n else s1

/-- A value written to the SQ tail doorbell of a ring (R329). -/
def writeSqTail (s : State) (n v : Nat) : State :=
  if countDiff v (sqHead s n) ≤ sqSize s n ∧ !newer32 (sqTail s n) v then s.setRegFld (Reg.bomusSqtail n) 0 32 v else badDoorbell s n

/-- A value written to the CQ head doorbell of a ring (R329). -/
def writeCqHead (s : State) (n v : Nat) : State :=
  if countDiff v (cqHead s n) ≤ cqSize s n ∧ countDiff (cqTail s n) v ≤ cqSize s n then s.setRegFld (Reg.bomusCqhead n) 0 32 v
  else badDoorbell s n

/-- A BAR2 write at offset `page` of ring n's doorbell page, which lies at BAR2 offset 0x1000 n (R21, R326, R329); the page's other offsets
are reserved. -/
def bar2Write (s : State) (fn n page : Nat) (aligned32 : Bool) (v : Nat) : State :=
  if !aligned32 ∨ fn ≠ ringOwner s n then s.setRegBit (Reg.bomusRstat n) 7 true
  else if page = 0x000 then writeSqTail s n v
  else if page = 0x008 then writeCqHead s n v
  else s

/-- What a host read brings back: its bytes, and whether it carries the poisoned-data indication. -/
def hostAnswer (s : State) (poisoned : Bool) (bs : List Byte) : State :=
  { s with fab := { s.fab with lastResp := some ⟨0x64, 0, poisoned, bs, 0#32⟩ } }

/-- A BAR2 access (R21, R326): a write, or a read, which returns zero. -/
def bar2Access (s : State) (fn : Fin 16) (ring : Fin 256) (page : BitVec 12) (aligned32 : Bool) (v : Option (BitVec 32)) : State :=
  match v with
  | some w => if hostDieDown s then s else bar2Write s fn.val ring.val page.toNat aligned32 w.toNat
  | none => hostAnswer s false (List.replicate 4 0#8)

/-- SQ_TAIL_DOORBELL (R21, R326, R329): an access to ring `ring`'s doorbell page at offset `page`: a write, or a read where there is no value. -/
def execSqTailDoorbell (fn : Fin 16) (ring : Fin 256) (place : Bar2Place) (v : Option (BitVec 32)) (s : State) : Out :=
  .next (bar2Access s fn ring place.page place.aligned32 v)

/-- CQ_HEAD_DOORBELL (R21, R326, R329): an access to the same page. -/
def execCqHeadDoorbell (fn : Fin 16) (ring : Fin 256) (place : Bar2Place) (v : Option (BitVec 32)) (s : State) : Out :=
  .next (bar2Access s fn ring place.page place.aligned32 v)

/-! ## Enabling, disabling, failing -/

/-- Who writes a ring's registers: its owner, partition 0 and Gaffer firmware (R327). -/
def ringWriter (s : State) (who : Ident) (n : Nat) : Bool :=
  mgmt who || decide (who.val = ringOwner s n)

/-- RING_ENABLE (R331). -/
def execRingEnable (who : Ident) (ring : Fin 256) (s : State) : Out :=
  let n := ring.val
  let cfg := s.reg (Reg.bomusRcfg n)
  let okSize (v : Nat) : Bool := decide (4 ≤ v) && decide (v ≤ 16)
  if !ringWriter s who n ∨ ringSt s n ≠ 0 ∨ hostDieDown s then .next s
  else if !okSize (fld cfg 6 5) || !okSize (fld cfg 11 5) || !fnEnabled s (ringOwner s n) then
    .next ((s.setRegBit (Reg.bomusRstat n) 3 true).setRegBit (Reg.bomusRcfg n) 0 false)
  else
    let s1 := [Reg.bomusSqhead n, Reg.bomusSqtail n, Reg.bomusCqtail n, Reg.bomusCqhead n, Reg.bomusLastseq n].foldl
      (fun s r => s.setReg r 0#64) (s.setRegBit (Reg.bomusRcfg n) 0 true)
    .next (setRingSt { s1 with bench := { s1.bench with lastSet := s1.bench.lastSet.filter (fun x => decide (x ≠ n)) } } n 1)

/-- RING_DISABLE (R331). -/
def execRingDisable (who : Ident) (ring : Fin 256) (s : State) : Out :=
  let n := ring.val
  if !ringWriter s who n ∨ hostDieDown s then .next s
  else
    let s1 := s.setRegBit (Reg.bomusRcfg n) 0 false
    .next (ringSettle (if ringSt s n = 1 then setRingSt s1 n 2 else s1) n)

/-- ENTRY_READ_ERROR (R331): the host read of the next entry fails. -/
def execEntryReadError (ring : Fin 256) (s : State) : Out :=
  let n := ring.val
  if ringSt s n ≠ 1 ∨ sqHead s n = sqTail s n then .next s
  else .next (ringError (s.setRegBit (Reg.bomusRstat n) 5 true) n)

/-- RECORD_WRITE_REFUSED (R331). -/
def execRecordWriteRefused (ring : Fin 256) (s : State) : Out :=
  let n := ring.val
  if ringSt s n ≠ 1 ∧ ringSt s n ≠ 2 then .next s
  else .next (ringError (s.setRegBit (Reg.bomusRstat n) 6 true) n)

/-! ## BAR4 (R325, R360, R527) -/

/-- A request of the host die for function p (R456). -/
def hostReq (p cls : Nat) (owner : Option Nat) : Req := ⟨0x64, p, false, cls, owner⟩

/-- The device address of a BAR4 offset. -/
def bar4Addr (s : State) (p off : Nat) : Nat := s.regFld (Reg.pcieFncfg p) 0 1 * 2 ^ 36 + off

/-- BAR4_READ (R325, R527, R562): `lenm1` is the number of bytes less one. A poisoned response completes with ones and the poisoned-data indication. It
waits while a map is being installed (R524). -/
def execBar4Read (fn : Fin 16) (off : BitVec 36) (lenm1 : BitVec 12) (ecc : MemEcc) (s : State) : Out :=
  let p := fn.val
  let n := lenm1.toNat + 1
  let ones : List Byte := List.replicate n 0xFF#8
  if hostDieDown s then .next (hostAnswer s false ones)
  else if mapHolds s then .next s
  else
    let r := devRead s (hostReq p 2 none) ecc (bar4Addr s p off.toNat) n
    match r.2 with
    | .ok bs => .next (hostAnswer r.1 false bs)
    | .error .refused => .next (hostAnswer (r.1.bump (Reg.pcieBar4ref p) 1) true ones)
    | .error _ => .next (hostAnswer r.1 true ones)

/-- BAR4_WRITE (R325, R562). -/
def execBar4Write (fn : Fin 16) (off : BitVec 36) (bytes : List (BitVec 8)) (s : State) : Out :=
  let p := fn.val
  if hostDieDown s ∨ mapHolds s then .next s
  else
    let r := devWrite s (hostReq p 2 none) .clean (bar4Addr s p off.toNat) bytes
    match r.2 with
    | some .refused => .next (r.1.bump (Reg.pcieBar4ref p) 1)
    | _ => .next r.1

/-! ## Functions (R324, R370) -/

/-- The sequences of a partition freed as FREE would (R242). -/
def freeSequences (s : State) (p : Nat) : State :=
  (List.range 4).foldl (fun s k => (List.range 256).foldl (fun s i =>
    if seqLive s k i ∧ seqPart s k i = p then freeSeq s k i else s) s) s

/-- A partition under function-level reset whose last command has gone: its sequences are freed, and the domain is released (R242, R551). -/
def settleFunction (s : State) (p : Nat) : State :=
  if s.rst.domains.any (fun d => decide (d.kind = 6) && decide (d.index = p)) ∧
      !(s.bench.cmds.any (fun c => decide (c.part = p))) then releaseDomains (freeSequences s p)
  else s

/-- FUNCTION_LEVEL_RESET (R370, R331, R242, R551): cancels p's commands and disables its rings; its sequences are freed once the commands have
gone. -/
def execFunctionLevelReset (fn : Fin 16) (t : Nat) (s : State) : Out :=
  let s := s.at t
  let p := fn.val
  let s1 := resetFunction (startReset 6 p 7 false s) p
  .next (settleFunction (s1.bumpSat (Reg.pcieFnstat p) 16 16) p)

/-- VIRTUAL_FUNCTION_ENABLE (R324): function 0 is the physical function and stays as the link leaves it. -/
def execVirtualFunctionEnable (fn : Fin 16) (on : Bool) (s : State) : Out :=
  let p := fn.val
  if p = 0 then .next s
  else
    let s1 := if on then s else resetFunction s p
    .next (syncRings (s1.setRegBit (Reg.pcieFnstat p) 0 on))

end Sys2Proof.Machine
end

