-- ==== Sys2Proof/Machine/Entry.lean ====
section
/-! DEFINITION. Consuming a ring entry (R330, R332-R351, R355), and the start conditions of a command (R374, R386, R393). -/

namespace Sys2Proof.Machine

/-! ## Reserved bits (R333) -/

/-- RUN_LAYER, RUN_KERNEL, COPY and FILL, to which the scheduling fields apply. -/
def schedOp (op : Nat) : Bool := [0x10, 0x11, 0x20, 0x21].contains op

/-- The fields of an entry's header that an opcode uses: first bit and width. -/
def headerFields (op : Nat) : List (Nat × Nat) :=
  [(0, 8), (8, 1), (16, 2), (32, 32)] ++ (if op = 0x02 then [] else [(9, 1)]) ++
    (if schedOp op then [(10, 1), (12, 1), (24, 4), (96, 32)] else []) ++
    (if schedOp op || decide (op = 0x40) then [(11, 1), (64, 32)] else [])

/-- The reservation fields of R339. -/
def kvFields : List (Nat × Nat) := [(256, 10), (272, 16), (288, 3), (296, 8), (304, 8), (320, 16)]

/-- The payload fields that a SEQ_OP of one OP uses (R347). -/
def seqOpFields (op : Nat) : List (Nat × Nat) :=
  [(128, 4), (160, 32), (192, 64)] ++
    (if op = 1 ∨ op = 5 then [(136, 2)] else if op = 2 ∨ op = 3 ∨ op = 4 then [(144, 10)] else [(136, 2), (144, 10)])

/-- The payload fields that a SENSOR_MGMT of one KIND uses (R349). -/
def sensorFields (kind : Nat) : List (Nat × Nat) :=
  [(128, 8), (136, 8), (160, 32), (192, 16), (256, 64)] ++
    (if kind = 1 ∨ kind = 2 then [(144, 7)] else if kind = 3 ∨ kind = 4 then [(144, 5)]
      else if kind = 5 ∨ kind = 6 then [(144, 5), (152, 8)] else [(144, 8), (152, 8)])

/-- The payload fields of an entry. -/
def payloadFields (e : List Byte) (op : Nat) : List (Nat × Nat) :=
  match op with
  | 0x02 => [(128, 32), (160, 8)]
  | 0x10 => [(128, 16), (144, 8), (160, 32), (192, 48)] ++ kvFields
  | 0x11 => [(144, 8), (160, 32), (192, 48), (384, 48)] ++ kvFields
  | 0x12 => [(128, 16), (192, 48)]
  | 0x13 => [(128, 16)]
  | 0x20 => [(128, 64), (192, 64), (256, 32), (288, 2)]
  | 0x21 => [(192, 64), (256, 32), (320, 64)]
  | 0x30 => seqOpFields (bitsOf (leAt e 16 1) 0 4)
  | 0x50 => sensorFields (leAt e 16 1)
  | 0x60 => [(192, 64)]
  | 0x61 => [(192, 64)]
  | _ => []

/-- The number with the bits of a list of fields set. -/
def fieldMask (fs : List (Nat × Nat)) : Nat := fs.foldl (fun m f => m ||| ((2 ^ f.2 - 1) * 2 ^ f.1)) 0

/-- Every reserved bit of an entry is zero; EVWAIT 5 to 7 and DIR 3 are reserved values. -/
def reservedClear (e : List Byte) : Bool :=
  let op := leAt e 0 1
  let m := fieldMask (headerFields op ++ payloadFields e op)
  decide (leNat e &&& (2 ^ 512 - 1 - m) = 0) && decide (bitsOf (leAt e 3 1) 0 3 ≤ 4) &&
    !(decide (op = 0x20) && decide (bitsOf (leAt e 36 1) 0 2 = 3))

/-! ## Ranges (check 8) -/

/-- A range of bytes lies in DRAM (R17). -/
def inDram (a n : Nat) : Bool := decide (a + n ≤ 0x2000000000)

/-- A range of bytes lies wholly in one core window, in whole 64-byte words (R345). -/
def inWindow (a n : Nat) : Bool :=
  decide (0x800000000000 ≤ a) && decide (a + n ≤ 0x800060000000) && decide (a / 0x1000000 = (a + n - 1) / 0x1000000) &&
    decide (a % 64 = 0) && decide (n % 64 = 0)

/-- A device address of a COPY (R345). -/
def copyAddrOk (part a n : Nat) : Bool := inDram a n || (decide (part = 0) && inWindow a n)

/-- The fields of RUN_LAYER and RUN_KERNEL in range (R339, R344). -/
def runFieldsOk (e : List Byte) : Bool :=
  let argn := leAt e 18 1
  let args := leAt e 24 8
  let count := leAt e 34 2
  let slot0 := leAt e 37 1
  let nslot := leAt e 38 1
  let fl := leAt e 36 1
  let page := decide (bitsOf fl 1 1 = 1)
  decide (leAt e 16 2 < 4096 ∨ leAt e 0 1 = 0x11) && decide (argn ≤ 64) &&
    (decide (leAt e 20 4 = 0) || decide (bitsOf (leAt e 1 1) 3 1 = 1)) &&
    (if argn = 0 then decide (args = 0) else decide (args % 16 = 0)) &&
    decide (count ≤ 4096) && decide (slot0 ≤ 31) && decide (nslot ≤ 16) &&
    decide (leAt e 40 2 ≤ 4096) &&
    (if count = 0 then decide (bitsOf fl 0 2 = 0) && decide (slot0 = 0) && decide (nslot = 0)
      else if page then decide (nslot ≤ (count + 15) / 16) else decide (nslot ≤ count)) &&
    (decide (leAt e 0 1 = 0x10) || decide (leAt e 48 8 % 64 = 0))

/-- The fields of SENSOR_MGMT in range (R349). -/
def sensorFieldsOk (e : List Byte) : Bool :=
  let kind := leAt e 16 1
  let port := leAt e 17 1
  let reg := leAt e 20 4
  let len := leAt e 24 2
  decide (1 ≤ kind) && decide (kind ≤ 6) && decide (port < if kind ≤ 2 then 16 else 8) &&
    decide (leAt e 19 1 < 32) && decide (reg < if kind = 3 ∨ kind = 4 then 32 else 65536) &&
    (if kind ≤ 2 then decide (1 ≤ len) && decide (len ≤ 256) else decide (len = 2)) && inDram (leAt e 32 8) len

/-- Check 8 of R355: the payload fields in range, DEPSEQ not the command's own SEQ, FRAME not too far ahead, and FRAMEB on a FRAME_RESULT. -/
def fieldsOk (s : State) (part : Nat) (e : List Byte) : Bool :=
  let op := leAt e 0 1
  let fl := leAt e 1 1
  let frameb := decide (bitsOf fl 3 1 = 1)
  let ahead := countDiff (leAt e 8 4) s.frmcnt
  !(decide (bitsOf fl 2 1 = 1) && decide (leAt e 12 4 = leAt e 4 4)) &&
    !(frameb && newer32 (leAt e 8 4) s.frmcnt && decide (16 < ahead)) &&
    (match op with
      | 0x10 => runFieldsOk e
      | 0x11 => runFieldsOk e
      | 0x12 => decide (leAt e 16 2 < 4096) && decide (leAt e 24 8 % 64 = 0)
      | 0x13 => decide (leAt e 16 2 < 4096)
      | 0x20 =>
        let n := leAt e 32 4
        let dir := bitsOf (leAt e 36 1) 0 2
        decide (1 ≤ n) && (decide (dir = 0) || copyAddrOk part (leAt e 16 8) n) && (decide (dir = 1) || copyAddrOk part (leAt e 24 8) n)
      | 0x21 => decide (1 ≤ leAt e 32 4) && inDram (leAt e 24 8) (leAt e 32 4)
      | 0x30 => decide (1 ≤ bitsOf (leAt e 16 1) 0 4) && decide (bitsOf (leAt e 16 1) 0 4 ≤ 5)
      | 0x40 => frameb
      | 0x50 => sensorFieldsOk e
      | _ => true)

/-! ## Argument block and descriptor (check 11) -/

/-- The status of a command whose read or write was answered poisoned (R527, R345, R19). -/
def Poison.status (p : Poison) : Nat :=
  match p with
  | .refused => 0x010D
  | .mem c => c
  | _ => 0x0405

/-- An argument that R340 allows. -/
def argOk (a : Nat × Nat) : Bool := decide (a.1 < 2 ^ 48) && decide (a.2 < 2 ^ 48) && decide (a.2 ≠ 0) && inDram a.1 a.2

/-- The argument block read and checked (R340). -/
def readArgs (s : State) (r : Req) (ecc : MemEcc) (a n : Nat) : State × Except Nat (List (Nat × Nat)) :=
  if n = 0 then (s, .ok [])
  else if !inDram a (16 * n) then (s, .error 0x0108)
  else
    let x := devRead s r ecc a (16 * n)
    match x.2 with
    | .error p => (x.1, .error p.status)
    | .ok bs =>
      let args := (List.range n).map (fun i => (leAt bs (16 * i) 8, leAt bs (16 * i + 8) 8))
      (x.1, if args.all argOk then .ok args else .error 0x0108)

/-- The header of a program image under R132. -/
def imageHeadOk (bs : List Byte) : Bool :=
  decide (leAt bs 0 4 = 0x5054394A) && decide (leAt bs 4 2 = 1) && decide (leAt bs 6 1 ≤ 32) && decide (leAt bs 7 1 = 0) &&
    decide (leAt bs 8 4 < 2 ^ 24) && decide (leAt bs 12 4 = 0) && decide (leAt bs 56 8 = 0) &&
    (List.range 5).all (fun k => decide (1 ≤ leAt bs (20 + 8 * k) 4) && decide (leAt bs (20 + 8 * k) 4 ≤ 16777216))

/-- Every image header a descriptor names read and checked (R342, R132). -/
def checkImages (r : Req) (ecc : MemEcc) (nslot : Nat) : List Nat → State → State × Except Nat Unit
  | [], s => (s, .ok ())
  | a :: as, s =>
    if 2 ^ 48 ≤ a ∨ a % 64 ≠ 0 ∨ !inDram a 64 then (s, .error 0x010C)
    else
      let x := devRead s r ecc a 64
      match x.2 with
      | .error p => (x.1, .error p.status)
      | .ok bs => if imageHeadOk bs ∧ leAt bs 6 1 ≤ nslot then checkImages r ecc nslot as x.1 else (x.1, .error 0x010C)

/-- A slot entry whose SIZE has bit 63 set names an argument. -/
def slotIsArg (q : Nat × Nat) : Bool := decide (2 ^ 63 ≤ q.2)

/-- Whether every argument index of a descriptor lies below ARGN. -/
def slotArgsOk (d : KDesc) (argn : Nat) : Bool := d.slots.all (fun q => !slotIsArg q || decide (q.1 % 64 < argn))

/-- A kernel descriptor read and checked (R341, R342), argument indices apart. -/
def readDesc (s : State) (r : Req) (ecc : MemEcc) (a : Nat) : State × Except Nat KDesc :=
  if !inDram a 64 then (s, .error 0x010C)
  else
    let x := devRead s r ecc a 64
    match x.2 with
    | .error p => (x.1, .error p.status)
    | .ok h =>
      let np := leAt h 6 1
      let ns := leAt h 7 1
      let len := 8 * np + 16 * np * ns
      if leAt h 0 4 ≠ 0x4B44394A ∨ leAt h 4 2 ≠ 1 ∨ np = 0 ∨ 96 < np ∨ 32 < ns ∨ !inDram a (64 + len) then (x.1, .error 0x010C)
      else
        let y := devRead x.1 r ecc (a + 64) len
        match y.2 with
        | .error p => (y.1, .error p.status)
        | .ok b =>
          let images := (List.range np).map (fun i => leAt b (8 * i) 8)
          let slots := (List.range (np * ns)).map (fun i => (leAt b (8 * np + 16 * i) 8, leAt b (8 * np + 16 * i + 8) 8))
          let d : KDesc := ⟨leAt h 8 4, leAt h 16 6, ns, images, slots⟩
          if crc32c (h.take 60 ++ b) ≠ leAt h 60 4 ∨ slots.any (fun q => !slotIsArg q && !inDram q.1 q.2) then (y.1, .error 0x010C)
          else
            let z := checkImages r ecc ns images y.1
            match z.2 with
            | .error e => (z.1, .error e)
            | .ok _ => (z.1, .ok d)

/-- The layer table's key of a partition's layer number (R343). -/
def layerKey (part layer : Nat) : Nat := 4096 * part + layer

/-- The descriptor a RUN_LAYER or RUN_KERNEL runs, with check 10 and the descriptor's part of check 11. -/
def findDesc (s : State) (part : Nat) (e : List Byte) (r : Req) (ecc : MemEcc) : State × Except Nat KDesc :=
  let argn := leAt e 18 1
  let slotsOk (d : KDesc) : Bool := decide (leAt e 37 1 + leAt e 38 1 ≤ d.nslot)
  let judge (s : State) (d : KDesc) : State × Except Nat KDesc :=
    if !slotArgsOk d argn then (s, .error 0x010C) else if !slotsOk d then (s, .error 0x0108) else (s, .ok d)
  if leAt e 0 1 = 0x10 then
    match s.bench.layers.lookup (layerKey part (leAt e 16 2)) with
    | none => (s, .error 0x0109)
    | some (_, d) => judge s d
  else
    let x := readDesc s r ecc (leAt e 48 8)
    match x.2 with
    | .error c => (x.1, .error c)
    | .ok d => judge x.1 d

/-! ## Cores (check 12) -/

/-- A core in service holds no carry binding to another partition, and is S-eligible where the class asks it (R377, R342). -/
def coreMayServe (s : State) (c part cls : Nat) : Bool :=
  (match carryBinding s c with
    | some p => decide (p = part)
    | none => true) && (decide (cls ≠ 0) || s.sclass c)

/-- The cores in IDLE, RUN or HELD that Bench may use for a partition and class (R342). -/
def usableCores (s : State) (part cls : Nat) : Nat :=
  (allCores.filter (fun c =>
    (decide (s.coreSt c = .idle) || decide (s.coreSt c = .run) || decide (s.coreSt c = .held)) && coreMayServe s c part cls)).length

/-! ## Consumption -/

/-- The opcodes of R338. -/
def bomusOpcode (op : Nat) : Bool :=
  [0x01, 0x02, 0x10, 0x11, 0x12, 0x13, 0x20, 0x21, 0x30, 0x40, 0x50, 0x60, 0x61].contains op

/-- Checks 1 to 9 of R355, in order: the status of the first that fails. -/
def earlyChecks (s : State) (n : Nat) (e : List Byte) : Option Nat :=
  let op := leAt e 0 1
  let part := ringOwner s n
  let seq := leAt e 4 4
  let cls := bitsOf (leAt e 2 1) 0 2
  if !bomusOpcode op then some 0x0101
  else if s.regBit (Reg.bomusRcfg n) 1 ∧ op ≠ 0x10 then some 0x0106
  else if (op = 0x50 ∨ op = 0x60 ∨ op = 0x61) ∧ part ≠ 0 then some 0x0105
  else if !reservedClear e then some 0x0102
  else if s.bench.lastSet.contains n ∧ !newer32 seq (s.regFld (Reg.bomusLastseq n) 0 32) then some 0x0103
  else if s.live (cmdKey part seq) then some 0x0104
  else if cls = 0 ∧ !s.regBit (Reg.pcieFncfg part) 1 then some 0x0107
  else if !fieldsOk s part e then some 0x0108
  else if bitsOf (leAt e 1 1) 3 1 = 1 ∧ newer32 s.frmcnt (leAt e 8 4) then some 0x0110
  else none

/-- Checks 10 to 12 of R355 for a command that runs programs: its descriptor and its arguments. -/
def runChecks (s : State) (part : Nat) (e : List Byte) (ecc : MemEcc) : State × Except Nat (KDesc × List (Nat × Nat)) :=
  let cls := bitsOf (leAt e 2 1) 0 2
  let r := hostReq part cls none
  if leAt e 0 1 = 0x10 ∧ (s.bench.layers.lookup (layerKey part (leAt e 16 2))).isNone then (s, .error 0x0109)
  else
    let x := readArgs s r ecc (leAt e 24 8) (leAt e 18 1)
    match x.2 with
    | .error c => (x.1, .error c)
    | .ok args =>
      let y := findDesc x.1 part e r ecc
      match y.2 with
      | .error c => (y.1, .error c)
      | .ok d => if usableCores y.1 part cls < d.images.length then (y.1, .error 0x010E) else (y.1, .ok (d, args))

/-- The scoreboard entry of a command (R332, R373): WAITING. -/
def newCmd (s : State) (n part : Nat) (e : List Byte) (desc : Option KDesc) (args : List (Nat × Nat)) : Cmd :=
  let pred := cmdKey part (leAt e 12 4)
  let ordered := decide (bitsOf (leAt e 1 1) 2 1 = 1)
  let waits := match s.cmd pred with
    | some d => !d.flipped
    | none => false
  let dep := if ordered && waits then some pred else none
  let runs := match desc with
    | some d => (List.range d.images.length).map (fun i => (⟨i, .main, .queued, false, false, false, 0, 0, s.now, []⟩ : ProgRun))
    | none => []
  { part := part, seq := leAt e 4 4, ring := n, order := s.bench.nextOrder, entry := e, st := .waiting, reason := 0
    member := false, noRecord := false, dep := dep, depKey := dep, desc := desc, args := args, runs := runs
    reserved := false, record := none, resolved := none, srcFrame := false, srcDep := false, srcKv := [], everSpec := false
    follows := [], reads := [], result := 0, status := 0
    began := if newer32 (leAt e 8 4) s.frmcnt then none else some (s.regFld Reg.devFrmstart 0 64)
    bound := if ordered && !waits then sget [] s.bench.ranOn pred else [], flipAt := none }

/-- Whether the command a new one depends on is being cancelled (R335, R395): it then ends with DEP_FAILED. -/
def depCancelling (s : State) (c : Cmd) : Bool :=
  match c.dep.bind s.cmd with
  | some (d : Cmd) => decide (d.st = .cancelling)
  | none => false

/-- A command that passed every check becomes live (R355, R330). -/
def goLive (s : State) (n : Nat) (c : Cmd) : State :=
  let s1 := { s with bench := { s.bench with
    cmds := s.bench.cmds ++ [c], nextOrder := s.bench.nextOrder + 1
    lastSet := if s.bench.lastSet.contains n then s.bench.lastSet else s.bench.lastSet ++ [n] } }
  let s2 := syncLive (s1.setRegFld (Reg.bomusLastseq n) 0 32 c.seq) n
  let s3 := if inFrameSet s2 c then addMember s2 c c.runs.length else s2
  if c.op = 0x40 ∧ !s3.lehrB.lehrARuns then (markCancel c.key 0x0613 s3).noteLehrA 0x0613 c.frame
  else if depCancelling s3 c then markCancel c.key 0x010F s3
  else s3

/-- Whether an entry is that of a frame-set command (R422) of a frame that may still be selected. -/
def frameSetEntry (s : State) (n : Nat) (e : List Byte) : Bool :=
  [0x10, 0x11, 0x20, 0x21].contains (leAt e 0 1) && decide (bitsOf (leAt e 2 1) 0 2 = 0) && decide (bitsOf (leAt e 1 1) 3 1 = 1) &&
    decide (ringOwner s n = s.selPart) && decide (countDiff (leAt e 8 4) s.frmcnt ≤ 16)

/-- An entry refused at consumption: its record is written at once. A frame-set command has then ended without commit (R423). -/
def refuseEntry (s : State) (n : Nat) (e : List Byte) (status : Nat) : State :=
  let s1 := writeRecord s n e status 0 false s.now
  if frameSetEntry s n e then memberFailed s1 (leAt e 8 4) (cmdKey (ringOwner s n) (leAt e 4 4)) else s1

/-- Whether a ring has an entry to consume and room for it (R330, R331). An entry may be refused, with a record at once, so one that follows a command of
the ring past its commit point waits for that command's record (R359). -/
def mayConsume (s : State) (n : Nat) : Bool :=
  decide (ringSt s n = 1) && decide (sqHead s n ≠ sqTail s n) && decide (s.bench.cmds.length < 8192) &&
    decide (countDiff (cqTail s n) (cqHead s n) + (ringCmds s n).length < cqSize s n) && !hostDieDown s &&
    !((ringCmds s n).any (·.flipped)) && !mapHolds s

/-- Whether it is a ring's turn (R330): it has had none since every ring with an entry to consume had one, or all of those have had theirs. -/
def turnOf (s : State) (n : Nat) : Bool :=
  !s.bench.turns.contains n || (List.range 256).all (fun m => !mayConsume s m || s.bench.turns.contains m)

/-- A ring takes its turn. -/
def takeTurn (s : State) (n : Nat) : State :=
  { s with bench := { s.bench with turns := if s.bench.turns.contains n then [n] else s.bench.turns ++ [n] } }

/-- The host address of the entry with count `c` (R328). -/
def entryAddr (s : State) (n c : Nat) : Nat := s.regFld (Reg.bomusSqbase n) 12 52 * 4096 + c % sqSize s n * 64

/-- The next entry of a ring is read and consumed (R330): SQHEAD and TOTAL advance. -/
def fetchEntry (s : State) (n : Nat) : State :=
  let s1 := (takeTurn s n).toHost (.read (ringOwner s n) (entryAddr s n (sqHead s n)) 64)
  (s1.setRegFld (Reg.bomusSqhead n) 0 32 ((sqHead s n + 1) % 2 ^ 32)).bump (Reg.bomusTotal n) 1

/-- ENTRY_CONSUME (R330, R355): `entry` is what the host read of the next entry brings, byte 0 in its low bits. -/
def execEntryConsume (ring : Fin 256) (entry : BitVec 512) (ecc : MemEcc) (t : Nat) (s : State) : Out :=
  let s := s.at t
  let n := ring.val
  if !mayConsume s n ∨ !turnOf s n then .next s
  else
    let e := leBytes 64 entry.toNat
    let part := ringOwner s n
    let s1 := fetchEntry s n
    match earlyChecks s1 n e with
    | some code => .next (refuseEntry s1 n e code)
    | none =>
      if runsPrograms (leAt e 0 1) then
        let x := runChecks s1 part e ecc
        match x.2 with
        | .error code => .next (refuseEntry x.1 n e code)
        | .ok (d, args) => .next (goLive x.1 n (newCmd x.1 n part e (some d) args))
      else .next (goLive s1 n (newCmd s1 n part e none []))

/-! ## Start conditions (R374) -/

/-- The boundary that begins a command's FRAME has occurred. -/
def frameBegun (s : State) (c : Cmd) : Bool := !c.frameb || !newer32 c.frame s.frmcnt

/-! ## The conditions of a commit (R381) -/

/-- A closure of the partition is in progress (R381, R393). -/
def closing (s : State) (p : Nat) : Bool := s.bench.cmds.any (fun c => decide (c.part = p) && decide (c.st = .cancelling))

/-- R381's conditions, and R336's: the boundary that begins FRAME has occurred. -/
def mayCommit (s : State) (c : Cmd) : Bool :=
  decide (c.st = .ended) && !c.flipped && !c.spec && c.follows.all (fun k => !s.live k) && !closing s c.part && frameBegun s c && c.dep.isNone

/-- R381: the commands that meet the conditions now, in the order in which they met them; those that meet them since the same moment stand in the order
of consumption. -/
def metOrder (s : State) : List Nat :=
  let now := (s.bench.cmds.filter (mayCommit s)).map Cmd.key
  s.bench.commitQ.filter (fun k => now.contains k) ++ now.filter (fun k => !s.bench.commitQ.contains k)

/-- The order of the commands that meet the conditions brought up to date, after whatever may have made one meet them. -/
def noteMet (s : State) : State := { s with bench := { s.bench with commitQ := metOrder s } }

/-- Whether a command is the next that the commit sequencer takes (R381). It takes one at a time: one that has passed its commit point has its record
first, so that records appear in the order of the commits (R359). -/
def nextCommit (s : State) (key : Nat) : Bool := decide ((metOrder s).head? = some key) && !(s.bench.cmds.any (·.flipped))

/-! ## Start conditions -/

/-- FENCE is met: no command consumed earlier on the ring is without its record. -/
def fenceMet (s : State) (c : Cmd) : Bool :=
  !c.flag 1 || !(s.bench.cmds.any (fun d => decide (d.ring = c.ring) && decide (d.order < c.order)))

/-- EVWAIT is met: DEV_EVFRAMEe is the awaited frame or newer (R374, R375). -/
def eventMet (s : State) (c : Cmd) : Bool :=
  decide (c.event = 0) ||
    (let f := s.regFld (Reg.devEvframe c.event) 0 32
     decide (f = c.eventFrame) || newer32 f c.eventFrame)

/-- The selection a FRAME_RESULT waits for. -/
def selectionMade (s : State) (c : Cmd) : Bool :=
  match (s.frameSel c.frame).sel with
  | some x => decide (x.source ≠ .none)
  | none => false

/-- The conditions of R374 that RUNAHEAD does not relax. -/
def firmConditions (s : State) (c : Cmd) : Bool :=
  fenceMet s c && eventMet s c && (decide (c.op ≠ 0x40) || selectionMade s c)

/-- A READY command of class T or B (R386). -/
def readyTB (c : Cmd) : Bool := decide (c.st = .ready) && decide (c.cls ≠ 0)

/-- R386: a partition that gains a READY command of class T or B while it has none becomes active. -/
def activate (s : State) (p : Nat) : State :=
  let act := (List.range 16).filter (fun q => decide (q ≠ p) && s.bench.cmds.any (fun c => decide (c.part = q) && readyTB c))
  match act.map (fun q => s.regFld (Reg.devVt q) 0 64) with
  | [] => s
  | v :: vs => s.setReg (Reg.devVt p) (BitVec.ofNat 64 (max (s.regFld (Reg.devVt p) 0 64) (vs.foldl min v)))

/-- A command becomes READY; its programs wait for a core from now on. -/
def markReady (s : State) (c : Cmd) : State :=
  let gains := decide (c.cls ≠ 0) && !(s.bench.cmds.any (fun d => decide (d.part = c.part) && readyTB d))
  let s1 := if gains then activate s c.part else s
  mapCmd s1 c.key (fun c => { c with st := .ready, runs := c.runs.map (fun r => { r with queuedAt := s.now }) })

/-- The awaited event can no longer come in time (R336): the boundary that ends FRAME − EVLAG + 1 has passed. -/
def eventTooLate (s : State) (c : Cmd) : Bool :=
  decide (c.event ≠ 0) && !eventMet s c && newer32 s.frmcnt ((c.eventFrame + 1) % 2 ^ 32)

/-- The boundary that ends FRAME has passed before the first dispatch (R336); a FRAME_RESULT has no dispatch. -/
def frameTooLate (s : State) (c : Cmd) : Bool :=
  c.frameb && decide (c.op ≠ 0x40) && newer32 s.frmcnt c.frame

/-- COMMAND_READY (R374, R393): every start condition, or with RUNAHEAD every one it does not relax. -/
def execCommandReady (part : Fin 16) (seq : BitVec 32) (t : Nat) (s : State) : Out :=
  let s := s.at t
  match s.cmd (cmdKey part.val seq.toNat) with
  | none => .next s
  | some c =>
    if c.st ≠ .waiting then .next s
    else if frameTooLate s c || eventTooLate s c then .next (markCancel c.key 0x0110 s)
    else if !firmConditions s c then .next s
    else
      let now := frameBegun s c && c.dep.isNone
      if now then .next (markReady s c)
      else if c.runahead then
        let s1 := mapCmd s c.key (fun c => { c with srcFrame := !frameBegun s c, srcDep := c.dep.isSome })
        .next (syncSpec (markReady s1 c) c.key)
      else .next s

end Sys2Proof.Machine
end

