-- ==== Sys2Proof/Machine/Place.lean ====
section
/-! DEFINITION. Selecting the next run and placing it (R377-R380, R387, R388, R429, R665), and dispatching it to a core (R132, R378). -/

namespace Sys2Proof.Machine

/-! ## Estimates (R387, R388, R429) -/

/-- CORE_STEPRATE.CAP. -/
def State.coreCap (s : State) (c : Nat) : Nat := s.regFld (Reg.coreSteprate c) 16 15

/-- An estimate at a capability; at floor where no capability has been measured yet. -/
def estAt (est cap : Nat) : Nat := if cap = 0 then est else est * 1100 / cap

/-- The estimate of one program of a command. -/
def Cmd.est (c : Cmd) : Nat := match c.desc with
  | some d => d.est
  | none => 0

/-- Whether a core is in service. -/
def inService (s : State) (c : Nat) : Bool :=
  match s.coreSt c with
  | .off | .reset | .repair | .selftest | .quarantine | .disabled => false
  | _ => true

/-- The published stall time in an interval that begins now (R388, R531). -/
def stallIn (s : State) (len : Nat) : Nat :=
  let p := refreshP s
  let ph := fld s.mem.refForce 32 32
  if p = 0 ∨ s.regBit Reg.devMemstat 1 then 0
  else
    let first := gridFrom ph p s.now
    let n := if s.now + len < first then 0 else (s.now + len - first) / p + 1
    n * stallNs s

/-- A class T command that is urgent now (R388). -/
def urgent (s : State) (c : Cmd) : Bool :=
  match deadlineOf s c with
  | none => false
  | some d =>
    let ests := (allCores.filter (fun k => inService s k && coreMayServe s k c.part c.cls)).map (fun k => estAt c.est (s.coreCap k))
    let est := ests.foldl max 0
    decide (c.cls = 1) && decide (d ≤ s.now + (est + stallIn s est) + s.regFld Reg.devSchedctl 36 16 * 1000)

/-- DEV_SCHEDCTL.QUANTUM in ns. -/
def State.quantum (s : State) : Nat := s.regFld Reg.devSchedctl 0 20 * 1000

/-- The run limit of a run on a core (R387). -/
def runLimit (s : State) (est c : Nat) : Nat :=
  let w := s.reg Reg.devRunlim
  if est = 0 ∨ s.coreCap c = 0 then fld w 32 32 * 1000
  else max (fld w 8 24 * 1000) (max 1 (fld w 0 8) * est * 1100 / s.coreCap c)

/-! ## The tier order (R388) -/

/-- A run that waits for a core: its command, its program and kind, its place in the order, and the tie-break it is, if it is one. -/
structure Cand where
  cmd : Cmd
  prog : Nat
  kind : RunKind
  order : List Nat
  tie : Option TieRun
  deriving DecidableEq, Repr

/-- DEV_SHAREp. -/
def State.share (s : State) (p : Nat) : Nat := s.regFld (Reg.devShare p) 0 16

/-- The tier of a command's runs. -/
def tierOf (s : State) (c : Cmd) : Nat :=
  if c.cls = 0 then 1 else if urgent s c then 2 else if c.spec then 5 else if s.share c.part ≠ 0 then 3 else 4

/-- The place of a command's runs in the tier order. -/
def orderOf (s : State) (c : Cmd) : List Nat :=
  let t := tierOf s c
  if t = 1 ∨ t = 2 then [t, lateKey (deadlineOf s c), c.order]
  else if t = 5 then [5, c.order]
  else [t, s.regFld (Reg.devVt c.part) 0 64, c.part, min c.cls 2, lateKey (deadlineOf s c), c.order]

/-- The lexicographic order of two keys. -/
def lexLt : List Nat → List Nat → Bool
  | [], [] => false
  | [], _ => true
  | _, [] => false
  | a :: as, b :: bs => decide (a < b) || (decide (a = b) && lexLt as bs)

/-- The boundary that ends a frame, when it is scheduled; none for a frame that ended before the latest boundary. -/
def frameEnd (s : State) (f : Nat) : Option Nat :=
  if 2 ^ 31 ≤ countDiff (f + 1) s.frmcnt then none else predictBoundary s ((f + 1) % 2 ^ 32)

/-- The runs that wait for a core. -/
def waitingRuns (s : State) : List Cand :=
  (s.bench.cmds.flatMap (fun c =>
    if c.st = .ready ∨ c.st = .running then
      (c.runs.filter (fun r => decide (r.st = .queued))).map (fun r =>
        (⟨c, r.prog, r.kind, orderOf s c ++ [r.prog], none⟩ : Cand))
    else [])) ++
  (s.bench.ties.filter (fun t => t.core.isNone)).map (fun t =>
    ⟨t.cmd, t.prog, .tiebreak, [1, lateKey (frameEnd s t.cmd.frame), t.cmd.order, t.prog], some t⟩)

/-- A candidate put into a list in order. -/
def insertCand (x : Cand) : List Cand → List Cand
  | [] => [x]
  | y :: ys => if lexLt x.order y.order then x :: y :: ys else y :: insertCand x ys

/-- Candidates in the tier order; those of equal place keep theirs. -/
def sortCands (xs : List Cand) : List Cand := xs.foldl (fun l x => insertCand x l) []

/-! ## Placement (R377, R379, R380, R429) -/

/-- The cores that hold a run Bench has not seen the end of. -/
def bookedCores (s : State) : List Nat :=
  s.bench.cmds.flatMap (fun c => c.runs.filterMap (fun r => match r.st with
    | .active k => some k
    | _ => none)) ++ s.bench.ties.filterMap (·.core)

/-- R201: no pending record on a core belongs to a command of another partition; `but` is a record that will be discarded. -/
def recordsAllow (s : State) (k part : Nat) (but : Option Nat) : Bool :=
  (s.core k).records.all (fun r => decide (r.owner / 2 ^ 32 = part) || decide (some r.owner = but))

/-- R377, R201: a core is eligible for a run of a partition and class. -/
def coreEligible (s : State) (k part cls : Nat) : Bool :=
  (decide (s.coreSt k = .idle) || decide (s.coreSt k = .reheat)) && coreMayServe s k part cls && recordsAllow s k part none &&
    !(bookedCores s).contains k

/-- The core a program is bound to by its predecessor (R379). -/
def boundCore (s : State) (c : Cmd) (prog : Nat) : Option Nat :=
  let ofPred : Option Nat := match c.dep.bind s.cmd with
    | some (d : Cmd) => match d.runs.find? (fun q => decide (q.prog = prog) && decide (q.kind = .main)) with
      | some q => (match q.st with
        | .done k => some k
        | .active k => some k
        | .queued => none)
      | none => none
    | none => none
  let k := match c.bound.lookup prog with
    | some k => some k
    | none => ofPred
  k.bind (fun k => if carryBinding s k = some c.part then some k else none)

/-- Runs of a command on a compute die. -/
def dieRuns (c : Cmd) (d : Nat) : Nat :=
  (c.runs.filter (fun r => match r.st with
    | .active k => decide (k / 8 = d)
    | _ => false)).length

/-- R377's order of the cores for a run. -/
def coreKey (s : State) (c : Cmd) (k : Nat) : List Nat :=
  let idle := decide (s.coreSt k = .idle)
  [if idle ∧ (s.core k).prevPart = some c.part then 0 else 1, dieRuns c (k / 8), if idle then 0 else 1, k]

/-- The first core in an order. -/
def bestCore (f : Nat → List Nat) : List Nat → Option Nat
  | [] => none
  | k :: ks => some (ks.foldl (fun a b => if lexLt (f b) (f a) then b else a) k)

/-- The core a program's main run was on. -/
def mainCore (c : Cmd) (prog : Nat) : Option Nat :=
  (c.runs.find? (fun r => decide (r.prog = prog) && decide (r.kind = .main))).bind (fun r => match r.st with
    | .done k => some k
    | _ => none)

/-- Whether a core is in a state that keeps its partner in split coverage (R413). -/
def outForPair (s : State) (q : Nat) : Bool :=
  match s.coreSt q with
  | .off | .reset | .quarantine | .disabled => true
  | _ => false

/-- Where a reblow run goes (R380, R413): the partner of a paired core while the partner takes class S work, else the main core. -/
def reblowCore (s : State) (m : Nat) : Nat :=
  match pairOf m with
  | some (_, q) => if s.paired m ∧ s.sclass q ∧ !outForPair s q then q else m
  | none => m

/-- Whether a tie-break run may go to a core (R429): neither of the two cores, S-eligible, and done before the frame ends. -/
def tieFits (s : State) (t : TieRun) (est k : Nat) : Bool :=
  decide (k ≠ t.main) && decide (k ≠ t.reblow) && s.sclass k &&
    (match frameEnd s t.cmd.frame with
      | some b => decide (s.now + estAt est (s.coreCap k) < b)
      | none => false)

/-- The core that is chosen for a run now, if one is eligible. -/
def placeRun (s : State) (x : Cand) : Option Nat :=
  let elig := allCores.filter (fun k => coreEligible s k x.cmd.part x.cmd.cls)
  let only (k : Nat) : Option Nat := if elig.contains k then some k else none
  match x.kind, x.tie with
  | .tiebreak, some t =>
    let fit := elig.filter (tieFits s t x.cmd.est)
    bestCore (fun k => (if k / 8 = 3 * (t.main / 24) + 2 then 0 else 1) :: coreKey s x.cmd k) fit
  | .reblow, _ => (mainCore x.cmd x.prog).bind (fun m => only (reblowCore s m))
  | _, _ =>
    match boundCore s x.cmd x.prog with
    | some b => only b
    | none =>
      let idle := elig.filter (fun k => decide (s.coreSt k = .idle))
      bestCore (coreKey s x.cmd) (if x.order.headD 0 ≠ 1 ∧ idle ≠ [] then idle else elig)

/-- The run to dispatch now and its core: the first in the tier order that a core is IDLE for. A run whose chosen core is in REHEAT waits
for the abort of the slice (R400). -/
def nextRun (s : State) : Option (Cand × Nat) :=
  (sortCands (waitingRuns s)).findSome? (fun x => match placeRun s x with
    | some k => if s.coreSt k = .idle then some (x, k) else none
    | none => none)

/-! ## Starting a command (R344, R216, R236, R373) -/

/-- KVFLAGS bit. -/
def Cmd.kvFlag (c : Cmd) (i : Nat) : Bool := decide (bitsOf (leAt c.entry 36 1) i 1 = 1)
/-- KVSEQ. -/
def Cmd.kvSeq (c : Cmd) : Nat := bitsOf (leAt c.entry 32 2) 0 10
/-- KVCOUNT. -/
def Cmd.kvCount (c : Cmd) : Nat := leAt c.entry 34 2

/-- The resolve a command carries, at its first dispatch: the state, or the code that refuses it. -/
def startResolve (s : State) (c : Cmd) : Except Nat State :=
  if !c.kvFlag 2 then .ok s
  else
    let a := leAt c.entry 40 2
    match resolveCheck s c.kvSeq c.part a with
    | some code => .error code
    | none =>
      let r := resolveAt s c.kvSeq c.key a
      let s1 := r.2.foldl (fun s k => markCancel k 0x0112 s) r.1
      .ok (mapCmd s1 c.key (fun c => { c with resolved := some c.kvSeq }))

/-- The reservation a command carries, after its resolve. -/
def startReserve (s : State) (c : Cmd) : Except Nat State :=
  if c.kvCount = 0 then .ok s
  else
    let h := c.kvSeq
    let spec := match s.cmd c.key with
      | some d => d.spec
      | none => false
    match seqCheck s (h / 256) (h % 256) c.part with
    | some code => .error code
    | none =>
      if c.kvFlag 1 ∧ seqLr s (h / 256) (h % 256) % 16 ≠ 0 then .error 0x0808
      else match reserve s h c.part c.key c.kvCount (c.kvFlag 0) spec with
        | .error code => .error code
        | .ok (s1, start) => .ok (mapCmd s1 c.key (fun c => { c with reserved := true, record := some (h, start) }))

/-- A READY command starts: RUNNING, or CANCELLING with the manager's code (R373). -/
def startCmd (s : State) (c : Cmd) : State :=
  match startResolve s c with
  | .error code => markCancel c.key code s
  | .ok s1 =>
    match startReserve s1 c with
    | .error code => markCancel c.key code (refused s1 (c.kvSeq / 256))
    | .ok s2 => syncSpec (mapCmd s2 c.key (fun c => { c with st := .running })) c.key

/-! ## Dispatch (R378) -/

/-- BASE and SIZE of a base slot the reservation binds (R220); none where it binds none. -/
def boundSlot (s : State) (c : Cmd) (n : Nat) : Option (Nat × Nat) :=
  match c.record with
  | none => none
  | some (h, start) =>
    let s0 := leAt c.entry 37 1
    let k := h / 256
    let i := h % 256
    let g := geom s k i
    if n < s0 ∨ s0 + leAt c.entry 38 1 ≤ n then none
    else
      let j := n - s0
      if c.kvFlag 1 then some (poolAddr s k (ptePage (pte s k i (start / 16 + j))), g.pageBytes)
      else
        let p := start + j
        some (poolAddr s k (ptePage (pte s k i (p / 16))) + p % 16 * g.rb, g.pageBytes - p % 16 * g.rb)

/-- BASE and SIZE of base slot n of a program (R378, R341, R344). -/
def slotOf (s : State) (c : Cmd) (d : KDesc) (prog n : Nat) : Nat × Nat :=
  match boundSlot s c n with
  | some q => q
  | none =>
    if d.nslot ≤ n then (0, 0)
    else
      let q := d.slots.getD (prog * d.nslot + n) (0, 0)
      if slotIsArg q then c.args.getD (q.1 % 64) (0, 0) else q

/-- The 32 base slots loaded. -/
def loadSlots (s : State) (k : Nat) (c : Cmd) (d : KDesc) (prog : Nat) : State :=
  (List.range 32).foldl (fun s n =>
    let q := slotOf s c d prog n
    (s.setReg (Reg.coreTpslotbase k n) (BitVec.ofNat 64 (q.1 % 2 ^ 48))).setReg (Reg.coreTpslotsize k n)
      (BitVec.ofNat 64 (q.2 % 2 ^ 48))) s

/-- CORE_CMD for a command. -/
def cmdWord (c : Cmd) : Word :=
  setBit (setBit (setFld (setFld (setFld 0#64 0 32 c.seq) 32 4 c.part) 36 2 c.cls) 38 c.spec) 39 true

/-- The streams a header names (R132). -/
def headStreams (h : List Byte) : List Stream :=
  (List.range 5).map (fun k => ⟨leAt h (16 + 8 * k) 4, leAt h (20 + 8 * k) 4, 0, false, false⟩)

/-- The visible values of the carried counters, as a private copy (R409). -/
def privateCopy (s : State) (k : Nat) : List (Nat × Nat) :=
  ((List.range 128).map (fun j => (1920 + j, s.regFld (Reg.coreSync k (1920 + j)) 0 32))).filter (fun p => decide (p.2 ≠ 0))

/-- A run of a program put on a core (R378, R188, R133, R175, R409, R415): `run` is the run Bench dispatches. -/
def loadCore (s : State) (k : Nat) (c : Cmd) (d : KDesc) (kind : RunKind) (prog : Nat) (resume : Bool) (log : List DebugWrite)
    (ecc : MemEcc) : State :=
  let img := d.images.getD prog 0
  let x := s.core k
  let clear := x.clearing || (match x.prevPart with
    | some p => decide (p ≠ c.part)
    | none => false)
  let zero (s : State) (r : Nat) : State := s.setReg r 0#64
  let s1 := [Reg.coreAflags k, Reg.coreFault k, Reg.coreTpfaux k, Reg.coreTpfcnt k, Reg.coreTpckpt k].foldl zero s
  let s2 := (List.range 5).foldl (fun s j => zero s (tpword k j)) s1
  let s3 := (s2.setReg (Reg.coreTpimage k) (BitVec.ofNat 64 img)).setReg (Reg.coreCmd k) (cmdWord c)
  let s4 := zeroCounters (loadSlots s3 k c d prog) k 0 1920
  let r := devRead s4 (coreReq s4 k) ecc img 64
  let s5 := r.1.bump (Reg.corePortrd k) 64
  let head : Option (List Byte) := match r.2 with
    | .ok bs => if imageHeadOk bs then some bs else none
    | .error _ => none
  let bs := head.getD []
  let x' : Core := { x with
    clearing := clear, prevPart := some c.part, faultAt := none, shadow := none, active := none, wldFresh := false, swapped := false
    streams := if head.isSome then headStreams bs else [], nckpt := leAt bs 8 4, nslot := leAt bs 6 1, buf := [], flight := []
    run := ⟨kind, prog, if c.frameb then c.frame else 0, 0⟩, ckptAddr := d.ckptBase + prog * ckptSize, debugLog := log
    resuming := resume, since := s.now, runTime := 0, charged := 0, limit := runLimit s c.est k, ckptSince := 0
    priv := if kind = .main ∨ clear then [] else privateCopy s k, haltPoint := none }
  let s6 := ((s5.setCore k x').setCoreSt k .run).bump (Reg.benchDispcnt (k / 8)) 1
  let s7 := if resume then s6.bump (Reg.benchResumecnt (k / 8)) 1 else s6
  if head.isSome then syncTpstat s7 k else tileFault s7 k 6 0 (.plain 0x0213)

/-- Split coverage of a paired core (R413): its reblow run goes to the core itself. -/
def noteCoverage (s : State) (x : Cand) (k : Nat) : State :=
  if x.kind = .reblow ∧ s.paired k ∧ mainCore x.cmd x.prog = some k then noteSplit s else s

/-- A run of a started command dispatched to a core. -/
def dispatchRun (s : State) (x : Cand) (k : Nat) (ecc : MemEcc) : State :=
  match x.tie, s.cmd x.cmd.key with
  | some t, _ =>
    match x.cmd.desc with
    | none => s
    | some d =>
      let s1 := { s with bench := { s.bench with ties := s.bench.ties.map (fun u => if u = t then { u with core := some k } else u) } }
      loadCore s1 k x.cmd d .tiebreak x.prog false [] ecc
  | none, some c =>
    match c.desc, c.runs.find? (fun r => decide (r.prog = x.prog) && decide (r.kind = x.kind)) with
    | some d, some r =>
      let log := if x.kind = .reblow then
          ((c.runs.find? (fun q => decide (q.prog = x.prog) && decide (q.kind = .main))).map (·.log)).getD []
        else []
      let s1 := mapRun s c.key x.prog x.kind (fun r => { r with st := .active k, queuedAt := s.now, resumed := r.resumed || r.ckpt })
      let s2 := { s1 with bench := { s1.bench with quantum := s1.bench.quantum.filter (fun q => decide (q ≠ c.key)) } }
      noteCoverage (loadCore s2 k c d x.kind x.prog r.ckpt log ecc) x k
    | _, _ => s
  | none, none => s

/-- The next run in the tier order dispatched, when its command passes a test; a READY command starts first, and if the manager refuses it
nothing is dispatched (R373, R378). Nothing is dispatched while a frit switch is in progress (R588). -/
def dispatchNext (s : State) (p : Cmd → Bool) (ecc : MemEcc) : State :=
  match nextRun s with
  | none => s
  | some (x, k) =>
    if !p x.cmd || s.cfg.switching.isSome then s
    else
      let s1 := if x.cmd.st = .ready ∧ x.tie.isNone then startCmd s x.cmd else s
      match x.tie, s1.cmd x.cmd.key with
      | none, some c => if c.st = .running then dispatchRun s1 x k ecc else s1
      | _, _ => dispatchRun s1 x k ecc

/-- DISPATCH (R377, R378, R388). -/
def execDispatch (ecc : MemEcc) (t : Nat) (s : State) : Out := .next (dispatchNext (s.at t) (fun _ => true) ecc)

/-- An operation without programs starts (R373): Gaffer firmware issues its first action. A COPY to the host does not start while it is
speculative (R393). -/
def startOp (s : State) (c : Cmd) : State :=
  if c.op = 0x20 ∧ bitsOf (leAt c.entry 36 1) 0 2 = 1 ∧ c.spec then s else mapCmd s c.key (fun c => { c with st := .running })

/-- COMMAND_START (R373): the command is READY, and its first run is the next in the tier order, or its operation starts. -/
def execCommandStart (part : Fin 16) (seq : BitVec 32) (ecc : MemEcc) (t : Nat) (s : State) : Out :=
  let s := s.at t
  let key := cmdKey part.val seq.toNat
  match s.cmd key with
  | none => .next s
  | some c =>
    if c.st ≠ .ready then .next s
    else if runsPrograms c.op then .next (dispatchNext s (fun d => decide (d.key = key)) ecc)
    else .next (startOp s c)

/-- RUN_LAYER (R339, R343, R373): a READY RUN_LAYER starts with its first run. -/
def execRunLayer (part : Fin 16) (seq : BitVec 32) (ecc : MemEcc) (t : Nat) (s : State) : Out :=
  .next (dispatchNext (s.at t)
    (fun d => decide (d.key = cmdKey part.val seq.toNat) && decide (d.op = 0x10) && decide (d.st = .ready)) ecc)

/-- RUN_KERNEL (R339, R341, R373): a READY RUN_KERNEL starts with its first run. -/
def execRunKernel (part : Fin 16) (seq : BitVec 32) (ecc : MemEcc) (t : Nat) (s : State) : Out :=
  .next (dispatchNext (s.at t)
    (fun d => decide (d.key = cmdKey part.val seq.toNat) && decide (d.op = 0x11) && decide (d.st = .ready)) ecc)

end Sys2Proof.Machine
end

