-- ==== Sys2Proof/Machine/BenchRun.lean ====
section
/-! DEFINITION. What happens to dispatched runs (R373, R385, R387, R389-R392, R397-R400, R410, R418): ends, faults, kills, checkpoints,
pre-emption, accounting, and the start of reheat slices. -/

namespace Sys2Proof.Machine

/-! ## Engine time (R385) -/

/-- The engine time of a run on a core settled: DEV_ACCTp takes what it does not hold yet; a killed run is also waste, any other advances the
partition's virtual time. -/
def settleTime (s : State) (p k : Nat) (waste : Bool) : State :=
  let s1 := accrue s k
  let x := s1.core k
  let s2 := (s1.setCore k { x with charged := 0, runTime := 0 }).bump (Reg.devAcct p) (x.runTime - x.charged)
  if waste then s2.bump (Reg.devWaste p) x.runTime
  else if s2.share p = 0 then s2 else s2.bump (Reg.devVt p) (x.runTime * 65536 / s2.share p)

/-- ACCOUNTING_TICK (R385): 100 microseconds of a run in progress. -/
def execAccountingTick (core : Fin 96) (t : Nat) (s : State) : Out :=
  let s := s.at t
  let k := core.val
  if s.coreSt k ≠ .run ∧ s.coreSt k ≠ .ckpt then .next s
  else
    let s1 := accrue s k
    let x := s1.core k
    .next ((s1.setCore k { x with charged := x.runTime }).bump (Reg.devAcct (s.cmdPart k)) (x.runTime - x.charged))

/-! ## Reports (R418) -/

/-- The tie-break run on a core. -/
def tieOn (s : State) (k : Nat) : Option TieRun := s.bench.ties.find? (fun t => decide (t.core = some k))

/-- A tie-break run has left its core. -/
def removeTie (s : State) (t : TieRun) : State :=
  { s with bench := { s.bench with ties := s.bench.ties.filter (fun u => decide (u ≠ t)) } }

/-- Bench's report of the end of a run of a class S command, on its way to Lehr A. -/
def sendReport (s : State) (c : Cmd) (prog : Nat) (kind : RunKind) (k fault : Nat) : State :=
  if c.cls ≠ 0 then s
  else { s with bench := { s.bench with reports := s.bench.reports ++
    [⟨c.seq, c.part, prog, kind, k, (s.core k).run.sigs, fault, if c.frameb then some c.frame else none⟩] } }

/-! ## Kills (R118, R389, R390) -/

/-- Whether a kill reaches the program of a core (R117-R119): in RUN, CKPT or HALT, or in the step in which the program faults. -/
def killReaches (s : State) (k : Nat) : Bool :=
  match s.coreSt k with
  | .run | .ckpt | .halt => true
  | .faulted => decide ((s.core k).faultAt = some s.now)
  | _ => false

/-- The kill reaches a core: its streams stop, and the core settles in KILL (R117, R118). A fault of the same step stays in CORE_FAULT (R119). -/
def killCore (s : State) (k : Nat) : State :=
  if killReaches s k then
    let s1 := stopStreams s k
    ((s1.setReg (Reg.coreAflags k) 0#64).setRegBit (Reg.coreTpckpt k) 48 false).setCoreSt k .kill
  else s

/-- Whether nothing of a command but one run has staged anything that stands: no other run of it is dispatched, ended or saved. -/
def soleRun (c : Cmd) (r : ProgRun) : Bool :=
  !r.ckpt && c.runs.all (fun q => (decide (q.prog = r.prog) && decide (q.kind = r.kind)) || (decide (q.st = .queued) && !q.ckpt))

/-- What a run of a command had staged when its checkpoint was saved. -/
def savedStage (s : State) (c : Cmd) (prog : Nat) : Option (List (Nat × Byte)) :=
  c.desc.bind (fun d => (s.bench.saved.find? (fun v => decide (v.addr = d.ckptBase + prog * ckptSize))).map (·.staged))

/-- What a run that the kill found has staged is gone (R118, R384); what it staged before a saved checkpoint stands, and so do the records that it
combined with those of other runs. -/
def dropRunStaged (s : State) (c : Cmd) (r : ProgRun) : State :=
  if r.kind ≠ .main then s
  else if r.ckpt then (match savedStage s c r.prog with
    | some kept => dropSince s (runKey c.key r.prog) kept
    | none => s)
  else if soleRun c r then dropStaged s c.key else dropRun s (runKey c.key r.prog)

/-- Bench hears of the fault of a run (R373, R385, R418): it is reported, its time is waste, its pending counter record is discarded (R199), and it
is not dispatched any more. -/
def faultRun (s : State) (c : Cmd) (r : ProgRun) (k : Nat) : State :=
  let s1 := sendReport (settleTime s c.part k true) c r.prog r.kind k (s.regFld (Reg.coreFault k) 0 16)
  mapRun (if r.kind = .main then discardRecord s1 k c.key else s1) c.key r.prog r.kind (fun r => { r with st := .queued })

/-- RESULT of a program fault (R357). -/
def faultResult (s : State) (k prog : Nat) : Nat :=
  let w := s.reg (Reg.coreFault k)
  fld w 32 32 + fld w 16 3 * 2 ^ 32 + prog * 2 ^ 40 + s.regFld (Reg.coreTpfaux k) 56 8 * 2 ^ 56

/-- A command ends with a program's fault; of several programs' faults the lowest index is reported (R357). A quarantine that the fault itself
brought (R428) has already put the command into CANCELLING: the fault is still its reason. -/
def faultCmd (s : State) (c : Cmd) (prog k : Nat) : State :=
  let code := s.regFld (Reg.coreFault k) 0 16
  let res := faultResult s k prog
  let earlier := decide (c.st = .cancelling) && decide (0x0200 ≤ c.reason) && decide (c.reason < 0x0500) &&
    decide (prog < bitsOf c.result 40 7)
  let swept := decide (c.reason = 0x0112) && !c.member
  if c.st = .cancelling then
    if earlier || swept then mapCmd s c.key (fun c => { c with reason := code, result := res }) else s
  else markCancel c.key code (mapCmd s c.key (fun c => { c with result := res }))

/-- Bench takes the fault of a run of a command that it is cancelling: the lowest program index that faulted stays the one reported (R357). -/
def faultTaken (s : State) (c : Cmd) (r : ProgRun) (k : Nat) : State :=
  let s1 := faultRun s c r k
  match s1.cmd c.key with
  | some d => faultCmd s1 d r.prog k
  | none => s1

/-- A run killed: its time is waste, its pending counter record is discarded (R199), its staged writes have no effect (R118), and the program is
queued again (R373). A kill of a run that has ended is void (R119, R392); of one that has faulted Bench takes the fault. -/
def killRun (s : State) (c : Cmd) (r : ProgRun) (k : Nat) : State :=
  if killReaches s k then
    let s1 := killCore (settleTime s c.part k true) k
    let s2 := if r.kind = .main then discardRecord s1 k c.key else s1
    mapRun (dropRunStaged s2 c r) c.key r.prog r.kind (fun r => { r with st := .queued, rerun := true, queuedAt := s.now })
  else if faultStands s k then faultTaken s c r k
  else s

/-- KILL (R118, R119): Bench kills the program on a core. -/
def execKill (core : Fin 96) (t : Nat) (s : State) : Out :=
  let s := s.at t
  let k := core.val
  if !killReaches s k then .next s
  else match runOn s k, tieOn s k with
    | some (c, r), _ => .next (killRun s c r k)
    | none, some x => .next (dropTies (killCore (settleTime s x.cmd.part k true) k)
        (fun g => decide (g.key = x.cmd.key) && decide (g.prog = x.prog)))
    | none, none => .next (killCore s k)

/-- Every run of a command killed. -/
def killRuns (s : State) (key : Nat) : State :=
  match s.cmd key with
  | none => s
  | some c => c.runs.foldl (fun s r => match r.st with
    | .active k => killRun s c r k
    | _ => s) s

/-- A kill of the run on a core for pre-emption, counted (R403). -/
def preemptKill (s : State) (k : Nat) : State :=
  match runOn s k with
  | some (c, r) => (killRun s c r k).bump (Reg.benchPrekill (k / 8)) 1
  | none => s

/-! ## Ends and faults (R373, R380, R410) -/

/-- Whether the run a core's report concerns is Bench's: the core's context is that of the run. -/
def reportFits (s : State) (c : Cmd) (r : ProgRun) (k : Nat) : Bool :=
  decide (s.cmdOwner k = c.key) && decide ((s.core k).run.prog = r.prog) && decide ((s.core k).run.kind = r.kind)

/-- A run has ended: a main run of a class S command is followed by its reblow run (R380); with every run ended the command is ENDED. -/
def runEnded (s : State) (c : Cmd) (r : ProgRun) (k : Nat) : State :=
  let e := (s.core k).runTime
  let fl := s.regFld (Reg.coreAflags k) 0 6
  let log := (s.core k).debugLog
  let s1 := sendReport (settleTime s c.part k false) c r.prog r.kind k 0
  let s2 := mapRun s1 c.key r.prog r.kind (fun r =>
    { r with st := .done k, time := r.time + e, flags := r.flags ||| fl, log := log })
  let s3 := if c.cls = 0 ∧ r.kind = .main then
      mapCmd s2 c.key (fun c => { c with
        runs := c.runs ++ [⟨r.prog, .reblow, .queued, false, false, false, 0, 0, s.now, []⟩] })
    else s2
  noteMet (mapCmd s3 c.key (fun c =>
    if c.st = .running ∧ c.runs.all (fun q => match q.st with
      | .done _ => true
      | _ => false) then { c with st := .ended } else c))

/-- RUN_END (R373, R385, R392): the program on a core has ended, and the core is IDLE, or has been quarantined since. -/
def execRunEnd (core : Fin 96) (t : Nat) (s : State) : Out :=
  let s := s.at t
  let k := core.val
  if !endStands s k then .next s
  else match runOn s k, tieOn s k with
    | some (c, r), _ => if c.st = .running ∧ reportFits s c r k then .next (runEnded s c r k) else .next s
    | none, some x => .next (removeTie (sendReport (settleTime s x.cmd.part k false) x.cmd x.prog .tiebreak k 0) x)
    | none, none => .next s

/-- RUN_FAULT (R373, R357, R410): the run on a core has faulted; the command is cancelled and its other runs are killed. -/
def execRunFault (core : Fin 96) (t : Nat) (s : State) : Out :=
  let s := s.at t
  let k := core.val
  if !faultStands s k then .next s
  else
    let code := s.regFld (Reg.coreFault k) 0 16
    match runOn s k, tieOn s k with
    | some (c, r), _ => .next (killRuns (faultCmd (faultRun s c r k) c r.prog k) c.key)
    | none, some x => .next (removeTie (sendReport (settleTime s x.cmd.part k true) x.cmd x.prog .tiebreak k code) x)
    | none, none => .next s

/-- RUN_LIMIT_EXPIRED (R387, R373). On a run that has ended or faulted the kill is void (R119, R392), and so is the expiry. -/
def execRunLimitExpired (core : Fin 96) (t : Nat) (s : State) : Out :=
  let s := accrue (s.at t) core.val
  let k := core.val
  let counted (s : State) : State := s.bump (Reg.benchRunlimcnt (k / 8)) 1
  if (s.core k).runTime ≤ (s.core k).limit ∨ !killReaches s k then .next s
  else match runOn s k, tieOn s k with
    | some (c, r), _ => .next (killRuns (markCancel c.key 0x0110 (counted (killRun s c r k))) c.key)
    | none, some x => .next (dropTies (counted (killCore (settleTime s x.cmd.part k true) k))
        (fun g => decide (g.key = x.cmd.key) && decide (g.prog = x.prog)))
    | none, none => .next s

/-! ## Checkpoints (R174, R390) -/

/-- CHECKPOINT_SAVE_DONE (R174, R117, R98, R385): the image is written, and the program is queued for resumption. -/
def execCheckpointSaveDone (core : Fin 96) (meets : SaveMeets) (t : Nat) (s : State) : Out :=
  let s := accrue (s.at t) core.val
  let k := core.val
  if s.coreSt k ≠ .ckpt then .next s
  else
    let r := saveCkpt s k meets.upset meets.ecc
    match r.2 with
    | some f => .next (tileFault r.1 k 4 0 f)
    | none =>
      let e := (r.1.core k).runTime
      let s1 := (settleTime r.1 (s.cmdPart k) k false).bump (Reg.benchCkptcnt (k / 8)) 1
      match runOn s1 k with
      | some (c, q) => .next (toIdle (mapRun s1 c.key q.prog q.kind (fun q =>
          { q with st := .queued, ckpt := true, time := q.time + e, queuedAt := s.now })) k)
      | none => .next (toIdle s1 k)

/-- DEV_SCHEDCTL.CKPTWAIT in ns. -/
def State.ckptWait (s : State) : Nat := s.regFld Reg.devSchedctl 20 16 * 1000

/-- CHECKPOINT_WAIT_TIMEOUT (R390, R173): no boundary within CKPTWAIT, or the core refused the request. -/
def execCheckpointWaitTimeout (core : Fin 96) (t : Nat) (s : State) : Out :=
  let s := s.at t
  let k := core.val
  let w := s.reg (Reg.coreTpckpt k)
  let late := bitAt w 48 && decide ((s.core k).ckptSince + s.ckptWait ≤ s.now)
  if (s.coreSt k = .run ∨ s.coreSt k = .halt) ∧ (late || bitAt w 50) then .next (preemptKill s k) else .next s

/-- The staging of a command at a crucible: lines of its runs, or combine targets. -/
def stagesAt (s : State) (key prog k : Nat) : Bool :=
  (lines64 (stagedOf s (runKey key prog))).any (fun l => decide (homeOf s (64 * l) = k)) ||
    s.fab.comb.any (fun x => decide (x.owner = key) && decide (homeOf s x.base = k))

/-! ## Pre-emption (R384, R389) -/

/-- A possible victim: its command, run and core. -/
structure Victim where
  cmd : Cmd
  run : ProgRun
  core : Nat
  deriving DecidableEq, Repr

/-- The runs that may be victims at all: main runs of class T and B on cores in RUN or HALT without a request pending. -/
def victims (s : State) : List Victim :=
  s.bench.cmds.flatMap (fun c => c.runs.filterMap (fun r => match r.st with
    | .active k => if c.cls ≠ 0 ∧ r.kind = .main ∧ (s.coreSt k = .run ∨ s.coreSt k = .halt) ∧ !s.ckptReq k then some ⟨c, r, k⟩ else none
    | _ => none))

/-- The order in which victims are chosen (R389): speculative, class B, class T; then highest VT; then the latest dispatch. -/
def victimKey (s : State) (v : Victim) : List Nat :=
  [if v.cmd.spec then 0 else if 2 ≤ v.cmd.cls then 1 else 2, 2 ^ 64 - s.regFld (Reg.devVt v.cmd.part) 0 64, 2 ^ 80 - v.run.queuedAt, v.core]

/-- The first victim in that order. -/
def firstVictim (s : State) : List Victim → Option Victim
  | [] => none
  | v :: vs => some (vs.foldl (fun a b => if lexLt (victimKey s b) (victimKey s a) then b else a) v)

/-- A run without an eligible core. -/
def stuck (s : State) (x : Cand) : Bool := (placeRun s x).isNone

/-- Whether a core, once it is free of the run of `owner`, is eligible for a run (R377, R379, R380, R429). -/
def couldServe (s : State) (x : Cand) (owner : Option Nat) (k : Nat) : Bool :=
  coreMayServe s k x.cmd.part x.cmd.cls && recordsAllow s k x.cmd.part owner &&
    (match x.kind, x.tie with
      | .tiebreak, some t => tieFits s t x.cmd.est k
      | .reblow, _ => decide ((mainCore x.cmd x.prog).map (reblowCore s) = some k)
      | _, _ => match boundCore s x.cmd x.prog with
        | some b => decide (b = k)
        | none => true)

/-- The cores that pre-emption is already freeing. -/
def freeing (s : State) : List Nat :=
  (bookedCores s).filter (fun k => decide (s.coreSt k = .ckpt) || (decide (s.coreSt k = .run) && s.ckptReq k)) ++
    allCores.filter (fun k => decide (s.coreSt k = .kill))

/-- Whether a run has itself waited QUANTUM (R389). -/
def waitedQuantum (s : State) (x : Cand) : Bool :=
  x.cmd.runs.any (fun r => decide (r.prog = x.prog) && decide (r.kind = x.kind) && decide (r.queuedAt + s.quantum ≤ s.now))

/-- The runs that may pre-empt now, in the tier order: tiers 1 and 2, and tier 3 runs that have waited QUANTUM. -/
def preemptors (s : State) : List Cand :=
  (sortCands (waitingRuns s)).filter (fun x => stuck s x &&
    (decide (x.order.headD 0 ≤ 2) || (decide (x.order.headD 0 = 3) && s.bench.quantum.contains x.cmd.key && waitedQuantum s x)))

/-- The first run for which none of the cores being freed is left; each core serves one run. -/
def unserved (s : State) : List Cand → List Nat → Option Cand
  | [], _ => none
  | x :: xs, ks => match ks.find? (couldServe s x (some x.cmd.key)) with
    | some k => unserved s xs (ks.erase k)
    | none => some x

/-- Whether a run may be the victim of a pre-emptor (R389). -/
def victimFor (s : State) (x : Cand) (v : Victim) : Bool :=
  let tier := tierOf s v.cmd
  let q := x.order.headD 0
  couldServe s x (some v.cmd.key) v.core &&
    (if q = 1 then decide (2 ≤ tier) else decide (3 ≤ tier)) &&
    (decide (q ≠ 3) || (decide (s.regFld (Reg.devVt x.cmd.part) 0 64 < s.regFld (Reg.devVt v.cmd.part) 0 64) &&
      decide (v.run.queuedAt + s.quantum ≤ s.now)))

/-- A victim killed or asked for a checkpoint (R390). -/
def takeVictim (s : State) (v : Victim) : State :=
  let long := decide (v.cmd.est = 0) || decide (s.quantum ≤ v.cmd.est)
  let base := match v.cmd.desc with
    | some d => d.ckptBase
    | none => 0
  if long ∧ (s.core v.core).nckpt ≠ 0 ∧ base ≠ 0 ∧ !v.cmd.spec ∧ s.coreSt v.core = .run then requestCkpt s v.core
  else preemptKill s v.core

/-- Whether the store engine of a core waits for staging at a crucible. -/
def stallsAt (s : State) (core k : Nat) : Bool := if h : core < 96 then storeStalls s ⟨core, h⟩ k else false

/-- R384: every dispatched run whose writes go to a crucible waits for staging there, and at least one does. -/
def allStalled (s : State) (k : Nat) : Bool :=
  let on := s.bench.cmds.flatMap (fun c => c.runs.filterMap (fun r => match r.st with
    | .active core => if stallsAt s core k || stagesAt s c.key r.prog k then some core else none
    | _ => none))
  decide (on ≠ []) && on.all (fun core => stallsAt s core k)

/-- PREEMPT (R389, R384): one victim for the first run that may pre-empt and for which no core is being freed; or, when every dispatched run that
writes to a crucible waits there on staging that its next store does not fit, one victim that writes there. -/
def execPreempt (staging : Option (Fin 4)) (t : Nat) (s : State) : Out :=
  let s := s.at t
  match staging with
  | some k =>
    if !allStalled s k.val then .next s
    else match firstVictim s ((victims s).filter (fun v => decide (3 ≤ tierOf s v.cmd) && stagesAt s v.cmd.key v.run.prog k.val)) with
      | some v => .next (preemptKill s v.core)
      | none => .next s
  | none =>
    match unserved s (preemptors s) (freeing s) with
    | none => .next s
    | some x => match firstVictim s ((victims s).filter (victimFor s x)) with
      | some v => .next (takeVictim s v)
      | none => .next s

/-- PREEMPT_QUANTUM (R389): a run of the command has waited QUANTUM. -/
def execPreemptQuantum (part : Fin 16) (seq : BitVec 32) (t : Nat) (s : State) : Out :=
  let s := s.at t
  let key := cmdKey part.val seq.toNat
  match s.cmd key with
  | none => .next s
  | some c =>
    let waited := (decide (c.st = .ready) || decide (c.st = .running)) && c.runs.any (fun r =>
      decide (r.st = .queued) && decide (r.queuedAt + s.quantum ≤ s.now))
    if waited ∧ tierOf s c = 3 ∧ !s.bench.quantum.contains key then
      .next { s with bench := { s.bench with quantum := s.bench.quantum ++ [key] } }
    else .next s

/-! ## Reheat windows (R397-R399) -/

/-- RHMIN + 2 microseconds. -/
def State.rhNeed (s : State) : Nat :=
  let r := s.regFld Reg.devSchedctl 52 6
  ((if 1 ≤ r ∧ r ≤ 40 then r else 40) + 2) * 1000

/-- Whether an S-class reservation concerns a die. -/
def sresOn (s : State) (d n : Nat) : Bool := bitAt (s.reg (Reg.devSres n)) 46 && bitAt (s.reg (Reg.devSres n)) (34 + d)

/-- The starts of the windows of an S-class reservation that the boundaries so far and the next one bring, START after each. -/
def sresStarts (s : State) (n : Nat) : List Nat :=
  (s.frame.past ++ s.frame.latest.toList ++ (frameEnd s s.frmcnt).toList).map (· + fld (s.reg (Reg.devSres n)) 0 17 * 1000)

/-- The next start of an S-class reservation on a die (R397 point 1). -/
def sresLimit (s : State) (d n : Nat) : Option Nat :=
  if !sresOn s d n then none else ((sresStarts s n).filter (fun x => decide (s.now ≤ x))).min?

/-- Whether an S-class reservation blocks slices on a die now (R399): one of its windows has begun and lasts, over however many boundaries. -/
def sresBlocks (s : State) (d n : Nat) : Bool :=
  sresOn s d n && (sresStarts s n).any (fun x => decide (x ≤ s.now) && decide (s.now < x + fld (s.reg (Reg.devSres n)) 17 17 * 1000))

/-- When the boundary comes that starts a class S command waiting only on FRAMEB (R397 point 2). -/
def sWaitLimit (s : State) (c : Cmd) : Option Nat :=
  if c.st = .waiting ∧ c.cls = 0 ∧ !frameBegun s c ∧ c.dep.isNone ∧ firmConditions s c then predictBoundary s c.frame else none

/-- The end of a reheat window on a die; none where nothing limits it. -/
def windowEnd (s : State) (d : Nat) : Option Nat :=
  let l := (List.range 16).filterMap (sresLimit s d) ++ s.bench.cmds.filterMap (sWaitLimit s) ++ (frameEnd s s.frmcnt).toList
  match l with
  | [] => none
  | x :: xs => some (xs.foldl min x)

/-- The IDLE cores of a die with no waiting run that they are eligible for (R397). -/
def reheatCores (s : State) (d : Nat) : List Nat :=
  (coresOfDie d).filter (fun k => decide (s.coreSt k = .idle) && !(bookedCores s).contains k &&
    !((waitingRuns s).any (fun x => coreEligible s k x.cmd.part x.cmd.cls)))

/-- The length of a slice on a core in ns (R398): at most 40 microseconds, and the window less 2, scaled by CAP. -/
def sliceLength (s : State) (d k : Nat) : Nat :=
  let window := match windowEnd s d with
    | some e => min 40000 (e - s.now - 2000)
    | none => 40000
  estAt window (s.coreCap k)

/-- REHEAT_SLICE_START (R397-R399): the candidate whose last complete pass is oldest starts a slice; where the window is too short it counts a
missed slice, once per frame. Nothing starts, and nothing is missed, while a reservation blocks the die. -/
def execReheatSliceStart (die : Fin 12) (t : Nat) (s : State) : Out :=
  let s := s.at t
  let d := die.val
  if (List.range 16).any (sresBlocks s d) then .next s
  else match bestCore (fun k => [(s.reg (Reg.thermRht k)).toNat, k]) (reheatCores s d) with
  | none => .next s
  | some k =>
    let fits := match windowEnd s d with
      | some e => decide (s.now + s.rhNeed ≤ e)
      | none => true
    if fits then
      let s1 := { s with therm := { s.therm with
        slices := s.therm.slices ++ [k], sliceEnds := sput 0 s.therm.sliceEnds k (s.now + sliceLength s d k) } }
      .next ((s1.setCoreSt k .reheat).bump (Reg.benchRhslice d) 1)
    else if s.bench.missed.contains k then .next s
    else .next ({ s with bench := { s.bench with missed := s.bench.missed ++ [k] } }.bump (Reg.benchRhmiss d) 1)

end Sys2Proof.Machine
end

