-- ==== Sys2Proof/Machine/Commit.lean ====
section
/-! DEFINITION. Commits and cancellation closures (R362-R364, R381-R383, R395, R606): the deliveries a commit forms, the steps of a commit, the
record of a command that ends without commit, and the closure of a cancelled command. -/

namespace Sys2Proof.Machine

/-! ## Deliveries (R606, R607) -/

/-- BLOWPIPE_FWDnA.SRCBASE in bytes. -/
def fwdBase (s : State) (n : Nat) : Nat := s.regFld (Reg.blowpipeFwda n) 12 36 * 4096

/-- BLOWPIPE_FWDnB.SIZE in bytes. -/
def fwdSize (s : State) (n : Nat) : Nat := s.regFld (Reg.blowpipeFwdb n) 0 24 * 4096

/-- DEST and INCH of an outbound channel. -/
def fwdDest (s : State) (n : Nat) : Nat × Nat := (s.regFld (Reg.blowpipeFwdb n) 32 6, s.regFld (Reg.blowpipeFwdb n) 38 5)

/-- A number put into a rising list, once. -/
def insNat (x : Nat) : List Nat → List Nat
  | [] => [x]
  | y :: ys => if x = y then y :: ys else if x < y then x :: y :: ys else y :: insNat x ys

/-- A combine target with the block it becomes at the flip (R490). -/
def combBlocks (s : State) (owner : Nat) : List (CombTarget × List Byte) :=
  (s.fab.comb.filter (fun x => decide (x.owner = owner))).map (fun x => (x, combBlock x))

/-- The 128-byte lines that a command staged, rising; a combine target counts as staged. -/
def deliveryLines (s : State) (owner : Nat) : List Nat :=
  let blocks := (combBlocks s owner).flatMap (fun p => (List.range ((p.2.length + 127) / 128)).map (p.1.base / 128 + ·))
  (linesOf (stagedAll s owner) ++ blocks).foldl (fun l x => insNat x l) []

/-- A staged byte of a command, a completed combine target's bytes prevailing. -/
def deliveryByte (s : State) (owner : Nat) (blocks : List (CombTarget × List Byte)) (a : Nat) : Option Byte :=
  match blocks.find? (fun p => decide (p.1.base ≤ a) && decide (a < p.1.base + p.2.length)) with
  | some p => p.2[a - p.1.base]?
  | none => (stagedAll s owner).lookup a

/-- The record block that holds a line: a combine target, or a block that STACC staged whole with its header (R167). The bytes of its tile
state, its base and its rows. -/
def blockOfLine (s : State) (owner : Nat) (blocks : List (CombTarget × List Byte)) (line : Nat) : Option (List Byte × Nat × Nat) :=
  let all := stagedAll s owner
  let heads := (linesOf all).filterMap (fun l =>
    let h := ((List.range 32).filterMap (fun i => all.lookup (l * 128 + i)))
    let rows := leAt h 14 2 + 1
    if h.length = 32 ∧ headerOk h ∧ l * 128 ≤ line * 128 ∧ line * 128 < l * 128 + 32 + rows * 2048 then
      some (sliceBytes h 2 11, l * 128, rows)
    else none)
  match blocks.find? (fun p => decide (p.1.base ≤ line * 128) && decide (line * 128 < p.1.base + p.2.length)) with
  | some p => some (sliceBytes p.2 2 11, p.1.base, p.1.rows)
  | none => heads.head?

/-- One line of a delivery, its addresses counted from SRCBASE. -/
def deliveryLine (s : State) (owner : Nat) (mode : Bool) (lo line : Nat) : BpLine :=
  let blocks := combBlocks s owner
  let bytes := (List.range 128).map (fun i => deliveryByte s owner blocks (line * 128 + i))
  match if mode then blockOfLine s owner blocks line else none with
  | some (tile, base, rows) => ⟨line * 128 - lo, bytes, tile, base - lo, rows⟩
  | none => ⟨line * 128 - lo, bytes, [], 0, 0⟩

/-- The delivery of one outbound channel, when the commit staged a line in its range: it takes the channel's next generation and keeps its destination. -/
def formDelivery (s : State) (owner part cls n : Nat) : State :=
  let w := s.reg (Reg.blowpipeFwda n)
  let lo := fwdBase s n
  let ls := (deliveryLines s owner).filter (fun l => decide (lo ≤ l * 128) && decide (l * 128 < lo + fwdSize s n))
  if !bitAt w 0 || decide (fld w 2 4 ≠ part) || ls.isEmpty then s
  else
    let g := (sget 0 s.blow.lastGen n + 1) % 2 ^ 32
    { s with blow := { s.blow with
      lastGen := sput 0 s.blow.lastGen n g
      out := s.blow.out ++ [⟨n, g, cls, ls.map (deliveryLine s owner (bitAt w 1) lo), none, false, none, (fwdDest s n).1, (fwdDest s n).2⟩] } }

/-- The deliveries a commit forms (R606). -/
def formDeliveries (s : State) (owner part cls : Nat) : State :=
  (List.range 32).foldl (fun s n => formDelivery s owner part cls n) s

/-! ## The end of a command -/

/-- A command leaves the scoreboard: its record is written and its entry freed (R356, R358, R373). TDONE of a command past its commit point is the
moment of that point. -/
def finishCmd (s : State) (c : Cmd) (status result : Nat) : State :=
  let s1 := if c.noRecord then s else writeRecord s c.ring c.entry status result c.everSpec (c.flipAt.getD s.now)
  let s2 := { s1 with bench := { s1.bench with
    cmds := s1.bench.cmds.filter (fun d => decide (d.key ≠ c.key))
    quantum := s1.bench.quantum.filter (fun q => decide (q ≠ c.key)) } }
  settleFunction (ringSettle (syncLive s2 c.ring) c.ring) c.part

/-! ## Commit (R381, R382) -/

/-- R357, R385: RESULT of a command that commits. -/
def commitResult (s : State) (c : Cmd) : Nat :=
  if c.op = 0x01 then s.now
  else if runsPrograms c.op then
    let time := (c.runs.map (·.time)).foldl (· + ·) 0
    let fl := (c.runs.map (·.flags)).foldl (· ||| ·) 0
    min (2 ^ 48 - 1) time + fl % 64 * 2 ^ 48
  else if c.op = 0x20 ∨ c.op = 0x21 then 0
  else c.result

/-- R365: STATUS of a command that commits. -/
def commitStatus (c : Cmd) : Nat :=
  if runsPrograms c.op then (if c.runs.any (·.resumed) then 0x0002 else if c.runs.any (·.rerun) then 0x0001 else 0)
  else c.status

/-- Where the main runs of a command ended (R379); whether such a core holds a binding to the partition is tested when a dependant is placed. -/
def boundRuns (c : Cmd) : List (Nat × Nat) :=
  c.runs.filterMap (fun r => match r.st, r.kind with
    | .done k, .main => some (r.prog, k)
    | _, _ => none)

/-- R382 step 4: DEP dependants go on, with the cores that the command's programs ran on, and nothing waits to follow the command any more. Where its programs ran is
kept for dependants that come later (R379). -/
def freeDependants (s : State) (c : Cmd) : State :=
  let b := boundRuns c
  let deps := (s.bench.cmds.filter (fun d => decide (d.dep = some c.key))).map Cmd.key
  let s1 := { s with bench := { s.bench with
    ranOn := sput [] s.bench.ranOn c.key b
    cmds := s.bench.cmds.map (fun d =>
      let d1 := if d.dep = some c.key then { d with dep := none, srcDep := false, bound := b } else d
      { d1 with follows := d1.follows.filter (fun k => decide (k ≠ c.key)) }) } }
  deps.foldl syncSpec s1

/-- R376: the triggers that a commit of a RUN_LAYER with FRAMEB = 1 arms. -/
def armTriggers (s : State) (c : Cmd) : State :=
  if c.op ≠ 0x10 ∨ !c.frameb then s
  else
    let hit := (List.range 8).filter (fun n =>
      let w := s.reg (Reg.devMtrigcfg n)
      bitAt w 18 && decide (fld w 12 4 = c.part) && decide (fld w 0 12 = c.layer) && (decide (fld w 16 2 = 1) || decide (fld w 16 2 = 2)))
    { s with bench := { s.bench with triggers := s.bench.triggers ++ hit.map (fun n =>
      (⟨n, (c.frame + 2 ^ 32 - s.regFld (Reg.devMtrigcfg n) 19 2) % 2 ^ 32, c.part, s.regFld (Reg.devMtrigcfg n) 16 2,
        s.regFld (Reg.devMtrigaddr n) 2 46 * 4, c.key⟩ : TrigArmed)) } }

/-- R441: a commit of a RUN_LAYER with FRAMEB = 1 kicks the stages with SRC 1 that name it. -/
def kickCommit (s : State) (c : Cmd) : State :=
  if c.op ≠ 0x10 ∨ !c.frameb then s
  else evalFrame (kickFor s c.frame 1 (fun w => decide (fld w 0 4 = c.part) && decide (fld w 4 12 = c.layer))) c.frame

/-- R382 step 5: the record of a command that committed is written. -/
def commitRecordOf (s : State) (c : Cmd) : State := noteMet (finishCmd s c (commitStatus c) (commitResult s c))

/-- The commit steps of R382, in their order. With triggers armed the record waits until the last of them has fired (step 4 before step 5). -/
def commitSteps (s : State) (ecc : MemEcc) (c : Cmd) : State :=
  let s1 := s.bump Reg.devCommitidx 1
  let s2 := flipStaged (formDeliveries s1 c.key c.part c.cls) ecc c.key
  let s3 := commitRecords s2 c.key
  let s4 := allCores.foldl (fun s k => if (s.core k).records.any (fun r => decide (r.owner = c.key)) then
    retrySignals (commitRecord s k c.key) k else s) s3
  let s5 := kickCommit (armTriggers (freeDependants s4 c) c) c
  let s6 := if inFrameSet s5 c then memberCommitted s5 c else s5
  if s6.bench.triggers.any (fun a => decide (a.key = c.key)) then
    noteMet (mapCmd s6 c.key (fun d => { d with flipAt := some s6.now }))
  else commitRecordOf s6 c

/-- COMMIT (R381, R382): the commit sequencer takes a command that meets the conditions, in the order in which they met them. -/
def execCommitCommand (part : Fin 16) (seq : BitVec 32) (flip : FlipAt) (s : State) : Out :=
  let s := s.at flip.t
  match s.cmd (cmdKey part.val seq.toNat) with
  | none => .next s
  | some c => if nextCommit s c.key then .next (poisonRuns s (commitSteps s flip.ecc c)) else .next s

/-- A spilled line is home: the copier holds it no longer, and the lines in use are counted anew (R383). -/
def spillCopied (s : State) (p : Nat × Nat) : State :=
  syncStage { s with bench := { s.bench with spillCopies := s.bench.spillCopies.erase p } } p.1

/-- SPILL_COPY_DONE (R383, R504): the oldest flipped line of a crucible's spill region lands at its home: 64 bytes read from the spill region and 64 written
by the spill copier, class B. DEDUCED: each is a request of identity 20, metered where it is homed. -/
def execSpillCopyDone (cruc : Fin 4) (s : State) : Out :=
  match s.bench.spillCopies.find? (fun p => decide (p.1 = cruc.val)) with
  | none => .next s
  | some p =>
    let s1 := admitRequest (admitRequest s (homeOf s (s.regFld (Reg.devStagecfg cruc.val) 20 28 * 2 ^ 20)) 20 2 64) cruc.val 20 2 64
    .next (spillCopied s1 p)

/-! ## Closures (R395) -/


/-- The status of a member (R395): the command that was cancelled keeps its reason, a DEP dependant of a member carries DEP_FAILED, whatever else it
is, and any other CANCELLED. -/
def memberReason (s : State) (ms : List (Nat × Nat)) (p : Nat × Nat) : Nat :=
  if some p.1 = ms.head?.map (·.1) then p.2
  else match (s.cmd p.1).bind (·.dep) with
    | some d => if ms.any (fun q => decide (q.1 = d)) then 0x010F else p.2
    | none => p.2

/-- A run of a member that has ended on its core, and that Bench has not heard of yet, is settled as one that ended. -/
def settleEnded (s : State) (c : Cmd) : State :=
  c.runs.foldl (fun s r => match r.st with
    | .active k => if endStands s k ∧ reportFits s c r k then settleTime s c.part k false else s
    | _ => s) s

/-- What Bench does for a member of a closure (R395 steps 1 to 3): its runs are killed, its checkpoints and staged lines discarded, its pending
counter records dropped and its reservations rolled back. -/
def cancelMember (s : State) (key : Nat) : State :=
  match s.cmd key with
  | none => s
  | some c =>
    let s1 := killRuns (settleEnded s c) key
    let s2 := mapCmd s1 key (fun c => { c with
      member := true, runs := c.runs.map (fun r => { r with st := .queued, ckpt := false }) })
    let s3 := allCores.foldl (fun s k => if (s.core k).records.any (fun r => decide (r.owner = key)) then
      retrySignals (discardRecord s k key) k else s) (dropStaged s2 key)
    dropSigs (rollbackNow s3 key) key

/-- CANCELLATION_CLOSURE (R395): Bench forms the closure of a cancelled command and cancels every member. -/
def execCancellationClosure (part : Fin 16) (seq : BitVec 32) (t : Nat) (s : State) : Out :=
  let s := s.at t
  let key := cmdKey part.val seq.toNat
  match s.cmd key with
  | none => .next s
  | some c =>
    if c.st ≠ .cancelling ∨ c.member then .next s
    else
      let members := closureOf (8192 + s.bench.cmds.length) s [key] [(key, c.reason)]
      let s1 := members.foldl (fun u p => markCancel p.1 (memberReason s members p) u) s
      let s2 := (members.filter (fun p => decide (p.1 ≠ key))).foldl (fun u p => mapCmd u p.1 (fun d => { d with member := true })) s1
      .next (members.foldl (fun s p => cancelMember s p.1) s2)

/-- The members of a partition's closures in the order of consumption. -/
def members (s : State) (p : Nat) : List Cmd :=
  s.bench.cmds.filter (fun c => decide (c.part = p) && decide (c.st = .cancelling) && c.member)

/-- Whether a record with this status reports a RESULT of its own: a program's fault (R357), a check of a change block (R582). -/
def resultReported (code : Nat) : Bool :=
  (decide (0x0200 ≤ code) && decide (code < 0x0500)) || (decide (0x0940 ≤ code) && decide (code ≤ 0x0947))

/-- The record of a member: its reason, and its RESULT where the reason has one. -/
def finishMember (s : State) (c : Cmd) : State :=
  let s1 := finishCmd s c c.reason (if resultReported c.reason then c.result else 0)
  if inFrameSet s c then memberFailed s1 c.frame c.key else s1

/-- CLOSURE_DONE (R395, R364): every program of the partition's members has settled; their records are written, after that of a command past its commit
point (R359), and the frame sets they belonged to are refused (R423). -/
def execClosureDone (part : Fin 16) (t : Nat) (s : State) : Out :=
  let s := s.at t
  let cs := members s part.val
  let open' := s.bench.cmds.any (fun c => decide (c.part = part.val) && decide (c.st = .cancelling) && !c.member)
  if open' ∨ !cs.all (fun c => settled s c.key) ∨ s.bench.cmds.any (fun c => decide (c.part = part.val) && c.flipped) then .next s
  else .next (noteMet (cs.foldl finishMember s))

end Sys2Proof.Machine
end

