-- ==== Sys2Proof/Machine/Commands.lean ====
section
/-! DEFINITION. The Bomus commands that run no tile program (R338, R343, R345-R349, R362-R364, R426, R427): what each does once it is started. -/

namespace Sys2Proof.Machine

/-! ## Operations -/

/-- A live command with an opcode whose operation may be carried out: READY, which starts it, or RUNNING. -/
def opCmd (s : State) (part seq op : Nat) : Option Cmd :=
  (s.cmd (cmdKey part seq)).bind (fun c => if c.op = op ∧ (c.st = .ready ∨ c.st = .running) then some c else none)

/-- An operation has finished: with a success the command is ENDED, with any other status it is cancelled (R373). -/
def endOp (s : State) (c : Cmd) (status result : Nat) : State :=
  if status < 0x0100 then noteMet (mapCmd s c.key (fun c => { c with st := .ended, status := status, result := result }))
  else markCancel c.key status s

/-- NOP_COMMAND (R338): the NOP ends, and commits at once when the commit sequencer may take it. -/
def execNopCommand (part : Fin 16) (seq : BitVec 32) (t : Nat) (s : State) : Out :=
  let s := s.at t
  match opCmd s part.val seq.toNat 0x01 with
  | none => .next s
  | some c =>
    let s1 := endOp s c 0 0
    match s1.cmd c.key with
    | none => .next s1
    | some d => if nextCommit s1 d.key then .next (commitSteps s1 .clean d) else .next s1

/-- What an ABORT makes of its target (R362, R363): its own status, and whether the target is aborted. -/
def abortOutcome (s : State) (c : Cmd) : Nat × Option Nat :=
  let tseq := leAt c.entry 16 4
  let tring := leAt c.entry 20 1
  let key := cmdKey c.part tseq
  let past : Nat × Option Nat :=
    if !s.bench.lastSet.contains tring ∨ newer32 tseq (s.regFld (Reg.bomusLastseq tring) 0 32) then (0x0114, none) else (0x0113, none)
  if ringOwner s tring ≠ c.part ∨ (tring = c.ring ∧ tseq = c.seq) then (0x0114, none)
  else match s.cmd key with
    | some d =>
      if d.ring ≠ tring then past
      else if d.st = .cancelling ∨ d.flipped then (0x0113, none)
      else if abortable d then (0, some key)
      else (0x0117, none)
    | none => past

/-- ABORT (R362-R364): settled with the target's commit at one ordering point. The target's record comes first: no command of the partition commits
before the closure has completed (R381). -/
def execAbort (part : Fin 16) (seq : BitVec 32) (t : Nat) (s : State) : Out :=
  let s := s.at t
  match opCmd s part.val seq.toNat 0x02 with
  | none => .next s
  | some c =>
    let r := abortOutcome s c
    let s1 := match r.2 with
      | some key => markCancel key 0x0111 s
      | none => s
    .next (endOp s1 c r.1 0)

/-! ## Layers (R343) -/

/-- KDESC of REGISTER_LAYER. -/
def Cmd.kdesc (c : Cmd) : Nat := leAt c.entry 24 8

/-- REGISTER_LAYER (R342, R343). -/
def execRegisterLayer (part : Fin 16) (seq : BitVec 32) (ecc : MemEcc) (t : Nat) (s : State) : Out :=
  let s := s.at t
  match opCmd s part.val seq.toNat 0x12 with
  | none => .next s
  | some c =>
    let key := layerKey c.part c.layer
    if (s.bench.layers.lookup key).isSome then .next (endOp s c 0x010A 0)
    else if 8192 ≤ s.bench.layers.length then .next (endOp s c 0x010B 0)
    else
      let r := readDesc s (hostReq c.part c.cls none) ecc c.kdesc
      match r.2 with
      | .error code => .next (endOp r.1 c code 0)
      | .ok d => .next (endOp { r.1 with bench := { r.1.bench with layers := r.1.bench.layers ++ [(key, (c.kdesc, d))] } } c 0 0)

/-- Whether another live command names a layer number of the partition. -/
def layerNamed (s : State) (c : Cmd) : Bool :=
  s.bench.cmds.any (fun d => decide (d.key ≠ c.key) && decide (d.part = c.part) && decide (d.layer = c.layer) &&
    [0x10, 0x12, 0x13].contains d.op)

/-- UNREGISTER_LAYER (R343). -/
def execUnregisterLayer (part : Fin 16) (seq : BitVec 32) (t : Nat) (s : State) : Out :=
  let s := s.at t
  match opCmd s part.val seq.toNat 0x13 with
  | none => .next s
  | some c =>
    let key := layerKey c.part c.layer
    if (s.bench.layers.lookup key).isNone then .next (endOp s c 0x0109 0)
    else if layerNamed s c then .next (endOp s c 0x010A 0)
    else .next (endOp { s with bench := { s.bench with layers := s.bench.layers.filter (fun p => decide (p.1 ≠ key)) } } c 0 0)

/-! ## COPY and FILL (R345, R346) -/

/-- 64-byte words of a core window read one after another by Gaffer firmware (R100, R345): the bytes, or the status that ends the command. -/
def copyWindowRead : Nat → State → Nat → State × Except Nat (List Byte)
  | 0, s, _ => (s, .ok [])
  | n + 1, s, a =>
    match addrKind a with
    | .window c off =>
      let ok := windowServes s (.ident 16) c false
      let r := windowAccess s (.ident 16) c off 64 none
      match r.2 with
      | none => (r.1, .error (if ok then 0x0404 else 0x010D))
      | some bs =>
        let y := copyWindowRead n r.1 (a + 64)
        match y.2 with
        | .error e => (y.1, .error e)
        | .ok rest => (y.1, .ok (bs ++ rest))
    | _ => (unmappedFromHost s a, .error 0x0405)

/-- 64-byte words written to a core window one after another by Gaffer firmware. -/
def copyWindowWrite : Nat → State → Nat → List Byte → State × Option Nat
  | 0, s, _, _ => (s, none)
  | n + 1, s, a, bs =>
    match addrKind a with
    | .window c off =>
      let r := windowAccess s (.ident 16) c off 64 (some (bs.take 64))
      match r.2 with
      | none => (r.1, some 0x010D)
      | some _ => copyWindowWrite n r.1 (a + 64) (bs.drop 64)
    | _ => (unmappedFromHost s a, some 0x0405)

/-- What a COPY out of a core window meets in its scratchpad (R94). -/
def copyMeets (s : State) (a : Nat) (sp : SpEcc) : State :=
  match addrKind a with
  | .window c off => windowMeets s (.ident 16) c off false sp
  | _ => s

/-- The bytes a COPY reads from device memory. -/
def copyRead (s : State) (c : Cmd) (ecc : MemEcc) (sp : SpEcc) (a n : Nat) : State × Except Nat (List Byte) :=
  if inDram a n then
    let r := devRead s (hostReq c.part c.cls (some c.key)) ecc a n
    match r.2 with
    | .ok bs => (r.1, .ok bs)
    | .error p => (r.1, .error (p.status))
  else copyWindowRead (n / 64) (copyMeets s a sp) a

/-- The bytes a COPY or FILL writes to device memory, staged where they go to DRAM (R345). -/
def copyWrite (s : State) (c : Cmd) (a : Nat) (bs : List Byte) : State × Option Nat :=
  if inDram a bs.length then
    let r := devWrite s (hostReq c.part c.cls (some c.key)) .clean a bs
    (r.1, r.2.map (fun p => p.status))
  else copyWindowWrite (bs.length / 64) s a bs

/-- A COPY whose bytes are known, written to its destination. -/
def copyOut (s : State) (c : Cmd) (bs : List Byte) : State :=
  let dst := leAt c.entry 24 8
  if bitsOf (leAt c.entry 36 1) 0 2 = 1 then endOp (s.toHost (.write c.part dst bs)) c 0 0
  else
    let r := copyWrite s c dst bs
    endOp r.1 c (r.2.getD 0) 0

/-- COPY (R345, R393): from the host, the owning function's read of SRC brings `hostData`, or fails. It has no effect while it would write the host
speculatively, and waits whole while its destination has no room in staging (R384). -/
def execCopyBlock (part : Fin 16) (seq : BitVec 32) (hostData : List (BitVec 8)) (hostOk : Bool) (ecc : CopyEcc) (t : Nat) (s : State) : Out :=
  let s := s.at t
  match opCmd s part.val seq.toNat 0x20 with
  | none => .next s
  | some c =>
    let dir := bitsOf (leAt c.entry 36 1) 0 2
    let n := leAt c.entry 32 4
    if dir = 1 ∧ c.spec then .next s
    else if dir = 0 then
      let s0 := s.toHost (.read c.part (leAt c.entry 16 8) n)
      if !hostOk then .next (endOp s0 c 0x0116 0)
      else if hostData.length ≠ n then .next s
      else .next (orWait s (copyOut s0 c hostData))
    else
      let r := copyRead s c ecc.mem ecc.sp (leAt c.entry 16 8) n
      match r.2 with
      | .error code => .next (endOp r.1 c code 0)
      | .ok bs => .next (orWait s (copyOut r.1 c bs))

/-- FILL (R346): byte i of the destination receives byte i mod 8 of PATTERN. -/
def execFillBlock (part : Fin 16) (seq : BitVec 32) (t : Nat) (s : State) : Out :=
  let s := s.at t
  match opCmd s part.val seq.toNat 0x21 with
  | none => .next s
  | some c =>
    let pat := sliceBytes c.entry 40 8
    let r := copyWrite s c (leAt c.entry 24 8) ((List.range (leAt c.entry 32 4)).map (fun i => pat.getD (i % 8) 0#8))
    .next (orWait s (endOp r.1 c (r.2.getD 0) 0))

/-! ## SEQ_OP (R347) -/

/-- The operation of a SEQ_OP on its manager: Gaffer firmware writes CULLET_OPARG and CULLET_OPCMD. The manager, the code and the result. -/
def seqOperation (s : State) (c : Cmd) (ecc : MemEcc) : State × Nat × Nat × Nat :=
  let op := bitsOf (leAt c.entry 16 1) 0 4
  let h := bitsOf (leAt c.entry 18 2) 0 10
  let arg := leAt c.entry 20 4
  let k := if op = 1 ∨ op = 5 then bitsOf (leAt c.entry 17 1) 0 2 else h / 256
  let s1 := s.setReg (Reg.culletOparg k) (BitVec.ofNat 64 (leAt c.entry 24 8))
  let i := h % 256
  match op with
  | 1 => let r := opCreate s1 k c.part; (r.1, k, r.2.1, r.2.2)
  | 2 => let r := opFree s1 k i c.part; (r.1, k, r.2, 0)
  | 3 => let r := opTruncate s1 k i c.part arg; (r.1, k, r.2, 0)
  | 4 => let r := opSetseg s1 k i c.part; (r.1, k, r.2, 0)
  | _ => let r := opLoadbias s1 k arg ecc; (r.1, k, r.2, 0)

/-- SEQ_OP (R347, R238). -/
def execSeqOp (part : Fin 16) (seq : BitVec 32) (ecc : MemEcc) (t : Nat) (s : State) : Out :=
  let s := s.at t
  match opCmd s part.val seq.toNat 0x30 with
  | none => .next s
  | some c =>
    let r := seqOperation s c ecc
    .next (endOp (opDone r.1 r.2.1 r.2.2.1 r.2.2.2) c r.2.2.1 (r.2.2.2 % 1024))

/-! ## FRAME_RESULT (R348, R426, R427) -/

/-- A FRAME_RESULT completes with a selection; the record's FRAME names the frame whose plan it is. -/
def resultOf (s : State) (c : Cmd) (x : Selection) : State :=
  let s1 := mapCmd s c.key (fun c => { c with entry := c.entry.take 8 ++ leBytes 4 x.frame ++ c.entry.drop 12 })
  endOp s1 c (if x.source = .fallback then 0x0003 else 0) (x.addr % 2 ^ 48 + x.detail * 2 ^ 48)

/-- FRAME_RESULT (R348, R426, R427): Lehr A has selected an output for the frame; with a NONE the command waits for the boundary that ends the
frame. -/
def execFrameResult (part : Fin 16) (seq : BitVec 32) (t : Nat) (s : State) : Out :=
  let s := s.at t
  match opCmd s part.val seq.toNat 0x40 with
  | none => .next s
  | some c =>
    match (s.frameSel c.frame).sel with
    | none => .next s
    | some x => if x.source = .none then .next s else .next (resultOf s c x)

/-! ## SENSOR_MGMT (R349) -/

/-- A sensor port that carries transfers: up, and for a camera port with its uplink enabled. -/
def sensorPortUp (s : State) (kind port : Nat) : Bool :=
  if kind ≤ 2 then decide (s.regFld (Reg.marverCamst port) 0 2 = 2) && s.regBit (Reg.marverCamcfg port) 5
  else decide (s.regFld (Reg.marverEthst port) 0 2 = 2)

/-- SENSOR_MGMT (R349): `ack` and `data` are what the target answers. An MDIO write draws no answer. -/
def execSensorMgmt (part : Fin 16) (seq : BitVec 32) (ack : Bool) (data : List (BitVec 8)) (ecc : MemEcc) (t : Nat) (s : State) : Out :=
  let s := s.at t
  match opCmd s part.val seq.toNat 0x50 with
  | none => .next s
  | some c =>
    let b (i : Nat) : Nat := leAt c.entry i 1
    let kind := b 16
    let port := b 17
    let n := leAt c.entry 24 2
    let buf := leAt c.entry 32 8
    if !sensorPortUp s kind port then .next (endOp s c 0x0108 0)
    else if kind % 2 = 1 then
      if !ack then .next (endOp s c 0x0115 0)
      else if data.length ≠ n then .next s
      else
        let r := devWrite (s.toHost (.sensor kind port (b 18) (b 19) (leAt c.entry 20 4) n [])) (hostReq 0 c.cls (some c.key)) .clean buf data
        .next (orWait s (endOp r.1 c ((r.2.map (fun p => p.status)).getD 0) n))
    else
      let r := devRead s (hostReq 0 c.cls none) ecc buf n
      match r.2 with
      | .error p => .next (endOp r.1 c (p.status) 0)
      | .ok bs =>
        let s1 := r.1.toHost (.sensor kind port (b 18) (b 19) (leAt c.entry 20 4) n bs)
        .next (endOp s1 c (if kind = 2 ∧ !ack then 0x0115 else 0) 0)

end Sys2Proof.Machine
end

