-- ==== Sys2Proof/Machine/MarverGeo.lean ====
section
/-! DEFINITION. Marver's geometry (R266, R269-R277): FP32 vectors rounded RNE under R79 in the order the spec writes them, the sine table, pose
interpolation, ego-motion and the two camera models. FP32 values are their encodings. -/

namespace Sys2Proof.Machine

/-! ## FP32 in the spec's notation (R79, RNE) -/

/-- a + b. -/
def fAdd (a b : Nat) : Nat := (addF 0 false a b).1
/-- a - b. -/
def fSub (a b : Nat) : Nat := (subF 0 false a b).1
/-- a × b. -/
def fMul (a b : Nat) : Nat := (mulF 0 false a b).1
/-- a / b. -/
def fDiv (a b : Nat) : Nat := (divF 0 false a b).1
/-- fma(a, b, c) = a × b + c, rounded once. -/
def fFma (a b c : Nat) : Nat := (fmaF 0 false a b c).1
/-- sqrt(a). -/
def fSqrt (a : Nat) : Nat := (sqrtF 0 false a).1
/-- -a. -/
def fNeg (a : Nat) : Nat := (negF a).1
/-- |a|. -/
def fAbs (a : Nat) : Nat := (absF a).1
/-- a < b; false where either is NaN. -/
def fLt (a b : Nat) : Bool := ltNum (f32 a) (f32 b)
/-- a ≤ b; false where either is NaN. -/
def fLe (a b : Nat) : Bool := !(f32 a).isNaN && !(f32 b).isNaN && !ltNum (f32 b) (f32 a)
/-- v × 2^e rounded RNE. -/
def fpInt (v e : Int) : Nat := (toFlt fp32Fmt 0 false (.fin (decide (v < 0)) v.natAbs e)).1
/-- 0. -/
def f0 : Nat := 0
/-- 1. -/
def f1 : Nat := 0x3F800000
/-- 2. -/
def f2 : Nat := 0x40000000

/-- RNE(c × 2^n) as an exact integer; beyond every width for an infinity, free for a NaN. -/
def rneInt (c : Nat) (n : Int) : Int :=
  match f32 c with
  | .nan => Config.nanInt c
  | .inf neg => if neg then -(2 ^ 90 : Int) else 2 ^ 90
  | .fin neg m e =>
    let r : Int := (roundToNat 0 neg m (e + n)).1
    if neg then -r else r

/-- floor of a finite value; none for an infinity or a NaN. -/
def floorF (c : Nat) : Option Int :=
  match f32 c with
  | .fin neg m e =>
    some (if 0 ≤ e then (if neg then -((m * 2 ^ e.toNat : Nat) : Int) else ((m * 2 ^ e.toNat : Nat) : Int))
      else (if neg then -(m : Int) else (m : Int)) / ((2 ^ (-e).toNat : Nat) : Int))
  | _ => none

/-! ## The sine table (R269) -/

/-- Terms of the series of the sine in fixed point with 2^-128 units: `x2` the square of the argument. -/
def sinTerms : Nat → Nat → Nat → Nat → Int → Int
  | 0, _, _, _, acc => acc
  | n + 1, k, term, x2, acc =>
    let next := term * x2 / 2 ^ 128 / (2 * k * (2 * k + 1))
    sinTerms n (k + 1) next x2 (if k % 2 = 1 then acc - (next : Int) else acc + (next : Int))

/-- floor(pi × 2^128). -/
def piFix : Nat := 1069028584064966747859680373161870783300

/-- SN[j]: the FP32 value nearest sin(2 pi j / 65536), for j = 0 to 16384. -/
def snTab (j : Nat) : Nat :=
  if j = 0 then f0 else if j = 16384 then f1
  else
    let x := piFix * j / 32768
    fpInt (sinTerms 24 1 x (x * x / 2 ^ 128) x) (-128)

/-- SIN[k], SN extended by symmetry. -/
def sinTab (k : Nat) : Nat :=
  let h (j : Nat) : Nat := if j ≤ 16384 then snTab j else snTab (32768 - j)
  if k ≤ 32768 then h k else fNeg (h (k - 32768))

/-- COS[k]. -/
def cosTab (k : Nat) : Nat := sinTab ((k + 16384) % 65536)

/-! ## Vectors and rotations (R270) -/

/-- A vector of three FP32 values. -/
structure V3 where
  x : Nat
  y : Nat
  z : Nat
  deriving DecidableEq, Repr

/-- A 3 by 3 matrix, row by row. -/
structure M3 where
  a : V3
  b : V3
  c : V3
  deriving DecidableEq, Repr

/-- An FP32 quaternion. -/
structure Q4 where
  w : Nat
  x : Nat
  y : Nat
  z : Nat
  deriving DecidableEq, Repr

/-- a + b. -/
def V3.add (a b : V3) : V3 := ⟨fAdd a.x b.x, fAdd a.y b.y, fAdd a.z b.z⟩
/-- a - b. -/
def V3.sub (a b : V3) : V3 := ⟨fSub a.x b.x, fSub a.y b.y, fSub a.z b.z⟩
/-- fma(m2, v2, fma(m1, v1, m0 × v0)). -/
def V3.dot (m v : V3) : Nat := fFma m.z v.z (fFma m.y v.y (fMul m.x v.x))
/-- A matrix-vector product, evaluated row by row. -/
def M3.mul (m : M3) (v : V3) : V3 := ⟨m.a.dot v, m.b.dot v, m.c.dot v⟩
/-- The transpose. -/
def M3.tr (m : M3) : M3 := ⟨⟨m.a.x, m.b.x, m.c.x⟩, ⟨m.a.y, m.b.y, m.c.y⟩, ⟨m.a.z, m.b.z, m.c.z⟩⟩
/-- conj(q). -/
def Q4.conj (q : Q4) : Q4 := ⟨q.w, fNeg q.x, fNeg q.y, fNeg q.z⟩

/-- The Hamilton product, terms in the order w, x, y, z of the first factor. -/
def Q4.mul (a b : Q4) : Q4 :=
  let s4 (p q r t : Nat) : Nat := fAdd (fAdd (fAdd p q) r) t
  ⟨s4 (fMul a.w b.w) (fNeg (fMul a.x b.x)) (fNeg (fMul a.y b.y)) (fNeg (fMul a.z b.z)),
   s4 (fMul a.w b.x) (fMul a.x b.w) (fMul a.y b.z) (fNeg (fMul a.z b.y)),
   s4 (fMul a.w b.y) (fNeg (fMul a.x b.z)) (fMul a.y b.w) (fMul a.z b.x),
   s4 (fMul a.w b.z) (fMul a.x b.y) (fNeg (fMul a.y b.x)) (fMul a.z b.w)⟩

/-- matrix(q): products first, then sums, then 2 times, then 1 minus. -/
def Q4.matrix (q : Q4) : M3 :=
  let p (a b : Nat) : Nat := fMul a b
  let d (a b : Nat) : Nat := fSub f1 (fMul f2 (fAdd a b))
  let t (a b : Nat) : Nat := fMul f2 (fAdd a b)
  let u (a b : Nat) : Nat := fMul f2 (fSub a b)
  ⟨⟨d (p q.y q.y) (p q.z q.z), u (p q.x q.y) (p q.w q.z), t (p q.x q.z) (p q.w q.y)⟩,
   ⟨t (p q.x q.y) (p q.w q.z), d (p q.x q.x) (p q.z q.z), u (p q.y q.z) (p q.w q.x)⟩,
   ⟨u (p q.x q.z) (p q.w q.y), t (p q.y q.z) (p q.w q.x), d (p q.x q.x) (p q.y q.y)⟩⟩

/-! ## Poses (R266, R267) -/

/-- A pose at a time: the position, the rotation, and whether it is stale. -/
structure PoseAt where
  px : Int
  py : Int
  pz : Int
  q : Q4
  stale : Bool
  deriving DecidableEq, Repr

/-- The pose of an entry. -/
def Pose.at (p : Pose) (stale : Bool) : PoseAt := ⟨p.px, p.py, p.pz, ⟨p.qw, p.qx, p.qy, p.qz⟩, stale⟩

/-- R266: the pose at a time between two entries. -/
def interpolate (a b : Pose) (t : Nat) : PoseAt :=
  let w : Int := (((t - a.time) * 2 ^ 32 / (b.time - a.time) : Nat) : Int)
  let lin (p q : Int) : Int := p + (q - p) * w / 2 ^ 32
  let d := fFma a.qz b.qz (fFma a.qy b.qy (fFma a.qx b.qx (fMul a.qw b.qw)))
  let sg (v : Nat) : Nat := if fLt d f0 then fNeg v else v
  let f := fpInt (rneInt (fpInt w 0) 0) (-32)
  let mix (x y : Nat) : Nat := fFma f (fSub (sg y) x) x
  let qw := mix a.qw b.qw
  let qx := mix a.qx b.qx
  let qy := mix a.qy b.qy
  let qz := mix a.qz b.qz
  let n := fFma qz qz (fFma qy qy (fFma qx qx (fMul qw qw)))
  let k := fDiv f1 (fSqrt n)
  ⟨lin a.px b.px, lin a.py b.py, lin a.pz b.pz, ⟨fMul qw k, fMul qx k, fMul qy k, fMul qz k⟩, false⟩

/-- The newest entry at or before a time, and the entry after it; entries in rising time. -/
def bracket (t : Nat) : List Pose → Option (Pose × Option Pose)
  | [] => none
  | a :: rest => if t < a.time then none else match bracket t rest with
    | some x => some x
    | none => some (a, rest.head?)

/-- The pose for a time (R266, R267): interpolated, or the newest entry at or before it while no older than MAXAGE, or none. -/
def poseAt (ps : List Pose) (maxAge t : Nat) : Option PoseAt :=
  match bracket t ps with
  | none => none
  | some (a, b) =>
    if a.time = t then some (a.at false)
    else match b with
      | some b => if b.disc then (if t - a.time ≤ maxAge then some (a.at true) else none) else some (interpolate a b t)
      | none => if t - a.time ≤ maxAge then some (a.at true) else none

/-- p(a) - p(b) in metres, each difference exact and rounded once. -/
def PoseAt.minus (a b : PoseAt) : V3 := ⟨fpInt (a.px - b.px) (-20), fpInt (a.py - b.py) (-20), fpInt (a.pz - b.pz) (-20)⟩

/-- R270: a vehicle-frame point valid at one pose moved to the vehicle frame of another. -/
def egoMove (p r : PoseAt) (pv : V3) : V3 :=
  ((Q4.mul r.q.conj p.q).matrix.mul pv).add (r.q.conj.matrix.mul (p.minus r))

/-! ## Calibration blocks (R272) -/

/-- An FP32 field of a calibration block. -/
def calF (c : List Byte) (off : Nat) : Nat := leAt c off 4
/-- E, the rotation from sensor to vehicle frame. -/
def calE (c : List Byte) : M3 :=
  ⟨⟨calF c 8, calF c 12, calF c 16⟩, ⟨calF c 20, calF c 24, calF c 28⟩, ⟨calF c 32, calF c 36, calF c 40⟩⟩
/-- e, the sensor origin. -/
def calOrigin (c : List Byte) : V3 := ⟨calF c 44, calF c 48, calF c 52⟩
/-- LAT. -/
def calLat (c : List Byte) : Int := signedOf (leAt c 104 4) 32
/-- EXPOFF. -/
def calExpoff (c : List Byte) : Int := signedOf (leAt c 108 4) 32
/-- WIDTH and HEIGHT. -/
def calSize (c : List Byte) : Nat × Nat := (leAt c 92 2, leAt c 94 2)

/-! ## Camera models (R273-R276) -/

/-- The candidate test of R273: an uncompensated vehicle-frame point seen from a camera. -/
def candidate (c : List Byte) (pv : V3) : Bool :=
  let u := pv.sub (calOrigin c)
  let e := calE c
  let col : V3 := ⟨e.a.z, e.b.z, e.c.z⟩
  fLe (fMul (calF c 100) (fSqrt (u.dot u))) (u.dot col)

/-- The pinhole model (R274). -/
def pinhole (c : List Byte) (p : V3) : Option (Nat × Nat) :=
  let k1 := calF c 72
  let k2 := calF c 76
  let k3 := calF c 80
  let p1 := calF c 84
  let p2 := calF c 88
  if fLt p.z (calF c 96) then none
  else
    let a := fDiv p.x p.z
    let b := fDiv p.y p.z
    let rs := fFma b b (fMul a a)
    let g := fFma rs (fFma rs (fFma rs k3 k2) k1) f1
    let ad := fFma p2 (fFma (fMul f2 a) a rs) (fFma (fMul f2 p1) (fMul a b) (fMul a g))
    let bd := fFma p1 (fFma (fMul f2 b) b rs) (fFma (fMul f2 p2) (fMul a b) (fMul b g))
    some (fFma (calF c 56) ad (calF c 64), fFma (calF c 60) bd (calF c 68))

/-- The fisheye model (R275). -/
def fisheye (c : List Byte) (p : V3) : Option (Nat × Nat) :=
  let n := fSqrt (fFma p.z p.z (fFma p.y p.y (fMul p.x p.x)))
  let r := fSqrt (fFma p.y p.y (fMul p.x p.x))
  let den := fAdd n p.z
  if den % 2 ^ 31 = 0 then none
  else if r % 2 ^ 31 = 0 then some (calF c 64, calF c 68)
  else
    let t := fDiv r den
    if fLt (calF c 96) t then none
    else
      let ts := fMul t t
      let rd := fMul t (fFma ts (fFma ts (fFma ts (fFma ts (calF c 88) (calF c 84)) (calF c 80)) (calF c 76)) (calF c 72))
      some (fFma (calF c 56) (fDiv (fMul rd p.x) r) (calF c 64), fFma (calF c 60) (fDiv (fMul rd p.y) r) (calF c 68))

/-- Where a camera-frame point lands: U and V in units of 1/8 pixel (R276). -/
def landing (c : List Byte) (p : V3) : Option (Nat × Nat) :=
  let uv := match leAt c 4 1 with
    | 1 => pinhole c p
    | 2 => fisheye c p
    | _ => none
  match uv with
  | none => none
  | some (u, v) => match f32 u, f32 v with
    | .fin _ _ _, .fin _ _ _ =>
      let iu := rneInt u 3
      let iv := rneInt v 3
      let sz := calSize c
      if 0 ≤ iu ∧ iu < 8 * (sz.1 : Int) ∧ 0 ≤ iv ∧ iv < 8 * (sz.2 : Int) then some (iu.toNat, iv.toNat) else none
    | _, _ => none

/-! ## Integer rounding (R297) -/

/-- rs(v, n) = floor((v + 2^(n-1)) / 2^n). -/
def rsInt (v : Int) (n : Nat) : Int := (v + 2 ^ (n - 1)) / 2 ^ n

/-- rdiv(a, b) = floor((2a + b) / (2b)), for b > 0. -/
def rdivInt (a b : Int) : Int := (2 * a + b) / (2 * b)

end Sys2Proof.Machine
end

