-- ==== Sys2Proof/Machine/MarverTime.lean ====
section
/-! DEFINITION. Marver's streams and time (R250-R263): the event log, the alignment servo, source and validity times, frame periods, and gPTP
(R255, R256). -/

namespace Sys2Proof.Machine

/-! ## The event log (R321, R322) -/

/-- Codes marked "Lehr A" in R322. -/
def code07Raised (c : Nat) : Bool := [0x0701, 0x0702, 0x0703, 0x0704, 0x0705, 0x070B, 0x070C, 0x070D, 0x070F].contains c

/-- An event logged in MARVER_EVLOG for a period; a full log sets FUSCTL.EVOVF. -/
def State.logMarver (s : State) (code stream frame : Nat) : State :=
  let full := s.marver.log.full 256
  let s1 := { s with marver := { s.marver with log := s.marver.log.push 256 none (evWord code stream 8 frame) 0 } }
  let s2 := if full then s1.setRegBit Reg.marverFusctl 4 true else s1
  if code07Raised code then s2.raise code stream else s2

/-- A Marver event for frame f reaches the scoreboard (R375) and kicks the stages with SRC 2 that name it (R441). -/
def marverEvent (s : State) (e f : Nat) : State :=
  let off := Reg.devEvframe e
  let s1 := if newer32 f (s.regFld off 0 32) then s.setRegFld off 0 32 f else s
  evalFrame (kickFor s1 f 2 (fun w => decide (fld w 16 3 = e))) f

/-! ## Streams -/

/-- A stream beside its registers. -/
def State.mstream (s : State) (i : Nat) : MStream := sget MStream.zero s.marver.streams i

/-- A stream's data replaced. -/
def State.setMstream (s : State) (i : Nat) (x : MStream) : State :=
  { s with marver := { s.marver with streams := sput MStream.zero s.marver.streams i x } }

/-- MARVER_SCFGs.EN. -/
def streamOn (s : State) (i : Nat) : Bool := s.regBit (Reg.marverScfg i) 0
/-- KIND: 1 camera, 2 Ethernet, 3 injected. -/
def streamKind (s : State) (i : Nat) : Nat := s.regFld (Reg.marverScfg i) 1 2
/-- PORT. -/
def streamPort (s : State) (i : Nat) : Nat := s.regFld (Reg.marverScfg i) 3 4
/-- PAYLOAD: 0 IMAGE, 1 POINTS, 2 RAW. -/
def streamPayload (s : State) (i : Nat) : Nat := s.regFld (Reg.marverScfg i) 7 2
/-- SRCMODE. -/
def srcMode (s : State) (i : Nat) : Nat := s.regFld (Reg.marverScfg i) 9 2
/-- TFMT. -/
def timeFmt (s : State) (i : Nat) : Nat := s.regFld (Reg.marverScfg i) 11 3
/-- TOFF. -/
def timeOff (s : State) (i : Nat) : Nat := s.regFld (Reg.marverScfg i) 14 12
/-- SENSOR is radar. -/
def isRadar (s : State) (i : Nat) : Bool := s.regBit (Reg.marverScfg i) 45
/-- SSTAT.STATE: 0 DISABLED, 1 ACQUIRE, 2 LOCKED, 3 HOLDOVER, 4 UNSYNC. -/
def servoSt (s : State) (i : Nat) : Nat := s.regFld (Reg.marverSstat i) 0 3
/-- A stream in ACQUIRE or UNSYNC (R261). -/
def unsynced (s : State) (i : Nat) : Bool := decide (servoSt s i = 1) || decide (servoSt s i = 4)

/-- A servo replaced; SOFF and SRATE show it. -/
def setServo (s : State) (i : Nat) (v : Servo) : State :=
  let s1 := s.setMstream i { s.mstream i with servo := v }
  (s1.setReg (Reg.marverSoff i) (BitVec.ofNat 64 (wrapInt (v.off / 2 ^ 16) 64))).setReg (Reg.marverSrate i)
    (BitVec.ofNat 64 (wrapInt v.rate 32))

/-- SSTAT.STATE replaced; a stream that has become unsynchronised or disabled is not HEALTHY. -/
def setServoSt (s : State) (i x : Nat) : State := s.setRegFld (Reg.marverSstat i) 0 3 x

/-- R305: HSTAT.HEALTHY follows. -/
def syncHealth (s : State) (i : Nat) : State :=
  let off := Reg.marverHstat i
  let st := servoSt s i
  s.setRegBit off 2 (streamOn s i && (decide (st = 2) || decide (st = 3)) && !s.regBit off 0 && !s.regBit off 1)

/-- Entry into LOCKED. -/
def lockServo (s : State) (i : Nat) : State :=
  let v := (s.mstream i).servo
  syncHealth (setServoSt (setServo s i { v with lockOff := v.off, rejects := 0 }) i 2) i

/-- Entry into UNSYNC (R260, R261): counted, logged and raised. -/
def enterUnsync (s : State) (i cause : Nat) : State :=
  let v := (s.mstream i).servo
  let v1 := if cause = 3 then { v with rate := 0, init := true } else if cause = 1 then { v with init := true } else v
  let s1 := (setServoSt (setServo s i v1) i 4).setRegFld (Reg.marverSstat i) 3 3 cause
  let s2 := (s1.setRegFld (Reg.marverSstat i) 8 8 0).bumpSat (Reg.marverSstat i) 32 32
  syncHealth (s2.logMarver 0x0701 i s2.frmcnt) i

/-! ## The servo (R257-R260) -/

/-- R259: the failing drift test, if one fails: 3 RATE, 2 OFFSET. -/
def driftFail (s : State) (i : Nat) : Option Nat :=
  let v := (s.mstream i).servo
  let off (r : Int) : Bool := decide (((s.frmper * 2 ^ 16 : Nat) : Int) < (v.off - r).natAbs)
  let mode := s.regFld (Reg.marverScfg i) 43 2
  if s.regFld (Reg.marverSlim i) 32 32 < v.rate.natAbs then some 3
  else if mode = 1 ∧ off (signedOf (s.reg (Reg.marverSref i)).toNat 64 * 2 ^ 16) then some 2
  else if mode = 2 ∧ off v.lockOff then some 2
  else none

/-- pred of R257 for a source time. -/
def Servo.pred (v : Servo) (src : Nat) : Int := v.off + (((src : Int) - (v.sref : Int)) * v.rate) / 2 ^ 24

/-- What a sample makes of a servo. -/
inductive SampleRes where
  | initialised
  | accepted
  | rejected
  deriving DecidableEq, Repr

/-- R257: the arithmetic of one sample. -/
def Servo.sample (v : Servo) (lat : Int) (kp rgain gate src tin : Nat) : Servo × SampleRes :=
  let m : Int := ((tin : Int) - lat - (src : Int)) * 2 ^ 16
  if v.init then ({ v with off := m, sref := src, init := false }, .initialised)
  else
    let pred := v.pred src
    let e := m - pred
    if ((gate * 2 ^ 16 : Nat) : Int) < e.natAbs then (v, .rejected)
    else
      let r := v.rate + (e * rgain) / 2 ^ 32
      ({ v with off := pred + e / 2 ^ kp, rate := max (-(2 ^ 31)) (min (2 ^ 31 - 1) r), sref := src }, .accepted)

/-- LAT and EXPOFF of a stream, of the calibration block in force. -/
def streamLat (s : State) (i : Nat) : Int := calLat (s.mstream i).calib

/-- An accepted or initialising sample in the state the servo is in (R260). -/
def sampleTaken (s : State) (i : Nat) (initialised : Bool) : State :=
  let st := servoSt s i
  if st = 1 then
    let v := (s.mstream i).servo
    let s1 := setServo s i { v with count := v.count + 1 }
    if s.regFld (Reg.marverSsrv i) 4 4 ≤ v.count + 1 then lockServo s1 i else s1
  else match if initialised then none else driftFail s i with
    | some cause =>
      if st = 4 then setServo s i { (s.mstream i).servo with sawRej := true } else enterUnsync s i cause
    | none =>
      if st = 2 then setServo s i { (s.mstream i).servo with rejects := 0 } else if st = 3 then lockServo s i else s

/-- A rejected sample (R260). -/
def sampleRejected (s : State) (i : Nat) : State :=
  let st := servoSt s i
  let v := { (s.mstream i).servo with sawRej := true }
  let s1 := (setServo s i v).bump (Reg.marverSrej i) 1
  if st = 1 then setServo s1 i { v with init := true, count := 0 }
  else if st = 2 then
    if 3 ≤ v.rejects then enterUnsync s1 i 1 else setServo s1 i { v with rejects := v.rejects + 1 }
  else s1

/-- A sample reaches a stream's servo (R257, R258): every SDIV-th is used. -/
def servoSample (s : State) (i src tin : Nat) : State :=
  if servoSt s i = 0 ∨ srcMode s i = 0 then s
  else
    let w := s.reg (Reg.marverSsrv i)
    let v := (s.mstream i).servo
    let s0 := setServo s i { v with div := (v.div + 1) % (fld w 16 16 + 1) }
    if v.div ≠ 0 then s0
    else
      let gate := s.regFld (Reg.marverSlim i) 0 32 * (if servoSt s i = 1 then 16 else 1)
      let r := (s0.mstream i).servo.sample (streamLat s i) (fld w 0 4) (fld w 32 32) gate src tin
      match r.2 with
      | .rejected => sampleRejected s0 i
      | x =>
        let s1 := (setServo s0 i { r.1 with accTime := s.now, sawAcc := true }).bump (Reg.marverScnt i) 1
        sampleTaken s1 i (decide (x = .initialised))

/-- A servo at a frame boundary (R259, R260): drift tests in HOLDOVER, progress of relocking in UNSYNC. -/
def servoBoundary (s : State) (i : Nat) : State :=
  let st := servoSt s i
  let v := (s.mstream i).servo
  let s1 := match st, driftFail s i with
    | 3, some cause => enterUnsync s i cause
    | 4, none =>
      if v.sawAcc && !v.sawRej then
        let held := s.regFld (Reg.marverSstat i) 8 8 + 1
        let s1 := s.setRegFld (Reg.marverSstat i) 8 8 held
        if s.regFld (Reg.marverSsrv i) 8 8 ≤ held then lockServo s1 i else s1
      else s.setRegFld (Reg.marverSstat i) 8 8 0
    | 4, some _ => s.setRegFld (Reg.marverSstat i) 8 8 0
    | _, _ => s
  setServo s1 i { (s1.mstream i).servo with sawAcc := false, sawRej := false }

/-! ## Source and validity times (R254, R262) -/

/-- The ticks of a time field (R254), a 32-bit field not yet extended; none where the field does not fit or the format is reserved. -/
def fieldTicks (fmt : Nat) (bs : List Byte) (off : Nat) : Option Nat :=
  let f (n : Nat) (big : Bool) : Option Nat :=
    if bs.length < off + n then none else some (if big then beNat (sliceBytes bs off n) else leAt bs off n)
  match fmt with
  | 0 => f 8 false
  | 1 => f 8 true
  | 2 => f 4 false
  | 3 => f 4 true
  | 4 => match f 6 true, fieldTicks4 bs off with
    | some sec, some ns => some (sec * 1000000000 + ns)
    | _, _ => none
  | _ => none
where
  /-- The nanoseconds of an IEEE 1588 timestamp. -/
  fieldTicks4 (bs : List Byte) (off : Nat) : Option Nat :=
    if bs.length < off + 10 then none else some (beNat (sliceBytes bs (off + 6) 4))

/-- A 32-bit value extended to the 64-bit value nearest the previous one (R254). -/
def extendTicks (prev : Option Nat) (v : Nat) : Nat :=
  match prev with
  | none => v
  | some p =>
    let d := signedOf ((v + 2 ^ 32 - p % 2 ^ 32) % 2 ^ 32) 32
    wrapInt ((p : Int) + d) 64

/-- A gPTP time taken to device time by the gPTP mapping (R254, R256). -/
def gptpToDevice (s : State) (g : Nat) : Nat :=
  let v := s.marver.gp.servo
  wrapInt (((g : Int) * 2 ^ 16 + v.pred g + 2 ^ 15) / 2 ^ 16) 64

/-- The source time that a time field gives a stream; the extended ticks are kept. A field of a reserved format counts as a rejected sample. -/
def sourceTime (s : State) (i : Nat) (bs : List Byte) : State × Option Nat :=
  if 5 ≤ timeFmt s i then (sampleRejected s i, none)
  else match fieldTicks (timeFmt s i) bs (timeOff s i) with
    | none => (s, none)
    | some raw =>
      let x := s.mstream i
      let ticks := if timeFmt s i = 2 ∨ timeFmt s i = 3 then extendTicks x.servo.ticks raw else raw
      let s1 := setServo s i { x.servo with ticks := some ticks }
      let src := ticks * (s.reg (Reg.marverStime i)).toNat / 2 ^ 32 % 2 ^ 64
      (s1, some (if srcMode s i = 3 then gptpToDevice s1 src else src))

/-- R262: the validity time of data with a source time, or in ARRIVAL mode (and where a frame brought no field) of an ingress stamp. -/
def validity (s : State) (i : Nat) (src : Option Nat) (tin : Nat) (add : Int) : Int :=
  let c := (s.mstream i).calib
  match if srcMode s i = 0 then none else src with
  | none => (tin : Int) + add - calLat c - calExpoff c
  | some x =>
    let y := wrapInt ((x : Int) + add) 64
    ((y : Int) * 2 ^ 16 + (s.mstream i).servo.pred y + 2 ^ 15) / 2 ^ 16 - calExpoff c

/-! ## Frame periods (R263) -/

/-- Where a validity time lies: in a period not yet closed, in a closed one (its frame, if it is still known), in the period after the current
one, or further ahead. -/
inductive When where
  | inPeriod (frame : Nat)
  | closed (frame : Option Nat)
  | ahead (frame : Nat)
  | far
  deriving DecidableEq, Repr

/-- The period that holds a time. -/
def whenOf (s : State) (v : Int) : When :=
  match s.marver.periods.find? (fun p => decide ((p.start : Int) ≤ v) && (match p.ref with
      | some e => decide (v < (e : Int))
      | none => match s.frame.nextBoundary with
        | some b => decide (v < (b : Int))
        | none => true)) with
  | some p => if p.closed then .closed (some p.frame) else .inPeriod p.frame
  | none =>
    match s.marver.periods.getLast? with
    | none => .closed none
    | some cur =>
      if v < (cur.start : Int) then .closed none
      else match predictBoundary s ((cur.frame + 2) % 2 ^ 32) with
        | some e => if v < (e : Int) then .ahead ((cur.frame + 1) % 2 ^ 32) else .far
        | none => .far

/-- The reference time of a period: the boundary that ends it (R270). -/
def MPeriod.refTime (p : MPeriod) : Nat := p.ref.getD p.start

/-- A period of Marver's. -/
def State.mperiod (s : State) (f : Nat) : Option MPeriod := s.marver.periods.find? (fun p => decide (p.frame = f))

/-- A period changed. -/
def mapPeriod (s : State) (f : Nat) (g : MPeriod → MPeriod) : State :=
  { s with marver := { s.marver with periods := s.marver.periods.map (fun p => if p.frame = f then g p else p) } }

/-- An event logged once in a period. -/
def logOnce (s : State) (f code stream : Nat) : State :=
  match s.mperiod f with
  | none => s
  | some p => if p.logged.contains code then s
    else (mapPeriod s f (fun p => { p with logged := p.logged ++ [code] })).logMarver code stream f

/-! ## Commands on streams -/

/-- STREAM_ENABLE (R249, R250, R260, R281): refused with KIND 0; without effect on an enabled stream. -/
def execStreamEnable (stream : Fin 64) (t : Nat) (s : State) : Out :=
  let s := s.at t
  let i := stream.val
  if streamKind s i = 0 ∨ streamOn s i then .next s
  else
    let s1 := (s.setRegBit (Reg.marverScfg i) 0 true).setRegFld (Reg.marverSslot i) 32 32 0
    let s2 := setServo (s1.setReg (Reg.marverInjrd i) 0#64) i { Servo.zero with accTime := s.now }
    .next (syncHealth (setServoSt s2 i (if srcMode s i = 0 then 2 else 1)) i)

/-- STREAM_DISABLE (R249, R260): the servo is DISABLED, and the entries of an injected ring not yet released are discarded. -/
def execStreamDisable (stream : Fin 64) (s : State) : Out :=
  let i := stream.val
  let s1 := s.setRegBit (Reg.marverScfg i) 0 false
  let s2 := setServo s1 i { (s1.mstream i).servo with init := true, count := 0, rejects := 0, ticks := none, div := 0 }
  .next (syncHealth (setServoSt s2 i 0) i)

/-- SERVO_HOLD_TIMEOUT (R260). -/
def execServoHoldTimeout (stream : Fin 64) (t : Nat) (s : State) : Out :=
  let s := s.at t
  let i := stream.val
  if servoSt s i = 2 ∧ srcMode s i ≠ 0 ∧ (s.mstream i).servo.accTime + s.regFld (Reg.marverShold i) 0 32 ≤ s.now then
    .next (setServoSt s i 3)
  else .next s

/-- SERVO_HOLDMAX_TIMEOUT (R260). -/
def execServoHoldmaxTimeout (stream : Fin 64) (t : Nat) (s : State) : Out :=
  let s := s.at t
  let i := stream.val
  if servoSt s i = 3 ∧ (s.mstream i).servo.accTime + s.regFld (Reg.marverShold i) 32 32 ≤ s.now then .next (enterUnsync s i 4)
  else .next s

/-- INJWR_WRITE (R249): host software advances the ring of an injected stream, its EN set or not. -/
def execInjwrWrite (stream : Fin 64) (v : BitVec 32) (s : State) : Out :=
  let i := stream.val
  let off := Reg.marverSslot i
  let old := s.regFld off 32 32
  let size := 2 ^ s.regFld (Reg.marverSmatch i) 48 4
  if size < countDiff v.toNat (s.regFld (Reg.marverInjrd i) 0 32) ∨ newer32 old v.toNat then
    .next (s.setRegBit (Reg.marverSstat i) 16 true)
  else .next (s.setRegFld off 32 32 v.toNat)

/-! ## gPTP (R255, R256) -/

/-- GPSTAT.STATE: 0 off, 1 ACQUIRE, 2 LOCKED, 3 HOLDOVER. -/
def gpState (s : State) : Nat := s.regFld Reg.marverGpstat 0 2

/-- gPTP's data replaced; GPOFF and GPRATE show the servo. -/
def setGp (s : State) (g : Gptp) : State :=
  let s1 := { s with marver := { s.marver with gp := g } }
  (s1.setReg Reg.marverGpoff (BitVec.ofNat 64 (wrapInt (g.servo.off / 2 ^ 16) 64))).setReg Reg.marverGprate
    (BitVec.ofNat 64 (wrapInt g.servo.rate 32))

/-- What the rate in force has added up to by now, in 2^-40 ns (R256). -/
def settleSteer (g : Gptp) (now : Nat) : Gptp := { g with phase := g.phase + g.rho * ((now : Int) - g.since), since := now }

/-- R256: the rate that Marver asks of Lehr A after an update, under STEER; device time runs free under MAP. -/
def steer (s : State) : State :=
  let g := settleSteer s.marver.gp s.now
  if !s.regBit Reg.marverGpctl 11 then setGp s { g with rho := 0, phase := 0 }
  else
    let stc := s.regFld Reg.marverGpctl 16 4
    let gpref := signedOf (s.reg Reg.marverGpref).toNat 64
    let raw : Int := -g.servo.rate - (g.servo.off - gpref * 2 ^ 16) * 2 ^ 4 / 2 ^ stc
    let rho := max (-54975581) (min 54975581 raw)
    (setGp s { g with rho := rho }).setRegBit Reg.marverGpstat 3 (decide (rho ≠ raw))

/-- 2^e seconds in ns, for a signed 4-bit exponent. -/
def logInterval (f : Nat) : Nat :=
  let e := signedOf f 4
  if 0 ≤ e then 1000000000 * 2 ^ e.toNat else 1000000000 / 2 ^ (-e).toNat

/-- The expected Sync interval in ns: 2^LOGSYNC s. -/
def syncInterval (s : State) : Nat := logInterval (s.regFld Reg.marverGpctl 20 4)

/-- So many Sync intervals have been missed since the last sample: those not counted yet are added to GPSTAT.MISSED (R281). -/
def gptpMiss (s : State) (n : Nat) : State :=
  let g := s.marver.gp
  (setGp s { g with missed := max g.missed n }).setRegFld Reg.marverGpstat 16 16
    (min 65535 (s.regFld Reg.marverGpstat 16 16 + (n - g.missed)))

/-- GPSTAT.MISSED in HOLDOVER: every interval that has passed without a sample. -/
def gptpShows (s : State) : State :=
  if s.regFld Reg.marverGpstat 0 2 = 3 then gptpMiss s ((s.now - s.marver.gp.sampleAt) / syncInterval s) else s

/-- A sample has come. DESIGN CHOICE: the intervals missed before it are the gap since the last sample in intervals, to the nearest, less one. -/
def noteSample (s : State) : State :=
  let i := syncInterval s
  let s1 := gptpMiss s ((s.now - s.marver.gp.sampleAt + i / 2) / i - 1)
  setGp s1 { s1.marver.gp with sampleAt := s.now, missed := 0 }

/-- A Sync sample: gPTP time and ingress stamp (R256). -/
def gptpSample (s0 : State) (src tin : Nat) : State :=
  let s := noteSample s0
  let g := s.marver.gp
  let w := s.reg Reg.marverGpctl
  let st := gpState s
  let gate := if st = 1 then 16000 else 1000
  let r := g.servo.sample 0 (fld w 12 4) (fld w 32 32) gate src tin
  match r.2 with
  | .rejected =>
    if st = 1 then setGp s { g with servo := { g.servo with init := true, count := 0 } } else s
  | _ =>
    let s1 := setGp s { g with servo := { r.1 with accTime := s.now, count := r.1.count + 1 } }
    steer (s1.setRegFld Reg.marverGpstat 0 2 2)

/-- Whether the gPTP engine takes messages of a domain: enabled, and its state not off. -/
def gptpTakes (s : State) (domain : Nat) : Bool :=
  s.regBit Reg.marverGpctl 0 && decide (s.regFld Reg.marverGpctl 4 7 = domain)

/-- The engine is on: its state leaves off with the first message after EN was set. -/
def gptpOn (s : State) : State :=
  if gpState s = 0 then setGp (s.setRegFld Reg.marverGpstat 0 2 1) { s.marver.gp with servo := Servo.zero, sampleAt := s.now, missed := 0 } else s

/-- The source time of a Sync: origin timestamp, correction and mean link delay, the last two in units of 2^-16 ns. -/
def syncTime (s : State) (origin : Nat) (corr : Int) : Nat := wrapInt ((origin : Int) + (corr + s.marver.gp.delay) / 2 ^ 16) 64

/-- GPTP_SYNC (R255, R256): a one-step Sync is a sample; a two-step Sync waits for its Follow_Up. -/
def execGptpSync (domain : BitVec 7) (sq : BitVec 16) (twoStep : Bool) (origin : BitVec 64) (corr : BitVec 64) (t : Nat) (s : State) : Out :=
  let s := s.at t
  if !gptpTakes s domain.toNat then .next s
  else
    let s1 := gptpOn s
    let tin := t - s.regFld (Reg.marverEthcfg (s.regFld Reg.marverGpctl 1 3)) 8 12
    let c := signedOf corr.toNat 64
    if twoStep then .next (setGp s1 { s1.marver.gp with sync := some (sq.toNat, tin, c) })
    else .next (gptpSample s1 (syncTime s1 origin.toNat c) tin)

/-- GPTP_FOLLOW_UP (R255). -/
def execGptpFollowUp (domain : BitVec 7) (sq : BitVec 16) (origin : BitVec 64) (corr : BitVec 64) (t : Nat) (s : State) : Out :=
  let s := s.at t
  if !gptpTakes s domain.toNat then .next s
  else match s.marver.gp.sync with
    | none => .next s
    | some (n, tin, c) =>
      if n ≠ sq.toNat then .next s
      else
        let s1 := setGp s { s.marver.gp with sync := none }
        .next (gptpSample s1 (syncTime s1 origin.toNat (c + signedOf corr.toNat 64)) tin)

/-- GPTP_ANNOUNCE (R255): the grandmaster's identity is recorded; a change takes the servo back to ACQUIRE. -/
def execGptpAnnounce (domain : BitVec 7) (gm : BitVec 64) (s : State) : Out :=
  if !gptpTakes s domain.toNat then .next s
  else
    let s1 := gptpOn s
    let old := s1.reg Reg.marverGpgm
    if old = gm then .next s1
    else
      let s2 := s1.setReg Reg.marverGpgm gm
      if old = 0#64 then .next s2
      else
        let s3 := (s2.setRegBit Reg.marverGpstat 2 true).setRegFld Reg.marverGpstat 0 2 1
        .next (setGp s3 { s3.marver.gp with servo := { s3.marver.gp.servo with init := true, count := 0, rate := 0 } })

/-- Whether a Pdelay_Req is due: 2^LOGPDELAY s after the last one (R255). -/
def pdelayDue (s : State) : Bool :=
  match s.marver.gp.pdelayAt with
  | none => true
  | some a => decide (a + logInterval (s.regFld Reg.marverGpctl 24 4) ≤ s.now)

/-- PDELAY_REQ_SEND (R255): Marver sends a Pdelay_Req, one each 2^LOGPDELAY s. -/
def execPdelayReqSend (sq : BitVec 16) (t : Nat) (s : State) : Out :=
  let s := s.at t
  if !s.regBit Reg.marverGpctl 0 ∨ !pdelayDue s then .next s
  else
    let tx := t + s.regFld (Reg.marverEthcfg (s.regFld Reg.marverGpctl 1 3)) 20 12
    .next (setGp s { s.marver.gp with pdelay := some (sq.toNat, tx), pdelayAt := some s.now })

/-- PDELAY_RESP (R255): the response with its follow-up gives `t2` and `t3`; `t` is its arrival. The mean link delay and the neighbour rate ratio are
free, as the standard is not restated. -/
def execPdelayResp (sq : BitVec 16) (t2 t3 : BitVec 64) (t : Nat) (s : State) : Out :=
  let s := s.at t
  let g := s.marver.gp
  match g.pdelay with
  | none => .next s
  | some (n, t1) =>
    if n ≠ sq.toNat ∨ !s.regBit Reg.marverGpctl 0 then .next s
    else
      let t4 := t - s.regFld (Reg.marverEthcfg (s.regFld Reg.marverGpctl 1 3)) 8 12
      let ratio := Config.neighbourRatio g.ratio t3.toNat t4
      .next (setGp s { g with pdelay := none, ratio := ratio, delay := Config.linkDelay g.delay ratio t1 t2.toNat t3.toNat t4 })

/-- GPTP_SYNC_TIMEOUT (R256): three expected intervals without a sample. -/
def execGptpSyncTimeout (t : Nat) (s : State) : Out :=
  let s := s.at t
  let g := s.marver.gp
  if gpState s = 2 ∧ g.sampleAt + 3 * syncInterval s ≤ s.now then
    let s1 := gptpMiss s ((s.now - g.sampleAt) / syncInterval s)
    .next (setGp (s1.setRegFld Reg.marverGpstat 0 2 3) { s1.marver.gp with holdAt := s.now })
  else .next s

/-- STEER_HOLDOVER_EXPIRY (R256): after 10 s in HOLDOVER Lehr A returns to a rate of zero. -/
def execSteerHoldoverExpiry (t : Nat) (s : State) : Out :=
  let s := s.at t
  let g := s.marver.gp
  if gpState s = 3 ∧ g.holdAt + 10000000000 ≤ s.now then .next (setGp s { settleSteer g s.now with rho := 0 }) else .next s

/-- Whether the rate has added up to an increment of 1 ns in a direction (R256). -/
def adjustDue (g : Gptp) (add : Bool) : Bool := if add then decide (2 ^ 40 ≤ g.phase) else decide (g.phase ≤ -(2 ^ 40))

/-- DEVICE_TIME_ADJUST (R256): Lehr A adds or withholds one increment of 1 ns, at the requested rate and not sooner than 20,000 ns after the last.
Withholding leaves device time where it is. -/
def execDeviceTimeAdjust (add : Bool) (t : Nat) (s : State) : Out :=
  let s := s.at t
  let g := settleSteer s.marver.gp s.now
  if !s.regBit Reg.marverGpctl 11 ∨ s.now < g.adjusted + 20000 ∨ !adjustDue g add then .next s
  else
    let s1 := if add then { s with now := s.now + 1 } else s
    .next (setGp s1 { g with adjusted := s1.now, phase := if add then g.phase - 2 ^ 40 else g.phase + 2 ^ 40 })

/-- MARVER_EVLOG_READ (R321): the oldest event is read and removed. -/
def execMarverEvlogRead (s : State) : Out :=
  .next { s with readData := s.marver.log.head, marver := { s.marver with log := s.marver.log.pop } }

end Sys2Proof.Machine
end

