-- ==== Sys2Proof/Machine/MarverIngest.lean ====
section
/-! DEFINITION. Marver's ingest (R244-R254, R263, R268, R269): camera and Ethernet ports, injected rings, slots and their headers, images, RAW
packets, and the decoding of points. -/

namespace Sys2Proof.Machine

/-- Marver as a requester: node 0x65, identity 17, class T (R456). -/
def marverReq : Req := ⟨0x65, 17, false, 1, none⟩

/-- Lehr B as a requester: node 0x67, identity 19, class S (R456). -/
def lehrBReq : Req := ⟨0x67, 19, false, 0, none⟩
/-- Lehr A as a requester: node 0x66, identity 18, class S (R456). -/
def lehrAReq : Req := ⟨0x66, 18, false, 0, none⟩

/-- A write by Marver; a refused one is the crucible's to report. -/
def marverWrite (s : State) (a : Nat) (bs : List Byte) : State := (devWrite s marverReq .clean a bs).1

/-! ## Slots (R251) -/

/-- NBUF. -/
def nbuf (s : State) (i : Nat) : Nat := s.regFld (Reg.marverSbuf i) 48 4 + 1
/-- SLOTSZ. -/
def slotSize (s : State) (i : Nat) : Nat := s.regFld (Reg.marverSslot i) 0 32
/-- The address of a slot. -/
def ringSlotAddr (s : State) (i index : Nat) : Nat := (s.regFld (Reg.marverSbuf i) 12 36 * 4096 + index * slotSize s i) % 2 ^ 48

/-- A slot that receives its first data. -/
def MSlot.new (index frame tin : Nat) : MSlot := ⟨index, frame, 0, tin, 0, 0, 0, 0, 0, 0, false⟩

/-- UNSYNC or HOLDOVER, which data taken now carries into its slot's flags (R261). -/
def servoFlags (s : State) (i : Nat) : Nat := (if unsynced s i then 1 else 0) + (if servoSt s i = 3 then 16 else 0)

/-- Data taken into a slot now. -/
def MSlot.stamp (x : MSlot) (s : State) (i : Nat) : MSlot := { x with flags := x.flags ||| servoFlags s i }

/-- The header of a slot, STATE = 1; INJECTED goes with the stream. -/
def slotHeader (s : State) (i : Nat) (x : MSlot) : List Byte :=
  let body := leBytes 4 1 ++ leBytes 4 x.frame ++ leBytes 8 x.tval ++ leBytes 8 x.tin ++ leBytes 8 x.src ++ leBytes 4 x.bytes
    ++ leBytes 4 x.count ++ leBytes 2 (x.flags ||| (if streamKind s i = 3 then 32 else 0)) ++ leBytes 1 i ++ leBytes 1 (servoSt s i)
    ++ leBytes 4 x.dropped ++ leBytes 12 0
  body ++ leBytes 4 (crc32c body)

/-- The header written. -/
def writeHeader (s : State) (i : Nat) (x : MSlot) : State := marverWrite s (ringSlotAddr s i x.index) (slotHeader s i x)

/-- STATE = 0 written. -/
def openSlot (s : State) (i index : Nat) : State := marverWrite s (ringSlotAddr s i index) (leBytes 4 0)

/-- MARVER_SDROPs raised. -/
def dropItems (s : State) (i k : Nat) : State := s.bump (Reg.marverSdrop i) k

/-- The slot of a period of a POINTS or RAW stream, if it has received data. -/
def periodSlot (s : State) (i f : Nat) : Option MSlot := (s.mstream i).slots.find? (fun x => decide (x.frame = f))

/-- A slot stored; the ring reuses the place of an older one that is complete. -/
def putSlot (s : State) (i : Nat) (x : MSlot) : State :=
  let m := s.mstream i
  s.setMstream i { m with slots := (m.slots.filter (fun y => decide (y.frame ≠ x.frame) && (decide (y.index ≠ x.index) || !y.done))) ++ [x] }

/-- The slot of a period, begun with its first data. -/
def slotFor (s : State) (i f tin : Nat) : MSlot := (periodSlot s i f).getD (MSlot.new (f % nbuf s i) f tin)

/-- A flag set in a slot's flags. -/
def MSlot.flag (x : MSlot) (b : Nat) : MSlot := { x with flags := x.flags ||| 2 ^ b }

/-- The slot of a RAW stream's period is opened with its first data (R251); that of a POINTS stream at the close. -/
def openFresh (s : State) (i f : Nat) (x : MSlot) : State :=
  if (periodSlot s i f).isNone && decide (streamPayload s i = 2) then openSlot s i x.index else s

/-- A flag set in the slot of the current period, and items dropped there. -/
def flagCurrent (s : State) (i tin b k : Nat) : State :=
  match s.marver.periods.getLast? with
  | some cur =>
    if cur.closed then s
    else
      let x := slotFor s i cur.frame tin
      putSlot (openFresh s i cur.frame x) i { x.flag b with dropped := x.dropped + k }
  | none => s

/-- R263: late data noted in the slot of its period; a header already written is written again. A period that brought no data gets a header with the flag,
unless its slot has been reused since. -/
def noteLate (s : State) (i f tin k : Nat) : State :=
  match periodSlot s i f with
  | some x =>
    let y := { x.flag 1 with dropped := x.dropped + k }
    let s1 := putSlot s i y
    if y.done then writeHeader s1 i y else s1
  | none =>
    let n := f % nbuf s i
    if (s.mstream i).slots.any (fun x => decide (x.index = n) && newer32 x.frame f) then s
    else
      let y := { (MSlot.new n f tin).flag 1 with dropped := k, tval := ((s.mperiod f).map (·.refTime)).getD 0, done := true }
      writeHeader (putSlot s i y) i y

/-- Late or too early data dropped. -/
def dropUntimely (s : State) (i : Nat) (w : When) (tin k : Nat) : State :=
  let s1 := dropItems s i k
  match w with
  | .closed (some f) => noteLate s1 i f tin k
  | _ => s1

/-- The newest validity time received (R306). -/
def noteNewest (s : State) (i : Nat) (v : Int) : State :=
  let m := s.mstream i
  s.setMstream i { m with newest := some (max (m.newest.getD 0) v.toNat) }

/-! ## Images -/


/-- The image in reception changed. -/
def mapImage (s : State) (i : Nat) (g : MSlot → MSlot) : State :=
  let m := s.mstream i
  s.setMstream i { m with image := m.image.map g }

/-- A line of the image: written after the lines before it, dropped whole where it would pass the slot's end or belongs to an image that is cut short. -/
def imageLine (s : State) (i : Nat) (data : List Byte) : State :=
  match (s.mstream i).image with
  | none => s
  | some x =>
    if x.done then dropItems (mapImage s i (fun x => { x with dropped := x.dropped + 1 })) i 1
    else if slotSize s i < 64 + x.bytes + data.length then
      dropItems (mapImage s i (fun x => { x.flag 2 with dropped := x.dropped + 1 })) i 1
    else mapImage (marverWrite s (ringSlotAddr s i x.index + 64 + x.bytes) data) i
      (fun x => { x.stamp s i with bytes := x.bytes + data.length, count := x.count + 1 })

/-- The image's first embedded-data line: a source time found in it is a sample of the servo (R254, R258). -/
def imageSource (s : State) (i : Nat) (data : List Byte) : State :=
  let m := s.mstream i
  match m.image, m.embed with
  | some x, false =>
    let r := sourceTime (s.setMstream i { m with embed := true }) i data
    match r.2 with
    | none => r.1
    | some src => let s1 := servoSample r.1 i src x.tin
      s1.setMstream i { s1.mstream i with source := some src }
  | _, _ => s

/-- A complete image: its header is written last. -/
def keepImage (i : Nat) (s : State) (y : MSlot) : State :=
  let m := s.mstream i
  writeHeader (s.setMstream i { m with images := m.images ++ [y] }) i y

/-- The image has ended: its validity time decides its period (R262, R263); one of the next period is held until then. -/
def imageEnd (s : State) (i : Nat) : State :=
  let m := s.mstream i
  match m.image with
  | none => s
  | some x =>
    let v := validity s i m.source x.tin 0
    let w := whenOf s v
    let y := { x.stamp s i with tval := wrapInt v 64, src := m.source.getD 0, done := true }
    let s0 := noteNewest (s.setMstream i { m with image := none }) i v
    match w with
    | .inPeriod f => keepImage i s0 { y with frame := f }
    | .ahead f => let m := s0.mstream i
      s0.setMstream i { m with held := m.held ++ [{ y with frame := f }] }
    | .closed (some f) => writeHeader (dropItems s0 i 1) i { y.flag 1 with frame := f }
    | _ => dropItems s0 i 1

/-- A Frame Start, or an injected image: the image takes its slot (R251). One still in reception has lost its Frame End: it is written with TRUNC
(R245). -/
def imageBegin (s0 : State) (i tin : Nat) : State :=
  let s := if (s0.mstream i).image.isSome then imageEnd (mapImage s0 i (·.flag 6)) i else s0
  let m := s.mstream i
  let idx := m.seq % nbuf s i
  let s1 := s.setMstream i { m with image := some ((MSlot.new idx 0 tin).stamp s i), source := none, embed := false, lost := false, seq := m.seq + 1,
                                    images := m.images.filter (fun x => decide (x.index ≠ idx)) }
  openSlot s1 i idx

/-! ## Camera ports (R244, R245) -/

/-- A camera port starts to train at its gear when it is enabled with GEAR 1-5, and is down otherwise (R245, R281). -/
def startCamera (s : State) (n : Nat) : State :=
  let cfg := s.reg (Reg.marverCamcfg n)
  let g := fld cfg 1 3
  let s1 := { s with marver := { s.marver with cams := sput (0, 0) s.marver.cams n (0, 0) } }
  (s1.setRegFld (Reg.marverCamst n) 0 2 (if bitAt cfg 0 ∧ 1 ≤ g ∧ g ≤ 5 then 1 else 0)).setRegFld (Reg.marverCamst n) 2 3 0

/-- An Ethernet port's link: up when the port is enabled with a combination of SPEED and IF that R246 lists, down otherwise. -/
def startEthernet (s : State) (n : Nat) : State :=
  let cfg := s.reg (Reg.marverEthcfg n)
  let ok := bitAt cfg 0 && decide ((fld cfg 1 2 = 0) = (fld cfg 3 1 = 0))
  s.setRegFld (Reg.marverEthst n) 0 2 (if ok then 2 else 0)

/-- What a training attempt of a camera port makes of it (R245): three failures take the port one gear lower; at G1 it stays down. -/
def trainCamera (s : State) (n : Nat) (ok : Bool) : State :=
  let cfg := s.reg (Reg.marverCamcfg n)
  let st := Reg.marverCamst n
  let g := fld cfg 1 3
  let c := sget (0, 0) s.marver.cams n
  let put (s : State) (c : Nat × Nat) : State := { s with marver := { s.marver with cams := sput (0, 0) s.marver.cams n c } }
  if !bitAt cfg 0 ∨ g = 0 ∨ 5 < g ∨ s.regFld st 0 2 = 2 ∨ 3 ≤ c.2 then s
  else if ok then ((put s (c.1, 0)).setRegFld st 0 2 2).setRegFld st 2 3 (g - c.1)
  else if c.2 < 2 then (put s (c.1, c.2 + 1)).setRegFld st 0 2 1
  else if 1 < g - c.1 then ((put s (c.1 + 1, 0)).setRegFld st 0 2 1).setRegBit st 5 true
  else (put s (c.1, 3)).setRegFld st 0 2 0

/-- CAMERA_PORT_TRAINING (R245); the port's domain is released once it is up, or down for good (R551). -/
def execCameraPortTraining (port : Fin 16) (ok : Bool) (s : State) : Out := .next (releaseDomains (trainCamera s port.val ok))

/-- Bits per pixel of the CSI-2 data types of R244; embedded data has bytes. None: not supported. -/
def csiBits (dt : Nat) : Option Nat :=
  if dt = 0x12 then some 8 else if dt = 0x1E then some 16 else if dt = 0x24 then some 24 else if dt = 0x27 then some 24
  else if dt = 0x2A then some 8 else if dt = 0x2B then some 10 else if dt = 0x2C then some 12 else if dt = 0x2D then some 14
  else if dt = 0x2E then some 16 else if dt = 0x2F then some 20 else none

/-- The streams that a camera port's virtual channel feeds, at most four on a port. -/
def cameraStreams (s : State) (port vc : Nat) : List Nat :=
  (((List.range 64).filter (fun i => streamOn s i && decide (streamKind s i = 1) && decide (streamPort s i = port))).take 4).filter
    (fun i => decide (s.regFld (Reg.marverSmatch i) 0 5 = vc))

/-! ## Points (R268, R269) -/

/-- A field of a point, in the byte order of CFMT. -/
def fieldAt (big : Bool) (bs : List Byte) (off n : Nat) : Nat := if big then beNat (sliceBytes bs off n) else leAt bs off n

/-- The layout of R268 in a calibration block. -/
def layoutOf (c : List Byte) : List Byte := sliceBytes c 128 64

/-- A coordinate as FP32: fp32(c), from the format of CFMT. -/
def coordF (cfmt : Nat) (big : Bool) (bs : List Byte) (off : Nat) : Nat :=
  match cfmt with
  | 0 => fpInt (signedOf (fieldAt big bs off 2) 16) 0
  | 1 => fpInt (signedOf (fieldAt big bs off 4) 32) 0
  | _ => fieldAt big bs off 4

/-- A decoded point: sensor-frame coordinates, radial velocity, intensity, and the time offset in ns. -/
structure RawPoint where
  p : V3
  vr : Nat
  inten : Nat
  dt : Nat
  deriving DecidableEq, Repr

/-- The point at an offset of a payload. -/
def decodePoint (lay elev pay : List Byte) (o : Nat) : RawPoint :=
  let cf := leAt lay 9 1
  let fmt := cf % 4
  let big := decide (128 ≤ cf)
  let c (k : Nat) : Nat := o + leAt lay (10 + 2 * k) 2
  let scale := leAt lay 16 4
  let p : V3 :=
    if leAt lay 8 1 = 0 then
      ⟨fMul (coordF fmt big pay (c 0)) scale, fMul (coordF fmt big pay (c 1)) scale, fMul (coordF fmt big pay (c 2)) scale⟩
    else
      let k : Nat := match floorF (fMul (coordF fmt big pay (c 1)) (leAt lay 20 4)) with
        | some z => wrapInt z 16
        | none => wrapInt (Config.nanInt (coordF fmt big pay (c 1))) 16
      let ch := leAt pay (c 2) 1
      let rho := fMul (coordF fmt big pay (c 0)) scale
      let h := fMul rho (leAt elev (8 * ch) 4)
      ⟨fMul h (cosTab k), fMul h (sinTab k), fMul rho (leAt elev (8 * ch + 4) 4)⟩
  let opt (off n : Nat) : Nat := if leAt lay off 2 = 0xFFFF then 0 else fieldAt big pay (o + leAt lay off 2) n
  ⟨p, fpInt (signedOf (opt 26 2) 16) (-8), opt 24 2, opt 28 4 * leAt lay 32 4⟩

/-- How far from its offset a point's fields reach. -/
def pointReach (lay : List Byte) : Nat :=
  let cf := leAt lay 9 1 % 4
  let w := if cf = 0 then 2 else 4
  let opt (off n : Nat) : Nat := if leAt lay off 2 = 0xFFFF then 0 else leAt lay off 2 + n
  let c2 := if leAt lay 8 1 = 0 then w else 1
  max (max (max (leAt lay 0 2) (leAt lay 10 2 + w)) (max (leAt lay 12 2 + w) (leAt lay 14 2 + c2))) (max (opt 24 2) (max (opt 26 2) (opt 28 4)))

/-- The points of a packet, and whether it is truncated (R268). A layout with a reserved COORD or CFMT gives no point and a truncated packet. -/
def decodePacket (lay elev pay : List Byte) : List RawPoint × Bool :=
  let cf := leAt lay 9 1
  let nf := leAt lay 4 2
  let cnt : Option Nat := if nf ≠ 0 then some nf
    else if pay.length < leAt lay 6 2 + 2 then none else some (fieldAt (decide (128 ≤ cf)) pay (leAt lay 6 2) 2)
  match cnt with
  | none => ([], true)
  | some n =>
    if cf % 4 = 3 ∨ 2 ≤ leAt lay 8 1 ∨ leAt lay 0 2 = 0 then ([], true)
    else
      let offs := (List.range n).map (fun j => leAt lay 2 2 + j * leAt lay 0 2)
      let fit := offs.filter (fun o => decide (o + pointReach lay ≤ pay.length))
      (fit.map (decodePoint lay elev pay), decide (fit.length < n))

/-! ## Packets of POINTS and RAW streams (R251, R258, R263) -/

/-- A slot that takes data: TIN is the stamp of its first data (R251). -/
def MSlot.firstAt (x : MSlot) (empty : Bool) (tin : Nat) : MSlot := if empty then { x with tin := tin } else x

/-- A RAW packet written to the slot of its period: a 16-byte prefix with its stamp and length, then the packet as received; `fl` is what its servo was
in when it came (R261). -/
def rawWrite (s : State) (i f tin fl : Nat) (raw : List Byte) : State :=
  let y := slotFor s i f tin
  let x := { y.firstAt (decide (y.count = 0)) tin with flags := y.flags ||| fl }
  let s0 := openFresh s i f x
  if slotSize s i < 64 + x.bytes + 16 + raw.length then
    dropItems (putSlot s0 i { x.flag 2 with dropped := x.dropped + 1 }) i 1
  else
    let s1 := marverWrite s0 (ringSlotAddr s i x.index + 64 + x.bytes) (leBytes 8 tin ++ leBytes 4 raw.length ++ leBytes 4 0 ++ raw)
    putSlot s1 i { x with bytes := x.bytes + 16 + raw.length, count := x.count + 1 }

/-- A point taken into the period that holds its validity time. -/
def pointArrive (s : State) (i tin : Nat) (src : Option Nat) (p : RawPoint) : State :=
  let v := validity s i src tin p.dt
  let s0 := noteNewest s i v
  let put (f : Nat) : State :=
    let m := s0.mstream i
    let fl := (if unsynced s i then 1 else 0) + (if servoSt s i = 3 then 4 else 0)
    let pt : MPoint := ⟨p.p.x, p.p.y, p.p.z, p.vr, p.inten, wrapInt v 64, fl⟩
    let s1 := s0.setMstream i { m with points := sput [] m.points f (sget [] m.points f ++ [pt]) }
    putSlot s1 i ((slotFor s1 i f tin).firstAt (sget [] m.points f).isEmpty tin)
  match whenOf s v with
  | .inPeriod f => put f
  | .ahead f => put f
  | w => dropUntimely s0 i w tin 1

/-- A packet of a POINTS or RAW stream: its time field is a sample first (R258), then its data is timed and taken. -/
def packetArrive (s : State) (i tin : Nat) (raw pay : List Byte) : State :=
  let r := if srcMode s i = 1 ∨ srcMode s i = 3 then sourceTime s i pay else (s, none)
  let s1 := match r.2 with
    | some src => servoSample r.1 i src tin
    | none => r.1
  if streamPayload s i = 1 then
    let m := s1.mstream i
    let d := decodePacket (layoutOf m.calib) m.elev pay
    let s2 := d.1.foldl (fun s p => pointArrive s i tin r.2 p) s1
    if d.2 then flagCurrent (dropItems s2 i 1) i tin 6 0 else s2
  else if streamPayload s i = 2 then
    let v := validity s1 i r.2 tin 0
    let s2 := noteNewest s1 i v
    match whenOf s1 v with
    | .inPeriod f => rawWrite s2 i f tin (servoFlags s2 i) raw
    | .ahead f => let m := s2.mstream i
      s2.setMstream i { m with early := m.early ++ [(f, tin, servoFlags s2 i, raw)] }
    | w => dropUntimely s2 i w tin 1
  else dropItems s1 i 1

/-! ## CSI-2 packets (R244, R245, R252, R253) -/

/-- Whether a stream takes line packets of a data type: its own, and embedded data (R254). -/
def takesLine (s : State) (i dt : Nat) : Bool := decide (dt = 0x12) || decide (s.regFld (Reg.marverSmatch i) 5 6 = dt)

/-- An image marked by a lost packet: TRUNC, and with a full ingress buffer the rest of it is dropped. -/
def MSlot.losesPacket (x : MSlot) (cut : Bool) : MSlot :=
  { x.flag 6 with done := x.done || cut, dropped := x.dropped + (if cut then 1 else 0) }

/-- What a lost packet makes of one stream: the image in reception is TRUNC, and with a full ingress buffer the rest of it is dropped; outside an image the
next one may have lost its Frame Start, and with a full buffer a line packet belongs to that image, which is cut short at once; the slot of a POINTS or RAW
stream is TRUNC, or OVERFLOW with a full buffer. -/
def streamLost (tin dt : Nat) (cut : Bool) (s : State) (i : Nat) : State :=
  let s1 := if cut then dropItems s i 1 else s
  if streamPayload s i ≠ 0 then flagCurrent s1 i tin (if cut then 2 else 6) (if cut then 1 else 0)
  else if (s.mstream i).image.isSome then mapImage s1 i (·.losesPacket cut)
  else if cut && takesLine s i dt then mapImage (imageBegin s1 i tin) i (·.losesPacket true)
  else s1.setMstream i { s1.mstream i with lost := true }

/-- A packet lost: counted, and noted in the streams of its virtual channel (R245, R252). -/
def csiLost (s : State) (port : Nat) (is : List Nat) (cut : Bool) (tin dt : Nat) : State :=
  is.foldl (streamLost tin dt cut) (s.bumpSat (Reg.marverCamst port) 16 16)

/-- Data of an image whose Frame Start was lost: the image begins with it, flagged TRUNC (R245). -/
def beginLost (s : State) (i tin : Nat) : State :=
  let m := s.mstream i
  if m.image.isNone && m.lost then mapImage (imageBegin s i tin) i (·.flag 6) else s

/-- The image in reception is cut short: what comes of it is dropped (R252). -/
def imageCut (s : State) (i : Nat) : Bool := decide (streamPayload s i = 0) && (s.mstream i).image.any (·.done)

/-- A line packet given to one stream. -/
def csiLine (s0 : State) (i dt tin : Nat) (data : List Byte) : State :=
  let s := if streamPayload s0 i = 0 ∧ takesLine s0 i dt then beginLost s0 i tin else s0
  let embedded := decide (dt = 0x12) && decide (srcMode s i = 2) && decide (streamPayload s i = 0)
  let s1 := if embedded && !imageCut s i then imageSource s i data else s
  if s1.regFld (Reg.marverSmatch i) 5 6 ≠ dt then (if embedded && imageCut s i then imageLine s1 i data else s1)
  else if streamPayload s1 i = 0 then imageLine s1 i data
  else packetArrive s1 i tin data data

/-- Whether an image line is longer, or its image has more lines, than R244 supports. Embedded data is no image line. -/
def tooLarge (s : State) (is : List Nat) (dt bits : Nat) (data : List Byte) : Bool :=
  decide (dt ≠ 0x12) && (decide (8191 < data.length * 8 / bits) ||
    is.any (fun i => decide (s.regFld (Reg.marverSmatch i) 5 6 = dt) && (match (s.mstream i).image with
      | some x => decide (8191 ≤ x.count)
      | none => false)))

/-- CSI2_PACKET (R244, R245, R252, R253): Frame Start begins an image stamped with its first symbol, Frame End completes it, line packets of a
supported type are written; an erroneous or unsupported packet is dropped and counted. -/
def execCsi2Packet (port : Fin 16) (vc : Fin 32) (dt : BitVec 6) (data : List Byte) (hdrErr crcErr full : Bool) (t : Nat) (s : State) : Out :=
  let s := s.at t
  let n := port.val
  if !s.regBit (Reg.marverCamcfg n) 0 ∨ s.regFld (Reg.marverCamst n) 0 2 ≠ 2 then .next s
  else
    let is := cameraStreams s n vc.val
    let img := is.filter (fun i => decide (streamPayload s i = 0))
    let d := dt.toNat
    if hdrErr || crcErr then .next (csiLost s n is false t d)
    else if full then .next (csiLost (if d = 0 then img.foldl (fun s i => imageBegin s i t) s else s) n is true t d)
    else if d = 0 then .next (img.foldl (fun s i => imageBegin s i t) s)
    else if d = 1 then .next (img.foldl imageEnd s)
    else if d = 2 ∨ d = 3 then .next s
    else match csiBits d with
      | none => .next (csiLost s n is false t d)
      | some b => if tooLarge s img d b data then .next (csiLost s n is false t d)
        else .next (is.foldl (fun s i => csiLine s i d t data) s)

/-! ## Ethernet frames (R246, R247) -/

/-- What a frame's headers say: VLAN (0 untagged), EtherType, and the UDP destination port and payload where it is UDP. -/
structure EthInfo where
  vlan : Nat
  etype : Nat
  udp : Option (Nat × List Byte)
  pay : List Byte
  deriving DecidableEq, Repr

/-- The UDP datagram of an IPv4 or IPv6 packet. -/
def udpOf (etype : Nat) (ip : List Byte) : Option (Nat × List Byte) :=
  let at' (o : Nat) : Option (Nat × List Byte) :=
    if ip.length < o + 8 then none
    else some (beNat (sliceBytes ip (o + 2) 2), (ip.drop (o + 8)).take (beNat (sliceBytes ip (o + 4) 2) - 8))
  if etype = 0x0800 then
    if leAt ip 9 1 = 17 ∧ beNat (sliceBytes ip 6 2) % 8192 = 0 then at' (leAt ip 0 1 % 16 * 4) else none
  else if etype = 0x86DD then if leAt ip 6 1 = 17 then at' 40 else none
  else none

/-- The headers of a frame that begins at the destination MAC. -/
def ethInfo (f : List Byte) : EthInfo :=
  let e := beNat (sliceBytes f 12 2)
  if e = 0x8100 then
    let e2 := beNat (sliceBytes f 16 2)
    ⟨beNat (sliceBytes f 14 2) % 4096, e2, udpOf e2 (f.drop 18), f.drop 18⟩
  else ⟨0, e, udpOf e (f.drop 14), f.drop 14⟩

/-- The payload that carries a time field: the UDP payload, or the Ethernet payload (R254). -/
def EthInfo.data (e : EthInfo) : List Byte :=
  match e.udp with
  | some (_, p) => p
  | none => e.pay

/-- Whether a stream takes a frame (R247). -/
def ethMatches (s : State) (port : Nat) (e : EthInfo) (i : Nat) : Bool :=
  let w := s.reg (Reg.marverSmatch i)
  streamOn s i && decide (streamKind s i = 2) && decide (streamPort s i = port) &&
    (decide (fld w 16 12 = 0xFFF) || decide (fld w 16 12 = e.vlan)) && decide (fld w 28 16 = e.etype) &&
    (decide (fld w 0 16 = 0) || (match e.udp with
      | some (p, _) => decide (fld w 0 16 = p)
      | none => false))

/-- A frame dropped and counted. -/
def ethDrop (s : State) (port : Nat) : State := s.bump (Reg.marverEthdrop port) 1

/-- ETH_FRAME_RECEIVE (R246, R247, R252, R253): `frame` runs from the destination MAC to the end of payload; the engine's own rows handle what a gPTP
frame says. -/
def execEthFrameReceive (port : Fin 8) (frame : List Byte) (fcsOk full : Bool) (t : Nat) (s : State) : Out :=
  let s := s.at t
  let n := port.val
  let e := ethInfo frame
  let tin := t - s.regFld (Reg.marverEthcfg n) 8 12
  if s.regFld (Reg.marverEthst n) 0 2 ≠ 2 then .next s
  else if !fcsOk ∨ frame.length + 4 < 64 ∨ 9216 < frame.length + 4 ∨ e.etype = 0x8808 then .next (ethDrop s n)
  else if e.etype = 0x88F7 then .next (if s.regFld Reg.marverGpctl 1 3 = n then s else ethDrop s n)
  else match (List.range 64).find? (ethMatches s n e) with
    | none => .next (ethDrop s n)
    | some i =>
      if full then .next (flagCurrent (dropItems (ethDrop s n) i 1) i tin 2 1)
      else .next (packetArrive s i tin frame e.data)

/-! ## Injected streams (R248, R249) -/

/-- The lines of an injected image: as many as the calibration block's HEIGHT, of equal length. -/
def injectLines (h : Nat) (bs : List Byte) : List (List Byte) :=
  if h = 0 ∨ bs.length / h = 0 then [bs] else (List.range h).map (fun j => sliceBytes bs (j * (bs.length / h)) (bs.length / h))

/-- The payload of a released entry taken as an arrival of its form. -/
def injectPayload (s : State) (i form tin : Nat) (bs : List Byte) : State :=
  if form = 1 ∧ streamPayload s i = 0 then
    let s1 := imageBegin s i tin
    let s2 := if srcMode s i = 2 then imageSource s1 i bs else s1
    imageEnd ((injectLines (calSize (s.mstream i).calib).2 bs).foldl (fun s l => imageLine s i l) s2) i
  else if form = 2 ∧ streamPayload s i ≠ 0 then packetArrive s i tin bs (ethInfo bs).data
  else dropItems s i 1

/-- INJECTED_ENTRY_RELEASE (R248, R249): the next entry in ring order, once device time has reached its TIN. -/
def execInjectedEntryRelease (stream : Fin 64) (ecc : MemEcc) (t : Nat) (s : State) : Out :=
  let s := s.at t
  let i := stream.val
  let w := s.reg (Reg.marverSmatch i)
  let rd := s.regFld (Reg.marverInjrd i) 0 32
  if !streamOn s i ∨ streamKind s i ≠ 3 ∨ s.regFld (Reg.marverSslot i) 32 32 = rd then .next s
  else
    let a := fld w 6 42 * 64 + rd % 2 ^ fld w 48 4 * 32
    let r := devRead s marverReq ecc a 32
    let fin (s : State) : State := s.setRegFld (Reg.marverInjrd i) 0 32 (rd + 1)
    match r.2 with
    | .error _ => .next (fin (dropItems r.1 i 1))
    | .ok e =>
      let form := leAt e 20 1
      let len := leAt e 16 4
      let tin := leAt e 0 8
      if leAt e 28 4 ≠ crc32c (e.take 28) ∨ (form ≠ 1 ∧ form ≠ 2) ∨ len = 0 ∨ 16777216 < len then .next (fin (dropItems r.1 i 1))
      else if s.now < tin then .next s
      else
        let p := devRead r.1 marverReq .clean (leAt e 8 8) len
        match p.2 with
        | .error _ => .next (fin (dropItems p.1 i 1))
        | .ok bs => .next (fin (injectPayload p.1 i form (if tin = 0 then s.now else tin) bs))

end Sys2Proof.Machine
end

