-- ==== Sys2Proof/Machine/MarverProject.lean ====
section
/-! DEFINITION. Marver's poses (R264-R267), frame boundaries and closes (R263, R272, R282, R284, R306), and what the projection of a period computes
(R270-R278). -/

namespace Sys2Proof.Machine

/-! ## The pose ring (R264, R265) -/

/-- Entries of the pose ring. -/
def poseRing (s : State) : Nat := 2 ^ s.regFld Reg.marverPosecfg 0 4
/-- MAXAGE. -/
def poseMaxAge (s : State) : Nat := s.regFld Reg.marverPosecfg 32 32

/-- An entry as it was read; none where it fails its CRC. -/
def poseEntry (n : Nat) (e : List Byte) : Option Pose :=
  if leAt e 60 4 ≠ crc32c (e.take 60) then none
  else some ⟨n, leAt e 0 8, signedOf (leAt e 8 8) 64, signedOf (leAt e 16 8) 64, signedOf (leAt e 24 8) 64, leAt e 32 4, leAt e 36 4,
    leAt e 40 4, leAt e 44 4, decide (leAt e 52 1 % 2 = 1)⟩

/-- One entry read and, where it is usable, kept (R265). -/
def poseTake (ecc : MemEcc) (s : State) (n : Nat) : State :=
  let r := devRead s marverReq ecc (s.regFld Reg.marverPosebase 6 42 * 64 + n % poseRing s * 64) 64
  let bad (b : Nat) : State := r.1.setRegBit Reg.marverPosestat b true
  match r.2 with
  | .error _ => bad 1
  | .ok e => match poseEntry n e with
    | none => bad 1
    | some p =>
      if leAt e 48 4 ≠ n then r.1
      else
        let put (s : State) : State := { s with marver := { s.marver with poses := s.marver.poses ++ [p] } }
        match r.1.marver.poses.getLast? with
        | none => put r.1
        | some q =>
          if p.time ≤ q.time then bad 2
          else if min 10000000 (s.regFld Reg.marverPosecfg 8 24) < p.time - q.time then put (bad 3)
          else put r.1

/-- One entry read by Lehr B through crucible 3 (R33), and kept where it is usable: a rising TIME, its own SEQ, and a CRC that holds. DESIGN CHOICE: Lehr
B reads an entry when MARVER_POSEWR publishes it, and keeps the latest 4,096. -/
def lehrTake (ecc : MemEcc) (s : State) (n : Nat) : State :=
  if s.lehrB.stoppedB then s
  else
    let r := devRead s lehrBReq ecc (s.regFld Reg.marverPosebase 6 42 * 64 + n % poseRing s * 64) 64
    match r.2 with
    | .error _ => r.1
    | .ok e => match poseEntry n e with
      | none => r.1
      | some p =>
        let ps := r.1.lehrB.ringPoses
        if leAt e 48 4 ≠ n ∨ ps.any (fun q => decide (p.time ≤ q.time)) then r.1
        else { r.1 with lehrB := { r.1.lehrB with ringPoses := (ps ++ [p]).drop (ps.length - 4095) } }

/-- The start of the oldest period whose projection has not ended. -/
def oldestOpen (s : State) : Option MPeriod := s.marver.periods.find? (fun p => p.projected.isNone)

/-- The entries from the newest at or before a time. -/
def posesFrom (ps : List Pose) (t : Nat) : List Pose :=
  match bracket t ps with
  | none => ps
  | some (a, _) => ps.filter (fun p => decide (a.time ≤ p.time))

/-- POSERD follows: the newest entry not after the start of the oldest period not yet projected; entries of one period more are kept, as a
discontinuity is looked for back to the pose of the period before (R317). -/
def syncPoses (s : State) : State :=
  match oldestOpen s with
  | none => s
  | some p =>
    let ps := posesFrom s.marver.poses p.start
    let rd := match ps with
      | [] => s.regFld Reg.marverPosewr 0 32
      | a :: _ => a.n
    let keep := posesFrom s.marver.poses (p.start - s.frmper)
    ({ s with marver := { s.marver with poses := keep } }).setRegFld Reg.marverPoserd 0 32 rd

/-- POSE_WRITE (R265): MARVER_POSEWR is written; the entries it publishes are read. -/
def execPoseWrite (v : BitVec 32) (ecc : MemEcc) (s : State) : Out :=
  let old := s.regFld Reg.marverPosewr 0 32
  let s1 := s.setRegFld Reg.marverPosewr 0 32 v.toNat
  if !newer32 v.toNat old then .next s1
  else
    let size := poseRing s
    let ahead := decide (size < countDiff v.toNat (s.regFld Reg.marverPoserd 0 32))
    let s2 := if ahead then
        let kept := s1.marver.poses.filter (fun p => decide (countDiff v.toNat p.n ≤ size))
        ({ s1 with marver := { s1.marver with poses := kept } }).setRegBit Reg.marverPosestat 0 true
      else s1
    let k := min size (countDiff v.toNat old)
    let new := (List.range k).map (fun j => (v.toNat + 2 ^ 32 - k + j) % 2 ^ 32)
    .next (new.foldl (lehrTake ecc) (syncPoses (new.foldl (poseTake ecc) s2)))

/-! ## Fusion modes (R282, R284) -/

/-- A mode requested: it waits for the next boundary. -/
def requestMode (s : State) (v : Nat) : State :=
  (({ s with marver := { s.marver with modePend := some v } }).setRegFld Reg.marverFusctl 0 2 v).setRegBit Reg.marverFusstat 2 true

/-- MODE_REQUEST (R282). -/
def execModeRequest (v : BitVec 2) (s : State) : Out := .next (requestMode s v.toNat)

/-- Whether a track is of the fallback tracker (R303): slots 4,096 - FBSLOTS to 4,095. -/
def fbTrack (t : Track) (fbslots : Nat) : Bool := decide (4096 - fbslots ≤ t.slot)

/-- Every main track deleted. -/
def dropMain (s : State) : State :=
  let fb := s.regFld Reg.marverTrkcfg 20 10
  ({ s with marver := { s.marver with tracks := s.marver.tracks.filter (fun t => fbTrack t fb) } }).setRegFld Reg.marverTrkstat 32 13 0

/-! ## Calibration blocks (R272) -/

/-- A stream's calibration block read: taken where its CRC holds, otherwise the previous block stays in force. -/
def readCalib (ecc : MemEcc) (s : State) (i : Nat) : State :=
  let pts := decide (streamPayload s i = 1)
  let a := s.regFld (Reg.marverScal i) 6 42 * 64
  let r := devRead s marverReq ecc a (if pts then 192 else 128)
  let bad (s : State) : State :=
    (dropItems (s.setRegBit (Reg.marverSstat i) 7 true) i 1).logMarver 0x0711 i s.frmcnt
  match r.2 with
  | .error _ => bad r.1
  | .ok c =>
    let good := if pts then decide (leAt c 188 4 = crc32c (c.take 124 ++ sliceBytes c 128 60)) else decide (leAt c 124 4 = crc32c (c.take 124))
    if !good then bad r.1
    else if pts ∧ leAt c 136 1 = 1 then
      let e := devRead r.1 marverReq ecc (leAt c 168 8) 2048
      match e.2 with
      | .error _ => bad e.1
      | .ok el => e.1.setMstream i { e.1.mstream i with calib := c, elev := el }
    else r.1.setMstream i { r.1.mstream i with calib := c }

/-! ## Frame boundaries (R263, R272, R282, R284) -/

/-- The RAW packets and the images held for the period that begins. -/
def flushEarly (f : Nat) (s : State) (i : Nat) : State :=
  let m := s.mstream i
  let s1 := s.setMstream i { m with early := m.early.filter (fun e => decide (e.1 ≠ f)), held := m.held.filter (fun y => decide (y.frame ≠ f)) }
  let s2 := (m.early.filter (fun e => decide (e.1 = f))).foldl (fun s e => rawWrite s i f e.2.1 e.2.2.1 e.2.2.2) s1
  (m.held.filter (fun y => decide (y.frame = f))).foldl (keepImage i) s2

/-- Periods kept: as many as a slot ring holds slots. -/
def keepPeriods : Nat := 16

/-- What Marver does at the boundary b that begins frame f: the period before it has its reference time, a pending mode takes effect, calibration
blocks are read, and the servos are tested. -/
def marverBoundary (s : State) (f b : Nat) (ecc : MemEcc) : State :=
  let ended := s.marver.periods.map (fun p => if p.ref.isNone then { p with ref := some b } else p)
  let s0 := { s with marver := { s.marver with periods := ended } }
  let oldMode := s0.regFld Reg.marverFusstat 0 2
  let mode := s0.marver.modePend.getD oldMode
  let s1 := (({ s0 with marver := { s0.marver with modePend := none } }).setRegFld Reg.marverFusstat 0 2 mode).setRegBit Reg.marverFusstat 2 false
  let s2 := if oldMode = 1 ∧ mode ≠ 1 then dropMain s1 else s1
  let p : MPeriod := ⟨f, b, none, mode, false, [], 0, 0, [], none, false, [], false, [], [], none, false, [], decide (oldMode ≠ 1)⟩
  let ps := s2.marver.periods ++ [p]
  let s3 := { s2 with marver := { s2.marver with periods := ps.drop (ps.length - keepPeriods) } }
  let s4 := ((List.range 64).filter (fun i => decide (streamKind s i ≠ 0))).foldl (readCalib ecc) s3
  let s5 := (List.range 64).foldl (fun s i => if servoSt s i = 0 then s else servoBoundary s i) s4
  (List.range 64).foldl (flushEarly f) s5

/-! ## The close of a period (R263, R278, R306) -/

/-- The freshness test of a stream at a close (R306). -/
def freshTest (f ref : Nat) (s : State) (i : Nat) : State :=
  let fr := s.regFld (Reg.marverHcfg i) 0 32
  let off := Reg.marverHstat i
  if !streamOn s i ∨ fr = 0 then s
  else
    let old := match (s.mstream i).newest with
      | some v => decide (v + fr < ref)
      | none => true
    if old = s.regBit off 0 then s
    else if old then syncHealth (((s.setRegBit off 0 true).bumpSat off 16 16).logMarver 0x0702 i f) i
    else syncHealth (s.setRegBit off 0 false) i

/-- A mask of the streams whose HSTAT has a bit set. -/
def healthMask (s : State) (b : Nat) : Nat :=
  (List.range 64).foldl (fun m i => if s.regBit (Reg.marverHstat i) b then m + 2 ^ i else m) 0

/-- The slots of a period at its close: a RAW slot is complete; a POINTS slot is opened for the aligned set. -/
def closeSlots (f ref : Nat) (s : State) (i : Nat) : State :=
  match periodSlot s i f with
  | none => s
  | some x =>
    if streamPayload s i = 2 then
      let y := { x with tval := ref, done := true }
      writeHeader (putSlot s i y) i y
    else if streamPayload s i = 1 then openSlot s i x.index
    else s

/-- A period closes and its projection starts. -/
def closePeriod (s : State) (f ref : Nat) : State :=
  let s1 := (List.range 64).foldl (freshTest f ref) s
  let s2 := mapPeriod s1 f (fun p => { p with closed := true, poses := s1.marver.poses, healthy := healthMask s1 2, suspect := healthMask s1 1 })
  let s3 := (List.range 64).foldl (closeSlots f ref) s2
  ({ s3 with marver := { s3.marver with projecting := some f, plPeriods := s3.marver.plPeriods + 1 } }).setRegBit Reg.marverProjstat 32 true

/-! ## Projection: one point (R270-R277) -/

/-- The point record of R271. -/
def pointRecord (a : APoint) : List Byte :=
  leBytes 4 a.x ++ leBytes 4 a.y ++ leBytes 4 a.z ++ leBytes 4 a.vr ++ leBytes 2 a.inten ++ leBytes 1 a.stream ++ leBytes 1 a.flags
    ++ leBytes 4 (wrapInt a.dt 32) ++ leBytes 8 0

/-- The vehicle-frame point before compensation: E × p + e. -/
def vehiclePoint (c : List Byte) (p : MPoint) : V3 := ((calE c).mul ⟨p.x, p.y, p.z⟩).add (calOrigin c)

/-- A grid cell's contents (R277). -/
structure GridCell where
  nlid : Nat
  nrad : Nat
  flags : Nat
  zmin : Int
  zmax : Int
  imax : Nat
  rmax : Nat
  vrsum : Nat
  deriving DecidableEq, Repr

/-- An FP32 value times 256, RNE, in signed 16 bits. -/
def z16 (z : Nat) : Int := max (-32768) (min 32767 (rneInt z 8))

/-- A point added to a cell. -/
def GridCell.add (g : Option GridCell) (radar : Bool) (a : APoint) : GridCell :=
  let z := z16 a.z
  let c := g.getD ⟨0, 0, 0, z, z, 0, 0, 0⟩
  { nlid := if radar then c.nlid else min 0xFFFF (c.nlid + 1)
    nrad := if radar then min 0xFF (c.nrad + 1) else c.nrad
    flags := c.flags ||| (a.flags % 4)
    zmin := min c.zmin z
    zmax := max c.zmax z
    imax := if radar then c.imax else max c.imax a.inten
    rmax := if radar then max c.rmax a.inten else c.rmax
    vrsum := (c.vrsum + wrapInt (rneInt a.vr 8) 32) % 2 ^ 32 }

/-- The 16 bytes of a cell. -/
def GridCell.bytes (c : GridCell) : List Byte :=
  leBytes 2 c.nlid ++ leBytes 1 c.nrad ++ leBytes 1 c.flags ++ leBytes 2 (wrapInt c.zmin 16) ++ leBytes 2 (wrapInt c.zmax 16)
    ++ leBytes 2 c.imax ++ leBytes 2 c.rmax ++ leBytes 4 c.vrsum

/-- NX and NY. -/
def gridSize (s : State) : Nat × Nat := (s.regFld Reg.marverGridcfg 1 10 + 1, s.regFld Reg.marverGridcfg 11 10 + 1)

/-- The cell a planar position maps to, if it lies in the grid. -/
def gridCellOf (s : State) (x y : Nat) : Option Nat :=
  let org := s.reg Reg.marverGridorg
  let inv := s.regFld Reg.marverGridscl 0 32
  match floorF (fMul (fSub x (fld org 0 32)) inv), floorF (fMul (fSub y (fld org 32 32)) inv) with
  | some i, some j =>
    let n := gridSize s
    if 0 ≤ i ∧ i < (n.1 : Int) ∧ 0 ≤ j ∧ j < (n.2 : Int) then some (j.toNat * n.1 + i.toNat) else none
  | _, _ => none

/-- The cell of a point that the grid takes (R277). -/
def gridTakes (s : State) (a : APoint) : Option Nat :=
  let z := s.reg Reg.marverGridz
  if fLe (fld z 0 32) a.z && fLt a.z (fld z 32 32) then gridCellOf s a.x a.y else none

/-- What a projection has computed so far: the machine, the aligned points, the cells, and how many points may still be worked on. -/
structure Proj where
  s : State
  aligned : List APoint
  cells : List (Nat × Option GridCell)
  left : Nat
  deriving DecidableEq, Repr

/-- POSESTAT bits: STALE and NOPOSE. -/
def notePose (s : State) (stale missing : Bool) : State :=
  let s1 := if stale then s.setRegBit Reg.marverPosestat 4 true else s
  if missing then s1.setRegBit Reg.marverPosestat 5 true else s1

/-- The point-to-pixel record of a landing (R276). DESIGN CHOICE: DEPTH is rounded RNE. -/
def p2pRecord (uv : Nat × Nat) (z : Nat) (a : APoint) : List Byte :=
  leBytes 2 uv.1 ++ leBytes 2 uv.2 ++ leBytes 2 (max 0 (min 0xFFFF (rneInt z 6))).toNat ++ leBytes 2 a.inten ++ leBytes 4 a.index
    ++ leBytes 1 a.stream ++ leBytes 1 a.flags ++ leBytes 2 0

/-- The latest complete image of a camera stream with its validity in a period. -/
def targetImage (s : State) (c f : Nat) : Option MSlot := ((s.mstream c).images.filter (fun x => decide (x.frame = f))).getLast?

/-- A flag set on a complete image; its header is written again when it changes. -/
def flagImage (s : State) (c : Nat) (x : MSlot) (b : Nat) : State :=
  if bitsOf x.flags b 1 = 1 then s
  else
    let m := s.mstream c
    let y := x.flag b
    writeHeader (s.setMstream c { m with images := m.images.map (fun z => if z.index = x.index then y else z) }) c y

/-- The projection of one point into one camera (R273-R276). -/
def projectPoint (per : MPeriod) (at' : PoseAt) (pv : V3) (a : APoint) (s : State) (c : Nat) : State :=
  match targetImage s c per.frame with
  | none => s
  | some x =>
    let cal := (s.mstream c).calib
    if !candidate cal pv then s
    else
      let s1 := s.bump Reg.marverProjcnt 1
      match poseAt per.poses (poseMaxAge s) x.tval with
      | none => (notePose s1 false true).bump Reg.marverProjdrop 1
      | some q =>
        let s2 := if q.stale then flagImage (notePose s1 true false) c x 3 else s1
        let pc := (calE cal).tr.mul ((egoMove at' q pv).sub (calOrigin cal))
        match landing cal pc with
        | none => s2
        | some uv => match targetImage s2 c per.frame with
          | none => s2
          | some y =>
            let o := (64 + y.bytes + 4095) / 4096 * 4096 + 16 * y.p2p
            if slotSize s2 c < o + 16 then flagImage s2 c y 7
            else
              let m := s2.mstream c
              marverWrite (s2.setMstream c { m with images := m.images.map (fun z => if z.index = y.index then { z with p2p := z.p2p + 1 } else z) })
                (ringSlotAddr s2 c y.index + o) (p2pRecord uv pc.z { a with flags := if q.stale then a.flags ||| 2 else a.flags })

/-- The camera streams a POINTS stream projects into (R261, R273), enabled or not. -/
def projTargets (s : State) (i : Nat) : List Nat :=
  (List.range 16).filter (fun c => s.regBit (Reg.marverScfg i) (27 + c) && decide (streamKind s c ≠ 0) && decide (streamPayload s c = 0)
    && !unsynced s i && !unsynced s c)

/-- An aligned point goes to its slot, to the target images and to the grid inputs (R271, R274, R277). -/
def placePoint (per : MPeriod) (i : Nat) (pa : PoseAt) (pv : V3) (a : APoint) (hf : Nat) (sl : MSlot) (x : Proj) : Proj :=
  let s2 := putSlot (marverWrite x.s (ringSlotAddr x.s i sl.index + 64 + sl.bytes) (pointRecord a)) i
    { sl with bytes := sl.bytes + 32, count := sl.count + 1, flags := sl.flags ||| hf }
  let s3 := if per.mode = 1 then (projTargets s2 i).foldl (projectPoint per pa pv a) s2 else s2
  if x.s.regBit Reg.marverGridcfg 0 && x.s.regBit (Reg.marverScfg i) 26 then
    match gridTakes s3 a with
    | some c => ⟨s3, x.aligned ++ [a], sins x.cells c (some (GridCell.add (sget none x.cells c) (isRadar x.s i) a)), x.left⟩
    | none => ⟨s3.bump Reg.marverProjdrop 1, x.aligned ++ [a], x.cells, x.left⟩
  else ⟨s3, x.aligned ++ [a], x.cells, x.left⟩

/-- A point with its poses at its own time and at the reference time (R267, R270): dropped where its slot is full. -/
def alignPoint (per : MPeriod) (ref i : Nat) (x : Proj) (p : MPoint) (pa pr : PoseAt) : Proj :=
  let stale := pa.stale || pr.stale
  let sl := slotFor x.s i per.frame p.tp
  if slotSize x.s i < 64 + sl.bytes + 32 then
    { x with s := dropItems (putSlot x.s i { sl.flag 2 with dropped := sl.dropped + 1 }) i 1 }
  else
    let pv := vehiclePoint (x.s.mstream i).calib p
    let out := egoMove pa pr pv
    let fl := p.flags ||| (if stale then 2 else 0)
    let hf := fl % 2 + (if bitsOf fl 1 1 = 1 then 8 else 0) + (if bitsOf fl 2 1 = 1 then 16 else 0)
    placePoint per i pa pv ⟨i, out.x, out.y, out.z, p.vr, p.inten, fl, (p.tp : Int) - (ref : Int), sl.count⟩ hf sl x

/-- One point of a period: compensated, recorded, projected and mapped (R270-R277). A point with no usable pose is dropped (R267). -/
def projPoint (per : MPeriod) (ref i : Nat) (x : Proj) (p : MPoint) : Proj :=
  if x.left = 0 then { x with s := x.s.bump Reg.marverProjdrop 1 }
  else
    match poseAt per.poses (poseMaxAge x.s) p.tp, poseAt per.poses (poseMaxAge x.s) ref with
    | some pa, some pr => alignPoint per ref i { x with s := notePose x.s (pa.stale || pr.stale) false, left := x.left - 1 } p pa pr
    | _, _ => { x with s := (notePose x.s false true).bump Reg.marverProjdrop 1, left := x.left - 1 }

/-- The points of one stream, and the header of its slot; flag [7] marks a projection cut short. -/
def projStream (per : MPeriod) (ref : Nat) (x : Proj) (i : Nat) : Proj :=
  if streamPayload x.s i ≠ 1 then x
  else
    let pts := sget [] (x.s.mstream i).points per.frame
    let y := pts.foldl (projPoint per ref i) x
    let m := y.s.mstream i
    let s1 := y.s.setMstream i { m with points := sput [] m.points per.frame [] }
    match periodSlot s1 i per.frame with
    | none => { y with s := s1 }
    | some sl =>
      let cut := decide (x.left < pts.length)
      let sl1 := { (if cut then sl.flag 7 else sl) with tval := ref, done := true }
      { y with s := writeHeader (putSlot s1 i sl1) i sl1 }

/-- The grid input buffer of a period (R277). -/
def gridInAddr (s : State) (f : Nat) : Nat :=
  let n := gridSize s
  (s.regFld Reg.marverGridbase 12 36 * 4096 + f % 2 * (n.1 * n.2 * 16)) % 2 ^ 48

/-- NOIMG: a wanted camera has no image of the period (R273). -/
def noteNoImage (s : State) (f : Nat) : State :=
  let want := (List.range 64).any (fun i => decide (streamKind s i ≠ 0) && decide (streamPayload s i = 1) &&
    (projTargets s i).any (fun c => (targetImage s c f).isNone))
  if want then s.setRegBit Reg.marverProjstat 34 true else s

/-- The flags of a projection cut short: the target images of its period (R278). -/
def flagImages (s : State) (f : Nat) : State :=
  (List.range 16).foldl (fun s c => match targetImage s c f with
    | some x => flagImage s c x 7
    | none => s) s

/-- The grid inputs of a projection written to their buffer (R277). -/
def writeCells (f : Nat) (cells : List (Nat × Option GridCell)) (s : State) : State :=
  cells.foldl (fun s c => match c.2 with
    | some g => marverWrite s (gridInAddr s f + 16 * c.1) g.bytes
    | none => s) s

/-- A projection cut short is reported (R278). -/
def cutShort (s : State) (per : MPeriod) : State :=
  let s1 := (s.setRegBit Reg.marverProjstat 33 true).logMarver 0x070E 0xFF per.frame
  if per.mode = 1 then flagImages s1 per.frame else s1

/-- The points of every stream of a period, in stream order, over cleared grid inputs (R277, R278). -/
def projectAll (s : State) (per : MPeriod) (ref n : Nat) : Proj :=
  let s0 := if per.mode = 1 then noteNoImage s per.frame else s
  let g := gridSize s0
  let s1 := if s0.regBit Reg.marverGridcfg 0 then
      marverWrite s0 (gridInAddr s0 per.frame) (List.replicate (g.1 * g.2 * 16) 0#8) else s0
  (List.range 64).foldl (projStream per ref) ⟨s1, [], [], n⟩

/-- A projection ends: PROJSTAT, and the period with its aligned points and grid inputs (R278). -/
def projectionOver (s : State) (per : MPeriod) (x : Proj) (cut : Bool) : State :=
  let s1 := (s.setRegBit Reg.marverProjstat 32 false).setRegFld Reg.marverProjstat 0 32 per.frame
  let cells := x.cells.filterMap (fun c => c.2.map (fun g => (c.1, g.bytes)))
  syncPoses (mapPeriod { s1 with marver := { s1.marver with projecting := none } } per.frame
    (fun p => { p with aligned := x.aligned, projected := some s1.now, incomplete := cut, cells := cells }))

/-- The projection of a period, of which at most `n` points are worked on, in stream order (R278). -/
def project (s : State) (per : MPeriod) (ref n : Nat) : State :=
  let total := (List.range 64).foldl (fun k i => k + (sget [] (s.mstream i).points per.frame).length) 0
  let x := projectAll s per ref n
  let cut := decide (n < total)
  let s1 := if x.s.regBit Reg.marverGridcfg 0 then writeCells per.frame x.cells x.s else x.s
  projectionOver (if cut then cutShort s1 per else s1) per x cut

end Sys2Proof.Machine
end

