-- ==== Sys2Proof/Machine/MarverFilter.lean ====
section
/-! DEFINITION. The tracker's arithmetic (R294-R300): clusters, frame conversions, prediction, update and gate, on exact integers with the widths
of R296. -/

namespace Sys2Proof.Machine

/-! ## Sorting -/

/-- An element put in its place in a sorted list. -/
def insertBy {α : Type} (lt : α → α → Bool) (x : α) : List α → List α
  | [] => [x]
  | y :: l => if lt x y then x :: y :: l else y :: insertBy lt x l

/-- A list in ascending order; equal elements keep theirs. -/
def sortBy {α : Type} (lt : α → α → Bool) : List α → List α
  | [] => []
  | x :: l => insertBy lt x (sortBy lt l)

/-! ## Registers latched by a run (R318) -/

/-- The registers a run latches: MARVER_TRKCFG to MARVER_INITn but for MARVER_DLINE, and the per-stream health registers. -/
def latchCfg (s : State) : List (Nat × Word) :=
  s.regs.filter (fun p => (decide (0x300050 ≤ p.1) && decide (p.1 < 0x3000D8) && decide (p.1 ≠ Reg.marverDline)) ||
    (decide (0x330000 ≤ p.1) && decide (p.1 < 0x330800)))

/-- A latched register. -/
def TrackRun.reg (r : TrackRun) (off : Nat) : Word := sget (regReset off) r.cfg off
/-- A field of a latched register. -/
def TrackRun.fld (r : TrackRun) (off lo n : Nat) : Nat := Machine.fld (r.reg off) lo n
/-- A stream was HEALTHY at the run's start (R305, R318). -/
def TrackRun.healthy (r : TrackRun) (i : Nat) : Bool := bitAt (r.reg (Reg.marverHstat i)) 2
/-- FBSLOTS. -/
def TrackRun.fbslots (r : TrackRun) : Nat := min 512 (r.fld Reg.marverTrkcfg 20 10)

/-! ## Widths (R296) -/

/-- A value held to a signed width, and whether it had to be. -/
def satInt (w : Nat) (v : Int) : Int × Bool :=
  let hi : Int := (2 ^ (w - 1) : Nat) - 1
  let lo : Int := -((2 ^ (w - 1) : Nat) : Int)
  if v < lo then (lo, true) else if hi < v then (hi, true) else (v, false)

/-- The width of state element i. -/
def xsWidth (i : Nat) : Nat := if i < 3 then 64 else 32

/-- Element i of a state vector. -/
def Track.x (t : Track) (i : Nat) : Int := t.xs.getD i 0
/-- Element (i, l) of the covariance. -/
def Track.pp (t : Track) (i l : Nat) : Int := t.p.getD (8 * i + l) 0

/-- A track with a new state vector and covariance, given by its upper triangle, each held to its width. -/
def Track.put (t : Track) (x : Nat → Int) (p : Nat → Nat → Int) : Track :=
  let xs := (List.range 8).map (fun i => satInt (xsWidth i) (x i))
  let ps := (List.range 64).map (fun k => satInt 64 (p (min (k / 8) (k % 8)) (max (k / 8) (k % 8))))
  { t with xs := xs.map (·.1), p := ps.map (·.1), sat := t.sat || xs.any (·.2) || ps.any (·.2) }

/-! ## Prediction (R298) -/

/-- F times a column vector, F being the transition matrix with 2^-45 units; each sum rounded once. -/
def fRow (tau : Int) (i : Nat) (v : Nat → Int) : Int :=
  let a : Int := v i * 2 ^ 45
  let b : Int := if i < 3 then v (i + 3) * (tau * 2 ^ 21) else 0
  let c : Int := if i < 2 then v (i + 6) * (tau * tau) else 0
  let d : Int := if i = 3 ∨ i = 4 then v (i + 3) * (tau * 2 ^ 25) else 0
  rsInt (a + b + c + d) 45

/-- A track predicted to a time. -/
def predict (qd : Nat → Int) (tr : Nat) (t : Track) : Track :=
  let tau := rdivInt (((tr : Int) - (t.tt : Int)) * 2 ^ 20) 1000000000
  let fp (i l : Nat) : Int := fRow tau i (fun j => t.pp j l)
  let fpt (i l : Nat) : Int := fRow tau l (fun j => fp i j)
  let q (i l : Nat) : Int := if i = l then max 0 (fpt i i + rsInt (qd i * tau) 20) else fpt i l
  { t.put (fun i => fRow tau i t.x) q with tt := tr }

/-! ## Measurements (R291-R295) -/

/-- A measurement in the odometry frame: its group, number in it, source (a stream, 64 detections, 65 clusters), stream mask, position, the
variance of x and y, VARZ, velocity with VARV, validity time, whether it may be applied, and a detection's attributes. -/
structure Meas where
  group : Nat
  index : Nat
  source : Nat
  mask : Nat
  x : Int
  y : Int
  z : Int
  r : Int
  rz : Option Int
  vel : Option (Int × Int × Int)
  time : Nat
  usable : Bool
  det : List Nat
  deriving DecidableEq, Repr

/-- A variance in m^2 as an integer of units 2^-24, at least 1. -/
def varP (v : Nat) : Int := max 1 (rneInt v 24)
/-- A variance in (m/s)^2 as an integer of units 2^-32, at least 1. -/
def varV (v : Nat) : Int := max 1 (rneInt v 32)
/-- A variance given in a register in units of 2^-8 m^2. -/
def varReg (v : Nat) : Int := max 1 ((v : Int) * 2 ^ 16)

/-- A vehicle-frame position in the odometry frame (R295). -/
def toOdo (q : PoseAt) (p : V3) : Int × Int × Int :=
  let o := q.q.matrix.mul p
  (rsInt q.px 8 + rneInt o.x 12, rsInt q.py 8 + rneInt o.y 12, rsInt q.pz 8 + rneInt o.z 12)

/-- An odometry position in the vehicle frame (R295). -/
def toVehicle (q : PoseAt) (x y z : Int) : V3 :=
  q.q.conj.matrix.mul ⟨fpInt (x * 256 - q.px) (-20), fpInt (y * 256 - q.py) (-20), fpInt (z * 256 - q.pz) (-20)⟩

/-- A velocity of a track in vehicle axes. -/
def velVehicle (q : PoseAt) (vx vy vz : Int) : V3 := q.q.conj.matrix.mul ⟨fpInt vx (-16), fpInt vy (-16), fpInt vz (-16)⟩

/-- A detection record (R292); none where it is skipped. -/
def detMeas (q : PoseAt) (ref j : Nat) (d : List Byte) : Option Meas :=
  let f (o : Nat) : Nat := leAt d o 4
  let finite (c : Nat) : Bool := match f32 c with
    | .fin _ _ _ => true
    | _ => false
  let nan (c : Nat) : Bool := (f32 c).isNaN
  if !finite (f 0) || !finite (f 4) || !finite (f 20) || fLe (f 20) f0 then none
  else
    let zok := !nan (f 24)
    let o := toOdo q ⟨f 0, f 4, if zok then f 8 else f0⟩
    let vel : Option (Int × Int × Int) :=
      if nan (f 12) || nan (f 16) then none
      else
        let v := q.q.matrix.mul ⟨f 12, f 16, f0⟩
        some (rneInt v.x 16, rneInt v.y 16, varV (f 28))
    some ⟨0, j, 64, 0, o.1, o.2.1, o.2.2, varP (f 20), if zok then some (varP (f 24)) else none, vel, ref, true,
      [f 32, f 36, f 40, f 44, leAt d 48 1, leAt d 49 1]⟩

/-! ## Lidar clusters (R294) -/

/-- An occupied cell: its number, points, the streams that contributed, and the least DT. -/
structure OccCell where
  cell : Nat
  n : Nat
  mask : Nat
  dt : Int
  deriving DecidableEq, Repr

/-- A point counted in the occupancy map. -/
def occAdd (m : List (Nat × Option OccCell)) (c : Nat) (a : APoint) : List (Nat × Option OccCell) :=
  let o := (sget none m c).getD ⟨c, 0, 0, a.dt⟩
  sins m c (some { o with n := o.n + 1, mask := o.mask ||| 2 ^ a.stream, dt := min o.dt a.dt })

/-- The occupied cells, in ascending order. -/
def occupied (s : State) (r : TrackRun) (per : MPeriod) : List OccCell :=
  let zg := fpInt (signedOf (r.fld Reg.marverClcfg 8 16) 16) (-8)
  let m := per.aligned.foldl (fun m a =>
    if !isRadar s a.stream && r.healthy a.stream && a.flags % 2 = 0 && fLe zg a.z then
      match gridCellOf s a.x a.y with
      | some c => occAdd m c a
      | none => m
    else m) []
  (m.filterMap (·.2)).filter (fun o => decide (r.fld Reg.marverClcfg 0 8 ≤ o.n))

/-- Whether two cells share an edge or a corner. -/
def adjacent (nx a b : Nat) : Bool :=
  decide (((a % nx : Nat) : Int) - ((b % nx : Nat) : Int) ≤ 1) && decide (((b % nx : Nat) : Int) - ((a % nx : Nat) : Int) ≤ 1)
    && decide (a / nx ≤ b / nx + 1) && decide (b / nx ≤ a / nx + 1)

/-- The cells connected to those on hand, and the rest. -/
def growCluster (nx : Nat) : Nat → List OccCell → List OccCell → List OccCell × List OccCell
  | 0, todo, rest => (todo, rest)
  | _ + 1, [], rest => ([], rest)
  | n + 1, c :: todo, rest =>
    let x := growCluster nx n (todo ++ rest.filter (fun o => adjacent nx c.cell o.cell)) (rest.filter (fun o => !adjacent nx c.cell o.cell))
    (c :: x.1, x.2)

/-- The clusters, in ascending order of their lowest cell. -/
def clustersOf (nx : Nat) : Nat → List OccCell → List (List OccCell)
  | 0, _ => []
  | _, [] => []
  | n + 1, c :: rest =>
    let x := growCluster nx (rest.length + 1) [c] rest
    x.1 :: clustersOf nx n x.2

/-- A cluster's planar position in the vehicle frame. -/
def clusterXY (s : State) (nx : Nat) (cl : List OccCell) : Nat × Nat :=
  let sum (g : OccCell → Nat) : Nat := cl.foldl (fun k o => k + g o) 0
  let n2 := fpInt ((2 * sum (·.n) : Nat) : Int) 0
  let si := fpInt ((sum (fun o => o.n * (2 * (o.cell % nx) + 1)) : Nat) : Int) 0
  let sj := fpInt ((sum (fun o => o.n * (2 * (o.cell / nx) + 1)) : Nat) : Int) 0
  let cs := fDiv f1 (s.regFld Reg.marverGridscl 0 32)
  (fFma (fDiv si n2) cs (s.regFld Reg.marverGridorg 0 32), fFma (fDiv sj n2) cs (s.regFld Reg.marverGridorg 32 32))

/-- The measurement of a cluster. -/
def clusterMeas (s : State) (r : TrackRun) (q : PoseAt) (ref nx j : Nat) (cl : List OccCell) : Meas :=
  let xy := clusterXY s nx cl
  let o := toOdo q ⟨xy.1, xy.2, f0⟩
  let dt := cl.foldl (fun d c => min d c.dt) ((cl.head?.map (·.dt)).getD 0)
  ⟨1, j, 65, cl.foldl (fun m c => m ||| c.mask) 0, o.1, o.2.1, o.2.2, varReg (r.fld Reg.marverClcfg 32 24), none, none,
    wrapInt ((ref : Int) + dt) 64, true, []⟩

/-- The clusters of a period: at most 4,096, and how many more there are. The map exists only while the grid is enabled. -/
def clusterGroup (s : State) (r : TrackRun) (per : MPeriod) (q : PoseAt) (ref : Nat) : List Meas × Nat :=
  if !s.regBit Reg.marverGridcfg 0 then ([], 0)
  else
    let nx := (gridSize s).1
    let occ := occupied s r per
    let cls := clustersOf nx occ.length occ
    (((cls.take 4096).zipIdx).map (fun p => clusterMeas s r q ref nx p.2 p.1), cls.length - 4096)

/-! ## Radar returns (R291, R293) -/

/-- The enabled radar streams, in ascending order. -/
def radarStreams (s : State) : List Nat :=
  (List.range 64).filter (fun i => streamOn s i && decide (streamPayload s i = 1) && isRadar s i)

/-- The returns of the enabled radar streams, at most 16,384, and how many more there are. Those of a stream that is not HEALTHY are assigned and counted for
plausibility only (R291, R307). -/
def radarGroups (s : State) (r : TrackRun) (per : MPeriod) (q : PoseAt) (ref : Nat) : List Meas × Nat :=
  let one (p : Nat × Nat) : List Meas :=
    let i := p.1
    let healthy := r.healthy i
    (((per.aligned.filter (fun a => decide (a.stream = i))).zipIdx).map (fun x =>
      let o := toOdo q ⟨x.1.x, x.1.y, x.1.z⟩
      ⟨2 + p.2, x.2, i, 2 ^ i, o.1, o.2.1, o.2.2, varReg (r.fld (Reg.marverHcfg i) 32 24), none, none,
        wrapInt ((ref : Int) + x.1.dt) 64, healthy, []⟩))
  let all := ((radarStreams s).zipIdx).flatMap one
  (all.take 16384, all.length - 16384)

/-! ## The update (R299) and the gate (R300) -/

/-- One scalar step on element i. -/
def scalarStep (t : Track) (i : Nat) (zm r : Int) : Track :=
  let y := zm - t.x i
  let sv := t.pp i i + r
  let k (j : Nat) : Int := rdivInt (t.pp j i * 2 ^ 32) sv
  let np (j l : Nat) : Int := t.pp j l - rsInt (k j * t.pp i l) 32
  t.put (fun j => t.x j + rsInt (k j * y) 32) (fun j l => if j = l then max 0 (np j j) else np j l)

/-- A measurement applied to a track: x, y, z, vx, vy, each where it is supplied. -/
def applyMeas (t : Track) (m : Meas) : Track :=
  let t1 := scalarStep (scalarStep t 0 m.x m.r) 1 m.y m.r
  let t2 := match m.rz with
    | some rz => scalarStep t1 2 m.z rz
    | none => t1
  match m.vel with
  | some (vx, vy, rv) => scalarStep (scalarStep t2 3 vx rv) 4 vy rv
  | none => t2

/-- The cost of a measurement for a predicted track, where it gates. -/
def gateCost (gate : Nat) (t : Track) (m : Meas) : Option Int :=
  let dx := m.x - t.x 0
  let dy := m.y - t.x 1
  let sxx := t.pp 0 0 + m.r
  let syy := t.pp 1 1 + m.r
  let sxy := t.pp 0 1
  let det := sxx * syy - sxy * sxy
  let num := syy * dx * dx - 2 * sxy * dx * dy + sxx * dy * dy
  if 0 < det ∧ num * 256 ≤ (gate : Int) * det then some (rdivInt (num * 2 ^ 16) det) else none

/-- R308: two measurements of one track contradict each other. -/
def contradict (cgate : Nat) (a b : Meas) : Bool :=
  decide ((cgate : Int) * (a.r + b.r) < ((a.x - b.x) * (a.x - b.x) + (a.y - b.y) * (a.y - b.y)) * 256)

/-! ## Assignment (R301) -/

/-- A gated pair. -/
structure Pair where
  cost : Int
  slot : Nat
  meas : Nat
  deriving DecidableEq, Repr

/-- The order of pairs: cost, slot, measurement. -/
def Pair.before (a b : Pair) : Bool :=
  decide (a.cost < b.cost) || (decide (a.cost = b.cost) && (decide (a.slot < b.slot) || (decide (a.slot = b.slot) && decide (a.meas < b.meas))))

/-- Pairs taken in order while neither member is taken. -/
def takePairs : List Pair → List Nat → List Nat → List Pair
  | [], _, _ => []
  | p :: l, ts, ms => if ts.contains p.slot || ms.contains p.meas then takePairs l ts ms else p :: takePairs l (p.slot :: ts) (p.meas :: ms)

/-- The pairs of one group. -/
def assignGroup (gate : Nat) (ts : List Track) (ms : List Meas) : List Pair :=
  let pairs := ms.flatMap (fun m =>
    (sortBy Pair.before (ts.filterMap (fun t => (gateCost gate t m).map (fun c => (⟨c, t.slot, m.index⟩ : Pair))))).take 8)
  takePairs (sortBy Pair.before pairs) [] []

end Sys2Proof.Machine
end

