-- ==== Sys2Proof/Machine/MarverGrid.lean ====
section
/-! DEFINITION. The common grid (R286-R290): the derived features, track priors, the scatter list, and a grid's completion. -/

namespace Sys2Proof.Machine

/-- A number as BF16, RNE with SAT = 1. -/
def bf16 (x : Num) : Nat := (convertNum 0x9 0 true x).1

/-- max(g, v) of two BF16 values: +0 above -0, canonical NaN from a NaN (R288). -/
def maxBf16 (a b : Nat) : Nat :=
  let x := decodeNum 0x9 a
  let y := decodeNum 0x9 b
  if x.isNaN || y.isNaN then 0x7FC0
  else if ltNum x y then b else if ltNum y x then a else if a = 0x8000 then b else a

/-- Minus infinity in BF16, where every learned feature starts. -/
def bf16NegInf : Nat := 0xFF80


/-- The priors of a period (R287): cell and planar speed of each CONFIRMED main track of the main run of the period before. -/
def trackPriors (s : State) (per : MPeriod) : List (Nat × Nat) :=
  if per.mode ≠ 1 ∨ s.marver.lastMain ≠ some ((per.frame + 2 ^ 32 - 1) % 2 ^ 32) then []
  else match poseAt per.poses (poseMaxAge s) per.refTime with
    | none => []
    | some q =>
      let fb := s.regFld Reg.marverTrkcfg 20 10
      let qd (i : Nat) : Int := ((s.reg (Reg.marverQd i)).toNat : Int)
      (s.marver.tracks.filter (fun t => !fbTrack t fb && decide (t.st = .confirmed))).filterMap (fun t =>
        let u := predict qd per.refTime t
        let v := toVehicle q (u.x 0) (u.x 1) (u.x 2)
        let w := velVehicle q (u.x 3) (u.x 4) (u.x 5)
        (gridCellOf s v.x v.y).map (fun c => (c, fSqrt (fFma w.y w.y (fMul w.x w.x)))))

/-- The 64 features of a cell from its grid input, its learned features and its priors (R287, R288). -/
def cellFeatures (input : List Byte) (learned : Nat → Nat) (speeds : List Nat) : List Nat :=
  let i (o n : Nat) : Num := numOfInt (leAt input o n : Nat)
  let z (o : Nat) : Nat := if leAt input 0 2 = 0 then 0 else
    let v := signedOf (leAt input o 2) 16
    bf16 (.fin (decide (v < 0)) v.natAbs (-8))
  let nrad := leAt input 2 1
  let vr := if nrad = 0 then 0 else
    bf16 (f32 (fDiv (fMul (fpInt (signedOf (leAt input 12 4) 32) 0) (fpInt 1 (-8))) (fpInt (nrad : Nat) 0)))
  let speed := match speeds with
    | [] => 0
    | v :: l => bf16 (f32 (l.foldl (fun a b => if fLt a b then b else a) v))
  [bf16 (i 0 2), bf16 (i 2 1), z 4, z 6, bf16 (i 8 2), bf16 (i 10 2), vr, if leAt input 3 1 % 2 = 1 then 0x3F80 else 0,
    bf16 (numOfInt (speeds.length : Nat)), speed] ++ List.replicate 6 0 ++
    (List.range 48).map (fun f => let v := learned (16 + f)
      if v = bf16NegInf then 0 else v)

/-- The address of a period's common grid. -/
def commonGridAddr (s : State) (f : Nat) : Nat :=
  let n := gridSize s
  (s.regFld Reg.marverCgbase 12 36 * 4096 + f % 2 * (n.1 * n.2 * 128)) % 2 ^ 48

/-- A grid completes (R290): every cell is written, GRIDSTAT names the frame, and grid-done goes to Bench. -/
def completeGrid (s : State) (per : MPeriod) (noscat : Bool) : State :=
  let n := gridSize s
  let priors := trackPriors s per
  let named : List Nat := per.cells.map (·.1) ++ per.features.map (fun x : Nat × Nat => x.1 / 64) ++ priors.map (·.1)
  let touched : List Nat := sortBy (fun a b => decide (a < b)) named.eraseDups
  let s1 := marverWrite s (commonGridAddr s per.frame) (List.replicate (n.1 * n.2 * 128) 0#8)
  let s2 := touched.foldl (fun s c =>
    let fs := cellFeatures (sget (List.replicate 16 0#8) per.cells c) (fun f => sget bf16NegInf per.features (64 * c + f))
      ((priors.filter (fun p => decide (p.1 = c))).map (·.2))
    marverWrite s (commonGridAddr s per.frame + 128 * c) (fs.flatMap (leBytes 2))) s1
  let s3 := mapPeriod s2 per.frame (fun p => { p with gridDone := true, scatters := [], features := [] })
  let s4 := (s3.setRegFld Reg.marverGridstat 0 32 per.frame).setRegBit Reg.marverGridstat 32 noscat
  marverEvent (if noscat then s4.logMarver 0x0708 0xFF per.frame else s4) 2 per.frame

/-- A scatter entry skipped and counted (R289). -/
def skipScatter (s : State) (f : Nat) : State := logOnce (s.bump Reg.marverScatdrop 1) f 0x070A 0xFF

/-- The values of a well-formed scatter entry taken into the features by maximum (R288). -/
def takeScatter (s : State) (f : Nat) (e : List Byte) : State :=
  let put (m : List (Nat × Nat)) (i : Nat) : List (Nat × Nat) :=
    let k := 64 * leAt e 0 4 + leAt e 4 1 + i
    sput bf16NegInf m k (maxBf16 (sget bf16NegInf m k) (leAt e (8 + 2 * i) 2))
  mapPeriod (s.bump Reg.marverScatcnt 1) f (fun p => { p with features := (List.range (leAt e 5 1)).foldl put p.features })

/-- A scatter entry as it was read: applied, or skipped where it is malformed (R288, R289). -/
def applyScatter (s : State) (f : Nat) (e : List Byte) : State :=
  let n := gridSize s
  let first := leAt e 4 1
  let cnt := leAt e 5 1
  if n.1 * n.2 ≤ leAt e 0 4 ∨ first < 16 ∨ cnt = 0 ∨ 64 < first + cnt ∨ !allZero (sliceBytes e 6 2) ∨ !allZero (sliceBytes e 104 24) then
    skipScatter s f
  else takeScatter s f e

/-- The address of an entry of a scatter list (R288). -/
def scatterAddr (s : State) (f j : Nat) : Nat :=
  (s.regFld Reg.marverScatbase 12 36 * 4096 + (if f % 2 = 1 then 0x8000000 else 0) + 128 * j) % 2 ^ 48

/-- One entry of a scatter list applied, or skipped and counted (R288, R289). -/
def scatterEntry (ecc : MemEcc) (f : Nat) (s : State) (j : Nat) : State :=
  match devRead s marverReq ecc (scatterAddr s f j) 128 with
  | (s1, .error _) => skipScatter s1 f
  | (s1, .ok e) => applyScatter s1 f e

/-- A write of MARVER_SCATGO (R290): accepted for a closed period whose grid is not complete, otherwise LATE_GO. -/
def scatterGo (s : State) (frame nent : Nat) : State :=
  match s.mperiod frame with
  | some p => if p.closed && !p.gridDone && decide (nent ≠ 0) then mapPeriod s frame (fun p => { p with scatters := p.scatters ++ [nent] })
    else s.logMarver 0x0709 0xFF frame
  | none => s.logMarver 0x0709 0xFF frame

/-- SCATGO (R290): only Bench and Gaffer firmware write it. -/
def execScatgo (who : Ident) (frame : BitVec 32) (nent : BitVec 20) (t : Nat) (s : State) : Out :=
  let s := s.at t
  if who.val ≠ 16 then .next s else .next (scatterGo s frame.toNat nent.toNat)

/-- SCATTER_DONE (R288-R290): the oldest accepted scatter of a projected period has been applied, and the grid completes. DEDUCED: another scatter of the
same period that still waits finds the grid complete and has no effect. -/
def execScatterDone (ecc : MemEcc) (t : Nat) (s : State) : Out :=
  let s := s.at t
  match s.marver.periods.find? (fun p => p.projected.isSome && !p.gridDone && !p.scatters.isEmpty) with
  | none => .next s
  | some p =>
    let f := p.frame
    let s1 := (List.range (p.scatters.headD 0)).foldl (scatterEntry ecc f) s
    match s1.mperiod f with
    | some q => .next (completeGrid s1 q false)
    | none => .next s1

/-- SCATTER_DEADLINE (R290): SCATDL after the end of projection the grid completes without an applied scatter. -/
def execScatterDeadline (t : Nat) (s : State) : Out :=
  let s := s.at t
  match s.marver.periods.find? (fun p => !p.gridDone && (match p.projected with
      | some e => decide (e + s.regFld Reg.marverDline 32 32 ≤ s.now)
      | none => false)) with
  | none => .next s
  | some p => .next (completeGrid s p true)

end Sys2Proof.Machine
end

