-- ==== Sys2Proof/Machine/MarverTrack.lean ====
section
/-! DEFINITION. A tracker run (R291, R301-R310, R317): which measurements it takes, what they do to every track, initiation, conflicts, and the life
of a track. Both trackers use it. -/

namespace Sys2Proof.Machine

/-- A run on hand: its latched registers, period, whether it is the main tracker's, the pose at the reference time, and the number of tracks an
overrun lets it update. -/
structure RunIn where
  run : TrackRun
  per : MPeriod
  main : Bool
  pose : Option PoseAt
  upd : Option Nat
  deriving DecidableEq, Repr

/-! ## Measurements of a run (R291, R292) -/

/-- The measurement a detection's bytes give, if they were read; a skipped detection is counted (R291). -/
def takeDet (q : PoseAt) (ref j : Nat) (ms : List Meas) (r : State × Except Poison (List Byte)) : State × List Meas :=
  match (match r.2 with
    | .ok d => detMeas q ref j d
    | .error _ => none) with
  | none => (r.1.bump Reg.marverMeasdrop 1, ms)
  | some m => (r.1, ms ++ [m])

/-- One detection read from memory. -/
def readDet (ecc : MemEcc) (q : PoseAt) (ref f : Nat) (x : State × List Meas) (j : Nat) : State × List Meas :=
  takeDet q ref j x.2 (devRead x.1 marverReq ecc ((x.1.regFld Reg.marverDetbase 12 36 * 4096 + f % 2 * 0x40000 + 64 * j) % 2 ^ 48) 64)

/-- The detections of a period read from memory (R291). -/
def readDets (ecc : MemEcc) (q : PoseAt) (ref f n : Nat) (s : State) : State × List Meas :=
  (List.range n).foldl (readDet ecc q ref f) (s, [])

/-- Measurements beyond a limit counted once for the period, with MEAS_LIMIT where it is of returns (R293, R294). -/
def noteLimit (s : State) (f mark n : Nat) (limit : Bool) : State :=
  match s.mperiod f with
  | none => s
  | some p =>
    if n = 0 ∨ p.logged.contains mark then s
    else
      let s1 := (mapPeriod s f (fun p => { p with logged := p.logged ++ [mark] })).bump Reg.marverMeasdrop n
      if limit then s1.logMarver 0x0712 0xFF f else s1

/-- The measurements of a run, in group order. -/
def measurements (ecc : MemEcc) (x : RunIn) (s : State) : State × List Meas :=
  match x.pose with
  | none => (s, [])
  | some q =>
    let f := x.per.frame
    let ref := x.per.refTime
    let d := if x.main then readDets ecc q ref f (x.run.ndet.getD 0) s else (s, [])
    let c := clusterGroup d.1 x.run x.per q ref
    let g := radarGroups d.1 x.run x.per q ref
    (noteLimit (noteLimit d.1 f 0x20712 c.2 false) f 0x10712 g.2 true, d.2 ++ c.1 ++ g.1)

/-! ## One track (R301, R304, R307-R309) -/

/-- What a run makes of one track: the track, the measurements diverted from it, and for each measurement that counts for plausibility its stream and
whether its cost is out. -/
structure TrackOut where
  track : Track
  diverted : List Meas
  counts : List (Nat × Bool)
  deriving DecidableEq, Repr

/-- The measurements kept in group order, and those a kept one contradicts (R308). -/
def divert (cgate : Nat) (ms : List Meas) : List Meas × List Meas :=
  ms.foldl (fun x m => if x.1.any (fun k => contradict cgate k m) then (x.1, x.2 ++ [m]) else (x.1 ++ [m], x.2)) ([], [])

/-- The streams of a mask. -/
def streamsOf (mask : Nat) : List Nat := (List.range 64).filter (fun i => decide (bitsOf mask i 1 = 1))

/-- The plausibility counts of a track's assigned measurements (R307). -/
def plausCounts (plgate : Nat) (t : Track) (kept : List Meas) (asg : List (Meas × Int)) : List (Nat × Bool) :=
  if t.st ≠ .confirmed then []
  else asg.flatMap (fun a => ((streamsOf a.1.mask).filter (fun i => kept.any (fun k => decide (k.group ≠ a.1.group) && decide (bitsOf k.mask i 1 = 0)))).map
    (fun i => (i, decide ((plgate : Int) * 256 < a.2))))

/-- The consecutive hits without a measurement of each stream (R309); none after a run that is no hit. -/
def withoutOf (before : List (Nat × Nat)) (kept : List Meas) : List (Nat × Nat) :=
  if kept.isEmpty then []
  else ((List.range 64).filter (fun i => kept.all (fun m => decide (bitsOf m.mask i 1 = 0)))).map (fun i => (i, sget 0 before i + 1))

/-- A predicted track after its assigned measurements, in group order. -/
def runTrack (x : RunIn) (t : Track) (asg : List (Meas × Int)) : TrackOut :=
  let d := divert (x.run.fld Reg.marverGates 32 16) ((asg.filter (fun a => a.1.usable)).map (·.1))
  let kept := d.1
  let hit := !kept.isEmpty
  let u := kept.foldl applyMeas t
  let det := match kept.find? (fun m => decide (m.group = 0)) with
    | some m => m.det
    | none => t.det
  let old := (kept.map (·.time)).foldl min ((kept.head?.map (·.time)).getD 0)
  let src := (if kept.any (fun m => decide (m.group = 1)) then 1 else 0) + (if kept.any (fun m => decide (2 ≤ m.group)) then 2 else 0)
  ⟨{ u with hits := (t.hits * 2 + (if hit then 1 else 0)) % 65536, misses := if hit then 0 else t.misses + 1, det := det, isNew := false,
            updated := hit, lastUpd := if hit then x.per.frame else t.lastUpd, oldest := if hit then old else t.oldest,
            sources := if hit then src else t.sources, without := withoutOf t.without kept },
   d.2, plausCounts (x.run.fld Reg.marverGates 16 16) t kept asg⟩

/-- The assigned pairs of every group, as (slot, measurement, cost). -/
def assignAll (gate : Nat) (ts : List Track) (ms : List Meas) : List (Nat × Meas × Int) :=
  ((ms.map (·.group)).eraseDups).flatMap (fun g =>
    let gm := ms.filter (fun m => decide (m.group = g))
    (assignGroup gate ts gm).filterMap (fun p => (gm.find? (fun m => decide (m.index = p.meas))).map (fun m => (p.slot, m, p.cost))))

/-! ## Initiation (R303) -/

/-- The next identity: 0 and the identities of live tracks are skipped. -/
def nextIdent (used : List Nat) : Nat → Nat → Nat
  | 0, n => n
  | f + 1, n =>
    let m := n % 2 ^ 32
    if m = 0 ∨ used.contains m then nextIdent used f (m + 1) else m

/-- A new track made from a measurement. -/
def newTrack (x : RunIn) (slot id : Nat) (m : Meas) (sibling : Bool) : Track :=
  let ini (n : Nat) : Int := ((x.run.reg (Reg.marverInit n)).toNat : Int)
  let v := m.vel.getD (0, 0, ini 0)
  let xs (i : Nat) : Int := match i with
    | 0 => m.x
    | 1 => m.y
    | 2 => m.z
    | 3 => v.1
    | 4 => v.2.1
    | _ => 0
  let dg (i : Nat) : Int := match i with
    | 0 => m.r
    | 1 => m.r
    | 2 => m.rz.getD (ini 2)
    | 3 => v.2.2
    | 4 => v.2.2
    | 5 => ini 0
    | _ => ini 1
  let t0 : Track := ⟨slot, id, .tentative, 1, 0, [], [], x.per.refTime, false, m.det, 0, 0xFF, 0, 0, sibling, true, true, x.per.frame, m.time,
    (if m.group = 1 then 1 else 0) + (if 2 ≤ m.group then 2 else 0), withoutOf [] [m], []⟩
  t0.put xs (fun i l => if i = l then dg i else 0)

/-- The slots of a tracker. -/
def slotsOf (x : RunIn) : List Nat :=
  let fb := x.run.fbslots
  if x.main then List.range (4096 - fb) else (List.range fb).map (· + (4096 - fb))

/-- A run in progress on its tracks: the machine, this tracker's tracks, and the identities the other tracker holds. -/
structure RunWork where
  s : State
  ts : List Track
  others : List Nat
  deriving DecidableEq, Repr

/-- Tracks in ascending slot order. -/
def bySlot (ts : List Track) : List Track := sortBy (fun a b => decide (a.slot < b.slot)) ts

/-- A measurement initiates a track, with the slot of the track it was diverted from; the identity of the new track is answered. -/
def initiate (x : RunIn) (w : RunWork) (m : Meas) (sibling : Bool) : RunWork × Option Nat :=
  match (slotsOf x).find? (fun n => w.ts.all (fun t => decide (t.slot ≠ n))) with
  | none => ({ w with s := logOnce (w.s.bump Reg.marverTrkref 1) x.per.frame 0x0706 0xFF }, none)
  | some n =>
    let used := w.others ++ w.ts.map (·.id)
    let id := nextIdent used (used.length + 2) w.s.marver.nextId
    ({ w with s := { w.s with marver := { w.s.marver with nextId := (id + 1) % 2 ^ 32 } }, ts := bySlot (w.ts ++ [newTrack x n id m sibling]) }, some id)

/-- A track of the run changed. -/
def RunWork.map (w : RunWork) (p : Track → Bool) (g : Track → Track) : RunWork := { w with ts := w.ts.map (fun t => if p t then g t else t) }

/-- A state conflict (R308): counted, logged, and both tracks carry each other's identity. -/
def stateConflict (x : RunIn) (w : RunWork) (slot : Nat) (m : Meas) : RunWork :=
  let parent := ((w.ts.find? (fun t => decide (t.slot = slot))).map (·.id)).getD 0
  let s1 := ((streamsOf m.mask).foldl (fun s i => s.bumpSat (Reg.marverHstat i) 48 16) (w.s.bump Reg.marverCnfstate 1)).logMarver 0x0704
    (if m.source < 64 then m.source else 0xFF) x.per.frame
  let r := initiate x { w with s := s1 } m true
  let peer := r.2.getD 0
  let mark (p : Nat) (t : Track) : Track := { t with ckind := 1, cstream := m.source, cpeer := p, calm := 0 }
  let w1 := r.1.map (fun t => decide (t.slot = slot)) (mark peer)
  if peer = 0 then w1 else w1.map (fun t => decide (t.id = peer)) (mark parent)

/-- Whether an unassigned measurement initiates a track in this tracker (R303, R307). -/
def mayInitiate (x : RunIn) (m : Meas) : Bool := m.usable && (if x.main then decide (m.group ≤ 1) else decide (1 ≤ m.group))

/-! ## The life of a track (R302) -/

/-- Set bits of a number's low bits. -/
def popLow : Nat → Nat → Nat
  | 0, _ => 0
  | n + 1, v => v % 2 + popLow n (v / 2)

/-- A track at the end of a run; none where it is deleted. -/
def ageTrack (r : TrackRun) (t : Track) : Option Track :=
  let pmax := (r.reg Reg.marverPmax).toNat
  if t.sat ∨ (pmax ≠ 0 ∧ (pmax : Int) < t.pp 0 0 + t.pp 1 1) then none
  else match t.st with
    | .tentative =>
      if r.fld Reg.marverTrkcfg 8 4 ≤ t.misses ∧ t.misses ≠ 0 then none
      else if r.fld Reg.marverTrkcfg 0 4 ≤ popLow (r.fld Reg.marverTrkcfg 4 4) t.hits then some { t with st := .confirmed }
      else some t
    | .confirmed => if t.updated then some t else some { t with st := .coasted }
    | .coasted =>
      if t.updated then some { t with st := .confirmed }
      else if r.fld Reg.marverTrkcfg 12 8 ≤ t.misses then none
      else some t

/-- The link of a track with its peer after a run (R308): it ends with either track, or after CNFCLR calm runs. `hot` are the slots with a state
conflict in this run. -/
def ageLink (cnfclr : Nat) (ts : List Track) (hot : List Nat) (t : Track) : Track :=
  if t.ckind ≠ 1 then t
  else
    let clear : Track := { t with ckind := if t.exist.isEmpty then 0 else 2, cstream := t.exist.headD 0xFF, cpeer := 0, calm := 0, sibling := false }
    match ts.find? (fun u => decide (u.id = t.cpeer)) with
    | none => clear
    | some u =>
      if hot.contains t.slot || hot.contains u.slot then { t with calm := 0 }
      else if t.updated && u.updated then if cnfclr ≤ t.calm + 1 then clear else { t with calm := t.calm + 1 }
      else { t with calm := 0 }

/-- Whether a track's vehicle-frame planar position lies in a stream's coverage (R309). -/
def covered (s : State) (r : TrackRun) (q : PoseAt) (t : Track) (i : Nat) : Bool :=
  let w := r.reg (Reg.marverCov i)
  let lo := fld w 0 16
  let hi := fld w 16 16
  let v := toVehicle q (t.x 0) (t.x 1) (t.x 2)
  let e := calOrigin (s.mstream i).calib
  let ux := fSub v.x e.x
  let uy := fSub v.y e.y
  let cross (ax ay bx by' : Nat) : Nat := fSub (fMul ax by') (fMul ay bx)
  let rm := fpInt (fld w 32 16 : Nat) (-4)
  decide ((hi + 65536 - lo) % 65536 ≤ 32768) && fLe f0 (cross (cosTab lo) (sinTab lo) ux uy) && fLe f0 (cross ux uy (cosTab hi) (sinTab hi))
    && fLe (fFma uy uy (fMul ux ux)) (fMul rm rm)

/-- The streams that dissent from a CONFIRMED track, the lowest first (R309): a HEALTHY lidar or radar with COVEN, whose coverage the track lies in,
without a measurement for CNFN consecutive hits. -/
def dissenters (x : RunIn) (s : State) (t : Track) : List Nat :=
  match x.pose with
  | none => []
  | some q =>
    if t.st ≠ .confirmed then []
    else (List.range 64).filter (fun i => x.run.healthy i && decide (streamPayload s i = 1)
      && decide (x.run.fld (Reg.marverCov i) 48 1 = 1) && decide (x.run.fld Reg.marverCnfcfg 0 8 ≤ sget 0 t.without i)
      && decide (sget 0 t.without i ≠ 0) && covered s x.run q t i)

/-- CKIND and CSTREAM of a track whose existence conflicts are with `bs`, the lowest first. DESIGN CHOICE: a track that is in a state conflict as well goes
on showing the state conflict. -/
def showExist (t : Track) (bs : List Nat) : Track :=
  if t.ckind = 1 then { t with exist := bs }
  else { t with exist := bs, ckind := if bs.isEmpty then 0 else 2, cstream := bs.headD 0xFF }

/-- The existence conflicts of a main track (R309): one clears at its stream's next measurement, and one arises when a stream comes to dissent; it is
counted with the lowest stream that does. -/
def existConflict (x : RunIn) (s : State) (t : Track) : State × Track :=
  let standing := t.exist.filter (fun b => !(t.updated && decide (sget 0 t.without b = 0)))
  let new := (dissenters x s t).filter (fun i => !standing.contains i)
  let t1 := showExist t ((List.range 64).filter (fun i => standing.contains i || new.contains i))
  match new with
  | [] => (s, t1)
  | i :: _ => (((s.bump Reg.marverCnfexist 1).bumpSat (Reg.marverHstat i) 48 16).logMarver 0x0705 i x.per.frame, t1)

/-! ## A run (R315-R317) -/

/-- Whether the pose entries of a period and of the one before lie on opposite sides of a discontinuity (R317). -/
def poseDisc (s : State) (per : MPeriod) : Bool :=
  match s.mperiod ((per.frame + 2 ^ 32 - 1) % 2 ^ 32) with
  | none => false
  | some p =>
    let age := poseMaxAge s
    match poseAt p.poses age p.refTime, poseAt per.poses age per.refTime, bracket p.refTime p.poses, bracket per.refTime per.poses with
    | some _, some _, some (a, _), some (b, _) => per.poses.any (fun e => e.disc && decide (a.time < e.time) && decide (e.time ≤ b.time))
    | _, _, _, _ => false

/-- Whether the main run of a period starts with no tracks: the period is NORMAL and the one before was not (R284). -/
def firstNormal (per : MPeriod) : Bool := per.first && decide (per.mode = 1)

/-- PLCNT of the streams that count (R307). -/
def countPlaus (s : State) (cs : List (Nat × Bool)) : State :=
  cs.foldl (fun s c =>
    let s1 := s.setRegFld (Reg.marverPlcnt c.1) 0 32 (s.regFld (Reg.marverPlcnt c.1) 0 32 + 1)
    if c.2 then s1.setRegFld (Reg.marverPlcnt c.1) 32 32 (s1.regFld (Reg.marverPlcnt c.1) 32 32 + 1) else s1) s

/-- What a run leaves: the machine, the tracker's tracks, and the flags NOPOSE and DISC. -/
structure RunRes where
  s : State
  ts : List Track
  noPose : Bool
  disc : Bool
  pose : Option PoseAt
  deriving DecidableEq, Repr

/-- The events of a run's start: DISC, NOPOSE and a table entry with an uncorrectable error (R302, R305). -/
def runNotes (s : State) (per : MPeriod) (disc noPose lost : Bool) : State :=
  let s0 := if disc then s.logMarver 0x070C 0xFF per.frame else s
  let s1 := if noPose then s0.logMarver 0x070D 0xFF per.frame else s0
  if lost then s1.logMarver 0x070F 0xFF per.frame else s1

/-- What each measurement does once the assignments are made: a diverted one is a conflict, an unassigned one may initiate (R303, R308). -/
def runSpawn (x : RunIn) (divs : List (Nat × Meas)) (taken : Meas → Bool) (ms : List Meas) (w : RunWork) : RunWork :=
  ms.foldl (fun w m =>
    match divs.find? (fun d => decide (d.2 = m)) with
    | some d => stateConflict x w d.1 m
    | none => if taken m || !mayInitiate x m then w else (initiate x w m false).1) w

/-- The existence conflicts of a main run, track by track (R309). -/
def runExist (x : RunIn) (s : State) (ts : List Track) : State × List Track :=
  ts.foldl (fun (r : State × List Track) t => ((existConflict x r.1 t).1, r.2 ++ [(existConflict x r.1 t).2])) (s, [])

/-- A run's tracks take their tracker's place in the table. -/
def storeTracks (s : State) (ts : List Track) (fb : Nat) (main : Bool) : State :=
  let rest := s.marver.tracks.filter (fun t => fbTrack t fb == main)
  { s with marver := { s.marver with tracks := bySlot (rest ++ ts) } }

/-- The tracks of one run predicted, updated from their measurements and aged; new ones initiated (R296-R309). A run cut short initiates only the siblings of
the tracks it updated (R317, R308). -/
def runTracks (x : RunIn) (ms : List Meas) (kept : List Track) (others : List Nat) (s : State) : RunWork :=
  let qd (i : Nat) : Int := ((x.run.reg (Reg.marverQd i)).toNat : Int)
  let ps := bySlot (kept.map (predict qd x.per.refTime))
  let asg := assignAll (x.run.fld Reg.marverGates 0 16) ps ms
  let outs := ps.zipIdx.map (fun p =>
    runTrack x p.1 (if (match x.upd with
        | some n => decide (n ≤ p.2)
        | none => false) then [] else (asg.filter (fun a => decide (a.1 = p.1.slot))).map (·.2)))
  let w0 : RunWork := ⟨countPlaus s (outs.flatMap (·.counts)), outs.map (·.track), others⟩
  let divs := outs.flatMap (fun o => o.diverted.map (fun m => (o.track.slot, m)))
  let w1 := runSpawn x divs (fun m => x.upd.isSome || asg.any (fun a => decide (a.2.1 = m))) ms w0
  let aged := w1.ts.filterMap (ageTrack x.run)
  { w1 with ts := aged.map (ageLink (x.run.fld Reg.marverCnfcfg 8 8) aged (divs.map (·.1))) }

/-- A run of a tracker over a period. `bad` is a slot whose table entry has an uncorrectable error (R302). -/
def runTracker (s : State) (run : TrackRun) (per : MPeriod) (main : Bool) (upd bad : Option Nat) (ecc : MemEcc) : RunRes :=
  let pose := poseAt per.poses (poseMaxAge s) per.refTime
  let x : RunIn := ⟨run, per, main, pose, upd⟩
  let fb := run.fbslots
  let mine := s.marver.tracks.filter (fun t => fbTrack t fb != main)
  let others := (s.marver.tracks.filter (fun t => fbTrack t fb == main)).map (·.id)
  let disc := poseDisc s per
  let start := if disc || (main && firstNormal per) then [] else mine
  let kept := start.filter (fun t => decide (some t.slot ≠ bad))
  let ms := measurements ecc x (runNotes s per disc pose.isNone (start.any (fun t => decide (some t.slot = bad))))
  let w := runTracks x ms.2 kept others ms.1
  let fin := if main then runExist x w.s w.ts else (w.s, w.ts)
  ⟨storeTracks fin.1 fin.2 fb main, fin.2, pose.isNone, disc, pose⟩

end Sys2Proof.Machine
end

