-- ==== Sys2Proof/Machine/MarverRun.lean ====
section
/-! DEFINITION. Marver's products and their timing (R278, R285, R307, R311-R317, R376): track tables, fallback blocks, the close and the projection of a
period, and the starts and ends of tracker runs. -/

namespace Sys2Proof.Machine

/-! ## Output records (R311-R314) -/

/-- A value's low 32 bits as bytes. -/
def i32Bytes (v : Int) : List Byte := leBytes 4 (wrapInt v 32)

/-- The code of a track's state. -/
def TrackSt.code : TrackSt → Nat
  | .tentative => 1
  | .confirmed => 2
  | .coasted => 3

/-- The vehicle-frame fields of a track: position and velocity; free where the run had no pose. -/
def vehicleFields (n : Nat) (q : Option PoseAt) (t : Track) : List Nat :=
  match q with
  | some q =>
    let v := toVehicle q (t.x 0) (t.x 1) (t.x 2)
    let w := velVehicle q (t.x 3) (t.x 4) (t.x 5)
    [v.x, v.y, v.z, w.x, w.y]
  | none => (List.range 5).map (fun i => (Config.noPoseField n t.slot i).toNat)

/-- 2^320 / (2 pi), rounded down: enough places for every FP32 angle. -/
def turnScale : Nat :=
  339952895147018642535639799349517299692324064546005894715236429198937636543799886830530695754936

/-- The angle code of an FP32 angle in rad, 65,536 per turn (R312); an angle between two codes takes one of the two. -/
def yawOf (z : Nat) : BitVec 16 :=
  match f32 z with
  | .fin neg m e =>
    if m = 0 then 0#16
    else
      let k := m * 65536 * turnScale / 2 ^ (320 - e).toNat
      let lo : Int := if neg then -((k : Int) + 1) else k
      BitVec.ofInt 16 (if Config.yawUp z then lo + 1 else lo)
  | _ => Config.yawCode z

/-- A detection's attributes as the record carries them; free for a track that no detection has updated. -/
def detFields (n : Nat) (t : Track) : List Byte :=
  match t.det with
  | [l, w, h, yaw, cl, sc] =>
    let len (v : Nat) : List Byte := leBytes 2 (max 0 (min 65535 (rneInt v 6))).toNat
    len l ++ len w ++ len h ++ leBytes 2 (yawOf yaw).toNat ++ leBytes 1 cl ++ leBytes 1 sc
  | _ => (List.range 5).flatMap (fun i => leBytes 2 (Config.noPoseField n t.slot (8 + i)).toNat)

/-- A main-path record (R312). -/
def mainRecord (n tout : Nat) (q : Option PoseAt) (t : Track) : List Byte :=
  let fl := (if t.ckind ≠ 0 then 1 else 0) + (if t.sibling then 2 else 0) + (if t.isNew then 4 else 0) + (if t.updated then 8 else 0)
  let pos (i : Nat) : List Byte := leBytes 8 (wrapInt (t.x i) 64)
  leBytes 4 t.id ++ leBytes 2 t.slot ++ leBytes 1 t.st.code ++ leBytes 1 fl ++ pos 0 ++ pos 1 ++ pos 2
    ++ (List.range 5).flatMap (fun i => i32Bytes (t.x (3 + i)))
    ++ leBytes 4 (fpInt (t.pp 0 0) (-24)) ++ leBytes 4 (fpInt (t.pp 0 1) (-24)) ++ leBytes 4 (fpInt (t.pp 1 1) (-24))
    ++ leBytes 4 (fpInt (t.pp 3 3) (-32)) ++ leBytes 4 (fpInt (t.pp 3 4) (-32)) ++ leBytes 4 (fpInt (t.pp 4 4) (-32))
    ++ (vehicleFields n q t).flatMap (leBytes 4) ++ detFields n t ++ leBytes 2 t.hits ++ leBytes 1 t.ckind
    ++ leBytes 1 (if t.ckind = 0 then 0xFF else t.cstream) ++ leBytes 2 0 ++ leBytes 4 (if t.ckind = 1 then t.cpeer else 0)
    ++ leBytes 4 t.lastUpd ++ leBytes 8 tout

/-- The main table's header (R311). -/
def mainHeader (per : MPeriod) (tout count flags nconf : Nat) : List Byte :=
  let b := leBytes 4 1 ++ leBytes 4 per.frame ++ leBytes 8 per.refTime ++ leBytes 8 tout ++ leBytes 2 count ++ leBytes 1 per.mode
    ++ leBytes 1 flags ++ leBytes 8 per.healthy ++ leBytes 4 nconf ++ List.replicate 84 0#8
  b ++ leBytes 4 (crc32c b)

/-- The main table written (R311): STATE 0, the records, then the header. -/
def writeTable (s : State) (per : MPeriod) (recs : List (List Byte)) (flags nconf : Nat) : State :=
  let a := (s.regFld Reg.marverTrkbase 12 36 * 4096 + per.frame % 2 * 0x81000) % 2 ^ 48
  let s1 := marverWrite s a (leBytes 4 0)
  let s2 := recs.zipIdx.foldl (fun s r => marverWrite s (a + 128 + 128 * r.2) r.1) s1
  marverWrite s2 a (mainHeader per s.now recs.length flags nconf)

/-- A fallback-path record (R314). -/
def fbRecord (n : Nat) (per : MPeriod) (q : Option PoseAt) (t : Track) : List Byte :=
  let v := vehicleFields n q t
  let age := min 0xFFFFFFFF (per.refTime - t.oldest)
  let fl := (if t.ckind ≠ 0 then 1 else 0) + (if t.updated then 2 else 0)
  let b := leBytes 4 t.id ++ leBytes 1 t.st.code ++ leBytes 1 fl ++ leBytes 1 t.sources ++ leBytes 1 0 ++ leBytes 8 per.refTime
    ++ leBytes 4 age ++ leBytes 4 (v.getD 0 0) ++ leBytes 4 (v.getD 1 0) ++ leBytes 4 (v.getD 3 0) ++ leBytes 4 (v.getD 4 0)
    ++ leBytes 4 (fpInt (t.pp 0 0) (-24)) ++ leBytes 4 (fpInt (t.pp 0 1) (-24)) ++ leBytes 4 (fpInt (t.pp 1 1) (-24))
    ++ leBytes 4 (fAdd (fpInt (t.pp 3 3) (-32)) (fpInt (t.pp 4 4) (-32))) ++ leBytes 4 per.frame ++ leBytes 4 0
  b ++ leBytes 4 (crc32c b)

/-- The fallback block (R313). -/
def fbBlock (n : Nat) (per : MPeriod) (tsent : Nat) (q : Option PoseAt) (flags : Nat) (ts : List Track) : List Byte :=
  let out := ts.filter (fun t => decide (t.st ≠ .tentative))
  let h := leBytes 4 1 ++ leBytes 4 per.frame ++ leBytes 8 per.refTime ++ leBytes 8 tsent ++ leBytes 2 out.length ++ leBytes 1 per.mode
    ++ leBytes 1 flags ++ leBytes 8 per.healthy ++ List.replicate 24 0#8
  h ++ leBytes 4 (crc32c h) ++ out.flatMap (fbRecord n per q)

/-! ## The end of a run -/

/-- Header flags NOPOSE, OVERRUN, DISC and projection INCOMPLETE. -/
def runFlags (r : RunRes) (per : MPeriod) (late : Bool) : Nat :=
  (if r.noPose then 2 else 0) + (if late then 4 else 0) + (if r.disc then 8 else 0) + (if per.incomplete then 16 else 0)

/-- An overrun counted and logged (R317). -/
def noteOverrun (s : State) (f : Nat) (late : Bool) : State :=
  if late then (s.bump Reg.marverOverrun 1).logMarver 0x070B 0xFF f else s

/-- The main table of a period shown with its number of records (R320). -/
def showMain (s : State) (f n : Nat) : State := (s.setRegFld Reg.marverTrkstat 0 32 f).setRegFld Reg.marverTrkstat 32 13 n

/-- The main run of a period has ended. -/
def noteMain (s : State) (f n : Nat) : State :=
  showMain { s with marver := { s.marver with mainRun := none, lastMain := some f } } f n

/-- The empty main table of a period is written. -/
def noteEmptyMain (s : State) (f : Nat) : State := showMain { s with marver := { s.marver with lastMain := some f } } f 0

/-- The main run in progress ends: its table is written and tracks-done goes to Bench. -/
def finishMain (s : State) (upd bad : Option Nat) (ecc : MemEcc) : State :=
  match s.marver.mainRun with
  | none => s
  | some run => match s.mperiod run.frame with
    | none => { s with marver := { s.marver with mainRun := none } }
    | some per =>
      let r := runTracker s run per true upd bad ecc
      let flags := (if run.ndet.isNone then 1 else 0) + runFlags r per upd.isSome
      let s1 := writeTable (noteOverrun r.s per.frame upd.isSome) per (r.ts.map (mainRecord s.fresh s.now r.pose)) flags
        (r.ts.filter (fun t => decide (t.ckind ≠ 0))).length
      marverEvent ((noteMain s1.nextFresh per.frame r.ts.length).setRegBit Reg.marverTrkstat 45 false) 3 per.frame

/-- The table of a period that is not NORMAL: no record (R283, R315). -/
def emptyTable (s : State) (per : MPeriod) : State :=
  let s1 := writeTable s per [] (if per.incomplete then 16 else 0) 0
  marverEvent (mapPeriod (noteEmptyMain s1 per.frame) per.frame (fun p => { p with mainStarted := true })) 3 per.frame

/-- The fallback run in progress ends: its block goes to the receive window of Lehr B over crucible 3, and fallback-sent to Bench. A block that finds
crucible 3 in reset is lost. -/
def finishFallback (s : State) (upd bad : Option Nat) (ecc : MemEcc) : State :=
  match s.marver.fbRun with
  | none => s
  | some run => match s.mperiod run.frame with
    | none => { s with marver := { s.marver with fbRun := none } }
    | some per =>
      let r := runTracker s run per false upd bad ecc
      let blk := fbBlock s.fresh per s.now r.pose (runFlags r per upd.isSome) r.ts
      let s1 := noteOverrun r.s per.frame upd.isSome
      let s2 := if crucDown s1 3 then s1
        else { s1 with lehrB := { s1.lehrB with window := sput [] s1.lehrB.window (per.frame % 2) blk } }
      let s3 := { s2.nextFresh with marver := { s2.marver with fbRun := none } }
      let s4 := ((s3.setRegFld Reg.marverFbstat 0 32 per.frame).setRegFld Reg.marverFbstat 32 10 r.ts.length).setRegBit Reg.marverFbstat 42 false
      marverEvent s4 4 per.frame

/-! ## The starts of runs (R285, R315, R317) -/

/-- Whether the fallback tracker runs (R285); FUSSTAT.FBACT shows it. -/
def fbActive (s : State) : Bool := s.regBit Reg.marverFusctl 2 && decide (s.regFld Reg.marverTrkcfg 20 10 ≠ 0)

/-- FUSSTAT.FBACT follows. -/
def syncFbact (s : State) : State := s.setRegBit Reg.marverFusstat 3 (fbActive s)

/-- The fallback run of a period starts; one still in progress is cut short after `updated` tracks. -/
def startFallback (s : State) (f updated : Nat) (ecc : MemEcc) : State :=
  if !fbActive s then s
  else
    let s1 := finishFallback s (some updated) none ecc
    ({ s1 with marver := { s1.marver with fbRun := some ⟨f, latchCfg s1, none⟩ } }).setRegBit Reg.marverFbstat 42 true

/-- The main run of a period starts; one still in progress is cut short after `updated` tracks. -/
def startMain (s : State) (f : Nat) (ndet : Option Nat) (updated : Nat) (ecc : MemEcc) : State :=
  let s1 := finishMain s (some updated) none ecc
  let s2 := mapPeriod s1 f (fun p => { p with mainStarted := true })
  ({ s2 with marver := { s2.marver with mainRun := some ⟨f, latchCfg s2, ndet⟩ } }).setRegBit Reg.marverTrkstat 45 true

/-! ## Close and projection (R263, R278) -/

/-- A period that is not NORMAL gets an empty main table in place of a main run (R284). -/
def emptyIfNotNormal (s : State) (f updated : Nat) (ecc : MemEcc) : State :=
  match s.mperiod f with
  | some q => if q.mode = 1 then s else emptyTable (finishMain s (some updated) none ecc) q
  | none => s

/-- The projection in progress ends with at most `n` points worked on: projection-done goes to Bench, the fallback run starts, and a period that is not
NORMAL writes its empty table. -/
def endProjection (s : State) (n updated : Nat) (ecc : MemEcc) : State :=
  match s.marver.projecting with
  | none => s
  | some f => match s.mperiod f with
    | none => { s with marver := { s.marver with projecting := none } }
    | some per =>
      emptyIfNotNormal (startFallback (marverEvent (project s per per.refTime n) 1 f) f updated ecc) f updated ecc

/-- A period closes; a projection still in progress is abandoned after `done` points. -/
def closeNow (s : State) (p : MPeriod) (done updated : Nat) (ecc : MemEcc) : State :=
  closePeriod (endProjection s done updated ecc) p.frame p.refTime

/-- The reference time of a period that may not have ended yet: the boundary that ends it, as the frame timer has it (R270). -/
def endOf (s : State) (p : MPeriod) : Option Nat := p.ref.or (predictBoundary s ((p.frame + 1) % 2 ^ 32))

/-- MARVER_CLOSE_WRITE (R263): a host write that names a period which is not closed, ended or not; any other frame has no effect. `done` and `updated` say
how far an abandoned projection and the fallback run it overtakes have come. -/
def execMarverCloseWrite (frame : BitVec 32) (done updated : Nat) (ecc : MemEcc) (t : Nat) (s : State) : Out :=
  let s := s.at t
  match s.mperiod frame.toNat with
  | some p =>
    if p.closed then .next s
    else
      let s1 := mapPeriod s p.frame (fun q => { q with ref := endOf s p })
      .next (closeNow s1 { p with ref := endOf s p } done updated ecc)
  | none => .next s

/-- PERIOD_CLOSE (R263): CLOSE ns after the boundary that ends a period. -/
def execPeriodClose (done updated : Nat) (ecc : MemEcc) (t : Nat) (s : State) : Out :=
  let s := s.at t
  match s.marver.periods.find? (fun p => !p.closed && (match p.ref with
      | some e => decide (e + s.regFld Reg.marverTsctl 0 24 ≤ s.now)
      | none => false)) with
  | some p => .next (closeNow s p done updated ecc)
  | none => .next s

/-- PROJECTION_DONE (R278). -/
def execProjectionDone (updated : Nat) (ecc : MemEcc) (t : Nat) (s : State) : Out :=
  .next (endProjection (s.at t) (2 ^ 64) updated ecc)

/-! ## Tracker runs (R315-R317) -/

/-- A write of MARVER_TRKGO (R315). -/
def trackGo (s : State) (frame ndet : Nat) : State :=
  if 4096 < ndet then s.logMarver 0x0712 0xFF frame
  else match s.mperiod frame with
  | none => s.logMarver 0x0709 0xFF frame
  | some p =>
    if p.mode ≠ 1 ∨ p.mainStarted then s.logMarver 0x0709 0xFF frame
    else mapPeriod s frame (fun p => { p with ndet := some ndet })

/-- TRKGO (R290, R315): only Bench and Gaffer firmware write it. -/
def execTrkgo (who : Ident) (frame : BitVec 32) (ndet : BitVec 13) (t : Nat) (s : State) : Out :=
  let s := s.at t
  if who.val ≠ 16 then .next s else .next (trackGo s frame.toNat ndet.toNat)

/-- MAIN_RUN_START (R315): projection of a NORMAL period has ended and its TRKGO is accepted. -/
def execMainRunStart (updated : Nat) (ecc : MemEcc) (t : Nat) (s : State) : Out :=
  let s := s.at t
  match s.marver.periods.find? (fun p => p.projected.isSome && decide (p.mode = 1) && !p.mainStarted && p.ndet.isSome) with
  | some p => .next (startMain s p.frame p.ndet updated ecc)
  | none => .next s

/-- MAIN_RUN_DEADLINE (R315): TRKDL after projection end with no accepted TRKGO, the run starts without detections. -/
def execMainRunDeadline (updated : Nat) (ecc : MemEcc) (t : Nat) (s : State) : Out :=
  let s := s.at t
  match s.marver.periods.find? (fun p => decide (p.mode = 1) && !p.mainStarted && p.ndet.isNone && (match p.projected with
      | some e => decide (e + s.regFld Reg.marverDline 0 32 ≤ s.now)
      | none => false)) with
  | some p => .next (startMain (s.logMarver 0x0707 0xFF p.frame) p.frame none updated ecc)
  | none => .next s

/-- MAIN_RUN_DONE (R302, R311, R315, R316): `bad` is a slot whose table entry met an uncorrectable error. -/
def execMainRunDone (bad : Option (Fin 4096)) (ecc : MemEcc) (t : Nat) (s : State) : Out :=
  .next (finishMain (s.at t) none (bad.map (·.val)) ecc)

/-- FALLBACK_RUN_DONE (R302, R313, R315). -/
def execFallbackRunDone (bad : Option (Fin 4096)) (ecc : MemEcc) (t : Nat) (s : State) : Out :=
  .next (finishFallback (s.at t) none (bad.map (·.val)) ecc)

/-! ## Plausibility (R307) -/

/-- The evaluation of one stream. -/
def plausStream (s : State) (i : Nat) : State :=
  let w := s.reg (Reg.marverPlcnt i)
  let total := fld w 0 32
  let enough := decide (s.regFld Reg.marverCnfcfg 24 16 ≤ total)
  let out := decide (s.regFld Reg.marverCnfcfg 40 8 * total < fld w 32 32 * 256)
  let off := Reg.marverHstat i
  let s1 := s.setReg (Reg.marverPlcnt i) 0#64
  let put (s : State) (n : Nat) : State := { s with marver := { s.marver with plPasses := sput 0 s.marver.plPasses i n } }
  if s.regBit off 1 then
    let n := if enough && !out then sget 0 s.marver.plPasses i + 1 else 0
    if s.regFld Reg.marverCnfcfg 48 8 ≤ n ∧ n ≠ 0 then syncHealth (put (s1.setRegBit off 1 false) 0) i else put s1 n
  else if enough && out then
    put (syncHealth (((s1.setRegBit off 1 true).bumpSat off 32 16).logMarver 0x0703 i s1.frmcnt) i) 0
  else s1

/-- PLAUSIBILITY_EVAL (R307): every PLWIN periods both counts of every stream are evaluated and zeroed. -/
def execPlausibilityEval (t : Nat) (s : State) : Out :=
  let s := s.at t
  if s.marver.plPeriods < s.regFld Reg.marverCnfcfg 16 8 ∨ s.marver.plPeriods = 0 then .next s
  else
    let s1 := (List.range 64).foldl plausStream s
    .next { s1 with marver := { s1.marver with plPeriods := 0 } }


end Sys2Proof.Machine
end

