-- ==== Sys2Proof/Machine/LehrB.lean ====
section
/-! DEFINITION. Lehr B (R432-R439): the fallback receive window, the direct radar ports, the envelope check and the fallback plan; and the loss of a
part (R446-R449). -/

namespace Sys2Proof.Machine


/-- Lehr B runs: it is not held in reset or without its rails, and no lockstep mismatch has stopped it. -/
def lehrBRuns (s : State) : Bool := !s.lehrB.stoppedB

/-- LEHRB_STAT.FBREADY follows (R439). -/
def syncFbReady (s : State) : State := s.setRegBit Reg.lehrbStat 0 (readyPlan s s.frmcnt).isSome

/-! ## The fallback receive window (R432) -/

/-- A fallback block's records; none where a CRC fails or a record is missing. -/
def blockRecords (bs : List Byte) : Option (List (Nat × Obstacle)) :=
  let n := leAt bs 24 2
  let recs := (List.range n).map (fun i => sliceBytes bs (64 + 64 * i) 64)
  if recs.all (fun r => decide (r.length = 64) && decide (leAt r 60 4 = crc32c (r.take 60))) then
    some (recs.map (fun r => (leAt r 16 4, (⟨leAt r 20 4, leAt r 24 4, leAt r 28 4, leAt r 32 4, fSqrt (fAdd (leAt r 36 4) (leAt r 44 4))⟩ : Obstacle))))
  else none

/-- A block that Lehr B accepts. -/
def acceptBlock (s : State) (bs : List Byte) : Option FbBlock :=
  let f := leAt bs 4 4
  let fresh := match s.lehrB.block with
    | some b => newer32 f b.frame
    | none => true
  if bs.length < 64 ∨ leAt bs 0 4 ≠ 1 ∨ leAt bs 60 4 ≠ crc32c (bs.take 60) ∨ !fresh then none
  else (blockRecords bs).map (fun r => ⟨f, leAt bs 8 8, r⟩)

/-- The fallback plan of a period is to be computed (R438). -/
def planBegun (s : State) (k : Nat) : State :=
  { s with lehrB := { s.lehrB with planFor := some k, planned := (s.lehrB.planned ++ [k]).drop (s.lehrB.planned.length - 511) } }

/-- FALLBACK_BLOCK (R432): the block in a buffer of the window is accepted, or rejected, counted and logged. -/
def execFallbackBlock (buf : Fin 2) (t : Nat) (s : State) : Out :=
  let s := s.at t
  let bs := sget [] s.lehrB.window buf.val
  if bs.isEmpty ∨ !lehrBRuns s then .next s
  else match acceptBlock s bs with
    | some b => .next ((planBegun { s with lehrB := { s.lehrB with block := some b } } b.frame).bump Reg.lehrbBlkcnt 1)
    | none => .next (((s.bump Reg.lehrbBlkrej 1).setRegBit Reg.lehrbStat 5 true).noteLehrA 0x0614 s.frmcnt)

/-! ## The direct radar ports (R433) -/

/-- The calibration block of a radar port read at a frame boundary; a block that fails its CRC leaves the one before in force. -/
def readRadcal (ecc : MemEcc) (s : State) (r : Nat) : State :=
  let x := devRead s lehrBReq ecc (s.regFld (Reg.lehrbRadcal r) 6 42 * 64) 192
  match x.2 with
  | .error _ => x.1
  | .ok c =>
    if leAt c 188 4 ≠ crc32c (c.take 124 ++ sliceBytes c 128 60) then x.1
    else
      let put (s : State) (el : List Byte) : State :=
        { s with lehrB := { s.lehrB with radcal := sput [] s.lehrB.radcal r (c ++ el) } }
      if leAt c 136 1 = 1 then
        let e := devRead x.1 lehrBReq ecc (leAt c 168 8) 2048
        match e.2 with
        | .error _ => e.1
        | .ok el => put e.1 el
      else put x.1 []

/-- The radar points of the latest 50 ms. -/
def radarNow (s : State) : List Obstacle := (s.lehrB.radar.filter (fun p => decide (s.now ≤ p.1 + 50000000))).map (·.2)

/-- RADAR_PACKET (R433): the points of a packet become obstacles with zero velocity; ARRIVAL timing. -/
def execRadarPacket (port : Fin 2) (payload : List Byte) (t : Nat) (s : State) : Out :=
  let s := s.at t
  let c := sget [] s.lehrB.radcal port.val
  if c.isEmpty ∨ !lehrBRuns s then .next s
  else
    let d := (decodePacket (layoutOf c) (c.drop 192) payload).1
    let sd := fSqrt (s.regFld Reg.lehrbRadvar 0 32)
    let new := d.map (fun p =>
      let v := ((calE c).mul p.p).add (calOrigin c)
      (wrapInt ((t : Int) + p.dt - calLat c - calExpoff c) 64, (⟨v.x, v.y, f0, f0, sd⟩ : Obstacle)))
    let keep := s.lehrB.radar.filter (fun p => decide (s.now ≤ p.1 + 50000000))
    .next { s with lehrB := { s.lehrB with radar := keep ++ new } }

/-! ## Plan records and the envelope check (R434-R436) -/

/-- A point of a plan: DT in µs, and FP32 position and speed. -/
structure PlanPt where
  dt : Nat
  x : Nat
  y : Nat
  v : Nat
  deriving DecidableEq, Repr

/-- A plan record's points, where it meets R434. -/
def planPoints (bs : List Byte) : Option (List PlanPt) :=
  let n := leAt bs 16 2
  if bs.length < 32 + 16 * n ∨ leAt bs 0 4 ≠ 0x4E414C50 ∨ n < 2 ∨ 30 < n then none
  else if leAt bs 28 4 ≠ crc32c (bs.take 28 ++ sliceBytes bs 32 (16 * n)) then none
  else
    let pts := (List.range n).map (fun i => (⟨leAt bs (32 + 16 * i) 4, leAt bs (36 + 16 * i) 4, leAt bs (40 + 16 * i) 4, leAt bs (44 + 16 * i) 4⟩ : PlanPt))
    let rising := (pts.zip (pts.drop 1)).all (fun p => decide (p.1.dt < p.2.dt))
    if rising && pts.all (fun p => decide (p.dt ≤ 10000000) && fLe f0 p.v) && decide ((pts.head?.map (·.dt)) = some 0) then some pts else none

/-- u6 of R436. -/
def u6 : Nat := 0x358637BD

/-- The limits of the check: LEHRB_ENV0-ENV3. -/
structure Env where
  clr0 : Nat
  clrv : Nat
  clrt : Nat
  amax : Nat
  dmax : Nat
  latmax : Nat
  deriving DecidableEq, Repr

/-- The limits in force. -/
def envOf (s : State) : Env :=
  let a := s.reg Reg.lehrbEnv0
  let b := s.reg Reg.lehrbEnv1
  let c := s.reg Reg.lehrbEnv2
  ⟨fld a 0 32, fld a 32 32, fld b 0 32, fld b 32 32, fld c 0 32, fld c 32 32⟩

/-- The clearance test of one point against one obstacle: whether it fails. -/
def tooClose (e : Env) (p : PlanPt) (o : Obstacle) : Bool :=
  let ti := fMul (fpInt (p.dt : Nat) 0) u6
  let req := fFma e.clrt ti (fFma e.clrv p.v e.clr0)
  let dx := fSub (fFma o.vx ti o.x) p.x
  let dy := fSub (fFma o.vy ti o.y) p.y
  let r := fFma 0x40400000 o.sd req
  fLt (fFma dy dy (fMul dx dx)) (fMul r r)

/-- Some point is too close to some obstacle. -/
def clearanceFails (e : Env) (pts : List PlanPt) (os : List Obstacle) : Bool := pts.any (fun p => os.any (tooClose e p))

/-- The acceleration test of R436. -/
def accelFails (e : Env) (pts : List PlanPt) : Bool :=
  (pts.zip (pts.drop 1)).any (fun p =>
    let a := fDiv (fSub p.2.v p.1.v) (fMul (fpInt ((p.2.dt - p.1.dt : Nat) : Int) 0) u6)
    fLt e.amax a || fLt a (fNeg e.dmax))

/-- The lateral test of R436 at the middle one of three points. -/
def lateralAt (e : Env) (a b c : PlanPt) : Bool :=
  let ux := fSub b.x a.x
  let uy := fSub b.y a.y
  let wx := fSub c.x b.x
  let wy := fSub c.y b.y
  let k := fFma ux wy (fNeg (fMul uy wx))
  let d0 := fMul (fSqrt (fFma uy uy (fMul ux ux))) (fSqrt (fFma wy wy (fMul wx wx)))
  let sx := fAdd ux wx
  let sy := fAdd uy wy
  let d := fMul d0 (fSqrt (fFma sy sy (fMul sx sx)))
  fLt f0 d && fLt e.latmax (fMul (fMul b.v b.v) (fDiv (fMul f2 (fAbs k)) d))

/-- The lateral test of R436. -/
def lateralFails (e : Env) (pts : List PlanPt) : Bool :=
  (pts.zip ((pts.drop 1).zip (pts.drop 2))).any (fun p => lateralAt e p.1 p.2.1 p.2.2)

/-- The obstacles of a check for a plan's TVAL (R435), and whether they come from direct radar alone; none where there is neither. -/
def obstaclesFor (s : State) (tval : Nat) : Option (List Obstacle × Bool) :=
  let radar := radarNow s
  match s.lehrB.block with
  | some b =>
    if b.tval = tval then some ((b.recs.filter (fun r => decide (r.1 ≤ s.regFld Reg.lehrbEnv3 0 32))).map (·.2), false)
    else if radar.isEmpty then none else some (radar, true)
  | none => if radar.isEmpty then none else some (radar, true)

/-- A verdict: the result, its reason (R454), and RADARONLY. -/
structure VerdictRes where
  result : Verdict
  reason : Nat
  radarOnly : Bool
  deriving DecidableEq, Repr

/-- A register LEHRB_ENV0-ENV3 holds zero (R435). -/
def unprogrammed (s : State) : Bool :=
  [Reg.lehrbEnv0, Reg.lehrbEnv1, Reg.lehrbEnv2, Reg.lehrbEnv3].any (fun o => decide (s.reg o = 0#64))

/-- The verdict on the 512 bytes read for a plan of frame k (R435, R436). -/
def judge (s : State) (k : Nat) (bs : Option (List Byte)) : VerdictRes :=
  match bs.bind planPoints with
    | none => ⟨.fail, 4, false⟩
    | some pts =>
      let rec' := bs.getD []
      let p0 := pts.headD ⟨0, 0, 0, 0⟩
      let tol := s.regFld Reg.lehrbEnv3 32 32
      if !fLe (fAbs p0.x) tol || !fLe (fAbs p0.y) tol || decide (leAt rec' 4 4 ≠ k) || decide (leAt rec' 18 1 ≠ 0) then ⟨.fail, 4, false⟩
      else match obstaclesFor s (leAt rec' 8 8) with
        | none => ⟨.unchecked, 0, false⟩
        | some (os, ro) =>
          let e := envOf s
          if clearanceFails e pts os then ⟨.fail, 1, ro⟩
          else if accelFails e pts then ⟨.fail, 2, ro⟩
          else if lateralFails e pts then ⟨.fail, 3, ro⟩
          else ⟨.pass, 0, ro⟩

/-- LEHRB_VERDICT.RESULT. -/
def Verdict.code : Verdict → Nat
  | .pass => 1
  | .fail => 2
  | .unchecked => 3

/-- PLAN_CHECK_REQUEST (R435): Lehr A hands the address of a frame's committed plan to Lehr B. -/
def execPlanCheckRequest (frame : BitVec 32) (t : Nat) (s : State) : Out :=
  let s := s.at t
  let x := s.frameSel frame.toNat
  match x.plan with
  | some (_, addr) =>
    if x.verdict.isSome || !lehrBRuns s || !s.lehrB.lehrARuns then .next s
    else .next { s with lehrB := { s.lehrB with check := some (x.frame, addr) } }
  | none => .next s

/-- A verdict is shown in LEHRB_VERDICT and LEHRB_STAT, a FAIL is counted and logged, and the check is over (R435, R453). -/
def showVerdict (s : State) (k : Nat) (v : VerdictRes) : State :=
  let s1 := { s with lehrB := { s.lehrB with check := none } }
  let w := setFld (setFld (setFld 0#64 0 32 k) 32 2 v.result.code) 36 4 v.reason
  let s2 := (s1.setReg Reg.lehrbVerdict w).setRegBit Reg.lehrbStat 1 v.radarOnly
  if v.result = .fail then (s2.bump Reg.lehrbFailcnt 1).logLehrA (if v.reason = 4 then 0x0606 else 0x0605) 0xFF k else s2

/-- The verdict on frame k reaches Lehr A: FAIL refuses the frame's main output, and the selection is evaluated (R423, R436). -/
def takeVerdict (s : State) (k : Nat) (v : VerdictRes) : State :=
  let s1 := showVerdict s k v
  let f := s1.frameSel k
  evalFrame (setFrameSel s1 { f with verdict := some v.result, refused := f.refused || decide (v.result = .fail) }) k

/-- ENVELOPE_VERDICT (R423, R435, R436): a zero envelope register gives UNPROGRAMMED before the plan is read; else the plan is read and judged. -/
def execEnvelopeVerdict (ecc : MemEcc) (t : Nat) (s : State) : Out :=
  let s := s.at t
  match s.lehrB.check with
  | none => .next s
  | some (k, addr) =>
    if !lehrBRuns s ∨ mapHolds s then .next s
    else if unprogrammed s then .next (takeVerdict s k ⟨.fail, 5, false⟩)
    else
      let x := devRead s lehrBReq ecc addr 512
      .next (takeVerdict x.1 k (judge x.1 k x.2.toOption))

/-! ## The fallback plan (R438, R439) -/

/-- The usable pose entries that Lehr B has (R33): those it has read of the pose ring in DRAM, which it reaches through crucible 3. -/
def lehrPoses (s : State) : List Pose := if crucDown s 3 then [] else s.lehrB.ringPoses

/-- v0: the planar distance of the two latest usable entries over their time difference; free where there are fewer. -/
def startSpeed (s : State) : Nat :=
  match (lehrPoses s).reverse with
  | b :: a :: _ =>
    let dx := fpInt (b.px - a.px) (-20)
    let dy := fpInt (b.py - a.py) (-20)
    fDiv (fSqrt (fFma dy dy (fMul dx dx))) (fDiv (fpInt ((b.time - a.time : Nat) : Int) 0) 0x4E6E6B28)
  | _ => (Config.startSpeed s.fresh).toNat

/-- The reference path at a new TVAL: the points of the last main plan selected within the latest 10 frames; none: the positive x axis. -/
def refPath (s : State) (tval : Nat) : Option (List (Nat × Nat)) :=
  match s.lehrB.mainPlan with
  | none => none
  | some (f, bs) =>
    if 10 ≤ countDiff s.frmcnt f then none
    else match planPoints bs with
      | none => none
      | some pts =>
        match poseAt (lehrPoses s) (poseMaxAge s) (leAt bs 8 8), poseAt (lehrPoses s) (poseMaxAge s) tval with
        | some p, some r => some (pts.map (fun q => let v := egoMove p r ⟨q.x, q.y, f0⟩
            (v.x, v.y)))
        | _, _ => none

/-- The point at an arc length along a path; none beyond its end. -/
def alongPath : Nat → List (Nat × Nat) → Nat → Option (Nat × Nat)
  | 0, _, _ => none
  | n + 1, a :: b :: rest, d =>
    let dx := fSub b.1 a.1
    let dy := fSub b.2 a.2
    let l := fSqrt (fFma dy dy (fMul dx dx))
    if fLe d l then
      if l % 2 ^ 31 = 0 then some a
      else
        let w := fDiv d l
        some (fFma w dx a.1, fFma w dy a.2)
    else alongPath n (b :: rest) (fSub d l)
  | _, _, _ => none

/-- Point i of the fallback plan with a deceleration: the speed max(0, v0 - a t), and the point at the arc length that the integrated speed reaches. -/
def fbPoint (s : State) (v0 a : Nat) (path : Option (List (Nat × Nat))) (i : Nat) : PlanPt :=
  let ti := fMul (fpInt ((200000 * i : Nat) : Int) 0) u6
  let v := fSub v0 (fMul a ti)
  let stopped := !fLt f0 v
  let te := if stopped && fLt f0 a then fDiv v0 a else ti
  let d := fMul (fMul (fAdd v0 (if stopped then f0 else v)) te) 0x3F000000
  let xy := match path with
    | none => some (d, f0)
    | some p => alongPath p.length p d
  match xy with
  | some (x, y) => ⟨200000 * i, x, y, if stopped then f0 else v⟩
  | none => ⟨200000 * i, (Config.pastPath s.fresh i 0).toNat, (Config.pastPath s.fresh i 1).toNat, if stopped then f0 else v⟩

/-- The plan record (R434). -/
def planRecord (k tval flags : Nat) (pts : List PlanPt) : List Byte :=
  let h := leBytes 4 0x4E414C50 ++ leBytes 4 k ++ leBytes 8 tval ++ leBytes 2 pts.length ++ leBytes 1 1 ++ leBytes 1 flags ++ leBytes 8 0
  let b := pts.flatMap (fun p => leBytes 4 p.dt ++ leBytes 4 p.x ++ leBytes 4 p.y ++ leBytes 4 p.v)
  h ++ leBytes 4 (crc32c (h ++ b)) ++ b

/-- The latest boundaries, the newest first. -/
def lastBoundaries (s : State) : List Nat := s.frame.latest.toList ++ s.frame.past

/-- The reference time of a period: the boundary that ended it. -/
def refTime (s : State) (k : Nat) : Nat := (lastBoundaries s).getD (countDiff s.frmcnt ((k + 1) % 2 ^ 32)) (s.regFld Reg.devFrmstart 0 64)

/-- The newest period whose reference time plus FBLATE has come. -/
def lateFrame (s : State) : Option Nat :=
  ((lastBoundaries s).findIdx? (fun b => decide (b + s.regFld Reg.lehrbFblate 0 32 ≤ s.now))).map
    (fun i => (s.frmcnt + 2 ^ 33 - i - 1) % 2 ^ 32)

/-- The fallback plan of a period. -/
def makeFallback (s : State) (k : Nat) : FbPlan :=
  let tval := match s.lehrB.block with
    | some b => if b.frame = k then b.tval else refTime s k
    | none => refTime s k
  let os := match obstaclesFor s tval with
    | some (os, _) => os
    | none => []
  let v0 := startSpeed s
  let path := refPath s tval
  let plan (a : Nat) : List PlanPt := (List.range 30).map (fbPoint s v0 a path)
  let w := s.reg Reg.lehrbFb
  let soft := plan (fld w 0 32)
  let hard := plan (fld w 32 32)
  let e := envOf s
  if !clearanceFails e soft os then ⟨k, planRecord k tval 0 soft, false, false⟩
  else if !clearanceFails e hard os then ⟨k, planRecord k tval 0 hard, false, false⟩
  else ⟨k, planRecord k tval 2 hard, true, false⟩

/-- FALLBACK_PLAN_LATE (R438): FBLATE after the reference time no block of the period has come, and the plan is computed without one. -/
def execFallbackPlanLate (t : Nat) (s : State) : Out :=
  let s := s.at t
  match lateFrame s with
  | none => .next s
  | some k => if s.lehrB.planned.contains k || s.lehrB.planFor.isSome || !lehrBRuns s then .next s else .next (planBegun s k)

/-- A computed plan is kept with the one before it, the fallback-ready kick is raised, the selection is evaluated and the plan message sent (R438-R441). -/
def takePlan (s : State) (q : FbPlan) : State :=
  let s1 := { s with lehrB := { s.lehrB with plans := q :: (s.lehrB.plans.filter (fun x => decide (x.frame ≠ q.frame))).take 1 } }
  planMessage (evalFrame (syncFbReady (kickFor s1 s1.frmcnt 3 (fun _ => true))) s1.frmcnt) q

/-- The bytes of a fallback plan go to memory through crucible 3, else through crucible 0 by Lehr A; the answer says that neither took them (R440). -/
def writePlan (s : State) (addr : Nat) (bs : List Byte) : State × Bool :=
  let a := devWrite s lehrBReq .clean addr bs
  match a.2 with
  | none => (a.1, false)
  | some _ =>
    if !a.1.lehrB.lehrARuns then (a.1, true)
    else
      let b := devWrite a.1 lehrAReq .clean addr bs
      (b.1, b.2.isSome)

/-- FALLBACK_PLAN_DONE (R438-R440): the record is written through crucible 3, else through crucible 0 by Lehr A, else VNET is set; the fallback-ready kick
is raised and the plan message sent. -/
def execFallbackPlanDone (t : Nat) (s : State) : Out :=
  let s := s.at t
  match s.lehrB.planFor with
  | none => .next s
  | some k =>
    if !lehrBRuns s ∨ mapHolds s then .next s
    else
      let p := makeFallback s k
      let s0 := { s.nextFresh with lehrB := { s.lehrB with planFor := none } }
      let w := writePlan s0 (fbAddr s0 k) p.bytes
      .next (takePlan w.1 { p with vnet := w.2 })

/-! ## Losing a part (R446-R449) -/

/-- Lehr A declares the host die silent (R446, R447): device warm reset. -/
def hostSilent (s : State) : State :=
  let s1 := (s.logLehrA 0x0610 0xFF s.frmcnt).setRegBit Reg.lehraStat 4 false
  startReset 7 0 10 false (syncActive { s1 with lehrA := { s1.lehrA with silent := s1.lehrA.silent ++ [.hostDie] } })

/-- DIE_HEARTBEAT_TIMEOUT (R446, R447, R552): a die that is not in reset is declared silent, and its domain restarts. -/
def execDieHeartbeatTimeout (die : Block) (t : Nat) (s : State) : Out :=
  let s := s.at t
  if !s.lehrB.lehrARuns ∨ s.lehrA.silent.contains die ∨ inReset s (blockDomain die) then .next s
  else
    let note (k i : Nat) : State :=
      let s1 := s.logLehrA 0x0610 0xFF s.frmcnt
      startReset k i 10 false { s1 with lehrA := { s1.lehrA with silent := s1.lehrA.silent ++ [die] } }
    match die with
    | .die d => .next (note 2 d.val)
    | .crucible k => .next (note 3 k.val)
    | .sensorDie => .next (note 4 0)
    | .hostDie => .next (hostSilent s)
    | _ => .next s

/-- R31: the order in which the watch ring visits its twenty nodes; the last node closes the loop to the first. -/
def ringOrder : List RingNode :=
  [.lehrA, .crucible 0, .compute 0, .compute 1, .compute 2, .hostDie, .crucible 1, .compute 3, .compute 4, .compute 5, .crucible 3, .compute 9, .compute 10,
    .compute 11, .lehrB, .sensorDie, .crucible 2, .compute 6, .compute 7, .compute 8]

/-- A node's place on the ring, by which RINGSEG names the segment (R446). -/
def ringIndex (n : RingNode) : Nat := ringOrder.findIdx (fun x => decide (x = n))

/-- RING_TOKEN_TIMEOUT (R446, R447): the ring is broken after node `seg`. -/
def execRingTokenTimeout (seg : RingNode) (t : Nat) (s : State) : Out :=
  let s := s.at t
  if s.regBit Reg.lehraStat 5 ∨ !s.lehrB.lehrARuns then .next s
  else .next (((s.setRegBit Reg.lehraStat 5 true).setRegFld Reg.lehraStat 6 5 (ringIndex seg)).logLehrA 0x060D 0xFF s.frmcnt)

/-- GAFHB_WRITE (R446, R451): only Gaffer firmware's write is a heartbeat. -/
def execGafhbWrite (who : Ident) (t : Nat) (s : State) : Out :=
  let s := s.at t
  if who.val ≠ 16 ∨ !s.lehrB.lehrARuns then .next s
  else
    let s1 := s.setRegBit Reg.lehraStat 4 true
    .next (syncActive { s1 with lehrA := { s1.lehrA with gafhb := s1.now, silent := s1.lehrA.silent.filter (fun b => decide (b ≠ .hostDie)) } })

/-- Lehr A supervises the host die: READY, no device reset in progress, and not yet silent (R446). -/
def watchesHost (s : State) : Bool :=
  s.lehrB.lehrARuns && s.regBit Reg.resetStat 0 && !inReset s (7, 0) && !s.lehrA.silent.contains .hostDie

/-- GAFFER_HEARTBEAT_TIMEOUT (R446): 2 ms without a heartbeat; the first is awaited from READY. -/
def execGafferHeartbeatTimeout (t : Nat) (s : State) : Out :=
  let s := s.at t
  if !watchesHost s ∨ s.now < s.lehrA.gafhb + 2000000 then .next s else .next (hostSilent s)

/-- Lehr A declares Lehr B lost (R446-R448): FLT00 is driven, and the current frame is judged again without condition 4. -/
def loseB (s : State) : State :=
  let s1 := ((s.setRegBit Reg.lehraStat 3 false).setRegBit Reg.lehraStat 13 true).logLehrA 0x060E 0xFF s.frmcnt
  violateEval { s1 with pins := { s1.pins with flt00 := true } }

/-- Lehr B declares Lehr A lost (R427, R440, R446): no selection is made, and every live FRAME_RESULT fails. -/
def loseA (s : State) : State :=
  let s1 := (s.setRegBit Reg.lehrbStat 3 false).setRegBit Reg.lehraStat 1 false
  let s2 := { s1 with lehrB := { s1.lehrB with lehrARuns := false } }.noteLehrA 0x060F s1.frmcnt
  syncActive ((s2.bench.cmds.filter (fun c => decide (c.op = 0x40))).foldl (fun s c => (markCancel c.key 0x0613 s).noteLehrA 0x0613 c.frame) s2)

/-- LEHR_HEARTBEAT_TIMEOUT (R446): 1 ms without the other die's heartbeat, whether or not one has ever come. A Lehr B already lost has its fault ball
driven. -/
def execLehrHeartbeatTimeout (lostB : Bool) (t : Nat) (s : State) : Out :=
  let s := s.at t
  if lostB then .next (if s.lehrB.lehrARuns && !s.regBit Reg.lehraStat 13 then loseB s else s)
  else .next (if lehrBRuns s && s.lehrB.lehrARuns then loseA s else s)

/-- LOCKSTEP_MISMATCH (R446): the die announces its loss and stops. -/
def execLockstepMismatch (lehrB : Bool) (t : Nat) (s : State) : Out :=
  let s := s.at t
  if lehrB then
    if !lehrBRuns s then .next s
    else
      let s1 := { s with lehrB := { s.lehrB with stoppedB := true } }
      .next (if s1.lehrB.lehrARuns then loseB s1 else s1)
  else if s.lehrB.stoppedA ∨ !s.lehrB.lehrARuns then .next s
  else .next (loseA { s with lehrB := { s.lehrB with stoppedA := true } })

/-- LEHRA_TAKEOVER (R448): Lehr B keeps device time and frame boundaries and drives FLT01. -/
def execLehraTakeover (t : Nat) (s : State) : Out :=
  let s := s.at t
  if s.lehrB.lehrARuns ∨ !lehrBRuns s ∨ s.lehrB.handover.isSome then .next s
  else
    let s1 := s.setRegBit Reg.lehrbStat 4 true
    .next { s1 with pins := { s1.pins with flt01 := true }, lehrB := { s1.lehrB with handover := some (s1.now, s1.frmcnt) } }

/-- DEVICE_TIME_HANDOVER (R449): at the instant T, at least 100 µs after a restarted Lehr A could name it, Lehr A takes device time and the frame grid
back; none of them changes. -/
def execDeviceTimeHandover (t : Nat) (s : State) : Out :=
  let s := s.at t
  match s.lehrB.handover with
  | none => .next s
  | some (since, _) =>
    if !s.lehrB.lehrARuns ∨ s.now < since + 100000 then .next s else .next { s with lehrB := { s.lehrB with handover := none } }

/-- LEHR_HEARTBEAT (R446-R448): the partner is present again, its fault ball is released unless a thermal trip drives it (R628), and Lehr B's domain may
be. -/
def execLehrHeartbeat (fromB : Bool) (t : Nat) (s : State) : Out :=
  let s := s.at t
  if fromB then
    if !lehrBRuns s ∨ !s.lehrB.lehrARuns then .next s
    else
      let s1 := (s.setRegBit Reg.lehraStat 3 true).setRegBit Reg.lehraStat 13 false
      .next (releaseDomains { s1 with pins := { s1.pins with flt00 := decide (s.unitState 115 = 2) } })
  else if s.lehrB.stoppedA ∨ !lehrBRuns s then .next s
  else
    let s1 := (s.setRegBit Reg.lehrbStat 3 true).setRegBit Reg.lehrbStat 4 false
    let s2 := s1.lehrB.lostNotes.foldl (fun s p => s.logLehrA p.1 0xFF p.2) s1
    let back := s2.lehrB.handover.map (fun h => if s2.lehrB.lehrARuns then h else (s2.now, s2.frmcnt))
    let s3 := { s2 with
      pins := { s2.pins with flt01 := decide (s.unitState 114 = 2) }, lehrB := { s2.lehrB with lehrARuns := true, lostNotes := [], handover := back } }
    .next (syncActive s3)

end Sys2Proof.Machine
end

