-- ==== Sys2Proof/Machine/Links.lean ====
section
/-! DEFINITION. Punty packets and links (R458-R481): memory requests and responses, the link layer, lateral modules and vertical ports; fences and cache
maintenance. -/

namespace Sys2Proof.Machine

/-! ## Requests (R459, R463-R470, R484) -/

/-- The requester of a packet. A core's engine carries the partition of its command, and its command (R456). -/
def packetReq (s : State) (node who cls : Nat) (owner : Option Nat) : Req :=
  let c := if cls = 3 then 2 else cls
  if node < 0x60 then ⟨node, s.cmdPart node, true, c, some (runKey (owner.getD (s.cmdOwner node)) (s.core node).run.prog)⟩
  else ⟨node, who, false, c, owner⟩

/-- The command a request is made for, as its deadline word says (R515): a core's own, or the one a packet of the host die names. -/
def forCmd (s : State) (node who : Nat) (cmd : Option (BitVec 32)) : Option Nat :=
  if node < 0x60 then some (s.cmdOwner node) else cmd.map (fun q => cmdKey who q.toNat)

/-- A node that sends requests. -/
def isRequester (node : Nat) : Bool := decide (node < 0x68)

/-- A malformed packet at a crucible (R470): discarded, counted and logged. -/
def discardPacket (s : State) (k node who addr : Nat) : State := (s.bump (Reg.crucMalform k) 1).logCruc k 0x050F node who addr

/-- A malformed request (R470): discarded, and answered poisoned with its deadline word (R515). -/
def malformed (s : State) (node who tag addr : Nat) (owner : Option Nat) : State :=
  let k := ingressOf s node (homeOf s addr)
  let s1 := poisonAt (discardPacket s k node who addr) k
  { s1 with fab := { s1.fab with lastResp := some ⟨node, tag, true, [], sourceDl s node owner⟩ } }

/-- A request's tracker entry, with the answer its response will bring (R464) and the deadline word its source sets for the command it is made for
(R515). A request that no path was open to depends on its ingress crucible alone. -/
def trackReq (s0 s : State) (r : Req) (tag addr kind : Nat) (agent : Agent) (owner : Option Nat) (poisoned : Bool) (data : List Byte) : State :=
  let k := ingressOf s0 r.node (homeOf s0 addr)
  let ts := (pathOf s0 r addr).getD [.crucible (Fin.ofNat 4 k)]
  pushTrack s ⟨r.node, tag, k, ts, kind, r.cls, poisoned, data, false, false, sourceDl s0 r.node owner, r.ident, addr,
    trackSource r.node k (decide (kind = 2)) agent⟩

/-- Whether a request can enter: a requester's node whose port does not pause, within one 128-byte granule, a free tag and a free entry of its share; a
request to DRAM waits while a map is being installed (R524 step 1). -/
def canIssue (s : State) (node tag addr len : Nat) (csr : Bool) (agent : Agent) : Bool :=
  let k := ingressOf s node (homeOf s addr)
  isRequester node && decide (addr % 128 + len ≤ 128) && trackRoom s k node (trackSource node k csr agent) tag &&
    !(decide (node < 0x60) && portPauses s node) && !(mapHolds s && decide (addrKind addr = .dram))

/-- The data of a poisoned response to a read (R527). -/
def Poison.bytes (p : Poison) (n : Nat) : List Byte :=
  match p with
  | .mem c => poisonBytes c n
  | _ => poisonBytes 0 n

/-- A read of memory or of a core's window as a packet asks for it: whether its answer is poisoned, and the data. An uncorrectable word of a window
answers MEM_POISONED (R94). -/
def packetRead (s : State) (r : Req) (ecc : CopyEcc) (a n : Nat) : State × Bool × List Byte :=
  match addrKind a with
  | .window c off =>
    let x := checkReq s r a false
    let acc : Accessor := .ident (Fin.ofNat 21 r.ident)
    match x.2 with
    | .error p => (x.1, true, p.bytes n)
    | .ok _ =>
      if reachable x.1 r a then
        let s1 := windowMeets x.1 acc c off false ecc.sp
        let w := windowAccess s1 acc c off n none
        (w.1, w.2.isNone, w.2.getD (poisonBytes (if windowServes s1 acc c false then 0x0404 else 0) n))
      else (poisonAt x.1 (ingressOf x.1 r.node (homeOf x.1 a)), true, poisonBytes 0 n)
  | _ =>
    let x := readReq s r ecc.mem a n
    match x.2 with
    | .ok bs => (x.1, false, bs)
    | .error p => (x.1, true, p.bytes n)

/-- A write of memory or of a core's window as a packet asks for it: whether its answer is poisoned. -/
def packetWrite (s : State) (r : Req) (ecc : CopyEcc) (a : Nat) (bs : List Byte) : State × Bool :=
  match addrKind a with
  | .window c off =>
    let x := checkReq s r a true
    let acc : Accessor := .ident (Fin.ofNat 21 r.ident)
    match x.2 with
    | .error _ => (x.1, true)
    | .ok _ => if reachable x.1 r a then
        let w := windowAccess (windowMeets x.1 acc c off true ecc.sp) acc c off bs.length (some bs)
        (w.1, w.2.isNone)
      else (poisonAt x.1 (ingressOf x.1 r.node (homeOf x.1 a)), true)
  | _ => let x := writeReq s r ecc.mem a bs
    (x.1, x.2.isSome)

/-- What a read's line meets: an error of the cached line, or of the DRAM line (R484, R526). -/
def lineMeets (addr : BitVec 48) (ecc : CopyEcc) : CacheEcc → CopyEcc
  | .clean => ecc
  | e => { ecc with mem := .cache addr e }

/-- RD (R459, R463, R465, R484, R493). -/
def execRd (node : BitVec 8) (who : Ident) (tag : BitVec 12) (cls : BitVec 2) (addr : BitVec 48) (want : ReadFor) (ecc : CopyEcc) (cache : CacheEcc)
    (t : Nat) (s : State) : Out :=
  let s := s.at t
  let a := addr.toNat
  let n := want.len.toNat
  let owner := forCmd s node.toNat who.val want.cmd
  if !isRequester node.toNat then .next s
  else if n = 0 ∨ 128 < n then .next (malformed s node.toNat who.val tag.toNat a owner)
  else if !canIssue s node.toNat tag.toNat a n false want.agent then .next s
  else
    let r := packetReq s node.toNat who.val cls.toNat owner
    let x := packetRead s r (lineMeets addr ecc cache) a n
    .next (poisonRuns s (trackReq s x.1 r tag.toNat a 0 want.agent owner x.2.1 x.2.2))

/-- WR (R463, R467, R383): staged for its command when the packet says so, otherwise committed. A staged write that finds no room waits. -/
def execWr (node : BitVec 8) (who : Ident) (tag : BitVec 12) (cls : BitVec 2) (addr : BitVec 48) (want : WriteFor) (data : List Byte)
    (t : Nat) (s : State) : Out :=
  let s := s.at t
  let a := addr.toNat
  let owner := forCmd s node.toNat who.val want.cmd
  if !isRequester node.toNat then .next s
  else if data.length = 0 ∨ 128 < data.length then .next (malformed s node.toNat who.val tag.toNat a owner)
  else if !canIssue s node.toNat tag.toNat a data.length false want.agent then .next s
  else
    let r0 := packetReq s node.toNat who.val cls.toNat owner
    let r := if want.staged then r0 else { r0 with owner := none }
    let x := packetWrite s r want.ecc a data
    .next (orWait s (poisonRuns s (trackReq s x.1 r tag.toNat a 1 want.agent owner x.2 [])))

/-- REC (R469, R486-R489). -/
def execRecPacket (node : BitVec 8) (who : Ident) (tag : BitVec 12) (cls : BitVec 2) (addr : BitVec 48) (sq : BitVec 32) (tile : BitVec 88)
    (base : BitVec 48) (rowsM1 : BitVec 16) (data : List Byte) (t : Nat) (s : State) : Out :=
  let s := s.at t
  let a := addr.toNat
  let owner := forCmd s node.toNat who.val (some sq)
  if !isRequester node.toNat then .next s
  else if data.length < 16 ∨ 128 < data.length ∨ data.length % 16 ≠ 0 then .next (malformed s node.toNat who.val tag.toNat a owner)
  else if !canIssue s node.toNat tag.toNat a data.length false .collective then .next s
  else
    let r := packetReq s node.toNat who.val cls.toNat owner
    let x := recReq s r a (leBytes 11 tile.toNat) base.toNat (rowsM1.toNat + 1) data
    .next (orWait s (trackReq s x.1 r tag.toNat a 1 .collective owner x.2.isSome []))

/-- A response of a kind returns to its requester (R465, R466). -/
def respond (s : State) (node tag kind : Nat) : State :=
  match s.fab.track.find? (fun e => decide (e.node = node) && decide (e.tag = tag)) with
  | some e => if e.kind = kind then answer s node tag else s
  | none => s

/-- RDRSP (R465, R466). -/
def execRdrsp (node : BitVec 8) (tag : BitVec 12) (s : State) : Out := .next (respond s node.toNat tag.toNat 0)
/-- WRACK (R463, R465, R466). -/
def execWrack (node : BitVec 8) (tag : BitVec 12) (s : State) : Out := .next (respond s node.toNat tag.toNat 1)
/-- CSRRSP (R463, R465, R466). -/
def execCsrrsp (node : BitVec 8) (tag : BitVec 12) (s : State) : Out := .next (respond s node.toNat tag.toNat 2)

/-! ## The link layer (R471-R474) -/

/-- The key of a direction; `up` is direction A of a lateral module (R458), and a vertical port's direction to its crucible. -/
def linkKey (link : Nat) (up : Bool) : Nat := 2 * link + (if up then 1 else 0)

/-- A direction of a link. -/
def State.link (s : State) (key : Nat) : LinkDir := sget LinkDir.zero s.fab.links key
/-- A direction of a link replaced. -/
def State.setLink (s : State) (key : Nat) (x : LinkDir) : State :=
  { s with fab := { s.fab with links := sput LinkDir.zero s.fab.links key x } }

/-- Whether a link carries packets: a module in ACTIVE or NARROW, a vertical port in ACTIVE. -/
def linkUp (s : State) (link : Nat) : Bool :=
  if link < 26 then moduleUp s link else decide (s.regFld (Reg.puntyVstat (link - 26)) 0 2 = 1)

/-- The words of a channel that the receiver still holds. -/
def heldWords (x : LinkDir) (vc : Nat) : Nat := (sget 0 x.sent vc + 65536 - sget 0 x.freed vc % 65536) % 65536

/-- Whether credits cover a packet (R471): its channel's dedicated words alone, or the shared ones that the channels leave. -/
def creditsCover (lateral : Bool) (x : LinkDir) (vc words : Nat) : Bool :=
  let ded := if lateral then 128 else 32
  let shared := if lateral then 1280 else 320
  decide (heldWords x vc + words ≤ ded) ||
    decide (((List.range 6).foldl (fun n v => n + (heldWords x v - ded)) 0) + words ≤ shared)

/-- Whether the retry buffer takes a packet (R473). -/
def retryRoom (lateral : Bool) (x : LinkDir) (words : Nat) : Bool :=
  decide (x.unacked.length < 128) && decide ((x.unacked.foldl (fun n u => n + u.words) words) * 32 ≤ (if lateral then 32768 else 8192))

/-- ERRLIM, 0 acting as 1. -/
def errLimit (s : State) : Nat := max 1 (s.regFld Reg.puntyCfg 0 8)

/-- The crucible that logs a link's events: the lower-numbered end. -/
def linkCrucible (link : Nat) : Nat := if link < 26 then (moduleCrucibles link).headD 0 else (link - 26) / 24

/-- A module enters RECOVER (R478), or a vertical port does (R476). -/
def enterRecover (s : State) (link : Nat) : State :=
  let s1 := { s with fab := { s.fab with since := sput 0 s.fab.since link s.now } }
  if link < 26 then (s1.setRegFld (Reg.puntyMstat link) 0 3 2).bumpSat (Reg.puntyMev link) 0 16
  else s1.setRegFld (Reg.puntyVstat (link - 26)) 0 2 2

/-! ## Pairs and attachments (R480, R481) -/

/-- The state of a module. -/
def mstate (s : State) (m : Nat) : Nat := s.regFld (Reg.puntyMstat m) 0 3

/-- The weight of a module (R474). -/
def mweight (s : State) (m : Nat) : Nat := if mstate s m = 1 then 2 else if mstate s m = 3 then 1 else 0

/-- PUNTY_STAT's bit of a pair's condition follows; whether it has just come about. -/
def setCond (s : State) (bit : Nat) (b : Bool) : State × Bool :=
  (s.setRegBit Reg.puntyStat bit b, b && !s.regBit Reg.puntyStat bit)

/-- A lateral pair judged: FATAL when no module carries traffic, DEGRADED below the budget of three full modules; while a module trains neither is. -/
def judgePair (s : State) (q : Nat) : State :=
  let ms := (List.range 4).map (4 * q + ·)
  let w := ms.foldl (fun n m => n + mweight s m) 0
  let training := ms.any (fun m => decide (mstate s m = 0))
  let k := (moduleCrucibles (4 * q)).headD 0
  let hi := (moduleCrucibles (4 * q)).getD 1 0
  let d := setCond s (4 + q) (!training && decide (w < 6))
  let s1 := if d.2 then d.1.logCruc k 0x0509 0xFF 0 0 else d.1
  let f := setCond s1 q (!training && decide (w = 0))
  if f.2 then startReset 3 hi 13 false (f.1.logCruc k 0x050A 0xFF 0 0) else f.1

/-- The attachments lost: every module of the host or the sensor die at one crucible is REMOVED (R481). -/
def attachLost (s : State) : List Nat := [16, 18, 20, 22].filter (fun m => decide (mstate s m = 4) && decide (mstate s (m + 1) = 4))

/-- The entries that a port die's requests have at the crucible of an attachment. -/
def attachEntry (m : Nat) (e : TrackEntry) : Bool := decide (e.node = (if m < 20 then 0x64 else 0x65)) && decide (e.cruc = linkCrucible m)

/-- The attachments judged: ATTDEG while one is lost; each that has just been lost logs ATTACH_LOST (R502), and the requests sent through it complete
poisoned (R457). -/
def judgeAttach (s : State) : State :=
  let lost := attachLost s
  let new := lost.filter (fun m => !s.fab.lostAttach.contains m)
  let s1 := (s.setRegBit Reg.puntyStat 8 (!lost.isEmpty))
  new.foldl (fun s m => fenceEntries (s.logCruc (linkCrucible m) 0x0511 0xFF 0 0) (.crucible (Fin.ofNat 4 (linkCrucible m))) 0 (attachEntry m))
    { s1 with fab := { s1.fab with lostAttach := lost } }

/-- What a module's change of state brings about. -/
def judgeModule (s : State) (m : Nat) : State :=
  if m < 16 then judgePair s (m / 4)
  else if m < 24 then judgeAttach s
  else if mstate s m = 4 then startReset 3 (linkCrucible m) 13 false (s.logCruc (linkCrucible m) 0x050A 0xFF 0 0)
  else s

/-- Both directions of a link start anew. -/
def clearLink (s : State) (link : Nat) : State := (s.setLink (2 * link) LinkDir.zero).setLink (2 * link + 1) LinkDir.zero

/-- A module leaves service (R478). -/
def removeModule (s : State) (m : Nat) : State :=
  let s1 := clearLink ((s.setRegFld (Reg.puntyMstat m) 0 3 4).setRegFld (Reg.puntyMstat m) 4 3 0) m
  judgeModule (s1.logCruc (linkCrucible m) 0x0508 0xFF 0 0) m

/-- A CRC failure recorded: ERRLIM of them within ERRWIN take the link to RECOVER (R473). -/
def crcFailure (s : State) (link : Nat) : State :=
  let s1 := if link < 26 then s.bump (Reg.puntyMcrc link) 1 else s.bump (Reg.puntyVcrc (link - 26)) 1
  let win := s1.regFld Reg.puntyCfg 8 24
  let ts := (sget [] s1.fab.crcTimes link).filter (fun x => decide (s1.now < x + win)) ++ [s1.now]
  let hit := decide (errLimit s1 ≤ ts.length)
  let s2 := { s1 with fab := { s1.fab with crcTimes := sput [] s1.fab.crcTimes link (if hit then [] else ts) } }
  if hit then
    let s3 := enterRecover s2 link
    if link < 26 then judgeModule s3 link else s3
  else s2

/-- A replay counted. -/
def countReplay (s : State) (link : Nat) : State :=
  if link < 26 then s.bump (Reg.puntyMreplay link) 1 else s.bump (Reg.puntyVreplay (link - 26)) 1

/-- The packets of a retry buffer that the receiver has not yet taken. -/
def undelivered (x : LinkDir) : List LinkPkt :=
  if x.unacked.any (fun u => decide (u.sq = x.expect)) then x.unacked.dropWhile (fun u => decide (u.sq ≠ x.expect)) else []

/-- What an acknowledgement of `sq` at a time leaves in the retry buffer; one of a packet that the receiver has not taken covers none. -/
def ackTo (x : LinkDir) (sq now : Nat) : LinkDir :=
  if x.unacked.any (fun u => decide (u.sq = sq)) && !(undelivered x).any (fun u => decide (u.sq = sq)) then
    { x with unacked := (x.unacked.dropWhile (fun u => decide (u.sq ≠ sq))).drop 1, wait := now, replayed := false }
  else x

/-- Failed replays in a row. -/
def setFails (s : State) (key n : Nat) : State := { s with fab := { s.fab with replayFails := sput 0 s.fab.replayFails key n } }

/-- The sender replays (R473). A replay after which nothing has been acknowledged has failed (R481). -/
def startReplay (s : State) (link key : Nat) : State :=
  let x := s.link key
  let s1 := countReplay (s.setLink key { x with wait := s.now, replayed := true }) link
  setFails s1 key (if x.replayed then sget 0 s.fab.replayFails key + 1 else 0)

/-! ### Packets and control words (R467, R470-R472) -/

/-- Whether a packet's TYPE is that of a response (R468). -/
def packetResponds (h : PacketHead) : Bool := [0x04, 0x05, 0x07, 0x0C].contains h.type.toNat

/-- The lengths a type may have (R468). -/
def lenOk (type len : Nat) : Bool :=
  match type with
  | 0x01 | 0x02 => decide (1 ≤ len) && decide (len ≤ 128)
  | 0x03 => decide (16 ≤ len) && decide (len ≤ 128) && decide (len % 16 = 0)
  | 0x04 | 0x07 | 0x08 => decide (len ≤ 128)
  | 0x05 => decide (len = 0)
  | 0x06 => decide (len ≤ 64)
  | 0x09 => decide (len = 32)
  | 0x0A | 0x0B => decide (len = 4) || decide (len = 8)
  | 0x0C => decide (len = 0) || decide (len = 4) || decide (len = 8)
  | _ => false

/-- The reserved bits of TSPEC are zero (R468). -/
def tspecOk (type tspec : Nat) : Bool :=
  match type with
  | 0x02 => decide (tspec / 2 ^ 32 = 0)
  | 0x08 => decide (bitsOf tspec 12 20 = 0)
  | _ => decide (tspec = 0)

/-- Whether a packet is well formed (R467, R468, R470): its TYPE, its LEN and its reserved bits; `extOk` says that the reserved bytes of a REC's extension
are zero. -/
def packetOk (h : PacketHead) (extOk : Bool) : Bool :=
  lenOk h.type.toNat h.len.toNat && decide (h.flags.toNat < 4) && decide (h.cls.toNat < 4) && decide (h.ident.toNat < 32) &&
    decide (h.tag.toNat < 4096) && tspecOk h.type.toNat h.tspec.toNat && (extOk || decide (h.type.toNat ≠ 3))

/-- The words of a packet (R467): header, a REC's extension, and its data; RD and CSRRD bring none. -/
def packetWords (h : PacketHead) : Nat :=
  1 + (if h.type.toNat = 3 then 1 else 0) + (if h.type.toNat = 1 ∨ h.type.toNat = 0x0A then 0 else (h.len.toNat + 31) / 32)

/-- The virtual channel of a packet (R471): 3 × kind + class, class 3 as B; a response takes the class of its request. -/
def packetVc (s : State) (h : PacketHead) : Nat :=
  let own := h.cls.toNat % 4
  if packetResponds h then
    let e := s.fab.track.find? (fun e => decide (e.node = h.node.toNat) && decide (e.tag = h.tag.toNat))
    3 + min 2 ((e.map (·.cls)).getD own)
  else min 2 own

/-- What picks a packet's bucket (R474): ADDR[14:7] XOR ADDR[22:15] where it has an address, else SRCNODE. -/
def packetHash (h : PacketHead) : Nat :=
  if [0x01, 0x02, 0x03, 0x0A, 0x0B].contains h.type.toNat then bitsOf h.addr.toNat 7 8 ^^^ bitsOf h.addr.toNat 15 8 else h.node.toNat

/-- The crucible that receives from a direction of a link (R458); none where a core or a port die or Lehr die does. -/
def receiver (link : Nat) (up : Bool) : Option Nat :=
  if link < 16 then (moduleCrucibles link)[if up then 1 else 0]?
  else if !up then none
  else some (linkCrucible link)

/-- A packet taken in order by a crucible that finds it malformed (R470). -/
def takePacket (s : State) (k : Nat) (h : PacketHead) (extOk : Bool) : State :=
  if packetOk h extOk then s
  else
    let s1 := discardPacket s k h.node.toNat (h.ident.toNat % 32) h.addr.toNat
    if packetResponds h then s1
    else
      let s2 := poisonAt s1 k
      { s2 with fab := { s2.fab with lastResp := some ⟨h.node.toNat, h.tag.toNat % 4096, true, [], h.dl⟩ } }

/-- CRC-16 of a list of bytes (R472: polynomial 0x1021, initial value 0xFFFF, most significant bit first). -/
def crc16 (bs : List Byte) : Nat :=
  bs.foldl (fun c b => (List.range 8).foldl (fun c _ => if 0x8000 ≤ c then (c * 2 % 65536) ^^^ 0x1021 else c * 2 % 65536) (c ^^^ (b.toNat * 256))) 0xFFFF

/-- Whether a link control word passes its CRC (R472): KIND, byte 1 and CREDIT in bytes 0 to 3, bytes 4 and 5 zero. -/
def wordOk (kind b1 credit : Nat) (crc : BitVec 16) : Bool :=
  decide (crc.toNat = crc16 ([BitVec.ofNat 8 kind, BitVec.ofNat 8 b1] ++ leBytes 2 credit ++ [0#8, 0#8]))

/-! ### The modules of a pair or an attachment (R474) -/

/-- The modules among which a sender spreads its packets. -/
def groupOf (link : Nat) : List Nat :=
  if link < 16 then (List.range 4).map (link / 4 * 4 + ·) else if link < 24 then [link / 2 * 2, link / 2 * 2 + 1] else [link]

/-- The layout of the buckets: each module as often as its weight, in ascending order. -/
def buckets (ms ws : List Nat) : List Nat := (ms.zip ws).flatMap (fun p => List.replicate p.2 p.1)

/-- The module of a packet under a layout. -/
def bucketOf (ms ws : List Nat) (hash : Nat) : Option Nat :=
  let bs := buckets ms ws
  if bs = [] then none else bs[hash % bs.length]?

/-- The weights by which a direction's next packet is laid out: the present ones once every packet of the old layout has been delivered. -/
def layoutNow (s : State) (link : Nat) (up : Bool) : List Nat :=
  let ms := groupOf link
  let present := ms.map (mweight s)
  if ms.all (fun m => (undelivered (s.link (linkKey m up))).isEmpty) then present
  else sget present s.fab.layout (linkKey (ms.headD 0) up)

/-- Whether a new packet goes over a link: a vertical port and a Lehr attachment have no choice. -/
def layoutAllows (s : State) (link : Nat) (up : Bool) (hash : Nat) : Bool :=
  decide (24 ≤ link) || decide (bucketOf (groupOf link) (layoutNow s link up) hash = some link)

/-- The layout in use noted. -/
def noteLayout (s : State) (link : Nat) (up : Bool) : State :=
  if 24 ≤ link then s
  else { s with fab := { s.fab with layout := sput [] s.fab.layout (linkKey ((groupOf link).headD 0) up) (layoutNow s link up) } }

/-- A packet appended to a direction's retry buffer under its next number (R473); its wait for an ACK begins where none was under way. -/
def LinkDir.push (x : LinkDir) (p : LinkPkt) (now : Nat) : LinkDir :=
  { x with
    next := (x.next + 1) % 256, unacked := x.unacked ++ [{ p with sq := x.next }], sent := sput 0 x.sent p.vc ((sget 0 x.sent p.vc + p.words) % 65536)
    wait := if x.unacked.isEmpty then now else x.wait }

/-- The packet a direction sends next. -/
def newPacket (s : State) (h : PacketHead) : LinkPkt := ⟨0, packetWords h, packetVc s h, h.node.toNat, h.tag.toNat, packetHash h⟩

/-- Whether the sender sends a new packet over a direction (R471, R473, R474). -/
def mayPush (s : State) (link : Nat) (up : Bool) (h : PacketHead) : Bool :=
  let x := s.link (linkKey link up)
  creditsCover (decide (link < 26)) x (packetVc s h) (packetWords h) && retryRoom (decide (link < 26)) x (packetWords h) && layoutAllows s link up (packetHash h)

/-- PACKET_RECEIVE (R470, R471, R473, R474): the sender's next packet, or one it replays, reaches the receiver, which delivers it in LSEQ order, or
discards it and sends NAK with the last good LSEQ. A new packet that credits, the retry buffer or the layout do not admit is not sent. -/
def execPacketReceive (link : Fin 122) (up : Bool) (sq : BitVec 8) (head : PacketHead) (extOk crcOk : Bool) (t : Nat) (s : State) : Out :=
  let s := s.at t
  let key := linkKey link.val up
  let x := s.link key
  let new := decide (sq.toNat = x.next)
  if !linkUp s link.val then .next s
  else if new && !mayPush s link.val up head then .next s
  else if !new && !x.unacked.any (fun u => decide (u.sq = sq.toNat)) then .next s
  else
    let s1 := if new then (noteLayout s link.val up).setLink key (x.push (newPacket s head) s.now) else s
    let x1 := s1.link key
    if !crcOk then .next (crcFailure (s1.setLink key { x1 with nak := some ((x1.expect + 255) % 256) }) link.val)
    else if sq.toNat ≠ x1.expect then .next s1
    else
      let s2 := s1.setLink key { x1 with expect := (x1.expect + 1) % 256, nak := none }
      match receiver link.val up with
      | none => .next s2
      | some k => .next (takePacket s2 k head extOk)

/-- ACK (R472, R473): cumulative; a word that fails its CRC is ignored. -/
def execAck (link : Fin 122) (up : Bool) (sq : BitVec 8) (crc : BitVec 16) (s : State) : Out :=
  let key := linkKey link.val up
  let x := s.link key
  let y := ackTo x sq.toNat s.now
  if !wordOk 0x81 sq.toNat 0 crc ∨ y.unacked = x.unacked then .next s else .next (setFails (s.setLink key y) key 0)

/-- NAK (R472, R473): the packets up to the last good one are acknowledged and the rest is replayed. A word that fails its CRC, or that the receiver has
not sent, does nothing. -/
def execNak (link : Fin 122) (up : Bool) (sq : BitVec 8) (crc : BitVec 16) (t : Nat) (s : State) : Out :=
  let s := s.at t
  let key := linkKey link.val up
  let x := s.link key
  if !wordOk 0x82 sq.toNat 0 crc ∨ x.nak ≠ some sq.toNat then .next s
  else .next (startReplay (s.setLink key { ackTo x sq.toNat s.now with nak := none }) link.val key)

/-- CREDIT (R472): the running total of words freed on a channel. -/
def execCredit (link : Fin 122) (up : Bool) (vc : Fin 6) (total : BitVec 16) (crc : BitVec 16) (s : State) : Out :=
  let key := linkKey link.val up
  let x := s.link key
  if !wordOk 0x83 vc.val total.toNat crc then .next s else .next (s.setLink key { x with freed := sput 0 x.freed vc.val total.toNat })

/-- IDLE (R472): nothing follows from it. -/
def execIdle (_link : Fin 122) (_up : Bool) (s : State) : Out := .next s

/-- The reaction to 16 successive failed replays on a module whose sideband does not answer (R481). -/
def replayFatal (s : State) (link key : Nat) : State :=
  let s1 := setFails (s.logCruc (linkCrucible link) 0x050A 0xFF 0 0) key 0
  if link < 16 then startReset 3 ((moduleCrucibles link).getD 1 0) 13 false s1
  else if 24 ≤ link then startReset 3 (linkCrucible link) 13 false s1
  else s1

/-- REPLAY_TIMEOUT (R473, R481): no ACK within 2 µs makes the sender replay; the sixteenth failed replay in a row of a module, with a silent sideband, is
fatal. DEDUCED: a sideband that answers starts the count again. -/
def execReplayTimeout (link : Fin 122) (up : Bool) (sideband : Bool) (t : Nat) (s : State) : Out :=
  let s := s.at t
  let key := linkKey link.val up
  let x := s.link key
  if x.unacked.isEmpty ∨ s.now < x.wait + 2000 ∨ !linkUp s link.val then .next s
  else
    let s1 := startReplay s link.val key
    let s2 := if sideband then setFails s1 key 0 else s1
    if sget 0 s2.fab.replayFails key < 16 ∨ 26 ≤ link.val then .next s2 else .next (replayFatal s2 link.val key)

/-! ### What a module in RECOVER leaves behind (R478, R479) -/

/-- The entries of undelivered packets completed poisoned (R466). -/
def failPackets (s : State) (m : Nat) (us : List LinkPkt) : State :=
  let g : Target := if m < 16 then .pair (Fin.ofNat 4 (m / 4)) else .crucible (Fin.ofNat 4 (linkCrucible m))
  if us = [] then s else fenceEntries s g 0 (fun e => us.any (fun u => decide (u.node = e.node) && decide (u.tag = e.tag)))

/-- A module's undelivered packets resent, in order, over the modules of some weights (R478). -/
def resendOver (s : State) (up : Bool) (ms ws : List Nat) : List LinkPkt → State
  | [] => s
  | u :: us =>
    match bucketOf ms ws u.hash with
    | none => s
    | some m => resendOver (s.setLink (linkKey m up) ((s.link (linkKey m up)).push u s.now)) up ms ws us

/-- What a module that entered RECOVER had not delivered goes over the other modules, over itself once it is back where there is no other, and completes
poisoned where neither carries traffic. `s0` is the state in RECOVER. -/
def rescue (s0 s : State) (m : Nat) (up : Bool) : State :=
  let us := undelivered (s0.link (linkKey m up))
  let others := (groupOf m).map (mweight s0)
  let now := (groupOf m).map (mweight s)
  if bucketOf (groupOf m) others 0 ≠ none then resendOver s up (groupOf m) others us
  else if bucketOf (groupOf m) now 0 ≠ none then resendOver s up (groupOf m) now us
  else failPackets s m us

/-- Both directions of it. -/
def rescueBoth (s0 s : State) (m : Nat) : State := rescue s0 (rescue s0 s m false) m true

/-! ## Lateral modules (R478, R479) -/

/-- The lanes of a module per direction, and its redundant ones (R477). -/
def moduleLanes (m : Nat) : Nat := if m < 24 then 64 else 32
/-- The redundant lanes of a module per direction (R477). -/
def moduleSpares (m : Nat) : Nat := if m < 24 then 4 else 2

/-- A failed lane as PUNTY_MFAILm shows it: 0x7F where the module has no lane of that number. -/
def laneShown (m n : Nat) : Nat := if n < moduleLanes m then n else 0x7F

/-- The lanes as a training leaves them (R477, R501): no more redundant lanes are in use, and no others have failed, than the module has. -/
def setLanes (s : State) (m : Nat) (l : LaneReport) : State :=
  let w := s.reg (Reg.puntyMstat m)
  let f := setFld (setFld (setFld (setFld 0#64 0 7 (laneShown m l.firstA.toNat)) 8 7 (laneShown m l.firstB.toNat)) 16 7
    (min (moduleLanes m) l.failA.toNat)) 24 7 (min (moduleLanes m) l.failB.toNat)
  (s.setReg (Reg.puntyMstat m) (setFld (setFld w 8 3 (min (moduleSpares m) l.repA.toNat)) 12 3 (min (moduleSpares m) l.repB.toNat))).setReg
    (Reg.puntyMfail m) f

/-- The rate in service: 32 GT/s, 16 GT/s for the Lehr attachments. -/
def serviceRate (m : Nat) : Nat := if m < 24 then 4 else 3

/-- A module in service at 64 lanes. -/
def activateLink (s : State) (m : Nat) : State :=
  let s1 := ((s.setRegFld (Reg.puntyMstat m) 0 3 1).setRegBit (Reg.puntyMstat m) 3 false).setRegFld (Reg.puntyMstat m) 4 3 (serviceRate m)
  { s1 with fab := { s1.fab with narrowed := s1.fab.narrowed.filter (fun x => decide (x ≠ m)) } }

/-- A module in service at 32 lanes. -/
def narrowTo (s : State) (m : Nat) (upper : Bool) : State :=
  let s1 := ((s.setRegFld (Reg.puntyMstat m) 0 3 3).setRegBit (Reg.puntyMstat m) 3 upper).setRegFld (Reg.puntyMstat m) 4 3 (serviceRate m)
  { s1 with fab := { s1.fab with narrowed := s1.fab.narrowed ++ [m] } }.logCruc (linkCrucible m) 0x0507 0xFF 0 0

/-- LANE_MONITOR_FLAG (R478). -/
def execLaneMonitorFlag (m : Fin 26) (t : Nat) (s : State) : Out :=
  let s := s.at t
  if mstate s m.val ≠ 1 then .next s else .next (judgeModule (enterRecover s m.val) m.val)

/-- MODULE_TRAINING_DONE (R477, R478): modules 24 and 25 have no width degrade. -/
def execModuleTrainingDone (m : Fin 26) (res : TrainRes) (lanes : LaneReport) (s : State) : Out :=
  let i := m.val
  if mstate s i ≠ 0 then .next s
  else
    let s1 := setLanes s i lanes
    .next (releaseDomains (match res with
    | .full => judgeModule (activateLink s1 i) i
    | .narrow h => if 24 ≤ i then removeModule s1 i else judgeModule (narrowTo s1 i h) i
    | .fail => removeModule s1 i))

/-- MODULE_RETRAIN_DONE (R478): repair, NARROW once, or REMOVED; what the module had not delivered has gone over the others. -/
def execModuleRetrainDone (m : Fin 26) (res : TrainRes) (lanes : LaneReport) (s : State) : Out :=
  let i := m.val
  if mstate s i ≠ 2 then .next s
  else
    let s1 := clearLink (setLanes s i lanes) i
    let s2 := match res with
      | .full => judgeModule ((activateLink s1 i).logCruc (linkCrucible i) 0x0506 0xFF 0 0) i
      | .narrow h => if 24 ≤ i ∨ s1.fab.narrowed.contains i then removeModule s1 i else judgeModule (narrowTo s1 i h) i
      | .fail => removeModule s1 i
    .next (releaseDomains (poisonRuns s (rescueBoth s s2 i)))

/-- RECOVER_TIMEOUT (R478): 50 µs in RECOVER. -/
def execRecoverTimeout (m : Fin 26) (t : Nat) (s : State) : Out :=
  let s := s.at t
  if mstate s m.val ≠ 2 ∨ s.now < sget 0 s.fab.since m.val + 50000 then .next s
  else .next (releaseDomains (poisonRuns s (rescueBoth s (removeModule s m.val) m.val)))

/-- SIDEBAND_TIMEOUT (R479): the module's undelivered transactions, those of its retry buffers and any others that were under way on it, complete poisoned,
and it goes to REMOVED. -/
def execSidebandTimeout (m : Fin 26) (lost : List (BitVec 8 × BitVec 12)) (t : Nat) (s : State) : Out :=
  let s := s.at t
  if mstate s m.val ≠ 2 ∨ s.now < sget 0 s.fab.since m.val + 2000 then .next s
  else
    let us := undelivered (s.link (2 * m.val)) ++ undelivered (s.link (2 * m.val + 1)) ++
      lost.map (fun p => ⟨0, 0, 0, p.1.toNat, p.2.toNat, 0⟩)
    .next (removeModule (poisonRuns s (failPackets s m.val us)) m.val)

/-! ## Vertical ports (R476) -/

/-- VPORT_RECOVER_DONE (R475, R476): the bond test of a port in RECOVER, or in TRAINING after a reset of its die, ends. A lost port fences its core's
transactions, and Lehr A quarantines the core until a device cold reset. -/
def execVportRecoverDone (core : Fin 96) (res : VportRes) (spup spdn : BitVec 6) (badgrp : BitVec 5) (s : State) : Out :=
  let c := core.val
  let off := Reg.puntyVstat c
  let st := s.regFld off 0 2
  if st ≠ 2 ∧ st ≠ 0 then .next s
  else
    let s1 := ((s.setRegFld off 4 6 (min 44 spup.toNat)).setRegFld off 10 6 (min 44 spdn.toNat)).setRegFld off 16 5 badgrp.toNat
    match res with
    | .remapped => .next (s1.setRegFld off 0 2 1)
    | .half h => .next ((((s1.setRegFld off 0 2 1).setRegBit off 2 true).setRegBit off 3 h).logCruc (c / 24) 0x050B c 0 0)
    | .lost =>
      let s2 := clearLink (s1.setRegFld off 0 2 3) (26 + c)
      let s3 := (fenceTarget s2 (.core core)).logCruc (c / 24) 0x050C c 0 0
      let s4 := fenceEntries s3 (.core core) 0 (fun e => decide (e.node = c))
      .next (quarantineCore (s4.setCore c { s4.core c with portLost := true }) c)

/-! ## Fences and cache maintenance (R466, R485, R498) -/

/-- FENCE_TARGET (R466). -/
def execFenceTarget (g : Target) (s : State) : Out := .next (poisonRuns s (fenceTarget s g))
/-- TARGET_RELEASE (R466). -/
def execTargetRelease (g : Target) (s : State) : Out := .next (releaseTarget s g)

/-- A maintenance write: Gaffer firmware's alone; refused while one is in progress. -/
def startMaint (s : State) (who : Ident) (k : Nat) (inv : Bool) : State :=
  if who.val ≠ 16 then s
  else if s.regBit (Reg.crucCmstat k) 0 then s.setRegBit (Reg.crucStat k) 3 true
  else
    let s1 := s.setRegBit (Reg.crucCmstat k) 0 true
    if inv then dropCached s1 k (fun l => !lineStaged s l) else s1

/-- CLEAN (R485): the cache holds the one copy of its lines, so writing them back changes no content. -/
def execClean (who : Ident) (k : Fin 4) (s : State) : Out := .next (startMaint s who k.val false)
/-- CLEAN_INV (R485): no content changes either; every line without a staged byte is invalidated. -/
def execCleanInv (who : Ident) (k : Fin 4) (s : State) : Out := .next (startMaint s who k.val true)
/-- CACHE_MAINT_DONE (R485). -/
def execCacheMaintDone (k : Fin 4) (s : State) : Out := .next (s.setRegBit (Reg.crucCmstat k.val) 0 false)

/-- CRUC_EVLOG_READ (R497): the oldest event is read and removed; CRUC_EVADDR then shows the next one's address. -/
def execCrucEvlogRead (k : Fin 4) (s : State) : Out :=
  let l := sget EvLog.empty s.fab.logs k.val
  let l' := l.pop
  .next ({ s with readData := l.head, fab := { s.fab with logs := sput EvLog.empty s.fab.logs k.val l' } }.setReg (Reg.crucEvaddr k.val)
    (BitVec.ofNat 64 l'.headAddr))

end Sys2Proof.Machine
end

