-- ==== Sys2Proof/Machine/Blowpipe.lean ====
section
/-! DEFINITION. Blowpipe (R599-R617): ports, topologies and routes, deliveries of the outbound channels, and the inbound channels' generations. -/

namespace Sys2Proof.Machine

/-- Class 0x05 codes of R617 marked "Lehr A". -/
def codeBpRaised (c : Nat) : Bool := [0x0540, 0x0542, 0x0543, 0x0547, 0x0549, 0x054A].contains c

/-- An event logged in BLOWPIPE_EVLOG (R615, R617), 64 entries; a full log sets STAT.EVOVF. -/
def State.logBp (s : State) (code : Nat) : State :=
  let full := s.blow.log.full 64
  let s1 := { s with blow := { s.blow with log := s.blow.log.push 64 none (evWord code 0xFF 8 s.frmcnt) 0 } }
  let s2 := if full then s1.setRegBit Reg.blowpipeStat 1 true else s1
  if codeBpRaised code then s2.raise code 0xFF else s2

/-! ## Topology and routes (R602-R604) -/

/-- BLOWPIPE_TOPO.EN. -/
def topoOn (s : State) : Bool := s.regBit Reg.blowpipeTopo 0
/-- KIND; 5-7 act as 0. -/
def topoKind (s : State) : Nat := let k := s.regFld Reg.blowpipeTopo 1 3; if 4 < k then 0 else k
/-- DEVID. -/
def devId (s : State) : Nat := s.regFld Reg.blowpipeTopo 4 6
/-- NDEV of a ring. -/
def ringDevs (s : State) : Nat := max 1 (s.regFld Reg.blowpipeTopo 10 7)
/-- The size of a torus dimension (0 x, 1 y, 2 z). -/
def torusDim (s : State) (d : Nat) : Nat := s.regFld Reg.blowpipeTopo (17 + 2 * d) 2 + 1
/-- The stride of a torus dimension in device IDs. -/
def torusStride (s : State) (d : Nat) : Nat := ((List.range d).map (torusDim s)).foldl (· * ·) 1
/-- A device's coordinate in a dimension. -/
def torusAt (s : State) (id d : Nat) : Nat := id / torusStride s d % torusDim s d
/-- The device a step along a dimension away. -/
def torusStep (s : State) (d : Nat) (plus : Bool) : Nat :=
  let n := torusDim s d
  let c := torusAt s (devId s) d
  devId s - c * torusStride s d + (if plus then (c + 1) % n else (c + n - 1) % n) * torusStride s d

/-- The devices of the topology. -/
def topoDevices (s : State) : Nat :=
  match topoKind s with
  | 1 => 2
  | 2 => 4
  | 3 => ringDevs s
  | 4 => torusDim s 0 * torusDim s 1 * torusDim s 2
  | _ => 1

/-- The expected neighbour of a port (R603); none: the port is not used. -/
def expected (s : State) (b : Nat) : Option Nat :=
  let id := devId s
  match topoKind s with
  | 1 => some (if id = 0 then 1 else 0)
  | 2 => some ((id + b / 2 + 1) % 4)
  | 3 => let n := ringDevs s; some (if b < 3 then (id + 1) % n else (id + n - 1) % n)
  | 4 => if torusDim s (b / 2) = 1 then none else some (torusStep s (b / 2) (decide (b % 2 = 0)))
  | _ => none

/-- PSTAT.STATE of a port. -/
def portSt (s : State) (b : Nat) : Nat := s.regFld (Reg.blowpipePstat b) 0 2

/-- The weight of a port (R474, R604). -/
def portWeight (s : State) (b : Nat) : Nat := if portSt s b = 2 then 2 else if portSt s b = 3 then 1 else 0

/-- The ways towards a device in order of preference: sets of ports. -/
def waysTo (s : State) (dst : Nat) : List (List Nat) :=
  let id := devId s
  let toDev (d : Nat) : List Nat := (List.range 6).filter (fun b => decide (expected s b = some d))
  match topoKind s with
  | 1 => [toDev dst]
  | 2 => toDev dst :: ((List.range 4).filter (fun d => decide (d ≠ id) && decide (d ≠ dst))).map toDev
  | 3 =>
    let n := ringDevs s
    let up := (dst + n - id % n) % n
    if up ≤ n - up then [[0, 1, 2], [3, 4, 5]] else [[3, 4, 5], [0, 1, 2]]
  | 4 =>
    match (List.range 3).find? (fun d => decide (torusAt s dst d ≠ torusAt s id d)) with
    | none => []
    | some d =>
      let n := torusDim s d
      let up := (torusAt s dst d + n - torusAt s id d) % n
      let plus := toDev (torusStep s d true)
      let minus := toDev (torusStep s d false)
      if up ≤ n - up then [plus, minus] else [minus, plus]
  | _ => []

/-- The working ports a packet to a device may take; none where no port works, or the topology has no such device. -/
def routePorts (s : State) (dst : Nat) : Option (List Nat) :=
  if topoDevices s ≤ dst then none
  else ((waysTo s dst).map (fun ps => ps.filter (fun b => decide (portWeight s b ≠ 0)))).find? (fun ps => !ps.isEmpty)

/-- The port of a bucket (R474): each port's weight in ascending order. -/
def bucketPort (s : State) (ps : List Nat) (h : Nat) : Nat :=
  let slots := ps.flatMap (fun b => List.replicate (portWeight s b) b)
  slots.getD (h % slots.length) 0

/-- STAT.ROUTELOST: the devices currently without a route (R616). -/
def syncRoutes (s : State) : State :=
  let n := ((List.range (topoDevices s)).filter (fun d => decide (d ≠ devId s) && decide (routePorts s d = none))).length
  s.setRegFld Reg.blowpipeStat 2 7 (if topoOn s then n else 0)

/-- The flits of a port. -/
def State.bpPort (s : State) (b : Nat) : BpPort := sget BpPort.zero s.blow.ports b

/-- A port's flits changed. -/
def State.setBpPort (s : State) (b : Nat) (x : BpPort) : State := { s with blow := { s.blow with ports := sput BpPort.zero s.blow.ports b x } }

/-- A packet handed to its port (R600): it has a flit of its own, which the port keeps until an acknowledgement covers it. -/
def portSend (s : State) (m : BpMsg) : State :=
  let x := s.bpPort m.port
  let x' := { x with
    next := (x.next + 1) % 65536, unacked := x.unacked ++ [(x.next, m)], wait := if x.unacked.isEmpty then s.now else x.wait }
  let s1 := s.setBpPort m.port x'
  { s1 with blow := { s1.blow with sent := s1.blow.sent ++ [m] } }

/-- A packet sent (R604): to the device itself it takes no port; without a route it is dropped and logged. -/
def bpSend (s : State) (m : BpMsg) : State :=
  if m.dst = devId s then { s with blow := { s.blow with sent := s.blow.sent ++ [{ m with port := 6 }] } }
  else match routePorts s m.dst with
    | none => s.logBp 0x0543
    | some ps =>
      let h := match m.line with
        | some l => bitsOf l.addr 7 8 ^^^ bitsOf l.addr 15 8
        | none => m.gen
      portSend s { m with port := bucketPort s ps h }

/-- A port put into a state, its neighbour forgotten unless it is in service. -/
def setPort (s : State) (b st : Nat) : State := syncRoutes (s.setReg (Reg.blowpipePstat b) (setFld 0#64 0 2 st))

/-- The ports' training starts have the keys 200 + b beside the links' RECOVER times. -/
def trainPort (s : State) (b : Nat) : State :=
  let s1 := setPort s b 1
  { s1 with fab := { s1.fab with since := sput 0 s1.fab.since (200 + b) s1.now } }

/-- BLOWPIPE_TOPO written (R602, R615): while EN is 1 only EN can change. -/
def writeTopo (s : State) (v : Nat) : State :=
  let en := decide (v % 2 = 1)
  if topoOn s then
    if en then s
    else
      let s1 := s.setRegBit Reg.blowpipeTopo 0 false
      syncRoutes ((List.range 6).foldl (fun s b => setPort s b 0) { s1 with blow := { s1.blow with ports := [] } })
  else
    let s1 := s.setReg Reg.blowpipeTopo (BitVec.ofNat 64 (v % 2 ^ 23))
    if en then ((List.range 6).filter (fun b => (expected s1 b).isSome)).foldl trainPort s1 else s1

/-- BLOWPIPE_TOPO_WRITE (R602, R615). -/
def execBlowpipeTopoWrite (who : Ident) (v : BitVec 32) (t : Nat) (s : State) : Out :=
  let s := s.at t
  if mgmt who then .next (writeTopo s v.toNat) else .next s

/-- BP_PORT_TRAINING_DONE (R602): ACTIVE, NARROW, or DOWN when the neighbour is another device than the expected one. -/
def execBpPortTrainingDone (port : Fin 6) (lanes : BpLanes) (nbr : BitVec 6) (s : State) : Out :=
  let b := port.val
  if portSt s b ≠ 1 then .next s
  else if expected s b ≠ some nbr.toNat then .next ((setPort s b 0).logBp 0x0542)
  else
    let put (st : Nat) (h : Bool) : State :=
      let w := setBit (setFld (setBit (setFld 0#64 0 2 st) 2 h) 4 6 nbr.toNat) 10 true
      syncRoutes (s.setReg (Reg.blowpipePstat b) w)
    match lanes with
    | .all => .next (put 2 false)
    | .half h => .next ((put 3 h).logBp 0x0541)

/-- BP_TRAINING_TIMEOUT (R602): no training within 100 ms. -/
def execBpTrainingTimeout (port : Fin 6) (t : Nat) (s : State) : Out :=
  let s := s.at t
  let b := port.val
  if portSt s b ≠ 1 ∨ s.now < sget 0 s.fab.since (200 + b) + 100000000 then .next s else .next ((setPort s b 0).logBp 0x0540)

/-- The times of a port's replays within the latest 100 µs. -/
def recentReplays (s : State) (b : Nat) : List Nat := (sget [] s.blow.replays b).filter (fun x => decide (s.now ≤ x + 100000))

/-- A port trains anew (R602): the packets of its unacknowledged flits go out again on the other ports, or on another route (R604, R612). -/
def retrainPort (s : State) (b : Nat) : State :=
  let s1 := s.setBpPort b BpPort.zero
  let s2 := trainPort { s1 with blow := { s1.blow with replays := sput [] s1.blow.replays b [] } } b
  (s.bpPort b).unacked.foldl (fun u p => bpSend u p.2) s2

/-- BP_REPLAY_LIMIT (R602): 16 replays in 100 µs, or loss of lock, retrains the port. -/
def execBpReplayLimit (port : Fin 6) (lockLost : Bool) (t : Nat) (s : State) : Out :=
  let s := s.at t
  let b := port.val
  let many := decide (16 ≤ (recentReplays s b).length)
  if portWeight s b = 0 ∨ (!lockLost ∧ !many) then .next s
  else .next (retrainPort (if lockLost then s else s.logBp 0x054B) b)

/-- BP_FLIT_REPLAY_TIMEOUT (R600): no acknowledgement within 4 µs; the flits that none covers are sent again. -/
def execBpFlitReplayTimeout (port : Fin 6) (t : Nat) (s : State) : Out :=
  let s := s.at t
  let b := port.val
  if portWeight s b = 0 ∨ (s.bpPort b).unacked.isEmpty ∨ s.now < (s.bpPort b).wait + 4000 then .next s
  else
    let s1 := (s.setBpPort b { s.bpPort b with wait := s.now }).bump (Reg.blowpipePreplay b) 1
    .next { s1 with blow := { s1.blow with replays := sput [] s1.blow.replays b (recentReplays s1 b ++ [s1.now]) } }

/-! ## Outbound channels (R606, R607, R609, R610) -/

/-- An envelope of this device that answers a delivery. -/
def envelope (s : State) (kind dst chan gen count crc : Nat) : BpMsg := ⟨0, kind, devId s, dst, chan, gen, count, crc, none, none⟩

/-- An envelope of a delivery, in its class (R607). -/
def sendEnvelope (s : State) (d : BpOut) (kind count crc : Nat) : BpMsg :=
  { envelope s kind d.dest d.inch d.gen count crc with cls := some d.cls }

/-- A delivery changed. -/
def mapOut (s : State) (n g : Nat) (f : BpOut → BpOut) : State :=
  { s with blow := { s.blow with out := s.blow.out.map (fun d => if d.chan = n ∧ d.gen = g then f d else d) } }

/-- BEGIN of a delivery. -/
def sendBegin (s : State) (d : BpOut) : State :=
  mapOut (bpSend s (sendEnvelope s d 2 0 0)) d.chan d.gen (fun d => { d with begun := some (d.begun.getD s.now) })

/-- The CRC field of a line's Punty packet. -/
def lineCrc (s : State) (d : BpOut) (l : BpLine) : Nat := (Config.deliveryCrc (devId s) d.chan d.gen l.addr l.bytes).toNat

/-- DSTBASE of the inbound channel that a delivery goes to: this device's own register, or what another device holds. -/
def dstBase (s : State) (d : BpOut) : Nat :=
  (if d.dest = devId s then s.regFld (Reg.blowpipeIna d.inch) 12 36 else (Config.remoteBase d.dest d.inch).toNat) * 4096

/-- The lines as they travel: a line at source address a goes to DSTBASE + (a - SRCBASE), and so does the block it is a part of (R607). -/
def travelLines (s : State) (d : BpOut) : List BpLine :=
  d.lines.map (fun l => { l with addr := dstBase s d + l.addr, base := if l.rows = 0 then 0 else dstBase s d + l.base })

/-- The DATA packets and END of a delivery; it then waits for its ACK. -/
def sendBody (s : State) (d : BpOut) : State :=
  let ls := travelLines s d
  let s1 := ls.foldl (fun u l => bpSend u { sendEnvelope s d 1 0 0 with line := some l }) s
  let s2 := bpSend s1 (sendEnvelope s d 3 ls.length (crc32c (ls.flatMap (fun l => leBytes 4 (lineCrc s d l)))))
  (mapOut s2 d.chan d.gen (fun d => { d with held := false, ended := some s.now })).setRegFld (Reg.blowpipeFwdstat d.chan) 0 32 d.gen

/-- BEGIN, and the rest unless it draws a WAIT. -/
def sendDelivery (s : State) (d : BpOut) (waited : Bool) : State :=
  let s1 := sendBegin s d
  if waited then mapOut s1 d.chan d.gen (fun d => { d with held := true }) else sendBody s1 d

/-- BP_DELIVERY_START (R607, R610): the oldest delivery of the channel not yet begun; `waited` says that its BEGIN draws a WAIT. -/
def execBpDeliveryStart (chan : Fin 32) (waited : Bool) (t : Nat) (s : State) : Out :=
  let s := s.at t
  match s.blow.out.find? (fun d => decide (d.chan = chan.val) && d.begun.isNone) with
  | some d => .next (sendDelivery s d waited)
  | none => .next s

/-- BP_BEGIN_REPEAT (R610): a held delivery's BEGIN again; once it draws no WAIT the delivery is sent. -/
def execBpBeginRepeat (chan : Fin 32) (waited : Bool) (t : Nat) (s : State) : Out :=
  let s := s.at t
  match s.blow.out.find? (fun d => decide (d.chan = chan.val) && d.held) with
  | some d => .next (sendDelivery s d waited)
  | none => .next s

/-- The delivery an answer concerns: its device and inbound channel, and its generation. -/
def answered (s : State) (src chan gen : Nat) : Option BpOut :=
  s.blow.out.find? (fun d => decide (d.dest = src) && decide (d.inch = chan) && decide (d.gen = gen) && d.begun.isSome)

/-- A delivery leaves the device. -/
def dropOut (s : State) (d : BpOut) : State :=
  { s with blow := { s.blow with out := s.blow.out.filter (fun x => !(decide (x.chan = d.chan) && decide (x.gen = d.gen))) } }

/-- A delivery fails (R609). -/
def failOut (s : State) (d : BpOut) : State := ((dropOut s d).bump (Reg.blowpipeFwdfail d.chan) 1).logBp 0x054A

/-- An ACK arrives (R608). -/
def bpTakeAck (s : State) (src chan gen : Nat) : State :=
  match answered s src chan gen with
  | some d => (dropOut s d).setRegFld (Reg.blowpipeFwdstat d.chan) 32 32 gen
  | none => s

/-- A NAK arrives (R609, R610 point 2). -/
def bpTakeNak (s : State) (src chan gen code instat : Nat) : State :=
  match answered s src chan gen with
  | some d =>
    let s1 := failOut s d
    if code = 0x0545 ∧ newer32 instat (sget 0 s1.blow.lastGen d.chan) then
      { s1 with blow := { s1.blow with lastGen := sput 0 s1.blow.lastGen d.chan instat } }.logBp 0x054D
    else s1
  | none => s

/-- A WAIT arrives (R610 point 3). -/
def bpTakeWait (s : State) (src chan gen : Nat) : State :=
  match answered s src chan gen with
  | some d => mapOut s d.chan d.gen (fun d => { d with held := true, ended := none })
  | none => s

/-- BP_ACK (R608). -/
def execBpAck (src : Fin 64) (chan : Fin 32) (gen : BitVec 32) (t : Nat) (s : State) : Out :=
  .next (bpTakeAck (s.at t) src.val chan.val gen.toNat)
/-- BP_NAK (R609, R610). -/
def execBpNak (src : Fin 64) (chan : Fin 32) (gen : BitVec 32) (code : BitVec 16) (instat : BitVec 32) (t : Nat) (s : State) : Out :=
  .next (bpTakeNak (s.at t) src.val chan.val gen.toNat code.toNat instat.toNat)
/-- BP_WAIT (R610). -/
def execBpWait (src : Fin 64) (chan : Fin 32) (gen : BitVec 32) (t : Nat) (s : State) : Out :=
  .next (bpTakeWait (s.at t) src.val chan.val gen.toNat)

/-- FWDTMO in ns, 0 acting as 10,000 µs. -/
def fwdTmo (s : State) (n : Nat) : Nat :=
  let v := s.regFld (Reg.blowpipeFwdb n) 48 16
  (if v = 0 then 10000 else v) * 1000

/-- BP_FWD_TIMEOUT (R609, R610 point 3): FWDTMO after END, or after the first BEGIN of a held delivery. -/
def execBpFwdTimeout (chan : Fin 32) (t : Nat) (s : State) : Out :=
  let s := s.at t
  let n := chan.val
  let late (x : Option Nat) : Bool := match x with
    | some a => decide (a + fwdTmo s n ≤ s.now)
    | none => false
  match s.blow.out.find? (fun d => decide (d.chan = n) && (late d.ended || (d.held && late d.begun))) with
  | some d => .next (failOut s d)
  | none => .next s

/-! ## Inbound channels (R608-R610) -/

/-- The owner key of an inbound channel's staged copy. -/
def inOwner (n : Nat) : Nat := 2 ^ 40 + n
/-- INSTAT.GEN. -/
def inGen (s : State) (n : Nat) : Nat := s.regFld (Reg.blowpipeInstat n) 0 32
/-- PART of an inbound channel. -/
def inPart (s : State) (n : Nat) : Nat := s.regFld (Reg.blowpipeIna n) 2 4
/-- NSRC, 0 acting as 1. -/
def inNsrc (s : State) (n : Nat) : Nat := max 1 (s.regFld (Reg.blowpipeIna n) 48 7)
/-- What the channel collects. -/
def inb (s : State) (n : Nat) : List BpIn := sget [] s.blow.inb n
/-- What the channel collects replaced; INSTAT.ARRIVED follows. -/
def setInb (s : State) (n : Nat) (l : List BpIn) : State :=
  ({ s with blow := { s.blow with inb := sput [] s.blow.inb n l } }).setRegFld (Reg.blowpipeInstat n) 32 7 (l.filter (fun (x : BpIn) => x.done)).length

/-- A NAK to a source. -/
def nakTo (s : State) (n src gen code : Nat) : State := bpSend s (envelope s 5 src n gen code (inGen s n))

/-- A NAK to a source, logged at the receiver where its code is Blowpipe's own (R617); a crucible has logged any other. -/
def sendNak (s : State) (n src gen code : Nat) : State := nakTo (if 0x0540 ≤ code then s.logBp code else s) n src gen code

/-- The current generation is abandoned (R609): everything staged for it goes, and INSTAT.GEN becomes `g`. -/
def abandon (s : State) (n g : Nat) : State :=
  let k := (g + 2 ^ 32 - inGen s n) % 2 ^ 32
  let s1 := setInb (dropStaged s (inOwner n)) n []
  let s2 := (s1.setRegFld (Reg.blowpipeInstat n) 0 32 g).setRegBit (Reg.blowpipeInstat n) 39 true
  (s2.bump (Reg.blowpipeInabn n) k).logBp 0x0549

/-- The generation being collected. -/
def nextGen (s : State) (n : Nat) : Nat := (inGen s n + 1) % 2 ^ 32

/-- What a channel collects from a source, changed; a source of which nothing has come yet joins. -/
def collect (l : List BpIn) (src : Nat) (f : BpIn → BpIn) : List BpIn :=
  if l.any (fun x => decide (x.src = src)) then l.map (fun x => if x.src = src then f x else x) else l ++ [f ⟨src, none, [], none, false⟩]

/-- The packets of a delivery in ascending address order. -/
def insPair (p : Nat × Nat) : List (Nat × Nat) → List (Nat × Nat)
  | [] => [p]
  | q :: qs => if p.1 ≤ q.1 then p :: q :: qs else q :: insPair p qs

/-- CRC-32C over the CRC fields of a delivery's packets in ascending address order (R601). -/
def dataCrc (x : BpIn) : Nat := crc32c ((x.data.foldl (fun l p => insPair p l) []).flatMap (fun p => leBytes 4 p.2))

/-- A source's delivery judged once its BEGIN, its END and as many packets as COUNT says have come, in any order (R608, R611): it has arrived in full, or
its COUNT or CRC does not match, and the generation is abandoned (R609). -/
def settleIn (s : State) (n src g : Nat) : State :=
  match (inb s n).find? (fun x => decide (x.src = src) && !x.done) with
  | none => s
  | some x =>
    match x.fin with
    | none => s
    | some (count, crc) =>
      if x.began.isNone ∨ x.data.length < count then s
      else if x.data.length = count ∧ dataCrc x = crc then
        setInb s n ((inb s n).map (fun y => if y.src = src then { y with done := true } else y))
      else abandon (sendNak s n src g 0x0547) n g

/-- Whether a packet of generation g belongs to what a channel collects of a source: it has begun to, or the channel is synchronised and takes a packet
that overtook its BEGIN (R611). -/
def collects (s : State) (n src g : Nat) : Bool :=
  decide (g = nextGen s n) &&
    (if (inb s n).any (fun x => decide (x.src = src)) then (inb s n).any (fun x => decide (x.src = src) && !x.done) else s.regBit (Reg.blowpipeInstat n) 40)

/-- A BEGIN arrives (R609, R610). -/
def bpTakeBegin (s : State) (src n g : Nat) : State :=
  if !s.regBit (Reg.blowpipeIna n) 0 then sendNak s n src g 0x0544
  else
    let synced := s.regBit (Reg.blowpipeInstat n) 40
    let s1 := if synced then s
      else (s.setRegFld (Reg.blowpipeInstat n) 0 32 ((g + 2 ^ 32 - 1) % 2 ^ 32)).setRegBit (Reg.blowpipeInstat n) 40 true
    if g = nextGen s1 n then
      if (inb s1 n).any (fun x => decide (x.src = src) && x.began.isSome) then sendNak s1 n src g 0x0546
      else
        let s2 := { s1 with blow := { s1.blow with waits := s1.blow.waits.filter (fun w => !(decide (w.1 = n) && decide (w.2.1 = g))) } }
        settleIn (setInb s2 n (collect (inb s2 n) src (fun x => { x with began := some s2.now }))) n src g
    else if newer32 g (inGen s1 n) then
      let s2 := if s1.blow.waits.any (fun w => decide (w.1 = n) && decide (w.2.1 = g)) then s1
        else { s1 with blow := { s1.blow with waits := s1.blow.waits ++ [(n, g, s1.now)] } }
      bpSend s2 (envelope s2 6 src n g 0 (inGen s2 n))
    else sendNak s1 n src g 0x0545

/-- The runs of bytes that a mask leaves: offset and bytes. -/
def maskRuns : Nat → List (Option Byte) → List (Nat × List Byte)
  | _, [] => []
  | i, none :: bs => maskRuns (i + 1) bs
  | i, some b :: bs =>
    match maskRuns (i + 1) bs with
    | (j, r) :: rest => if j = i + 1 then (i, b :: r) :: rest else (i, [b]) :: (j, r) :: rest
    | [] => [(i, [b])]

/-- The request that a packet of an inbound channel makes, as identity PART (R608). -/
def inReq (s : State) (n : Nat) (d : BpData) : Req := ⟨0x64, inPart s n, false, d.cls.toNat, some (inOwner n)⟩

/-- The packet staged: a WR run by run of its mask, a REC whole. -/
def stagePacket (s : State) (n : Nat) (d : BpData) (addr : Nat) : State × Option Poison :=
  let r := inReq s n d
  let bs := d.bytes.take 128
  if d.isRec then recReq s r addr (leBytes 11 d.tile.toNat) d.base.toNat (d.rowsM1.toNat + 1) (bs.filterMap id)
  else (maskRuns 0 bs).foldl (fun x p => match x.2 with
    | some q => (x.1, some q)
    | none => writeReq x.1 r .clean (addr + p.1) p.2) (s, none)

/-- The code of a refused packet (R609, R617): a region checker's, or a combine target's. -/
def refusalCode (s : State) (n : Nat) (d : BpData) : Nat :=
  match (checkReq s (inReq s n d) d.addr.toNat true).2 with
  | .error _ => 0x0501
  | .ok _ => 0x0504

/-- A DATA packet arrives (R608, R609): outside the destination range or refused, it brings a NAK and the generation is abandoned. A packet of a delivery
that is not being collected is discarded. -/
def bpTakeData (s : State) (src n g : Nat) (d : BpData) : State :=
  if !s.regBit (Reg.blowpipeIna n) 0 then sendNak s n src g 0x0544
  else if !collects s n src g then s
  else
    let lo := s.regFld (Reg.blowpipeIna n) 12 36 * 4096
    let hi := lo + s.regFld (Reg.blowpipeInb n) 0 24 * 4096
    let a := d.addr.toNat
    if a < lo ∨ hi < a + d.bytes.length ∨ a % 128 + d.bytes.length > 128 then abandon (sendNak s n src g 0x0548) n g
    else
      let x := stagePacket s n d a
      match x.2 with
      | some .refused => abandon (sendNak x.1 n src g (refusalCode s n d)) n g
      | some _ => x.1
      | none =>
        settleIn (orWait s (setInb x.1 n (collect (inb x.1 n) src (fun y => { y with data := y.data ++ [(a, d.crc.toNat)] })))) n src g

/-- An END arrives (R608, R609): its COUNT and CRC are kept until the delivery can be judged. -/
def bpTakeEnd (s : State) (src n g count crc : Nat) : State :=
  if !s.regBit (Reg.blowpipeIna n) 0 then sendNak s n src g 0x0544
  else if !collects s n src g then s
  else settleIn (setInb s n (collect (inb s n) src (fun y => { y with fin := some (count, crc) }))) n src g

/-- BP_BEGIN (R609, R610). -/
def execBpBegin (src : Fin 64) (chan : Fin 32) (gen : BitVec 32) (t : Nat) (s : State) : Out :=
  .next (bpTakeBegin (s.at t) src.val chan.val gen.toNat)
/-- BP_DATA (R608, R609). -/
def execBpData (src : Fin 64) (chan : Fin 32) (gen : BitVec 32) (packet : BpData) (t : Nat) (s : State) : Out :=
  .next (bpTakeData (s.at t) src.val chan.val gen.toNat packet)
/-- BP_END (R608, R609). -/
def execBpEnd (src : Fin 64) (chan : Fin 32) (gen count crc : BitVec 32) (t : Nat) (s : State) : Out :=
  .next (bpTakeEnd (s.at t) src.val chan.val gen.toNat count.toNat crc.toNat)

/-- INBOUND_COMMIT (R608): a complete generation commits as a commit of PART, which a closure of the partition holds back (R381). -/
def execInboundCommit (chan : Fin 32) (flip : FlipAt) (s : State) : Out :=
  let s := s.at flip.t
  let n := chan.val
  let done := (inb s n).filter (fun (x : BpIn) => x.done)
  if !s.regBit (Reg.blowpipeIna n) 0 ∨ done.length < inNsrc s n ∨ closing s (inPart s n) then .next s
  else
    let g := nextGen s n
    let s1 := setInb (poisonRuns s (flipStaged (s.bump Reg.devCommitidx 1) flip.ecc (inOwner n))) n []
    let s2 := s1.setRegFld (Reg.blowpipeInstat n) 0 32 g
    let s3 := if s2.regBit (Reg.blowpipeIna n) 1 then s2.toHost (.msix (inPart s n) (s2.regFld (Reg.blowpipeIna n) 6 6)) else s2
    .next (done.foldl (fun s x => bpSend s (envelope s 4 x.src n g 0 0)) s3)

/-- TMO in ns. -/
def inTmo (s : State) (n : Nat) : Nat := s.regFld (Reg.blowpipeInb n) 32 16 * 1000

/-- The generations a channel makes wait: those newer than the one it collects. -/
def liveWaits (s : State) (n : Nat) : List (Nat × Nat × Nat) :=
  s.blow.waits.filter (fun w => decide (w.1 = n) && newer32 w.2.1 (nextGen s n))

/-- The oldest generation a channel makes wait. -/
def oldestWait (s : State) (n : Nat) : Option Nat :=
  (liveWaits s n).foldl (fun m w => match m with
    | none => some w.2.1
    | some g => if newer32 g w.2.1 then some w.2.1 else some g) none

/-- BP_GEN_TIMEOUT (R609, R610 point 4): TMO after its first BEGIN an incomplete generation is abandoned, with a NAK to every contributor; TMO after the
first BEGIN of a newer generation every missing one before the oldest waiting is. -/
def execBpGenTimeout (chan : Fin 32) (t : Nat) (s : State) : Out :=
  let s := s.at t
  let n := chan.val
  let l := inb s n
  let complete := decide (inNsrc s n ≤ (l.filter (fun (x : BpIn) => x.done)).length)
  let nakAll (s : State) : State := l.foldl (fun s x => nakTo s n x.src (nextGen s n) 0x0549) s
  if !s.regBit (Reg.blowpipeIna n) 0 ∨ complete then .next s
  else if l.any (fun x => x.began.any (fun b => decide (b + inTmo s n ≤ s.now))) then .next (abandon (nakAll s) n (nextGen s n))
  else if (liveWaits s n).any (fun w => decide (w.2.2 + inTmo s n ≤ s.now)) then
    match oldestWait s n with
    | none => .next s
    | some g =>
      let s1 := abandon (nakAll s) n ((g + 2 ^ 32 - 1) % 2 ^ 32)
      .next { s1 with blow := { s1.blow with waits := s1.blow.waits.filter (fun w => !(decide (w.1 = n) && decide (w.2.1 = g))) } }
  else .next s

/-! ## Enabling channels (R610, R615, R616) -/

/-- EN of an outbound channel set: its next generation is 1. -/
def enableFwd (s : State) (n : Nat) : State :=
  let s1 := s.setRegBit (Reg.blowpipeFwda n) 0 true
  { s1 with blow := { s1.blow with lastGen := sput 0 s1.blow.lastGen n 0 } }

/-- What an inbound channel has collected and makes wait is gone. -/
def clearIn (s : State) (n : Nat) : State :=
  let s1 := setInb (dropStaged s (inOwner n)) n []
  { s1 with blow := { s1.blow with waits := s1.blow.waits.filter (fun w => decide (w.1 ≠ n)) } }

/-- EN of an inbound channel set: INSTAT.GEN 0, not synchronised. -/
def enableIn (s : State) (n : Nat) : State :=
  let s1 := clearIn (s.setRegBit (Reg.blowpipeIna n) 0 true) n
  (s1.setRegFld (Reg.blowpipeInstat n) 0 32 0).setRegBit (Reg.blowpipeInstat n) 40 false

/-- A write of a channel's A register (R615): a disabled channel takes it, and EN has its effect; an enabled one takes only a write that clears EN and
changes nothing else. -/
def writeChanA (s : State) (off mask v : Nat) (enable : State → State) : State :=
  let old := (s.reg off).toNat
  let new := v &&& mask
  if old % 2 = 1 then
    if new + 1 = old then s.setReg off (BitVec.ofNat 64 new) else s.setRegBit Reg.blowpipeStat 0 true
  else
    let s1 := s.setReg off (BitVec.ofNat 64 new)
    if new % 2 = 1 then enable s1 else s1

/-- A write of a channel's B register (R615). -/
def writeChanB (s : State) (a off mask v : Nat) : State :=
  if s.regBit a 0 then s.setRegBit Reg.blowpipeStat 0 true else s.setReg off (BitVec.ofNat 64 (v &&& mask))

/-- The bits of FWDnA and INnA that fields hold. -/
def fwdaMask : Nat := 0xFFFFFFFFF03F
def inaMask : Nat := 0x7FFFFFFFFFFFFF

/-- FWD_CHANNEL_ENABLE (R615, R616): EN written 1, the other fields as they stand. -/
def execFwdChannelEnable (who : Ident) (chan : Fin 32) (s : State) : Out :=
  let n := chan.val
  let off := Reg.blowpipeFwda n
  if mgmt who then .next (writeChanA s off fwdaMask ((s.reg off).toNat ||| 1) (fun s => enableFwd s n)) else .next s

/-- IN_CHANNEL_ENABLE (R610, R615). -/
def execInChannelEnable (who : Ident) (chan : Fin 32) (s : State) : Out :=
  let n := chan.val
  let off := Reg.blowpipeIna n
  if mgmt who then .next (writeChanA s off inaMask ((s.reg off).toNat ||| 1) (fun s => enableIn s n)) else .next s

/-- BLOWPIPE_EVLOG_READ (R615). -/
def execBlowpipeEvlogRead (s : State) : Out :=
  .next { s with readData := s.blow.log.head, blow := { s.blow with log := s.blow.log.pop } }

/-! ## Flits (R600, R601) -/

/-- A packet that R601 drops: a reserved KIND or a nonzero reserved bit. -/
def badPacket (p : BpPacket) : Bool :=
  decide (p.kind.toNat = 0) || decide (6 < p.kind.toNat) || decide (64 ≤ p.src.toNat) || decide (64 ≤ p.dst.toNat) || decide (32 ≤ p.chan.toNat) ||
    (decide (p.kind.toNat = 1) && p.data.isNone)

/-- A line in transit. -/
def BpData.line (d : BpData) : BpLine :=
  ⟨d.addr.toNat, d.bytes, if d.isRec then leBytes 11 d.tile.toNat else [], d.base.toNat, if d.isRec then d.rowsM1.toNat + 1 else 0⟩

/-- A packet of a flit: dropped and counted, relayed to its destination, or handed to its channel (R601, R604). -/
def bpTakePacket (s : State) (p : BpPacket) : State :=
  let src := p.src.toNat
  let n := p.chan.toNat
  let g := p.gen.toNat
  if badPacket p then (s.bump Reg.blowpipeMalform 1).logBp 0x054C
  else if p.dst.toNat ≠ devId s then
    bpSend s ⟨0, p.kind.toNat, src, p.dst.toNat, n, g, p.count.toNat, p.crc.toNat, p.data.map (·.cls.toNat), p.data.map BpData.line⟩
  else match p.kind.toNat, p.data with
    | 1, some d => bpTakeData s src n g d
    | 2, _ => bpTakeBegin s src n g
    | 3, _ => bpTakeEnd s src n g p.count.toNat p.crc.toNat
    | 4, _ => bpTakeAck s src n g
    | 5, _ => bpTakeNak s src n g (p.count.toNat % 2 ^ 16) p.crc.toNat
    | 6, _ => bpTakeWait s src n g
    | _, _ => s

/-- The flits up to one that an ACKSEQ names are acknowledged (R600); a number of no flit in the buffer says nothing. -/
def ackFlits (x : BpPort) (a now : Nat) : BpPort :=
  if x.unacked.any (fun p => decide (p.1 = a)) then
    { x with unacked := (x.unacked.dropWhile (fun p => decide (p.1 ≠ a))).drop 1, wait := now }
  else x

/-- A flit in order taken by its port: the acknowledgement, the credits and the next FSEQ. -/
def takeFlit (s : State) (b ackseq cls words : Nat) : State :=
  let x := ackFlits (s.bpPort b) ackseq s.now
  s.setBpPort b { x with expect := (x.expect + 1) % 65536, freed := sput 0 x.freed cls words }

/-- BP_FLIT (R600, R601): a flit that fails its CRC is counted and not taken; one in order brings its acknowledgement, its credits and its packets. -/
def execBpFlit (port : Fin 6) (fseq ackseq : BitVec 16) (cls : BitVec 2) (words : BitVec 14) (crcOk : Bool) (packets : List BpPacket) (t : Nat)
    (s : State) : Out :=
  let s := s.at t
  let b := port.val
  if portWeight s b = 0 then .next s
  else if !crcOk then .next (s.bump (Reg.blowpipePcrc b) 1)
  else if fseq.toNat ≠ (s.bpPort b).expect then .next s
  else .next (packets.foldl bpTakePacket (takeFlit s b ackseq.toNat cls.toNat words.toNat))

end Sys2Proof.Machine
end

