-- ==== Sys2Proof/Machine/ConfigOps.lean ====
section
/-! DEFINITION. Loading the batch and the frits, the frit switch request (R585-R588), the debug unlock (R595), and the request of a reset domain
(R553). -/

namespace Sys2Proof.Machine

/-- A request of Gaffer firmware to memory (R456). -/
def gafferReq : Req := ⟨0x64, 16, false, 2, none⟩

/-! ## Lists of register settings (R581, R585) -/

/-- The entries of a block: OFFSET, WIDTH and VALUE, 16 bytes each (R581). -/
def parseEntries : Nat → List Byte → List CfgEntry
  | 0, _ => []
  | n + 1, bs => ⟨leAt bs 0 4, leAt bs 4 1, leAt bs 8 8⟩ :: parseEntries n (bs.drop 16)

/-- The reserved bytes of every entry are zero, and bytes 4-7 of VALUE where WIDTH is 4 (R581). -/
def entriesClean : Nat → List Byte → Bool
  | 0, _ => true
  | n + 1, bs => allZero (sliceBytes bs 5 3) && (decide (leAt bs 4 1 = 8) || allZero (sliceBytes bs 12 4)) && entriesClean n (bs.drop 16)

/-- WIDTH is 4 or 8, OFFSET is aligned to it, and it is the register's width where OFFSET names a register. -/
def widthOk (e : CfgEntry) : Bool :=
  (decide (e.width = 4) || decide (e.width = 8)) && decide (e.off % e.width = 0) &&
    (match regRow e.off with
      | some r => decide (r.width = 8 * e.width)
      | none => true)

/-- No two entries name the same offset. -/
def offsetsDiffer : List CfgEntry → Bool
  | [] => true
  | e :: es => !es.any (fun x => decide (x.off = e.off)) && offsetsDiffer es

/-- Every entry of a block meets the layout. -/
def entriesOk (n : Nat) (bs : List Byte) : Bool :=
  entriesClean n bs && (parseEntries n bs).all widthOk && offsetsDiffer (parseEntries n bs)

/-- The lockable registers (R579): those with an RWL field. -/
def lockable (off : Nat) : Bool :=
  match regRow off with
  | some r => decide (r.rwl ≠ 0)
  | none => false

/-- A register of Marver that a list may name (R586): RW, not lockable, and no MARVER_SSLOTs. -/
def marverTarget (off : Nat) : Bool :=
  match regRow off with
  | some r => decide (0x300000 ≤ off) && decide (off < 0x400000) && decide (r.rw ≠ 0) && decide (r.rwl = 0) &&
      !(decide (Reg.marverSslot 0 ≤ off) && decide ((off - Reg.marverSslot 0) % 0x80 = 0) && decide ((off - Reg.marverSslot 0) / 0x80 < 64))
  | none => false

/-- Whether an entry of the batch or a frit may name an offset (R586). -/
def fritTarget (off : Nat) : Bool :=
  [Reg.devSchedctl, Reg.devRunlim, Reg.devRegctl, Reg.devMemctl, Reg.puntyCfg].contains off ||
    (List.range 16).any (fun n => decide (off = Reg.devSres n)) ||
    (List.range 8).any (fun n => decide (off = Reg.devMtrigcfg n) || decide (off = Reg.devMtrigaddr n)) ||
    (List.range 4).any (fun k => (List.range 21).any (fun m => decide (off = Reg.devRegbud k m)) ||
      (List.range 17).any (fun n => decide (off = Reg.crucCway k n))) ||
    marverTarget off

/-- A list of register settings read from DRAM and checked (R585-R587): its entries, or the event that refuses it. -/
def readList (s : State) (ecc : MemEcc) (addr magic most : Nat) : State × Except Nat (List CfgEntry) :=
  let h := devRead s gafferReq ecc addr 32
  match h.2 with
  | .error _ => (h.1, .error 0x094F)
  | .ok hd =>
    let n := leAt hd 4 2
    if leAt hd 0 4 ≠ magic ∨ n = 0 ∨ most < n ∨ !allZero (sliceBytes hd 6 22) then (h.1, .error 0x094F)
    else
      let r := devRead h.1 gafferReq ecc (addr + 32) (16 * n)
      match r.2 with
      | .error _ => (r.1, .error 0x094F)
      | .ok bs =>
        if crc32c (hd.take 28 ++ bs) ≠ leAt hd 28 4 ∨ !entriesOk n bs then (r.1, .error 0x094F)
        else if !(parseEntries n bs).all (fun e => fritTarget e.off) then (r.1, .error 0x0950)
        else (r.1, .ok (parseEntries n bs))

/-- A list that fails its checks (R587): the stored copy stays. -/
def badLoad (s : State) (code : Nat) : State := (s.setRegBit Reg.devFritstat 6 true).logCfg code

/-- LOAD_BATCH (R587, R596): DEV_CFGLOAD with OP 1. -/
def execLoadBatch (who : Ident) (ecc : MemEcc) (s : State) : Out :=
  if !mgmt who then .next s
  else
    let r := readList s ecc (s.regFld Reg.devBatchaddr 6 42 * 64) 0x4254394A 8192
    match r.2 with
    | .error c => .next (badLoad r.1 c)
    | .ok l => .next ({ r.1 with cfg := { r.1.cfg with batch := some l } }.setRegBit Reg.devFritstat 9 true)

/-- A frit's list read from an address and stored (R587). -/
def loadFrit (s : State) (w : FritLoad) : State :=
  let r := readList s w.ecc w.addr 0x5446394A 254
  match r.2 with
  | .error c => badLoad r.1 c
  | .ok l => { r.1 with cfg := { r.1.cfg with frits := sput [] r.1.cfg.frits w.frit l } }.setRegBit Reg.devFritstat (16 + w.frit) true

/-- LOAD_FRIT (R587, R588, R596): DEV_CFGLOAD with OP 2; it waits while a switch is in progress. -/
def execLoadFrit (who : Ident) (frit : Fin 16) (ecc : MemEcc) (s : State) : Out :=
  let w : FritLoad := ⟨frit.val, s.regFld Reg.devFritaddr 6 42 * 64, ecc⟩
  if !mgmt who then .next s
  else if s.cfg.switching.isSome then .next { s with cfg := { s.cfg with waitingLoads := s.cfg.waitingLoads ++ [w] } }
  else .next (loadFrit s w)

/-- FRIT_SWITCH_REQUEST (R588, R596): a write of DEV_FRITCTL. -/
def execFritSwitchRequest (who : Ident) (v : BitVec 32) (s : State) : Out :=
  let next := bitsOf v.toNat 0 4
  let none' := decide (bitsOf v.toNat 4 1 = 1)
  if !mgmt who then .next s
  else if !none' && !s.regBit Reg.devFritstat (16 + next) then .next (s.setRegBit Reg.devFritstat 8 true)
  else .next ((s.setReg Reg.devFritctl (setBit (setFld 0#64 0 4 next) 4 none')).setRegBit Reg.devFritstat 5 true)

/-! ## Debug unlock (R595) -/

/-- The 32 challenge bytes. -/
def challengeBytes (s : State) (scope : Nat) : List Byte :=
  leBytes 16 (Config.challengeNonce s.fresh).toNat ++ leBytes 8 Config.serialNumber.toNat ++ leBytes 1 scope ++ leBytes 3 0 ++ leBytes 4 s.frmcnt

/-- DEV_DBGCHAL0-3 show the challenge. -/
def showChallenge (s : State) (bs : List Byte) : State :=
  (List.range 4).foldl (fun s i => s.setReg (Reg.devDbgchal i) (BitVec.ofNat 64 (leAt bs (8 * i) 8))) s

/-- DEBUG_REQUEST (R595): refused with the fuse DBGDIS blown, and after three denials. -/
def execDebugRequest (who : Ident) (scope : BitVec 4) (t : Nat) (s : State) : Out :=
  let s := s.at t
  if !mgmt who ∨ s.cfg.dbgDisFuse ∨ s.regFld Reg.devDbgstat 8 2 = 3 then .next s
  else
    let bs := challengeBytes s scope.toNat
    let s1 := (showChallenge s bs).setRegBit Reg.devDbgstat 4 true
    .next { s1 with cfg := { s1.cfg with challenge := some ⟨bs, scope.toNat, s1.now⟩ } }.nextFresh

/-- DEBUG_LOCK (R595): every unlock ends. -/
def execDebugLock (who : Ident) (s : State) : Out := .next (if mgmt who then s.setRegFld Reg.devDbgstat 0 4 0 else s)

/-- Whether Lehr A accepts a response (R595): the key's hash, the signature, and the challenge's age. -/
def responseOk (s : State) (c : Challenge) (bs : List Byte) : Bool :=
  decide (Config.sha384 (bs.take 96) = Config.debugKeyHash) && Config.ecdsaVerifies (bs.take 96) (Config.sha384 c.bytes) (bs.drop 96) &&
    decide (s.now ≤ c.issued + 60000000000)

/-- DEBUG_RESPONSE (R595): the response block at the address written, read by Lehr A; a challenge serves one response. -/
def execDebugResponse (who : Ident) (addr : BitVec 64) (ecc : MemEcc) (t : Nat) (s : State) : Out :=
  let s := s.at t
  match s.cfg.challenge with
  | none => .next s
  | some c =>
    if !mgmt who then .next s
    else
      let r := devRead s lehrAReq ecc (bitsOf addr.toNat 6 42 * 64) 192
      let s1 := ({ r.1 with cfg := { r.1.cfg with challenge := none } }).setRegBit Reg.devDbgstat 4 false
      let ok := match r.2 with
        | .ok bs => responseOk s c bs
        | .error _ => false
      if ok then .next ((((s1.setRegFld Reg.devDbgstat 0 4 c.scope).setRegBit Reg.devDbgstat 5 false).logCfg 0x0955).raise 0x0955 0xFF)
      else .next ((((s1.setRegBit Reg.devDbgstat 5 true).bumpSat Reg.devDbgstat 8 2).logCfg 0x0956).raise 0x0956 0xFF)

/-- CFG_EVLOG_READ (R597). -/
def execCfgEvlogRead (s : State) : Out :=
  .next { s with readData := s.cfg.log.head, cfg := { s.cfg with log := s.cfg.log.pop } }

/-! ## A device cold reset begins (R571, R573) -/

/-- The state as a device cold reset leaves it: every register and everything beside them at its reset value. What does not belong to the device stays:
the commands that wait, the flash, the fuses, what went to the host and onto the vehicle network, the pins, and the model's own counter; device time
stays until step 1 of R571 ends, and the Lehr dies are held till then. -/
def coldState (s : State) : State :=
  { State.reset with
    pending := s.pending, now := s.now, fresh := s.fresh, readData := s.readData, canOut := s.canOut, pins := s.pins
    rst := { State.reset.rst with flash := s.rst.flash, flashSize := s.rst.flashSize, perstn := s.rst.perstn, linkCap := s.rst.linkCap }
    cfg := { State.reset.cfg with arbFuses := s.cfg.arbFuses, dbgDisFuse := s.cfg.dbgDisFuse }
    bench := { State.reset.bench with hostOut := s.bench.hostOut }
    blow := { State.reset.blow with sent := s.blow.sent }
    lehrB := { State.reset.lehrB with lehrARuns := false, stoppedA := true, stoppedB := true } }

/-- What the Lehr dies hold, which a device cold reset after a main-rail failure does not reset (R652, R662): the LEHRA, LEHRB and THERM registers and what
stands beside them. Messages of the dies that were reset are gone. -/
def keepLehr (old new : State) : State :=
  { new with
    regs := (old.regs.filter (fun p => (decide (0x400000 ≤ p.1) && decide (p.1 < 0x500000)) || (decide (0x900000 ≤ p.1) && decide (p.1 < 0xA00000)))).foldl
      (fun m p => sput (regReset p.1) m p.1 p.2) new.regs
    lehrA := { old.lehrA with sigs := [], reports := [], lost := [], frames := [], ties := [], cmpFails := 0, alone := false }
    lehrB := old.lehrB, therm := old.therm, faultRecord := old.faultRecord }

/-- The balls at the start of a device cold reset (R660). -/
def coldPins (p : PinsState) (rails : Bool) : PinsState :=
  if rails then { p with mainPins := .held }
  else { p with mainPins := .held, lehrAPins := .held, lehrBPins := .held, flt00 := false, flt01 := false }

/-- A device cold reset is accepted (R554: it overrides every reset in progress). `rails` says that main rails came back while the Lehr dies ran (R652).
DEV_SECARBt takes the fused counts (R596), DEV_DBGSTAT.DISABLED the fuse. -/
def startCold (source : Nat) (requested rails : Bool) (s : State) : State :=
  let s0 := { coldState s with pins := coldPins s.pins rails }
  let s1 := if rails then keepLehr s s0 else s0
  let s2 := recordCause s1 8 0 source
  let s3 := { s2 with rst := { s2.rst with domains := [⟨8, 0, source, s2.now, false, requested, 0, []⟩] } }
  let s4 := s3.setReg Reg.resetStat (setFld (setBit 0#64 2 true) 3 4 1)
  let s5 := s.cfg.arbFuses.foldl (fun s p => s.setReg (Reg.devSecarb p.1) (BitVec.ofNat 64 p.2)) s4
  let s6 := s5.setRegBit Reg.devDbgstat 6 s.cfg.dbgDisFuse
  if requested then s6.setRegBit Reg.resetReqstat 16 true else s6

/-! ## RESET_REQ (R553) -/

/-- What a granted request for a domain without blocks does at once: a partition's commands and rings (R370), a lateral module's training (R478), and the
training of a camera or the link of an Ethernet port. -/
def beginRequested (s : State) (kind index : Nat) : State :=
  match kind with
  | 6 => settleFunction (resetFunction s index) index
  | 11 =>
    let s1 := clearLink ((s.resetReg (Reg.puntyMstat index)).resetReg (Reg.puntyMfail index)) index
    { s1 with fab := { s1.fab with narrowed := s1.fab.narrowed.filter (fun m => decide (m ≠ index)) } }
  | 12 => releaseDomains (startCamera s index)
  | 13 => releaseDomains (startEthernet s index)
  | _ => s

/-- Lehr A's answer in RESET_REQSTAT. -/
def requestAnswer (s : State) (code : Nat) : State := s.setRegFld Reg.resetReqstat 0 16 code

/-- RESET_REQ (R553, R554): granted, absorbed or refused. -/
def resetRequest (s : State) (kind index : Nat) : State :=
  if !domainIndexOk kind index then (requestAnswer s 0x090B).logReset 0x090B kind index
  else if kind = 8 then startCold 11 true false (requestAnswer s 0)
  else if kind = 1 then requestRestart (requestAnswer s (if restartAbsorbed s index then 0x0909 else 0)) index true
  else if inReset s (kind, index) then (requestAnswer s 0x0909).logReset 0x0909 kind index
  else beginRequested (startReset kind index 11 true (requestAnswer s 0)) kind index

/-- RESET_REQ (R553, R572): a write by another requester has no effect and is logged. -/
def execResetReq (who : Ident) (kind : BitVec 4) (index : BitVec 8) (t : Nat) (s : State) : Out :=
  let s := s.at t
  if mgmt who then .next (resetRequest s kind.toNat index.toNat) else .next (s.logReset 0x090A kind.toNat index.toNat)

/-- RESET_EVLOG_READ (R572, R573). -/
def execResetEvlogRead (s : State) : Out :=
  .next { s with readData := s.rst.log.head, rst := { s.rst with log := s.rst.log.pop } }

end Sys2Proof.Machine
end

