-- ==== Sys2Proof/Machine/Csr.lean ====
section
/-! DEFINITION. Writing and reading registers: access codes (R10-R12), locked fields (R580), and what a write of each register with a behaviour of its own
does; the register write event, and the CSR requests of the fabric (R463, R492). -/

namespace Sys2Proof.Machine

/-- Who writes a register: a requester, one of the device's own engines (a commit, a frit switch, a reapplication), which locks and writers' rules do
not stop, or the debug access port, which writes a core's registers alone (R123, R186, R206). -/
structure Writer where
  who : Ident
  engine : Bool
  port : Bool
  deriving DecidableEq, Repr

/-- The writer that an accessor is. -/
def writerOf : Accessor → Writer
  | .ident who => ⟨who, false, false⟩
  | .debugPort => ⟨⟨16, by decide⟩, false, true⟩

/-- The state an outcome brings; a stop leaves the state it met. -/
def outState (s : State) (o : Out) : State :=
  match o with
  | .next s' => s'
  | _ => s

/-- Whether partition 0, Gaffer firmware or an engine writes. -/
def Writer.manages (w : Writer) : Bool := w.engine || mgmt w.who
/-- Whether Gaffer firmware or an engine writes. -/
def Writer.gaffer (w : Writer) : Bool := w.engine || decide (w.who.val = 16)

/-- The index of an offset in an array of registers. -/
def indexIn (off base stride count : Nat) : Option Nat :=
  if base ≤ off ∧ (off - base) % stride = 0 ∧ (off - base) / stride < count then some ((off - base) / stride) else none

/-! ## Fields under their access codes (R10, R580) -/

/-- Whether a write by this writer meets locked RWL fields. -/
def lockedFor (s : State) (w : Writer) (off : Nat) : Bool := !w.engine && locked s off

/-- The value a register takes: RW fields, RWL fields that are not locked, and W1C bits cleared; every other bit stays. -/
def fieldsWritten (r : RegRow) (old v : Nat) (lock : Bool) : Nat :=
  let sel := r.rw ||| (if lock then 0 else r.rwl)
  let kept := old - (old &&& sel) + (v &&& sel)
  kept - (kept &&& (v &&& r.w1c))

/-- A register written under its access codes; a direct write that would change a locked field is recorded. -/
def writeFields (s : State) (w : Writer) (r : RegRow) (off v : Nat) : State :=
  let old := (s.reg off).toNat
  let lock := lockedFor s w off
  let s1 := if lock && decide (old &&& r.rwl ≠ v &&& r.rwl) then recordLocked s w.who off else s
  s1.setReg off (BitVec.ofNat 64 (fieldsWritten r old v lock))

/-! ## DEV -/

/-- DEV_FRMCTL: the W1C bits as usual, EN under its lock. -/
def writeFrmctl (s : State) (w : Writer) (v : Nat) : State :=
  let en := decide (v % 2 = 1)
  let s1 := if bitsOf v 1 1 = 1 then s.setRegBit Reg.devFrmctl 1 false else s
  let s2 := if bitsOf v 2 1 = 1 then s1.setRegBit Reg.devFrmctl 2 false else s1
  if en = s2.frmEn then s2
  else if lockedFor s w Reg.devFrmctl then recordLocked s2 w.who Reg.devFrmctl
  else if en then enableTimer s2 else disableTimer s2

/-- DEV_MEMPWR: PARK 1 parks, PARK 0 wakes (R541). -/
def writeMempwr (s : State) (v : Nat) : State :=
  if v % 2 = 1 then outState s (execPark ⟨16, by decide⟩ (BitVec.ofNat 8 (bitsOf v 8 8)) s)
  else
    let s1 := if s.regBit Reg.devMemstat 1 then wakeMemory s
      else { s with mem := { s.mem with parking := false } }
    (s1.setRegBit Reg.devMempwr 0 false).setRegFld Reg.devMempwr 8 8 (bitsOf v 8 8)

/-- DEV_CFGLOAD: OP 1 loads the batch, OP 2 a frit (R587). -/
def writeCfgload (s : State) (w : Writer) (v : Nat) : State :=
  match bitsOf v 0 2 with
  | 1 => outState s (execLoadBatch w.who .clean s)
  | 2 => outState s (execLoadFrit w.who (Fin.ofNat 16 (bitsOf v 4 4)) .clean s)
  | _ => s

/-- DEV_DBGCTL: LOCK, then REQ with its SCOPE (R595). -/
def writeDbgctl (s : State) (w : Writer) (v t : Nat) : State :=
  let s1 := if bitsOf v 1 1 = 1 then outState s (execDebugLock w.who s) else s
  if bitsOf v 0 1 = 1 then outState s1 (execDebugRequest w.who (BitVec.ofNat 4 (bitsOf v 4 4)) t s1) else s1

/-- A register of the DEV block (R42, R401, R518, R545, R596). -/
def writeDev (s : State) (w : Writer) (r : RegRow) (off v t : Nat) : State :=
  if !w.manages then s
  else if off = Reg.devFrmctl then writeFrmctl s w v
  else if off = Reg.devFrmper then
    if lockedFor s w off then (if s.frmper = v then s else badPeriod (recordLocked s w.who off) v) else writePeriod s v
  else if off = Reg.devFrmphase then
    if lockedFor s w off then (if s.frmphase = v then s else recordLocked s w.who off) else writePhase s v
  else if off = Reg.devFrmcnt then
    if s.timerStopped then s.setReg off (BitVec.ofNat 64 v) else s.setRegBit Reg.devFrmctl 2 true
  else if off = Reg.devRegctl then outState s (execRegctlWrite ⟨16, by decide⟩ (BitVec.ofNat 32 v) s)
  else if off = Reg.devMemref then outState s (execMemrefWrite ⟨16, by decide⟩ (BitVec.ofNat 64 v) s)
  else if off = Reg.devMempwr then writeMempwr s v
  else if off = Reg.devMemmapctl then (if v % 2 = 1 then outState s (execMapApply ⟨16, by decide⟩ s) else s)
  else if off = Reg.devCfgload then writeCfgload s w v
  else if off = Reg.devFritctl then outState s (execFritSwitchRequest w.who (BitVec.ofNat 32 v) s)
  else if off = Reg.devDbgctl then writeDbgctl s w v t
  else if off = Reg.devDbgresp then outState s (execDebugResponse w.who (BitVec.ofNat 64 v) .clean t s)
  else if (indexIn off (Reg.devStagecfg 0) 8 4).isSome then
    if s.regFld Reg.devSbstat 0 14 ≠ 0 then s.setRegBit Reg.devSbstat 15 true else writeFields s w r off v
  else if (indexIn off (Reg.devMemmapa 0) 8 32).isSome then
    if s.regBit Reg.devMemstat 2 then s.setRegBit Reg.devMemstat 3 true else writeFields s w r off v
  else
    match (List.range 4).findSome? (fun k => (indexIn off (Reg.devRegbud k 0) 8 21).map (fun m => (k, m))) with
    | some (k, m) => outState s (execRegbudWrite ⟨16, by decide⟩ (Fin.ofNat 4 k) (Fin.ofNat 21 m) (BitVec.ofNat 64 v) s)
    | none => writeFields s w r off v

/-! ## BOMUS and PCIE -/

/-- A field of BOMUS_RCFGn that is written only while the ring is DISABLED (R368): a change in another state is refused. -/
def ringField (s : State) (n lo len v : Nat) (may : Bool) : State :=
  if s.regFld (Reg.bomusRcfg n) lo len = bitsOf v lo len then s
  else if may && decide (ringSt s n = 0) then s.setRegFld (Reg.bomusRcfg n) lo len (bitsOf v lo len)
  else s.setRegBit (Reg.bomusRstat n) 2 true

/-- BOMUS_RCFGn (R327, R331, R368). -/
def writeRcfg (s : State) (w : Writer) (n v : Nat) : State :=
  let s1 := ringField (ringField (ringField s n 1 1 v true) n 6 5 v true) n 11 5 v true
  let s2 := (ringField s1 n 2 4 v (decide (w.who.val = 0))).setRegFld (Reg.bomusRcfg n) 16 6 (bitsOf v 16 6)
  let s3 := syncRings s2
  let who : Ident := ⟨16, by decide⟩
  if v % 2 = 1 then (if ringSt s3 n = 0 then outState s3 (execRingEnable who (Fin.ofNat 256 n) s3) else s3)
  else outState s3 (execRingDisable who (Fin.ofNat 256 n) s3)

/-- A ring's registers (R367). -/
def writeRing (s : State) (w : Writer) (r : RegRow) (off v : Nat) : State :=
  let n := (off - 0x100000) / 0x1000
  if !w.engine && !ringWriter s w.who n then s
  else if off = Reg.bomusRcfg n then writeRcfg s w n v
  else if (off = Reg.bomusSqbase n ∨ off = Reg.bomusCqbase n) ∧ ringSt s n ≠ 0 then s.setRegBit (Reg.bomusRstat n) 2 true
  else writeFields s w r off v

/-! ## MARVER -/

/-- A stream register refused while the stream is enabled (R250). -/
def streamRefused (s : State) (i : Nat) : State := (s.setRegBit (Reg.marverSstat i) 6 true).logMarver 0x0710 i s.frmcnt

/-- EN of a stream brought to a value. -/
def streamEn (s : State) (i t : Nat) (en : Bool) : State :=
  if en = streamOn s i then s
  else if en then outState s (execStreamEnable (Fin.ofNat 64 i) t s) else outState s (execStreamDisable (Fin.ofNat 64 i) s)

/-- MARVER_SCFGs: a disabled stream takes every field, then EN; an enabled one takes EN only. -/
def writeScfg (s : State) (w : Writer) (r : RegRow) (off i v t : Nat) : State :=
  let old := (s.reg off).toNat
  let rest (x : Nat) : Nat := (x &&& r.rw) / 2
  if w.engine || !streamOn s i then
    let s1 := s.setReg off (BitVec.ofNat 64 (2 * rest v + old % 2))
    streamEn s1 i t (decide (v % 2 = 1))
  else
    let s1 := if rest v = rest old then s else streamRefused s i
    streamEn s1 i t (decide (v % 2 = 1))

/-- MARVER_SSLOTs: INJWR is writable while the stream is enabled (R249), SLOTSZ is not. -/
def writeSslot (s : State) (w : Writer) (off i v : Nat) : State :=
  let s1 := if bitsOf v 0 32 = s.regFld off 0 32 then s
    else if w.engine || !streamOn s i then s.setRegFld off 0 32 (bitsOf v 0 32) else streamRefused s i
  if bitsOf v 32 32 = s1.regFld off 32 32 then s1 else outState s1 (execInjwrWrite (Fin.ofNat 64 i) (BitVec.ofNat 32 (bitsOf v 32 32)) s1)

/-- The fields whose change by a frit puts the servo into ACQUIRE (R250): KIND, PORT, SRCMODE, TFMT, TOFF and MARVER_STIMEs. -/
def servoKey (s : State) (i : Nat) : Nat × Nat × Nat × Word :=
  (s.regFld (Reg.marverScfg i) 1 6, s.regFld (Reg.marverScfg i) 9 5, s.regFld (Reg.marverScfg i) 14 12, s.reg (Reg.marverStime i))

/-- A frit's change of a stream (R250). -/
def afterFrit (s0 s : State) (i : Nat) : State :=
  if streamOn s0 i && streamOn s i && decide (servoKey s0 i ≠ servoKey s i) then
    let s1 := setServo s i { Servo.zero with accTime := s.now }
    syncHealth (setServoSt s1 i (if s.regFld (Reg.marverScfg i) 9 2 = 0 then 2 else 1)) i
  else s

/-- A register of stream i (R250, R280). -/
def writeStream (s : State) (w : Writer) (r : RegRow) (off i v t : Nat) : State :=
  let s1 :=
    if off = Reg.marverScfg i then writeScfg s w r off i v t
    else if off = Reg.marverSslot i then writeSslot s w off i v
    else if off = Reg.marverSstat i ∨ w.engine ∨ !streamOn s i then writeFields s w r off v
    else streamRefused s i
  if w.engine then afterFrit s s1 i else s1

/-- MARVER_FUSCTL: REQ becomes pending (R282), FBEN under its lock, the W1C bits. -/
def writeFusctl (s : State) (w : Writer) (r : RegRow) (v : Nat) : State :=
  syncFbact (requestMode (writeFields s w r Reg.marverFusctl v) (bitsOf v 0 2))

/-- MARVER_TRKCFG: a change of FBSLOTS outside START has no effect (R318). -/
def writeTrkcfg (s : State) (w : Writer) (r : RegRow) (v : Nat) : State :=
  let off := Reg.marverTrkcfg
  if bitsOf v 20 10 ≠ s.regFld off 20 10 ∧ s.regFld Reg.marverFusstat 0 2 ≠ 0 then
    (s.setRegBit Reg.marverFusctl 3 true).logMarver 0x0710 0xFF s.frmcnt
  else syncFbact (writeFields s w r off v)

/-- MARVER_GPCTL: with EN 0 gPTP is off. -/
def writeGpctl (s : State) (w : Writer) (r : RegRow) (v : Nat) : State :=
  let s1 := writeFields s w r Reg.marverGpctl v
  if s1.regBit Reg.marverGpctl 0 then s1 else s1.setRegFld Reg.marverGpstat 0 2 0

/-- A register of Marver (R280, R319). -/
def writeMarver (s : State) (w : Writer) (r : RegRow) (off v t : Nat) : State :=
  if off = Reg.marverFusctl then writeFusctl s w r v
  else if off = Reg.marverTrkgo then outState s (execTrkgo w.who (BitVec.ofNat 32 v) (BitVec.ofNat 13 (bitsOf v 32 13)) t s)
  else if off = Reg.marverScatgo then outState s (execScatgo w.who (BitVec.ofNat 32 v) (BitVec.ofNat 20 (bitsOf v 32 20)) t s)
  else if off = Reg.marverTrkcfg then writeTrkcfg s w r v
  else if off = Reg.marverClose then outState s (execMarverCloseWrite (BitVec.ofNat 32 v) (2 ^ 64) (2 ^ 64) .clean t s)
  else if off = Reg.marverPosewr then outState s (execPoseWrite (BitVec.ofNat 32 v) .clean s)
  else if off = Reg.marverGpctl then writeGpctl s w r v
  else match indexIn off (Reg.marverCamcfg 0) 8 16, indexIn off (Reg.marverEthcfg 0) 8 8 with
    | some n, _ => startCamera (writeFields s w r off v) n
    | _, some n => startEthernet (writeFields s w r off v) n
    | none, none =>
      if 0x320000 ≤ off ∧ off < 0x322000 then writeStream s w r off ((off - 0x320000) / 0x80) v t else writeFields s w r off v

/-! ## The Lehr dies, crucibles, memory controllers -/

/-- A register of the LEHRA block (R451): R441 says who kicks a watchdog, only Gaffer firmware sends its heartbeat. -/
def writeLehra (s : State) (w : Writer) (r : RegRow) (off v t : Nat) : State :=
  if off = Reg.lehraWdkick then outState s (execWatchdogKick w.who (BitVec.ofNat 6 v) (BitVec.ofNat 32 (bitsOf v 32 32)) t s)
  else if off = Reg.lehraGafhb then outState s (execGafhbWrite w.who t s)
  else if w.manages then writeFields s w r off v else s

/-- A register of a CRUC block (R485, R497). -/
def writeCruc (s : State) (w : Writer) (r : RegRow) (off v : Nat) : State :=
  let k := (off - 0x500000) / 0x40000
  if off = Reg.crucCmaint k then
    (if bitsOf v 0 2 = 1 ∨ bitsOf v 0 2 = 2 ∨ s.regBit (Reg.crucCmstat k) 0 then startMaint s w.who k (decide (bitsOf v 0 2 = 2)) else s)
  else if w.manages then writeFields s w r off v else s

/-- MEMC_TCMDl (R544): reserved operations have no effect. -/
def writeTcmd (s : State) (w : Writer) (h v : Nat) : State :=
  let op := bitsOf v 0 3
  if op = 0 ∨ 4 < op then s
  else helperStart w.who h (decide (op = 1) || decide (op = 4)) (bitsOf v 4 24) (bitsOf v 32 24 + 1) s

/-- MEMC_CHCTLl (R536). -/
def writeChctl (s : State) (w : Writer) (h v t : Nat) : State :=
  let ch : Fin 64 := Fin.ofNat 64 h
  let s1 := if bitsOf v 0 1 = 1 then outState s (execGoservice w.who ch t s) else s
  if bitsOf v 1 1 = 1 then outState s1 (execRetire w.who ch s1) else s1

/-- A register of a MEMC block (R547): only Gaffer firmware writes it. -/
def writeMemc (s : State) (w : Writer) (r : RegRow) (off v t : Nat) : State :=
  let m := (off - 0x600000) / 0x10000
  let l := (off - 0x600000) % 0x10000 / 0x100 % 4
  let h := 4 * m + l
  if !w.gaffer then s
  else if off = Reg.memcFrzack m l then (if v % 2 = 1 then outState s (execFrzack w.who (Fin.ofNat 64 h) t s) else s)
  else if off = Reg.memcTcmd m l then writeTcmd s w h v
  else if off = Reg.memcTdsel m l then syncDelay (writeFields s w r off v) h
  else if off = Reg.memcTdval m l then
    syncDelay { s with mem := { s.mem with delays := sput 0 s.mem.delays (delayKey s h) (bitsOf v 0 10) } } h
  else if off = Reg.memcChctl m l then writeChctl s w h v t
  else writeFields s w r off v

/-! ## BLOWPIPE, THERM, RESET -/

/-- A register of the BLOWPIPE block (R615). -/
def writeBlowpipe (s : State) (w : Writer) (r : RegRow) (off v : Nat) : State :=
  if !w.manages then s
  else if off = Reg.blowpipeTopo then writeTopo s v
  else match indexIn off (Reg.blowpipeFwda 0) 0x20 32, indexIn off (Reg.blowpipeFwdb 0) 0x20 32,
      indexIn off (Reg.blowpipeIna 0) 0x20 32, indexIn off (Reg.blowpipeInb 0) 0x20 32 with
    | some n, _, _, _ => writeChanA s off fwdaMask v (fun s => enableFwd s n)
    | _, some n, _, _ => writeChanB s (Reg.blowpipeFwda n) off r.rw v
    | _, _, some n, _ => writeChanA s off inaMask v (fun s => enableIn s n)
    | _, _, _, some n => writeChanB s (Reg.blowpipeIna n) off r.rw v
    | none, none, none, none => writeFields s w r off v

/-- A register of the THERM block (R642); the inlet temperature is judged again by a new COOLMAX (R630). -/
def writeTherm (s : State) (w : Writer) (r : RegRow) (off v t : Nat) : State :=
  if !w.manages then s
  else if off = Reg.thermCoolant then outState s (execCoolantWrite ⟨16, by decide⟩ (BitVec.ofNat 12 v) t s)
  else
    let s1 := writeFields s w r off v
    if off = Reg.thermLimits ∧ s1.therm.coolantAt.isSome then judgeCoolant s1 (signedOf (s1.regFld Reg.thermCoolant 0 12) 12) else s1

/-- A register of the RESET block (R553, R572). -/
def writeResetBlock (s : State) (w : Writer) (r : RegRow) (off v t : Nat) : State :=
  if off = Reg.resetReq then outState s (execResetReq w.who (BitVec.ofNat 4 v) (BitVec.ofNat 8 (bitsOf v 4 8)) t s)
  else if w.manages then writeFields s w r off v else s

/-! ## CORE and CULLET -/

/-- CORE_CTL (R123): REFUSED is W1C, then the requests. -/
def writeCoreCtl (s : State) (acc : Accessor) (c v t : Nat) : State :=
  let core : Fin 96 := Fin.ofNat 96 c
  let s1 := if bitsOf v 3 1 = 1 then s.setRegBit (Reg.coreCtl c) 3 false else s
  let s2 := if bitsOf v 0 1 = 1 then outState s1 (execHaltreq acc core t s1) else s1
  let s3 := if bitsOf v 1 1 = 1 then outState s2 (execResume acc core t s2) else s2
  if bitsOf v 2 1 = 1 then outState s3 (execRestartreq acc core t s3) else s3

/-- A register of a CORE block (R120, R123, R181, R186, R206). -/
def writeCore (s : State) (w : Writer) (r : RegRow) (off v t : Nat) : State :=
  let c := (off - 0x1000000) / 0x10000
  let core : Fin 96 := Fin.ofNat 96 c
  let acc : Accessor := if w.port then .debugPort else .ident w.who
  if off = Reg.coreCtl c then (if debugWriter acc then writeCoreCtl s acc c v t else windowRefused s c)
  else if off = Reg.coreTpbrk c then (if debugWriter acc then writeFields s w r off v else windowRefused s c)
  else if off = Reg.coreTpstep c then
    if !debugWriter acc then windowRefused s c
    else if bitsOf v 3 1 = 1 then outState s (execTpstep acc core (BitVec.ofNat 3 v) ⟨.clean, .clean, false⟩ s) else s
  else if off = Reg.coreStepmin c then (if w.port then s else outState s (execStepminWrite core s))
  else match indexIn off (Reg.coreSync c 0) 4 2048 with
    | some n => outState s (execCoreSyncWrite acc core (Fin.ofNat 2048 n) (some (BitVec.ofNat 32 v)) s)
    | none => if w.port then s else writeFields s w r off v

/-- CULLET_OPCMD (R238): the operation on the port of crucible k. DESIGN CHOICE: a code that R238's table does not list is no operation, so CULLET_OPSTAT
stays as it is; like any write to the port it is refused while BUSY is 1. -/
def writeOpcmd (s : State) (k v : Nat) : State :=
  let who : Ident := ⟨16, by decide⟩
  let cruc : Fin 4 := Fin.ofNat 4 k
  let part : Fin 16 := Fin.ofNat 16 (bitsOf v 16 4)
  let sq : Fin 256 := Fin.ofNat 256 (bitsOf v 8 8)
  let arg : BitVec 32 := BitVec.ofNat 32 (bitsOf v 32 32)
  match bitsOf v 0 4 with
  | 1 => outState s (execCreateSeq who cruc part s)
  | 2 => outState s (execFreeSeq who cruc part sq s)
  | 3 => outState s (execTruncateSeq who cruc part sq arg s)
  | 4 => outState s (execSetseg who cruc part sq s)
  | 5 => outState s (execLoadbias who cruc part arg .clean s)
  | _ => if opBusy s k then portRefused s k else s

/-- A register of a CULLET block (R238, R239). -/
def writeCullet (s : State) (w : Writer) (r : RegRow) (off v : Nat) : State :=
  let k := (off - 0x2000000) / 0x40000
  if off = Reg.culletOpcmd k then (if w.gaffer then writeOpcmd s k v else s)
  else if off = Reg.culletOparg k then
    if !w.gaffer then s
    else if opBusy s k then portRefused s k
    else writeFields s w r off v
  else if !w.manages then s
  else if off = Reg.culletPoolbase k ∨ off = Reg.culletPoolcfg k then
    let cfg := decide (off = Reg.culletPoolcfg k)
    let new := poolFields cfg v
    if lockedFor s w off then (if new = s.reg off then s else recordLocked s w.who off)
    else writePool s k cfg (decide (w.who.val = 16)) new
  else writeFields s w r off v

/-! ## One register, one access -/

/-- A register written whole, with the effect its block gives the write. -/
def writeReg (s : State) (w : Writer) (r : RegRow) (off v t : Nat) : State :=
  match if w.port && decide (blockNo off ≠ 13) then 99 else blockNo off with
  | 0 => writeDev s w r off v t
  | 1 => writeRing s w r off v
  | 3 => writeMarver s w r off v t
  | 4 => writeLehra s w r off v t
  | 5 => if w.manages then writeFields s w r off v else s
  | 6 => writeCruc s w r off v
  | 7 => writeMemc s w r off v t
  | 8 => if w.manages then writeFields s w r off v else s
  | 9 => writeBlowpipe s w r off v
  | 10 => if w.engine || decide (w.who.val = 0) then writeFields s w r off v else s
  | 11 => writeTherm s w r off v t
  | 12 => writeResetBlock s w r off v t
  | 13 => writeCore s w r off v t
  | 14 => writeCullet s w r off v
  | _ => s

/-- The 32-bit register at an offset. -/
def row32 (off : Nat) : Option RegRow := (regRow off).filter (fun r => decide (r.width = 32))
/-- The 64-bit register at an offset. -/
def row64 (off : Nat) : Option RegRow := (regRow off).filter (fun r => decide (r.width = 64))

/-- A 32-bit write: it acts on a 32-bit register only (R12). -/
def csrWrite32 (s : State) (w : Writer) (off v t : Nat) : State :=
  match row32 off with
  | some r => writeReg s w r off (v % 2 ^ 32) t
  | none => s

/-- A CSR write of 32 or 64 bits (R11, R12): misaligned, it is to a reserved offset; 64 bits over 32-bit registers act as two halves. -/
def csrWriteAt (s : State) (w : Writer) (off : Nat) (wide : Bool) (v t : Nat) : State :=
  if off % (if wide then 8 else 4) ≠ 0 then s
  else if !wide then csrWrite32 s w off v t
  else match row64 off with
    | some r => writeReg s w r off (v % 2 ^ 64) t
    | none => csrWrite32 (csrWrite32 s w off v t) w (off + 4) (v / 2 ^ 32) t

/-- CSR_WRITE (R10-R12): a write that reaches its block. -/
def execCsrWrite (acc : Accessor) (off : BitVec 28) (wide : Bool) (v : BitVec 64) (t : Nat) (s : State) : Out :=
  .next (csrWriteAt (s.at t) (writerOf acc) off.toNat wide v.toNat t)

/-! ## Reading -/

/-- The register a read of an event log removes the oldest entry of, and the read's effect. -/
def popLog (s : State) (off : Nat) : Option State :=
  if off = Reg.marverEvlog then some (outState s (execMarverEvlogRead s))
  else if off = Reg.lehraEvlog then some (outState s (execLehraEvlogRead s))
  else if off = Reg.blowpipeEvlog then some (outState s (execBlowpipeEvlogRead s))
  else if off = Reg.thermEvlog then some (outState s (execThermEvlogRead s))
  else if off = Reg.resetEvlog then some (outState s (execResetEvlogRead s))
  else if off = Reg.devCfgevlog then some (outState s (execCfgEvlogRead s))
  else match indexIn off (Reg.crucEvlog 0) 0x40000 4, indexIn off (Reg.memcEvlog 0) 0x10000 16 with
    | some k, _ => some (outState s (execCrucEvlogRead (Fin.ofNat 4 k) s))
    | _, some m => some (outState s (execMemcEvlogRead (Fin.ofNat 16 m) s))
    | none, none => none

/-- CULLET_PTDATA and CULLET_BTDATA show what their selectors name, CULLET_OPSTAT whether an operation is in progress (R240). -/
def culletShows (s : State) (k off : Nat) : Option Word :=
  if off = Reg.culletPtdata k then some (BitVec.ofNat 64 (pte s k (s.regFld (Reg.culletPtsel k) 0 8) (s.regFld (Reg.culletPtsel k) 12 12)).toNat)
  else if off = Reg.culletBtdata k then
    let i := 2048 * s.regFld (Reg.culletBtsel k) 0 6 + s.regFld (Reg.culletBtsel k) 6 11 / 4 * 4
    some (BitVec.ofNat 64 (leNat ((List.range 4).flatMap (fun j => leBytes 2 (sget 0#16 (s.cull k).bias (i + j)).toNat))))
  else if off = Reg.culletOpstat k then some (setBit (s.reg off) 16 (opBusy s k))
  else none

/-- Whether a read of a ring's register is answered (R327): to the ring's owner, partition 0, and whoever is no function. -/
def ringReads (s : State) (who : Ident) (off : Nat) : Bool :=
  decide (blockNo off ≠ 1) || decide (16 ≤ who.val) || ringWriter s who ((off - 0x100000) / 0x1000)

/-- A register read by a requester; readData takes its value. A sync counter answers only whom R206 lets read it, a ring's register only whom R327
does; CORE_BUSYNS counts to the moment of the read (R120). -/
def readReg (s0 : State) (who : Ident) (off : Nat) : State :=
  match popLog s0 off with
  | some s1 => s1
  | none =>
    let c := (off - 0x1000000) / 0x10000
    let s := if blockNo off = 13 ∧ off = Reg.coreBusyns c then accrue s0 c else if off = Reg.marverGpstat then gptpShows s0 else s0
    if blockNo off = 13 ∧ (indexIn off (Reg.coreSync c 0) 4 2048).isSome ∧ !windowServes s (.ident who) c false then
      { windowRefused s c with readData := 0#64 }
    else if !ringReads s who off then { s with readData := 0#64 }
    else { s with readData := (if blockNo off = 14 then culletShows s ((off - 0x2000000) / 0x40000) off else none).getD (s.reg off) }

/-- A 32-bit read; a reserved offset, or half of a 64-bit register, reads zero. -/
def csrRead32 (s : State) (who : Ident) (off : Nat) : State :=
  match row32 off with
  | some _ => readReg s who off
  | none => { s with readData := 0#64 }

/-- A CSR read of 32 or 64 bits (R11, R12). -/
def csrReadAt (s : State) (who : Ident) (off : Nat) (wide : Bool) : State :=
  if off % (if wide then 8 else 4) ≠ 0 then { s with readData := 0#64 }
  else if !wide then csrRead32 s who off
  else match row64 off with
    | some _ => readReg s who off
    | none =>
      let s1 := csrRead32 s who off
      let s2 := csrRead32 s1 who (off + 4)
      { s2 with readData := setFld s1.readData 32 32 (fld s2.readData 0 32) }

/-! ## CSR requests of the fabric -/

/-- The device address of a CSR offset (R20). -/
def csrAddr (off : Nat) : Nat := 0xF00000000000 + off

/-- What the link keeper answers while the host die is in a warm reset (R562). -/
def keeperAnswers (off : Nat) : Bool := off = Reg.resetStat || off = Reg.resetCause || off = Reg.resetCausetime

/-- A CSR request that has been judged at its ingress crucible (R492-R495): the state and whether it goes on. A request past its tracker share, or one
the link keeper drops, has gone no further. -/
def csrJudge (s : State) (r : Req) (off : Nat) (write : Bool) : State × Option Poison :=
  let a := csrAddr off
  let c := checkReq s r a write
  match c.2 with
  | .error p => (c.1, some p)
  | .ok _ => if reachable c.1 r a then (c.1, none) else (poisonAt c.1 (ingressOf c.1 r.node (homeOf c.1 a)), some .fenced)

/-- The tracker entry of a CSR request; its answer waits for CSRRSP. -/
def csrTrack (s0 s : State) (r : Req) (off tag : Nat) (owner : Option Nat) (poisoned : Bool) (data : List Byte) : State :=
  trackReq s0 s r tag (csrAddr off) 2 .collective owner poisoned data

/-- CSRRD (R12, R21, R463, R492, R562): one CSR read of a node as an identity. -/
def execCsrrd (node : BitVec 8) (who : Ident) (tag : BitVec 12) (cls : BitVec 2) (off : BitVec 28) (want : CsrFor) (t : Nat) (s : State) : Out :=
  let s := s.at t
  let wide := want.wide
  let owner := forCmd s node.toNat who.val want.cmd
  let n := if wide then 8 else 4
  let o := off.toNat
  if node.toNat = 0x64 ∧ hostDieDown s ∧ !s.rst.linkUp then .next s
  else if node.toNat = 0x64 ∧ hostDieDown s ∧ !keeperAnswers o then .next { s with readData := BitVec.ofNat 64 (2 ^ (8 * n) - 1) }
  else if node.toNat = 0x64 ∧ hostDieDown s then .next (csrReadAt s who o wide)
  else
    let r := packetReq s node.toNat who.val cls.toNat none
    if !canIssue s node.toNat tag.toNat (csrAddr o) 1 true .collective then .next s
    else
      let j := csrJudge s r o false
      match j.2 with
      | some _ => .next (csrTrack s j.1 r o tag.toNat owner true (poisonBytes 0 n))
      | none =>
        let s1 := csrReadAt j.1 who o wide
        .next (csrTrack s s1 r o tag.toNat owner false (leBytes n s1.readData.toNat))

/-- CSRWR (R12, R463, R492, R562): one CSR write of a node as an identity. -/
def execCsrwr (node : BitVec 8) (who : Ident) (tag : BitVec 12) (cls : BitVec 2) (off : BitVec 28) (want : CsrFor) (v : BitVec 64) (t : Nat)
    (s : State) : Out :=
  let s := s.at t
  let wide := want.wide
  let owner := forCmd s node.toNat who.val want.cmd
  let o := off.toNat
  if node.toNat = 0x64 ∧ hostDieDown s then .next s
  else
    let r := packetReq s node.toNat who.val cls.toNat none
    if !canIssue s node.toNat tag.toNat (csrAddr o) 1 true .collective then .next s
    else
      let j := csrJudge s r o true
      match j.2 with
      | some _ => .next (csrTrack s j.1 r o tag.toNat owner true [])
      | none => .next (csrTrack s (csrWriteAt j.1 (writerOf (.ident who)) o wide v.toNat t) r o tag.toNat owner false [])

end Sys2Proof.Machine
end

