-- ==== Sys2Proof/Machine/Config.lean ====
section
/-! DEFINITION. The two-party commit (R581-R584, R592, R594), the frit switch (R588) and the reapplication of the active configuration (R560). -/

namespace Sys2Proof.Machine

/-! ## Change blocks (R581) -/

/-- A change block as read from DRAM: CGEN, TOKEN, CRC and the entries. -/
structure ChangeBlock where
  cgen : Nat
  token : Nat
  crc : Nat
  entries : List CfgEntry
  deriving DecidableEq, Repr

/-- Gaffer firmware reads a change block and checks its layout: the block, or the status that refuses it. -/
def readBlock (s : State) (ecc : MemEcc) (addr : Nat) : State × Except Nat ChangeBlock :=
  if addr % 64 ≠ 0 then (s, .error 0x0940)
  else
    let h := devRead s gafferReq ecc addr 64
    match h.2 with
    | .error p => (h.1, .error (p.status))
    | .ok hd =>
      let n := leAt hd 6 2
      if leAt hd 0 4 ≠ 0x4843394A ∨ leAt hd 4 2 ≠ 1 ∨ n = 0 ∨ 1024 < n ∨ !allZero (sliceBytes hd 16 44) then (h.1, .error 0x0940)
      else
        let r := devRead h.1 gafferReq ecc (addr + 64) (16 * n)
        match r.2 with
        | .error p => (r.1, .error (p.status))
        | .ok bs =>
          if crc32c (hd.take 12 ++ leBytes 4 0 ++ sliceBytes hd 16 44 ++ bs) ≠ leAt hd 60 4 ∨ !entriesOk n bs then (r.1, .error 0x0940)
          else (r.1, .ok ⟨leAt hd 8 4, leAt hd 12 4, leAt hd 60 4, parseEntries n bs⟩)

/-! ## The checks of a proposal (R582) -/

/-- The index of the entry that names an offset; 0 where none does. -/
def entryOf (es : List CfgEntry) (off : Nat) : Nat := (es.findIdx? (fun e => decide (e.off = off))).getD 0

/-- The value a register would hold after the entries, as the entries write it. -/
def proposed (s : State) (es : List CfgEntry) (off : Nat) : Nat :=
  match es.find? (fun e => decide (e.off = off)) with
  | some e => e.value
  | none => (s.reg off).toNat

/-- The value a register would hold after the entries under its fields. -/
def resulting (s : State) (es : List CfgEntry) (off : Nat) : Nat :=
  match es.find? (fun e => decide (e.off = off)), regRow off with
  | some e, some r => fieldsWritten r (s.reg off).toNat e.value false
  | _, _ => (s.reg off).toNat

/-- A region of a table: the values of its two registers. -/
structure RgnPair where
  a : Nat
  b : Nat
  deriving DecidableEq, Repr

/-- First 4 KiB unit of a region. -/
def RgnPair.base (r : RgnPair) : Nat := bitsOf r.a 12 36
/-- Its size in 4 KiB units. -/
def RgnPair.size (r : RgnPair) : Nat := bitsOf r.b 0 37
/-- Whether it is valid and holds a 4 KiB unit. -/
def RgnPair.holds (r : RgnPair) (g : Nat) : Bool := decide (r.a % 2 = 1) && decide (r.base ≤ g) && decide (g < r.base + r.size)

/-- A region is well-formed (R577). -/
def RgnPair.wellFormed (r : RgnPair) : Bool :=
  if r.a % 2 = 0 then decide (r.a = 0) && decide (r.b = 0)
  else decide (bitsOf r.a 6 6 = 0) && decide (bitsOf r.a 48 16 = 0) && decide (bitsOf r.b 37 9 = 0) && decide (1 ≤ r.size) &&
    decide (r.base + r.size ≤ 2 ^ 36) && decide (bitsOf r.a 3 3 ≤ 2) &&
    (decide (bitsOf r.a 3 3 = 0) || decide ((r.base + r.size) * 4096 ≤ 0x2000000000))

/-- Identities 0 and 16 may read and write (R582 check 7). -/
def RgnPair.grants (r : RgnPair) : Bool := decide (bitsOf r.a 1 2 = 3) && decide (bitsOf r.b 46 1 = 1) && decide (bitsOf r.b 62 1 = 1)

/-- The table that would result at crucible k. -/
def tableAfter (s : State) (es : List CfgEntry) (k : Nat) : List RgnPair :=
  (List.range 256).map (fun n => ⟨proposed s es (Reg.crucRgna k n), proposed s es (Reg.crucRgnb k n)⟩)

/-- The entry that a failing region is charged to: the later of those that name its registers. -/
def regionEntry (es : List CfgEntry) (k n : Nat) : Nat := max (entryOf es (Reg.crucRgna k n)) (entryOf es (Reg.crucRgnb k n))

/-- Check 6: the first region that is not well-formed, as its crucible and number. -/
def badRegion (s : State) (es : List CfgEntry) : Option (Nat × Nat) :=
  (List.range 4).findSome? (fun k => ((tableAfter s es k).findIdx? (fun r => !r.wellFormed)).map (fun n => (k, n)))

/-- The first 4 KiB unit of the CSR range, and the one past its last (R20). -/
def csrUnits : Nat × Nat := (0xF00000000, 0xF00010000)

/-- The units of the CSR range at which the region that decides may change. -/
def csrEdges (tbl : List RgnPair) : List Nat :=
  csrUnits.1 :: (tbl.flatMap (fun r => if r.a % 2 = 1 then [r.base, r.base + r.size] else [])).filter
    (fun g => decide (csrUnits.1 ≤ g) && decide (g < csrUnits.2))

/-- Check 7 at one crucible: none, or the lowest region that shuts identity 0 or 16 out of a CSR offset; 256 where no region holds one. -/
def lockout (tbl : List RgnPair) : Option Nat :=
  ((csrEdges tbl).filterMap (fun g => match tbl.findIdx? (fun r => r.holds g) with
    | none => some 256
    | some n => if (tbl.getD n ⟨0, 0⟩).grants then none else some n)).min?

/-- Check 7: the first crucible locked out, with the region. -/
def badLockout (s : State) (es : List CfgEntry) : Option (Nat × Nat) :=
  (List.range 4).findSome? (fun k => (lockout (tableAfter s es k)).map (fun n => (k, n)))

/-- The position of the lowest bit set. -/
def lowBit (m : Nat) : Nat := ((List.range 64).find? (fun i => decide (bitsOf m i 1 = 1))).getD 0

/-- The entry that breaks a rule of the manifest at crucible k (R584). -/
def ruleAt (s : State) (es : List CfgEntry) (r : ManifestRule) (k : Nat) : Option Nat :=
  if bitsOf r.crucMask k 1 = 0 then none
  else if r.kind = 2 then
    let n := r.index % 256
    if proposed s es (Reg.crucRgna k n) = (s.reg (Reg.crucRgna k n)).toNat ∧ proposed s es (Reg.crucRgnb k n) = (s.reg (Reg.crucRgnb k n)).toNat
    then none else some (regionEntry es k n)
  else
    ((tableAfter s es k).findIdx? (fun p => decide (p.a % 2 = 1) && decide (bitsOf p.a 2 1 = 1) && decide (p.base * 4096 ≤ r.hi) &&
      decide (r.lo < (p.base + p.size) * 4096) &&
      (List.range 18).any (fun i => decide (bitsOf p.b (46 + i) 1 = 1) && decide (bitsOf r.fmask i 1 = 0)))).map (regionEntry es k)

/-- The entry that breaks a rule of the manifest; none when the rule holds. -/
def ruleBroken (s : State) (es : List CfgEntry) (r : ManifestRule) : Option Nat :=
  if r.kind = 1 then
    let v := (resulting s es r.offset &&& r.fmask) / 2 ^ lowBit r.fmask
    if r.lo ≤ v ∧ v ≤ r.hi then none else some (entryOf es r.offset)
  else (List.range 4).findSome? (ruleAt s es r)

/-- Check 9: the first rule broken, with the entry. -/
def badRule (s : State) (es : List CfgEntry) (rules : List ManifestRule) : Option (Nat × Nat) :=
  rules.zipIdx.findSome? (fun p => (ruleBroken s es p.1).map (fun e => (p.2, e)))

/-- The type of an entry that names a DEV_SECARBt. -/
def arbType (off : Nat) : Option Nat := (indexIn off (Reg.devSecarb 1) 8 4).map (· + 1)

/-- R594: the new count does not fall, and excludes no image in use. -/
def arbOk (s : State) (e : CfgEntry) : Bool :=
  match arbType e.off with
  | none => true
  | some t => decide (s.regFld (Reg.devSecarb t) 0 7 ≤ e.value) && decide (e.value ≤ 63) &&
      (match s.cfg.images.lookup t with
        | some im => decide (e.value ≤ im.svn)
        | none => false)

/-- The status and RESULT of a failed proposal. -/
structure Failure where
  status : Nat
  entry : Nat
  rule : Nat
  deriving DecidableEq, Repr

/-- Checks 8 to 10. -/
def checkRules (s : State) (es : List CfgEntry) : Option Failure :=
  match s.cfg.manifest with
  | none => some ⟨0x0945, 0, 0⟩
  | some rules =>
    match badRule s es rules with
    | some (j, e) => some ⟨0x0946, e, j⟩
    | none => (es.findIdx? (fun e => !arbOk s e)).map (fun i => ⟨0x0947, i, 0⟩)

/-- Checks 4 to 10 (R582), in their order. -/
def checkBlock (s : State) (b : ChangeBlock) : Option Failure :=
  match b.entries.findIdx? (fun e => !lockable e.off) with
  | some i => some ⟨0x0941, i, 0⟩
  | none =>
    if b.cgen ≠ s.regFld Reg.devCfggen 0 32 then some ⟨0x0942, 0, 0⟩
    else match badRegion s b.entries with
      | some (k, n) => some ⟨0x0943, regionEntry b.entries k n, 0⟩
      | none => match badLockout s b.entries with
        | some (k, n) => some ⟨0x0944, if n < 256 then regionEntry b.entries k n else 0, 0⟩
        | none => checkRules s b.entries

/-- A command that ends with a failure reports its entry and rule. -/
def failOp (s : State) (c : Cmd) (f : Failure) : State :=
  endOp (mapCmd s c.key (fun c => { c with result := f.entry % 2 ^ 16 + f.rule % 2 ^ 16 * 2 ^ 16 })) c f.status 0

/-- The co-sign token (R582). -/
def cosign (b : ChangeBlock) (nonce : Nat) : Nat := crc32c (leBytes 4 b.crc ++ leBytes 4 b.cgen ++ leBytes 4 nonce)

/-- A proposal that passes every check is stored. -/
def storeProposal (s : State) (c : Cmd) (b : ChangeBlock) : State :=
  let tl := cosign b (Config.nonce s.fresh).toNat
  let s1 := { s with cfg := { s.cfg with proposal := some ⟨b.entries, b.crc, b.cgen, tl⟩ } }.nextFresh
  endOp (s1.setRegBit Reg.devCfgstat 1 true) c 0 (tl + b.cgen * 2 ^ 32)

/-- The proposal of a change block at an address. -/
def propose (s : State) (c : Cmd) (ecc : MemEcc) (addr : Nat) : State :=
  if !s.lehrB.lehrARuns then failOp s c ⟨0x0949, 0, 0⟩
  else if s.regBit Reg.devCfgstat 2 then failOp s c ⟨0x0948, 0, 0⟩
  else
    let r := readBlock s ecc addr
    match r.2 with
    | .error st => failOp r.1 c ⟨st, 0, 0⟩
    | .ok b =>
      if b.token ≠ 0 then failOp r.1 c ⟨0x0940, 0, 0⟩
      else match checkBlock r.1 b with
        | some f => failOp r.1 c f
        | none => storeProposal r.1 c b

/-- CONFIG_PROPOSE (R350, R582). -/
def execConfigPropose (part : Fin 16) (seq : BitVec 32) (ecc : MemEcc) (t : Nat) (s : State) : Out :=
  let s := s.at t
  match opCmd s part.val seq.toNat 0x60 with
  | none => .next s
  | some c => .next (propose s c ecc (leAt c.entry 24 8))

/-! ## The commit (R583, R592) -/

/-- The proposal is discarded. -/
def dropProposal (s : State) : State := { s with cfg := { s.cfg with proposal := none } }.setRegBit Reg.devCfgstat 1 false

/-- The crucible and register (true: CULLET_POOLCFG) of an entry that names a pool register. -/
def poolEntry (off : Nat) : Option (Nat × Bool) :=
  match indexIn off (Reg.culletPoolbase 0) 0x40000 4, indexIn off (Reg.culletPoolcfg 0) 0x40000 4 with
  | some k, _ => some (k, false)
  | _, some k => some (k, true)
  | none, none => none

/-- Check 5: every entry would be accepted now, in order (R212 for the pool, R40 for the frame period). -/
def entriesAccepted : State → List CfgEntry → Bool
  | _, [] => true
  | s, e :: es =>
    if e.off = Reg.devFrmper then decide (10000000 ≤ e.value) && decide (e.value ≤ 100000000) && entriesAccepted s es
    else match poolEntry e.off with
      | none => entriesAccepted s es
      | some (k, cfg) =>
        let s1 := writePool (s.setRegBit (Reg.culletStatus k) 9 false) k cfg false (poolFields cfg e.value)
        !s1.regBit (Reg.culletStatus k) 9 && entriesAccepted s1 es

/-- An entry written by Lehr A, with the effect of a write of its register (R583 step 2). -/
def applyEntry (t : Nat) (s : State) (e : CfgEntry) : State := csrWriteAt s ⟨⟨16, by decide⟩, true, false⟩ e.off (decide (e.width = 8)) e.value t

/-- Lehr A's copy of the region table follows an entry (R499). -/
def copyRegion (s : State) (e : CfgEntry) : State :=
  if 0x500000 ≤ e.off ∧ e.off < 0x600000 then
    { s with cfg := { s.cfg with rgnCopy := sput 0#64 s.cfg.rgnCopy e.off (s.reg e.off) } }
  else s

/-- Lehr A blows fuses of type t up to a count (R592); `reached` gives the count where a fuse fails. Fuses are never cleared. -/
def blowFuses (reached : List (Nat × Nat)) (s : State) (t v : Nat) : State :=
  let old := sget 0 s.cfg.arbFuses t
  let n := match reached.lookup t with
    | some c => max old (min c v)
    | none => max old v
  let s1 := { s with cfg := { s.cfg with arbFuses := sput 0 s.cfg.arbFuses t n } }.setReg (Reg.devSecarb t) (BitVec.ofNat 64 n)
  if n < v then s1.logCfg 0x0954 else s1

/-- The fuses of every DEV_SECARBt entry. -/
def blowEntry (reached : List (Nat × Nat)) (s : State) (e : CfgEntry) : State :=
  match arbType e.off with
  | none => s
  | some t => blowFuses reached s t (bitsOf e.value 0 7)

/-- A commit that passed is applied from Lehr A's own copy. -/
def applyCommit (s : State) (c : Cmd) (p : Proposal) (reached : List (Nat × Nat)) (t : Nat) : State :=
  let s1 := p.entries.foldl (applyEntry t) s
  let s2 := p.entries.foldl (blowEntry reached) (p.entries.foldl copyRegion s1)
  let gen := (s2.regFld Reg.devCfggen 0 32 + 1) % 2 ^ 32
  let s3 := ((dropProposal s2).setRegFld Reg.devCfggen 0 32 gen).setRegBit Reg.devCfgstat 0 true
  endOp s3 c 0 (gen + p.entries.length * 2 ^ 32)

/-- A commit that failed discards the proposal. -/
def failCommit (s : State) (c : Cmd) (status : Nat) : State := endOp (dropProposal s) c status 0

/-- The commit of the change block at an address (R583). -/
def commitConfig (s : State) (c : Cmd) (ecc : MemEcc) (addr : Nat) (reached : List (Nat × Nat)) (t : Nat) : State :=
  if !s.lehrB.lehrARuns then failCommit s c 0x0949
  else match s.cfg.proposal with
    | none => failCommit s c 0x094A
    | some p =>
      let r := readBlock s ecc addr
      match r.2 with
      | .error _ => failCommit r.1 c 0x094B
      | .ok b =>
        if b.crc ≠ p.crc then failCommit r.1 c 0x094B
        else if b.token ≠ p.token then failCommit r.1 c 0x094C
        else if r.1.regFld Reg.devCfggen 0 32 ≠ p.cgen then failCommit r.1 c 0x0942
        else if !entriesAccepted r.1 p.entries then failCommit r.1 c 0x094D
        else applyCommit r.1 c p reached t

/-- CONFIG_COMMIT (R350, R583, R592). -/
def execConfigCommit (part : Fin 16) (seq : BitVec 32) (ecc : MemEcc) (reached : List (Fin 4 × BitVec 7)) (t : Nat) (s : State) : Out :=
  let s := s.at t
  match opCmd s part.val seq.toNat 0x61 with
  | none => .next s
  | some c => .next (commitConfig s c ecc (leAt c.entry 24 8) (reached.map (fun r => (r.1.val + 1, r.2.toNat))) t)

/-! ## The frit switch (R588) and the reapplication (R560) -/

/-- The settings of the stored batch. -/
def batchList (s : State) : List CfgEntry := s.cfg.batch.getD []

/-- The active configuration with a frit, or none: the batch overlaid by the frit. -/
def overlay (s : State) (target : Option Nat) : List CfgEntry :=
  let fs := match target with
    | some f => sget [] s.cfg.frits f
    | none => []
  fs ++ (batchList s).filter (fun b => !fs.any (fun f => decide (f.off = b.off)))

/-- The active frit (DEV_FRITSTAT). -/
def activeFrit (s : State) : Option Nat :=
  if s.regBit Reg.devFritstat 4 then none else some (s.regFld Reg.devFritstat 0 4)

/-- The frit that DEV_FRITCTL names. -/
def requestedFrit (s : State) : Option Nat := if s.regBit Reg.devFritctl 4 then none else some (s.regFld Reg.devFritctl 0 4)

/-- A setting written to its register; one that the register's block refuses sets PARTIAL and is logged. -/
def applySetting (t : Nat) (s : State) (e : CfgEntry) : State :=
  match regRow e.off with
  | none => s
  | some r =>
    let s1 := applyEntry t s e
    if (s1.reg e.off).toNat &&& r.rw = e.value &&& r.rw then s1 else (s1.setRegBit Reg.devFritstat 7 true).logCfg 0x0951

/-- The settings that give the registers of the old configuration that the new one does not name their reset values. -/
def returned (old new : List CfgEntry) : List CfgEntry :=
  (old.filter (fun o => !new.any (fun n => decide (n.off = o.off)))).map (fun o => { o with value := (regReset o.off).toNat })

/-- A frame boundary starts a pending switch (R588): Bench dispatches no run until it ends. -/
def startSwitch (s : State) : State :=
  if s.frmEn && s.regBit Reg.devFritstat 5 then { s with cfg := { s.cfg with switching := some (requestedFrit s) } } else s

/-- The frit engine's switch to a target: PEND stays where a later request came in between. -/
def switchTo (s : State) (target : Option Nat) (t : Nat) : State :=
  let new := overlay s target
  let s1 := (returned s.cfg.applied new ++ new).foldl (applySetting t) s
  let s2 := { s1 with cfg := { s1.cfg with applied := new, switching := none } }
  let s3 := (s2.setRegFld Reg.devFritstat 0 4 (target.getD 0)).setRegBit Reg.devFritstat 4 target.isNone
  if requestedFrit s3 = target then s3.setRegBit Reg.devFritstat 5 false else s3

/-- The frit engine's switch to a target, and the loads of frits that waited for its end. -/
def finishSwitch (s : State) (target : Option Nat) (t : Nat) : State :=
  let s1 := switchTo s target t
  s1.cfg.waitingLoads.foldl loadFrit { s1 with cfg := { s1.cfg with waitingLoads := [] } }

/-- A switch in progress is brought to its end. -/
def endSwitch (s : State) (t : Nat) : State :=
  match s.cfg.switching with
  | none => s
  | some target => finishSwitch s target t

/-- FRIT_SWITCH (R588): the frit engine, in a switch that a frame boundary started. -/
def execFritSwitch (t : Nat) (s : State) : Out := .next (endSwitch (s.at t) t)

/-- R560: the batch and the active frit applied to the registers that a test holds of. -/
def reapply (s : State) (inBlock : Nat → Bool) (t : Nat) : State :=
  let es := (overlay s (activeFrit s)).filter (fun e => inBlock e.off)
  let s1 := es.foldl (applySetting t) s
  { s1 with cfg := { s1.cfg with applied := s1.cfg.applied.filter (fun e => !inBlock e.off) ++ es } }

end Sys2Proof.Machine
end

