-- ==== Sys2Proof/Machine/BlockReset.lean ====
section
/-! DEFINITION. The reset of a block under the protocol of R557 and R558: what each kind of block loses when it enters RESET, and its restart
(R559-R561, R499, R242, R281, R543). -/

namespace Sys2Proof.Machine

/-! ## What a reset takes away -/

/-- A core under a reset that covers it (R117, R131). A disabled core stays disabled, and a core whose vertical port is lost in QUARANTINE, till a
device cold reset (R116, R476). -/
def coreContents (s : State) (c : Nat) : State :=
  if s.coreSt c = .disabled then s
  else if (s.core c).portLost then (enterReset s c).setCoreSt c .quarantine
  else enterReset s c

/-- A compute die: its cores and its Bench instance (R551, R404). -/
def dieContents (s : State) (d : Nat) : State :=
  (coresOfDie d).foldl (fun s c => syncBind (coreContents s c) c) (s.resetRegs (Reg.benchId d) (Reg.benchId d + 0x10000))

/-- The MEMC registers that a warm or crucible reset keeps (R549): state, counters, epochs and the scrub pointer of channel h. -/
def memcKept (h off : Nat) : Bool :=
  let site := h / 4
  let l := h % 4
  [Reg.memcChstat site l, Reg.memcCorr site l, Reg.memcUnc site l, Reg.memcLost site l, Reg.memcEpoch site l, Reg.memcScrubptr site l].contains off

/-- A channel's controller in reset (R543, R549): memory is woken first; a channel in SERVICE or TRAINING is OFF, one that was FROZEN or RECOVERING
takes the recovery path, a retired one stays; MEMC_TDVAL shows the trained value that is kept. The capture of a frozen channel goes to Lehr A's fault record. -/
def channelContents (s0 : State) (h : Nat) : State :=
  let s := if s0.chSt h = 6 then wakeMemory s0 else s0
  let s1 := if s.chSt h = 3 then s.raise (0x0406 + s.regFld (Reg.memcFrzcause (h / 4) (h % 4)) 0 4) h else s
  let base := Reg.memcChstat (h / 4) (h % 4)
  let s2 := syncDelay (s1.resetRegsBut base (base + 0x100) (memcKept h)) h
  if s.chSt h = 1 ∨ s.chSt h = 2 then syncScrub (s2.setChSt h 0) h else s2

/-- The channels of a crucible. -/
def channelsOf (k : Nat) : List Nat := (List.range 16).map (16 * k + ·)

/-- The commands that have something staged at crucible k (R499): Bench cancels them before their lines are lost (R395). -/
def stagersOn (s : State) (k : Nat) : List Nat :=
  let here (a : Nat) : Bool := decide (homeOf s a = k)
  (((s.mem.staged.filter (fun p => p.2.any (fun c => here c.1))).map (fun p => ownerOf p.1)) ++
    (s.fab.comb.filter (fun x => (combLines x).any (fun l => here (64 * l)))).map (·.owner)).eraseDups

/-- Staged bytes homed on crucible k are lost (R499). -/
def dropHomed (s : State) (k : Nat) : State :=
  let here (a : Nat) : Bool := decide (homeOf s a = k)
  { s with
    mem := { s.mem with
      staged := (s.mem.staged.map (fun p => (p.1, p.2.filter (fun c => !here c.1)))).filter (fun p => !p.2.isEmpty)
      spilled := (s.mem.spilled.map (fun p => (p.1, p.2.filter (fun l => !here (64 * l))))).filter (fun p => !p.2.isEmpty) }
    fab := { s.fab with
      comb := s.fab.comb.filter (fun x => !(combLines x).any (fun l => here (64 * l))), badStaged := s.fab.badStaged.filter (fun x => !here (128 * x.2)) }
    bench := { s.bench with spillCopies := s.bench.spillCopies.filter (fun p => decide (p.1 ≠ k)) } }

/-- What a crucible holds beside its registers: its cache tags, sequences, tracker, event log and regulator counts. DESIGN CHOICE: R242 says that the
pages are lost and not whether they are scrubbed; when a pool is configured again, all of its pages are free at once. -/
def wipeCrucible (s : State) (k : Nat) : State :=
  { dropCached s k (fun _ => true) with
    cullet := sput Cullet.empty s.cullet k Cullet.empty
    regul := { s.regul with counts := s.regul.counts.filter (fun p => decide (p.1 / 32 ≠ k)) }
    fab := { s.fab with logs := sput EvLog.empty s.fab.logs k EvLog.empty, track := s.fab.track.filter (fun e => decide (e.cruc ≠ k)) } }

/-- A crucible (R242, R499, R561): its CRUC and CULLET blocks, its sequences, staged lines, tracker, event log and regulator counts. Without the clean
every epoch of its channels advances (R539). -/
def crucibleContents (s : State) (k : Nat) (clean : Bool) : State :=
  let s0 := (stagersOn s k).foldl (fun u o => markCancel o 0x0112 u) s
  let s1 := (dropHomed s0 k).resetRegs (Reg.crucId k) (Reg.crucId k + 0x40000)
  let s2 := s1.resetRegs (Reg.culletId k) (Reg.culletId k + 0x40000)
  let s3 := syncStage (wipeCrucible s2 k) k
  if clean then s3 else (channelsOf k).foldl advanceChannel s3

/-- The sensor die: Marver and its ports (R281, R321). -/
def sensorContents (s : State) : State := { s.resetRegs 0x300000 0x400000 with marver := .reset }

/-- What a block loses when it enters RESET. -/
def blockContents (s : State) (b : Block) (clean : Bool) : State :=
  match b with
  | .core c => coreContents s c.val
  | .die d => dieContents s d.val
  | .crucible k => crucibleContents s k.val clean
  | .channel h =>
    let s1 := channelContents s h.val
    if s.rst.domains.any (fun d => decide (d.kind = 5) && decide (d.index = h.val)) ∧ s1.chSt h.val ≠ 5 then s1.setChSt h.val 4 else s1
  | .sensorDie => sensorContents s
  | .hostDie => s

/-- A block enters RESET (R557, R558). -/
def enterBlockReset (s : State) (b : Block) (clean : Bool) : State := blockContents (poisonRuns s (blockToReset s b)) b clean

/-! ## The states before RESET -/

/-- The phase of a block. -/
def inPhase (s : State) (b : Block) (p : BlockPhase) : Bool := decide ((s.blockPhase b).map (·.phase) = some p)

/-- RESET_IDLECFG.WAIT in ns; values outside 10 to 1,000 µs act as the nearer end (R573). -/
def State.idleWait (s : State) : Nat := clampNat 10 1000 (s.regFld Reg.resetIdlecfg 0 10) * 1000

/-- Whether the wait for a block's acknowledgement is over: the block is silent, or WAIT has passed since the reset of its domain began. -/
def idleWaited (s : State) (b : Block) : Bool :=
  s.lehrA.silent.contains b || s.rst.domains.any (fun d => covers (d.kind, d.index) (blockDomain b) && decide (d.since + s.idleWait ≤ s.now))

/-- IDLE_ACK (R557): the block has served what it accepted and has nothing outstanding; the crucible has been cleaned (R561). -/
def execIdleAck (b : Block) (t : Nat) (s : State) : Out :=
  let s := s.at t
  if inPhase s b .idlereq then .next (enterBlockReset s b true) else .next s

/-- A block is fenced: its targets, and its own requests as orphans (R466, R557, R558). -/
def fenceBlock (s : State) (b : Block) : State :=
  let s1 := orphanNodes (poisonRuns s ((blockTargets b).foldl fenceTarget s)) (blockNodes b)
  (s1.setBlock ⟨b, .fenced, false⟩).logReset 0x0907 (blockDomain b).1 (blockDomain b).2

/-- IDLE_TIMEOUT (R557). -/
def execIdleTimeout (b : Block) (t : Nat) (s : State) : Out :=
  let s := s.at t
  if inPhase s b .idlereq && idleWaited s b then .next (fenceBlock s b) else .next s

/-- The entries of a block's nodes have left the ingress crucibles (R558). -/
def drainNodes (s : State) (b : Block) : State :=
  let s1 := { s with fab := { s.fab with track := s.fab.track.filter (fun e => !(blockNodes b).contains e.node) } }
  (List.range 4).foldl syncTrk s1

/-- ORPHAN_DRAIN_DONE (R557, R558 point 3): a fenced block enters RESET, a block in RESET may leave it. -/
def execOrphanDrainDone (b : Block) (t : Nat) (s : State) : Out :=
  let s := s.at t
  if inPhase s b .fenced then .next (enterBlockReset (drainNodes s b) b false)
  else if inPhase s b .reset then .next ((drainNodes s b).setBlock ⟨b, .reset, true⟩)
  else .next s

/-! ## The restart -/

/-- The vertical port of a core trains (R475, R559); a lost one stays lost. -/
def trainVport (s : State) (c : Nat) : State :=
  if (s.core c).portLost then s else clearLink (s.resetReg (Reg.puntyVstat c)) (26 + c)

/-- The vertical port of a core has trained. -/
def portUp (s : State) (c : Nat) : State :=
  if (s.core c).portLost ∨ s.regFld (Reg.puntyVstat c) 0 2 ≠ 0 then s else s.setRegFld (Reg.puntyVstat c) 0 2 1

/-- A lateral module trains anew (R478). -/
def trainModule (s : State) (m : Nat) : State :=
  let s1 := clearLink ((s.resetReg (Reg.puntyMstat m)).resetReg (Reg.puntyMfail m)) m
  { s1 with fab := { s1.fab with narrowed := s1.fab.narrowed.filter (fun x => decide (x ≠ m)) } }

/-- The modules that end at a crucible. -/
def modulesOf (k : Nat) : List Nat := (List.range 26).filter (fun m => (moduleCrucibles m).contains k)

/-- Lehr A rewrites a crucible's region table from its copy (R499). -/
def restoreRegions (s : State) (k : Nat) : State :=
  (s.cfg.rgnCopy.filter (fun p => decide (Reg.crucId k ≤ p.1) && decide (p.1 < Reg.crucId k + 0x40000))).foldl (fun s p => s.setReg p.1 p.2) s

/-- A channel's controller leaves reset (R536, R543). -/
def startChannel (s : State) (h : Nat) : State :=
  match s.chSt h with
  | 0 => s.setChSt h 1
  | 3 => s.setChSt h 4
  | 4 => s.setChSt h 4
  | _ => s

/-- What a block's restart begins with. The sensor die's modules train again where they were NARROW or REMOVED (R478). -/
def startBlock (s : State) (b : Block) : State :=
  match b with
  | .core c => trainVport s c.val
  | .die d => (coresOfDie d.val).foldl trainVport s
  | .crucible k => restoreRegions ((modulesOf k.val).foldl trainModule s) k.val
  | .channel h => startChannel s h.val
  | .sensorDie => ([20, 21, 22, 23].filter (fun m => decide (3 ≤ mstate s m))).foldl trainModule s
  | .hostDie => s

/-- Whether a thermal hold keeps a block in reset (R556). -/
def lineHeld (s : State) (b : Block) : Bool := s.rst.domains.any (fun d => d.hold && covers (d.kind, d.index) (blockDomain b))

/-- RESET_LINE_END (R557, R556): the line has been held 10 µs, no entry of the block is left, and no thermal hold keeps it. -/
def execResetLineEnd (b : Block) (t : Nat) (s : State) : Out :=
  let s := s.at t
  match s.blockPhase b with
  | none => .next s
  | some x =>
    if x.phase = .reset ∧ x.drained ∧ !lineHeld s b then .next (startBlock (s.setBlock ⟨b, .release, true⟩) b) else .next s

/-- The cores of a block. -/
def blockCores : Block → List Nat
  | .core c => [c.val]
  | .die d => coresOfDie d.val
  | _ => []

/-- The registers that R560 has Gaffer firmware apply again after a block's reset. -/
def reappliedIn (b : Block) (off : Nat) : Bool :=
  match b with
  | .crucible k => decide (Reg.crucId k.val ≤ off) && decide (off < Reg.crucId k.val + 0x40000)
  | .sensorDie => decide (0x300000 ≤ off) && decide (off < 0x400000)
  | _ => false

/-- A block is back in RUN: its fence is lifted, but for the cores whose port is lost (R476). -/
def finishBlock (s : State) (b : Block) (t : Nat) : State :=
  let s1 := (blockCores b).foldl portUp (blockToRun s b)
  let s2 := ((blockCores b).filter (fun c => (s1.core c).portLost)).foldl (fun s c => fenceTarget s (.core (Fin.ofNat 96 c))) s1
  let s3 := { s2 with lehrA := { s2.lehrA with silent := s2.lehrA.silent.filter (fun x => decide (x ≠ b)) } }
  releaseDomains (reapply s3 (reappliedIn b) t)

/-- BLOCK_RESTART_DONE (R557, R560): a failed restart goes back to RESET. -/
def execBlockRestartDone (b : Block) (pass : Bool) (t : Nat) (s : State) : Out :=
  let s := s.at t
  if !inPhase s b .release then .next s
  else if pass then .next (finishBlock s b t)
  else .next (s.setBlock ⟨b, .reset, true⟩)

/-! ## Bounds (R551, R555) -/

/-- The bound of a domain in ns. -/
def domainBound (kind : Nat) : Nat :=
  match kind with
  | 1 => 2000000
  | 2 => 12000000
  | 3 => 60000000
  | 4 => 100000000
  | 5 => 60000000
  | 6 => 10000000
  | 8 => 900000000
  | 9 => 50000000
  | 11 => 50000
  | 12 => 10000000
  | 13 => 10000000
  | _ => 150000000

/-- A device warm reset that missed its bound: once more, then HOLD (R555). -/
def warmAgain (s : State) (d : DomainReset) : State :=
  if s.rst.warmFails = 0 then
    let s1 := openDomain (recordCause s d.kind d.index 15) d.kind d.index 15 d.requested
    beginDomain { s1 with rst := { s1.rst with warmFails := 1 } } d.kind d.index
  else if s.rst.warmFails = 1 then
    let s1 := (s.logReset 0x090D d.kind d.index).setRegBit Reg.resetStat 7 true
    syncActive { s1 with rst := { s1.rst with warmFails := 2 } }
  else s

/-- The escalation of a domain (R555). A port that did not train stays down. -/
def escalate (s : State) (d : DomainReset) : State :=
  match d.kind with
  | 1 => startReset 2 (d.index / 8) 15 d.requested s
  | 2 => startReset 3 (d.index / 3) 15 d.requested s
  | 3 => startReset 7 0 15 d.requested s
  | 4 => startReset 7 0 15 d.requested s
  | 5 => retireChannel (blockToRun s (.channel (Fin.ofNat 64 d.index))) d.index
  | 7 => warmAgain s d
  | 10 => warmAgain s d
  | 12 => releaseDomains (s.setRegFld (Reg.marverCamst d.index) 0 2 0)
  | 13 => releaseDomains (s.setRegFld (Reg.marverEthst d.index) 0 2 0)
  | _ => s

/-- RESTART_TIMEOUT (R555): a domain that no thermal hold keeps has passed its bound. -/
def execRestartTimeout (kind : BitVec 4) (index : BitVec 8) (t : Nat) (s : State) : Out :=
  let s := s.at t
  match s.rst.domains.find? (fun d => decide (d.kind = kind.toNat) && decide (d.index = index.toNat)) with
  | none => .next s
  | some d =>
    if d.hold ∨ s.now < d.since + domainBound d.kind then .next s
    else .next (escalate (s.logReset 0x0908 d.kind d.index) d)

end Sys2Proof.Machine
end

