-- ==== Sys2Proof/Machine/FrameTick.lean ====
section
/-! DEFINITION. A frame boundary (R38) and what every part of the device does at it. -/

namespace Sys2Proof.Machine

/-- A live FRAME_RESULT of frame f, which ends, without a plan selected: NO_PLAN (R427). -/
def resultsEnd (s : State) (f : Nat) : State :=
  ((s.bench.cmds.filter (fun c => decide (c.op = 0x40) && decide (c.st ≠ .cancelling) && !newer32 c.frame f &&
      (match (s.frameSel c.frame).sel with
        | some x => decide (x.source = .none)
        | none => true))).foldl (fun s c => (markCancel c.key 0x0612 s).logLehrA 0x0612 0xFF c.frame) s)

/-- Whether a command has never been dispatched, and its operation has not begun. -/
def undispatched (c : Cmd) : Bool :=
  (decide (c.st = .waiting) || decide (c.st = .ready)) &&
    c.runs.all (fun r => decide (r.st = .queued) && !r.ckpt && !r.resumed && !r.rerun && decide (r.time = 0))

/-- R336: the command expires at the boundary that ends frame f: its FRAME has ended before its first dispatch, or the event it awaits has not been raised
by the end of the frame after the event's. -/
def expires (s : State) (f : Nat) (c : Cmd) : Bool :=
  decide (c.op ≠ 0x40) && undispatched c &&
    ((c.frameb && !newer32 c.frame f) || (!eventMet s c && !newer32 ((c.eventFrame + 1) % 2 ^ 32) f))

/-- The commands that expire as frame f ends. -/
def expireAll (s : State) (f : Nat) : State :=
  (s.bench.cmds.filter (expires s f)).foldl (fun s c => markCancel c.key 0x0110 s) s

/-- The commands whose frame begins at b: the time is known (R665), and speculation on it resolves (R393). -/
def beginFrames (s : State) (f b : Nat) : State :=
  let mine := s.bench.cmds.filter (fun c => c.frameb && decide (c.frame = f))
  mine.foldl (fun s c => syncSpec (mapCmd s c.key (fun c => { c with began := some b, srcFrame := false })) c.key) s

/-- What ends with frame f, before the boundary's own actions: the selection is made at the latest here (R424), the frame's results, watchdogs and tie-breaks
are closed (R427, R429, R442); while Lehr A is lost it judges nothing (R35). -/
def endFrame (s : State) (f : Nat) : State :=
  let s1 := resultsEnd (decideFrame s f) f
  if s.lehrB.lehrARuns then
    dropTies (closeWatchdogs s1) (fun t =>
      !s.bench.ties.any (fun x => decide (x.cmd.key = t.key) && decide (x.prog = t.prog) && x.core.isSome))
  else { s1 with lehrA := { s1.lehrA with kicked := [], violated := [] } }

/-- Lehr B at a boundary: its calibration blocks are read (R433). -/
def lehrBBoundary (s : State) (ecc : MemEcc) : State :=
  if lehrBRuns s then readRadcal ecc (readRadcal ecc s 0) 1 else s

/-- The boundary at device time b. -/
def boundary (s : State) (ecc : MemEcc) (b : Nat) : State :=
  let f := s.frmcnt
  let s1 := timerBoundary (endFrame (endSwitch s b) f) b
  let s2 := startSwitch s1
  let s3 := if inReset s2 (4, 0) then s2 else marverBoundary s2 s2.frmcnt b ecc
  let s4 := noteMet (beginFrames (expireAll s3 f) s3.frmcnt b)
  let s5 := lehrBBoundary { s4 with bench := { s4.bench with missed := [] } } ecc
  syncActive (syncFbReady s5)

/-- FRAME_BOUNDARY (R36-R38, R448): device time has come to the next active grid point `t`, or has passed it by an adjustment or while nobody
generated boundaries. Lehr A generates it; Lehr B does once it has taken over. -/
def execFrameBoundary (ecc : MemEcc) (t : Nat) (s : State) : Out :=
  if s.frame.nextBoundary = some t ∧ (s.lehrB.lehrARuns ∨ (s.lehrB.handover.isSome ∧ !s.lehrB.stoppedB)) then .next (boundary (s.at t) ecc t)
  else .next s

end Sys2Proof.Machine
end

