-- ==== Sys2Proof/Machine/OptionRead.lean ====
section
/-! DEFINITION. The option blocks, the repair log and their reader (R565-R570). -/

namespace Sys2Proof.Machine

/-- Bytes of the flash; an erased byte reads 0xFF (R568). -/
def flashBytes (s : State) (off n : Nat) : List Byte := (List.range n).map (fun i => sget 0xFF#8 s.rst.flash (off + i))

/-- Bytes programmed into the flash. -/
def programFlash (s : State) (off : Nat) (bs : List Byte) : State :=
  { s with rst := { s.rst with flash := bs.zipIdx.foldl (fun m p => sput 0xFF#8 m (off + p.2) p.1) s.rst.flash } }

/-! ## Option blocks (R566) -/

/-- A failed-column entry: columns 0 to 131 ascending, with 0xFF only after the last. -/
def colfailOk : List Nat → Bool
  | [] => true
  | a :: rest =>
    if a = 0xFF then rest.all (fun x => decide (x = 0xFF))
    else decide (a < 132) && (match rest with
      | [] => true
      | b :: _ => decide (a < b)) && colfailOk rest

/-- The four bytes of core c's COLFAIL entry. -/
def colfail (b : List Byte) (c : Nat) : List Nat := (sliceBytes b (64 + 4 * c) 4).map BitVec.toNat

/-- RLBASE and RLSIZE meet their table, and the log lies inside the flash. -/
def logAreaOk (s : State) (b : List Byte) : Bool :=
  let base := leAt b 20 4
  let size := leAt b 24 4
  decide (base % 4096 = 0) && decide (0x2000 ≤ base) && decide (size % 4096 = 0) && decide (base + size ≤ s.rst.flashSize) &&
    (if leAt b 16 1 % 2 = 1 then decide (4096 ≤ size) && decide (size ≤ 65536) else decide (size = 0))

/-- An option block is valid. -/
def optionBlockOk (s : State) (b : List Byte) : Bool :=
  decide (leAt b 0 4 = 0x504F394A) && decide (leAt b 4 2 = 1) && decide (crc32c (b.take 1020) = leAt b 1020 4) &&
    allZero (sliceBytes b 6 2) && decide (leAt b 16 4 / 2 = 0) && allZero (sliceBytes b 34 2) && allZero (sliceBytes b 36 28) &&
    allZero (sliceBytes b 448 572) && (List.range 96).all (fun c => colfailOk (colfail b c)) && logAreaOk s b && decide (leAt b 28 4 % 4096 = 0)

/-- A block as the reader holds it: its bytes when it is valid. -/
def readOption (s : State) (off : Nat) : Option (List Byte) :=
  let b := flashBytes s off 1024
  if optionBlockOk s b then some b else none

/-! ## The reader (R570) -/

/-- The code RESET_OPTSTAT.STATE shows. -/
def ReaderSt.code : ReaderSt → Nat
  | .off => 0
  | .readA => 1
  | .readB => 2
  | .select => 3
  | .readLog => 4
  | .apply => 5
  | .done => 6
  | .failed => 7

/-- The reader enters a state. -/
def setReader (s : State) (x : ReaderSt) : State := { s with rst := { s.rst with reader := x } }.setRegFld Reg.resetOptstat 0 3 x.code

/-- The reader starts (OFF to READA): ATTEMPTS is 1. -/
def startReader (s : State) : State := (setReader s .readA).setRegFld Reg.resetOptstat 8 2 1

/-- Block A has been read, or has not. -/
def takeA (s : State) (b : Option (List Byte)) : State :=
  setReader ({ s with rst := { s.rst with blockA := b } }.setRegBit Reg.resetOptstat 3 b.isSome) .readB

/-- Block B has been read, or has not. -/
def takeB (s : State) (b : Option (List Byte)) : State :=
  setReader ({ s with rst := { s.rst with blockB := b } }.setRegBit Reg.resetOptstat 4 b.isSome) .select

/-- The block in use (RESET_OPTSTAT.USEDB). -/
def usedBlock (s : State) : Option (List Byte) := if s.regBit Reg.resetOptstat 5 then s.rst.blockB else s.rst.blockA

/-- A block is put to use: USEDB, GEN, and the log next where it is in use. -/
def useBlock (s : State) (second : Bool) (b : List Byte) : State :=
  let s1 := (s.setRegBit Reg.resetOptstat 5 second).setReg Reg.resetOptgen (BitVec.ofNat 64 (leAt b 8 4))
  setReader s1 (if leAt b 16 1 % 2 = 1 then .readLog else .apply)

/-- No block is valid (R570): another attempt after a pause, or FAILED. -/
def noBlock (s : State) : State :=
  if s.regFld Reg.resetOptstat 8 2 < 3 then { s with rst := { s.rst with retryPause := true } }
  else
    let s1 := s.logReset 0x0902 8 0
    let s2 := if s1.regBit Reg.resetOptstat 7 then s1.logReset 0x0904 8 0 else s1
    syncActive ((setReader s2 .failed).setRegBit Reg.resetStat 7 true)

/-- SELECT (R567). -/
def selectBlock (s : State) : State :=
  match s.rst.blockA, s.rst.blockB with
  | none, none => noBlock s
  | some a, none => useBlock (s.logReset 0x0901 8 0) false a
  | none, some b => useBlock (s.logReset 0x0901 8 0) true b
  | some a, some b =>
    let ga := leAt a 8 4
    let gb := leAt b 8 4
    if ga = gb then
      if a = b then useBlock s false a else useBlock ((s.setRegBit Reg.resetOptstat 6 true).logReset 0x0903 8 0) false a
    else if newer32 gb ga then useBlock s true b else useBlock s false a

/-! ## The repair log (R568, R569) -/

/-- A log entry is good. -/
def logEntryOk (e : List Byte) : Bool :=
  decide (leAt e 0 1 = 0x5A) && decide (leAt e 1 1 < 96) && decide (leAt e 2 1 < 132) &&
    (decide (leAt e 3 1 = 1) || decide (leAt e 3 1 = 2)) && allZero (sliceBytes e 8 4) && decide (crc32c (e.take 12) = leAt e 12 4)

/-- A column joins a core's list: sorted, without duplicates (R569). -/
def addColumn (s : State) (c col : Nat) : State :=
  let old := s.failedCols c
  if old.contains col then s
  else { s with rst := { s.rst with repairMap := sput [] s.rst.repairMap c ((old.filter (· < col)) ++ [col] ++ (old.filter (col < ·))) } }

/-- One entry taken: a good one names a column, a bad one is counted and logged. -/
def takeEntry (s : State) (e : List Byte) : State :=
  if logEntryOk e then (addColumn s (leAt e 1 1) (leAt e 2 1)).setRegFld Reg.resetOptstat 16 12 (s.regFld Reg.resetOptstat 16 12 + 1)
  else (s.setRegFld Reg.resetOptstat 32 12 (s.regFld Reg.resetOptstat 32 12 + 1)).logReset 0x0905 8 0

/-- The entries from index i on, at most n of them: up to the first MARK 0xFF. -/
def readLogGo : Nat → State → Nat → Nat → State
  | 0, s, _, i => { s with rst := { s.rst with logNext := i } }
  | n + 1, s, base, i =>
    let e := flashBytes s (base + 16 * i) 16
    if leAt e 0 1 = 0xFF then { s with rst := { s.rst with logNext := i } } else readLogGo n (takeEntry s e) base (i + 1)

/-- The log is read: at most `most` entries. -/
def readRepairLog (s : State) (most : Nat) : State :=
  match usedBlock s with
  | none => s
  | some b => setReader (readLogGo (min most (leAt b 24 4 / 16)) s (leAt b 20 4) 0) .apply

/-- APPLY (R569, R570): the pairing mask and the lists are stored in Lehr A. -/
def applyOptions (s : State) : State :=
  match usedBlock s with
  | none => s
  | some b =>
    let s1 := (List.range 96).foldl (fun s c => ((colfail b c).filter (fun x => decide (x ≠ 0xFF))).foldl (fun s x => addColumn s c x) s) s
    let s2 := s1.setReg Reg.lehraPairmask (BitVec.ofNat 64 (leAt b 12 4))
    setReader (allCores.foldl applyPairing s2) .done

/-- OPTION_READ_STEP (R567-R570): what the reader works on is done. -/
def execOptionReadStep (s : State) : Out :=
  match s.rst.reader with
  | .readA => .next (takeA s (readOption s 0))
  | .readB => .next (takeB s (readOption s 0x1000))
  | .select => if s.rst.retryPause then .next s else .next (selectBlock s)
  | .readLog => .next (readRepairLog s 4096)
  | .apply => .next (applyOptions s)
  | _ => .next s

/-- FLASH_CMD_TIMEOUT (R570): the block being read counts as invalid; a failed read of the log keeps the entries read so far. -/
def execFlashCmdTimeout (entries : BitVec 13) (s : State) : Out :=
  let s1 := s.setRegBit Reg.resetOptstat 7 true
  match s.rst.reader with
  | .readA => .next (takeA s1 none)
  | .readB => .next (takeB s1 none)
  | .readLog => .next ((readRepairLog s1 entries.toNat).logReset 0x0904 8 0)
  | _ => .next s

/-- OPTION_RETRY_PAUSE (R570): 10 ms have passed. -/
def execOptionRetryPause (s : State) : Out :=
  if s.rst.reader = .select ∧ s.rst.retryPause then
    .next ((setReader { s with rst := { s.rst with retryPause := false } } .readA).setRegFld Reg.resetOptstat 8 2 (s.regFld Reg.resetOptstat 8 2 + 1))
  else .next s

/-- The 16 bytes of a log entry. -/
def logEntry (c col cause frame : Nat) : List Byte :=
  let h := leBytes 1 0x5A ++ leBytes 1 c ++ leBytes 1 col ++ leBytes 1 cause ++ leBytes 4 frame ++ leBytes 4 0
  h ++ leBytes 4 (crc32c h)

/-- The log is full: Lehr A keeps the column in its own memory. -/
def logFull (s : State) (c col : Nat) : State :=
  let s1 := { s with rst := { s.rst with unlogged := s.rst.unlogged ++ [(c, col)] } }
  (s1.setRegBit Reg.resetOptstat 44 true).logReset 0x0906 1 c

/-- REPAIR_LOG_APPEND (R568, R115): after the last entry, bad or not; `residue` says that the cause was a residue failure that Lehr A has attributed to
the column, not reheat: the column is then pending and the core quarantined as well. A block without a log takes no entry. -/
def execRepairLogAppend (core : Fin 96) (column : Fin 132) (residue : Bool) (s0 : State) : Out :=
  let s := if residue then columnFound s0 core.val column.val else s0
  match usedBlock s with
  | none => .next s
  | some b =>
    if leAt b 16 1 % 2 = 0 ∨ s.rst.reader ≠ .done then .next s
    else if leAt b 24 4 / 16 ≤ s.rst.logNext then .next (logFull s core.val column.val)
    else
      let s1 := programFlash s (leAt b 20 4 + 16 * s.rst.logNext) (logEntry core.val column.val (if residue then 2 else 1) s.frmcnt)
      .next { s1 with rst := { s1.rst with logNext := s.rst.logNext + 1 } }

end Sys2Proof.Machine
end

