-- ==== Sys2Proof/Machine/DeviceReset.lean ====
section
/-! DEFINITION. The device resets: firmware images and secure boot (R589-R593), the device warm reset (R562-R564) and the device cold reset (R571, R578). One
command completes the step in RESET_STAT.STEP when what the step waits for has come about, and begins the next. -/

namespace Sys2Proof.Machine

/-! ## Firmware images (R589-R591, R593) -/

/-- An entry of the firmware directory: type, slot, flash offset and length of the body. -/
structure DirEntry where
  type : Nat
  slot : Nat
  off : Nat
  len : Nat
  deriving DecidableEq, Repr

/-- The entries of the directory. -/
def dirEntries : Nat → List Byte → List DirEntry
  | 0, _ => []
  | n + 1, bs => ⟨leAt bs 0 1, leAt bs 1 1, leAt bs 4 4, leAt bs 8 4⟩ :: dirEntries n (bs.drop 16)

/-- The directory at FWBASE; none when it is not valid. -/
def firmwareDir (s : State) : List DirEntry :=
  match usedBlock s with
  | none => []
  | some b =>
    let base := leAt b 28 4
    let hd := flashBytes s base 64
    let n := leAt hd 4 2
    if leAt hd 0 4 ≠ 0x5244394A ∨ n = 0 ∨ 16 < n then []
    else
      let es := flashBytes s (base + 64) (16 * n)
      if crc32c (hd.take 60 ++ es) ≠ leAt hd 60 4 then []
      else (dirEntries n es).filter (fun e => decide (e.slot ≤ 1) && decide (e.off % 4096 = 0) && decide (e.len ≤ 0x800000))

/-- An image read from flash: its slot, its version, its body, and whether it is valid but for its version. -/
structure FwImage where
  slot : Nat
  svn : Nat
  body : List Byte
  ok : Bool
  deriving DecidableEq, Repr

/-- An image read and verified against a die's root-key hash (R590). -/
def readImage (s : State) (key : List Byte) (e : DirEntry) : FwImage :=
  let h := flashBytes s e.off 256
  let body := flashBytes s (e.off + 256) e.len
  let pub := sliceBytes h 64 96
  let ok := decide (leAt h 0 4 = 0x4D49394A) && decide (leAt h 4 1 = e.type) && decide (leAt h 8 4 = e.len) && decide (leAt h 5 1 ≤ 63) &&
    decide (Config.sha384 pub = key) && Config.ecdsaVerifies pub (Config.sha384 (h.take 160)) (sliceBytes h 160 96) &&
    decide (Config.sha384 body = sliceBytes h 16 48)
  ⟨e.slot, leAt h 5 1, body, ok⟩

/-- The image of a type that is used, and whether a slot was rejected for its version alone: of the valid slots the one with the higher version, slot 0 on
a tie (R591). -/
def chooseImage (s : State) (type : Nat) : Option FwImage × Bool :=
  let key := if type = 4 then Config.rootKeyHashB else Config.rootKeyHash
  let arb := sget 0 s.cfg.arbFuses type
  let slot (k : Nat) : Option FwImage := ((firmwareDir s).find? (fun e => decide (e.type = type) && decide (e.slot = k))).map (readImage s key)
  let valid (x : Option FwImage) : Option FwImage := x.filter (fun i => i.ok && decide (arb ≤ i.svn))
  let old (x : Option FwImage) : Bool := x.any (fun i => i.ok && decide (i.svn < arb))
  let a := slot 0
  let b := slot 1
  let best := match valid a, valid b with
    | some x, some y => some (if x.svn < y.svn then y else x)
    | some x, none => some x
    | none, y => y
  (best, old a || old b)

/-- A rule of the manifest as its image holds it (R584). -/
def parseRule (bs : List Byte) : ManifestRule :=
  ⟨leAt bs 0 1, leAt bs 1 1, leAt bs 2 2, leAt bs 4 4, leAt bs 8 8, leAt bs 16 8, leAt bs 24 8⟩

/-- The rules of a manifest's body; none when it is not valid. -/
def parseManifest (body : List Byte) : Option (List ManifestRule) :=
  let n := body.length / 32
  let rules := (List.range n).map (fun i => parseRule (sliceBytes body (32 * i) 32))
  if body.length % 32 = 0 ∧ 1 ≤ n ∧ n ≤ 4096 ∧ rules.all (fun r => decide (1 ≤ r.kind) && decide (r.kind ≤ 3)) then some rules else none

/-- The slot and version of a type in DEV_SECSTAT (R597). -/
def showImage (s : State) (type : Nat) (i : Option FwImage) : State :=
  let t := type - 1
  (s.setRegFld Reg.devSecstat (4 * t) 2 ((i.map (·.slot)).getD 3)).setRegFld Reg.devSecstat (8 * t + 32) 8 ((i.map (·.svn)).getD 0)

/-- The image of a type is chosen and put to use (R591). -/
def loadImage (s : State) (type : Nat) : State × Option FwImage :=
  let c := chooseImage s type
  let s1 := showImage (if c.2 then s.logCfg 0x0953 else s) type c.1
  match c.1 with
  | none => (s1, none)
  | some i => ({ s1 with cfg := { s1.cfg with images := sput ⟨0, 0⟩ (sdel s1.cfg.images type) type ⟨i.slot, i.svn⟩ } }, some i)

/-- SECBOOT_FAIL: the device stops as in the reader's FAILED. -/
def secbootFail (s : State) : State :=
  syncActive ((s.logCfg 0x0952).setRegBit Reg.resetStat 7 true)

/-- The Gaffer image in the host die's memory, and its hash. -/
def takeGaffer (s : State) (i : FwImage) : State :=
  { s with cfg := { s.cfg with gafferImage := i.body, gafferHash := Config.sha384 i.body } }

/-- The images are verified and chosen at cold reset (R591, R593): the manifest may be missing, the others may not. -/
def bootImages (s : State) : State :=
  let a := loadImage s 3
  let m := loadImage a.1 2
  let b := loadImage m.1 4
  let g := loadImage b.1 1
  let rules := (m.2.map (·.body)).bind parseManifest
  let s1 := { g.1 with cfg := { g.1.cfg with manifest := rules } }.setRegBit Reg.devCfgstat 3 rules.isSome
  match a.2, b.2, g.2 with
  | some _, some _, some i => takeGaffer s1 i
  | _, _, _ => secbootFail s1

/-- The retained Gaffer image still has the hash that was recorded (R591). -/
def gafferIntact (s : State) : Bool := decide (Config.sha384 s.cfg.gafferImage = s.cfg.gafferHash)

/-- Lehr A checks the retained Gaffer image in a warm reset; on a mismatch it reads and verifies the image again. -/
def checkGaffer (s : State) : State :=
  if gafferIntact s then s
  else
    let g := loadImage s 1
    match g.2 with
    | some i => takeGaffer g.1 i
    | none => secbootFail g.1

/-! ## The host link (R562, R571) -/

/-- The link leaves service: the link keeper is reset. -/
def dropLink (s : State) : State :=
  let s1 := (s.resetReg Reg.pcieLinkstat).resetReg Reg.pcieCorrcnt
  let s2 := (List.range 16).foldl (fun s p => s.setRegBit (Reg.pcieFnstat p) 0 false) s1
  syncRings { s2 with rst := { s2.rst with linkUp := false } }

/-- R323: the rates, the widths and flit mode that the link supports, and no others. -/
def linkLegal (cap : Nat) : Bool :=
  decide (1 ≤ cap % 8) && decide (cap % 8 ≤ 6) && [4, 8, 16].contains (cap / 8 % 32) && (decide (256 ≤ cap) == decide (cap % 8 = 6))

/-- The link has trained to what both ends support (R323), and function 0 is enabled. -/
def raiseLink (s : State) : State :=
  if s.rst.linkUp ∨ !linkLegal s.rst.linkCap then s
  else
    let s1 := s.setReg Reg.pcieLinkstat (setBit (BitVec.ofNat 64 s.rst.linkCap) 9 true)
    syncRings { s1.setRegBit (Reg.pcieFnstat 0) 0 true with rst := { s1.rst with linkUp := true } }

/-! ## What a device warm reset takes away -/

/-- R563 step 1: every live command is cancelled without a record, and every ring is DISABLED; frame sets lose their members (R423). -/
def stopBench (s : State) : State :=
  let cs := s.bench.cmds
  let s1 := { s with bench := { s.bench with cmds := cs.map (fun c => { c with noRecord := true }) } }
  let s2 := cs.foldl (fun s c => cancelMember (markCancel c.key 0x0112 s) c.key) s1
  let s3 := cs.foldl (fun s c => if inFrameSet s c && !c.flipped then memberFailed s c.frame c.key else s) s2
  let s4 := { s3 with bench := { s3.bench with cmds := [], ties := [], triggers := [], commitQ := [], ranOn := [] }, sigOut := [] }
  ((List.range 256).foldl resetRing s4).setRegFld Reg.devSbstat 0 15 0

/-- R563 step 2: the blocks that are silent do not answer and are fenced. -/
def fenceSilent (s : State) : State :=
  s.lehrA.silent.foldl (fun s b => ((blockTargets b).foldl fenceTarget s).logReset 0x0907 (blockDomain b).1 (blockDomain b).2) s

/-- R563 step 3 (R561, R539): a crucible that responds is cleaned; without the clean every epoch of its channels advances. Each channel enters
self-refresh. -/
def cleanMemory (s : State) : State :=
  let s1 := (List.range 4).foldl (fun s k =>
    if s.lehrA.silent.any (fun b => decide (blockDomain b = (3, k))) then (channelsOf k).foldl advanceChannel s else s) s
  (List.range 64).foldl channelContents s1

/-- The registers of the host die that a device warm reset keeps: the frame timer (R563), the map, DEV_MEMCTL and DEV_MEMREF (R549), the configuration
registers R597 names with the state of the active frit, and DEV_DBGSTAT.DISABLED; the link keeper's (R562, R573). -/
def keptInWarm (off : Nat) : Bool :=
  decide (off < 0x2000) || [Reg.devMemctl, Reg.devMemref].contains off || (decide (Reg.devMemmapa 0 ≤ off) && decide (off < Reg.devMemmapa 32)) ||
    [Reg.devCfggen, Reg.devCfgstat, Reg.devLockrefcnt, Reg.devLockrefaddr, Reg.devFritstat, Reg.devSecstat].contains off ||
    (List.range 5).any (fun t => decide (off = Reg.devSecarb t))

/-- The RESET registers that a warm reset keeps (R573); RESET_REQSTAT and RESET_IRQCFG serve the reset that is in progress (R553, R563 step 11). -/
def resetKept (off : Nat) : Bool :=
  [Reg.resetStat, Reg.resetCause, Reg.resetCausetime, Reg.resetOptstat, Reg.resetOptgen, Reg.resetReqstat, Reg.resetIrqcfg].contains off ||
    (decide (Reg.resetCnt 0 ≤ off) && decide (off < Reg.resetCnt 16))

/-- The configuration state: the proposal, a pending switch and every debug unlock go (R597). -/
def warmConfig (s : State) : State :=
  let s1 := { s with cfg := { s.cfg with proposal := none, switching := none, waitingLoads := [], challenge := none, log := .empty } }
  let st := s1.reg Reg.devFritstat
  let s2 := s1.setReg Reg.devFritstat (setFld st 5 4 0)
  (s2.setRegBit Reg.devCfgstat 1 false).setRegBit Reg.devDbgstat 6 s2.cfg.dbgDisFuse

/-- What a device warm reset leaves of failed sensors (R626): they stay excluded, and a unit without a valid sensor stays blind. -/
def keepFailed (s s' : State) : State :=
  let s1 := ((List.range 512).filter (fun i => s.regBit (Reg.thermSens i) 14)).foldl (fun u i => u.setRegBit (Reg.thermSens i) 14 true) s'
  ((List.range 116).filter (fun u => decide (s.unitState u = 3))).foldl blindUnit s1

/-- The THERM registers (R642): energy, unit counts, pass times and ageing records stay. -/
def warmTherm (s : State) : State :=
  let keep (off : Nat) : Bool := decide (off = Reg.thermEnergy) || (decide (Reg.thermUnit 0 ≤ off) && decide (off < Reg.thermUnit 116)) ||
    (decide (Reg.thermRh 0 ≤ off) && decide (off < Reg.thermRh 96) && decide (off % 16 = 8)) ||
    (decide (Reg.thermAge 0 ≤ off) && decide (off < Reg.thermAge 96))
  let s1 := s.resetRegsBut 0x900000 0xA00000 keep
  let s2 := (List.range 116).foldl (fun s u => s.setRegFld (Reg.thermUnit u) 0 32 0) s1
  keepFailed s { s2 with
    therm := { State.reset.therm with energy := s.therm.energy, ageGood := s.therm.ageGood }, mem := { s2.mem with memHeld := [] } }

/-- BOMUS_RCFGn.OWNER of every ring as it was: a reset of the host die keeps it (R331). -/
def keepOwners (s s' : State) : State := (List.range 256).foldl (fun u n => u.setRegFld (Reg.bomusRcfg n) 2 4 (ringOwner s n)) s'

/-- The host die's registers after its reset. DEV_MEMSTAT.STALL shows the refresh setting that the reset keeps (R528, R549),
and a lost vertical port stays LOST (R476). -/
def hostRegs (s : State) : State :=
  let s1 := s.resetRegsBut 0 0x100000 keptInWarm
  let s2 := keepOwners s ((s1.resetRegs 0x100000 0x200000).resetRegs 0x700000 0x800000)
  let s3 := s2.resetRegsBut 0x800000 0x900000 (fun o => decide (o < 0x800100) || (decide (0x800180 ≤ o) && decide (o < 0x800200)))
  let s4 := s3.resetRegsBut 0xA00000 0xB00000 resetKept
  (allCores.filter (fun c => (s4.core c).portLost)).foldl (fun s c => s.setRegFld (Reg.puntyVstat c) 0 2 3) (showStall s4)

/-- What the host die holds beside its registers is lost: BOMUS, Bench, regulation, Blowpipe and the fabric's links. -/
def hostLost (s : State) : State :=
  { s with
    bench := { State.reset.bench with hostOut := s.bench.hostOut }, regul := State.reset.regul, blow := { State.reset.blow with sent := s.blow.sent }
    mem := { s.mem with parking := false, staged := [], spilled := [], stallUntil := none }
    fab := { State.reset.fab with logs := s.fab.logs }, sigOut := [] }

/-- The host die's own state after its reset: BOMUS, PCIE, DEV, PUNTY, BLOWPIPE and RESET. -/
def hostContents (s : State) : State := hostLost (hostRegs s)

/-- The LEHRA registers that outlive a restart of Lehr A or of the device: charges, counters and the pairing mask (R454, R563). -/
def lehraKept (off : Nat) : Bool :=
  decide (off = Reg.lehraPairmask) || (decide (Reg.lehraCmpcnt ≤ off) && decide (off ≤ Reg.lehraCmptest)) ||
    (decide (Reg.lehraCorestat 0 ≤ off) && decide (off < Reg.lehraCorestat 96))

/-- The LEHRB registers that a device warm reset keeps: the counters (R454). -/
def lehrbKept (off : Nat) : Bool := decide (Reg.lehrbBlkcnt ≤ off) && decide (off ≤ Reg.lehrbFailcnt)

/-- The registers of the Lehr dies in a device warm reset (R454). The dies themselves run on, so the bits that say what stands now follow at once: the
loss of a part, a broken ring, the event log's overflow, CMPFAIL (R445); ACTIVE and FBREADY are what R440 and R439 give. -/
def warmLehr (s : State) : State :=
  let s1 := (s.resetRegsBut 0x400000 0x480000 lehraKept).resetRegsBut 0x480000 0x500000 lehrbKept
  let s2 := [2, 3, 5, 6, 7, 8, 9, 10, 12, 13].foldl (fun u i => u.setRegBit Reg.lehraStat i (s.regBit Reg.lehraStat i)) s1
  syncActive (syncFbReady ([3, 4].foldl (fun u i => u.setRegBit Reg.lehrbStat i (s.regBit Reg.lehrbStat i)) s2))

/-- R563 step 4: every die but the Lehr dies and the link keeper is in reset. Lehr A copies its event log into its fault record before (R454). -/
def resetDies (s : State) : State :=
  let s0 := { s with faultRecord := s.faultRecord ++ s.lehrA.log.entries.map (fun e => ⟨fld e.word 0 16, fld e.word 16 8, fld e.word 32 32⟩) }
  let s1 := (List.range 12).foldl dieContents s0
  let s2 := (List.range 4).foldl (fun s k => crucibleContents s k true) s1
  let s3 := hostContents (warmTherm (warmConfig (sensorContents s2)))
  recomputeCaps (syncRings (allCores.foldl syncBind s3))

/-- The lateral modules train, and the region tables are rewritten (R563 step 5, R499). -/
def startFabric (s : State) : State := (List.range 4).foldl restoreRegions ((List.range 26).foldl trainModule s)

/-- A module still trains. -/
def modulesTrain (s : State) : Bool := (List.range 26).any (fun m => decide (mstate s m = 0))

/-- The compute dies are released: their ports train (R475), and the comparator test is to run before the first core leaves HELD (R444, R559). -/
def releaseDies (s : State) : State := (allCores.foldl trainVport s).setRegBit Reg.lehraStat 1 false

/-- The comparator test has passed, and every core is released. -/
def diesReleased (s : State) : Bool := s.regBit Reg.lehraStat 1 && allCores.all (coreReleased s)

/-! ## The device warm reset (R563) -/

/-- The device reset in progress: kind 7 or 10. -/
def warmDomain (s : State) : Option DomainReset := s.rst.domains.find? (fun d => decide (d.kind = 7) || decide (d.kind = 10))

/-- The link keeper is reset with the device: the source is 5 or 6 (R562). -/
def linkReset (d : DomainReset) : Bool := decide (d.source = 5) || decide (d.source = 6)

/-- Whether a step of R563 is complete. Lehr A's own restart comes before the device's (R551 kind 10). -/
def warmReady (s : State) (d : DomainReset) (n : Nat) : Bool :=
  match n with
  | 1 => s.lehrB.lehrARuns
  | 5 => !modulesTrain s
  | 6 => gafferIntact s
  | 7 => (List.range 64).all (channelSettled s)
  | 9 => diesReleased s
  | 10 => !linkReset d || s.rst.perstn
  | _ => true

/-- What a step of R563 has brought about once it is complete. -/
def warmWork (s : State) (d : DomainReset) (n t : Nat) : State :=
  match n with
  | 1 => stopBench s
  | 2 => fenceSilent s
  | 3 => cleanMemory s
  | 4 => startFabric (warmLehr (resetDies s))
  | 5 => checkGaffer s
  | 6 => (List.range 64).foldl startChannel s
  | 8 => releaseDies (reapply s (fun _ => true) t)
  | 10 => if linkReset d then raiseLink s else s
  | _ => s

/-- R563 step 11: READY, and the MSI-X message of RESET_IRQCFG. The blocks that were silent run again. -/
def finishWarm (s : State) (d : DomainReset) : State :=
  let x := setFld (setBit (setBit (s.reg Reg.resetStat) 0 true) 1 false) 3 4 0
  let s1 := s.setReg Reg.resetStat (setBit x 8 (!linkReset d))
  let s2 := { s1 with rst := { s1.rst with warmFails := 0 }, lehrA := { s1.lehrA with silent := [], gafhb := s1.now } }
  let s3 := if s2.regBit Reg.resetIrqcfg 6 then s2.toHost (.msix 0 (s2.regFld Reg.resetIrqcfg 0 6)) else s2
  releaseDomains (allCores.foldl portUp s3)

/-- The step of a device reset in progress. -/
def resetStep (s : State) : Nat := s.regFld Reg.resetStat 3 4

/-- DEVICE_WARM_RESET (R562-R564): the step in progress is completed. Nothing moves while a main rail is out. -/
def execDeviceWarmReset (t : Nat) (s : State) : Out :=
  let s := s.at t
  match warmDomain s with
  | none => .next s
  | some d =>
    let n := resetStep s
    if !s.pins.mainRails ∨ d.hold ∨ !warmReady s d n then .next s
    else if 10 ≤ n then .next (finishWarm (warmWork s d n t) d)
    else .next ((warmWork s d n t).setRegFld Reg.resetStat 3 4 (n + 1))

/-! ## The device cold reset (R571) -/

/-- R578: the reset table of crucible k, in its registers and in Lehr A's copy. -/
def resetTable (s : State) (k : Nat) : State :=
  let a := Reg.crucRgna k 0
  let b := Reg.crucRgnb k 0
  let s1 := (s.setReg a 0x7#64).setReg b 0xC000401000000000#64
  { s1 with cfg := { s1.cfg with rgnCopy := sput 0#64 (sput 0#64 s1.cfg.rgnCopy a 0x7#64) b 0xC000401000000000#64 } }

/-- Step 1 of R571 ends: the Lehr dies run, device time starts at 0, the option reader starts. -/
def startLehr (s : State) : State :=
  let s1 := { s with
    now := 0, lehrB := { s.lehrB with lehrARuns := true, stoppedA := false, stoppedB := false }
    pins := { s.pins with lehrAPins := .released, lehrBPins := .released } }
  startReader s1

/-- Step 3 of R571: the crucibles are released with the reset tables, and the firmware is verified. -/
def startCrucibles (s : State) : State :=
  bootImages { (List.range 26).foldl trainModule ((List.range 4).foldl resetTable s) with pins := { s.pins with mainPins := .released } }

/-- Whether a step of R571 is complete. -/
def coldReady (s : State) (n : Nat) : Bool :=
  match n with
  | 2 => decide (s.rst.reader = .done)
  | 3 => !modulesTrain s && !s.regBit Reg.resetStat 7
  | 4 => (List.range 64).all (channelSettled s)
  | 5 => diesReleased s
  | 6 => s.rst.perstn
  | _ => true

/-- What follows when a step of R571 is complete. A cold reset after a main-rail failure begins with step 2: the Lehr dies run on (R652). -/
def coldWork (s : State) (n : Nat) : State :=
  match n with
  | 1 => startLehr s
  | 2 => startCrucibles s
  | 3 => (List.range 64).foldl startChannel s
  | 4 => releaseDies s
  | 6 => raiseLink s
  | _ => s

/-- READY at the end of a cold reset (R571, R660). -/
def finishCold (s : State) : State :=
  let s1 := s.setReg Reg.resetStat (setFld (setBit (setBit (s.reg Reg.resetStat) 0 true) 2 false) 3 4 0)
  releaseDomains (allCores.foldl portUp { s1 with
    pins := { s1.pins with mainPins := .ready, lehrAPins := .ready, lehrBPins := .ready }, lehrA := { s1.lehrA with gafhb := s1.now } })

/-- DEVICE_COLD_RESET (R571): with every rail in range and no device reset begun since power came up, the sequence begins; otherwise the step in
progress is completed. -/
def execDeviceColdReset (t : Nat) (s : State) : Out :=
  let s := s.at t
  if !s.pins.mainRails then .next s
  else if s.regBit Reg.resetStat 2 then
    let n := resetStep s
    if !coldReady s n then .next s
    else if 6 ≤ n then .next (finishCold (coldWork s n))
    else .next ((coldWork s n).setRegFld Reg.resetStat 3 4 (n + 1))
  else if s.regBit Reg.resetStat 0 ∨ s.rst.domains ≠ [] then .next s
  else .next (startCold 1 false false s)

end Sys2Proof.Machine
end

