-- ==== Sys2Proof/Machine/Pins.lean ====
section
/-! DEFINITION. Rails, reset balls, the host link's resets and the JTAG port (R552, R650-R660). -/

namespace Sys2Proof.Machine

/-! ## The Lehr dies' resets -/

/-- Lehr A is reset (R552, R583, R658): its registers but those kept, what it was judging, the proposal it held; its fault ball is low. A comparator test
that has failed three times keeps CMPFAIL (R445), and lost device time stays lost (R449), till a device cold reset. -/
def resetLehrA (s : State) : State :=
  let s1 := (s.resetRegsBut 0x400000 0x480000 lehraKept).setRegBit Reg.lehraStat 2 (s.regBit Reg.lehraStat 2)
  let s2 := { s1 with
    lehrA := { State.reset.lehrA with
      charges := s.lehrA.charges, log := s.lehrA.log, chargedIn := s.lehrA.chargedIn, cmpFails := s.lehrA.cmpFails, alone := s.lehrA.alone }
    lehrB := { s1.lehrB with stoppedA := false }
    pins := { s1.pins with flt00 := false } }
  dropProposal s2

/-- R448, R449: a restarted Lehr A finds Lehr B lost: it drives LEHR_FLT00, device time starts at 0, no boundary is generated, and the cores are held. -/
def aloneAgain (s : State) : State :=
  let s1 := { s with
    now := 0, frame := { s.frame with nextBoundary := none }, lehrB := { s.lehrB with lehrARuns := true, handover := none }
    lehrA := { s.lehrA with alone := true }, pins := { s.pins with flt00 := true } }
  syncActive ((s1.setRegBit Reg.lehraStat 13 true).setRegBit Reg.resetStat 7 true)

/-- Lehr B is lost: it does not run, or Lehr A has declared it lost and drives its fault ball (R446, R448). -/
def lehrBLost (s : State) : Bool := !lehrBRuns s || s.regBit Reg.lehraStat 13

/-- The reset of Lehr A, then of the device (R551 kind 10, R552 source 3). Lehr B finds it lost till its heartbeat returns (R446, R448). -/
def ballA (s : State) : State :=
  if inReset s (10, 0) then s.logReset 0x0909 10 0
  else
    let s1 := resetLehrA (if lehrBRuns s && s.lehrB.lehrARuns then loseA s else s)
    startReset 10 0 3 false (if lehrBLost s then aloneAgain s1 else s1)

/-- Lehr B is reset: its registers and everything it holds; its fault ball is low (R658). -/
def resetLehrB (s : State) : State :=
  let s1 := s.resetRegs 0x480000 0x500000
  syncActive { s1 with
    lehrB := { State.reset.lehrB with lehrARuns := s.lehrB.lehrARuns, stoppedA := s.lehrB.stoppedA, ringPoses := s.lehrB.ringPoses }
    pins := { s1.pins with flt01 := false } }

/-- The reset of Lehr B (R551 kind 9, R552 source 4). Lehr A finds it lost till its heartbeat returns (R446, R447). -/
def ballB (s : State) : State :=
  if inReset s (9, 0) then s.logReset 0x0909 9 0
  else startReset 9 0 4 false (resetLehrB (if s.lehrB.lehrARuns && s.lehrBOk then loseB s else s))

/-- Whether a low pulse of a reset input is acted on (R657); between 1 and 10 µs it may be. -/
def pulseActs (us : Nat) (acted : Bool) : Bool := decide (10 ≤ us) || (decide (1 ≤ us) && acted)

/-- LEHRA_RSTN (R552, R657). -/
def execLehraRstn (us : Nat) (acted : Bool) (t : Nat) (s : State) : Out :=
  let s := s.at t
  if pulseActs us acted then .next (ballA s) else .next s

/-- LEHRB_RSTN (R552, R657). -/
def execLehrbRstn (us : Nat) (acted : Bool) (t : Nat) (s : State) : Out :=
  let s := s.at t
  if pulseActs us acted then .next (ballB s) else .next s

/-- SYS_RSTN (R552, R571, R657): the ball falls, or rises after `us` µs low; the sequence runs from the rise. -/
def execSysRstn (level : Bool) (us : Nat) (acted : Bool) (t : Nat) (s : State) : Out :=
  let s := s.at t
  let s1 := { s with pins := { s.pins with sysRstn := level } }
  if level && !s.pins.sysRstn && pulseActs us acted then .next (startCold 2 false false s1) else .next s1

/-! ## The host link -/

/-- A conventional or hot reset of the link: the device warm domain with the link keeper (R552, R562). -/
def resetLink (s : State) (source : Nat) : State :=
  if inReset s (7, 0) then s.logReset 0x0909 7 0 else startReset 7 0 source false (dropLink s)

/-- PCIE_PERSTN (R552, R657): the ball is low. -/
def execPciePerstn (us : Nat) (acted : Bool) (t : Nat) (s : State) : Out :=
  let s := s.at t
  if pulseActs us acted then .next (resetLink { s with rst := { s.rst with perstn := false } } 5) else .next s

/-- PCIE_HOT_RESET (R552). -/
def execPcieHotReset (t : Nat) (s : State) : Out := .next (resetLink (s.at t) 6)

/-- PCIE_PERSTN_RISE (R571, R563 step 10): the link may train, to the rate, width and mode given; it does so now when the sequence stands at its last
step, or when nothing holds it. -/
def execPciePerstnRise (rate : BitVec 3) (width : BitVec 5) (flit : Bool) (t : Nat) (s : State) : Out :=
  let s := s.at t
  let cap := rate.toNat + width.toNat * 8 + (if flit then 256 else 0)
  let s1 := { s with rst := { s.rst with perstn := true, linkCap := cap } }
  if s1.regBit Reg.resetStat 2 ∧ resetStep s1 = 6 then .next (finishCold (raiseLink s1))
  else match warmDomain s1 with
    | some d => if resetStep s1 = 10 then .next (finishWarm (raiseLink s1) d) else .next s1
    | none => if s1.regBit Reg.resetStat 0 then .next (raiseLink s1) else .next s1

/-! ## Rails (R649-R653) -/

/-- The dies on main rails lose them: held in reset, their balls off (R652). The frame timer runs on in Lehr A. -/
def mainDown (s : State) : State :=
  let s1 := dropLink (resetDies (cleanMemory (stopBench s)))
  { s1.setRegBit Reg.resetStat 0 false with pins := { s1.pins with mainRails := false, powerGood := false, mainPins := .off } }

/-- MAIN_RAIL_FAIL (R652): a main rail has been below its minimum for more than 5 µs. -/
def execMainRailFail (t : Nat) (s : State) : Out :=
  let s := s.at t
  if s.pins.mainRails then .next (mainDown s) else .next s

/-- LEHR_RAIL_FAIL (R652): a Lehr rail has dipped below its minimum for more than 5 µs; the die is reset as by its ball. -/
def execLehrRailFail (isB : Bool) (t : Nat) (s : State) : Out :=
  let s := s.at t
  .next (if isB then ballB s else ballA s)

/-- DRAM contents are lost (R653). -/
def loseDram (s : State) : State := { s with mem := { s.mem with bytes := [], marks := [], held := [] } }

/-- Lehr A has no rails: it stops, and its outputs float. -/
def railsOffA (s : State) : State :=
  { s with
    lehrB := { s.lehrB with stoppedA := true }
    pins := { s.pins with lehrARails := false, powerGood := false, lehrAPins := .off, flt00 := false } }

/-- Lehr B has no rails. -/
def railsOffB (s : State) : State :=
  { s with
    lehrB := { s.lehrB with stoppedB := true }
    pins := { s.pins with lehrBRails := false, powerGood := false, lehrBPins := .off, flt01 := false } }

/-- RAIL_FALL (R653): the rails of Lehr A, of Lehr B or the main rails fall for good. -/
def execRailFall (lehrA lehrB main : Bool) (t : Nat) (s : State) : Out :=
  let s := s.at t
  let s1 := if main then loseDram (if s.pins.mainRails then mainDown s else s) else s
  let s2 := if lehrA then railsOffA s1 else s1
  .next (if lehrB then railsOffB s2 else s2)

/-- POWER_GOOD (R651, R652): every rail has been in range for 1 ms again. Where the Lehr dies ran on, they are not reset, device time continues, and step
1 of R571 is over at once. -/
def execPowerGood (t : Nat) (s : State) : Out :=
  let s := s.at t
  if s.pins.powerGood then .next s
  else
    let ran := s.pins.lehrARails && s.pins.lehrBRails
    let s1 := { s with pins := { s.pins with mainRails := true, lehrARails := true, lehrBRails := true, powerGood := true } }
    if ran then .next ((startReader (startCold 1 false true s1)).setRegFld Reg.resetStat 3 4 2)
    else .next (startCold 1 false false s1)

/-! ## JTAG (R659) -/

/-- The instruction that takes effect. -/
def jtagTakes (s : State) (ir : JtagIr) : JtagIr :=
  match ir with
  | .idcode => .idcode
  | .bypass => .bypass
  | .boundaryScan => if s.pins.sysRstn then .bypass else .boundaryScan
  | .gated c => if s.regBit Reg.devDbgstat 2 then .gated c else .bypass

/-- JTAG_INSTRUCTION (R659): IDCODE reads 0x0A96_0969. -/
def execJtagInstruction (ir : JtagIr) (s : State) : Out :=
  let x := jtagTakes s ir
  let s1 := { s with pins := { s.pins with jtag := x } }
  .next (if x = .idcode then { s1 with readData := 0x0A960969#64 } else s1)

end Sys2Proof.Machine
end

