-- ==== Sys2Proof/Machine/Triggers.lean ====
section
/-! DEFINITION. Bench's Marver triggers (R376, R382 step 4). -/

namespace Sys2Proof.Machine

/-- What an armed trigger does (R376): Bench reads the count with the partition's identity and writes TRKGO or SCATGO; a poisoned read sets
MTRIGERR. A count beyond the register's field is written as the field's largest value, and Marver refuses it: the scatter count as R290 refuses a write,
though R290 accepts that largest value where a count really names it. -/
def fireTrigger (s : State) (ecc : MemEcc) (a : TrigArmed) : State :=
  let r := devRead s (hostReq a.part 1 none) ecc a.addr 4
  match r.2 with
  | .error _ => r.1.setRegBit Reg.devSbstat 16 true
  | .ok bs =>
    if a.kind = 1 then trackGo r.1 a.frame (min 8191 (leNat bs))
    else if 1048575 < leNat bs then r.1.logMarver 0x0709 0xFF a.frame
    else scatterGo r.1 a.frame (leNat bs)

/-- MARVER_TRIGGER_FIRE (R376, R382): the oldest armed trigger fires; after the last of its command the record is written. -/
def execMarverTriggerFire (ecc : MemEcc) (t : Nat) (s : State) : Out :=
  let s := s.at t
  match s.bench.triggers with
  | [] => .next s
  | a :: rest =>
    let s1 := fireTrigger { s with bench := { s.bench with triggers := rest } } ecc a
    match if rest.any (fun b => decide (b.key = a.key)) then none else s1.cmd a.key with
    | some c => .next (if c.flipped then commitRecordOf s1 c else s1)
    | none => .next s1

end Sys2Proof.Machine
end

