-- ==== Sys2Proof/Machine/Dispatch.lean ====
section
/-! DEFINITION. The dispatch: one arm per command of the opcode table, each one call of the command's meaning. -/

namespace Sys2Proof.Machine

/-- The effect of a command on everything but the queue of waiting commands. -/
def exec (i : Instr) (s : State) : Host.Outcome State Fault Refusal :=
  match i with
  | .frameBoundary ecc t => Sys2Proof.Machine.execFrameBoundary ecc t s
  | .frameTimerEnable who t => Sys2Proof.Machine.execFrameTimerEnable who t s
  | .frameTimerDisable who => Sys2Proof.Machine.execFrameTimerDisable who s
  | .frmperWrite who v => Sys2Proof.Machine.execFrmperWrite who v s
  | .frmphaseWrite who v => Sys2Proof.Machine.execFrmphaseWrite who v s
  | .frmcntWrite who v => Sys2Proof.Machine.execFrmcntWrite who v s
  | .csrWrite acc off wide v t => Sys2Proof.Machine.execCsrWrite acc off wide v t s
  | .deviceTimeAdjust add t => Sys2Proof.Machine.execDeviceTimeAdjust add t s
  | .coreResetRelease core => Sys2Proof.Machine.execCoreResetRelease core s
  | .repairDone core => Sys2Proof.Machine.execRepairDone core s
  | .selftestDone core fail t => Sys2Proof.Machine.execSelftestDone core fail t s
  | .heldRelease core => Sys2Proof.Machine.execHeldRelease core s
  | .quarantineRestart core t => Sys2Proof.Machine.execQuarantineRestart core t s
  | .dispatch ecc t => Sys2Proof.Machine.execDispatch ecc t s
  | .partitionClearDone core => Sys2Proof.Machine.execPartitionClearDone core s
  | .checkpointResume core ecc => Sys2Proof.Machine.execCheckpointResume core ecc s
  | .programEnd core t => Sys2Proof.Machine.execProgramEnd core t s
  | .faultAck core => Sys2Proof.Machine.execFaultAck core s
  | .kill core t => Sys2Proof.Machine.execKill core t s
  | .killSettled core => Sys2Proof.Machine.execKillSettled core s
  | .checkpointRequest core t => Sys2Proof.Machine.execCheckpointRequest core t s
  | .checkpointBoundary core t => Sys2Proof.Machine.execCheckpointBoundary core t s
  | .checkpointSaveDone core meets t => Sys2Proof.Machine.execCheckpointSaveDone core meets t s
  | .haltreq acc core t => Sys2Proof.Machine.execHaltreq acc core t s
  | .resume acc core t => Sys2Proof.Machine.execResume acc core t s
  | .restartreq acc core t => Sys2Proof.Machine.execRestartreq acc core t s
  | .breakpointHit core t => Sys2Proof.Machine.execBreakpointHit core t s
  | .tpstep acc core stream ph => Sys2Proof.Machine.execTpstep acc core stream ph s
  | .debugHaltPoint core => Sys2Proof.Machine.execDebugHaltPoint core s
  | .coreWindowAccess acc core word access => Sys2Proof.Machine.execCoreWindowAccess acc core word access s
  | .steprateUpdate core steps cap t => Sys2Proof.Machine.execSteprateUpdate core steps cap t s
  | .stepminWrite core => Sys2Proof.Machine.execStepminWrite core s
  | .weightSwap core => Sys2Proof.Machine.execWeightSwap core s
  | .instructionFetch core stream index ecc => Sys2Proof.Machine.execInstructionFetch core stream index ecc s
  | .instrComplete core stream word => Sys2Proof.Machine.execInstrComplete core stream word s
  | .starvedFault core => Sys2Proof.Machine.execStarvedFault core s
  | .coreSyncWrite acc core n v => Sys2Proof.Machine.execCoreSyncWrite acc core n v s
  | .clr core => Sys2Proof.Machine.execClr core s
  | .wld core ph => Sys2Proof.Machine.execWld core ph s
  | .mm core ph => Sys2Proof.Machine.execMm core ph s
  | .drn core ph => Sys2Proof.Machine.execDrn core ph s
  | .vld core ecc => Sys2Proof.Machine.execVld core ecc s
  | .vst core ecc => Sys2Proof.Machine.execVst core ecc s
  | .vldsc core ecc => Sys2Proof.Machine.execVldsc core ecc s
  | .vbc core => Sys2Proof.Machine.execVbc core s
  | .vadd core => Sys2Proof.Machine.execVadd core s
  | .vsub core => Sys2Proof.Machine.execVsub core s
  | .vmul core => Sys2Proof.Machine.execVmul core s
  | .vfma core => Sys2Proof.Machine.execVfma core s
  | .vdiv core => Sys2Proof.Machine.execVdiv core s
  | .vsqrt core => Sys2Proof.Machine.execVsqrt core s
  | .vmin core => Sys2Proof.Machine.execVmin core s
  | .vmax core => Sys2Proof.Machine.execVmax core s
  | .vabs core => Sys2Proof.Machine.execVabs core s
  | .vneg core => Sys2Proof.Machine.execVneg core s
  | .vcmp core => Sys2Proof.Machine.execVcmp core s
  | .vsel core => Sys2Proof.Machine.execVsel core s
  | .vand core => Sys2Proof.Machine.execVand core s
  | .vor core => Sys2Proof.Machine.execVor core s
  | .vxor core => Sys2Proof.Machine.execVxor core s
  | .vshl core => Sys2Proof.Machine.execVshl core s
  | .vshr core => Sys2Proof.Machine.execVshr core s
  | .vcvt core => Sys2Proof.Machine.execVcvt core s
  | .vqnt core => Sys2Proof.Machine.execVqnt core s
  | .vexp2 core => Sys2Proof.Machine.execVexp2 core s
  | .vlog2 core => Sys2Proof.Machine.execVlog2 core s
  | .vrcp core => Sys2Proof.Machine.execVrcp core s
  | .vrsqrt core => Sys2Proof.Machine.execVrsqrt core s
  | .vsigm core => Sys2Proof.Machine.execVsigm core s
  | .vtanh core => Sys2Proof.Machine.execVtanh core s
  | .vgelu core => Sys2Proof.Machine.execVgelu core s
  | .vexpd core => Sys2Proof.Machine.execVexpd core s
  | .vrsum core => Sys2Proof.Machine.execVrsum core s
  | .vrmax core => Sys2Proof.Machine.execVrmax core s
  | .vrmin core => Sys2Proof.Machine.execVrmin core s
  | .vrssq core => Sys2Proof.Machine.execVrssq core s
  | .ld core ph => Sys2Proof.Machine.execLd core ph s
  | .ldacc core ph => Sys2Proof.Machine.execLdacc core ph s
  | .st core ph => Sys2Proof.Machine.execSt core ph s
  | .stacc core ph => Sys2Proof.Machine.execStacc core ph s
  | .stsig core ph => Sys2Proof.Machine.execStsig core ph s
  | .gidx core ph => Sys2Proof.Machine.execGidx core ph s
  | .gpage core ph => Sys2Proof.Machine.execGpage core ph s
  | .nop core stream => Sys2Proof.Machine.execNop core stream s
  | .endStream core stream => Sys2Proof.Machine.execEndStream core stream s
  | .ckpt core stream => Sys2Proof.Machine.execCkpt core stream s
  | .fence core stream => Sys2Proof.Machine.execFence core stream s
  | .commitNotice core part seq => Sys2Proof.Machine.execCommitNotice core part seq s
  | .discardNotice core part seq => Sys2Proof.Machine.execDiscardNotice core part seq s
  | .runReport t => Sys2Proof.Machine.execRunReport t s
  | .cancellationNotice part seq => Sys2Proof.Machine.execCancellationNotice part seq s
  | .walk core tag handle pos npos pad => Sys2Proof.Machine.execWalk core tag handle pos npos pad s
  | .walkrsp core tag => Sys2Proof.Machine.execWalkrsp core tag s
  | .rollback part seq => Sys2Proof.Machine.execRollback part seq s
  | .pageReturn cruc => Sys2Proof.Machine.execPageReturn cruc s
  | .poolPageScrubbed cruc page => Sys2Proof.Machine.execPoolPageScrubbed cruc page s
  | .pageTableUncorrectable cruc sq => Sys2Proof.Machine.execPageTableUncorrectable cruc sq s
  | .createSeq who cruc part => Sys2Proof.Machine.execCreateSeq who cruc part s
  | .freeSeq who cruc part sq => Sys2Proof.Machine.execFreeSeq who cruc part sq s
  | .truncateSeq who cruc part sq arg => Sys2Proof.Machine.execTruncateSeq who cruc part sq arg s
  | .setseg who cruc part sq => Sys2Proof.Machine.execSetseg who cruc part sq s
  | .loadbias who cruc part arg ecc => Sys2Proof.Machine.execLoadbias who cruc part arg ecc s
  | .poolConfigWrite who cruc cfg v => Sys2Proof.Machine.execPoolConfigWrite who cruc cfg v s
  | .cameraPortTraining port ok => Sys2Proof.Machine.execCameraPortTraining port ok s
  | .csi2Packet port vc dt data hdrErr crcErr full t => Sys2Proof.Machine.execCsi2Packet port vc dt data hdrErr crcErr full t s
  | .ethFrameReceive port frame fcsOk full t => Sys2Proof.Machine.execEthFrameReceive port frame fcsOk full t s
  | .injectedEntryRelease stream ecc t => Sys2Proof.Machine.execInjectedEntryRelease stream ecc t s
  | .injwrWrite stream v => Sys2Proof.Machine.execInjwrWrite stream v s
  | .streamEnable stream t => Sys2Proof.Machine.execStreamEnable stream t s
  | .streamDisable stream => Sys2Proof.Machine.execStreamDisable stream s
  | .servoHoldTimeout stream t => Sys2Proof.Machine.execServoHoldTimeout stream t s
  | .servoHoldmaxTimeout stream t => Sys2Proof.Machine.execServoHoldmaxTimeout stream t s
  | .gptpSync domain sq twoStep origin corr t => Sys2Proof.Machine.execGptpSync domain sq twoStep origin corr t s
  | .gptpFollowUp domain sq origin corr t => Sys2Proof.Machine.execGptpFollowUp domain sq origin corr t s
  | .gptpAnnounce domain gm => Sys2Proof.Machine.execGptpAnnounce domain gm s
  | .pdelayReqSend sq t => Sys2Proof.Machine.execPdelayReqSend sq t s
  | .pdelayResp sq t2 t3 t => Sys2Proof.Machine.execPdelayResp sq t2 t3 t s
  | .gptpSyncTimeout t => Sys2Proof.Machine.execGptpSyncTimeout t s
  | .steerHoldoverExpiry t => Sys2Proof.Machine.execSteerHoldoverExpiry t s
  | .marverCloseWrite frame done updated ecc t => Sys2Proof.Machine.execMarverCloseWrite frame done updated ecc t s
  | .periodClose done updated ecc t => Sys2Proof.Machine.execPeriodClose done updated ecc t s
  | .poseWrite v ecc => Sys2Proof.Machine.execPoseWrite v ecc s
  | .projectionDone updated ecc t => Sys2Proof.Machine.execProjectionDone updated ecc t s
  | .modeRequest v => Sys2Proof.Machine.execModeRequest v s
  | .scatgo who frame nent t => Sys2Proof.Machine.execScatgo who frame nent t s
  | .scatterDone ecc t => Sys2Proof.Machine.execScatterDone ecc t s
  | .scatterDeadline t => Sys2Proof.Machine.execScatterDeadline t s
  | .trkgo who frame ndet t => Sys2Proof.Machine.execTrkgo who frame ndet t s
  | .mainRunStart updated ecc t => Sys2Proof.Machine.execMainRunStart updated ecc t s
  | .mainRunDeadline updated ecc t => Sys2Proof.Machine.execMainRunDeadline updated ecc t s
  | .mainRunDone bad ecc t => Sys2Proof.Machine.execMainRunDone bad ecc t s
  | .fallbackRunDone bad ecc t => Sys2Proof.Machine.execFallbackRunDone bad ecc t s
  | .plausibilityEval t => Sys2Proof.Machine.execPlausibilityEval t s
  | .marverEvlogRead => Sys2Proof.Machine.execMarverEvlogRead s
  | .sqTailDoorbell fn ring place v => Sys2Proof.Machine.execSqTailDoorbell fn ring place v s
  | .cqHeadDoorbell fn ring place v => Sys2Proof.Machine.execCqHeadDoorbell fn ring place v s
  | .entryConsume ring entry ecc t => Sys2Proof.Machine.execEntryConsume ring entry ecc t s
  | .entryReadError ring => Sys2Proof.Machine.execEntryReadError ring s
  | .recordWriteRefused ring => Sys2Proof.Machine.execRecordWriteRefused ring s
  | .ringEnable who ring => Sys2Proof.Machine.execRingEnable who ring s
  | .ringDisable who ring => Sys2Proof.Machine.execRingDisable who ring s
  | .bar4Read fn off lenm1 ecc => Sys2Proof.Machine.execBar4Read fn off lenm1 ecc s
  | .bar4Write fn off bytes => Sys2Proof.Machine.execBar4Write fn off bytes s
  | .functionLevelReset fn t => Sys2Proof.Machine.execFunctionLevelReset fn t s
  | .runLayer part seq ecc t => Sys2Proof.Machine.execRunLayer part seq ecc t s
  | .runKernel part seq ecc t => Sys2Proof.Machine.execRunKernel part seq ecc t s
  | .registerLayer part seq ecc t => Sys2Proof.Machine.execRegisterLayer part seq ecc t s
  | .unregisterLayer part seq t => Sys2Proof.Machine.execUnregisterLayer part seq t s
  | .copyBlock part seq hostData hostOk ecc t => Sys2Proof.Machine.execCopyBlock part seq hostData hostOk ecc t s
  | .fillBlock part seq t => Sys2Proof.Machine.execFillBlock part seq t s
  | .seqOp part seq ecc t => Sys2Proof.Machine.execSeqOp part seq ecc t s
  | .frameResult part seq t => Sys2Proof.Machine.execFrameResult part seq t s
  | .sensorMgmt part seq ack data ecc t => Sys2Proof.Machine.execSensorMgmt part seq ack data ecc t s
  | .configPropose part seq ecc t => Sys2Proof.Machine.execConfigPropose part seq ecc t s
  | .configCommit part seq ecc reached t => Sys2Proof.Machine.execConfigCommit part seq ecc reached t s
  | .nopCommand part seq t => Sys2Proof.Machine.execNopCommand part seq t s
  | .abort part seq t => Sys2Proof.Machine.execAbort part seq t s
  | .commandReady part seq t => Sys2Proof.Machine.execCommandReady part seq t s
  | .commandStart part seq ecc t => Sys2Proof.Machine.execCommandStart part seq ecc t s
  | .runEnd core t => Sys2Proof.Machine.execRunEnd core t s
  | .runFault core t => Sys2Proof.Machine.execRunFault core t s
  | .runLimitExpired core t => Sys2Proof.Machine.execRunLimitExpired core t s
  | .commitCommand part seq flip => Sys2Proof.Machine.execCommitCommand part seq flip s
  | .marverTriggerFire ecc t => Sys2Proof.Machine.execMarverTriggerFire ecc t s
  | .spillCopyDone cruc => Sys2Proof.Machine.execSpillCopyDone cruc s
  | .preempt staging t => Sys2Proof.Machine.execPreempt staging t s
  | .preemptQuantum part seq t => Sys2Proof.Machine.execPreemptQuantum part seq t s
  | .checkpointWaitTimeout core t => Sys2Proof.Machine.execCheckpointWaitTimeout core t s
  | .cancellationClosure part seq t => Sys2Proof.Machine.execCancellationClosure part seq t s
  | .closureDone part t => Sys2Proof.Machine.execClosureDone part t s
  | .accountingTick core t => Sys2Proof.Machine.execAccountingTick core t s
  | .reheatSliceStart die t => Sys2Proof.Machine.execReheatSliceStart die t s
  | .reheatPatternDone core pass t => Sys2Proof.Machine.execReheatPatternDone core pass t s
  | .reheatSliceEnd core => Sys2Proof.Machine.execReheatSliceEnd core s
  | .reheatAbort core ended t => Sys2Proof.Machine.execReheatAbort core ended t s
  | .reheatOverdue core t => Sys2Proof.Machine.execReheatOverdue core t s
  | .sig crcOk t => Sys2Proof.Machine.execSig crcOk t s
  | .decisionTime t => Sys2Proof.Machine.execDecisionTime t s
  | .fallbackBlock buf t => Sys2Proof.Machine.execFallbackBlock buf t s
  | .radarPacket port payload t => Sys2Proof.Machine.execRadarPacket port payload t s
  | .planCheckRequest frame t => Sys2Proof.Machine.execPlanCheckRequest frame t s
  | .envelopeVerdict ecc t => Sys2Proof.Machine.execEnvelopeVerdict ecc t s
  | .fallbackPlanLate t => Sys2Proof.Machine.execFallbackPlanLate t s
  | .fallbackPlanDone t => Sys2Proof.Machine.execFallbackPlanDone t s
  | .watchdogKick who stage frame t => Sys2Proof.Machine.execWatchdogKick who stage frame t s
  | .watchdogClose stage t => Sys2Proof.Machine.execWatchdogClose stage t s
  | .comparatorTest pass => Sys2Proof.Machine.execComparatorTest pass s
  | .dieHeartbeatTimeout die t => Sys2Proof.Machine.execDieHeartbeatTimeout die t s
  | .ringTokenTimeout seg t => Sys2Proof.Machine.execRingTokenTimeout seg t s
  | .gafhbWrite who t => Sys2Proof.Machine.execGafhbWrite who t s
  | .gafferHeartbeatTimeout t => Sys2Proof.Machine.execGafferHeartbeatTimeout t s
  | .lehrHeartbeatTimeout lostB t => Sys2Proof.Machine.execLehrHeartbeatTimeout lostB t s
  | .lockstepMismatch lehrB t => Sys2Proof.Machine.execLockstepMismatch lehrB t s
  | .lehraTakeover t => Sys2Proof.Machine.execLehraTakeover t s
  | .deviceTimeHandover t => Sys2Proof.Machine.execDeviceTimeHandover t s
  | .lehraEvlogRead => Sys2Proof.Machine.execLehraEvlogRead s
  | .rd node who tag cls addr want ecc cache t => Sys2Proof.Machine.execRd node who tag cls addr want ecc cache t s
  | .wr node who tag cls addr want data t => Sys2Proof.Machine.execWr node who tag cls addr want data t s
  | .recPacket node who tag cls addr sq tile base rowsM1 data t => Sys2Proof.Machine.execRecPacket node who tag cls addr sq tile base rowsM1 data t s
  | .rdrsp node tag => Sys2Proof.Machine.execRdrsp node tag s
  | .wrack node tag => Sys2Proof.Machine.execWrack node tag s
  | .csrrd node who tag cls off want t => Sys2Proof.Machine.execCsrrd node who tag cls off want t s
  | .csrwr node who tag cls off want v t => Sys2Proof.Machine.execCsrwr node who tag cls off want v t s
  | .csrrsp node tag => Sys2Proof.Machine.execCsrrsp node tag s
  | .ack link up sq crc => Sys2Proof.Machine.execAck link up sq crc s
  | .nak link up sq crc t => Sys2Proof.Machine.execNak link up sq crc t s
  | .credit link up vc total crc => Sys2Proof.Machine.execCredit link up vc total crc s
  | .idle link up => Sys2Proof.Machine.execIdle link up s
  | .packetReceive link up sq head extOk crcOk t => Sys2Proof.Machine.execPacketReceive link up sq head extOk crcOk t s
  | .replayTimeout link up sideband t => Sys2Proof.Machine.execReplayTimeout link up sideband t s
  | .laneMonitorFlag m t => Sys2Proof.Machine.execLaneMonitorFlag m t s
  | .moduleTrainingDone m res lanes => Sys2Proof.Machine.execModuleTrainingDone m res lanes s
  | .moduleRetrainDone m res lanes => Sys2Proof.Machine.execModuleRetrainDone m res lanes s
  | .recoverTimeout m t => Sys2Proof.Machine.execRecoverTimeout m t s
  | .sidebandTimeout m lost t => Sys2Proof.Machine.execSidebandTimeout m lost t s
  | .vportRecoverDone core res spup spdn badgrp => Sys2Proof.Machine.execVportRecoverDone core res spup spdn badgrp s
  | .fenceTarget g => Sys2Proof.Machine.execFenceTarget g s
  | .targetRelease g => Sys2Proof.Machine.execTargetRelease g s
  | .clean who k => Sys2Proof.Machine.execClean who k s
  | .cleanInv who k => Sys2Proof.Machine.execCleanInv who k s
  | .cacheMaintDone k => Sys2Proof.Machine.execCacheMaintDone k s
  | .crucEvlogRead k => Sys2Proof.Machine.execCrucEvlogRead k s
  | .regulationWindow t => Sys2Proof.Machine.execRegulationWindow t s
  | .regbudWrite who k m v => Sys2Proof.Machine.execRegbudWrite who k m v s
  | .regctlWrite who v => Sys2Proof.Machine.execRegctlWrite who v s
  | .refreshPoint t => Sys2Proof.Machine.execRefreshPoint t s
  | .stallWindowEnd t => Sys2Proof.Machine.execStallWindowEnd t s
  | .stackTempReport site temp t => Sys2Proof.Machine.execStackTempReport site temp t s
  | .memrefWrite who v => Sys2Proof.Machine.execMemrefWrite who v s
  | .caParityError ch info t => Sys2Proof.Machine.execCaParityError ch info t s
  | .phyLockLoss ch info t => Sys2Proof.Machine.execPhyLockLoss ch info t s
  | .frzack who ch t => Sys2Proof.Machine.execFrzack who ch t s
  | .frzholdTimeout ch t => Sys2Proof.Machine.execFrzholdTimeout ch t s
  | .goservice who ch t => Sys2Proof.Machine.execGoservice who ch t s
  | .retire who ch => Sys2Proof.Machine.execRetire who ch s
  | .recoveryTimeout ch t => Sys2Proof.Machine.execRecoveryTimeout ch t s
  | .trainingTimeout ch t => Sys2Proof.Machine.execTrainingTimeout ch t s
  | .mapApply who => Sys2Proof.Machine.execMapApply who s
  | .mapApplyDone => Sys2Proof.Machine.execMapApplyDone s
  | .scrubLine ch ecc => Sys2Proof.Machine.execScrubLine ch ecc s
  | .park who mask => Sys2Proof.Machine.execPark who mask s
  | .parkDone => Sys2Proof.Machine.execParkDone s
  | .wake => Sys2Proof.Machine.execWake s
  | .trainWrite who ch line countm1 => Sys2Proof.Machine.execTrainWrite who ch line countm1 s
  | .trainReadCompare who ch line countm1 => Sys2Proof.Machine.execTrainReadCompare who ch line countm1 s
  | .trainCaLoop who ch line countm1 => Sys2Proof.Machine.execTrainCaLoop who ch line countm1 s
  | .trainWriteRead who ch line countm1 => Sys2Proof.Machine.execTrainWriteRead who ch line countm1 s
  | .trainCmdDone ch dqFail caFail errs => Sys2Proof.Machine.execTrainCmdDone ch dqFail caFail errs s
  | .zqCalibrationDone ch => Sys2Proof.Machine.execZqCalibrationDone ch s
  | .memoryFillDone ch => Sys2Proof.Machine.execMemoryFillDone ch s
  | .memcEvlogRead site => Sys2Proof.Machine.execMemcEvlogRead site s
  | .resetReq who kind index t => Sys2Proof.Machine.execResetReq who kind index t s
  | .idleAck b t => Sys2Proof.Machine.execIdleAck b t s
  | .idleTimeout b t => Sys2Proof.Machine.execIdleTimeout b t s
  | .orphanDrainDone b t => Sys2Proof.Machine.execOrphanDrainDone b t s
  | .resetLineEnd b t => Sys2Proof.Machine.execResetLineEnd b t s
  | .blockRestartDone b pass t => Sys2Proof.Machine.execBlockRestartDone b pass t s
  | .restartTimeout kind index t => Sys2Proof.Machine.execRestartTimeout kind index t s
  | .deviceWarmReset t => Sys2Proof.Machine.execDeviceWarmReset t s
  | .deviceColdReset t => Sys2Proof.Machine.execDeviceColdReset t s
  | .powerGood t => Sys2Proof.Machine.execPowerGood t s
  | .mainRailFail t => Sys2Proof.Machine.execMainRailFail t s
  | .lehrRailFail isB t => Sys2Proof.Machine.execLehrRailFail isB t s
  | .railFall lehrA lehrB main t => Sys2Proof.Machine.execRailFall lehrA lehrB main t s
  | .sysRstn level us acted t => Sys2Proof.Machine.execSysRstn level us acted t s
  | .lehraRstn us acted t => Sys2Proof.Machine.execLehraRstn us acted t s
  | .lehrbRstn us acted t => Sys2Proof.Machine.execLehrbRstn us acted t s
  | .pciePerstn us acted t => Sys2Proof.Machine.execPciePerstn us acted t s
  | .pcieHotReset t => Sys2Proof.Machine.execPcieHotReset t s
  | .optionReadStep => Sys2Proof.Machine.execOptionReadStep s
  | .flashCmdTimeout entries => Sys2Proof.Machine.execFlashCmdTimeout entries s
  | .optionRetryPause => Sys2Proof.Machine.execOptionRetryPause s
  | .repairLogAppend core column residue => Sys2Proof.Machine.execRepairLogAppend core column residue s
  | .resetEvlogRead => Sys2Proof.Machine.execResetEvlogRead s
  | .loadBatch who ecc => Sys2Proof.Machine.execLoadBatch who ecc s
  | .loadFrit who frit ecc => Sys2Proof.Machine.execLoadFrit who frit ecc s
  | .fritSwitchRequest who v => Sys2Proof.Machine.execFritSwitchRequest who v s
  | .fritSwitch t => Sys2Proof.Machine.execFritSwitch t s
  | .debugRequest who scope t => Sys2Proof.Machine.execDebugRequest who scope t s
  | .debugLock who => Sys2Proof.Machine.execDebugLock who s
  | .debugResponse who addr ecc t => Sys2Proof.Machine.execDebugResponse who addr ecc t s
  | .cfgEvlogRead => Sys2Proof.Machine.execCfgEvlogRead s
  | .blowpipeTopoWrite who v t => Sys2Proof.Machine.execBlowpipeTopoWrite who v t s
  | .bpPortTrainingDone port lanes nbr => Sys2Proof.Machine.execBpPortTrainingDone port lanes nbr s
  | .bpTrainingTimeout port t => Sys2Proof.Machine.execBpTrainingTimeout port t s
  | .bpReplayLimit port lockLost t => Sys2Proof.Machine.execBpReplayLimit port lockLost t s
  | .bpFlit port fseq ackseq cls words crcOk packets t => Sys2Proof.Machine.execBpFlit port fseq ackseq cls words crcOk packets t s
  | .bpFlitReplayTimeout port t => Sys2Proof.Machine.execBpFlitReplayTimeout port t s
  | .bpDeliveryStart chan waited t => Sys2Proof.Machine.execBpDeliveryStart chan waited t s
  | .bpBegin src chan gen t => Sys2Proof.Machine.execBpBegin src chan gen t s
  | .bpData src chan gen packet t => Sys2Proof.Machine.execBpData src chan gen packet t s
  | .bpEnd src chan gen count crc t => Sys2Proof.Machine.execBpEnd src chan gen count crc t s
  | .bpAck src chan gen t => Sys2Proof.Machine.execBpAck src chan gen t s
  | .bpNak src chan gen code instat t => Sys2Proof.Machine.execBpNak src chan gen code instat t s
  | .bpWait src chan gen t => Sys2Proof.Machine.execBpWait src chan gen t s
  | .bpBeginRepeat chan waited t => Sys2Proof.Machine.execBpBeginRepeat chan waited t s
  | .bpFwdTimeout chan t => Sys2Proof.Machine.execBpFwdTimeout chan t s
  | .bpGenTimeout chan t => Sys2Proof.Machine.execBpGenTimeout chan t s
  | .inboundCommit chan flip => Sys2Proof.Machine.execInboundCommit chan flip s
  | .fwdChannelEnable who chan => Sys2Proof.Machine.execFwdChannelEnable who chan s
  | .inChannelEnable who chan => Sys2Proof.Machine.execInChannelEnable who chan s
  | .blowpipeEvlogRead => Sys2Proof.Machine.execBlowpipeEvlogRead s
  | .powerSample power t => Sys2Proof.Machine.execPowerSample power t s
  | .powerUpdate t => Sys2Proof.Machine.execPowerUpdate t s
  | .sensorRead sensor reading t => Sys2Proof.Machine.execSensorRead sensor reading t s
  | .coolantWrite who temp t => Sys2Proof.Machine.execCoolantWrite who temp t s
  | .coolantStale t => Sys2Proof.Machine.execCoolantStale t s
  | .corePark core => Sys2Proof.Machine.execCorePark core s
  | .coreUnpark core => Sys2Proof.Machine.execCoreUnpark core s
  | .ageSample t => Sys2Proof.Machine.execAgeSample t s
  | .thermEvlogRead => Sys2Proof.Machine.execThermEvlogRead s
  | .jtagInstruction ir => Sys2Proof.Machine.execJtagInstruction ir s
  | .lehrHeartbeat fromB t => Sys2Proof.Machine.execLehrHeartbeat fromB t s
  | .pciePerstnRise rate width flit t => Sys2Proof.Machine.execPciePerstnRise rate width flit t s
  | .virtualFunctionEnable fn on => Sys2Proof.Machine.execVirtualFunctionEnable fn on s

end Sys2Proof.Machine
end

