-- ==== Sys2Proof/WellFormed.lean ====
section
/-! DEFINITION. Which commands are well-formed: what a command's operand types do not bound already. A command carries the fields of a packet, an
access or an outcome, and most fields have their width in their type; what is left are the lists, whose lengths the spec bounds by the packet or access
they travel in. -/

namespace Sys2Proof

/-- A Blowpipe packet's line has 128 bytes (R469, R601). -/
def bpPacketWf (p : BpPacket) : Bool :=
  match p.data with
  | none => true
  | some d => decide (d.bytes.length = 128)

/-- R323: a link of the supported rates and widths; flit mode goes with 64 GT/s. -/
def linkWf (rate width : Nat) (flit : Bool) : Bool :=
  decide (1 ≤ rate) && decide (rate ≤ 6) && [4, 8, 16].contains width && (flit == decide (rate = 6))

/-- A CSI-2 packet has a 16-bit word count (R244); an Ethernet frame and a radar packet fit their ports' buffers (R246, R433); a BAR4 write carries at most
one maximum payload (R323); COPY moves fewer than 2^32 bytes (R345), SENSOR_MGMT at most 256 (R349); a commit names each fuse field once (R592); a packet's
length field has 8 bits (R467); a module loses each transaction once (R479); a flit has room for 15 envelopes (R600);
a host link is one R323 supports. -/
def Instr.wf : Instr → Bool
  | .frameBoundary _ _ => true
  | .frameTimerEnable _ _ => true
  | .frameTimerDisable _ => true
  | .frmperWrite _ _ => true
  | .frmphaseWrite _ _ => true
  | .frmcntWrite _ _ => true
  | .csrWrite _ _ _ _ _ => true
  | .deviceTimeAdjust _ _ => true
  | .coreResetRelease _ => true
  | .repairDone _ => true
  | .selftestDone _ _ _ => true
  | .heldRelease _ => true
  | .quarantineRestart _ _ => true
  | .dispatch _ _ => true
  | .partitionClearDone _ => true
  | .checkpointResume _ _ => true
  | .programEnd _ _ => true
  | .faultAck _ => true
  | .kill _ _ => true
  | .killSettled _ => true
  | .checkpointRequest _ _ => true
  | .checkpointBoundary _ _ => true
  | .checkpointSaveDone _ _ _ => true
  | .haltreq _ _ _ => true
  | .resume _ _ _ => true
  | .restartreq _ _ _ => true
  | .breakpointHit _ _ => true
  | .tpstep _ _ _ _ => true
  | .debugHaltPoint _ => true
  | .coreWindowAccess _ _ _ _ => true
  | .steprateUpdate _ _ _ _ => true
  | .stepminWrite _ => true
  | .weightSwap _ => true
  | .instructionFetch _ _ _ _ => true
  | .instrComplete _ _ _ => true
  | .starvedFault _ => true
  | .coreSyncWrite _ _ _ _ => true
  | .clr _ => true
  | .wld _ _ => true
  | .mm _ _ => true
  | .drn _ _ => true
  | .vld _ _ => true
  | .vst _ _ => true
  | .vldsc _ _ => true
  | .vbc _ => true
  | .vadd _ => true
  | .vsub _ => true
  | .vmul _ => true
  | .vfma _ => true
  | .vdiv _ => true
  | .vsqrt _ => true
  | .vmin _ => true
  | .vmax _ => true
  | .vabs _ => true
  | .vneg _ => true
  | .vcmp _ => true
  | .vsel _ => true
  | .vand _ => true
  | .vor _ => true
  | .vxor _ => true
  | .vshl _ => true
  | .vshr _ => true
  | .vcvt _ => true
  | .vqnt _ => true
  | .vexp2 _ => true
  | .vlog2 _ => true
  | .vrcp _ => true
  | .vrsqrt _ => true
  | .vsigm _ => true
  | .vtanh _ => true
  | .vgelu _ => true
  | .vexpd _ => true
  | .vrsum _ => true
  | .vrmax _ => true
  | .vrmin _ => true
  | .vrssq _ => true
  | .ld _ _ => true
  | .ldacc _ _ => true
  | .st _ _ => true
  | .stacc _ _ => true
  | .stsig _ _ => true
  | .gidx _ _ => true
  | .gpage _ _ => true
  | .nop _ _ => true
  | .endStream _ _ => true
  | .ckpt _ _ => true
  | .fence _ _ => true
  | .commitNotice _ _ _ => true
  | .discardNotice _ _ _ => true
  | .runReport _ => true
  | .cancellationNotice _ _ => true
  | .walk _ _ _ _ _ _ => true
  | .walkrsp _ _ => true
  | .rollback _ _ => true
  | .pageReturn _ => true
  | .poolPageScrubbed _ _ => true
  | .pageTableUncorrectable _ _ => true
  | .createSeq _ _ _ => true
  | .freeSeq _ _ _ _ => true
  | .truncateSeq _ _ _ _ _ => true
  | .setseg _ _ _ _ => true
  | .loadbias _ _ _ _ _ => true
  | .poolConfigWrite _ _ _ _ => true
  | .cameraPortTraining _ _ => true
  | .csi2Packet _ _ _ data _ _ _ _ => decide (data.length < 65536)
  | .ethFrameReceive _ frame _ _ _ => decide (frame.length < 65536)
  | .injectedEntryRelease _ _ _ => true
  | .injwrWrite _ _ => true
  | .streamEnable _ _ => true
  | .streamDisable _ => true
  | .servoHoldTimeout _ _ => true
  | .servoHoldmaxTimeout _ _ => true
  | .gptpSync _ _ _ _ _ _ => true
  | .gptpFollowUp _ _ _ _ _ => true
  | .gptpAnnounce _ _ => true
  | .pdelayReqSend _ _ => true
  | .pdelayResp _ _ _ _ => true
  | .gptpSyncTimeout _ => true
  | .steerHoldoverExpiry _ => true
  | .marverCloseWrite _ _ _ _ _ => true
  | .periodClose _ _ _ _ => true
  | .poseWrite _ _ => true
  | .projectionDone _ _ _ => true
  | .modeRequest _ => true
  | .scatgo _ _ _ _ => true
  | .scatterDone _ _ => true
  | .scatterDeadline _ => true
  | .trkgo _ _ _ _ => true
  | .mainRunStart _ _ _ => true
  | .mainRunDeadline _ _ _ => true
  | .mainRunDone _ _ _ => true
  | .fallbackRunDone _ _ _ => true
  | .plausibilityEval _ => true
  | .marverEvlogRead => true
  | .sqTailDoorbell _ _ _ _ => true
  | .cqHeadDoorbell _ _ _ _ => true
  | .entryConsume _ _ _ _ => true
  | .entryReadError _ => true
  | .recordWriteRefused _ => true
  | .ringEnable _ _ => true
  | .ringDisable _ _ => true
  | .bar4Read _ _ _ _ => true
  | .bar4Write _ _ bytes => decide (1 ≤ bytes.length) && decide (bytes.length ≤ 512)
  | .functionLevelReset _ _ => true
  | .runLayer _ _ _ _ => true
  | .runKernel _ _ _ _ => true
  | .registerLayer _ _ _ _ => true
  | .unregisterLayer _ _ _ => true
  | .copyBlock _ _ hostData _ _ _ => decide (hostData.length < 2 ^ 32)
  | .fillBlock _ _ _ => true
  | .seqOp _ _ _ _ => true
  | .frameResult _ _ _ => true
  | .sensorMgmt _ _ _ data _ _ => decide (data.length ≤ 256)
  | .configPropose _ _ _ _ => true
  | .configCommit _ _ _ reached _ => decide ((reached.map (·.1)).Nodup)
  | .nopCommand _ _ _ => true
  | .abort _ _ _ => true
  | .commandReady _ _ _ => true
  | .commandStart _ _ _ _ => true
  | .runEnd _ _ => true
  | .runFault _ _ => true
  | .runLimitExpired _ _ => true
  | .commitCommand _ _ _ => true
  | .marverTriggerFire _ _ => true
  | .spillCopyDone _ => true
  | .preempt _ _ => true
  | .preemptQuantum _ _ _ => true
  | .checkpointWaitTimeout _ _ => true
  | .cancellationClosure _ _ _ => true
  | .closureDone _ _ => true
  | .accountingTick _ _ => true
  | .reheatSliceStart _ _ => true
  | .reheatPatternDone _ _ _ => true
  | .reheatSliceEnd _ => true
  | .reheatAbort _ _ _ => true
  | .reheatOverdue _ _ => true
  | .sig _ _ => true
  | .decisionTime _ => true
  | .fallbackBlock _ _ => true
  | .radarPacket _ payload _ => decide (payload.length ≤ 1500)
  | .planCheckRequest _ _ => true
  | .envelopeVerdict _ _ => true
  | .fallbackPlanLate _ => true
  | .fallbackPlanDone _ => true
  | .watchdogKick _ _ _ _ => true
  | .watchdogClose _ _ => true
  | .comparatorTest _ => true
  | .dieHeartbeatTimeout _ _ => true
  | .ringTokenTimeout _ _ => true
  | .gafhbWrite _ _ => true
  | .gafferHeartbeatTimeout _ => true
  | .lehrHeartbeatTimeout _ _ => true
  | .lockstepMismatch _ _ => true
  | .lehraTakeover _ => true
  | .deviceTimeHandover _ => true
  | .lehraEvlogRead => true
  | .rd _ _ _ _ _ _ _ _ _ => true
  | .wr _ _ _ _ _ _ data _ => decide (data.length < 256)
  | .recPacket _ _ _ _ _ _ _ _ _ data _ => decide (data.length < 256)
  | .rdrsp _ _ => true
  | .wrack _ _ => true
  | .csrrd _ _ _ _ _ _ _ => true
  | .csrwr _ _ _ _ _ _ _ _ => true
  | .csrrsp _ _ => true
  | .ack _ _ _ _ => true
  | .nak _ _ _ _ _ => true
  | .credit _ _ _ _ _ => true
  | .idle _ _ => true
  | .packetReceive _ _ _ _ _ _ _ => true
  | .replayTimeout _ _ _ _ => true
  | .laneMonitorFlag _ _ => true
  | .moduleTrainingDone _ _ _ => true
  | .moduleRetrainDone _ _ _ => true
  | .recoverTimeout _ _ => true
  | .sidebandTimeout _ lost _ => decide lost.Nodup
  | .vportRecoverDone _ _ _ _ _ => true
  | .fenceTarget _ => true
  | .targetRelease _ => true
  | .clean _ _ => true
  | .cleanInv _ _ => true
  | .cacheMaintDone _ => true
  | .crucEvlogRead _ => true
  | .regulationWindow _ => true
  | .regbudWrite _ _ _ _ => true
  | .regctlWrite _ _ => true
  | .refreshPoint _ => true
  | .stallWindowEnd _ => true
  | .stackTempReport _ _ _ => true
  | .memrefWrite _ _ => true
  | .caParityError _ _ _ => true
  | .phyLockLoss _ _ _ => true
  | .frzack _ _ _ => true
  | .frzholdTimeout _ _ => true
  | .goservice _ _ _ => true
  | .retire _ _ => true
  | .recoveryTimeout _ _ => true
  | .trainingTimeout _ _ => true
  | .mapApply _ => true
  | .mapApplyDone => true
  | .scrubLine _ _ => true
  | .park _ _ => true
  | .parkDone => true
  | .wake => true
  | .trainWrite _ _ _ _ => true
  | .trainReadCompare _ _ _ _ => true
  | .trainCaLoop _ _ _ _ => true
  | .trainWriteRead _ _ _ _ => true
  | .trainCmdDone _ _ _ _ => true
  | .zqCalibrationDone _ => true
  | .memoryFillDone _ => true
  | .memcEvlogRead _ => true
  | .resetReq _ _ _ _ => true
  | .idleAck _ _ => true
  | .idleTimeout _ _ => true
  | .orphanDrainDone _ _ => true
  | .resetLineEnd _ _ => true
  | .blockRestartDone _ _ _ => true
  | .restartTimeout _ _ _ => true
  | .deviceWarmReset _ => true
  | .deviceColdReset _ => true
  | .powerGood _ => true
  | .mainRailFail _ => true
  | .lehrRailFail _ _ => true
  | .railFall _ _ _ _ => true
  | .sysRstn _ _ _ _ => true
  | .lehraRstn _ _ _ => true
  | .lehrbRstn _ _ _ => true
  | .pciePerstn _ _ _ => true
  | .pcieHotReset _ => true
  | .optionReadStep => true
  | .flashCmdTimeout _ => true
  | .optionRetryPause => true
  | .repairLogAppend _ _ _ => true
  | .resetEvlogRead => true
  | .loadBatch _ _ => true
  | .loadFrit _ _ _ => true
  | .fritSwitchRequest _ _ => true
  | .fritSwitch _ => true
  | .debugRequest _ _ _ => true
  | .debugLock _ => true
  | .debugResponse _ _ _ _ => true
  | .cfgEvlogRead => true
  | .blowpipeTopoWrite _ _ _ => true
  | .bpPortTrainingDone _ _ _ => true
  | .bpTrainingTimeout _ _ => true
  | .bpReplayLimit _ _ _ => true
  | .bpFlit _ _ _ _ _ _ packets _ => decide (packets.length ≤ 15) && packets.all bpPacketWf
  | .bpFlitReplayTimeout _ _ => true
  | .bpDeliveryStart _ _ _ => true
  | .bpBegin _ _ _ _ => true
  | .bpData _ _ _ _ _ => true
  | .bpEnd _ _ _ _ _ _ => true
  | .bpAck _ _ _ _ => true
  | .bpNak _ _ _ _ _ _ => true
  | .bpWait _ _ _ _ => true
  | .bpBeginRepeat _ _ _ => true
  | .bpFwdTimeout _ _ => true
  | .bpGenTimeout _ _ => true
  | .inboundCommit _ _ => true
  | .fwdChannelEnable _ _ => true
  | .inChannelEnable _ _ => true
  | .blowpipeEvlogRead => true
  | .powerSample _ _ => true
  | .powerUpdate _ => true
  | .sensorRead _ _ _ => true
  | .coolantWrite _ _ _ => true
  | .coolantStale _ => true
  | .corePark _ => true
  | .coreUnpark _ => true
  | .ageSample _ => true
  | .thermEvlogRead => true
  | .jtagInstruction _ => true
  | .lehrHeartbeat _ _ => true
  | .pciePerstnRise rate width flit _ => linkWf rate.toNat width.toNat flit
  | .virtualFunctionEnable _ _ => true

end Sys2Proof
end

