-- ==== Sys2Proof/Safety.lean ====
section
/-! DEFINITION. What statements about whole runs are made in terms of: a step that goes on, the canonical form of the state's sparse data, and
the event logs within their capacity. -/

namespace Sys2Proof.Machine

/-- A step that goes on. -/
def Goes (s : State) : Prop := ∃ t, step s = .next t

/-- The command answers a next state with a property. -/
def Answers (c : Instr) (s : State) (P : State → Prop) : Prop := ∃ t, exec c s = .next t ∧ P t

/-- The register file is canonical: offsets rise, and none is listed with its reset value. -/
def RegsWf (s : State) : Prop := sparseWf regReset s.regs = true

/-- DRAM is canonical: cells rise, and none is listed that reads as an unlisted one does. -/
abbrev Memory.wf (m : MemState) : Prop := sparseWf (fun _ => 0#8) m.bytes = true

/-- An event log holds no more entries than it has room for. -/
def EvLog.within (l : EvLog) (cap : Nat) : Prop := l.entries.length ≤ cap

/-- Every event log is within the capacity that its chapter gives it: RESET_EVLOG, DEV_CFGEVLOG, THERM_EVLOG, BLOWPIPE_EVLOG and each MEMC_EVLOG
64 entries, LEHRA_EVLOG, MARVER_EVLOG and each CRUC_EVLOG 256. -/
def LogsWf (s : State) : Prop :=
  s.rst.log.within 64 ∧ s.cfg.log.within 64 ∧ s.therm.log.within 64 ∧ s.blow.log.within 64 ∧ s.lehrA.log.within 256 ∧
  s.marver.log.within 256 ∧ (∀ q ∈ s.fab.logs, q.2.within 256) ∧ (∀ q ∈ s.mem.logs, q.2.within 64)

/-- What every step keeps: the register file and DRAM canonical, the event logs within their capacity, the waiting commands well-formed. -/
def Inv (s : State) : Prop :=
  RegsWf s ∧ Memory.wf s.mem ∧ LogsWf s ∧ s.pending.all Instr.wf = true

/-- Between two states only registers differ, and only those at the listed offsets. -/
def OnlyRegs (s t : State) (offs : List Nat) : Prop :=
  (∀ o, o ∉ offs → t.reg o = s.reg o) ∧ t = { s with regs := t.regs }

/-- The state after a number of steps, where every one of them goes on. -/
def stepsTo : Nat → State → Option State
  | 0, s => some s
  | n + 1, s => match step s with
    | .next t => stepsTo n t
    | _ => none

/-- The identity that gives a command which only partition 0 and Gaffer firmware may give (R10, R42, R510, R545, R587, R595, R596, R615, R630). -/
def managedBy : Instr → Option Ident
  | .frameTimerEnable who _ => some who
  | .frameTimerDisable who => some who
  | .frmperWrite who _ => some who
  | .frmphaseWrite who _ => some who
  | .frmcntWrite who _ => some who
  | .poolConfigWrite who _ _ _ => some who
  | .regbudWrite who _ _ _ => some who
  | .regctlWrite who _ => some who
  | .memrefWrite who _ => some who
  | .mapApply who => some who
  | .park who _ => some who
  | .loadBatch who _ => some who
  | .loadFrit who _ _ => some who
  | .fritSwitchRequest who _ => some who
  | .debugRequest who _ _ => some who
  | .debugLock who => some who
  | .debugResponse who _ _ _ => some who
  | .blowpipeTopoWrite who _ _ => some who
  | .fwdChannelEnable who _ => some who
  | .inChannelEnable who _ => some who
  | .coolantWrite who _ _ => some who
  | _ => none

/-- The identity that gives a command which only Gaffer firmware may give (R238, R290, R315, R446, R485, R534, R536, R544, R547). -/
def firmwareOnly : Instr → Option Ident
  | .createSeq who _ _ => some who
  | .freeSeq who _ _ _ => some who
  | .truncateSeq who _ _ _ _ => some who
  | .setseg who _ _ _ => some who
  | .loadbias who _ _ _ _ => some who
  | .scatgo who _ _ _ => some who
  | .trkgo who _ _ _ => some who
  | .gafhbWrite who _ => some who
  | .clean who _ => some who
  | .cleanInv who _ => some who
  | .frzack who _ _ => some who
  | .goservice who _ _ => some who
  | .retire who _ => some who
  | .trainWrite who _ _ _ => some who
  | .trainReadCompare who _ _ _ => some who
  | .trainCaLoop who _ _ _ => some who
  | .trainWriteRead who _ _ _ => some who
  | _ => none

/-! ## Tile programs -/

/-- The memories and registers that a core's instructions work on. -/
def Core.memory (x : Core) : List (Nat × Byte) × List Nat × List (Nat × Acc) × List (Nat × List (Nat × Nat)) × List (Nat × Nat) ×
    List (Nat × Nat) × List (Nat × TileSt) × List (Nat × BitVec 32) × Option WTile × Option WTile :=
  (x.sp, x.spBad, x.accs, x.leaves, x.terms, x.nextK, x.tiles, x.vregs, x.shadow, x.active)

/-- Between two states only core `c` differs: its registers and what it holds. -/
def CoreOnly (s u : State) (c : Nat) : Prop :=
  (∀ o, o / 0x10000 ≠ 0x100 + c → u.reg o = s.reg o) ∧ (∀ d, d ≠ c → u.core d = s.core d) ∧ u = { s with regs := u.regs, cores := u.cores }

/-- Between two states only the course of core `c`'s program differs: not its memories, not CORE_AFLAGS. -/
def CourseOnly (s u : State) (c : Nat) : Prop :=
  CoreOnly s u c ∧ (u.core c).memory = (s.core c).memory ∧ u.reg (Reg.coreAflags c) = s.reg (Reg.coreAflags c)

/-- The state that a wait is judged in: the owning command has its record where it needs one (R191, R196). -/
def atWait (s : State) (c w : Nat) : State := if wWamt w ≠ 0 ∧ recorded s c (wWctr w) = true then giveRecord s c else s

/-- The state in which an instruction acts, its wait taken (R140, R191). -/
def afterWait (s : State) (c w : Nat) : State := if wWamt w ≠ 0 then takeWait (atWait s c w) c (wWctr w) (wWamt w) else atWait s c w

/-- The word `w` is at the head of stream `k` of a core that runs with no debug write to replay, and issues: its word checks pass, the stream is
not at the marker of a requested checkpoint, its wait is satisfied, its unit is free, its issue checks pass and no other engine uses its tile
(R91, R99, R134, R140, R172, R178, R191). -/
structure HeadReady (s : State) (c k w : Nat) (checks : State → Nat → List TFault) : Prop where
  stream : k < 5
  live : (s.core c).debugLog = []
  runs : running s c = true
  head : ∃ b : BitVec 128, headWord s c k = some (some b) ∧ b.toNat = w
  passes : firstFault (wordChecks k (hasMarkers s c) w) = none
  goes : atTarget s c k = false
  waited : waitBlocked (atWait s c w) c w = false
  free : unitBusy (atWait s c w) c (wEng w) (wOp w) w = false
  checked : firstFault (checks (afterWait s c w) w) = none
  apart : ∀ t, wordTile w = some t → tileConflict (afterWait s c w) c (wEng w) t = false

/-- An instruction left CORE_AFLAGS with the flags it raised beside those before (R111, R125), and nothing outside its core differs. -/
def CoreFlags (s : State) (c : Nat) (fl : AFlags) (u : State) : Prop :=
  (u.reg (Reg.coreAflags c)).toNat = ((s.reg (Reg.coreAflags c)).toNat ||| fl.word) ∧ CoreOnly s u c

/-- The lanes of VD named by `res` hold its values, every other lane and the core's other memories are as before, the flags `fl` are added to
CORE_AFLAGS, and nothing outside the core differs (R90, R157, R158). -/
def LanesSet (s : State) (c w : Nat) (res : Nat → Option Nat) (fl : AFlags) (u : State) : Prop :=
  (∀ v i, i < 512 → (u.core c).lane v i = if v = wVd w then (res i).getD ((s.core c).lane v i) else (s.core c).lane v i) ∧
  { u.core c with vregs := (s.core c).vregs }.memory = (s.core c).memory ∧ CoreFlags s c fl u

/-- The tree of a reduction over 512 lanes, those above LEN supplying the identity (R160). -/
def reduction (x : Core) (w : Nat) (leaf : Nat → Nat → FVal) (node : Nat → Nat → Nat → FVal) (identF identI : Nat) : FVal :=
  treeReduce (nodeOf (node w)) 9
    ((List.range 512).map (fun i => if i < wLen w then leaf w (srcA x w i) else (if wInt w then identI else identF, AFlags.none)))

end Sys2Proof.Machine
end

