-- ==== Sys2Proof/Certificates/Slice0/Obligations.lean ====
section
/-! DEFINITION. The statements about this model. -/

open Sys2Proof Sys2Proof.Machine

/-- The frame timer is enabled, disabled and set by its commands. From partition 0 or Gaffer firmware, while its register is not locked, an enable
of a stopped timer sets EN and the next boundary, a grid point after the command and at most one period after it; a disable clears EN and leaves the
next boundary standing; a period in range and a phase written to a stopped timer are in force at once and nothing is pending, and a frame number
written to a stopped timer is the one shown. Each clause says what else stays. That device time moves to a command's time and never back is the
model's reading (log entry 1). -/
def Obligations.FrameTimerCommands : Prop :=
  (∀ (s : State) (who : Ident) (t : Nat), mgmt who = true → locked s Reg.devFrmctl = false →
    s.frame.nextBoundary = none → 0 < s.frmper →
    Answers (.frameTimerEnable who t) s (fun u => u.regBit Reg.devFrmctl 0 = true ∧
      (∃ b : Nat, u.frame.nextBoundary = some b ∧ max s.now t < b ∧ b ≤ max s.now t + s.frmper ∧
        ((b : Int) - (s.frmphase : Int)) % (s.frmper : Int) = 0) ∧
      (∀ o, o ≠ Reg.devFrmctl → u.reg o = s.reg o) ∧
      u = { s with now := max s.now t, regs := u.regs, frame := { s.frame with nextBoundary := u.frame.nextBoundary } })) ∧
  (∀ (s : State) (who : Ident), mgmt who = true → locked s Reg.devFrmctl = false →
    Answers (.frameTimerDisable who) s (fun u => u.regBit Reg.devFrmctl 0 = false ∧ OnlyRegs s u [Reg.devFrmctl])) ∧
  (∀ (s : State) (who : Ident) (v : BitVec 32), mgmt who = true → locked s Reg.devFrmper = false →
    s.timerStopped = true → 10000000 ≤ v.toNat → v.toNat ≤ 100000000 →
    Answers (.frmperWrite who v) s (fun u => u.frmper = v.toNat ∧ u.frame.pendPeriod = none ∧
      u.frame.nextBoundary = s.frame.nextBoundary ∧ (∀ o, o ≠ Reg.devFrmctl → o ≠ Reg.devFrmper → u.reg o = s.reg o))) ∧
  (∀ (s : State) (who : Ident) (v : BitVec 64), mgmt who = true → locked s Reg.devFrmphase = false → s.timerStopped = true →
    Answers (.frmphaseWrite who v) s (fun u => u.frmphase = v.toNat ∧ u.frame.pendPhase = none ∧
      u.frame.nextBoundary = s.frame.nextBoundary ∧ (∀ o, o ≠ Reg.devFrmctl → o ≠ Reg.devFrmphase → u.reg o = s.reg o))) ∧
  (∀ (s : State) (who : Ident) (v : BitVec 32), mgmt who = true → s.timerStopped = true →
    Answers (.frmcntWrite who v) s (fun u => u.frmcnt = v.toNat ∧ OnlyRegs s u [Reg.devFrmcnt]))

/-- What the sensors and the rings bring is taken. An enabled camera port of one to five groups that is not ACTIVE and has not failed for good
becomes ACTIVE when its training passes. On an ACTIVE port a Frame Start begins an image on every image stream of its channel, a Frame End ends it,
and a packet of a known type that is not too large reaches every stream of the channel. On an Ethernet port that is up a frame within the length
bounds that is neither flow control nor gPTP reaches the stream it matches. A ring's next entry with a good checksum and a known form is released
once its time has come. The ring's write index and the pose ring's are taken. (Device time moves to a command's time and never back: log entry 1.)
-/
def Obligations.SensorPortsComplete : Prop :=
  (∀ (s : State) (port : Fin 16), s.regBit (Reg.marverCamcfg port.val) 0 = true → 1 ≤ s.regFld (Reg.marverCamcfg port.val) 1 3 →
    s.regFld (Reg.marverCamcfg port.val) 1 3 ≤ 5 → s.regFld (Reg.marverCamst port.val) 0 2 ≠ 2 → (sget (0, 0) s.marver.cams port.val).2 < 3 →
    ∃ u : State, exec (.cameraPortTraining port true) s = .next (releaseDomains u) ∧ u.regFld (Reg.marverCamst port.val) 0 2 = 2) ∧
  (∀ (s : State) (port : Fin 16) (vc : Fin 32) (dt : BitVec 6) (data : List Byte) (t : Nat) (is img : List Nat), s.regBit (Reg.marverCamcfg
      port.val) 0 = true → s.regFld (Reg.marverCamst port.val) 0 2 = 2 → is = cameraStreams s port.val vc.val →
    img = is.filter (fun i => decide (streamPayload s i = 0)) → dt = 0#6 →
    exec (.csi2Packet port vc dt data false false false t) s = .next (img.foldl (fun s i => imageBegin s i t) (s.at t))) ∧
  (∀ (s : State) (port : Fin 16) (vc : Fin 32) (dt : BitVec 6) (data : List Byte) (t : Nat) (is img : List Nat), s.regBit (Reg.marverCamcfg
      port.val) 0 = true → s.regFld (Reg.marverCamst port.val) 0 2 = 2 → is = cameraStreams s port.val vc.val →
    img = is.filter (fun i => decide (streamPayload s i = 0)) → dt = 1#6 →
    exec (.csi2Packet port vc dt data false false false t) s = .next (img.foldl imageEnd (s.at t))) ∧
  (∀ (s : State) (port : Fin 16) (vc : Fin 32) (dt : BitVec 6) (data : List Byte) (t : Nat) (is img : List Nat) (b : Nat), s.regBit
      (Reg.marverCamcfg port.val) 0 = true → s.regFld (Reg.marverCamst port.val) 0 2 = 2 → is = cameraStreams s port.val vc.val →
    img = is.filter (fun i => decide (streamPayload s i = 0)) → 4 ≤ dt.toNat → csiBits dt.toNat = some b → tooLarge (s.at t) img dt.toNat b data = false →
    exec (.csi2Packet port vc dt data false false false t) s = .next (is.foldl (fun s i => csiLine s i dt.toNat t data) (s.at t))) ∧
  (∀ (s : State) (port : Fin 8) (frame : List Byte) (t i : Nat), s.regFld (Reg.marverEthst port.val) 0 2 = 2 → 60 ≤ frame.length →
    frame.length ≤ 9212 → (ethInfo frame).etype ≠ 0x8808 → (ethInfo frame).etype ≠ 0x88F7 →
    (List.range 64).find? (ethMatches s port.val (ethInfo frame)) = some i →
    exec (.ethFrameReceive port frame true false t) s = .next (packetArrive (s.at t) i (t - s.regFld (Reg.marverEthcfg port.val) 8 12) frame
      (ethInfo frame).data)) ∧
  (∀ (s s1 s2 : State) (stream : Fin 64) (ecc : MemEcc) (t : Nat) (e bs : List Byte), streamOn s stream.val = true → streamKind s stream.val = 3 →
    s.regFld (Reg.marverSslot stream.val) 32 32 ≠ s.regFld (Reg.marverInjrd stream.val) 0 32 →
    devRead (s.at t) marverReq ecc (s.regFld (Reg.marverSmatch stream.val) 6 42 * 64 + s.regFld (Reg.marverInjrd stream.val) 0 32 % 2 ^ s.regFld
      (Reg.marverSmatch stream.val) 48 4 * 32) 32 = (s1, .ok e) → leAt e 28 4 = crc32c (e.take 28) → leAt e 20 1 = 1 ∨ leAt e 20 1 = 2 →
    1 ≤ leAt e 16 4 ∧ leAt e 16 4 ≤ 16777216 → leAt e 0 8 ≤ max s.now t → devRead s1 marverReq .clean (leAt e 8 8) (leAt e 16 4) = (s2, .ok bs) →
    exec (.injectedEntryRelease stream ecc t) s = .next ((injectPayload s2 stream.val (leAt e 20 1) (if leAt e 0 8 = 0 then max s.now t else leAt
      e 0 8) bs).setRegFld (Reg.marverInjrd stream.val) 0 32 (s.regFld (Reg.marverInjrd stream.val) 0 32 + 1))) ∧
  (∀ (s : State) (stream : Fin 64) (v : BitVec 32), countDiff v.toNat (s.regFld (Reg.marverInjrd stream.val) 0 32) ≤ 2 ^ s.regFld (Reg.marverSmatch
      stream.val) 48 4 → newer32 (s.regFld (Reg.marverSslot stream.val) 32 32) v.toNat = false →
    Answers (.injwrWrite stream v) s (fun u => u.regFld (Reg.marverSslot stream.val) 32 32 = v.toNat)) ∧
  (∀ (s : State) (v : BitVec 32) (ecc : MemEcc), newer32 v.toNat (s.regFld Reg.marverPosewr 0 32) = false →
    Answers (.poseWrite v ecc) s (fun u => u.regFld Reg.marverPosewr 0 32 = v.toNat ∧ u.marver = s.marver))

/-- Streams, servos and gPTP take their commands. A stream with a kind is enabled and disabled; a servo without a sample for its times goes to
HOLDOVER and on to UNSYNC; gPTP takes a Sync, a Follow_Up, an Announce of another grandmaster, and the two messages of a delay measurement; three
intervals without a sample put it in HOLDOVER, whose end zeroes the rate; a step of device time that is due is made; a mode request stays pending;
plausibility is evaluated once its periods have passed; the event log is read. (Device time: log entry 1; the neighbour's rate and the mean link
delay are open values.) -/
def Obligations.StreamTimeCompletes : Prop :=
  (∀ (s : State) (stream : Fin 64) (t : Nat), streamKind s stream.val ≠ 0 → streamOn s stream.val = false →
    Answers (.streamEnable stream t) s (fun u => streamOn u stream.val = true ∧ servoSt u stream.val = (if srcMode s stream.val = 0 then 2 else 1))) ∧
  (∀ (s : State) (stream : Fin 64), Answers (.streamDisable stream) s (fun u => streamOn u stream.val = false ∧ servoSt u stream.val = 0)) ∧
  (∀ (s : State) (stream : Fin 64) (t : Nat), srcMode s stream.val ≠ 0 → servoSt s stream.val = 2 →
    (s.mstream stream.val).servo.accTime + s.regFld (Reg.marverShold stream.val) 0 32 ≤ max s.now t →
    Answers (.servoHoldTimeout stream t) s (fun u => servoSt u stream.val = 3)) ∧
  (∀ (s : State) (stream : Fin 64) (t : Nat), servoSt s stream.val = 3 →
    (s.mstream stream.val).servo.accTime + s.regFld (Reg.marverShold stream.val) 32 32 ≤ max s.now t →
    exec (.servoHoldmaxTimeout stream t) s = .next (enterUnsync (s.at t) stream.val 4)) ∧
  (∀ (s : State) (domain : BitVec 7) (sq : BitVec 16) (origin corr : BitVec 64) (t : Nat), gptpTakes s domain.toNat = true → gpState s ≠ 0 →
    exec (.gptpSync domain sq false origin corr t) s = .next (gptpSample (s.at t) (syncTime s origin.toNat (signedOf corr.toNat 64)) (t -
      s.regFld (Reg.marverEthcfg (s.regFld Reg.marverGpctl 1 3)) 8 12))) ∧
  (∀ (s : State) (domain : BitVec 7) (sq : BitVec 16) (origin corr : BitVec 64) (t tin : Nat) (c : Int), gptpTakes s domain.toNat = true →
    gpState s ≠ 0 → s.marver.gp.sync = some (sq.toNat, tin, c) →
    exec (.gptpFollowUp domain sq origin corr t) s = .next (gptpSample (setGp (s.at t) { s.marver.gp with sync := none }) (syncTime s
      origin.toNat (c + signedOf corr.toNat 64)) tin)) ∧
  (∀ (s : State) (domain : BitVec 7) (gm : BitVec 64), gptpTakes s domain.toNat = true → gpState s ≠ 0 → s.reg Reg.marverGpgm ≠ gm →
    s.reg Reg.marverGpgm ≠ 0#64 →
    Answers (.gptpAnnounce domain gm) s (fun u => u.reg Reg.marverGpgm = gm ∧ gpState u = 1 ∧ u.regBit Reg.marverGpstat 2 = true)) ∧
  (∀ (s : State) (sq : BitVec 16) (t : Nat), s.regBit Reg.marverGpctl 0 = true → pdelayDue (s.at t) = true →
    Answers (.pdelayReqSend sq t) s (fun u => u.marver.gp.pdelay = some (sq.toNat, t + s.regFld (Reg.marverEthcfg (s.regFld Reg.marverGpctl 1 3))
      20 12))) ∧
  (∀ (s : State) (sq : BitVec 16) (t2 t3 : BitVec 64) (t t1 : Nat), s.regBit Reg.marverGpctl 0 = true → s.marver.gp.pdelay = some (sq.toNat, t1) →
    Answers (.pdelayResp sq t2 t3 t) s (fun u => u.marver.gp.pdelay = none ∧ u.marver.gp.delay = Config.linkDelay s.marver.gp.delay
      u.marver.gp.ratio t1 t2.toNat t3.toNat (t - s.regFld (Reg.marverEthcfg (s.regFld Reg.marverGpctl 1 3)) 8 12))) ∧
  (∀ (s : State) (t : Nat), gpState s = 2 → s.marver.gp.sampleAt + 3 * syncInterval s ≤ max s.now t →
    Answers (.gptpSyncTimeout t) s (fun u => gpState u = 3 ∧ u.marver.gp.holdAt = max s.now t)) ∧
  (∀ (s : State) (t : Nat), gpState s = 3 → s.marver.gp.holdAt + 10000000000 ≤ max s.now t →
    Answers (.steerHoldoverExpiry t) s (fun u => u.marver.gp.rho = 0)) ∧
  (∀ (s : State) (add : Bool) (t : Nat), s.regBit Reg.marverGpctl 11 = true → s.marver.gp.adjusted + 20000 ≤ max s.now t →
    adjustDue (settleSteer s.marver.gp (max s.now t)) add = true →
    Answers (.deviceTimeAdjust add t) s (fun u => u.now = max s.now t + (if add then 1 else 0))) ∧
  (∀ (s : State) (v : BitVec 2), Answers (.modeRequest v) s (fun u => u.marver.modePend = some v.toNat)) ∧
  (∀ (s : State), Answers .marverEvlogRead s (fun u => u.readData = s.marver.log.head ∧ u.marver.log = s.marver.log.pop)) ∧
  (∀ (s : State) (t : Nat), s.regFld Reg.marverCnfcfg 16 8 ≤ s.marver.plPeriods → s.marver.plPeriods ≠ 0 →
    Answers (.plausibilityEval t) s (fun u => u.marver.plPeriods = 0))

/-- The work on a period is done. The host's write and the period's own time close it; projection ends; SCATGO and TRKGO of Bench or Gaffer for a
period that takes them are accepted; the oldest scatter is applied, and the grid completes at its deadline; the main run starts on its accepted
TRKGO, or at its deadline without detections; the main and the fallback run end. (Device time: log entry 1.) -/
def Obligations.PeriodWorkCompletes : Prop :=
  (∀ (s : State) (frame : BitVec 32) (done updated : Nat) (ecc : MemEcc) (t : Nat) (p : MPeriod), s.mperiod frame.toNat = some p → p.closed = false →
    exec (.marverCloseWrite frame done updated ecc t) s = .next (closeNow (mapPeriod (s.at t) p.frame (fun q => { q with ref := endOf (s.at t) p
      })) { p with ref := endOf (s.at t) p } done updated ecc)) ∧
  (∀ (s : State) (done updated : Nat) (ecc : MemEcc) (t e : Nat) (p : MPeriod) (rest : List MPeriod), s.marver.periods = p :: rest →
    p.closed = false → p.ref = some e → e + s.regFld Reg.marverTsctl 0 24 ≤ max s.now t →
    exec (.periodClose done updated ecc t) s = .next (closeNow (s.at t) p done updated ecc)) ∧
  (∀ (s : State) (updated : Nat) (ecc : MemEcc) (t : Nat), exec (.projectionDone updated ecc t) s = .next (endProjection (s.at t) (2 ^ 64) updated ecc)) ∧
  (∀ (s : State) (bad : Option (Fin 4096)) (ecc : MemEcc) (t : Nat), exec (.mainRunDone bad ecc t) s = .next (finishMain (s.at t) none (bad.map
      (·.val)) ecc)) ∧
  (∀ (s : State) (bad : Option (Fin 4096)) (ecc : MemEcc) (t : Nat), exec (.fallbackRunDone bad ecc t) s = .next (finishFallback (s.at t) none
      (bad.map (·.val)) ecc)) ∧
  (∀ (s : State) (frame : BitVec 32) (nent : BitVec 20) (t : Nat) (p : MPeriod), s.mperiod frame.toNat = some p → p.closed = true →
    p.gridDone = false → nent ≠ 0#20 →
    exec (.scatgo 16 frame nent t) s = .next (mapPeriod (s.at t) frame.toNat (fun p => { p with scatters := p.scatters ++ [nent.toNat] }))) ∧
  (∀ (s : State) (frame : BitVec 32) (ndet : BitVec 13) (t : Nat) (p : MPeriod), s.mperiod frame.toNat = some p → p.mode = 1 →
    p.mainStarted = false → ndet.toNat ≤ 4096 →
    exec (.trkgo 16 frame ndet t) s = .next (mapPeriod (s.at t) frame.toNat (fun p => { p with ndet := some ndet.toNat }))) ∧
  (∀ (s s1 : State) (ecc : MemEcc) (t n e : Nat) (p q : MPeriod) (rest : List MPeriod) (ns : List Nat), s.marver.periods = p :: rest →
    p.gridDone = false → p.projected = some e → p.scatters = n :: ns →
    s1 = mapPeriod ((List.range n).foldl (scatterEntry ecc p.frame) (s.at t)) p.frame (fun p => { p with scatters := p.scatters.tail }) →
    s1.mperiod p.frame = some q → exec (.scatterDone ecc t) s = .next (if q.scatters.isEmpty then completeGrid s1 q false else s1)) ∧
  (∀ (s : State) (t e : Nat) (p : MPeriod) (rest : List MPeriod), s.marver.periods = p :: rest → p.gridDone = false → p.projected = some e →
    e + s.regFld Reg.marverDline 32 32 ≤ max s.now t → exec (.scatterDeadline t) s = .next (completeGrid (s.at t) p true)) ∧
  (∀ (s : State) (updated : Nat) (ecc : MemEcc) (t e : Nat) (p : MPeriod) (rest : List MPeriod) (n : Nat), s.marver.periods = p :: rest →
    p.projected = some e → p.mode = 1 → p.mainStarted = false → p.ndet = some n →
    exec (.mainRunStart updated ecc t) s = .next (startMain (s.at t) p.frame (some n) updated ecc)) ∧
  (∀ (s : State) (updated : Nat) (ecc : MemEcc) (t e : Nat) (p : MPeriod) (rest : List MPeriod), s.marver.periods = p :: rest →
    p.projected = some e → p.mode = 1 → p.mainStarted = false → p.ndet = none → e + s.regFld Reg.marverDline 0 32 ≤ max s.now t →
    exec (.mainRunDeadline updated ecc t) s = .next (startMain ((s.at t).logMarver 0x0707 0xFF p.frame) p.frame none updated ecc))

/-- The ports and channels of Blowpipe take their commands. Management's write of the topology is made; a training port that meets its neighbour on
all lanes becomes ACTIVE, and one whose time is up DOWN; loss of lock retrains a port, a replay is counted; a good flit in order delivers its
packets; management enables a channel of either direction; the event log is read. (Device time: log entry 1.) -/
def Obligations.BlowpipePortsComplete : Prop :=
  (∀ (s : State) (who : Ident) (v : BitVec 32) (t : Nat), mgmt who = true → exec (.blowpipeTopoWrite who v t) s = .next (writeTopo (s.at t) v.toNat)) ∧
  (∀ (s : State) (port : Fin 6) (nbr : BitVec 6), portSt s port.val = 1 → expected s port.val = some nbr.toNat →
    Answers (.bpPortTrainingDone port .all nbr) s (fun u => portSt u port.val = 2)) ∧
  (∀ (s : State) (port : Fin 6) (t : Nat), portSt s port.val = 1 → sget 0 s.fab.since (200 + port.val) + 100000000 ≤ max s.now t →
    exec (.bpTrainingTimeout port t) s = .next ((setPort (s.at t) port.val 0).logBp 0x0540)) ∧
  (∀ (s : State) (port : Fin 6) (t : Nat), portWeight s port.val ≠ 0 → 
    exec (.bpReplayLimit port true t) s = .next (retrainPort (s.at t) port.val)) ∧
  (∀ (s : State) (port : Fin 6) (t : Nat), portWeight s port.val ≠ 0 → (s.bpPort port.val).unacked ≠ [] →
    (s.bpPort port.val).wait + 4000 ≤ max s.now t → Answers (.bpFlitReplayTimeout port t) s (fun u => u.reg (Reg.blowpipePreplay port.val) = s.reg (Reg.blowpipePreplay port.val) + 1#64)) ∧
  (∀ (s : State) (port : Fin 6) (fseq ackseq : BitVec 16) (cls : BitVec 2) (words : BitVec 14) (packets : List BpPacket) (t : Nat) (x y : BpPort),
    portWeight s port.val ≠ 0 → x = s.bpPort port.val → y = ackFlits x ackseq.toNat (max s.now t) → fseq.toNat = x.expect →
    exec (.bpFlit port fseq ackseq cls words true packets t) s = .next (packets.foldl bpTakePacket
      ((s.at t).setBpPort port.val { y with expect := (y.expect + 1) % 65536, freed := sput 0 y.freed cls.toNat words.toNat }))) ∧
  (∀ (s : State) (who : Ident) (chan : Fin 32), mgmt who = true → s.regBit (Reg.blowpipeFwda chan.val) 0 = false →
    Answers (.fwdChannelEnable who chan) s (fun u => u.regBit (Reg.blowpipeFwda chan.val) 0 = true)) ∧
  (∀ (s : State) (who : Ident) (chan : Fin 32), mgmt who = true → s.regBit (Reg.blowpipeIna chan.val) 0 = false →
    Answers (.inChannelEnable who chan) s (fun u => u.regBit (Reg.blowpipeIna chan.val) 0 = true)) ∧
  (∀ (s : State), Answers .blowpipeEvlogRead s (fun u => u.readData = s.blow.log.head ∧ u.blow.log = s.blow.log.pop))

/-- Deliveries go out, are answered, and generations come in. A delivery not begun is sent and a held one begun again; an ACK of a delivery sent
completes it, a NAK fails it, a WAIT holds it, and its time fails it; on an enabled channel that may take it the next generation's BEGIN is taken,
its DATA staged and its END noted; a complete generation whose partition closes nothing commits, and an incomplete one is abandoned after its time.
(Device time: log entry 1.) -/
def Obligations.GenerationsComplete : Prop :=
  (∀ (s : State) (chan : Fin 32) (t : Nat) (d : BpOut), s.blow.out.find? (fun d => decide (d.chan = chan.val) && d.begun.isNone) = some d →
    exec (.bpDeliveryStart chan false t) s = .next (sendBody (sendBegin (s.at t) d) d)) ∧
  (∀ (s : State) (chan : Fin 32) (t : Nat) (d : BpOut), s.blow.out.find? (fun d => decide (d.chan = chan.val) && d.held) = some d →
    exec (.bpBeginRepeat chan false t) s = .next (sendBody (sendBegin (s.at t) d) d)) ∧
  (∀ (s : State) (src : Fin 64) (chan : Fin 32) (gen : BitVec 32) (t : Nat) (d : BpOut), answered s src.val chan.val gen.toNat = some d →
    exec (.bpAck src chan gen t) s = .next ((dropOut (s.at t) d).setRegFld (Reg.blowpipeFwdstat d.chan) 32 32 gen.toNat)) ∧
  (∀ (s : State) (src : Fin 64) (chan : Fin 32) (gen : BitVec 32) (code : BitVec 16) (instat : BitVec 32) (t : Nat) (d : BpOut), answered s src.val
      chan.val gen.toNat = some d → code ≠ 0x0545#16 → exec (.bpNak src chan gen code instat t) s = .next (failOut (s.at t) d)) ∧
  (∀ (s : State) (src : Fin 64) (chan : Fin 32) (gen : BitVec 32) (t : Nat) (d : BpOut), answered s src.val chan.val gen.toNat = some d →
    exec (.bpWait src chan gen t) s = .next (mapOut (s.at t) d.chan d.gen (fun d => { d with held := true, ended := none }))) ∧
  (∀ (s : State) (chan : Fin 32) (t e : Nat) (d : BpOut) (rest : List BpOut), s.blow.out = d :: rest → d.chan = chan.val → d.ended = some e →
    e + fwdTmo s chan.val ≤ max s.now t → exec (.bpFwdTimeout chan t) s = .next (failOut (s.at t) d)) ∧
  (∀ (s : State) (src : Fin 64) (chan : Fin 32) (gen : BitVec 32) (t : Nat), s.regBit (Reg.blowpipeIna chan.val) 0 = true →
    s.regBit (Reg.blowpipeInstat chan.val) 40 = true → gen.toNat = nextGen s chan.val → (∀ x ∈ inb s chan.val, x.src ≠ src.val) →
    Answers (.bpBegin src chan gen t) s (fun u => inb u chan.val = inb s chan.val ++ [⟨src.val, some (max s.now t), [], none, false⟩])) ∧
  (∀ (s s1 : State) (src : Fin 64) (chan : Fin 32) (gen : BitVec 32) (packet : BpData) (t lo : Nat), s.regBit (Reg.blowpipeIna chan.val) 0 = true →
    gen.toNat = nextGen s chan.val → (∃ x ∈ inb s chan.val, x.src = src.val ∧ x.done = false) →
    lo = s.regFld (Reg.blowpipeIna chan.val) 12 36 * 4096 → lo ≤ packet.addr.toNat →
    packet.addr.toNat + packet.bytes.length ≤ lo + s.regFld (Reg.blowpipeInb chan.val) 0 24 * 4096 →
    packet.addr.toNat % 128 + packet.bytes.length ≤ 128 → stagePacket (s.at t) chan.val packet packet.addr.toNat = (s1, none) →
    exec (.bpData src chan gen packet t) s = .next (settleIn (orWait (s.at t) (setInb s1 chan.val (collect (inb s1 chan.val) src.val (fun y =>
      { y with data := y.data ++ [(packet.addr.toNat, packet.crc.toNat)] })))) chan.val src.val gen.toNat)) ∧
  (∀ (s : State) (src : Fin 64) (chan : Fin 32) (gen count crc : BitVec 32) (t : Nat) (x : BpIn), s.regBit (Reg.blowpipeIna chan.val) 0 = true →
    gen.toNat = nextGen s chan.val → (inb s chan.val).find? (fun x => decide (x.src = src.val) && !x.done) = some x → x.began.isSome = true →
    x.data.length = count.toNat → dataCrc x = crc.toNat →
    Answers (.bpEnd src chan gen count crc t) s (fun u => inb u chan.val = (inb s chan.val).map (fun y => if y.src = src.val then
      { y with fin := some (count.toNat, crc.toNat), done := true } else y))) ∧
  (∀ (s s1 s2 : State) (chan : Fin 32) (flip : FlipAt), s.regBit (Reg.blowpipeIna chan.val) 0 = true →
    inNsrc s chan.val ≤ ((inb s chan.val).filter (fun (x : BpIn) => x.done)).length → closing s (inPart s chan.val) = false →
    s1 = setInb (poisonRuns (s.at flip.t) (flipStaged ((s.at flip.t).bump Reg.devCommitidx 1) flip.ecc (inOwner chan.val))) chan.val [] →
    s2 = s1.setRegFld (Reg.blowpipeInstat chan.val) 0 32 (nextGen s chan.val) → s2.regBit (Reg.blowpipeIna chan.val) 1 = false →
    exec (.inboundCommit chan flip) s = .next (((inb s chan.val).filter (fun (x : BpIn) => x.done)).foldl (fun s' x => bpSend s' (envelope s' 4
      x.src chan.val (nextGen s chan.val) 0 0)) s2)) ∧
  (∀ (s : State) (chan : Fin 32) (t : Nat), s.regBit (Reg.blowpipeIna chan.val) 0 = true →
    ((inb s chan.val).filter (fun (x : BpIn) => x.done)).length < inNsrc s chan.val →
    (∃ x ∈ inb s chan.val, ∃ b, x.began = some b ∧ b + inTmo s chan.val ≤ max s.now t) →
    exec (.bpGenTimeout chan t) s = .next (abandon ((inb s chan.val).foldl (fun s' x => nakTo s' chan.val x.src (nextGen s chan.val) 0x0549)
      (s.at t)) chan.val (nextGen s chan.val)))

/-- Lists load, frits switch, and debug is asked for, answered and locked. From management a readable batch list or frit list is kept and shown
loaded, a loaded frit's request is pending, a debug request that nothing forbids issues its challenge, a response that can be read unlocks the
challenge's scopes where it verifies and counts a failure where it does not, and a lock ends the scopes; a switch in progress ends; the log's oldest
entry is read and removed. (Device time: log entry 1; the nonce and the signature check are open functions of Config.) -/
def Obligations.ConfigurationCompletes : Prop :=
  (∀ (s s1 : State) (who : Ident) (ecc : MemEcc) (l : List CfgEntry), mgmt who = true →
    readList s ecc (s.regFld Reg.devBatchaddr 6 42 * 64) 0x4254394A 8192 = (s1, .ok l) →
    exec (.loadBatch who ecc) s = .next ({ s1 with cfg := { s1.cfg with batch := some l } }.setRegBit Reg.devFritstat 9 true)) ∧
  (∀ (s s1 : State) (who : Ident) (frit : Fin 16) (ecc : MemEcc) (l : List CfgEntry), mgmt who = true → s.cfg.switching = none →
    readList s ecc (s.regFld Reg.devFritaddr 6 42 * 64) 0x5446394A 254 = (s1, .ok l) →
    exec (.loadFrit who frit ecc) s = .next ({ s1 with cfg := { s1.cfg with frits := sput [] s1.cfg.frits frit.val l } }.setRegBit
      Reg.devFritstat (16 + frit.val) true)) ∧
  (∀ (s : State) (who : Ident) (v : BitVec 32), mgmt who = true → s.regBit Reg.devFritstat (16 + bitsOf v.toNat 0 4) = true →
    Answers (.fritSwitchRequest who v) s (fun u => u.regFld Reg.devFritctl 0 4 = bitsOf v.toNat 0 4 ∧ u.regBit Reg.devFritstat 5 = true)) ∧
  (∀ (s : State) (who : Ident) (t : Nat) (target : Option Nat), mgmt who = true → s.cfg.switching = some target →
    exec (.fritSwitch t) s = .next (finishSwitch (s.at t) target t)) ∧
  (∀ (s : State) (who : Ident), mgmt who = true → Answers (.debugLock who) s (fun u => u.regFld Reg.devDbgstat 0 4 = 0)) ∧
  (∀ (s : State) (who : Ident), mgmt who = true → Answers .cfgEvlogRead s (fun u => u.readData = s.cfg.log.head ∧ u.cfg.log = s.cfg.log.pop)) ∧
  (∀ (s : State) (who : Ident) (scope : BitVec 4) (t : Nat), mgmt who = true → s.cfg.dbgDisFuse = false → s.regFld Reg.devDbgstat 8 2 ≠ 3 →
    Answers (.debugRequest who scope t) s (fun u => u.cfg.challenge = some ⟨challengeBytes (s.at t) scope.toNat, scope.toNat, max s.now t⟩ ∧
      u.regBit Reg.devDbgstat 4 = true)) ∧
  (∀ (s s1 s2 : State) (who : Ident) (addr : BitVec 64) (ecc : MemEcc) (t : Nat) (c : Challenge) (bs : List Byte), mgmt who = true →
    s.cfg.challenge = some c → devRead (s.at t) lehrAReq ecc (bitsOf addr.toNat 6 42 * 64) 192 = (s1, .ok bs) →
    s2 = ({ s1 with cfg := { s1.cfg with challenge := none } }).setRegBit Reg.devDbgstat 4 false →
    exec (.debugResponse who addr ecc t) s = .next (if responseOk (s.at t) c bs then (((s2.setRegFld Reg.devDbgstat 0 4 c.scope).setRegBit
      Reg.devDbgstat 5 false).logCfg 0x0955).raise 0x0955 0xFF else (((s2.setRegBit Reg.devDbgstat 5 true).bumpSat Reg.devDbgstat 8 2).logCfg
      0x0956).raise 0x0956 0xFF))

/-- A block is asked, idles, resets and restarts. Management's request for a domain that exists and is not in reset is answered and begun; a block
asked to go idle enters reset when it answers and is fenced when its time is up; a fenced block whose orphans are gone enters reset; the end of a
drained block's line starts its restart, whose success finishes it; a domain past its bound escalates; the log's oldest entry is read and removed.
(Device time: log entry 1.) -/
def Obligations.BlockResetsComplete : Prop :=
  (∀ (s : State) (who : Ident) (kind : BitVec 4) (index : BitVec 8) (t : Nat), mgmt who = true → domainIndexOk kind.toNat index.toNat = true →
    kind ≠ 8#4 → kind ≠ 1#4 → inReset s (kind.toNat, index.toNat) = false →
    exec (.resetReq who kind index t) s = .next (beginRequested (startReset kind.toNat index.toNat 11 true (requestAnswer (s.at t) 0)) kind.toNat
      index.toNat)) ∧
  (∀ (s : State) (b : Block) (t : Nat), inPhase s b .idlereq = true → exec (.idleAck b t) s = .next (enterBlockReset (s.at t) b true)) ∧
  (∀ (s : State) (b : Block) (t : Nat), inPhase s b .idlereq = true → idleWaited (s.at t) b = true →
    exec (.idleTimeout b t) s = .next (fenceBlock (s.at t) b)) ∧
  (∀ (s : State) (b : Block) (t : Nat), inPhase s b .fenced = true →
    exec (.orphanDrainDone b t) s = .next (enterBlockReset (drainNodes (s.at t) b) b false)) ∧
  (∀ (s : State) (b : Block) (t : Nat), inPhase s b .release = true → exec (.blockRestartDone b true t) s = .next (finishBlock (s.at t) b t)) ∧
  (∀ (s : State) (b : Block) (t : Nat) (x : BlockReset), s.blockPhase b = some x → x.phase = .reset → x.drained = true → lineHeld s b = false →
    exec (.resetLineEnd b t) s = .next (startBlock ((s.at t).setBlock ⟨b, .release, true⟩) b)) ∧
  (∀ (s : State) (kind : BitVec 4) (index : BitVec 8) (t : Nat) (d : DomainReset), s.rst.domains.find? (fun d => decide (d.kind = kind.toNat) &&
      decide (d.index = index.toNat)) = some d → d.hold = false → d.since + domainBound d.kind ≤ max s.now t →
    exec (.restartTimeout kind index t) s = .next (escalate ((s.at t).logReset 0x0908 d.kind d.index) d)) ∧
  (∀ (s : State), Answers .resetEvlogRead s (fun u => u.readData = s.rst.log.head ∧ u.rst.log = s.rst.log.pop))

/-- Pins, rails and the resets of the whole device act. A step of a warm reset and of a cold one whose conditions hold is done; a pulse of 10
microseconds or more on a reset ball and the rise of SYS_RST# after one act; a hot reset outside a reset of the link resets it; PERST# rises; the
main rails fail, a Lehr rail fails, a rail falls and power comes back. (Device time: log entry 1; the step machine is log entry 24's reading.) -/
def Obligations.DeviceResetsComplete : Prop :=
  (∀ (s : State) (t : Nat) (d : DomainReset), s.pins.mainRails = true → warmDomain s = some d → d.hold = false → warmReady s d (resetStep s) = true →
    resetStep s < 10 → exec (.deviceWarmReset t) s = .next ((warmWork (s.at t) d (resetStep s) t).setRegFld Reg.resetStat 3 4 (resetStep s + 1))) ∧
  (∀ (s : State) (t : Nat), s.pins.mainRails = true → s.regBit Reg.resetStat 2 = true → coldReady s (resetStep s) = true → resetStep s < 6 →
    exec (.deviceColdReset t) s = .next ((coldWork (s.at t) (resetStep s)).setRegFld Reg.resetStat 3 4 (resetStep s + 1))) ∧
  (∀ (s : State) (us : Nat) (acted : Bool) (t : Nat), 10 ≤ us → exec (.lehraRstn us acted t) s = .next (ballA (s.at t))) ∧
  (∀ (s : State) (us : Nat) (acted : Bool) (t : Nat), 10 ≤ us → exec (.lehrbRstn us acted t) s = .next (ballB (s.at t))) ∧
  (∀ (s : State) (us : Nat) (acted : Bool) (t : Nat), 10 ≤ us →
    exec (.pciePerstn us acted t) s = .next (resetLink { (s.at t) with rst := { (s.at t).rst with perstn := false } } 5)) ∧
  (∀ (s : State) (us : Nat) (acted : Bool) (t : Nat), 10 ≤ us → s.pins.sysRstn = false →
    exec (.sysRstn true us acted t) s = .next (startCold 2 false false { (s.at t) with pins := { (s.at t).pins with sysRstn := true } })) ∧
  (∀ (s : State) (t : Nat), inReset s (7, 0) = false → exec (.pcieHotReset t) s = .next (startReset 7 0 6 false (dropLink (s.at t)))) ∧
  (∀ (s s1 : State) (rate : BitVec 3) (width : BitVec 5) (flit : Bool) (t cap : Nat), cap = rate.toNat + width.toNat * 8 + (if flit then 256 else 0) →
    s1 = { (s.at t) with rst := { (s.at t).rst with perstn := true, linkCap := cap } } → s.regBit Reg.resetStat 2 = false → warmDomain s = none →
    s.regBit Reg.resetStat 0 = true → exec (.pciePerstnRise rate width flit t) s = .next (raiseLink s1)) ∧
  (∀ (s : State) (t : Nat), s.pins.mainRails = true → exec (.mainRailFail t) s = .next (mainDown (s.at t))) ∧
  (∀ (s : State) (t : Nat) (isB : Bool), exec (.lehrRailFail isB t) s = .next (if isB then ballB (s.at t) else ballA (s.at t))) ∧
  (∀ (s : State) (t : Nat), Answers (.railFall true false false t) s (fun u => u.pins.lehrARails = false ∧ u.pins.powerGood = false)) ∧
  (∀ (s : State) (t : Nat), Answers (.railFall false true false t) s (fun u => u.pins.lehrBRails = false ∧ u.pins.powerGood = false)) ∧
  (∀ (s s1 : State) (t : Nat), s.pins.powerGood = false →
    s1 = { (s.at t) with pins := { (s.at t).pins with mainRails := true, lehrARails := true, lehrBRails := true, powerGood := true } } →
    s.pins.lehrARails = false ∨ s.pins.lehrBRails = false → exec (.powerGood t) s = .next (startCold 1 false false s1))

/-- The option reader works, the repair log grows, JTAG answers and a frame begins. Each step of the option reader is done, a block whose read times
out counts as invalid, and the pause ends in another try; the repair log takes an entry while it has room; JTAG's IDCODE gives its value; a frame
boundary acts at its grid point. (Device time: log entry 1.) -/
def Obligations.OptionFlashCompletes : Prop :=
  (∀ (s : State), s.rst.reader = .readA → exec .optionReadStep s = .next (takeA s (readOption s 0))) ∧
  (∀ (s : State) (n : Nat), s.rst.reader = .readA → exec (.flashCmdTimeout n) s = .next (takeA (s.setRegBit Reg.resetOptstat 7 true) none)) ∧
  (∀ (s : State), s.rst.reader = .apply → exec .optionReadStep s = .next (applyOptions s)) ∧
  (∀ (s : State), s.rst.reader = .select → s.rst.retryPause = true →
    Answers .optionRetryPause s (fun u => u.rst.reader = .readA ∧ u.rst.retryPause = false)) ∧
  (∀ (s : State) (core : Fin 96) (column : Fin 132) (b : List Byte), usedBlock s = some b → leAt b 16 1 % 2 = 1 → s.rst.reader = .done →
    s.rst.logNext < leAt b 24 4 / 16 → Answers (.repairLogAppend core column false) s (fun u => u.rst.logNext = s.rst.logNext + 1)) ∧
  (∀ (s : State), Answers (.jtagInstruction .idcode) s (fun u => u.readData = 0x0A960969#64 ∧ u.pins.jtag = .idcode)) ∧
  (∀ (s : State) (ecc : MemEcc) (t : Nat), s.frame.nextBoundary = some t → s.lehrB.lehrARuns = true ∨ s.lehrB.handover.isSome = true →
    exec (.frameBoundary ecc t) s = .next (boundary (s.at t) ecc t))

/-- A register write is made. An aligned 64-bit write of a register of the PUNTY or the LEHRB table from management stores its writable fields; a
write through the debug access port reaches the cores' registers alone, and nothing else changes but device time. (Device time: log entry 1.) -/
def Obligations.RegisterWritesComplete : Prop :=
  (∀ (s : State) (who : Ident) (off : BitVec 28) (v : BitVec 64) (t : Nat) (r : RegRow), mgmt who = true →
    blockNo off.toNat = 8 ∨ blockNo off.toNat = 5 → off.toNat % 8 = 0 → row64 off.toNat = some r →
    exec (.csrWrite (.ident who) off true v t) s = .next (writeFields (s.at t) (writerOf (.ident who)) r off.toNat v.toNat)) ∧
  (∀ (s : State) (off : BitVec 28) (v : BitVec 64) (t : Nat) (r : RegRow), off.toNat % 8 = 0 → row64 off.toNat = some r → blockNo off.toNat = 13 →
    exec (.csrWrite .debugPort off true v t) s = .next (writeCore (s.at t) (writerOf .debugPort) r off.toNat v.toNat t)) ∧
  (∀ (s : State) (off : BitVec 28) (v : BitVec 64) (t : Nat) (r : RegRow), off.toNat % 8 = 0 → row64 off.toNat = some r → blockNo off.toNat ≠ 13 →
    exec (.csrWrite .debugPort off true v t) s = .next (s.at t))

/-- Power, temperature, parking, reheat and aging commands complete. A power sample joins the latest 1,000; the power loop is evaluated; a reading
of a sensor that has not failed is shown, judged against its unit's other sensors and taken into the unit; an inlet temperature from partition 0 or
Gaffer firmware is shown with VALID and its time kept; two seconds without one set COOLSTALE; a core whose park bit is set leaves IDLE for OFF, and
one whose bit is clear leaves OFF through RESET; in REHEAT a pattern passes or fails, a slice ends and is aborted; a pass that is overdue ends the
class S membership and is logged; an aging sample visits every core; a read of THERM_EVLOG takes the oldest event. (Device time: log entry 1.) -/
def Obligations.HeatCommandsComplete : Prop :=
  (∀ (s : State) (power : BitVec 16) (t : Nat),
    Answers (.powerSample power t) s (fun u => u.therm.samples = (power.toNat :: s.therm.samples).take 1000 ∧ u.therm.energy = s.therm.energy + power.toNat)) ∧
  (∀ (s : State) (t : Nat), exec (.powerUpdate t) s = .next (powerUpdate (s.at t))) ∧
  (∀ (s s1 : State) (i : Fin 512) (v : BitVec 13) (r : Int) (t : Nat), s.regBit (Reg.thermSens i.val) 14 = false → r = signedOf v.toNat 13 →
    s1 = sensorStreaks (showReading (s.at t) i.val (some r)) i.val (some r) →
    exec (.sensorRead i (some v) t) s = .next (unitUpdate s1 (unitOfSensor i.val) (if s1.regBit (Reg.thermSens i.val) 14 then none else some r))) ∧
  (∀ (s : State) (who : Ident) (temp : BitVec 12) (t : Nat), mgmt who = true →
    Answers (.coolantWrite who temp t) s (fun u => u.regFld Reg.thermCoolant 0 12 = temp.toNat ∧ u.regBit Reg.thermCoolant 12 = true ∧
      u.therm.coolantAt = some (max s.now t))) ∧
  (∀ (s : State) (t : Nat), s.therm.coolantAt.getD 0 + 2000000000 ≤ t →
    Answers (.coolantStale t) s (fun u => u.regBit Reg.thermStat 2 = true ∧ u.regBit Reg.thermCoolant 12 = false)) ∧
  (∀ (s : State) (c : Fin 96), parkBit s c.val = true → s.coreSt c.val = .idle → exec (.corePark c) s = .next (parkCore s c.val)) ∧
  (∀ (s : State) (c : Fin 96), parkBit s c.val = false → s.coreSt c.val = .off → exec (.coreUnpark c) s = .next (enterReset s c.val)) ∧
  (∀ (s : State) (c : Fin 96) (pass : Bool) (t : Nat), s.coreSt c.val = .reheat →
    exec (.reheatPatternDone c pass t) s = .next (if pass then patternPass (s.at t) c.val else patternFail (s.at t) c.val)) ∧
  (∀ (s : State) (c : Fin 96), s.coreSt c.val = .reheat →
    exec (.reheatSliceEnd c) s = .next (endSlice (s.at (sget 0 s.therm.sliceEnds c.val)) c.val)) ∧
  (∀ (s : State) (c : Fin 96) (t : Nat), s.coreSt c.val = .reheat →
    exec (.reheatAbort c none t) s = .next (abortSlice (s.at t) c.val) ∧
    exec (.reheatAbort c (some true) t) s = .next ((endSlice (patternPass (s.at t) c.val) c.val).bump (Reg.benchRhabort (c.val / 8)) 1) ∧
    exec (.reheatAbort c (some false) t) s = .next (patternFail (s.at t) c.val)) ∧
  (∀ (s : State) (c : Fin 96) (t : Nat), s.regBit (Reg.thermRh c.val) 10 = false → (s.reg (Reg.thermRht c.val)).toNat + s.rhlim * 1000000000 ≤ t →
    Answers (.reheatOverdue c t) s (fun u => u.regBit (Reg.thermRh c.val) 10 = true ∧ u.sclass c.val = false)) ∧
  (∀ (s : State) (t : Nat), s.regBit Reg.thermAgectl 0 = true → Answers (.ageSample t) s (fun u => u.regs = (allCores.foldl ageOne (s.at t)).regs)) ∧
  (∀ s : State, Answers .thermEvlogRead s (fun u => u.readData = s.therm.log.head ∧ u.therm.log = s.therm.log.pop))

/-- Fallback, envelope and the watch between the Lehr dies complete. While Lehr B runs: an accepted block begins its plan, a refused one is counted
and flagged, a radar packet's points join the obstacles of the last 50 ms, a committed plan without a verdict is taken for checking, a plan checked
gets UNPROGRAMMED where an envelope register is 0 and else the verdict of its bytes, a late plan is begun, and a computed plan is written and taken.
A Lehr die that is lost is marked by the other, Lehr B takes device time over and gives it back 100 microseconds after, and a heartbeat ends a loss.
(Device time: log entry 1.) -/
def Obligations.LehrBCommandsComplete : Prop :=
  (∀ (s : State) (buf : Fin 2) (t : Nat) (b : FbBlock), s.lehrB.stoppedB = false → sget [] s.lehrB.window buf.val ≠ [] →
    acceptBlock s (sget [] s.lehrB.window buf.val) = some b →
    exec (.fallbackBlock buf t) s = .next ((planBegun { (s.at t) with lehrB := { s.lehrB with block := some b } } b.frame).bump Reg.lehrbBlkcnt 1)) ∧
  (∀ (s : State) (buf : Fin 2) (t : Nat), s.lehrB.stoppedB = false → sget [] s.lehrB.window buf.val ≠ [] →
    acceptBlock s (sget [] s.lehrB.window buf.val) = none →
    exec (.fallbackBlock buf t) s = .next ((((s.at t).bump Reg.lehrbBlkrej 1).setRegBit Reg.lehrbStat 5 true).noteLehrA 0x0614 s.frmcnt)) ∧
  (∀ (s : State) (port : Fin 2) (bs : List Byte) (t : Nat), s.lehrB.stoppedB = false → sget [] s.lehrB.radcal port.val ≠ [] →
    Answers (.radarPacket port bs t) s (fun u => u.lehrB.radar.length =
      (s.lehrB.radar.filter (fun p => decide (max s.now t ≤ p.1 + 50000000))).length +
        (decodePacket (layoutOf (sget [] s.lehrB.radcal port.val)) ((sget [] s.lehrB.radcal port.val).drop 192) bs).1.length)) ∧
  (∀ (s : State) (frame : BitVec 32) (t : Nat) (q : List Nat × Nat), (s.frameSel frame.toNat).plan = some q → (s.frameSel frame.toNat).verdict = none →
    s.lehrB.stoppedB = false → s.lehrB.lehrARuns = true →
    Answers (.planCheckRequest frame t) s (fun u => u.lehrB.check = some ((s.frameSel frame.toNat).frame, q.2))) ∧
  (∀ (s : State) (ecc : MemEcc) (t k addr : Nat), s.lehrB.check = some (k, addr) → s.lehrB.stoppedB = false → mapHolds s = false →
    unprogrammed s = true → exec (.envelopeVerdict ecc t) s = .next (takeVerdict (s.at t) k ⟨.fail, 5, false⟩)) ∧
  (∀ (s s1 : State) (ecc : MemEcc) (t k addr : Nat) (bs : Except Poison (List Byte)), s.lehrB.check = some (k, addr) → s.lehrB.stoppedB = false → mapHolds s = false →
    unprogrammed s = false → devRead (s.at t) lehrBReq ecc addr 512 = (s1, bs) →
    exec (.envelopeVerdict ecc t) s = .next (takeVerdict s1 k (judge s1 k bs.toOption))) ∧
  (∀ (s : State) (t k : Nat), lateFrame (s.at t) = some k → k ∉ s.lehrB.planned → s.lehrB.planFor = none → s.lehrB.stoppedB = false →
    Answers (.fallbackPlanLate t) s (fun u => u.lehrB.planFor = some k)) ∧
  (∀ (s s1 : State) (t k : Nat) (lost : Bool), s.lehrB.planFor = some k → s.lehrB.stoppedB = false → mapHolds s = false →
    writePlan { (s.at t).nextFresh with lehrB := { s.lehrB with planFor := none } } (fbAddr s k) (makeFallback (s.at t) k).bytes = (s1, lost) →
    exec (.fallbackPlanDone t) s = .next (takePlan s1 { makeFallback (s.at t) k with vnet := lost })) ∧
  (∀ (s : State) (t : Nat), s.lehrB.lehrARuns = true →
    (s.regBit Reg.lehraStat 13 = false → exec (.lehrHeartbeatTimeout true t) s = .next (loseB (s.at t))) ∧
    (s.lehrB.stoppedB = false → exec (.lehrHeartbeatTimeout false t) s = .next (loseA (s.at t)))) ∧
  (∀ (s : State) (t : Nat), s.lehrB.lehrARuns = true → s.lehrB.stoppedB = false →
    exec (.lockstepMismatch true t) s = .next (loseB { (s.at t) with lehrB := { s.lehrB with stoppedB := true } })) ∧
  (∀ (s : State) (t : Nat), s.lehrB.lehrARuns = true → s.lehrB.stoppedA = false →
    exec (.lockstepMismatch false t) s = .next (loseA { (s.at t) with lehrB := { s.lehrB with stoppedA := true } })) ∧
  (∀ (s : State) (t : Nat), s.lehrB.lehrARuns = false → s.lehrB.stoppedB = false → s.lehrB.handover = none →
    Answers (.lehraTakeover t) s (fun u => u.pins.flt01 = true ∧ u.regBit Reg.lehrbStat 4 = true ∧ u.lehrB.handover = some (max s.now t, s.frmcnt))) ∧
  (∀ (s : State) (t since f : Nat), s.lehrB.handover = some (since, f) → s.lehrB.lehrARuns = true → since + 100000 ≤ t →
    Answers (.deviceTimeHandover t) s (fun u => u.lehrB.handover = none ∧ u.regs = s.regs)) ∧
  (∀ (s : State) (t : Nat), s.lehrB.stoppedB = false → s.lehrB.lehrARuns = true →
    exec (.lehrHeartbeat true t) s = .next (releaseDomains { (((s.at t).setRegBit Reg.lehraStat 3 true).setRegBit Reg.lehraStat 13 false) with
      pins := { s.pins with flt00 := decide (s.unitState 115 = 2) } })) ∧
  (∀ (s : State) (t : Nat), s.lehrB.stoppedA = false → s.lehrB.stoppedB = false →
    Answers (.lehrHeartbeat false t) s (fun u => u.lehrB.lehrARuns = true ∧ u.lehrB.lostNotes = []))

/-- The memory's refresh, map, park, wake and scrub commands complete. A refresh point with nothing parked opens a stall window of the TRFC in force
plus 35 ns and puts the MEMREF shown in force; the window ends once its time is over. From partition 0 or Gaffer firmware a MEMREF in range is
shown, a stack's temperature is shown with VALID, and a valid map or a park with no sensor stream and no SBSTAT.LIVE begins. With no spilled line
being copied, the end of a map application puts every range shown in force and clears MAPBUSY, and the end of a park sets PARKED; a wake clears it.
A scrubbed line moves SCRUBPTR to the one after it. (Device time: log entry 1.) -/
def Obligations.MemoryCommandsComplete : Prop :=
  (∀ (s : State) (t : Nat), onGrid t (fld s.mem.refForce 32 32) (refreshP s) = true → s.regBit Reg.devMemstat 1 = false →
    Answers (.refreshPoint t) s (fun u => u.mem.stallUntil = some (t + fld s.mem.refForce 16 9 + 35) ∧ u.mem.refForce = s.reg Reg.devMemref)) ∧
  (∀ (s : State) (t u : Nat), s.mem.stallUntil = some u → u ≤ t → Answers (.stallWindowEnd t) s (fun u => u.mem.stallUntil = none ∧ u.regs = s.regs)) ∧
  (∀ (s : State) (who : Ident) (v : BitVec 64), mgmt who = true → memrefOk v.toNat = true →
    Answers (.memrefWrite who v) s (fun u => u.regFld Reg.devMemref 0 13 = bitsOf v.toNat 0 13 ∧
      u.regFld Reg.devMemref 16 9 = bitsOf v.toNat 16 9 ∧ u.regFld Reg.devMemref 32 32 = bitsOf v.toNat 32 32)) ∧
  (∀ (s : State) (site : Fin 16) (temp : BitVec 8) (t : Nat),
    Answers (.stackTempReport site temp t) s (fun u => u.regFld (Reg.memcTemp site.val) 0 8 = temp.toNat ∧ u.regBit (Reg.memcTemp site.val) 8 = true)) ∧
  (∀ (s : State) (who : Ident), mgmt who = true → pendingMapValid s = true → s.regFld Reg.devSbstat 0 14 = 0 → streamsOff s = true →
    s.regBit Reg.devMemstat 1 = false → s.regBit Reg.devMemstat 2 = false → exec (.mapApply who) s = .next (s.setRegBit Reg.devMemstat 2 true)) ∧
  (∀ s : State, s.regBit Reg.devMemstat 2 = true → s.bench.spillCopies = [] →
    Answers .mapApplyDone s (fun u => u.regBit Reg.devMemstat 2 = false ∧
      ∀ n : Fin 16, sget (regReset (Reg.devMemmapa n.val)) u.mem.mapA n.val = pendA s n.val ∧ sget (regReset (Reg.devMemmapm n.val)) u.mem.mapM n.val = pendM s n.val)) ∧
  (∀ (s : State) (who : Ident) (mask : BitVec 8), mgmt who = true → s.regFld Reg.devSbstat 0 14 = 0 → streamsOff s = true →
    s.regBit Reg.devMemstat 1 = false → s.regBit Reg.devMemstat 2 = false →
    Answers (.park who mask) s (fun u => u.mem.parking = true ∧ u.regBit Reg.devMempwr 0 = true ∧ u.regFld Reg.devMempwr 8 8 = mask.toNat)) ∧
  (∀ s : State, s.mem.parking = true → s.bench.spillCopies = [] →
    Answers .parkDone s (fun u => u.regBit Reg.devMemstat 1 = true ∧ u.mem.parking = false ∧ u.mem.maskForce = s.regFld Reg.devMempwr 8 8)) ∧
  (∀ s : State, s.regBit Reg.devMemstat 1 = true → exec .wake s = .next (wakeMemory s)) ∧
  (∀ (s : State) (ch : Fin 64) (ecc : Ecc) (k p : Nat), s.chSt ch.val = 2 → scrubSegment s ch.val = some k →
    p = s.regFld (Reg.memcScrubptr (ch.val / 4) (ch.val % 4)) 0 24 → p / 2 ^ 21 = k →
    Answers (.scrubLine ch ecc) s (fun u => u.regFld (Reg.memcScrubptr (ch.val / 4) (ch.val % 4)) 0 24 = (p + 1) % 2 ^ 24))

/-- Power, temperature, parking, reheat and aging commands have their effects. A power sample joins the latest 1,000 and the energy; the power loop
leaves VP alone inside its band at the top of the supply, and lowers it by 25 mV above 105% of the limit, and every core takes its setpoint; a
reading of a sensor that has not failed is shown with VALID and judged; an inlet temperature from partition 0 or Gaffer firmware within COOLMAX is
shown, and its time kept; two seconds without one set COOLSTALE and are logged; a core whose park bit is set leaves IDLE for OFF and returns through
RESET once it is clear; a reheat pattern that passes, a slice that ends (at the time fixed when it began), one that is aborted and one that is
overdue act on the core in REHEAT; an aging sample visits every core; a read of THERM_EVLOG answers the oldest event and removes it. -/
def Obligations.HeatCommands : Prop :=
  (∀ (s : State) (power : BitVec 16) (t : Nat),
    Answers (.powerSample power t) s (fun u => u.therm.samples = (power.toNat :: s.therm.samples).take 1000 ∧
      u.therm.energy = s.therm.energy + power.toNat ∧ (∀ o, o ≠ Reg.thermPwr → o ≠ Reg.thermEnergy → u.reg o = s.reg o) ∧
      u = { s with now := max s.now t, regs := u.regs, therm := { s.therm with samples := u.therm.samples, energy := u.therm.energy } })) ∧
  (∀ (s : State) (t : Nat), s.vp = s.vcap → 700 < s.vp →
    (meanOf s.therm.samples 10).1 ≤ s.plim * (16 * max 1 (meanOf s.therm.samples 10).2) →
    (s.plim - s.physt) * (16 * max 1 (meanOf s.therm.samples 10).2) ≤ (meanOf s.therm.samples 10).1 → s.pace = 64 →
    exec (.powerUpdate t) s = .next (setAllVolts (limitedShown (s.at t)))) ∧
  (∀ (s s1 s2 : State) (i : Fin 512) (v : BitVec 13) (t : Nat), s.regBit (Reg.thermSens i.val) 14 = false →
    s1 = showReading (s.at t) i.val (some (signedOf v.toNat 13)) → s2 = sensorStreaks s1 i.val (some (signedOf v.toNat 13)) →
    s2.regBit (Reg.thermSens i.val) 14 = false →
    s1.regBit (Reg.thermSens i.val) 13 = true ∧ s1.regFld (Reg.thermSens i.val) 0 13 = v.toNat ∧ (∀ o, o ≠ Reg.thermSens i.val → s1.reg o = s.reg o) ∧
    exec (.sensorRead i (some v) t) s = .next (unitUpdate s2 (unitOfSensor i.val) (some (signedOf v.toNat 13)))) ∧
  (∀ (s : State) (who : Ident) (temp : BitVec 12) (t : Nat), mgmt who = true →
    signedOf temp.toNat 12 ≤ ((16 * (s.coolMax - 2) : Nat) : Int) →
    Answers (.coolantWrite who temp t) s (fun u => u.regFld Reg.thermCoolant 0 12 = temp.toNat ∧ u.regBit Reg.thermCoolant 12 = true ∧
      u.regBit Reg.thermStat 1 = false ∧ u.regBit Reg.thermStat 2 = false ∧ u.therm.coolantAt = some (max s.now t) ∧
      (∀ o, o ≠ Reg.thermCoolant → o ≠ Reg.thermStat → u.reg o = s.reg o))) ∧
  (∀ (s : State) (t : Nat), s.regBit Reg.thermStat 2 = false → s.therm.coolantAt.getD 0 + 2000000000 ≤ t →
    exec (.coolantStale t) s =
      .next ((((s.at t).setRegBit Reg.thermCoolant 12 false).setRegBit Reg.thermStat 2 true).logTherm 0x0A08 0xFF)) ∧
  (∀ (s : State) (c : Fin 96), parkBit s c.val = true → s.coreSt c.val = .idle → exec (.corePark c) s = .next (parkCore s c.val)) ∧
  (∀ (s : State) (c : Fin 96), parkBit s c.val = false → s.coreSt c.val = .off → exec (.coreUnpark c) s = .next (enterReset s c.val)) ∧
  (∀ (s : State) (c : Fin 96) (t : Nat), s.coreSt c.val = .reheat → s.regFld (Reg.thermRh c.val) 0 10 < 1023 →
    Answers (.reheatPatternDone c true t) s (fun u => u.regFld (Reg.thermRh c.val) 0 10 = s.regFld (Reg.thermRh c.val) 0 10 + 1 ∧
      OnlyRegs (s.at t) u [Reg.thermRh c.val])) ∧
  (∀ (s : State) (c : Fin 96), s.coreSt c.val = .reheat →
    Answers (.reheatSliceEnd c) s (fun u => u.coreSt c.val = .idle ∧ c.val ∉ u.therm.slices ∧
      u.now = max s.now (sget 0 s.therm.sliceEnds c.val) ∧
      (∀ o, o ≠ Reg.coreState c.val → u.reg o = s.reg o))) ∧
  (∀ (s : State) (c : Fin 96) (t : Nat), s.coreSt c.val = .reheat → exec (.reheatAbort c none t) s = .next (abortSlice (s.at t) c.val)) ∧
  (∀ (s : State) (c : Fin 96) (t : Nat), s.regBit (Reg.thermRh c.val) 10 = false →
    (s.reg (Reg.thermRht c.val)).toNat + s.rhlim * 1000000000 ≤ t →
    exec (.reheatOverdue c t) s =
      .next ((((s.at t).setRegBit (Reg.thermRh c.val) 10 true).setSclass c.val false).logTherm 0x0A0D c.val)) ∧
  (∀ (s : State) (t : Nat), s.regBit Reg.thermAgectl 0 = true →
    Answers (.ageSample t) s (fun u => u.therm.ageGood = allCores.filter (ageCondition (allCores.foldl ageOne (s.at t))) ∧
      u.regs = (allCores.foldl ageOne (s.at t)).regs)) ∧
  (∀ s : State, Answers .thermEvlogRead s (fun u => u.readData = s.therm.log.head ∧ u.therm.log = s.therm.log.pop ∧
      u = { s with readData := u.readData, therm := { s.therm with log := u.therm.log } })) ∧
  (∀ (s : State) (t : Nat), 105 * s.plim * (16 * max 1 (meanOf s.therm.samples 10).2) < 100 * (meanOf s.therm.samples 10).1 → 700 < s.vp → s.pace = 64 →
    exec (.powerUpdate t) s = .next (setAllVolts (limitedShown (((s.at t).setRegFld Reg.thermPwr 16 10 (max 700 (s.vp - 25))).setRegBit Reg.thermStat 3 true))))

/-- Regulation windows, budgets and the regulation control take their effects. At a window boundary every count is 0 and every budget pending until
then is in force. From partition 0 or Gaffer firmware, a budget that the admission rule admits is stored with its minimum, and a WIN from 1 to 64
that the rule admits at every crucible is stored with the new capacities. -/
def Obligations.RegulationCommands : Prop :=
  (∀ (s : State) (t : Nat), t % (s.win * 1000) = 0 → Answers (.regulationWindow t) s (fun u => u.regul.counts = [] ∧
      (∀ (k : Fin 4) (m : Fin 21), sget (regReset (Reg.devRegbud k.val m.val)) u.regul.inForce (Reg.devRegbud k.val m.val) =
        s.reg (Reg.devRegbud k.val m.val)) ∧
      (∀ o, o ≠ Reg.devRegstat → u.reg o = s.reg o) ∧
      u = { s with now := max s.now t, regs := u.regs, regul := u.regul })) ∧
  (∀ (s : State) (who : Ident) (k : Fin 4) (m : Fin 21) (v : BitVec 64), mgmt who = true →
    admitted (minSum (s.setReg (Reg.devRegbud k.val m.val) (setFld (setFld 0#64 0 20 (budField v)) 32 20 (minField v))) k.val)
      (s.regcap k.val) = true →
    Answers (.regbudWrite who k m v) s (fun u => budField (u.reg (Reg.devRegbud k.val m.val)) = budField v ∧
      minField (u.reg (Reg.devRegbud k.val m.val)) = minField v ∧ OnlyRegs s u [Reg.devRegbud k.val m.val, Reg.devRegminsum k.val])) ∧
  (∀ (s : State) (who : Ident) (v : BitVec 32), mgmt who = true → 1 ≤ bitsOf v.toNat 0 7 → bitsOf v.toNat 0 7 ≤ 64 →
    (∀ k : Fin 4, admitted (minSum s k.val) (capFormula (bitsOf v.toNat 0 7) s.mem.refForce (liveChannels s k.val)) = true) →
    exec (.regctlWrite who v) s =
      .next (recomputeCaps (s.setReg Reg.devRegctl (setFld (setFld 0#64 0 7 (bitsOf v.toNat 0 7)) 8 16 (bitsOf v.toNat 8 16)))))

/-- The memory's refresh, map, park, wake and scrub commands take their effects. A refresh point while nothing is parked opens a stall window of
TRFC + 35 ns and puts the MEMREF shown in force; the window ends once its time is over. From partition 0 or Gaffer firmware, a MEMREF in range is
shown, and a valid map or a park with no sensor stream and no SBSTAT.LIVE begins. The end of a map application puts the map shown in force and
clears MAPBUSY; the end of a park and a wake set and clear PARKED; a scrub of a line that is not the segment's last leaves it or marks it lost and
moves SCRUBPTR on. A stack's temperature is shown with VALID. -/
def Obligations.MemoryCommands : Prop :=
  (∀ (s : State) (t : Nat), onGrid t (fld s.mem.refForce 32 32) (refreshP s) = true → s.regBit Reg.devMemstat 1 = false → s.reg Reg.devMemref = s.mem.refForce →
    Answers (.refreshPoint t) s (fun u => u.mem.stallUntil = some (t + fld s.mem.refForce 16 9 + 35) ∧
      u = { s with now := max s.now t, mem := { s.mem with stallUntil := u.mem.stallUntil, hotForce := u.mem.hotForce } })) ∧
  (∀ (s : State) (t u : Nat), s.mem.stallUntil = some u → u ≤ t →
    exec (.stallWindowEnd t) s = .next { s with now := max s.now t, mem := { s.mem with stallUntil := none } }) ∧
  (∀ (s : State) (who : Ident) (v : BitVec 64), mgmt who = true → memrefOk v.toNat = true →
    Answers (.memrefWrite who v) s (fun u => u.regFld Reg.devMemref 0 13 = bitsOf v.toNat 0 13 ∧
      u.regFld Reg.devMemref 16 9 = bitsOf v.toNat 16 9 ∧ u.regFld Reg.devMemref 32 32 = bitsOf v.toNat 32 32 ∧
      u.mem.refForce = s.mem.refForce ∧ OnlyRegs s u [Reg.devMemref])) ∧
  (∀ (s : State) (site : Fin 16) (temp : BitVec 8) (t : Nat), s.therm.memThrottled = [] → s.mem.memHeld = [] →
    signedOf temp.toNat 8 < (s.memHot : Int) - 3 → signedOf temp.toNat 8 < (s.memTrip : Int) →
    Answers (.stackTempReport site temp t) s (fun u => u.regFld (Reg.memcTemp site.val) 0 8 = temp.toNat ∧
      u.regBit (Reg.memcTemp site.val) 8 = true ∧ u.therm = s.therm ∧ u.mem = s.mem)) ∧
  (∀ (s : State) (who : Ident), mgmt who = true → pendingMapValid s = true → s.regFld Reg.devSbstat 0 14 = 0 → streamsOff s = true →
    s.regBit Reg.devMemstat 1 = false → s.regBit Reg.devMemstat 2 = false → Answers (.mapApply who) s (fun u => u.regBit Reg.devMemstat 2 = true ∧ u.regBit Reg.devMemstat 3 = s.regBit Reg.devMemstat 3 ∧
      OnlyRegs s u [Reg.devMemstat])) ∧
  (∀ s : State, s.regBit Reg.devMemstat 2 = true → s.bench.spillCopies = [] → allSegments.filter (fun p => segmentMoved s p.1 p.2) = [] →
    Answers .mapApplyDone s (fun u => u.regBit Reg.devMemstat 2 = false ∧
      (∀ n : Fin 16, sget (regReset (Reg.devMemmapa n.val)) u.mem.mapA n.val = pendA s n.val ∧
        sget (regReset (Reg.devMemmapm n.val)) u.mem.mapM n.val = pendM s n.val) ∧
      (∀ o, o ≠ Reg.devMemstat → u.reg o = s.reg o))) ∧
  (∀ (s : State) (who : Ident) (mask : BitVec 8), mgmt who = true → s.regFld Reg.devSbstat 0 14 = 0 → streamsOff s = true →
    s.regBit Reg.devMemstat 1 = false → s.regBit Reg.devMemstat 2 = false → Answers (.park who mask) s (fun u => u.regBit Reg.devMempwr 0 = true ∧ u.regFld Reg.devMempwr 8 8 = mask.toNat ∧
      u.mem = { s.mem with parking := true } ∧ (∀ o, o ≠ Reg.devMempwr → u.reg o = s.reg o))) ∧
  (∀ s : State, s.mem.parking = true → s.bench.spillCopies = [] → Answers .parkDone s (fun u => u.regBit Reg.devMemstat 1 = true ∧
      u.mem.parking = false ∧ u.mem.maskForce = s.regFld Reg.devMempwr 8 8 ∧ u.mem.stallUntil = none)) ∧
  (∀ s : State, s.regBit Reg.devMemstat 1 = true → Answers .wake s (fun u => u.regBit Reg.devMemstat 1 = false ∧ u.regBit Reg.devMempwr 0 = false)) ∧
  (∀ (s : State) (ch : Fin 64) (ecc : Ecc) (k : Nat), s.chSt ch.val = 2 → scrubSegment s ch.val = some k → s.regFld (Reg.memcScrubptr (ch.val / 4) (ch.val % 4)) 0 24 / 2 ^ 21 = k →
    s.regFld (Reg.memcScrubptr (ch.val / 4) (ch.val % 4)) 0 24 % 2 ^ 21 < 2 ^ 21 - 1 →
    Answers (.scrubLine ch ecc) s (fun u =>
      u.regFld (Reg.memcScrubptr (ch.val / 4) (ch.val % 4)) 0 24 = s.regFld (Reg.memcScrubptr (ch.val / 4) (ch.val % 4)) 0 24 + 1 ∧
      (ecc = .clean → (s.mark (ch.val * 2 ^ 24 + s.regFld (Reg.memcScrubptr (ch.val / 4) (ch.val % 4)) 0 24)).epoch = s.epoch ch.val k →
        u.mem = s.mem) ∧
      (ecc = .uncorrectable → u.mark (ch.val * 2 ^ 24 + s.regFld (Reg.memcScrubptr (ch.val / 4) (ch.val % 4)) 0 24) = ⟨.lost, s.epoch ch.val k⟩) ∧
      u.mem.bytes = s.mem.bytes))

/-- Memory channels freeze, recover, retire, train and log by their commands. A parity error or a lock loss freezes a channel in SERVICE with its
cause; an acknowledge by Gaffer firmware or FRZHOLD's end moves it on to RECOVERING while NFRZ is below FRZMAX; GOSERVICE in time returns it to
SERVICE; RETIRE, or too long a recovery or training, retires it. The four helper commands set BUSY on a ready channel, and their completion clears
it and shows what the comparisons found. Calibration shows in no register, the fill leaves the channel's lines zero with nothing listed, and a read
of a site's log answers its oldest event and removes it. -/
def Obligations.ChannelCommands : Prop :=
  (∀ (s : State) (ch : Fin 64) (info : FreezeInfo) (t : Nat), s.chSt ch.val = 2 →
    exec (.caParityError ch info t) s = .next (freezeChannel (s.at t) ch.val 2 0 info)) ∧
  (∀ (s : State) (ch : Fin 64) (info : FreezeInfo) (t : Nat), s.chSt ch.val = 2 ∨ s.chSt ch.val = 6 →
    exec (.phyLockLoss ch info t) s = .next (freezeChannel (s.at t) ch.val 3 0 info)) ∧
  (∀ (s : State) (who : Ident) (ch : Fin 64) (t : Nat), who.val = 16 → s.chSt ch.val = 3 → s.regFld (chstat ch.val) 12 4 < s.regFld Reg.devMemctl 16 4 →
    Answers (.frzack who ch t) s (fun u => u.chSt ch.val = 4 ∧ (∀ o, o ≠ chstat ch.val → u.reg o = s.reg o))) ∧
  (∀ (s : State) (ch : Fin 64) (t : Nat), s.chSt ch.val = 3 → (s.reg (Reg.memcFrztime (ch.val / 4) (ch.val % 4))).toNat + s.frzhold ≤ t →
    s.regFld (chstat ch.val) 12 4 < s.regFld Reg.devMemctl 16 4 →
    Answers (.frzholdTimeout ch t) s (fun u => u.chSt ch.val = 4 ∧ (∀ o, o ≠ chstat ch.val → u.reg o = s.reg o))) ∧
  (∀ (s : State) (who : Ident) (ch : Fin 64) (t : Nat), who.val = 16 →
    (s.chSt ch.val = 1 ∧ max s.now t ≤ sget 0 s.mem.entered ch.val + 300000000 ∨
      s.chSt ch.val = 4 ∧ max s.now t ≤ sget 0 s.mem.entered ch.val + 20100000) →
    exec (.goservice who ch t) s = .next (toService (s.at t) ch.val)) ∧
  (∀ (s : State) (who : Ident) (ch : Fin 64), who.val = 16 →
    (s.chSt ch.val = 1 → exec (.retire who ch) s = .next (failTraining s ch.val)) ∧
    (s.chSt ch.val = 4 → exec (.retire who ch) s = .next (retireChannel s ch.val))) ∧
  (∀ (s : State) (ch : Fin 64) (t : Nat), s.chSt ch.val = 4 → sget 0 s.mem.entered ch.val + 20100000 < t →
    exec (.recoveryTimeout ch t) s = .next (retireChannel (s.at t) ch.val)) ∧
  (∀ (s : State) (ch : Fin 64) (t : Nat), s.chSt ch.val = 1 → sget 0 s.mem.entered ch.val + 300000000 < t →
    exec (.trainingTimeout ch t) s = .next (failTraining (s.at t) ch.val)) ∧
  (∀ (s : State) (who : Ident) (ch : Fin 64) (line countm1 : BitVec 24), who.val = 16 → helperReady s ch.val = true → (Answers (.trainReadCompare who ch line countm1) s (fun u => u.regBit (Reg.memcTres (ch.val / 4) (ch.val % 4)) 31 = true ∧
      OnlyRegs s u [Reg.memcTres (ch.val / 4) (ch.val % 4)])) ∧
    (Answers (.trainCaLoop who ch line countm1) s (fun u => u.regBit (Reg.memcTres (ch.val / 4) (ch.val % 4)) 31 = true ∧
      OnlyRegs s u [Reg.memcTres (ch.val / 4) (ch.val % 4)])) ∧
    (∀ c, c = Instr.trainWrite who ch line countm1 ∨ c = Instr.trainWriteRead who ch line countm1 →
      exec c s = .next (helperLines (countm1.toNat + 1)
        (s.setReg (Reg.memcTres (ch.val / 4) (ch.val % 4)) (setBit 0#64 31 true)) ch.val line.toNat))) ∧
  (∀ (s : State) (ch : Fin 64) (dq : BitVec 24) (ca : Bool) (errs : BitVec 32), s.regBit (Reg.memcTres (ch.val / 4) (ch.val % 4)) 31 = true → Answers (.trainCmdDone ch dq ca errs) s (fun u => u.regFld (Reg.memcTres (ch.val / 4) (ch.val % 4)) 0 24 = dq.toNat ∧
      u.regBit (Reg.memcTres (ch.val / 4) (ch.val % 4)) 28 = ca ∧ u.regBit (Reg.memcTres (ch.val / 4) (ch.val % 4)) 31 = false ∧
      u.regFld (Reg.memcTres (ch.val / 4) (ch.val % 4)) 32 32 = errs.toNat ∧ OnlyRegs s u [Reg.memcTres (ch.val / 4) (ch.val % 4)])) ∧
  (∀ (s : State) (ch : Fin 64), exec (.zqCalibrationDone ch) s = .next s) ∧
  (∀ (s : State) (ch : Fin 64), s.chSt ch.val = 1 → Answers (.memoryFillDone ch) s (fun u =>
      (∀ a, sget 0#8 u.mem.bytes a = if a / 2 ^ 31 = ch.val then 0#8 else sget 0#8 s.mem.bytes a) ∧
      u.reg (Reg.memcEpoch (ch.val / 4) (ch.val % 4)) = 0#64 ∧ u.regFld (chstat ch.val) 4 8 = 0 ∧
      u.reg (Reg.memcScrubptr (ch.val / 4) (ch.val % 4)) = 0#64)) ∧
  (∀ (s : State) (site : Fin 16), Answers (.memcEvlogRead site) s (fun u =>
      u.readData = (sget EvLog.empty s.mem.logs site.val).head ∧
      sget EvLog.empty u.mem.logs site.val = (sget EvLog.empty s.mem.logs site.val).pop ∧
      (∀ i, i ≠ site.val → sget EvLog.empty u.mem.logs i = sget EvLog.empty s.mem.logs i) ∧
      u = { s with readData := u.readData, mem := { s.mem with logs := u.mem.logs } }))

/-- The vector instructions write the lanes they name and nothing else. An elementwise instruction or defined function at the head of a ready vector
stream writes lanes 0 through LEN of VD with its operation on the lanes before; a reduction writes its tree's root to lane 0 and zero to the others;
VLD and VLDSC write lanes 0 through LEN from scratchpad, and VST writes scratchpad from the lanes, where no word read or partly written is
uncorrectable. Every other lane and memory of the core and everything outside the core is as before, and the flags raised join those in CORE_AFLAGS.
-/
def Obligations.VectorInstructions : Prop :=
  (∀ (s : State) (core : Fin 96) (w : Nat) (p : Instr × Nat × (Core → Nat → Nat → FVal)),
    p ∈ [(Instr.vbc core, 0x04, fun _ w _ => (wImm w, AFlags.none)), (Instr.vadd core, 0x08, laneAdd), (Instr.vsub core, 0x09, laneSub),
      (Instr.vmul core, 0x0A, laneMul), (Instr.vfma core, 0x0B, laneFma), (Instr.vdiv core, 0x0C, laneDiv), (Instr.vsqrt core, 0x0D, laneSqrt),
      (Instr.vmin core, 0x0E, laneMin), (Instr.vmax core, 0x0F, laneMax), (Instr.vabs core, 0x10, laneAbs), (Instr.vneg core, 0x11, laneNeg),
      (Instr.vcmp core, 0x12, laneCmp), (Instr.vsel core, 0x13, laneSel), (Instr.vand core, 0x14, laneBits (· &&& ·)),
      (Instr.vor core, 0x15, laneBits (· ||| ·)), (Instr.vxor core, 0x16, laneBits (· ^^^ ·)),
      (Instr.vshl core, 0x17, laneBits (fun a b => a * 2 ^ (b % 32))), (Instr.vshr core, 0x18, laneShr), (Instr.vcvt core, 0x19, laneCvt),
      (Instr.vqnt core, 0x1A, laneQnt), (Instr.vexp2 core, 0x20, laneFn (fun w => exp2F (wSat w))), (Instr.vlog2 core, 0x21, laneFn (fun _ => log2F)),
      (Instr.vrcp core, 0x22, laneFn (fun _ => rcpF)), (Instr.vrsqrt core, 0x23, laneFn (fun _ => rsqrtF)),
      (Instr.vsigm core, 0x24, laneFn (fun _ => sigmF)), (Instr.vtanh core, 0x25, laneFn (fun _ => tanhF)),
      (Instr.vgelu core, 0x26, laneFn (fun _ => geluF)), (Instr.vexpd core, 0x27, laneExpd)] →
    HeadReady s core.val 1 w noChecks → wEng w = 2 → wOp w = p.2.1 →
    Answers p.1 s (LanesSet s core.val w (fun i => if i < wLen w then some ((p.2.2 (s.core core.val) w i).1 % 2 ^ 32) else none)
      (AFlags.all ((List.range (wLen w)).map (fun i => (p.2.2 (s.core core.val) w i).2))))) ∧
  (∀ (s : State) (core : Fin 96) (w : Nat) (p : Instr × Nat × (Nat → Nat → FVal) × (Nat → Nat → Nat → FVal) × Nat × Nat),
    p ∈ [(Instr.vrsum core, 0x30, leafSelf, nodeSum, 0, 0), (Instr.vrmax core, 0x31, leafSelf, nodeMax, 0xFF800000, 0x80000000),
      (Instr.vrmin core, 0x32, leafSelf, nodeMin, 0x7F800000, 0x7FFFFFFF), (Instr.vrssq core, 0x33, leafSquare, nodeSum, 0, 0)] →
    HeadReady s core.val 1 w noChecks → wEng w = 2 → wOp w = p.2.1 →
    Answers p.1 s (LanesSet s core.val w
      (fun i => some (if i = 0 then (reduction (s.core core.val) w p.2.2.1 p.2.2.2.1 p.2.2.2.2.1 p.2.2.2.2.2).1 % 2 ^ 32 else 0))
      (reduction (s.core core.val) w p.2.2.1 p.2.2.2.1 p.2.2.2.2.1 p.2.2.2.2.2).2)) ∧
  (∀ (s : State) (core : Fin 96) (w : Nat), HeadReady s core.val 1 w noChecks → wEng w = 2 → wOp w = 1 →
    (s.core core.val).spBadIn (bitsOf w 53 23) (packedBytes (bitsOf w 76 4) (bitsOf w 80 10 + 1)) = none →
    ∀ e, e = (fun i => laneOfElem (bitsOf w 76 4) (elemAt (bitsOf w 76 4) ((s.core core.val).spRead (bitsOf w 53 23)
      (packedBytes (bitsOf w 76 4) (bitsOf w 80 10 + 1))) i)) →
    Answers (.vld core .clean) s (LanesSet s core.val w (fun i => if i ≤ bitsOf w 80 10 then some ((e i).1 % 2 ^ 32) else none)
      (AFlags.all ((List.range (bitsOf w 80 10 + 1)).map (fun i => (e i).2))))) ∧
  (∀ (s : State) (core : Fin 96) (w : Nat), HeadReady s core.val 1 w noChecks → wEng w = 2 → wOp w = 3 →
    (s.core core.val).spBadIn (bitsOf w 53 23) ((bitsOf w 80 10 + blockLen (bitsOf w 76 4)) / blockLen (bitsOf w 76 4)) = none →
    ∀ e, e = (fun i => putF32 0 true (decodeNum (bitsOf w 76 4)
      ((s.core core.val).spByte (bitsOf w 53 23 + i / blockLen (bitsOf w 76 4))).toNat, false)) →
    Answers (.vldsc core .clean) s (LanesSet s core.val w (fun i => if i ≤ bitsOf w 80 10 then some ((e i).1 % 2 ^ 32) else none)
      (AFlags.all ((List.range (bitsOf w 80 10 + 1)).map (fun i => (e i).2))))) ∧
  (∀ (s : State) (core : Fin 96) (w : Nat), HeadReady s core.val 1 w noChecks → wEng w = 2 → wOp w = 2 → fmtWidth (bitsOf w 76 4) = 32 →
    (s.core core.val).spBadPart (bitsOf w 53 23) (4 * (bitsOf w 80 10 + 1)) = none →
    Answers (.vst core .clean) s (fun u => (u.core core.val).memory = ((s.core core.val).spWrite (bitsOf w 53 23)
      (packElems (bitsOf w 76 4) ((List.range (bitsOf w 80 10 + 1)).map ((s.core core.val).lane (wVd w))))).memory ∧
      CoreFlags s core.val AFlags.none u)) ∧
  (∀ (s : State) (core : Fin 96) (w : Nat), HeadReady s core.val 1 w noChecks → wEng w = 2 → wOp w = 2 → fmtWidth (bitsOf w 76 4) ≠ 32 →
    ∀ rs, rs = (List.range (bitsOf w 80 10 + 1)).map (fun i => convertNum (bitsOf w 76 4) (bitsOf w 90 2) (decide (bitsOf w 92 1 = 1))
      (if isIntFmt (bitsOf w 76 4) then numOfInt (i32 ((s.core core.val).lane (wVd w) i)) else f32 ((s.core core.val).lane (wVd w) i))) →
    (s.core core.val).spBadPart (bitsOf w 53 23) (packElems (bitsOf w 76 4) (rs.map (·.1))).length = none →
    Answers (.vst core .clean) s (fun u => (u.core core.val).memory = ((s.core core.val).spWrite (bitsOf w 53 23)
      (packElems (bitsOf w 76 4) (rs.map (·.1)))).memory ∧ CoreFlags s core.val (AFlags.all (rs.map (·.2))) u))

/-- The array stream's instructions have their effects. CLR leaves every accumulator and term count of its tile zero, sets the tile state its word
gives and every row's next-K index to KSTART, and touches no other tile; WLD puts the weights its word names, as scratchpad holds them, in the
shadow registers; a weight swap makes them active; MM and DRN, their operands readable, their issue checks passed and the residues of the rows
drained good, issue with the rows they stream or drain. -/
def Obligations.ArrayInstructions : Prop :=
  (∀ (s : State) (core : Fin 96) (w : Nat), HeadReady s core.val 0 w clrChecks → wEng w = 0 → wOp w = 1 →
    Answers (.clr core) s (fun u => CoreFlags s core.val AFlags.none u ∧
      (u.core core.val).tileSt (physTile s core.val (bitsOf w 48 3)) = clrTile w ∧
      (∀ r j, r < 128 → j < 128 → (u.core core.val).acc (physTile s core.val (bitsOf w 48 3)) r j = Acc.zero ∧
        (u.core core.val).rowTerms (physTile s core.val (bitsOf w 48 3)) r = 0 ∧
        (u.core core.val).rowNextK (physTile s core.val (bitsOf w 48 3)) r = (clrTile w).kstart) ∧
      (∀ t r j, t ≠ physTile s core.val (bitsOf w 48 3) → r < 128 → j < 128 → (u.core core.val).acc t r j = (s.core core.val).acc t r j ∧
        (u.core core.val).tileSt t = (s.core core.val).tileSt t ∧ (u.core core.val).rowTerms t r = (s.core core.val).rowTerms t r ∧
        (u.core core.val).rowNextK t r = (s.core core.val).rowNextK t r) ∧
      (u.core core.val).sp = (s.core core.val).sp ∧ (u.core core.val).vregs = (s.core core.val).vregs)) ∧
  (∀ (s : State) (core : Fin 96) (ph : Phys) (w : Nat), HeadReady s core.val 0 w wldChecks → wEng w = 0 → wOp w = 2 → ph.sp = .clean →
    (s.core core.val).spBad = [] → bitsOf w 124 1 = 0 →
    Answers (.wld core ph) s (fun u => CoreFlags s core.val AFlags.none u ∧
      (u.core core.val).memory = ({ s.core core.val with shadow := some ⟨bitsOf w 120 4, false, decide (bitsOf w 125 1 = 1), bitsOf w 64 7 + 1,
        bitsOf w 71 8 + 1, bitsOf w 96 24, (List.range (bitsOf w 71 8 + 1)).map (fun k => unpackElems (bitsOf w 120 4) (bitsOf w 64 7 + 1)
          ((s.core core.val).spRead (bitsOf w 48 16 * 128 + k * weightLine (bitsOf w 120 4)) (packedBytes (bitsOf w 120 4) (bitsOf w 64 7 + 1)))),
        [], 0⟩ } : Core).memory)) ∧
  (∀ (s : State) (core : Fin 96) (ph : Phys) (w : Nat), HeadReady s core.val 0 w wldChecks → wEng w = 0 → wOp w = 2 → ph.sp = .clean →
    (s.core core.val).spBad = [] →
    exec (.wld core ph) s = .next (issueDone (wldEffect core.val ph (afterWait s core.val w) w).1 core.val 0 w 0 (wordSlot (afterWait s core.val w) core.val w))) ∧
  (∀ (s : State) (core : Fin 96), running s core.val = true → headSwaps s core.val = true → (s.core core.val).swapped = false →
    (s.core core.val).wldFresh = true → (∀ f ∈ (s.core core.val).flight, f.done = true ∨ f.eng ≠ 0) →
    Answers (.weightSwap core) s (fun u => CoreFlags s core.val AFlags.none u ∧
      u.core core.val = { s.core core.val with active := (s.core core.val).shadow, wldFresh := false, swapped := true })) ∧
  (∀ (s : State) (core : Fin 96) (ph : Phys) (w : Nat), HeadReady s core.val 0 w (mmChecks core.val) → wEng w = 0 → wOp w = 3 → ph.sp = .clean →
    (s.core core.val).spBad = [] →
    exec (.mm core ph) s = .next (issueDone (mmEffect core.val ph (afterWait s core.val w) w).1 core.val 0 w 0 (wordSlot (afterWait s core.val w) core.val w))) ∧
  (∀ (s : State) (core : Fin 96) (ph : Phys) (w : Nat), HeadReady s core.val 0 w noChecks → wEng w = 1 → wOp w = 1 → ph.sp = .clean →
    ph.upset = false → (s.core core.val).spBad = [] →
    (∀ r j, bitsOf w 51 7 ≤ r → r ≤ bitsOf w 51 7 + bitsOf w 58 7 → j < 128 →
      ((s.core core.val).acc (physTile s core.val (bitsOf w 48 3)) r j).resOk
        ((s.core core.val).tileSt (physTile s core.val (bitsOf w 48 3))).fmode = true) →
    exec (.drn core ph) s = .next (issueDone (drnRows core.val w (bitsOf w 58 7 + 1) 0 (afterWait s core.val w)).1 core.val 0 w 0 (wordSlot (afterWait s core.val w) core.val w)))

/-- The load, store, gather and sequencer instructions have their effects. LD, LDACC, ST, STACC, GIDX and GPAGE, ready at the head of their streams
and completed by device memory, issue with what they moved. STSIG sends Lehr A the signature of the rows its word names with the run's identity and
ordinal. NOP and FENCE only wait and signal, END ends its stream, and CKPT issues its marker. -/
def Obligations.MoveInstructions : Prop :=
  (∀ (s u : State) (core : Fin 96) (ph : Phys) (w n : Nat), HeadReady s core.val 2 w (strideChecks core.val ph) → wEng w = 3 → wOp w = 1 →
    ldEffect core.val ph (afterWait s core.val w) w = (u, .ok n) → exec (.ld core ph) s = .next (issueDone u core.val 2 w n (wordSlot (afterWait s core.val w) core.val w))) ∧
  (∀ (s u : State) (core : Fin 96) (ph : Phys) (w n : Nat), HeadReady s core.val 2 w (blockChecks core.val ph) → wEng w = 3 → wOp w = 2 →
    ldaccEffect core.val ph (afterWait s core.val w) w = (u, .ok n) → exec (.ldacc core ph) s = .next (issueDone u core.val 2 w n (wordSlot (afterWait s core.val w) core.val w))) ∧
  (∀ (s u : State) (core : Fin 96) (ph : Phys) (w n : Nat), HeadReady s core.val 3 w (strideChecks core.val ph) → wEng w = 4 → wOp w = 1 →
    stEffect core.val ph (afterWait s core.val w) w = (u, .ok n) → stageWaits s (issueDone u core.val 3 w n (wordSlot (afterWait s core.val w) core.val w)) = false →
    exec (.st core ph) s = .next (issueDone u core.val 3 w n (wordSlot (afterWait s core.val w) core.val w))) ∧
  (∀ (s u : State) (core : Fin 96) (ph : Phys) (w n : Nat), HeadReady s core.val 3 w (blockChecks core.val ph) → wEng w = 4 → wOp w = 2 →
    staccEffect core.val ph (afterWait s core.val w) w = (u, .ok n) → stageWaits s (issueDone u core.val 3 w n (wordSlot (afterWait s core.val w) core.val w)) = false →
    exec (.stacc core ph) s = .next (issueDone u core.val 3 w n (wordSlot (afterWait s core.val w) core.val w))) ∧
  (∀ (s u : State) (core : Fin 96) (ph : Phys) (w n : Nat), HeadReady s core.val 4 w (gidxChecks core.val ph) → wEng w = 5 → wOp w = 1 →
    gidxEffect core.val ph (afterWait s core.val w) w = (u, .ok n) → exec (.gidx core ph) s = .next (issueDone u core.val 4 w n (wordSlot (afterWait s core.val w) core.val w))) ∧
  (∀ (s u : State) (core : Fin 96) (ph : Phys) (w n : Nat), HeadReady s core.val 4 w (gpageChecks core.val ph) → wEng w = 5 → wOp w = 2 →
    gpageEffect core.val ph (afterWait s core.val w) w = (u, .ok n) → exec (.gpage core ph) s = .next (issueDone u core.val 4 w n (wordSlot (afterWait s core.val w) core.val w))) ∧
  (∀ (s : State) (core : Fin 96) (ph : Phys) (w : Nat), HeadReady s core.val 3 w noChecks → wEng w = 4 → wOp w = 3 → ph.sp = .clean →
    (s.core core.val).spBad = [] → bitsOf w 110 1 = 0 →
    Answers (.stsig core ph) s (fun u => (u.core core.val).memory = (s.core core.val).memory ∧
      u.sigOut = s.sigOut ++ [⟨s.cmdSeq core.val, s.cmdPart core.val, (s.core core.val).run.kind, (s.core core.val).run.prog, bitsOf w 112 16,
        crc32c ((List.range (bitsOf w 71 16)).map (fun r => sigRow (bitsOf w 87 4) (decide (bitsOf w 91 1 = 1)) (List.range 128)
          (sliceBytes ((s.core core.val).spRead (bitsOf w 48 23) (bitsOf w 71 16 * (128 * fmtWidth (bitsOf w 87 4) / 8)))
            (r * (128 * fmtWidth (bitsOf w 87 4) / 8)) (128 * fmtWidth (bitsOf w 87 4) / 8)))).flatten,
        (s.core core.val).run.sigs, (s.core core.val).run.frame, core.val⟩])) ∧
  (∀ (s : State) (core : Fin 96) (k : Fin 5) (w : Nat), HeadReady s core.val k.val w noChecks → wEng w = 6 →
    (wOp w = 1 → Answers (.nop core k) s (fun u => CourseOnly s u core.val)) ∧
    (wOp w = 4 → Answers (.fence core k) s (fun u => CourseOnly s u core.val))) ∧
  (∀ (s : State) (core : Fin 96) (k : Fin 5) (w : Nat), HeadReady s core.val k.val w noChecks → wEng w = 6 → wOp w = 2 →
    k.val < (s.core core.val).streams.length →
    Answers (.endStream core k) s (fun u => CourseOnly s u core.val ∧ ((u.core core.val).stream k.val).ended = true)) ∧
  (∀ (s : State) (core : Fin 96) (k : Fin 5) (w : Nat), HeadReady s core.val k.val w (ckptChecks core.val k.val) → wEng w = 6 → wOp w = 3 →
    k.val < (s.core core.val).streams.length →
    Answers (.ckpt core k) s (fun u => CourseOnly s u core.val ∧ ((u.core core.val).stream k.val).marker = bitsOf w 48 24 ∧
      u.regFld (Reg.coreTpckpt core.val) 0 24 = max (bitsOf w 48 24) (s.regFld (Reg.coreTpckpt core.val) 0 24)))

/-- Cores go through their states by their commands. A core whose reset is released enters REPAIR with its column map, then SELFTEST when no more
than four columns failed, then HELD when the pass finds nothing, then IDLE once Lehr A releases it; a quarantined core with its port restarts
through RESET. A program whose streams have all ended leaves its core IDLE with nothing valid in CORE_CMD; an acknowledged fault and a settled kill
do so too. A checkpoint requested, reached, saved and resumed, a clearing that ends, a kill and a dispatch have their effects. -/
def Obligations.CoreStateCommands : Prop :=
  (∀ (s : State) (c : Fin 96), s.coreSt c.val = .reset → heldInReset s c.val = false →
    Answers (.coreResetRelease c) s (fun u => u.coreSt c.val = .repair ∧ u.reg (Reg.coreColmap c.val) = colmapWord (s.failedCols c.val) ∧
      OnlyRegs s u [Reg.coreColmap c.val, Reg.coreState c.val])) ∧
  (∀ (s : State) (c : Fin 96), s.coreSt c.val = .repair → (s.failedCols c.val).length ≤ 4 →
    Answers (.repairDone c) s (fun u => u.coreSt c.val = .selftest ∧ u.regFld (Reg.coreRepstat c.val) 0 3 = (s.failedCols c.val).length ∧
      u.regBit (Reg.coreRepstat c.val) 4 = false ∧ OnlyRegs s u [Reg.coreRepstat c.val, Reg.coreState c.val])) ∧
  (∀ (s : State) (c : Fin 96), s.coreSt c.val = .repair → 4 < (s.failedCols c.val).length →
    Answers (.repairDone c) s (fun u => u.coreSt c.val = .disabled ∧ u.sclass c.val = false ∧ u.regBit (Reg.coreRepstat c.val) 3 = true)) ∧
  (∀ (s : State) (c : Fin 96) (t : Nat), s.coreSt c.val = .selftest → s.regBit (Reg.thermRh c.val) 10 = false →
    Answers (.selftestDone c none t) s (fun u => u.coreSt c.val = .held ∧ u.regFld (Reg.thermRh c.val) 0 10 = 0 ∧
      (u.reg (Reg.thermRht c.val)).toNat = max s.now t % 2 ^ 64 ∧
      OnlyRegs (s.at t) u [Reg.thermRh c.val, Reg.thermRht c.val, Reg.coreState c.val])) ∧
  (∀ (s : State) (c : Fin 96) (p : BitVec 10) (t : Nat), s.coreSt c.val = .selftest →
    exec (.selftestDone c (some p) t) s = .next (patternFail ((s.at t).setRegFld (Reg.thermRh c.val) 0 10 p.toNat) c.val)) ∧
  (∀ (s : State) (c : Fin 96), s.coreSt c.val = .held → s.regBit Reg.lehraStat 1 = true → s.regBit Reg.resetStat 7 = false →
    s.lehrB.handover = none →
    exec (.heldRelease c) s = .next (releaseDomains (((s.setCoreSt c.val .idle).setSclass c.val (sEligible s c.val)).setRegBit Reg.lehraStat 0 true))) ∧
  (∀ (s : State) (c : Fin 96) (t : Nat), s.coreSt c.val = .quarantine → (s.core c.val).portLost = false → inReset s (1, c.val) = true →
    s.blockPhase (.core c) = none → exec (.quarantineRestart c t) s = .next (enterReset (s.at t) c.val)) ∧
  (∀ (s : State) (c : Fin 96), (s.core c.val).clearing = true → s.coreSt c.val = .run →
    exec (.partitionClearDone c) s = .next (syncTpstat (headChecks (zeroCounters (s.setCore c.val
      { clearMemories (s.core c.val) with clearing := false }) c.val 0 2048) c.val) c.val)) ∧
  (∀ (s : State) (c : Fin 96) (t : Nat), running s c.val = true → allEnded s c.val = true →
    exec (.programEnd c t) s = .next (toIdle (replay (s.at t) c.val) c.val)) ∧
  (∀ (s : State) (c : Fin 96) (t : Nat), running s c.val = true → allEnded s c.val = true → (s.core c.val).debugLog = [] →
    Answers (.programEnd c t) s (fun u => u.coreSt c.val = .idle ∧ u.cmdValid c.val = false ∧ u.reg (Reg.coreTpstat c.val) = 0#64 ∧
      (u.core c.val).runTime = (s.core c.val).runTime + (max s.now t - (s.core c.val).since) ∧ u = { s with now := max s.now t, regs := u.regs, cores := u.cores })) ∧
  (∀ (s : State) (c : Fin 96), s.coreSt c.val = .faulted → reportTaken s c.val = true →
    Answers (.faultAck c) s (fun u => u.coreSt c.val = .idle ∧ u.cmdValid c.val = false ∧ u.reg (Reg.coreFault c.val) = s.reg (Reg.coreFault c.val) ∧
      OnlyRegs s u [Reg.coreCmd c.val, Reg.coreState c.val])) ∧
  (∀ (s : State) (c : Fin 96), s.coreSt c.val = .kill →
    Answers (.killSettled c) s (fun u => u.coreSt c.val = .idle ∧ u.cmdValid c.val = false ∧ u.reg (Reg.coreAflags c.val) = 0#64 ∧
      (u.core c.val).flight = [] ∧ (u.core c.val).memory = (s.core c.val).memory)) ∧
  (∀ (s : State) (c : Fin 96) (t : Nat), s.coreSt c.val = .run → runOn s c.val = none → tieOn s c.val = none →
    Answers (.kill c t) s (fun u => u.coreSt c.val = .kill ∧ u.reg (Reg.coreAflags c.val) = 0#64 ∧ (u.core c.val).flight = [] ∧
      (u.core c.val).memory = (s.core c.val).memory)) ∧
  (∀ (s : State) (c : Fin 96) (t : Nat) (x : Cmd) (r : ProgRun), s.coreSt c.val = .run ∨ s.coreSt c.val = .ckpt ∨ s.coreSt c.val = .halt →
    runOn s c.val = some (x, r) → exec (.kill c t) s = .next (killRun (s.at t) x r c.val)) ∧
  (∀ (s : State) (c : Fin 96) (t : Nat), s.coreSt c.val = .run → (s.core c.val).nckpt ≠ 0 → s.cmdSpec c.val = false →
    s.ckptTarget c.val < 2 ^ 24 - 1 → Answers (.checkpointRequest c t) s (fun u =>
      u.ckptReq c.val = true ∧ u.ckptTarget c.val = s.ckptTarget c.val + 1 ∧ (u.core c.val).ckptSince = max s.now t)) ∧
  (∀ (s : State) (c : Fin 96) (t : Nat), atBoundary s c.val = true → s.cmdSpec c.val = false →
    Answers (.checkpointBoundary c t) s (fun u => u.coreSt c.val = .ckpt ∧ u.ckptReq c.val = false ∧ u.regBit (Reg.coreTpckpt c.val) 49 = true ∧
      (u.core c.val).memory = (s.core c.val).memory)) ∧
  (∀ (s s1 s2 : State) (c : Fin 96) (ecc : SpEcc) (t : Nat), s.coreSt c.val = .ckpt → saveCkpt (accrue (s.at t) c.val) c.val false ecc = (s1, none) →
    s2 = (settleTime s1 (s.cmdPart c.val) c.val false).bump (Reg.benchCkptcnt (c.val / 8)) 1 →
    (runOn s2 c.val = none → exec (.checkpointSaveDone c ⟨false, ecc⟩ t) s = .next (toIdle s2 c.val)) ∧
    (∀ x r, runOn s2 c.val = some (x, r) → exec (.checkpointSaveDone c ⟨false, ecc⟩ t) s = .next (toIdle (mapRun s2 x.key r.prog r.kind (fun q =>
      { q with st := .queued, ckpt := true, time := q.time + (s1.core c.val).runTime, queuedAt := max s.now t })) c.val))) ∧
  (∀ (s : State) (c : Fin 96) (ecc : MemEcc), s.coreSt c.val = .run → (s.core c.val).clearing = false → (s.core c.val).resuming = true →
    exec (.checkpointResume c ecc) s = .next (resumeCkpt s c.val (s.core c.val).ckptAddr ckptSize ecc)) ∧
  (∀ (s s1 : State) (ecc : MemEcc) (t : Nat) (x : Cand) (k : Nat), nextRun (s.at t) = some (x, k) → s.cfg.switching = none →
    s1 = (if x.cmd.st = .ready ∧ x.tie = none then startCmd (s.at t) x.cmd else s.at t) →
    (x.tie ≠ none ∨ ∃ c, s1.cmd x.cmd.key = some c ∧ c.st = .running) →
    exec (.dispatch ecc t) s = .next (dispatchRun s1 x k ecc))

/-- Halts, steps, the core window, fetches and the step counters have their effects. From Gaffer firmware or the debug port, with scope 0 unlocked,
a core in RUN on its main run halts and resumes and one in HALT steps; a restart request resets a core that is not yet in reset; a breakpoint
reached halts it. A word of the window in scratchpad is read as it stands; a plain counter written by Gaffer firmware in IDLE holds the value, and
the debug port reads a counter where the window serves it. A step-rate report is shown and its steps counted, a write of STEPMIN restores 0xFFFF, a
fetched word is in the instruction buffer, an instruction in execution completes, and a starved program faults with 0x0301. -/
def Obligations.DebugCommands : Prop :=
  (∀ (s : State) (acc : Accessor) (c : Fin 96) (t : Nat), debugWriter acc = true → mayHalt s c.val = true →
    Answers (.haltreq acc c t) s (fun u => u.coreSt c.val = .halt ∧ (u.core c.val).memory = (s.core c.val).memory ∧ CoreOnly (s.at t) u c.val)) ∧
  (∀ (s : State) (acc : Accessor) (c : Fin 96) (t : Nat), debugWriter acc = true → s.coreSt c.val = .halt →
    exec (.resume acc c t) s = .next (syncTpstat (headChecks (((s.at t).setCore c.val { s.core c.val with haltPoint := none, since := max s.now t }).setCoreSt
      c.val .run) c.val) c.val)) ∧
  (∀ (s : State) (acc : Accessor) (c : Fin 96) (t : Nat), debugWriter acc = true → restartAbsorbed s c.val = false →
    exec (.restartreq acc c t) s = .next (startReset 1 c.val 11 false (s.at t))) ∧
  (∀ (s : State) (c : Fin 96) (t : Nat) (k : Fin 5), mayHalt s c.val = true → s.regBit (Reg.coreTpbrk c.val) 27 = true →
    s.regFld (Reg.coreTpbrk c.val) 24 3 = k.val → ((s.core c.val).stream k.val).ended = false →
    s.nextWord c.val k.val = s.regFld (Reg.coreTpbrk c.val) 0 24 →
    Answers (.breakpointHit c t) s (fun u => u.coreSt c.val = .halt ∧ (u.core c.val).memory = (s.core c.val).memory ∧ CoreOnly (s.at t) u c.val)) ∧
  (∀ (s : State) (acc : Accessor) (c : Fin 96) (k : BitVec 3) (ph : Phys) (b : BitVec 128), debugWriter acc = true → s.coreSt c.val = .halt →
    unlocked s 0 = true → k.toNat < 5 → headWord s c.val k.toNat = some (some b) →
    exec (.tpstep acc c k ph) s = .next (moveHaltPoint (stepHead s c k.toNat ph b.toNat) c.val)) ∧
  (∀ (s : State) (c : Fin 96), s.coreSt c.val = .halt → shadowRun s c.val = false → (s.core c.val).flight = [] →
    exec (.debugHaltPoint c) s = .next (s.setCore c.val { s.core c.val with haltPoint := some (nextWords s c.val) })) ∧
  (∀ (s : State) (acc : Accessor) (c : Fin 96) (word : BitVec 18), windowServes s acc c.val false = true → 64 * word.toNat < 0x600000 →
    (s.core c.val).spBadIn (64 * word.toNat) 64 = none →
    Answers (.coreWindowAccess acc c word ⟨none, .clean⟩) s (fun u =>
      u.fab.lastResp = some ⟨0x64, 0, false, (s.core c.val).spRead (64 * word.toNat) 64, 0#32⟩ ∧ u = { s with fab := u.fab })) ∧
  (∀ (s : State) (who : Ident) (c : Fin 96) (n : Fin 2048) (v : BitVec 32), who.val = 16 → s.coreSt c.val = .idle → n.val < 1920 →
    Answers (.coreSyncWrite (.ident who) c n (some v)) s (fun u => u.regFld (Reg.coreSync c.val n.val) 0 32 = v.toNat ∧
      OnlyRegs s u [Reg.coreSync c.val n.val])) ∧
  (∀ (s : State) (c : Fin 96) (n : Fin 2048), windowServes s .debugPort c.val false = true →
    exec (.coreSyncWrite .debugPort c n none) s = .next (debugSyncRead s c.val n.val)) ∧
  (∀ (s : State) (c : Fin 96) (steps : BitVec 20) (cap : BitVec 15) (t : Nat), s.coreSt c.val ≠ .off → s.coreSt c.val ≠ .reset → s.coreSt c.val ≠ .disabled →
    Answers (.steprateUpdate c steps cap t) s (fun u => u.regFld (Reg.coreSteprate c.val) 0 16 = min 65535 (steps.toNat / 10) ∧
      u.regFld (Reg.coreSteprate c.val) 16 15 = cap.toNat ∧ u.reg (Reg.coreStepcnt c.val) = s.reg (Reg.coreStepcnt c.val) + BitVec.ofNat 64 steps.toNat ∧
      u.regFld (Reg.coreStepmin c.val) 0 16 = min (s.regFld (Reg.coreStepmin c.val) 0 16) cap.toNat)) ∧
  (∀ (s : State) (c : Fin 96), Answers (.stepminWrite c) s (fun u => u.regFld (Reg.coreStepmin c.val) 0 16 = 0xFFFF ∧ OnlyRegs s u [Reg.coreStepmin c.val])) ∧
  (∀ (s s1 : State) (c : Fin 96) (k : Fin 5) (index : BitVec 24) (ecc : MemEcc) (bs : List Byte), s.coreSt c.val = .run →
    mayFetch s c.val k.val index.toNat = true →
    devRead s (coreReq s c.val) ecc (s.regFld (Reg.coreTpimage c.val) 0 48 + (((s.core c.val).stream k.val).offset + index.toNat) * 16) 16 =
      (s1, .ok bs) →
    exec (.instructionFetch c k index ecc) s = .next (syncTpstat (headCheck ((s1.bump (Reg.corePortrd c.val) 16).setCore c.val
      { (s1.bump (Reg.corePortrd c.val) 16).core c.val with
        buf := freshWords (s1.bump (Reg.corePortrd c.val) 16) c.val ++ [(k.val * 2 ^ 24 + index.toNat, some (BitVec.ofNat 128 (leNat bs)))] })
      c.val k.val) c.val)) ∧
  (∀ (s : State) (c : Fin 96) (k : Fin 5) (word : BitVec 24), s.coreSt c.val = .run →
    Answers (.instrComplete c k word) s (fun u => CourseOnly s u c.val ∧
      u = completeInstrs s c.val k.val (fun f => decide (f.word = word.toNat) && decide (f.eng ≠ 6)))) ∧
  (∀ (s : State) (c : Fin 96), starved (replay s c.val) c.val = true → exec (.starvedFault c) s =
    .next (stepFaults (replay s c.val) c.val ((blockedStreams (replay s c.val) c.val).map (fun p =>
      (wEng p.2, (replay s c.val).nextWord c.val p.1, .plain 0x0301))))) ∧
  (∀ (s : State) (c : Fin 96) (p : Nat × Nat), (s.core c.val).debugLog = [] → starved s c.val = true →
    (blockedStreams s c.val).find? (fun p => (blockedStreams s c.val).all (fun q => decide (wEng p.2 ≤ wEng q.2))) = some p →
    Answers (.starvedFault c) s (fun u => u.coreSt c.val = .faulted ∧ u.regFld (Reg.coreFault c.val) 0 16 = 0x0301 ∧
      u.regFld (Reg.coreFault c.val) 16 3 = wEng p.2 % 8 ∧ u.regFld (Reg.coreFault c.val) 32 32 = s.nextWord c.val p.1 ∧ CourseOnly s u c.val))

/-- Pages, sequences, walks and notices have their effects. A walk with room in the tracker leaves its answer there, and its response is taken;
pages handed back go to the scrub once the programs they wait for have settled, and a page whose scrub writes all complete is free, one whose scrub
is poisoned stays in the scrub, and a page outside the scrub is left alone; an uncorrectable page table marks its live sequence; the five operations
of the port, from Gaffer firmware with no operation in progress and passing their tests, take effect and report code 0 in CULLET_OPSTAT (SETSEG
changes nothing else but how long the port is busy), and while one is in progress a write of the port is dropped with CFGREF; a pool write from
partition 0 or Gaffer firmware outside the lock is made, and (the model's choice, log entry 17) a page still waiting for its scrub is scrubbed by
it; commit, discard, rollback and cancellation notices act on the command they name. -/
def Obligations.CulletCommands : Prop :=
  (∀ (s : State) (c : Fin 96) (tag : BitVec 12) (h : BitVec 10) (pos : BitVec 16) (npos : BitVec 9) (pad : Bool) (bs : List Byte) (ts : List Target),
    trackRoom s (c.val / 24) c.val 0 tag.toNat = true → portPauses s c.val = false → walkPath s c.val (h.toNat / 256) = some ts →
    (∀ x ∈ ts, s.fab.fences.contains x = false) →
    (walkAt s h.toNat (s.cmdPart c.val) (s.cmdOwner c.val) pos.toNat npos.toNat pad).2 = .ok bs →
    exec (.walk c tag h pos npos pad) s =
      .next (pushTrack (walkAt s h.toNat (s.cmdPart c.val) (s.cmdOwner c.val) pos.toNat npos.toNat pad).1
        ⟨c.val, tag.toNat, c.val / 24, ts, 3, s.cmdClass c.val, false, bs, false, false, sourceDl s c.val (some (s.cmdOwner c.val)),
          s.cmdPart c.val, 0, 0⟩)) ∧
  (∀ (s : State) (c : Fin 96) (tag : BitVec 12), exec (.walkrsp c tag) s = .next (answer s c.val tag.toNat)) ∧
  (∀ (s : State) (k : Fin 4), Answers (.pageReturn k) s (fun u => (∀ p os, (p, PageSt.waiting os) ∈ (s.cull k.val).pages → os.all (settled s) = true →
      (p, PageSt.scrub) ∈ (u.cull k.val).pages) ∧ (u.cull k.val).pages.length = (s.cull k.val).pages.length ∧ u.mem = s.mem)) ∧
  (∀ (s s1 : State) (k : Fin 4) (page : BitVec 20), sget PageSt.free (s.cull k.val).pages page.toNat = .scrub →
    mapHolds s = false → scrubPage s k.val page.toNat = (s1, none) →
    Answers (.poolPageScrubbed k page) s (fun u => sget PageSt.free (u.cull k.val).pages page.toNat = .free ∧ u.mem = s1.mem)) ∧
  (∀ (s s1 : State) (k : Fin 4) (page : BitVec 20) (p : Poison), sget PageSt.free (s.cull k.val).pages page.toNat = .scrub →
    mapHolds s = false → scrubPage s k.val page.toNat = (s1, some p) →
    exec (.poolPageScrubbed k page) s = .next s1) ∧
  (∀ (s : State) (k : Fin 4) (page : BitVec 20), sget PageSt.free (s.cull k.val).pages page.toNat ≠ .scrub →
    exec (.poolPageScrubbed k page) s = .next s) ∧
  (∀ (s : State) (k : Fin 4) (q : Fin 256), seqLive s k.val q.val = true →
    Answers (.pageTableUncorrectable k q) s (fun u => u.regBit (Reg.culletSeqcfg k.val q.val) 1 = true ∧
      u.regBit (Reg.culletStatus k.val) 10 = true ∧ u.faultRecord = s.faultRecord ++ [⟨0x080D, k.val, s.frmcnt⟩] ∧
      (∀ o, o ≠ Reg.culletSeqcfg k.val q.val → o ≠ Reg.culletStatus k.val → u.reg o = s.reg o))) ∧
  (∀ (s : State) (who : Ident) (k : Fin 4) (part : Fin 16) (i : Nat), who.val = 16 → opBusy s k.val = false → (List.range 256).find? (fun i => !seqLive s k.val i) = some i →
    (geometryOf (s.reg (Reg.culletOparg k.val))).ok = true → (geometryOf (s.reg (Reg.culletOparg k.val))).pageBytes ≤ poolPageSize s k.val →
    Answers (.createSeq who k part) s (fun u => seqLive u k.val i = true ∧ seqPart u k.val i = part.val ∧ seqLc u k.val i = 0 ∧ seqLr u k.val i = 0 ∧
      u.reg (Reg.culletSeqseg k.val i) = 0#64 ∧ u.regFld (Reg.culletSeqcfg k.val i) 8 28 = s.regFld (Reg.culletOparg k.val) 8 28 ∧
      u.regFld (Reg.culletOpstat k.val) 0 16 = 0 ∧ u.regFld (Reg.culletOpstat k.val) 32 32 = k.val * 256 + i ∧
      (∀ j, j < 256 → j ≠ i → u.reg (Reg.culletSeqcfg k.val j) = s.reg (Reg.culletSeqcfg k.val j) ∧
        u.reg (Reg.culletSeqlen k.val j) = s.reg (Reg.culletSeqlen k.val j)) ∧ u.mem = s.mem)) ∧
  (∀ (s : State) (who : Ident) (k : Fin 4) (part : Fin 16) (q : Fin 256), who.val = 16 → opBusy s k.val = false → seqLive s k.val q.val = true →
    seqPart s k.val q.val = part.val → seqRecs s k.val q.val = [] →
    Answers (.freeSeq who k part q) s (fun u => seqLive u k.val q.val = false ∧ u.regFld (Reg.culletOpstat k.val) 0 16 = 0 ∧
      (∀ j, j < 256 → j ≠ q.val → u.reg (Reg.culletSeqcfg k.val j) = s.reg (Reg.culletSeqcfg k.val j)))) ∧
  (∀ (s : State) (who : Ident) (k : Fin 4) (part : Fin 16) (q : Fin 256) (arg : BitVec 32), who.val = 16 → opBusy s k.val = false →
    seqCheck s k.val q.val part.val = none → seqRecs s k.val q.val = [] → arg.toNat ≤ seqLc s k.val q.val →
    Answers (.truncateSeq who k part q arg) s (fun u => seqLc u k.val q.val = arg.toNat ∧ seqLr u k.val q.val = arg.toNat ∧
      u.regFld (Reg.culletOpstat k.val) 0 16 = 0 ∧ u.reg (Reg.culletSeqcfg k.val q.val) = s.reg (Reg.culletSeqcfg k.val q.val))) ∧
  (∀ (s : State) (who : Ident) (k : Fin 4) (part : Fin 16) (q : Fin 256), who.val = 16 → opBusy s k.val = false →
    seqCheck s k.val q.val part.val = none → seqRecs s k.val q.val = [] →
    segsOk 0 ((List.range 4).map (fun j => s.regFld (Reg.culletOparg k.val) (16 * j) 16)) = true →
    Answers (.setseg who k part q) s (fun u => u.reg (Reg.culletSeqseg k.val q.val) = s.reg (Reg.culletOparg k.val) ∧
      u.regFld (Reg.culletOpstat k.val) 0 16 = 0 ∧ (∀ o, o ≠ Reg.culletSeqseg k.val q.val → o ≠ Reg.culletOpstat k.val → u.reg o = s.reg o) ∧
      u.cull k.val = { s.cull k.val with busyUntil := (u.cull k.val).busyUntil } ∧ (∀ j : Fin 4, j ≠ k → u.cull j.val = s.cull j.val) ∧
      u = { s with regs := u.regs, cullet := u.cullet })) ∧
  (∀ (s s1 : State) (who : Ident) (k : Fin 4) (part : Fin 16) (arg : BitVec 32) (ecc : MemEcc) (bs : List Byte), who.val = 16 → opBusy s k.val = false →
    (∀ i, i < 256 → seqLive s k.val i = true → bitsOf arg.toNat 0 6 < (geom s k.val i).tbase ∨
      (geom s k.val i).tbase + (geom s k.val i).nkv ≤ bitsOf arg.toNat 0 6) →
    s.regFld (Reg.culletOparg k.val) 0 48 % 64 = 0 → s.regFld (Reg.culletOparg k.val) 0 48 + 4096 ≤ 0x2000000000 →
    devRead s ⟨0x60 + k.val, 20, false, 2, none⟩ ecc (s.regFld (Reg.culletOparg k.val) 0 48) 4096 = (s1, .ok bs) →
    (∀ j, j < 2048 → badBias (leAt bs (2 * j) 2) = false) →
    Answers (.loadbias who k part arg ecc) s (fun u => u.regFld (Reg.culletOpstat k.val) 0 16 = 0 ∧
      u.regBit (Reg.culletBtflags k.val) (bitsOf arg.toNat 0 6) = decide (bitsOf arg.toNat 8 1 = 1) ∧
      (∀ j, j < 2048 → sget 0#16 (u.cull k.val).bias (2048 * bitsOf arg.toNat 0 6 + j) = BitVec.ofNat 16 (leAt bs (2 * j) 2)))) ∧
  (∀ (s : State) (who : Ident) (k : Fin 4) (cfg : Bool) (v : BitVec 64), mgmt who = true →
    locked s (if cfg then Reg.culletPoolcfg k.val else Reg.culletPoolbase k.val) = false →
    (∀ i, i < 256 → seqLive s k.val i = false) →
    (if cfg then poolOk (s.reg (Reg.culletPoolbase k.val)).toNat (poolFields cfg v.toNat).toNat
      else poolOk (poolFields cfg v.toNat).toNat (s.reg (Reg.culletPoolcfg k.val)).toNat) = true →
    unscrubbed s k.val = [] →
    Answers (.poolConfigWrite who k cfg v) s (fun u => u.reg (if cfg then Reg.culletPoolcfg k.val else Reg.culletPoolbase k.val) = poolFields cfg v.toNat ∧
      (u.cull k.val).pages = [] ∧ u.mem = s.mem)) ∧
  (∀ (s : State) (who : Ident) (k : Fin 4) (cfg : Bool) (v : BitVec 64) (p : Nat), mgmt who = true →
    locked s (if cfg then Reg.culletPoolcfg k.val else Reg.culletPoolbase k.val) = false →
    (∀ i, i < 256 → seqLive s k.val i = false) →
    (if cfg then poolOk (s.reg (Reg.culletPoolbase k.val)).toNat (poolFields cfg v.toNat).toNat
      else poolOk (poolFields cfg v.toNat).toNat (s.reg (Reg.culletPoolcfg k.val)).toNat) = true →
    unscrubbed s k.val = [p] →
    Answers (.poolConfigWrite who k cfg v) s (fun u => u.reg (if cfg then Reg.culletPoolcfg k.val else Reg.culletPoolbase k.val) = poolFields cfg v.toNat ∧
      (u.cull k.val).pages = [] ∧ u.mem = (scrubPage s k.val p).1.mem)) ∧
  (∀ (s : State) (who : Ident) (k : Fin 4) (part : Fin 16) (q : Fin 256) (arg : BitVec 32), who.val = 16 → opBusy s k.val = true →
    exec (.createSeq who k part) s = .next (portRefused s k.val) ∧ exec (.freeSeq who k part q) s = .next (portRefused s k.val) ∧
    exec (.truncateSeq who k part q arg) s = .next (portRefused s k.val) ∧ exec (.setseg who k part q) s = .next (portRefused s k.val)) ∧
  (∀ (s : State) (c : Fin 96) (part : Fin 16) (seq : BitVec 32),
    exec (.commitNotice c part seq) s = .next (retrySignals (commitRecord s c.val (cmdKey part.val seq.toNat)) c.val) ∧
    exec (.discardNotice c part seq) s = .next (retrySignals (discardRecord s c.val (cmdKey part.val seq.toNat)) c.val)) ∧
  (∀ (s : State) (part : Fin 16) (seq : BitVec 32),
    exec (.rollback part seq) s = .next (rollbackNow s (cmdKey part.val seq.toNat)) ∧
    exec (.cancellationNotice part seq) s = .next (rollbackNow (dropStaged s (cmdKey part.val seq.toNat)) (cmdKey part.val seq.toNat)))

/-- Signatures, selection, watchdog, comparator test and supervision have their effects. While crucible 0 is out of reset a signature message with a
good checksum and room among the unmatched ones is held for its run's comparison, and a run report joins those of Lehr A; at the decision time the
frame is selected; a kick of the current frame from a stage's own source and a stage's close are judged; a comparator test is counted, its first
pass sets CMPPASS and its third failure in a row CMPFAIL; a silent die and a lost heartbeat restart their domain, a token missed sets RINGBRK with
the place of its node in the ring, Gaffer firmware's heartbeat sets HOSTOK, and a read of LEHRA_EVLOG answers the oldest event and removes it. -/
def Obligations.LehrACommands : Prop :=
  (∀ (s : State) (t : Nat) (m : SigMsg) (ms : List SigMsg), s.sigOut = m :: ms → crucDown s 0 = false → s.lehrB.lehrARuns = true → unmatched s < 16384 →
    exec (.sig true t) s = .next (tryCompare { s with now := max s.now t, sigOut := ms, lehrA := { s.lehrA with sigs := s.lehrA.sigs ++ [m] } }
      (cmdKey m.part m.seq) m.prog)) ∧
  (∀ (s s1 : State) (t : Nat) (m : SigMsg) (ms : List SigMsg), s.sigOut = m :: ms → crucDown s 0 = false → s.lehrB.lehrARuns = true →
    s1 = { s with now := max s.now t, sigOut := ms, lehrA := { s.lehrA with lost := s.lehrA.lost ++ [⟨cmdKey m.part m.seq, m.prog, m.kind, 0x0602⟩] } } →
    exec (.sig false t) s = .next (tryCompare (s1.bump Reg.lehraSigbad 1) (cmdKey m.part m.seq) m.prog)) ∧
  (∀ (s : State) (t : Nat) (r : RunReport) (rs : List RunReport), s.bench.reports = r :: rs → s.lehrB.lehrARuns = true →
    exec (.runReport t) s = .next (tryCompare { s with now := max s.now t, bench := { s.bench with reports := rs }, lehrA := { s.lehrA with reports := s.lehrA.reports ++ [r] } } (cmdKey r.part r.seq) r.prog)) ∧
  (∀ (s : State) (t : Nat), s.regFld Reg.devFrmstart 0 64 + s.regFld Reg.lehraSelcfg 32 27 ≤ t →
    exec (.decisionTime t) s = .next (decideFrame (s.at t) s.frmcnt)) ∧
  (∀ (s : State) (who : Ident) (stage : BitVec 6) (t : Nat), who.val = 0 ∨ who.val = s.regFld (Reg.lehraWdsrc stage.toNat) 0 4 →
    wdSrc s stage.toNat = 0 → s.lehrB.lehrARuns = true → exec (.watchdogKick who stage (BitVec.ofNat 32 s.frmcnt) t) s = .next (violateEval (kickStage (s.at t) stage.toNat))) ∧
  (∀ (s : State) (who : Ident) (stage : BitVec 6) (frame : BitVec 32) (t : Nat), frame.toNat ≠ s.frmcnt → s.lehrB.lehrARuns = true →
    exec (.watchdogKick who stage frame t) s = .next ((s.at t).bump Reg.lehraWdstray 1)) ∧
  (∀ (s : State) (stage : BitVec 6) (t : Nat), s.regFld Reg.devFrmstart 0 64 + fld (wdCfg s stage.toNat) 27 27 ≤ t →
    s.lehrB.lehrARuns = true → exec (.watchdogClose stage t) s = .next (violateEval (closeStage (s.at t) stage.toNat))) ∧
  (∀ s : State, s.regBit Reg.lehraStat 1 = false → s.regBit Reg.lehraStat 2 = false → s.lehrB.lehrARuns = true →
    Answers (.comparatorTest true) s (fun u => u.regBit Reg.lehraStat 1 = true ∧ u.regBit Reg.lehraStat 2 = false ∧ u.lehrA.cmpFails = 0 ∧
      u.reg Reg.lehraCmptest = s.reg Reg.lehraCmptest + 1#64)) ∧
  (∀ s : State, s.regBit Reg.lehraStat 1 = false → s.regBit Reg.lehraStat 2 = false → s.lehrB.lehrARuns = true →
    Answers (.comparatorTest false) s (fun u => u.regBit Reg.lehraStat 1 = false ∧ u.regBit Reg.lehraStat 2 = decide (2 ≤ s.lehrA.cmpFails) ∧
      u.lehrA.cmpFails = s.lehrA.cmpFails + 1 ∧ u.reg Reg.lehraCmptest = s.reg Reg.lehraCmptest + 1#64)) ∧
  (∀ (s : State) (d : Fin 12) (t : Nat), s.lehrB.lehrARuns = true → s.lehrA.silent.contains (.die d) = false → inReset s (2, d.val) = false →
    exec (.dieHeartbeatTimeout (.die d) t) s = .next (startReset 2 d.val 10 false { ((s.at t).logLehrA 0x0610 0xFF s.frmcnt) with
      lehrA := { ((s.at t).logLehrA 0x0610 0xFF s.frmcnt).lehrA with silent := s.lehrA.silent ++ [.die d] } })) ∧
  (∀ (s : State) (k : Fin 4) (t : Nat), s.lehrB.lehrARuns = true → s.lehrA.silent.contains (.crucible k) = false → inReset s (3, k.val) = false →
    exec (.dieHeartbeatTimeout (.crucible k) t) s = .next (startReset 3 k.val 10 false { ((s.at t).logLehrA 0x0610 0xFF s.frmcnt) with
      lehrA := { ((s.at t).logLehrA 0x0610 0xFF s.frmcnt).lehrA with silent := s.lehrA.silent ++ [.crucible k] } })) ∧
  (∀ (s : State) (t : Nat), s.lehrB.lehrARuns = true →
    (s.lehrA.silent.contains .sensorDie = false → inReset s (4, 0) = false →
      exec (.dieHeartbeatTimeout .sensorDie t) s = .next (startReset 4 0 10 false { ((s.at t).logLehrA 0x0610 0xFF s.frmcnt) with
        lehrA := { ((s.at t).logLehrA 0x0610 0xFF s.frmcnt).lehrA with silent := s.lehrA.silent ++ [.sensorDie] } })) ∧
    (s.lehrA.silent.contains .hostDie = false → inReset s (blockDomain .hostDie) = false →
      exec (.dieHeartbeatTimeout .hostDie t) s = .next (hostSilent (s.at t)))) ∧
  (∀ (s : State) (seg : RingNode) (t : Nat), s.regBit Reg.lehraStat 5 = false → s.lehrB.lehrARuns = true →
    Answers (.ringTokenTimeout seg t) s (fun u => u.regBit Reg.lehraStat 5 = true ∧ u.regFld Reg.lehraStat 6 5 = ringIndex seg ∧
      (∀ o, o ≠ Reg.lehraStat → u.reg o = s.reg o) ∧
      u.lehrA.log = s.lehrA.log.push 256 none (evWord 0x060D 0xFF 8 s.frmcnt) 0)) ∧
  (∀ (s : State) (who : Ident) (t : Nat), who.val = 16 → s.lehrB.lehrARuns = true →
    Answers (.gafhbWrite who t) s (fun u => u.regBit Reg.lehraStat 4 = true ∧ u.lehrA.gafhb = max s.now t ∧ .hostDie ∉ u.lehrA.silent ∧
      (∀ o, o ≠ Reg.lehraStat → o ≠ Reg.lehrbStat → u.reg o = s.reg o))) ∧
  (∀ (s : State) (t : Nat), watchesHost s = true → s.lehrA.gafhb + 2000000 ≤ t →
    exec (.gafferHeartbeatTimeout t) s = .next (hostSilent (s.at t))) ∧
  (∀ s : State, Answers .lehraEvlogRead s (fun u => u.readData = s.lehrA.log.head ∧ u.lehrA.log = s.lehrA.log.pop ∧
      u = { s with readData := u.readData, lehrA := { s.lehrA with log := u.lehrA.log } }))

/-- The fallback block, the envelope check, the fallback plan and the watch between the Lehr dies have their effects. While Lehr B runs, an
acceptable block in its window is accepted and its plan begun, a radar packet's points join the radar obstacles of the last 50 ms, a committed plan
with no verdict is taken for checking and its verdict shown in LEHRB_VERDICT, a plan is computed without a block once FBLATE has passed, and a
computed plan is recorded and sent. A lost Lehr die is marked by the other and its heartbeat ends that; Lehr B drives FLT01 and keeps device time
after a take-over, and a restarted Lehr A takes it back. -/
def Obligations.LehrBCommands : Prop :=
  (∀ (s : State) (buf : Fin 2) (t : Nat) (b : FbBlock), s.lehrB.stoppedB = false → acceptBlock s (sget [] s.lehrB.window buf.val) = some b →
    Answers (.fallbackBlock buf t) s (fun u => u.lehrB = (planBegun { s with lehrB := { s.lehrB with block := some b } } b.frame).lehrB ∧
      u.reg Reg.lehrbBlkcnt = s.reg Reg.lehrbBlkcnt + 1#64 ∧ (∀ o, o ≠ Reg.lehrbBlkcnt → u.reg o = s.reg o))) ∧
  (∀ (s : State) (buf : Fin 2) (t : Nat), s.lehrB.stoppedB = false → sget [] s.lehrB.window buf.val ≠ [] →
    acceptBlock s (sget [] s.lehrB.window buf.val) = none →
    Answers (.fallbackBlock buf t) s (fun u => u.lehrB = s.lehrB ∧ u.regBit Reg.lehrbStat 5 = true ∧
      u.reg Reg.lehrbBlkrej = s.reg Reg.lehrbBlkrej + 1#64)) ∧
  (∀ (s : State) (port : Fin 2) (bs : List Byte) (t : Nat), s.lehrB.stoppedB = false → sget [] s.lehrB.radcal port.val ≠ [] →
    Answers (.radarPacket port bs t) s (fun u => (∀ p ∈ s.lehrB.radar, max s.now t ≤ p.1 + 50000000 → p ∈ u.lehrB.radar) ∧
      u = { s with now := max s.now t, lehrB := { s.lehrB with radar := u.lehrB.radar } })) ∧
  (∀ (s : State) (frame : BitVec 32) (t : Nat) (q : List Nat × Nat), (s.frameSel frame.toNat).plan = some q → (s.frameSel frame.toNat).verdict = none →
    s.lehrB.stoppedB = false → s.lehrB.lehrARuns = true →
    exec (.planCheckRequest frame t) s =
      .next { s with now := max s.now t, lehrB := { s.lehrB with check := some ((s.frameSel frame.toNat).frame, q.2) } }) ∧
  (∀ (s s1 s3 : State) (ecc : MemEcc) (t k addr : Nat) (v : VerdictRes), s.lehrB.check = some (k, addr) → s.lehrB.stoppedB = false → mapHolds s = false → unprogrammed s = false →
    (devRead (s.at t) lehrBReq ecc addr 512).1 = s1 → judge s1 k (devRead (s.at t) lehrBReq ecc addr 512).2.toOption = v → s3 = showVerdict s1 k v →
    s3.regFld Reg.lehrbVerdict 0 32 = k % 2 ^ 32 ∧ s3.regFld Reg.lehrbVerdict 32 2 = v.result.code % 4 ∧
      s3.regFld Reg.lehrbVerdict 36 4 = v.reason % 16 ∧ s3.regBit Reg.lehrbStat 1 = v.radarOnly ∧ s3.lehrB.check = none ∧
      exec (.envelopeVerdict ecc t) s = .next (evalFrame (setFrameSel s3 { s3.frameSel k with
        verdict := some v.result, refused := (s3.frameSel k).refused || decide (v.result = .fail) }) k)) ∧
  (∀ (s : State) (t k : Nat), lateFrame (s.at t) = some k → s.lehrB.planned.contains k = false → s.lehrB.planFor = none →
    s.lehrB.stoppedB = false → exec (.fallbackPlanLate t) s = .next (planBegun (s.at t) k)) ∧
  (∀ (s s1 s2 : State) (t k : Nat) (q : FbPlan), s.lehrB.planFor = some k → s.lehrB.stoppedB = false → mapHolds s = false →
    q = { makeFallback (s.at t) k with vnet := false } →
    devWrite { (s.at t).nextFresh with lehrB := { s.lehrB with planFor := none } } lehrBReq .clean (fbAddr s k) q.bytes = (s1, none) →
    s2 = { s1 with lehrB := { s1.lehrB with plans := q :: (s1.lehrB.plans.filter (fun x => decide (x.frame ≠ q.frame))).take 1 } } →
    exec (.fallbackPlanDone t) s =
      .next (planMessage (evalFrame (syncFbReady (kickFor s2 s2.frmcnt 3 (fun _ => true))) s2.frmcnt) q)) ∧
  (∀ (s : State) (t : Nat), s.lehrB.lehrARuns = true → s.regBit Reg.lehraStat 13 = false → exec (.lehrHeartbeatTimeout true t) s = .next (loseB (s.at t))) ∧
  (∀ (s : State) (t : Nat), s.lehrB.lehrARuns = true → s.lehrB.stoppedB = false → exec (.lehrHeartbeatTimeout false t) s = .next (loseA (s.at t))) ∧
  (∀ (s : State) (t : Nat), s.lehrB.lehrARuns = true →
    (s.lehrB.stoppedB = false → exec (.lockstepMismatch true t) s =
      .next (loseB { s with now := max s.now t, lehrB := { s.lehrB with stoppedB := true } })) ∧
    (s.lehrB.stoppedA = false → exec (.lockstepMismatch false t) s =
      .next (loseA { s with now := max s.now t, lehrB := { s.lehrB with stoppedA := true } }))) ∧
  (∀ (s : State) (t : Nat), s.lehrB.lehrARuns = false → s.lehrB.stoppedB = false → s.lehrB.handover = none →
    Answers (.lehraTakeover t) s (fun u => u.pins.flt01 = true ∧ u.regBit Reg.lehrbStat 4 = true ∧
      u.lehrB.handover = some (max s.now t, s.frmcnt) ∧ u.frame = s.frame ∧ (∀ o, o ≠ Reg.lehrbStat → u.reg o = s.reg o))) ∧
  (∀ (s : State) (t since x : Nat), s.lehrB.handover = some (since, x) → s.lehrB.lehrARuns = true → since + 100000 ≤ max s.now t →
    exec (.deviceTimeHandover t) s = .next { s with now := max s.now t, lehrB := { s.lehrB with handover := none } }) ∧
  (∀ (s : State) (t : Nat), s.lehrB.stoppedB = false → s.lehrB.lehrARuns = true →
    exec (.lehrHeartbeat true t) s = .next (releaseDomains { (((s.at t).setRegBit Reg.lehraStat 3 true).setRegBit Reg.lehraStat 13 false) with
      pins := { s.pins with flt00 := decide (s.unitState 115 = 2) } })) ∧
  (∀ (s : State) (t : Nat), s.lehrB.stoppedA = false → s.lehrB.stoppedB = false →
    Answers (.lehrHeartbeat false t) s (fun u => u.lehrB.lehrARuns = true ∧ u.lehrB.lostNotes = [] ∧ u.pins.flt01 = decide (s.unitState 114 = 2) ∧
      u.regBit Reg.lehrbStat 3 = true ∧ u.regBit Reg.lehrbStat 4 = false))

/-- Requests, their responses, fences and cache maintenance have their effects. A well-formed request of a requester with room in its tracker takes
its entry there with the access's outcome, and a response of its kind takes the entry out again; a CSR read or write that the region tables permit
is made. A target fenced takes no request until it is released, cache maintenance by Gaffer firmware shows BUSY until it ends, and a read of a
crucible's log answers its oldest event and removes it. -/
def Obligations.FabricCommands : Prop :=
  (∀ (s : State) (node : BitVec 8) (who : Ident) (tag : BitVec 12) (cls : BitVec 2) (addr : BitVec 48) (want : ReadFor) (ecc : CopyEcc)
    (cache : CacheEcc) (t : Nat) (o : Option Nat) (r : Req) (x : State × Bool × List Byte), 0 < want.len.toNat → want.len.toNat ≤ 128 →
    canIssue (s.at t) node.toNat tag.toNat addr.toNat want.len.toNat false want.agent = true → forCmd (s.at t) node.toNat who.val want.cmd = o →
    packetReq (s.at t) node.toNat who.val cls.toNat o = r → packetRead (s.at t) r (lineMeets addr ecc cache) addr.toNat want.len.toNat = x →
    exec (.rd node who tag cls addr want ecc cache t) s =
      .next (poisonRuns (s.at t) (trackReq (s.at t) x.1 r tag.toNat addr.toNat 0 want.agent o x.2.1 x.2.2))) ∧
  (∀ (s : State) (node : BitVec 8) (who : Ident) (tag : BitVec 12) (cls : BitVec 2) (addr : BitVec 48) (want : WriteFor) (data : List Byte) (t : Nat)
    (o : Option Nat) (r0 r : Req) (x : State × Bool), 0 < data.length → data.length ≤ 128 →
    canIssue (s.at t) node.toNat tag.toNat addr.toNat data.length false want.agent = true → forCmd (s.at t) node.toNat who.val want.cmd = o →
    packetReq (s.at t) node.toNat who.val cls.toNat o = r0 → (if want.staged then r0 else { r0 with owner := none }) = r →
    packetWrite (s.at t) r want.ecc addr.toNat data = x →
    stageWaits (s.at t) (poisonRuns (s.at t) (trackReq (s.at t) x.1 r tag.toNat addr.toNat 1 want.agent o x.2 [])) = false →
    exec (.wr node who tag cls addr want data t) s =
      .next (poisonRuns (s.at t) (trackReq (s.at t) x.1 r tag.toNat addr.toNat 1 want.agent o x.2 []))) ∧
  (∀ (s : State) (node : BitVec 8) (who : Ident) (tag : BitVec 12) (cls : BitVec 2) (addr : BitVec 48) (sq : BitVec 32) (tile : BitVec 88)
    (base : BitVec 48) (rows : BitVec 16) (data : List Byte) (t : Nat) (o : Option Nat) (r : Req) (x : State × Option Poison), 16 ≤ data.length →
    data.length ≤ 128 → data.length % 16 = 0 → canIssue (s.at t) node.toNat tag.toNat addr.toNat data.length false .collective = true →
    forCmd (s.at t) node.toNat who.val (some sq) = o → packetReq (s.at t) node.toNat who.val cls.toNat o = r →
    recReq (s.at t) r addr.toNat (leBytes 11 tile.toNat) base.toNat (rows.toNat + 1) data = x →
    stageWaits (s.at t) (trackReq (s.at t) x.1 r tag.toNat addr.toNat 1 .collective o x.2.isSome []) = false →
    exec (.recPacket node who tag cls addr sq tile base rows data t) s =
      .next (trackReq (s.at t) x.1 r tag.toNat addr.toNat 1 .collective o x.2.isSome [])) ∧
  (∀ (s : State) (node : BitVec 8) (tag : BitVec 12) (e : TrackEntry) (c : Instr),
    s.fab.track.find? (fun e => decide (e.node = node.toNat) && decide (e.tag = tag.toNat)) = some e → e.fenced = false → e.orphan = false →
    (c, e.kind) ∈ [(Instr.rdrsp node tag, 0), (Instr.wrack node tag, 1), (Instr.csrrsp node tag, 2)] →
    Answers c s (fun u => u.fab.lastResp = some ⟨node.toNat, tag.toNat, e.poisoned, e.data, e.dl⟩ ∧
      (∀ x ∈ u.fab.track, ¬ (x.node = node.toNat ∧ x.tag = tag.toNat)) ∧
      (∀ x ∈ s.fab.track, ¬ (x.node = node.toNat ∧ x.tag = tag.toNat) → x ∈ u.fab.track) ∧
      (∀ i, i ≠ 2 → u.regBit (Reg.crucStat e.cruc) i = s.regBit (Reg.crucStat e.cruc) i) ∧
      (∀ o, o ≠ Reg.crucTrk e.cruc → o ≠ Reg.crucStat e.cruc → u.reg o = s.reg o) ∧ u = { s with regs := u.regs, fab := u.fab })) ∧
  (∀ (s : State) (node : BitVec 8) (who : Ident) (tag : BitVec 12) (cls : BitVec 2) (off : BitVec 28) (want : CsrFor) (t : Nat) (r : Req) (j : State),
    (node.toNat = 0x64 → hostDieDown s = false) → canIssue (s.at t) node.toNat tag.toNat (csrAddr off.toNat) 1 true .collective = true →
    packetReq (s.at t) node.toNat who.val cls.toNat none = r → csrJudge (s.at t) r off.toNat false = (j, none) →
    exec (.csrrd node who tag cls off want t) s = .next (csrTrack (s.at t) (csrReadAt j who off.toNat want.wide) r off.toNat tag.toNat
      (forCmd (s.at t) node.toNat who.val want.cmd) false (leBytes (if want.wide then 8 else 4) (csrReadAt j who off.toNat want.wide).readData.toNat))) ∧
  (∀ (s : State) (node : BitVec 8) (who : Ident) (tag : BitVec 12) (cls : BitVec 2) (off : BitVec 28) (want : CsrFor) (v : BitVec 64) (t : Nat)
    (r : Req) (j : State), (node.toNat = 0x64 → hostDieDown s = false) →
    canIssue (s.at t) node.toNat tag.toNat (csrAddr off.toNat) 1 true .collective = true →
    packetReq (s.at t) node.toNat who.val cls.toNat none = r → csrJudge (s.at t) r off.toNat true = (j, none) →
    exec (.csrwr node who tag cls off want v t) s =
      .next (csrTrack (s.at t) (csrWriteAt j (writerOf (.ident who)) off.toNat want.wide v.toNat t) r off.toNat tag.toNat
        (forCmd (s.at t) node.toNat who.val want.cmd) false [])) ∧
  (∀ (s : State) (acc : Accessor) (off : BitVec 28) (wide : Bool) (v : BitVec 64) (t : Nat),
    exec (.csrWrite acc off wide v t) s = .next (csrWriteAt (s.at t) (writerOf acc) off.toNat wide v.toNat t)) ∧
  (∀ (s : State) (g : Target), Answers (.fenceTarget g) s (fun u => u.fab.fences.contains g = true ∧ (∀ x ∈ s.fab.fences, x ∈ u.fab.fences) ∧
      (∀ e ∈ u.fab.track, e.targets.contains g = true → e.fenced = true ∧ e.poisoned = true) ∧ u.fab.track.length = s.fab.track.length)) ∧
  (∀ (s : State) (g : Target), Answers (.targetRelease g) s (fun u => u.fab.fences = s.fab.fences.filter (fun x => decide (x ≠ g)) ∧
      (∀ e ∈ s.fab.track, e.fenced = false → e ∈ u.fab.track) ∧ u = { s with regs := u.regs, fab := u.fab })) ∧
  (∀ (s : State) (who : Ident) (k : Fin 4), who.val = 16 → s.regBit (Reg.crucCmstat k.val) 0 = false →
    Answers (.clean who k) s (fun u => u.regBit (Reg.crucCmstat k.val) 0 = true ∧ OnlyRegs s u [Reg.crucCmstat k.val]) ∧
    Answers (.cleanInv who k) s (fun u => u.regBit (Reg.crucCmstat k.val) 0 = true ∧
      (∀ e ∈ u.cache, e.1 / 32768 / 24 = k.val → lineStaged s (e.2 - 1) = true) ∧
      (∀ e ∈ s.cache, e.1 / 32768 / 24 ≠ k.val ∨ lineStaged s (e.2 - 1) = true → e ∈ u.cache) ∧
      (∀ o, o ≠ Reg.crucCmstat k.val → u.reg o = s.reg o) ∧ u = { s with regs := u.regs, cache := u.cache })) ∧
  (∀ (s : State) (k : Fin 4), Answers (.cacheMaintDone k) s (fun u => u.regBit (Reg.crucCmstat k.val) 0 = false ∧ OnlyRegs s u [Reg.crucCmstat k.val])) ∧
  (∀ (s : State) (k : Fin 4), Answers (.crucEvlogRead k) s (fun u => u.readData = (sget EvLog.empty s.fab.logs k.val).head ∧
      sget EvLog.empty u.fab.logs k.val = (sget EvLog.empty s.fab.logs k.val).pop ∧
      u.reg (Reg.crucEvaddr k.val) = BitVec.ofNat 64 (sget EvLog.empty s.fab.logs k.val).pop.headAddr ∧
      (∀ i, i ≠ k.val → sget EvLog.empty u.fab.logs i = sget EvLog.empty s.fab.logs i) ∧ (∀ o, o ≠ Reg.crucEvaddr k.val → u.reg o = s.reg o)))

/-- Link words, modules and vertical ports have their effects. A new packet that the credits, the retry buffer and the layout admit, arriving whole
on a link that is up, is delivered in order; a malformed request is counted and answered poisoned. ACK takes the packets it names out of the retry
buffer, the NAK that the receiver sent starts a replay, CREDIT records the freed words and IDLE changes nothing; a wait of 2 µs starts a replay too,
and the sixteenth that fails with a silent sideband is fatal. A module that trains, narrows, fails, recovers or times out goes to the state of R478,
its undelivered packets go over the other modules, and a vertical port's recovery ends ACTIVE again, halved, or with its core quarantined. -/
def Obligations.LinkCommands : Prop :=
  (∀ (s : State) (l : Fin 122) (up : Bool) (h : PacketHead) (extOk : Bool) (t : Nat), linkUp s l.val = true →
    (s.link (linkKey l.val up)).next < 256 → (s.link (linkKey l.val up)).expect = (s.link (linkKey l.val up)).next → mayPush s l.val up h = true →
    (receiver l.val up = none ∨ packetOk h extOk = true) →
    Answers (.packetReceive l up (BitVec.ofNat 8 (s.link (linkKey l.val up)).next) h extOk true t) s (fun u =>
      (u.link (linkKey l.val up)).expect = ((s.link (linkKey l.val up)).next + 1) % 256 ∧
      (u.link (linkKey l.val up)).next = ((s.link (linkKey l.val up)).next + 1) % 256 ∧
      (u.link (linkKey l.val up)).unacked = (s.link (linkKey l.val up)).unacked ++
        [⟨(s.link (linkKey l.val up)).next, packetWords h, packetVc s h, h.node.toNat, h.tag.toNat, packetHash h⟩] ∧
      (∀ k, k ≠ linkKey l.val up → u.link k = s.link k) ∧
      u = { s with now := max s.now t, fab := { s.fab with links := u.fab.links, layout := u.fab.layout } })) ∧
  (∀ (s : State) (l : Fin 122) (up : Bool) (sq : BitVec 8) (crc : BitVec 16), wordOk 0x81 sq.toNat 0 crc = true →
    (∃ p ∈ (s.link (linkKey l.val up)).unacked, p.sq = sq.toNat) → (∀ p ∈ undelivered (s.link (linkKey l.val up)), p.sq ≠ sq.toNat) →
    Answers (.ack l up sq crc) s (fun u =>
      (∃ pre e, (s.link (linkKey l.val up)).unacked = pre ++ e :: (u.link (linkKey l.val up)).unacked ∧ e.sq = sq.toNat ∧ ∀ x ∈ pre, x.sq ≠ sq.toNat) ∧
      (∀ k, k ≠ linkKey l.val up → u.link k = s.link k) ∧ u.regs = s.regs)) ∧
  (∀ (s : State) (l : Fin 122) (up : Bool) (sq : BitVec 8) (crc : BitVec 16) (t : Nat), wordOk 0x82 sq.toNat 0 crc = true →
    (s.link (linkKey l.val up)).nak = some sq.toNat →
    exec (.nak l up sq crc t) s = .next (startReplay ((s.at t).setLink (linkKey l.val up)
      { ackTo (s.link (linkKey l.val up)) sq.toNat (max s.now t) with nak := none }) l.val (linkKey l.val up))) ∧
  (∀ (s : State) (l : Fin 122) (up : Bool) (vc : Fin 6) (total crc : BitVec 16), wordOk 0x83 vc.val total.toNat crc = true →
    Answers (.credit l up vc total crc) s (fun u => sget 0 (u.link (linkKey l.val up)).freed vc.val = total.toNat ∧
      (u.link (linkKey l.val up)).unacked = (s.link (linkKey l.val up)).unacked ∧ (∀ k, k ≠ linkKey l.val up → u.link k = s.link k) ∧
      u = { s with fab := { s.fab with links := u.fab.links } })) ∧
  (∀ (s : State) (l : Fin 122) (up : Bool), exec (.idle l up) s = .next s) ∧
  (∀ (s s1 : State) (l : Fin 122) (up : Bool) (t : Nat), (s.link (linkKey l.val up)).unacked ≠ [] → linkUp s l.val = true →
    (s.link (linkKey l.val up)).wait + 2000 ≤ max s.now t → s1 = startReplay (s.at t) l.val (linkKey l.val up) →
    exec (.replayTimeout l up true t) s = .next (setFails s1 (linkKey l.val up) 0) ∧
    (sget 0 s1.fab.replayFails (linkKey l.val up) < 16 ∨ 26 ≤ l.val → exec (.replayTimeout l up false t) s = .next s1) ∧
    (16 ≤ sget 0 s1.fab.replayFails (linkKey l.val up) → l.val < 26 →
      exec (.replayTimeout l up false t) s = .next (replayFatal s1 l.val (linkKey l.val up)))) ∧
  (∀ (s : State) (m : Fin 26) (t : Nat), mstate s m.val = 1 → exec (.laneMonitorFlag m t) s = .next (judgeModule (enterRecover (s.at t) m.val) m.val)) ∧
  (∀ (s : State) (m : Fin 26) (lanes : LaneReport), mstate s m.val = 0 →
    (exec (.moduleTrainingDone m .full lanes) s = .next (releaseDomains (judgeModule (activateLink (setLanes s m.val lanes) m.val) m.val))) ∧
    (∀ h, m.val < 24 → exec (.moduleTrainingDone m (.narrow h) lanes) s =
      .next (releaseDomains (judgeModule (narrowTo (setLanes s m.val lanes) m.val h) m.val))) ∧
    exec (.moduleTrainingDone m .fail lanes) s = .next (releaseDomains (removeModule (setLanes s m.val lanes) m.val))) ∧
  (∀ (s s1 : State) (m : Fin 26) (lanes : LaneReport), mstate s m.val = 2 → s1 = clearLink (setLanes s m.val lanes) m.val →
    exec (.moduleRetrainDone m .full lanes) s = .next (releaseDomains (poisonRuns s (rescueBoth s
      (judgeModule ((activateLink s1 m.val).logCruc (linkCrucible m.val) 0x0506 0xFF 0 0) m.val) m.val))) ∧
    (∀ h, m.val < 24 → s1.fab.narrowed.contains m.val = false →
      exec (.moduleRetrainDone m (.narrow h) lanes) s =
        .next (releaseDomains (poisonRuns s (rescueBoth s (judgeModule (narrowTo s1 m.val h) m.val) m.val)))) ∧
    exec (.moduleRetrainDone m .fail lanes) s = .next (releaseDomains (poisonRuns s (rescueBoth s (removeModule s1 m.val) m.val)))) ∧
  (∀ (s : State) (m : Fin 26) (t : Nat), mstate s m.val = 2 → sget 0 s.fab.since m.val + 50000 ≤ t →
    exec (.recoverTimeout m t) s = .next (releaseDomains (poisonRuns (s.at t) (rescueBoth (s.at t) (removeModule (s.at t) m.val) m.val)))) ∧
  (∀ (s : State) (m : Fin 26) (lost : List (BitVec 8 × BitVec 12)) (t : Nat), mstate s m.val = 2 → sget 0 s.fab.since m.val + 2000 ≤ t →
    exec (.sidebandTimeout m lost t) s = .next (removeModule (poisonRuns (s.at t) (failPackets (s.at t) m.val
      (undelivered (s.link (2 * m.val)) ++ undelivered (s.link (2 * m.val + 1)) ++ lost.map (fun p => ⟨0, 0, 0, p.1.toNat, p.2.toNat, 0⟩)))) m.val)) ∧
  (∀ (s : State) (c : Fin 96) (spup spdn : BitVec 6) (badgrp : BitVec 5) (h : Bool),
    s.regFld (Reg.puntyVstat c.val) 0 2 = 2 ∨ s.regFld (Reg.puntyVstat c.val) 0 2 = 0 →
    Answers (.vportRecoverDone c .remapped spup spdn badgrp) s (fun u => u.regFld (Reg.puntyVstat c.val) 0 2 = 1 ∧
      u.regFld (Reg.puntyVstat c.val) 4 6 = min 44 spup.toNat ∧ u.regFld (Reg.puntyVstat c.val) 10 6 = min 44 spdn.toNat ∧
      u.regFld (Reg.puntyVstat c.val) 16 5 = badgrp.toNat ∧ OnlyRegs s u [Reg.puntyVstat c.val]) ∧
    Answers (.vportRecoverDone c (.half h) spup spdn badgrp) s (fun u => u.regFld (Reg.puntyVstat c.val) 0 2 = 1 ∧
      u.regBit (Reg.puntyVstat c.val) 2 = true ∧ u.regBit (Reg.puntyVstat c.val) 3 = h) ∧
    Answers (.vportRecoverDone c .lost spup spdn badgrp) s (fun u => u.regFld (Reg.puntyVstat c.val) 0 2 = 3 ∧ (u.core c.val).portLost = true)) ∧
  (∀ (s : State) (l : Fin 122) (up : Bool) (k : Nat) (h : PacketHead) (extOk : Bool) (t : Nat), linkUp s l.val = true →
    (s.link (linkKey l.val up)).next < 256 → (s.link (linkKey l.val up)).expect = (s.link (linkKey l.val up)).next → mayPush s l.val up h = true →
    receiver l.val up = some k → packetOk h extOk = false → packetResponds h = false →
    Answers (.packetReceive l up (BitVec.ofNat 8 (s.link (linkKey l.val up)).next) h extOk true t) s (fun u =>
      (u.link (linkKey l.val up)).expect = ((s.link (linkKey l.val up)).next + 1) % 256 ∧
      u.fab.lastResp = some ⟨h.node.toNat, h.tag.toNat % 4096, true, [], h.dl⟩ ∧
      u.reg (Reg.crucMalform k) = s.reg (Reg.crucMalform k) + 1 ∧ u.fab.track = s.fab.track))

/-- Doorbells, rings, entries and the host's memory window have their effects. While the host die is not in reset, a doorbell of the ring's own
function with a count in range is taken; a ring with its settings in range and its function enabled is RUNNING from zero counts, one turned off
drains, and a failed read or record puts it in ERROR; an entry consumed goes live or is refused; reads and writes of the window give what device
memory gives; a function's reset and the enabling of a virtual function have their effects. -/
def Obligations.HostCommands : Prop :=
  (∀ (s : State) (fn : Fin 16) (ring : Fin 256) (page : BitVec 12) (v : BitVec 32), hostDieDown s = false → fn.val = ringOwner s ring.val →
    (countDiff v.toNat (sqHead s ring.val) ≤ sqSize s ring.val → newer32 (sqTail s ring.val) v.toNat = false →
      Answers (.sqTailDoorbell fn ring ⟨0#12, true⟩ (some v)) s (fun u => sqTail u ring.val = v.toNat ∧ OnlyRegs s u [Reg.bomusSqtail ring.val])) ∧
    (countDiff v.toNat (cqHead s ring.val) ≤ cqSize s ring.val → countDiff (cqTail s ring.val) v.toNat ≤ cqSize s ring.val →
      Answers (.cqHeadDoorbell fn ring ⟨8#12, true⟩ (some v)) s (fun u => cqHead u ring.val = v.toNat ∧ OnlyRegs s u [Reg.bomusCqhead ring.val])) ∧
    (page ≠ 0#12 → page ≠ 8#12 → exec (.sqTailDoorbell fn ring ⟨page, true⟩ (some v)) s = .next s) ∧
    exec (.sqTailDoorbell fn ring ⟨page, true⟩ none) s = .next (hostAnswer s false (List.replicate 4 0#8)) ∧
    exec (.cqHeadDoorbell fn ring ⟨page, true⟩ none) s = .next (hostAnswer s false (List.replicate 4 0#8))) ∧
  (∀ (s : State) (who : Ident) (ring : Fin 256), ringWriter s who ring.val = true → ringSt s ring.val = 0 → hostDieDown s = false →
    (∀ i ∈ [6, 11], 4 ≤ s.regFld (Reg.bomusRcfg ring.val) i 5 ∧ s.regFld (Reg.bomusRcfg ring.val) i 5 ≤ 16) →
    fnEnabled s (ringOwner s ring.val) = true →
    Answers (.ringEnable who ring) s (fun u => ringSt u ring.val = 1 ∧ u.regBit (Reg.bomusRcfg ring.val) 0 = true ∧ sqHead u ring.val = 0 ∧
      sqTail u ring.val = 0 ∧ cqHead u ring.val = 0 ∧ cqTail u ring.val = 0 ∧ u.bench.lastSet.contains ring.val = false)) ∧
  (∀ (s : State) (who : Ident) (ring : Fin 256), ringWriter s who ring.val = true → ringSt s ring.val = 1 → hostDieDown s = false →
    Answers (.ringDisable who ring) s (fun u => u.regBit (Reg.bomusRcfg ring.val) 0 = false ∧
      ringSt u ring.val = (if ringCmds s ring.val = [] then 0 else 2) ∧ OnlyRegs s u [Reg.bomusRcfg ring.val, Reg.bomusRstat ring.val])) ∧
  (∀ (s : State) (ring : Fin 256), ringSt s ring.val = 1 → sqHead s ring.val ≠ sqTail s ring.val →
    exec (.entryReadError ring) s = .next (ringError (s.setRegBit (Reg.bomusRstat ring.val) 5 true) ring.val)) ∧
  (∀ (s : State) (ring : Fin 256), ringSt s ring.val = 1 ∨ ringSt s ring.val = 2 →
    exec (.recordWriteRefused ring) s = .next (ringError (s.setRegBit (Reg.bomusRstat ring.val) 6 true) ring.val)) ∧
  (∀ (s s1 : State) (ring : Fin 256) (entry : BitVec 512) (ecc : MemEcc) (t : Nat), mayConsume (s.at t) ring.val = true → turnOf (s.at t) ring.val = true →
    s1 = fetchEntry (s.at t) ring.val →
    earlyChecks s1 ring.val (leBytes 64 entry.toNat) = none →
    (runsPrograms (leAt (leBytes 64 entry.toNat) 0 1) = false → exec (.entryConsume ring entry ecc t) s =
      .next (goLive s1 ring.val (newCmd s1 ring.val (ringOwner s ring.val) (leBytes 64 entry.toNat) none []))) ∧
    (∀ s2 d args, runsPrograms (leAt (leBytes 64 entry.toNat) 0 1) = true →
      runChecks s1 (ringOwner s ring.val) (leBytes 64 entry.toNat) ecc = (s2, .ok (d, args)) → exec (.entryConsume ring entry ecc t) s =
        .next (goLive s2 ring.val (newCmd s2 ring.val (ringOwner s ring.val) (leBytes 64 entry.toNat) (some d) args)))) ∧
  (∀ (s s1 : State) (fn : Fin 16) (off : BitVec 36) (len : BitVec 12) (ecc : MemEcc) (bs : List Byte), hostDieDown s = false →
    mapHolds s = false → devRead s (hostReq fn.val 2 none) ecc (bar4Addr s fn.val off.toNat) (len.toNat + 1) = (s1, .ok bs) →
    exec (.bar4Read fn off len ecc) s = .next (hostAnswer s1 false bs)) ∧
  (∀ (s s1 : State) (fn : Fin 16) (off : BitVec 36) (bytes : List Byte), hostDieDown s = false → mapHolds s = false →
    devWrite s (hostReq fn.val 2 none) .clean (bar4Addr s fn.val off.toNat) bytes = (s1, none) → exec (.bar4Write fn off bytes) s = .next s1) ∧
  (∀ (s : State) (fn : Fin 16) (t : Nat), exec (.functionLevelReset fn t) s =
    .next (settleFunction ((resetFunction (startReset 6 fn.val 7 false (s.at t)) fn.val).bumpSat (Reg.pcieFnstat fn.val) 16 16) fn.val)) ∧
  (∀ (s : State) (fn : Fin 16), fn.val ≠ 0 →
    (Answers (.virtualFunctionEnable fn true) s (fun u => fnEnabled u fn.val = true ∧ u.bench = s.bench)) ∧
    (exec (.virtualFunctionEnable fn false) s = .next (syncRings ((resetFunction s fn.val).setRegBit (Reg.pcieFnstat fn.val) 0 false))))

/-- The operations of Bomus commands have their effects. A READY or RUNNING command's operation acts and ends with its status: NOP commits when it
may; ABORT cancels an abortable target of its partition; REGISTER_LAYER and UNREGISTER_LAYER add and remove a layer; COPY and FILL move their bytes;
SEQ_OP carries out the sequence operation; FRAME_RESULT reports the frame's selection; SENSOR_MGMT reads or writes its target; CONFIG_PROPOSE and
CONFIG_COMMIT judge and switch the configuration. -/
def Obligations.BomusOperations : Prop :=
  (∀ (s s1 : State) (part : Fin 16) (seq : BitVec 32) (t : Nat) (c d : Cmd), opCmd (s.at t) part.val seq.toNat 0x01 = some c →
    s1 = endOp (s.at t) c 0 0 → s1.cmd c.key = some d →
    exec (.nopCommand part seq t) s =   .next (if nextCommit s1 d.key then commitSteps s1 .clean d else s1)) ∧
  (∀ (s : State) (part : Fin 16) (seq : BitVec 32) (t : Nat) (c d : Cmd), opCmd (s.at t) part.val seq.toNat 0x02 = some c →
    ringOwner s (leAt c.entry 20 1) = c.part → (leAt c.entry 20 1 ≠ c.ring ∨ leAt c.entry 16 4 ≠ c.seq) →
    s.cmd (cmdKey c.part (leAt c.entry 16 4)) = some d → d.ring = leAt c.entry 20 1 → d.st ≠ .cancelling → abortable d = true →
    exec (.abort part seq t) s = .next (endOp (markCancel (cmdKey c.part (leAt c.entry 16 4)) 0x0111 (s.at t)) c 0 0)) ∧
  (∀ (s s1 : State) (part : Fin 16) (seq : BitVec 32) (ecc : MemEcc) (t : Nat) (c : Cmd) (d : KDesc), opCmd (s.at t) part.val seq.toNat 0x12 = some c →
    s.bench.layers.lookup (layerKey c.part c.layer) = none → s.bench.layers.length < 8192 →
    readDesc (s.at t) (hostReq c.part c.cls none) ecc c.kdesc = (s1, .ok d) →
    exec (.registerLayer part seq ecc t) s =
      .next (endOp { s1 with bench := { s1.bench with layers := s1.bench.layers ++ [(layerKey c.part c.layer, (c.kdesc, d))] } } c 0 0)) ∧
  (∀ (s : State) (part : Fin 16) (seq : BitVec 32) (t : Nat) (c : Cmd), opCmd (s.at t) part.val seq.toNat 0x13 = some c →
    s.bench.layers.lookup (layerKey c.part c.layer) ≠ none → layerNamed (s.at t) c = false →
    Answers (.unregisterLayer part seq t) s (fun u => u.bench.layers.lookup (layerKey c.part c.layer) = none ∧
      (∀ k, k ≠ layerKey c.part c.layer → u.bench.layers.lookup k = s.bench.layers.lookup k) ∧ u.mem = s.mem ∧ u.regs = s.regs)) ∧
  (∀ (s : State) (part : Fin 16) (seq : BitVec 32) (data : List Byte) (ecc : MemEcc) (sp : SpEcc) (t : Nat) (c : Cmd),
    opCmd (s.at t) part.val seq.toNat 0x20 = some c →
    (∀ s1, bitsOf (leAt c.entry 36 1) 0 2 = 0 → data.length = leAt c.entry 32 4 → s1 = (s.at t).toHost (.read c.part (leAt c.entry 16 8) data.length) →
      stageWaits (s.at t) (copyOut s1 c data) = false → exec (.copyBlock part seq data true ⟨ecc, sp⟩ t) s = .next (copyOut s1 c data)) ∧
    (∀ s1 bs ok, bitsOf (leAt c.entry 36 1) 0 2 ≠ 0 → (bitsOf (leAt c.entry 36 1) 0 2 = 1 → c.spec = false) →
      copyRead (s.at t) c ecc sp (leAt c.entry 16 8) (leAt c.entry 32 4) = (s1, .ok bs) → stageWaits (s.at t) (copyOut s1 c bs) = false →
      exec (.copyBlock part seq data ok ⟨ecc, sp⟩ t) s = .next (copyOut s1 c bs))) ∧
  (∀ (s s1 : State) (part : Fin 16) (seq : BitVec 32) (t : Nat) (c : Cmd), opCmd (s.at t) part.val seq.toNat 0x21 = some c →
    copyWrite (s.at t) c (leAt c.entry 24 8) ((List.range (leAt c.entry 32 4)).map (fun i => (sliceBytes c.entry 40 8).getD (i % 8) 0#8)) = (s1, none) →
    stageWaits (s.at t) (endOp s1 c 0 0) = false → exec (.fillBlock part seq t) s = .next (endOp s1 c 0 0)) ∧
  (∀ (s s1 : State) (part : Fin 16) (seq : BitVec 32) (ecc : MemEcc) (t k result : Nat) (c : Cmd), opCmd (s.at t) part.val seq.toNat 0x30 = some c →
    seqOperation (s.at t) c ecc = (s1, k, 0, result) →
    exec (.seqOp part seq ecc t) s = .next (endOp (opDone s1 k 0 result) c 0 (result % 1024))) ∧
  (∀ (s : State) (part : Fin 16) (seq : BitVec 32) (t : Nat) (c : Cmd) (x : Selection), opCmd (s.at t) part.val seq.toNat 0x40 = some c →
    (s.frameSel c.frame).sel = some x → x.source ≠ .none → exec (.frameResult part seq t) s = .next (resultOf (s.at t) c x)) ∧
  (∀ (s s1 : State) (part : Fin 16) (seq : BitVec 32) (ack : Bool) (data : List Byte) (ecc : MemEcc) (t : Nat) (c : Cmd),
    opCmd (s.at t) part.val seq.toNat 0x50 = some c → sensorPortUp (s.at t) (leAt c.entry 16 1) (leAt c.entry 17 1) = true →
    (leAt c.entry 16 1 % 2 = 1 → ack = true → data.length = leAt c.entry 24 2 →
      devWrite ((s.at t).toHost (.sensor (leAt c.entry 16 1) (leAt c.entry 17 1) (leAt c.entry 18 1) (leAt c.entry 19 1) (leAt c.entry 20 4)
        (leAt c.entry 24 2) [])) (hostReq 0 c.cls (some c.key)) .clean (leAt c.entry 32 8) data = (s1, none) →
      stageWaits (s.at t) (endOp s1 c 0 (leAt c.entry 24 2)) = false →
      exec (.sensorMgmt part seq ack data ecc t) s = .next (endOp s1 c 0 (leAt c.entry 24 2))) ∧
    (∀ bs, leAt c.entry 16 1 % 2 = 0 → (leAt c.entry 16 1 = 2 → ack = true) →
      devRead (s.at t) (hostReq 0 c.cls none) ecc (leAt c.entry 32 8) (leAt c.entry 24 2) = (s1, .ok bs) →
      exec (.sensorMgmt part seq ack data ecc t) s = .next (endOp (s1.toHost (.sensor (leAt c.entry 16 1) (leAt c.entry 17 1)
        (leAt c.entry 18 1) (leAt c.entry 19 1) (leAt c.entry 20 4) (leAt c.entry 24 2) bs)) c 0 0))) ∧
  (∀ (s : State) (part : Fin 16) (seq : BitVec 32) (ecc : MemEcc) (t : Nat) (c : Cmd), opCmd (s.at t) part.val seq.toNat 0x60 = some c →
    exec (.configPropose part seq ecc t) s = .next (propose (s.at t) c ecc (leAt c.entry 24 8))) ∧
  (∀ (s : State) (part : Fin 16) (seq : BitVec 32) (ecc : MemEcc) (reached : List (Fin 4 × BitVec 7)) (t : Nat) (c : Cmd),
    opCmd (s.at t) part.val seq.toNat 0x61 = some c → exec (.configCommit part seq ecc reached t) s =
      .next (commitConfig (s.at t) c ecc (leAt c.entry 24 8) (reached.map (fun r => (r.1.val + 1, r.2.toNat))) t))

/-- Commands become ready, run, commit, are pre-empted and cancelled. A waiting command whose firm conditions hold is READY once its frame has begun
and its predecessor has gone, a READY command starts, a run that ended, faulted or outlived its limit is settled, a command that may commit commits,
a spilled line lands, a victim is pre-empted, a command that waited its quantum is noted, a cancelled command's closure is formed and finished, time
in a run is charged, and a reheat slice that fits its window starts on the core whose last complete pass is oldest. -/
def Obligations.BenchCommands : Prop :=
  (∀ (s : State) (part : Fin 16) (seq : BitVec 32) (t : Nat) (c : Cmd), s.cmd (cmdKey part.val seq.toNat) = some c → c.st = .waiting →
    frameTooLate (s.at t) c = false → eventTooLate (s.at t) c = false → firmConditions (s.at t) c = true → frameBegun (s.at t) c = true → c.dep = none →
    exec (.commandReady part seq t) s = .next (markReady (s.at t) c)) ∧
  (∀ (s : State) (part : Fin 16) (seq : BitVec 32) (ecc : MemEcc) (t : Nat) (c : Cmd), s.cmd (cmdKey part.val seq.toNat) = some c → c.st = .ready →
    exec (.commandStart part seq ecc t) s = .next (if runsPrograms c.op then
      dispatchNext (s.at t) (fun d => decide (d.key = cmdKey part.val seq.toNat)) ecc else startOp (s.at t) c)) ∧
  (∀ (s s1 : State) (part : Fin 16) (seq : BitVec 32) (ecc : MemEcc) (t : Nat) (x : Cand) (k : Nat) (c d : Cmd) (i : Instr),
    (i, c.op) ∈ [(Instr.runLayer part seq ecc t, 0x10), (Instr.runKernel part seq ecc t, 0x11)] → nextRun (s.at t) = some (x, k) → x.cmd = c →
    c.key = cmdKey part.val seq.toNat → c.st = .ready → x.tie = none → s.cfg.switching = none → s1 = startCmd (s.at t) c →
    s1.cmd c.key = some d → d.st = .running → exec i s = .next (dispatchRun s1 x k ecc)) ∧
  (∀ (s : State) (core : Fin 96) (t : Nat) (c : Cmd) (r : ProgRun), endStands s core.val = true → runOn s core.val = some (c, r) → c.st = .running →
    reportFits s c r core.val = true → exec (.runEnd core t) s = .next (runEnded (s.at t) c r core.val)) ∧
  (∀ (s : State) (core : Fin 96) (t : Nat) (c : Cmd) (r : ProgRun), s.coreSt core.val = .faulted → runOn s core.val = some (c, r) →
    exec (.runFault core t) s = .next (killRuns (faultCmd (faultRun (s.at t) c r core.val) c r.prog core.val) c.key)) ∧
  (∀ (s s1 : State) (core : Fin 96) (t : Nat) (c : Cmd) (r : ProgRun), s1 = accrue (s.at t) core.val → (s1.core core.val).limit < (s1.core core.val).runTime →
    killReaches s1 core.val = true → runOn s1 core.val = some (c, r) →
    exec (.runLimitExpired core t) s =
      .next (killRuns (markCancel c.key 0x0110 ((killRun s1 c r core.val).bump (Reg.benchRunlimcnt (core.val / 8)) 1)) c.key)) ∧
  (∀ (s : State) (part : Fin 16) (seq : BitVec 32) (flip : FlipAt) (c : Cmd), s.cmd (cmdKey part.val seq.toNat) = some c →
    nextCommit (s.at flip.t) c.key = true →
    exec (.commitCommand part seq flip) s = .next (poisonRuns (s.at flip.t) (commitSteps (s.at flip.t) flip.ecc c))) ∧
  (∀ (s : State) (k : Fin 4) (p : Nat × Nat), s.bench.spillCopies.find? (fun p => decide (p.1 = k.val)) = some p →
    Answers (.spillCopyDone k) s (fun u => u.bench.spillCopies = s.bench.spillCopies.erase p ∧ u.mem = s.mem ∧
      u = { s with regs := u.regs, regul := u.regul, bench := { s.bench with spillCopies := u.bench.spillCopies } })) ∧
  (∀ (s : State) (t : Nat) (x : Cand) (v : Victim), unserved (s.at t) (preemptors (s.at t)) (freeing (s.at t)) = some x →
    firstVictim (s.at t) ((victims (s.at t)).filter (victimFor (s.at t) x)) = some v →
    exec (.preempt none t) s = .next (takeVictim (s.at t) v)) ∧
  (∀ (s : State) (k : Fin 4) (t : Nat) (v : Victim), allStalled (s.at t) k.val = true →
    firstVictim (s.at t) ((victims (s.at t)).filter (fun v => decide (3 ≤ tierOf (s.at t) v.cmd) && stagesAt (s.at t) v.cmd.key v.run.prog k.val)) = some v →
    exec (.preempt (some k) t) s = .next (preemptKill (s.at t) v.core)) ∧
  (∀ (s : State) (part : Fin 16) (seq : BitVec 32) (t : Nat) (c : Cmd), s.cmd (cmdKey part.val seq.toNat) = some c → c.st = .ready ∨ c.st = .running →
    (∃ r ∈ c.runs, r.st = .queued ∧ r.queuedAt + s.quantum ≤ t) → tierOf (s.at t) c = 3 → s.bench.quantum.contains (cmdKey part.val seq.toNat) = false →
    exec (.preemptQuantum part seq t) s =
      .next { s with now := max s.now t, bench := { s.bench with quantum := s.bench.quantum ++ [cmdKey part.val seq.toNat] } }) ∧
  (∀ (s : State) (core : Fin 96) (t : Nat), s.coreSt core.val = .run → s.regBit (Reg.coreTpckpt core.val) 50 = true ∨
    s.regBit (Reg.coreTpckpt core.val) 48 = true ∧ (s.core core.val).ckptSince + s.ckptWait ≤ t →
    exec (.checkpointWaitTimeout core t) s = .next (preemptKill (s.at t) core.val)) ∧
  (∀ (s : State) (part : Fin 16) (seq : BitVec 32) (t : Nat) (c : Cmd) (ms : List (Nat × Nat)), s.cmd (cmdKey part.val seq.toNat) = some c →
    c.st = .cancelling → c.member = false → ms = closureOf (8192 + s.bench.cmds.length) (s.at t) [c.key] [(c.key, c.reason)] →
    c.key = cmdKey part.val seq.toNat →
    exec (.cancellationClosure part seq t) s =
      .next (ms.foldl (fun s p => cancelMember s p.1) (ms.foldl (fun u p => markCancel p.1 (memberReason (s.at t) ms p) u) (s.at t)))) ∧
  (∀ (s : State) (part : Fin 16) (t : Nat), (∀ c ∈ s.bench.cmds, c.part = part.val → c.st = .cancelling → c.member = true) →
    (∀ c ∈ members (s.at t) part.val, settled (s.at t) c.key = true) →
    exec (.closureDone part t) s = .next (noteMet ((members (s.at t) part.val).foldl finishMember (s.at t)))) ∧
  (∀ (s : State) (core : Fin 96) (t : Nat), s.coreSt core.val = .run ∨ s.coreSt core.val = .ckpt →
    Answers (.accountingTick core t) s (fun u =>
      (u.core core.val).runTime = (s.core core.val).runTime + (max s.now t - (s.core core.val).since) ∧
      (u.core core.val).charged = (u.core core.val).runTime ∧ (u.core core.val).since = max s.now t ∧
      u.reg (Reg.devAcct (s.cmdPart core.val)) = s.reg (Reg.devAcct (s.cmdPart core.val)) +
        BitVec.ofNat 64 ((u.core core.val).runTime - (s.core core.val).charged))) ∧
  (∀ (s : State) (d : Fin 12) (t k : Nat), (List.range 16).any (sresBlocks (s.at t) d.val) = false → bestCore (fun k => [(s.reg (Reg.thermRht k)).toNat, k]) (reheatCores (s.at t) d.val) = some k →
    (∀ e, windowEnd (s.at t) d.val = some e → max s.now t + s.rhNeed ≤ e) → k < 96 →
    Answers (.reheatSliceStart d t) s (fun u => u.coreSt k = .reheat ∧ u.therm.slices = s.therm.slices ++ [k] ∧ (sget 0 u.therm.sliceEnds k) = max s.now t + sliceLength (s.at t) d.val k ∧
      u.reg (Reg.benchRhslice d.val) = s.reg (Reg.benchRhslice d.val) + 1#64)) ∧
  (∀ (s s1 : State) (ecc : MemEcc) (t : Nat) (a : TrigArmed) (rest : List TrigArmed), s.bench.triggers = a :: rest →
    s1 = { (s.at t) with bench := { (s.at t).bench with triggers := rest } } →
    (∀ s2 bs, devRead s1 (hostReq a.part 1 none) ecc a.addr 4 = (s2, .ok bs) → fireTrigger s1 ecc a =
      if a.kind = 1 then trackGo s2 a.frame (min 8191 (leNat bs))
      else if 1048575 < leNat bs then s2.logMarver 0x0709 0xFF a.frame else scatterGo s2 a.frame (leNat bs)) ∧
    (rest.any (fun b => decide (b.key = a.key)) = true → exec (.marverTriggerFire ecc t) s = .next (fireTrigger s1 ecc a)) ∧
    (∀ c, rest.any (fun b => decide (b.key = a.key)) = false → (fireTrigger s1 ecc a).cmd a.key = some c →
      exec (.marverTriggerFire ecc t) s =
        .next (if c.flipped then commitRecordOf (fireTrigger s1 ecc a) c else fireTrigger s1 ecc a)))

/-- Sensor ports and streams take what the sensors bring. A camera port trains to ACTIVE or counts its failures; a packet of an ACTIVE camera port
begins an image, ends it, or carries a line or a payload to the port's enabled streams, and a packet that is lost, too large or of an unknown type
is counted; an Ethernet frame in bounds reaches the stream it matches and any other is counted as dropped; an injected ring releases its next entry
once its time has come; a stream is enabled into ACQUIRE, or LOCKED without source time, with its servo at zero, and disabled into DISABLED; the
ring's write index moves within the ring, and a value beyond it or older is refused with INJOVR; a pose index not newer than the last takes no pose,
and a newer one takes every pose it publishes. (Device time moves to a command's time and never back: log entry 1.) -/
def Obligations.IngestCommands : Prop :=
  (∀ (s : State) (port : Fin 16) (ok : Bool), exec (.cameraPortTraining port ok) s = .next (releaseDomains (trainCamera s port.val ok)) ∧
    (s.regBit (Reg.marverCamcfg port.val) 0 = true → 1 ≤ s.regFld (Reg.marverCamcfg port.val) 1 3 → s.regFld (Reg.marverCamcfg port.val) 1 3 ≤ 5 →
      s.regFld (Reg.marverCamst port.val) 0 2 ≠ 2 → (sget (0, 0) s.marver.cams port.val).2 < 3 → (trainCamera s port.val true).regFld (Reg.marverCamst port.val) 0 2 = 2)) ∧
  (∀ (s : State) (port : Fin 16) (vc : Fin 32) (dt : BitVec 6) (data : List Byte) (hdrErr crcErr full : Bool) (t : Nat) (is img : List Nat),
    s.regBit (Reg.marverCamcfg port.val) 0 = true → s.regFld (Reg.marverCamst port.val) 0 2 = 2 → is = cameraStreams s port.val vc.val →
    img = is.filter (fun i => decide (streamPayload s i = 0)) →
    (hdrErr = true ∨ crcErr = true → exec (.csi2Packet port vc dt data hdrErr crcErr full t) s = .next (csiLost (s.at t) port.val is false t dt.toNat)) ∧
    (exec (.csi2Packet port vc dt data false false true t) s =
      .next (csiLost (if dt = 0#6 then img.foldl (fun s i => imageBegin s i t) (s.at t) else s.at t) port.val is true t dt.toNat)) ∧
    (dt = 0#6 → exec (.csi2Packet port vc dt data false false false t) s = .next (img.foldl (fun s i => imageBegin s i t) (s.at t))) ∧
    (dt = 1#6 → exec (.csi2Packet port vc dt data false false false t) s = .next (img.foldl imageEnd (s.at t))) ∧
    (∀ b, 4 ≤ dt.toNat → csiBits dt.toNat = some b → tooLarge (s.at t) img dt.toNat b data = false →
      exec (.csi2Packet port vc dt data false false false t) s = .next (is.foldl (fun s i => csiLine s i dt.toNat t data) (s.at t)))) ∧
  (∀ (s : State) (port : Fin 8) (frame : List Byte) (t i : Nat), s.regFld (Reg.marverEthst port.val) 0 2 = 2 →
    (60 ≤ frame.length ∧ frame.length ≤ 9212 → (ethInfo frame).etype ≠ 0x8808 → (ethInfo frame).etype ≠ 0x88F7 →
      (List.range 64).find? (ethMatches s port.val (ethInfo frame)) = some i → exec (.ethFrameReceive port frame true false t) s =
        .next (packetArrive (s.at t) i (t - s.regFld (Reg.marverEthcfg port.val) 8 12) frame (ethInfo frame).data)) ∧
    (∀ full, exec (.ethFrameReceive port frame false full t) s = .next (ethDrop (s.at t) port.val)) ∧
    (∀ full, frame.length < 60 ∨ 9212 < frame.length → exec (.ethFrameReceive port frame true full t) s = .next (ethDrop (s.at t) port.val))) ∧
  (∀ (s s1 s2 : State) (stream : Fin 64) (ecc : MemEcc) (t : Nat) (e bs : List Byte), streamOn s stream.val = true → streamKind s stream.val = 3 →
    s.regFld (Reg.marverSslot stream.val) 32 32 ≠ s.regFld (Reg.marverInjrd stream.val) 0 32 →
    devRead (s.at t) marverReq ecc (s.regFld (Reg.marverSmatch stream.val) 6 42 * 64 +
      s.regFld (Reg.marverInjrd stream.val) 0 32 % 2 ^ s.regFld (Reg.marverSmatch stream.val) 48 4 * 32) 32 = (s1, .ok e) →
    leAt e 28 4 = crc32c (e.take 28) → leAt e 20 1 = 1 ∨ leAt e 20 1 = 2 → 1 ≤ leAt e 16 4 ∧ leAt e 16 4 ≤ 16777216 →
    (max s.now t < leAt e 0 8 → exec (.injectedEntryRelease stream ecc t) s = .next (s.at t)) ∧
    (leAt e 0 8 ≤ max s.now t → devRead s1 marverReq .clean (leAt e 8 8) (leAt e 16 4) = (s2, .ok bs) →
      exec (.injectedEntryRelease stream ecc t) s =
        .next ((injectPayload s2 stream.val (leAt e 20 1) (if leAt e 0 8 = 0 then max s.now t else leAt e 0 8) bs).setRegFld
          (Reg.marverInjrd stream.val) 0 32 (s.regFld (Reg.marverInjrd stream.val) 0 32 + 1)))) ∧
  (∀ (s : State) (stream : Fin 64) (t : Nat), streamKind s stream.val ≠ 0 → streamOn s stream.val = false →
    Answers (.streamEnable stream t) s (fun u => streamOn u stream.val = true ∧ servoSt u stream.val = (if srcMode s stream.val = 0 then 2 else 1) ∧
      u.regFld (Reg.marverSslot stream.val) 32 32 = 0 ∧ u.reg (Reg.marverInjrd stream.val) = 0#64 ∧
      (u.mstream stream.val).servo = { Servo.zero with accTime := max s.now t } ∧ u.now = max s.now t ∧ u.mem = s.mem ∧ u.marver.periods = s.marver.periods)) ∧
  (∀ (s : State) (stream : Fin 64), Answers (.streamDisable stream) s (fun u => streamOn u stream.val = false ∧ servoSt u stream.val = 0 ∧
    u.regBit (Reg.marverHstat stream.val) 2 = false ∧ u.mem = s.mem ∧ u.now = s.now ∧ u.marver.periods = s.marver.periods)) ∧
  (∀ (s : State) (stream : Fin 64) (v : BitVec 32), 
    countDiff v.toNat (s.regFld (Reg.marverInjrd stream.val) 0 32) ≤ 2 ^ s.regFld (Reg.marverSmatch stream.val) 48 4 →
      newer32 (s.regFld (Reg.marverSslot stream.val) 32 32) v.toNat = false →
    Answers (.injwrWrite stream v) s (fun u => u.regFld (Reg.marverSslot stream.val) 32 32 = v.toNat ∧ OnlyRegs s u [Reg.marverSslot stream.val])) ∧
  (∀ (s : State) (stream : Fin 64) (v : BitVec 32),
    2 ^ s.regFld (Reg.marverSmatch stream.val) 48 4 < countDiff v.toNat (s.regFld (Reg.marverInjrd stream.val) 0 32) ∨
      newer32 (s.regFld (Reg.marverSslot stream.val) 32 32) v.toNat = true →
    exec (.injwrWrite stream v) s = .next (s.setRegBit (Reg.marverSstat stream.val) 16 true)) ∧
  (∀ (s : State) (v : BitVec 32) (ecc : MemEcc), newer32 v.toNat (s.regFld Reg.marverPosewr 0 32) = false →
    Answers (.poseWrite v ecc) s (fun u => u.regFld Reg.marverPosewr 0 32 = v.toNat ∧ OnlyRegs s u [Reg.marverPosewr])) ∧
  (∀ (s : State) (v : BitVec 32) (ecc : MemEcc) (k : Nat) (new : List Nat), newer32 v.toNat (s.regFld Reg.marverPosewr 0 32) = true →
    countDiff v.toNat (s.regFld Reg.marverPoserd 0 32) ≤ poseRing s → k = min (poseRing s) (countDiff v.toNat (s.regFld Reg.marverPosewr 0 32)) →
    new = (List.range k).map (fun j => (v.toNat + 2 ^ 32 - k + j) % 2 ^ 32) →
    exec (.poseWrite v ecc) s = .next (new.foldl (lehrTake ecc) (syncPoses (new.foldl (poseTake ecc) (s.setRegFld Reg.marverPosewr 0 32 v.toNat)))))

/-- Sensor time is kept by the servos and by gPTP. A LOCKED stream without an accepted sample for its hold time goes to HOLDOVER and from HOLDOVER,
after its longer time, to UNSYNC; a Sync of the configured domain is a sample at once or with its Follow_Up; a new grandmaster restarts the servo;
the link delay is measured by a request and its response; three intervals without a sample put gPTP in HOLDOVER, every missed interval being
counted, and ten seconds later the rate is zero; device time is stepped by 1 ns once the rate has made a step of that direction due and not sooner
than 20,000 ns after the last; a mode request stays pending; the event log's oldest entry is read and removed. (Device time moves to a command's
time and never back: log entry 1; the mean link delay's value is open.) -/
def Obligations.MarverTimeCommands : Prop :=
  (∀ (s : State) (stream : Fin 64) (t : Nat), srcMode s stream.val ≠ 0 → servoSt s stream.val = 2 →
    (s.mstream stream.val).servo.accTime + s.regFld (Reg.marverShold stream.val) 0 32 ≤ max s.now t →
    Answers (.servoHoldTimeout stream t) s (fun u => servoSt u stream.val = 3 ∧ OnlyRegs (s.at t) u [Reg.marverSstat stream.val])) ∧
  (∀ (s : State) (stream : Fin 64) (t : Nat), servoSt s stream.val = 3 →
    (s.mstream stream.val).servo.accTime + s.regFld (Reg.marverShold stream.val) 32 32 ≤ max s.now t →
    exec (.servoHoldmaxTimeout stream t) s = .next (enterUnsync (s.at t) stream.val 4)) ∧
  (∀ (s : State) (domain : BitVec 7) (sq : BitVec 16) (origin corr : BitVec 64) (t : Nat), gptpTakes s domain.toNat = true → gpState s ≠ 0 →
    (Answers (.gptpSync domain sq true origin corr t) s (fun u => u.marver.gp.sync =
      some (sq.toNat, t - s.regFld (Reg.marverEthcfg (s.regFld Reg.marverGpctl 1 3)) 8 12, signedOf corr.toNat 64) ∧ u.mem = s.mem)) ∧
    (exec (.gptpSync domain sq false origin corr t) s = .next (gptpSample (s.at t) (syncTime s origin.toNat (signedOf corr.toNat 64))
      (t - s.regFld (Reg.marverEthcfg (s.regFld Reg.marverGpctl 1 3)) 8 12)))) ∧
  (∀ (s : State) (domain : BitVec 7) (sq : BitVec 16) (origin corr : BitVec 64) (t tin : Nat) (c : Int), gptpTakes s domain.toNat = true →
    s.marver.gp.sync = some (sq.toNat, tin, c) → exec (.gptpFollowUp domain sq origin corr t) s =
      .next (gptpSample (setGp (s.at t) { s.marver.gp with sync := none }) (syncTime s origin.toNat (c + signedOf corr.toNat 64)) tin)) ∧
  (∀ (s : State) (domain : BitVec 7) (gm : BitVec 64), gptpTakes s domain.toNat = true → gpState s ≠ 0 →
    Answers (.gptpAnnounce domain gm) s (fun u => u.reg Reg.marverGpgm = gm ∧ (s.reg Reg.marverGpgm = gm → u = s) ∧
      (s.reg Reg.marverGpgm ≠ gm → s.reg Reg.marverGpgm ≠ 0#64 → gpState u = 1 ∧ u.regBit Reg.marverGpstat 2 = true ∧ u.marver.gp.servo.rate = 0 ∧
        u.marver.gp.servo.init = true))) ∧
  (∀ (s : State) (sq : BitVec 16) (t tx : Nat), s.regBit Reg.marverGpctl 0 = true → pdelayDue (s.at t) = true →
    tx = t + s.regFld (Reg.marverEthcfg (s.regFld Reg.marverGpctl 1 3)) 20 12 →
    exec (.pdelayReqSend sq t) s = .next (setGp (s.at t) { s.marver.gp with pdelay := some (sq.toNat, tx), pdelayAt := some (max s.now t) })) ∧
  (∀ (s : State) (sq : BitVec 16) (t2 t3 : BitVec 64) (t t1 t4 : Nat) (x : Int), s.regBit Reg.marverGpctl 0 = true → s.marver.gp.pdelay = some (sq.toNat, t1) →
    t4 = t - s.regFld (Reg.marverEthcfg (s.regFld Reg.marverGpctl 1 3)) 8 12 → x = Config.neighbourRatio s.marver.gp.ratio t3.toNat t4 →
    exec (.pdelayResp sq t2 t3 t) s = .next (setGp (s.at t)
      { s.marver.gp with pdelay := none, ratio := x, delay := Config.linkDelay s.marver.gp.delay x t1 t2.toNat t3.toNat t4 })) ∧
  (∀ (s : State) (t : Nat), gpState s = 2 → s.marver.gp.sampleAt + 3 * syncInterval s ≤ max s.now t →
    exec (.gptpSyncTimeout t) s = .next (setGp ((gptpMiss (s.at t) ((max s.now t - s.marver.gp.sampleAt) / syncInterval s)).setRegFld Reg.marverGpstat 0 2 3)
      { (gptpMiss (s.at t) ((max s.now t - s.marver.gp.sampleAt) / syncInterval s)).marver.gp with holdAt := max s.now t })) ∧
  (∀ (s : State) (t : Nat), gpState s = 3 → s.marver.gp.holdAt + 10000000000 ≤ max s.now t →
    Answers (.steerHoldoverExpiry t) s (fun u => u.marver.gp = { settleSteer s.marver.gp (max s.now t) with rho := 0 })) ∧
  (∀ (s : State) (add : Bool) (t : Nat), s.regBit Reg.marverGpctl 11 = true → s.marver.gp.adjusted + 20000 ≤ max s.now t →
    adjustDue (settleSteer s.marver.gp (max s.now t)) add = true →
    Answers (.deviceTimeAdjust add t) s (fun u => u.now = max s.now t + (if add then 1 else 0) ∧ u.marver.gp.adjusted = u.now ∧
      u.marver.gp.phase = (settleSteer s.marver.gp (max s.now t)).phase - (if add then 2 ^ 40 else -(2 ^ 40)))) ∧
  (∀ (s : State) (v : BitVec 2), Answers (.modeRequest v) s (fun u => u.marver = { s.marver with modePend := some v.toNat } ∧
    u.regFld Reg.marverFusctl 0 2 = v.toNat ∧ u.regBit Reg.marverFusstat 2 = true ∧ u.mem = s.mem)) ∧
  (∀ (s : State), exec .marverEvlogRead s = .next { s with readData := s.marver.log.head, marver := { s.marver with log := s.marver.log.pop } })

/-- The work on a period runs in its order. A period closes at its time after its end or by the host's write, at its end or before it; projection's
end starts the fallback run and, outside NORMAL, an empty table; SCATGO and TRKGO of Bench and Gaffer are accepted or refused for their period; the
oldest accepted scatter is applied and the grid completes with the last, or at its deadline without; the main run starts on the accepted TRKGO or at
its deadline without detections; the ends of both runs write their results; plausibility counts are evaluated every PLWIN periods. A command for
which nothing waits changes nothing but device time. (Device time: log entry 1.) -/
def Obligations.MarverRunCommands : Prop :=
  (∀ (s : State) (frame : BitVec 32) (done updated : Nat) (ecc : MemEcc) (t : Nat),
    (∀ p, s.mperiod frame.toNat = some p → p.closed = false →
      exec (.marverCloseWrite frame done updated ecc t) s = .next (closeNow (mapPeriod (s.at t) p.frame (fun q => { q with ref := endOf (s.at t) p }))
        { p with ref := endOf (s.at t) p } done updated ecc)) ∧
    (∀ p, s.mperiod frame.toNat = some p → p.closed = true →
      exec (.marverCloseWrite frame done updated ecc t) s = .next (s.at t)) ∧
    (s.mperiod frame.toNat = none → exec (.marverCloseWrite frame done updated ecc t) s = .next (s.at t))) ∧
  (∀ (s : State) (done updated : Nat) (ecc : MemEcc) (t e : Nat) (p : MPeriod) (rest : List MPeriod), s.marver.periods = p :: rest →
    p.closed = false → p.ref = some e → e + s.regFld Reg.marverTsctl 0 24 ≤ max s.now t →
    exec (.periodClose done updated ecc t) s = .next (closePeriod (endProjection (s.at t) done updated ecc) p.frame p.refTime)) ∧
  (∀ (s : State) (updated : Nat) (ecc : MemEcc) (t : Nat), exec (.projectionDone updated ecc t) s = .next (endProjection (s.at t) (2 ^ 64) updated ecc) ∧
    (s.marver.projecting = none → exec (.projectionDone updated ecc t) s = .next (s.at t))) ∧
  (∀ (s : State) (frame : BitVec 32) (nent : BitVec 20) (t : Nat),
    (∀ p, s.mperiod frame.toNat = some p → p.closed = true → p.gridDone = false → nent ≠ 0#20 → exec (.scatgo 16 frame nent t) s =
      .next (mapPeriod (s.at t) frame.toNat (fun p => { p with scatters := p.scatters ++ [nent.toNat] }))) ∧
    (s.mperiod frame.toNat = none → exec (.scatgo 16 frame nent t) s = .next ((s.at t).logMarver 0x0709 0xFF frame.toNat)) ∧
    (∀ who : Ident, who.val ≠ 16 → exec (.scatgo who frame nent t) s = .next (s.at t))) ∧
  (∀ (s : State) (frame : BitVec 32) (ndet : BitVec 13) (t : Nat),
    (∀ p, s.mperiod frame.toNat = some p → p.mode = 1 → p.mainStarted = false → ndet.toNat ≤ 4096 → exec (.trkgo 16 frame ndet t) s =
      .next (mapPeriod (s.at t) frame.toNat (fun p => { p with ndet := some ndet.toNat }))) ∧
    (∀ p, s.mperiod frame.toNat = some p → p.mode ≠ 1 ∨ p.mainStarted = true → ndet.toNat ≤ 4096 → exec (.trkgo 16 frame ndet t) s =
      .next ((s.at t).logMarver 0x0709 0xFF frame.toNat)) ∧
    (4096 < ndet.toNat → exec (.trkgo 16 frame ndet t) s = .next ((s.at t).logMarver 0x0712 0xFF frame.toNat)) ∧
    (s.mperiod frame.toNat = none → ndet.toNat ≤ 4096 → exec (.trkgo 16 frame ndet t) s = .next ((s.at t).logMarver 0x0709 0xFF frame.toNat)) ∧
    (∀ who : Ident, who.val ≠ 16 → exec (.trkgo who frame ndet t) s = .next (s.at t))) ∧
  (∀ (s s1 : State) (ecc : MemEcc) (t n : Nat) (p q : MPeriod) (rest : List MPeriod) (ns : List Nat), s.marver.periods = p :: rest →
    p.projected.isSome = true → p.gridDone = false → p.scatters = n :: ns →
    s1 = mapPeriod ((List.range n).foldl (scatterEntry ecc p.frame) (s.at t)) p.frame (fun p => { p with scatters := p.scatters.tail }) →
    s1.mperiod p.frame = some q → exec (.scatterDone ecc t) s = .next (if q.scatters.isEmpty then completeGrid s1 q false else s1)) ∧
  (∀ (s : State) (t e : Nat) (p : MPeriod) (rest : List MPeriod), s.marver.periods = p :: rest → p.gridDone = false → p.projected = some e →
    e + s.regFld Reg.marverDline 32 32 ≤ max s.now t → exec (.scatterDeadline t) s = .next (completeGrid (s.at t) p true)) ∧
  (∀ (s : State) (updated : Nat) (ecc : MemEcc) (t n : Nat) (p : MPeriod) (rest : List MPeriod), s.marver.periods = p :: rest →
    p.projected.isSome = true → p.mode = 1 → p.mainStarted = false → p.ndet = some n →
    exec (.mainRunStart updated ecc t) s = .next (startMain (s.at t) p.frame (some n) updated ecc)) ∧
  (∀ (s : State) (updated : Nat) (ecc : MemEcc) (t e : Nat) (p : MPeriod) (rest : List MPeriod), s.marver.periods = p :: rest →
    p.mode = 1 → p.mainStarted = false → p.ndet = none → p.projected = some e → e + s.regFld Reg.marverDline 0 32 ≤ max s.now t →
    exec (.mainRunDeadline updated ecc t) s = .next (startMain ((s.at t).logMarver 0x0707 0xFF p.frame) p.frame none updated ecc)) ∧
  (∀ (s : State) (bad : Option (Fin 4096)) (ecc : MemEcc) (t : Nat),
    exec (.mainRunDone bad ecc t) s = .next (finishMain (s.at t) none (bad.map (·.val)) ecc) ∧
    (s.marver.mainRun = none → exec (.mainRunDone bad ecc t) s = .next (s.at t))) ∧
  (∀ (s : State) (bad : Option (Fin 4096)) (ecc : MemEcc) (t : Nat),
    exec (.fallbackRunDone bad ecc t) s = .next (finishFallback (s.at t) none (bad.map (·.val)) ecc) ∧
    (s.marver.fbRun = none → exec (.fallbackRunDone bad ecc t) s = .next (s.at t))) ∧
  (∀ (s : State) (t : Nat), s.regFld Reg.marverCnfcfg 16 8 ≤ s.marver.plPeriods → s.marver.plPeriods ≠ 0 →
    Answers (.plausibilityEval t) s (fun u => u.marver.plPeriods = 0 ∧ ∀ i : Fin 64, u.reg (Reg.marverPlcnt i.val) = 0#64))

/-- Topology, ports, channels and flits of Blowpipe. Management turns the topology on, which trains every port that has a neighbour, or off, which
takes every port down; a training port becomes ACTIVE on both halves, NARROW on one, or DOWN with another neighbour or after 100 ms; loss of lock,
or sixteen replays in 100 microseconds, retrains it, and the packets of its unacknowledged flits go out again; four microseconds without an
acknowledgement are a replay; a flit that fails its CRC is counted, one out of order is not taken, one in order brings its acknowledgement, advances
the expected number and delivers its packets; enabling an outgoing channel sets its bit and forgets its last generation, enabling an incoming one
clears its state. (Device time: log entry 1.) -/
def Obligations.BlowpipePorts : Prop :=
  (∀ (s : State) (who : Ident) (v : BitVec 32) (t : Nat), mgmt who = true →
    (topoOn s = true → v.toNat % 2 = 1 → exec (.blowpipeTopoWrite who v t) s = .next (s.at t)) ∧
    (topoOn s = false → v.toNat % 2 = 0 → Answers (.blowpipeTopoWrite who v t) s (fun u =>
      u.reg Reg.blowpipeTopo = BitVec.ofNat 64 (v.toNat % 2 ^ 23) ∧ OnlyRegs (s.at t) u [Reg.blowpipeTopo])) ∧
    (exec (.blowpipeTopoWrite who v t) s = .next (writeTopo (s.at t) v.toNat))) ∧
  (∀ (s : State) (who : Ident) (v : BitVec 32) (t : Nat), mgmt who = false → exec (.blowpipeTopoWrite who v t) s = .next (s.at t)) ∧
  (∀ (s : State) (port : Fin 6) (nbr : BitVec 6), portSt s port.val = 1 →
    (expected s port.val = some nbr.toNat → Answers (.bpPortTrainingDone port .all nbr) s (fun u => portSt u port.val = 2 ∧
      u.regFld (Reg.blowpipePstat port.val) 4 6 = nbr.toNat ∧ u.regBit (Reg.blowpipePstat port.val) 10 = true ∧
      OnlyRegs s u [Reg.blowpipePstat port.val, Reg.blowpipeStat])) ∧
    (∀ h, expected s port.val = some nbr.toNat → exec (.bpPortTrainingDone port (.half h) nbr) s = .next
      ((syncRoutes (s.setReg (Reg.blowpipePstat port.val) (setBit (setFld (setBit (setFld 0#64 0 2 3) 2 h) 4 6 nbr.toNat) 10 true))).logBp 0x0541)) ∧
    (∀ l, expected s port.val ≠ some nbr.toNat → exec (.bpPortTrainingDone port l nbr) s = .next ((setPort s port.val 0).logBp 0x0542))) ∧
  (∀ (s : State) (port : Fin 6) (t : Nat), portSt s port.val = 1 → sget 0 s.fab.since (200 + port.val) + 100000000 ≤ max s.now t →
    exec (.bpTrainingTimeout port t) s = .next ((setPort (s.at t) port.val 0).logBp 0x0540)) ∧
  (∀ (s : State) (port : Fin 6) (t : Nat), portWeight s port.val ≠ 0 →
    exec (.bpReplayLimit port true t) s = .next (retrainPort (s.at t) port.val) ∧
    ((s.bpPort port.val).unacked = [] → Answers (.bpReplayLimit port true t) s (fun u => portSt u port.val = 1 ∧
      sget 0 u.fab.since (200 + port.val) = max s.now t ∧ sget [] u.blow.replays port.val = [] ∧ u.bpPort port.val = BpPort.zero ∧
      u.blow.log = s.blow.log ∧ u.mem = s.mem))) ∧
  (∀ (s : State) (port : Fin 6) (t : Nat), portWeight s port.val ≠ 0 → (recentReplays (s.at t) port.val).length < 16 →
    exec (.bpReplayLimit port false t) s = .next (s.at t)) ∧
  (∀ (s : State) (port : Fin 6) (t : Nat), portWeight s port.val ≠ 0 →
    ((s.bpPort port.val).unacked ≠ [] → (s.bpPort port.val).wait + 4000 ≤ max s.now t → Answers (.bpFlitReplayTimeout port t) s (fun u =>
      u.reg (Reg.blowpipePreplay port.val) = s.reg (Reg.blowpipePreplay port.val) + 1#64 ∧
      sget [] u.blow.replays port.val = recentReplays (s.at t) port.val ++ [max s.now t] ∧
      u.bpPort port.val = { s.bpPort port.val with wait := max s.now t } ∧ u.mem = s.mem)) ∧
    ((s.bpPort port.val).unacked = [] ∨ max s.now t < (s.bpPort port.val).wait + 4000 → exec (.bpFlitReplayTimeout port t) s = .next (s.at t))) ∧
  (∀ (s : State) (port : Fin 6) (fseq ackseq : BitVec 16) (cls : BitVec 2) (words : BitVec 14) (packets : List BpPacket) (t : Nat) (x y : BpPort),
    portWeight s port.val ≠ 0 → x = s.bpPort port.val → y = ackFlits x ackseq.toNat (max s.now t) →
    (Answers (.bpFlit port fseq ackseq cls words false packets t) s (fun u =>
      u.reg (Reg.blowpipePcrc port.val) = s.reg (Reg.blowpipePcrc port.val) + 1#64 ∧ OnlyRegs (s.at t) u [Reg.blowpipePcrc port.val])) ∧
    (fseq.toNat ≠ x.expect → exec (.bpFlit port fseq ackseq cls words true packets t) s = .next (s.at t)) ∧
    (fseq.toNat = x.expect → exec (.bpFlit port fseq ackseq cls words true packets t) s = .next (packets.foldl bpTakePacket
      ((s.at t).setBpPort port.val { y with expect := (y.expect + 1) % 65536, freed := sput 0 y.freed cls.toNat words.toNat })))) ∧
  (∀ (s : State) (who : Ident) (chan : Fin 32), mgmt who = true →
    (s.regBit (Reg.blowpipeFwda chan.val) 0 = false → Answers (.fwdChannelEnable who chan) s (fun u =>
      u.regBit (Reg.blowpipeFwda chan.val) 0 = true ∧ sget 0 u.blow.lastGen chan.val = 0)) ∧
    (s.regBit (Reg.blowpipeIna chan.val) 0 = false → Answers (.inChannelEnable who chan) s (fun u =>
      u.regBit (Reg.blowpipeIna chan.val) 0 = true ∧ u.regFld (Reg.blowpipeInstat chan.val) 0 32 = 0 ∧ u.regBit (Reg.blowpipeInstat chan.val) 40 = false))) ∧
  (∀ (s : State), exec .blowpipeEvlogRead s = .next { s with readData := s.blow.log.head, blow := { s.blow with log := s.blow.log.pop } })

/-- Deliveries go out and generations come in. The oldest delivery not begun is sent, or held when its BEGIN draws a WAIT, and a held one is begun
again; an ACK of a delivery sent completes it, a NAK fails it, a WAIT holds it; it fails after its time. On an enabled incoming channel the next
generation's BEGIN, DATA and END are taken, each to the channel's own rules, and a delivery is judged once its BEGIN, its END and as many packets as
the END counts have come; with every source complete and no closure of its partition the generation commits and every source gets its ACK; an
incomplete one is abandoned after its time with a NAK to every source. On a disabled channel a packet draws the NAK 0x0544. (Device time: log entry
1.) -/
def Obligations.BlowpipeDeliveries : Prop :=
  (∀ (s : State) (chan : Fin 32) (waited : Bool) (t : Nat) (d : BpOut), s.blow.out.find? (fun d => decide (d.chan = chan.val) && d.begun.isNone) = some d →
    exec (.bpDeliveryStart chan waited t) s = .next (if waited then mapOut (sendBegin (s.at t) d) d.chan d.gen (fun d => { d with held := true })
      else sendBody (sendBegin (s.at t) d) d)) ∧
  (∀ (s : State) (chan : Fin 32) (waited : Bool) (t : Nat) (d : BpOut), s.blow.out.find? (fun d => decide (d.chan = chan.val) && d.held) = some d →
    exec (.bpBeginRepeat chan waited t) s = .next (if waited then mapOut (sendBegin (s.at t) d) d.chan d.gen (fun d => { d with held := true })
      else sendBody (sendBegin (s.at t) d) d)) ∧
  (∀ (s : State) (src : Fin 64) (chan : Fin 32) (gen : BitVec 32) (code : BitVec 16) (instat : BitVec 32) (t : Nat) (d : BpOut),
    answered s src.val chan.val gen.toNat = some d →
    (exec (.bpAck src chan gen t) s = .next ((dropOut (s.at t) d).setRegFld (Reg.blowpipeFwdstat d.chan) 32 32 gen.toNat)) ∧
    (code ≠ 0x0545#16 → exec (.bpNak src chan gen code instat t) s = .next (failOut (s.at t) d)) ∧
    (exec (.bpWait src chan gen t) s = .next (mapOut (s.at t) d.chan d.gen (fun d => { d with held := true, ended := none })))) ∧
  (∀ (s : State) (src : Fin 64) (chan : Fin 32) (gen : BitVec 32) (code : BitVec 16) (instat : BitVec 32) (t : Nat),
    answered s src.val chan.val gen.toNat = none →
    exec (.bpAck src chan gen t) s = .next (s.at t) ∧ exec (.bpNak src chan gen code instat t) s = .next (s.at t) ∧
    exec (.bpWait src chan gen t) s = .next (s.at t)) ∧
  (∀ (s : State) (chan : Fin 32) (t e : Nat) (d : BpOut) (rest : List BpOut), s.blow.out = d :: rest → d.chan = chan.val → d.ended = some e →
    e + fwdTmo s chan.val ≤ max s.now t → exec (.bpFwdTimeout chan t) s = .next (failOut (s.at t) d)) ∧
  (∀ (s : State) (src : Fin 64) (chan : Fin 32) (gen count crc : BitVec 32) (packet : BpData) (t : Nat), s.regBit (Reg.blowpipeIna chan.val) 0 = false →
    exec (.bpBegin src chan gen t) s = .next (sendNak (s.at t) chan.val src.val gen.toNat 0x0544) ∧
    exec (.bpData src chan gen packet t) s = .next (sendNak (s.at t) chan.val src.val gen.toNat 0x0544) ∧
    exec (.bpEnd src chan gen count crc t) s = .next (sendNak (s.at t) chan.val src.val gen.toNat 0x0544)) ∧
  (∀ (s : State) (src : Fin 64) (chan : Fin 32) (gen : BitVec 32) (t : Nat), s.regBit (Reg.blowpipeIna chan.val) 0 = true →
    s.regBit (Reg.blowpipeInstat chan.val) 40 = true → gen.toNat = nextGen s chan.val → (∀ x ∈ inb s chan.val, x.src ≠ src.val) →
    Answers (.bpBegin src chan gen t) s (fun u => inb u chan.val = inb s chan.val ++ [⟨src.val, some (max s.now t), [], none, false⟩] ∧
      u.mem = s.mem ∧ u.blow.sent = s.blow.sent ∧ u.blow.log = s.blow.log)) ∧
  (∀ (s s1 : State) (src : Fin 64) (chan : Fin 32) (gen : BitVec 32) (packet : BpData) (t lo : Nat), s.regBit (Reg.blowpipeIna chan.val) 0 = true →
    gen.toNat = nextGen s chan.val → (∃ x ∈ inb s chan.val, x.src = src.val ∧ x.done = false) →
    lo = s.regFld (Reg.blowpipeIna chan.val) 12 36 * 4096 → lo ≤ packet.addr.toNat →
    packet.addr.toNat + packet.bytes.length ≤ lo + s.regFld (Reg.blowpipeInb chan.val) 0 24 * 4096 →
    packet.addr.toNat % 128 + packet.bytes.length ≤ 128 → stagePacket (s.at t) chan.val packet packet.addr.toNat = (s1, none) →
    exec (.bpData src chan gen packet t) s = .next (settleIn (orWait (s.at t) (setInb s1 chan.val (collect (inb s1 chan.val) src.val (fun y =>
      { y with data := y.data ++ [(packet.addr.toNat, packet.crc.toNat)] })))) chan.val src.val gen.toNat)) ∧
  (∀ (s : State) (src : Fin 64) (chan : Fin 32) (gen count crc : BitVec 32) (t : Nat) (x : BpIn) (f : BpIn → BpIn),
    s.regBit (Reg.blowpipeIna chan.val) 0 = true → gen.toNat = nextGen s chan.val →
    (inb s chan.val).find? (fun x => decide (x.src = src.val) && !x.done) = some x → f = (fun y => { y with fin := some (count.toNat, crc.toNat) }) →
    (x.began.isSome = true → x.data.length = count.toNat → dataCrc x = crc.toNat → Answers (.bpEnd src chan gen count crc t) s (fun u =>
      inb u chan.val = (inb s chan.val).map (fun y => if y.src = src.val then { f y with done := true } else y) ∧
      u.mem = s.mem ∧ u.blow.sent = s.blow.sent)) ∧
    (x.began = none ∨ x.data.length < count.toNat → Answers (.bpEnd src chan gen count crc t) s (fun u =>
      inb u chan.val = (inb s chan.val).map (fun y => if y.src = src.val then f y else y) ∧ u.mem = s.mem ∧ u.blow.sent = s.blow.sent)) ∧
    (x.began.isSome = true → count.toNat < x.data.length ∨ x.data.length = count.toNat ∧ dataCrc x ≠ crc.toNat →
      exec (.bpEnd src chan gen count crc t) s = .next (abandon (sendNak (setInb (s.at t) chan.val (collect (inb s chan.val) src.val f)) chan.val src.val
        gen.toNat 0x0547) chan.val gen.toNat))) ∧
  (∀ (s s1 s2 : State) (chan : Fin 32) (flip : FlipAt), s.regBit (Reg.blowpipeIna chan.val) 0 = true →
    inNsrc s chan.val ≤ ((inb s chan.val).filter (fun (x : BpIn) => x.done)).length → closing s (inPart s chan.val) = false →
    s1 = setInb (poisonRuns (s.at flip.t) (flipStaged ((s.at flip.t).bump Reg.devCommitidx 1) flip.ecc (inOwner chan.val))) chan.val [] →
    s2 = s1.setRegFld (Reg.blowpipeInstat chan.val) 0 32 (nextGen s chan.val) → s2.regBit (Reg.blowpipeIna chan.val) 1 = false →
    exec (.inboundCommit chan flip) s = .next (((inb s chan.val).filter (fun (x : BpIn) => x.done)).foldl
      (fun s' x => bpSend s' (envelope s' 4 x.src chan.val (nextGen s chan.val) 0 0)) s2)) ∧
  (∀ (s : State) (chan : Fin 32) (t : Nat), s.regBit (Reg.blowpipeIna chan.val) 0 = true →
    ((inb s chan.val).filter (fun (x : BpIn) => x.done)).length < inNsrc s chan.val → (∃ x ∈ inb s chan.val, ∃ b, x.began = some b ∧ b + inTmo s chan.val ≤ max s.now t) →
    exec (.bpGenTimeout chan t) s = .next (abandon ((inb s chan.val).foldl
      (fun s' x => nakTo s' chan.val x.src (nextGen s chan.val) 0x0549) (s.at t)) chan.val (nextGen s chan.val)))

/-- Lists are loaded, frits requested and switched, debug asked for, answered and locked. Only management loads the batch list or a frit's list: a
readable list is kept and shown loaded, any other is refused with its code in the log; a frit's list asked for while a switch is in progress waits
for its end; a loaded frit, or none, is requested and stays pending, and one not loaded sets the refusal bit; the switch in progress ends at
FRIT_SWITCH; a debug request issues a challenge unless the fuse or three denials forbid it; a response that verifies unlocks the scopes, any other
is denied, counted and logged, and either uses the challenge up; a lock ends every unlock; the log's oldest entry is read and removed. (Device time:
log entry 1; the challenge's nonce and the signature check are open functions of Config.) -/
def Obligations.ConfigurationCommands : Prop :=
  (∀ (s s1 : State) (who : Ident) (ecc : MemEcc) (l : List CfgEntry), mgmt who = true →
    readList s ecc (s.regFld Reg.devBatchaddr 6 42 * 64) 0x4254394A 8192 = (s1, .ok l) →
    exec (.loadBatch who ecc) s = .next ({ s1 with cfg := { s1.cfg with batch := some l } }.setRegBit Reg.devFritstat 9 true)) ∧
  (∀ (s s1 : State) (who : Ident) (ecc : MemEcc) (code : Nat), mgmt who = true →
    readList s ecc (s.regFld Reg.devBatchaddr 6 42 * 64) 0x4254394A 8192 = (s1, .error code) →
    exec (.loadBatch who ecc) s = .next ((s1.setRegBit Reg.devFritstat 6 true).logCfg code)) ∧
  (∀ (s s1 : State) (who : Ident) (frit : Fin 16) (ecc : MemEcc) (l : List CfgEntry), mgmt who = true → s.cfg.switching = none →
    readList s ecc (s.regFld Reg.devFritaddr 6 42 * 64) 0x5446394A 254 = (s1, .ok l) → exec (.loadFrit who frit ecc) s =
      .next ({ s1 with cfg := { s1.cfg with frits := sput [] s1.cfg.frits frit.val l } }.setRegBit Reg.devFritstat (16 + frit.val) true)) ∧
  (∀ (s s1 : State) (who : Ident) (frit : Fin 16) (ecc : MemEcc) (code : Nat), mgmt who = true → s.cfg.switching = none →
    readList s ecc (s.regFld Reg.devFritaddr 6 42 * 64) 0x5446394A 254 = (s1, .error code) →
    exec (.loadFrit who frit ecc) s = .next ((s1.setRegBit Reg.devFritstat 6 true).logCfg code)) ∧
  (∀ (s : State) (who : Ident) (v : BitVec 32), mgmt who = true →
    (bitsOf v.toNat 4 1 = 1 ∨ s.regBit Reg.devFritstat (16 + bitsOf v.toNat 0 4) = true → Answers (.fritSwitchRequest who v) s (fun u =>
      u.regFld Reg.devFritctl 0 4 = bitsOf v.toNat 0 4 ∧ u.regBit Reg.devFritctl 4 = decide (bitsOf v.toNat 4 1 = 1) ∧
      u.regBit Reg.devFritstat 5 = true ∧ OnlyRegs s u [Reg.devFritctl, Reg.devFritstat])) ∧
    (bitsOf v.toNat 4 1 = 0 → s.regBit Reg.devFritstat (16 + bitsOf v.toNat 0 4) = false → Answers (.fritSwitchRequest who v) s (fun u =>
      u.regBit Reg.devFritstat 8 = true ∧ OnlyRegs s u [Reg.devFritstat]))) ∧
  (∀ (s : State) (t : Nat), (s.cfg.switching = none → exec (.fritSwitch t) s = .next (s.at t)) ∧
    (∀ target, s.cfg.switching = some target → exec (.fritSwitch t) s = .next (finishSwitch (s.at t) target t))) ∧
  (∀ (s s1 : State) (who : Ident) (scope : BitVec 4) (t : Nat) (bs : List Byte), mgmt who = true → s.cfg.dbgDisFuse = false →
    s.regFld Reg.devDbgstat 8 2 ≠ 3 → bs = challengeBytes (s.at t) scope.toNat →
    s1 = (showChallenge (s.at t) bs).setRegBit Reg.devDbgstat 4 true → exec (.debugRequest who scope t) s =
      .next { s1 with cfg := { s1.cfg with challenge := some ⟨bs, scope.toNat, s1.now⟩ } }.nextFresh) ∧
  (∀ (s : State) (who : Ident) (scope : BitVec 4) (t : Nat), s.cfg.dbgDisFuse = true ∨ s.regFld Reg.devDbgstat 8 2 = 3 ∨ mgmt who = false →
    exec (.debugRequest who scope t) s = .next (s.at t)) ∧
  (∀ (s : State) (who : Ident), (mgmt who = true → Answers (.debugLock who) s (fun u => u.regFld Reg.devDbgstat 0 4 = 0 ∧ OnlyRegs s u [Reg.devDbgstat])) ∧
    (mgmt who = false → exec (.debugLock who) s = .next s)) ∧
  (∀ (s s1 s2 : State) (who : Ident) (addr : BitVec 64) (ecc : MemEcc) (t : Nat) (c : Challenge) (bs : List Byte), mgmt who = true →
    s.cfg.challenge = some c → devRead (s.at t) lehrAReq ecc (bitsOf addr.toNat 6 42 * 64) 192 = (s1, .ok bs) →
    s2 = ({ s1 with cfg := { s1.cfg with challenge := none } }).setRegBit Reg.devDbgstat 4 false →
    (responseOk (s.at t) c bs = true → exec (.debugResponse who addr ecc t) s =
      .next ((((s2.setRegFld Reg.devDbgstat 0 4 c.scope).setRegBit Reg.devDbgstat 5 false).logCfg 0x0955).raise 0x0955 0xFF)) ∧
    (responseOk (s.at t) c bs = false → exec (.debugResponse who addr ecc t) s =
      .next ((((s2.setRegBit Reg.devDbgstat 5 true).bumpSat Reg.devDbgstat 8 2).logCfg 0x0956).raise 0x0956 0xFF))) ∧
  (∀ (s : State) (who : Ident) (addr : BitVec 64) (ecc : MemEcc) (t : Nat), s.cfg.challenge = none → exec (.debugResponse who addr ecc t) s = .next (s.at t)) ∧
  (∀ (s : State), exec .cfgEvlogRead s = .next { s with readData := s.cfg.log.head, cfg := { s.cfg with log := s.cfg.log.pop } }) ∧
  (∀ (s : State) (who : Ident) (frit : Fin 16) (ecc : MemEcc), mgmt who = true → s.cfg.switching.isSome = true →
    exec (.loadFrit who frit ecc) s =
      .next { s with cfg := { s.cfg with waitingLoads := s.cfg.waitingLoads ++ [⟨frit.val, s.regFld Reg.devFritaddr 6 42 * 64, ecc⟩] } })

/-- A block goes through its reset. A reset request of management is judged and answered, any other is logged; a block asked to go idle enters reset
when it answers, or is fenced when it does not; once a fenced block's orphans are gone it enters reset, and a block in reset may leave; the end of
the line starts its restart, whose success finishes the block and whose failure takes it back to reset; a domain past its bound escalates; the log's
oldest entry is read and removed. (Device time: log entry 1.) -/
def Obligations.ResetCommands : Prop :=
  (∀ (s : State) (who : Ident) (kind : BitVec 4) (index : BitVec 8) (t : Nat),
    (mgmt who = false → exec (.resetReq who kind index t) s = .next ((s.at t).logReset 0x090A kind.toNat index.toNat)) ∧
    (mgmt who = true → domainIndexOk kind.toNat index.toNat = false →
      exec (.resetReq who kind index t) s = .next ((requestAnswer (s.at t) 0x090B).logReset 0x090B kind.toNat index.toNat)) ∧
    (mgmt who = true → domainIndexOk kind.toNat index.toNat = true → kind = 8#4 →
      exec (.resetReq who kind index t) s = .next (startCold 11 true false (requestAnswer (s.at t) 0))) ∧
    (mgmt who = true → domainIndexOk kind.toNat index.toNat = true → kind ≠ 8#4 → kind ≠ 1#4 → inReset s (kind.toNat, index.toNat) = false →
      exec (.resetReq who kind index t) s = .next (beginRequested (startReset kind.toNat index.toNat 11 true (requestAnswer (s.at t) 0)) kind.toNat index.toNat))) ∧
  (∀ (s : State) (b : Block) (t : Nat), inPhase s b .idlereq = true →
    exec (.idleAck b t) s = .next (enterBlockReset (s.at t) b true) ∧
    (idleWaited (s.at t) b = true → exec (.idleTimeout b t) s = .next (fenceBlock (s.at t) b)) ∧
    (idleWaited (s.at t) b = false → exec (.idleTimeout b t) s = .next (s.at t))) ∧
  (∀ (s : State) (b : Block) (t : Nat), (inPhase s b .fenced = true →
      exec (.orphanDrainDone b t) s = .next (enterBlockReset (drainNodes (s.at t) b) b false)) ∧
    (inPhase s b .reset = true → exec (.orphanDrainDone b t) s = .next ((drainNodes (s.at t) b).setBlock ⟨b, .reset, true⟩))) ∧
  (∀ (s : State) (b : Block) (t : Nat) (x : BlockReset), s.blockPhase b = some x →
    (x.phase = .reset → x.drained = true → lineHeld s b = false →
      exec (.resetLineEnd b t) s = .next (startBlock ((s.at t).setBlock ⟨b, .release, true⟩) b)) ∧
    (x.phase = .reset → x.drained = false ∨ lineHeld s b = true → exec (.resetLineEnd b t) s = .next (s.at t))) ∧
  (∀ (s : State) (b : Block) (t : Nat), inPhase s b .release = true →
    exec (.blockRestartDone b true t) s = .next (finishBlock (s.at t) b t) ∧
    exec (.blockRestartDone b false t) s = .next ((s.at t).setBlock ⟨b, .reset, true⟩)) ∧
  (∀ (s : State) (kind : BitVec 4) (index : BitVec 8) (t : Nat) (d : DomainReset), s.rst.domains.find? (fun d =>
      decide (d.kind = kind.toNat) && decide (d.index = index.toNat)) = some d →
    (d.hold = false → d.since + domainBound d.kind ≤ max s.now t →
      exec (.restartTimeout kind index t) s = .next (escalate ((s.at t).logReset 0x0908 d.kind d.index) d)) ∧
    (d.hold = true ∨ max s.now t < d.since + domainBound d.kind → exec (.restartTimeout kind index t) s = .next (s.at t))) ∧
  (∀ (s : State), exec .resetEvlogRead s = .next { s with readData := s.rst.log.head, rst := { s.rst with log := s.rst.log.pop } })

/-- Pins, rails, the option flash and the whole-device resets. A device reset goes through its steps in order, each when what it needs is there; a
pulse of 10 microseconds or more on a reset ball acts, and a shorter one only when it was seen; a rail that fails, falls or comes back has its
effect on what it feeds; the link trains when PERST# rises and the step allows it; the option reader reads the blocks, chooses, reads the log and
applies, counts a timed-out block as invalid, and tries again after a pause; the repair log takes one entry while it has room, and a column found by
its residue is first noted as failed; JTAG takes its instruction and IDCODE reads its value. (Device time: log entry 1; the step machine of the
resets is log entry 24's reading.) -/
def Obligations.DeviceResetCommands : Prop :=
  (∀ (s : State) (t : Nat) (d : DomainReset), warmDomain s = some d → s.pins.mainRails = true → d.hold = false → warmReady s d (resetStep s) = true →
    (resetStep s < 10 → exec (.deviceWarmReset t) s = .next ((warmWork (s.at t) d (resetStep s) t).setRegFld Reg.resetStat 3 4 (resetStep s + 1))) ∧
    (10 ≤ resetStep s → exec (.deviceWarmReset t) s = .next (finishWarm (warmWork (s.at t) d (resetStep s) t) d))) ∧
  (∀ (s : State) (t : Nat), s.pins.mainRails = true → (s.regBit Reg.resetStat 2 = true → coldReady s (resetStep s) = true → resetStep s < 6 →
      exec (.deviceColdReset t) s = .next ((coldWork (s.at t) (resetStep s)).setRegFld Reg.resetStat 3 4 (resetStep s + 1))) ∧
    (s.regBit Reg.resetStat 2 = true → coldReady s (resetStep s) = true → 6 ≤ resetStep s →
      exec (.deviceColdReset t) s = .next (finishCold (coldWork (s.at t) (resetStep s)))) ∧
    (s.regBit Reg.resetStat 2 = false → s.regBit Reg.resetStat 0 = false → s.rst.domains = [] →
      exec (.deviceColdReset t) s = .next (startCold 1 false false (s.at t)))) ∧
  (∀ (s : State) (us : Nat) (acted : Bool) (t : Nat), (10 ≤ us ∨ us ≠ 0 ∧ acted = true →
      exec (.lehraRstn us acted t) s = .next (ballA (s.at t)) ∧ exec (.lehrbRstn us acted t) s = .next (ballB (s.at t)) ∧
      exec (.pciePerstn us acted t) s = .next (resetLink { (s.at t) with rst := { (s.at t).rst with perstn := false } } 5)) ∧
    (us = 0 ∨ us < 10 ∧ acted = false → exec (.lehraRstn us acted t) s = .next (s.at t) ∧
      exec (.lehrbRstn us acted t) s = .next (s.at t) ∧ exec (.pciePerstn us acted t) s = .next (s.at t))) ∧
  (∀ (s : State) (us : Nat) (acted : Bool) (t : Nat),
    exec (.sysRstn false us acted t) s = .next { (s.at t) with pins := { (s.at t).pins with sysRstn := false } } ∧
    (s.pins.sysRstn = false → 10 ≤ us → exec (.sysRstn true us acted t) s =
      .next (startCold 2 false false { (s.at t) with pins := { (s.at t).pins with sysRstn := true } }))) ∧
  (∀ (s : State) (t : Nat), exec (.pcieHotReset t) s = .next (if inReset s (7, 0) then (s.at t).logReset 0x0909 7 0
    else startReset 7 0 6 false (dropLink (s.at t)))) ∧
  (∀ (s s1 : State) (rate : BitVec 3) (width : BitVec 5) (flit : Bool) (t cap : Nat), cap = rate.toNat + width.toNat * 8 + (if flit then 256 else 0) →
    s1 = { (s.at t) with rst := { (s.at t).rst with perstn := true, linkCap := cap } } →
    (s.regBit Reg.resetStat 2 = true → resetStep s = 6 → exec (.pciePerstnRise rate width flit t) s = .next (finishCold (raiseLink s1))) ∧
    (s.regBit Reg.resetStat 2 = false → warmDomain s = none → s.regBit Reg.resetStat 0 = true →
      exec (.pciePerstnRise rate width flit t) s = .next (raiseLink s1))) ∧
  (∀ (s : State) (t : Nat), (s.pins.mainRails = true → exec (.mainRailFail t) s = .next (mainDown (s.at t))) ∧
    (s.pins.mainRails = false → exec (.mainRailFail t) s = .next (s.at t)) ∧
    (∀ isB, exec (.lehrRailFail isB t) s = .next (if isB then ballB (s.at t) else ballA (s.at t)))) ∧
  (∀ (s : State) (t : Nat), Answers (.railFall true false false t) s (fun u => u.pins.lehrARails = false ∧ u.pins.powerGood = false ∧
      u.lehrB.stoppedA = true ∧ u.regs = s.regs ∧ u.mem = s.mem) ∧
    Answers (.railFall false true false t) s (fun u => u.pins.lehrBRails = false ∧ u.pins.powerGood = false ∧
      u.lehrB.stoppedB = true ∧ u.regs = s.regs ∧ u.mem = s.mem) ∧
    exec (.railFall false false true t) s = .next (loseDram (if s.pins.mainRails then mainDown (s.at t) else s.at t))) ∧
  (∀ (s s1 : State) (t : Nat), s.pins.powerGood = false → s1 = { (s.at t) with pins := { (s.at t).pins with
      mainRails := true, lehrARails := true, lehrBRails := true, powerGood := true } } →
    (s.pins.lehrARails = true → s.pins.lehrBRails = true →
      exec (.powerGood t) s = .next ((startReader (startCold 1 false true s1)).setRegFld Reg.resetStat 3 4 2)) ∧
    (s.pins.lehrARails = false ∨ s.pins.lehrBRails = false → exec (.powerGood t) s = .next (startCold 1 false false s1))) ∧
  (∀ (s : State), (s.rst.reader = .readA → exec .optionReadStep s = .next (takeA s (readOption s 0)) ∧
      ∀ n, exec (.flashCmdTimeout n) s = .next (takeA (s.setRegBit Reg.resetOptstat 7 true) none)) ∧
    (s.rst.reader = .readB → exec .optionReadStep s = .next (takeB s (readOption s 0x1000)) ∧
      ∀ n, exec (.flashCmdTimeout n) s = .next (takeB (s.setRegBit Reg.resetOptstat 7 true) none)) ∧
    (s.rst.reader = .select → s.rst.retryPause = false → exec .optionReadStep s = .next (selectBlock s)) ∧
    (s.rst.reader = .readLog → exec .optionReadStep s = .next (readRepairLog s 4096)) ∧
    (s.rst.reader = .apply → exec .optionReadStep s = .next (applyOptions s))) ∧
  (∀ (s : State), s.rst.reader = .select → s.rst.retryPause = true → Answers .optionRetryPause s (fun u => u.rst.reader = .readA ∧
    u.rst.retryPause = false ∧ u.regFld Reg.resetOptstat 8 2 = (s.regFld Reg.resetOptstat 8 2 + 1) % 4)) ∧
  (∀ (s s1 : State) (core : Fin 96) (column : Fin 132) (residue : Bool) (b : List Byte), s1 = (if residue then columnFound s core.val column.val else s) →
    usedBlock s1 = some b → leAt b 16 1 % 2 = 1 → s1.rst.reader = .done →
    (s1.rst.logNext < leAt b 24 4 / 16 → Answers (.repairLogAppend core column residue) s (fun u => u.rst.logNext = s1.rst.logNext + 1 ∧
      u.rst.flash = (programFlash s1 (leAt b 20 4 + 16 * s1.rst.logNext)
        (logEntry core.val column.val (if residue then 2 else 1) s1.frmcnt)).rst.flash ∧ u.regs = s1.regs ∧ u.mem = s1.mem)) ∧
    (leAt b 24 4 / 16 ≤ s1.rst.logNext → exec (.repairLogAppend core column residue) s = .next (logFull s1 core.val column.val))) ∧
  (∀ (s : State), Answers (.jtagInstruction .idcode) s (fun u => u.readData = 0x0A960969#64 ∧ u.pins.jtag = .idcode ∧ u.regs = s.regs) ∧
    (∀ ir, Answers (.jtagInstruction ir) s (fun u => u.pins.jtag = jtagTakes s ir ∧ u.regs = s.regs ∧ u.mem = s.mem)))

/-- A frame boundary comes at its grid point and at no other time. When device time has come to the next grid point of the active frame timer, and
Lehr A runs or has handed over, the boundary acts there, also where device time has passed it already; for any other time the command changes
nothing. -/
def Obligations.FrameBoundaryCommand : Prop :=
  ∀ (s : State) (ecc : MemEcc) (t : Nat), (s.frame.nextBoundary = some t → s.lehrB.lehrARuns = true ∨ s.lehrB.handover.isSome = true →
      exec (.frameBoundary ecc t) s = .next (boundary (s.at t) ecc t)) ∧
    (s.frame.nextBoundary ≠ some t ∨ s.lehrB.lehrARuns = false ∧ s.lehrB.handover = none → exec (.frameBoundary ecc t) s = .next s)

/-- Counters of 32 bits compare by their wrapped difference. A value b is newer than a value a exactly when (b - a) mod 2^32 lies in 1 to 2^31 - 1,
so a difference of exactly 2^31 is not newer; the frame counter holds 32 bits and wraps at a boundary. -/
def Obligations.NewerCounter : Prop :=
  (∀ a b : BitVec 32, newer32 b.toNat a.toNat = decide (1 ≤ (b - a).toNat ∧ (b - a).toNat ≤ 2 ^ 31 - 1)) ∧
  (∀ a b : BitVec 32, (b - a).toNat = 2 ^ 31 → newer32 b.toNat a.toNat = false) ∧
  (∀ (s : State) (b : Nat), s.frmcnt < 2 ^ 32 ∧ (timerBoundary s b).frmcnt = (s.frmcnt + 1) % 2 ^ 32)

/-- The residue of a 96-bit pattern is that of its signed value. For every 96-bit pattern the mod-7 sum of its 32 groups of three bits, less its top
bit, is the residue modulo 7 of the pattern read as a signed integer, from 0 to 6. -/
def Obligations.ResidueExact : Prop :=
  ∀ v : BitVec 96, (residue96 v.toNat : Int) = v.toInt % 7 ∧ residue96 v.toNat ≤ 6 ∧
    (residue96 v.toNat + v.toNat / 2 ^ 95) % 7 = ((List.range 32).map (fun g => v.toNat / 8 ^ g % 8)).sum % 7

/-- The four rounding modes round as their names say. A magnitude m / 2^k rounds in mode 0 to the nearest integer and in a tie to the even one, in
mode 1 toward zero, in mode 2 toward minus infinity and in mode 3 toward plus infinity, its sign given beside it; the inexact mark says exactly when
something was rounded off. -/
def Obligations.RoundingModes : Prop :=
  (∀ (neg : Bool) (m k : Nat), 2 * (roundShift 0 neg m k).1 * 2 ^ k ≤ 2 * m + 2 ^ k ∧ 2 * m ≤ 2 * (roundShift 0 neg m k).1 * 2 ^ k + 2 ^ k ∧
    (2 * (roundShift 0 neg m k).1 * 2 ^ k = 2 * m + 2 ^ k ∨ 2 * m = 2 * (roundShift 0 neg m k).1 * 2 ^ k + 2 ^ k → (roundShift 0 neg m k).1 % 2 = 0)) ∧
  (∀ (neg : Bool) (m k : Nat), (roundShift 1 neg m k).1 = m / 2 ^ k ∧
    (roundShift 2 neg m k).1 = (if neg then (m + 2 ^ k - 1) / 2 ^ k else m / 2 ^ k) ∧
    (roundShift 3 neg m k).1 = (if neg then m / 2 ^ k else (m + 2 ^ k - 1) / 2 ^ k)) ∧
  (∀ (mode : Nat) (neg : Bool) (m k : Nat), (roundShift mode neg m k).2 = decide (m % 2 ^ k ≠ 0))

/-- A frame period is taken in its range only, a frame number while the timer is stopped only. From partition 0 or Gaffer firmware, while DEV_FRMPER
is not locked, a period from 10,000,000 to 100,000,000 ns is accepted, at once on a stopped timer and as the pending one otherwise, and any other
changes nothing but BADPER, which it sets. A write of DEV_FRMCNT while EN is 1, or while a boundary remains, changes nothing but BADCNT, which it
sets. -/
def Obligations.FramePeriodAndNumberWrites : Prop :=
  (∀ (s : State) (who : Ident) (v : BitVec 32), mgmt who = true → locked s Reg.devFrmper = false → 10000000 ≤ v.toNat → v.toNat ≤ 100000000 →
    Answers (.frmperWrite who v) s (fun u => (s.timerStopped = true → u.frmper = v.toNat) ∧
      (s.timerStopped = false → u.frame.pendPeriod = some v.toNat ∧ u.regBit Reg.devFrmctl 3 = true) ∧
      u.regBit Reg.devFrmctl 1 = s.regBit Reg.devFrmctl 1)) ∧
  (∀ (s : State) (who : Ident) (v : BitVec 32), mgmt who = true → locked s Reg.devFrmper = false → v.toNat < 10000000 ∨ 100000000 < v.toNat →
    exec (.frmperWrite who v) s = .next (s.setRegBit Reg.devFrmctl 1 true)) ∧
  (∀ (s : State) (who : Ident) (v : BitVec 32), mgmt who = true → s.regBit Reg.devFrmctl 0 = true ∨ s.frame.nextBoundary ≠ none →
    exec (.frmcntWrite who v) s = .next (s.setRegBit Reg.devFrmctl 2 true))

/-- A map range sends different addresses to different places. Two device addresses of one range of the memory map that come to the same channel at
the same channel-local address are the same address, and the channel is one of the range's set. -/
def Obligations.MapIsOneToOne : Prop :=
  (∀ (a m : Word) (x y : Nat), m ≠ 0#64 → rangeHolds a x = true → rangeHolds a y = true → rangeMap a m x = rangeMap a m y → x = y) ∧
  (∀ (a m : Word) (x : Nat), m ≠ 0#64 → rangeHolds a x = true → (rangeMap a m x).1 < 64 ∧ bitAt m (rangeMap a m x).1 = true)

/-- A line written to DRAM reads back, and no other byte changes. A whole line written on a channel in SERVICE, or parked, leaves the line valid
with the bytes written, in order, and every other byte of DRAM and every other line's mark as they were; a line written to a channel frozen or
recovering is held for it and changes no byte; one written to a retired channel, or one off, changes nothing. -/
def Obligations.DramLineWrites : Prop :=
  (∀ (s : State) (a : Nat) (p : Nat × Nat) (bs : List Byte), mapAddr s a = some p → s.chSt p.1 = 2 ∨ s.chSt p.1 = 6 → bs.length = 128 → p.2 % 128 = 0 →
    (∀ i, i < 128 → (writeDramLine s a (bs.map some)).cell (cellKey p + i) = bs.getD i 0#8) ∧
    (∀ k, k < cellKey p ∨ cellKey p + 128 ≤ k → (writeDramLine s a (bs.map some)).cell k = s.cell k) ∧
    (writeDramLine s a (bs.map some)).mark (cellKey p / 128) = ⟨.valid, s.epoch (cellKey p / 128 / 2 ^ 24) (cellKey p / 128 / 2 ^ 21 % 8)⟩ ∧
    (∀ l, l ≠ cellKey p / 128 → (writeDramLine s a (bs.map some)).mark l = s.mark l) ∧ (writeDramLine s a (bs.map some)).regs = s.regs) ∧
  (∀ (s : State) (a : Nat) (p : Nat × Nat) (bs : List (Option Byte)), mapAddr s a = some p → s.chSt p.1 = 3 ∨ s.chSt p.1 = 4 →
    writeDramLine s a bs = { s with mem := { s.mem with held := s.mem.held ++ [⟨cellKey p / 128, bs, false⟩] } }) ∧
  (∀ (s : State) (a : Nat) (p : Nat × Nat) (bs : List (Option Byte)), mapAddr s a = some p → s.chSt p.1 = 5 ∨ s.chSt p.1 = 0 ∨ s.chSt p.1 = 1 →
    writeDramLine s a bs = s)

/-- A request that fails its checks reaches nothing. A request to an unmapped address, or one that no region of its ingress crucible permits, is
answered poisoned and changes neither memory nor any core; so does one to a DRAM address in no valid range. Each is counted: CRUC_UNMAP, CRUC_RGNREF
and DEV_MEMUNBK rise by one. -/
def Obligations.RequestsTurnedAway : Prop :=
  (∀ (s : State) (r : Req) (ecc : MemEcc) (a n : Nat) (bs : List Byte) (k : Nat), addrKind a = .unmapped → k = ingressOf s r.node (homeOf s a) →
    (readReq s r ecc a n).2.toOption = none ∧ (readReq s r ecc a n).1.mem = s.mem ∧ (readReq s r ecc a n).1.cores = s.cores ∧
    (readReq s r ecc a n).1.reg (Reg.crucUnmap k) = s.reg (Reg.crucUnmap k) + 1#64 ∧
    (writeReq s r ecc a bs).2.isSome = true ∧ (writeReq s r ecc a bs).1 = (readReq s r ecc a n).1) ∧
  (∀ (s : State) (r : Req) (ecc : MemEcc) (a n : Nat) (bs : List Byte) (k : Nat), addrKind a = .dram → r.ident < 18 →
    k = ingressOf s r.node (homeOf s a) → regionFor s k a = none →
    (readReq s r ecc a n).2.toOption = none ∧ (readReq s r ecc a n).1.mem = s.mem ∧ (readReq s r ecc a n).1.cores = s.cores ∧
    (readReq s r ecc a n).1.reg (Reg.crucRgnref k) = s.reg (Reg.crucRgnref k) + 1#64 ∧
    (writeReq s r ecc a bs).2.isSome = true ∧ (writeReq s r ecc a bs).1 = (readReq s r ecc a n).1) ∧
  (∀ (s : State) (r : Req) (ecc : MemEcc) (a n : Nat) (bs : List Byte), addrKind a = .dram → mapAddr s a = none → 18 ≤ r.ident →
    (readReq s r ecc a n).2 = .error (.mem 0x0406) ∧ (readReq s r ecc a n).1.mem = s.mem ∧ (readReq s r ecc a n).1.cores = s.cores ∧
    (readReq s r ecc a n).1.reg Reg.devMemunbk = s.reg Reg.devMemunbk + 1#64 ∧
    (writeReq s r ecc a bs).2 = some (.mem 0x0406) ∧ (writeReq s r ecc a bs).1 = (readReq s r ecc a n).1)

/-- Signals add, waits subtract, and a counter never passes its end. A signal to a plain counter adds its amount while the sum is below 2^32, and
one that would pass it faults the core with SYNC_OVERFLOW and leaves every plain counter as it was; a wait takes its amount from the counter. A
signal or a wait of a carried counter changes the pending record and never the committed value. -/
def Obligations.SyncCounterSignals : Prop :=
  (∀ (s : State) (c : Fin 96) (n : Fin 1920) (amt : Nat), s.syncVal c.val n.val + amt < 2 ^ 32 →
    signalOverflows s c.val n.val amt = false ∧ (applySignal s c.val n.val amt).syncVal c.val n.val = s.syncVal c.val n.val + amt ∧
    (∀ m : Fin 2048, m.val ≠ n.val → (applySignal s c.val n.val amt).syncVal c.val m.val = s.syncVal c.val m.val) ∧
    OnlyRegs s (applySignal s c.val n.val amt) [Reg.coreSync c.val n.val]) ∧
  (∀ (s : State) (c : Fin 96) (n : Fin 1920) (f : InFlight), f.sctr.toNat = n.val → 2 ^ 32 ≤ s.syncVal c.val n.val + f.samt → s.coreSt c.val ≠ .quarantine →
    raiseAll s c.val [f] = tileFault s c.val f.eng f.word (.plain 0x0302) ∧ (raiseAll s c.val [f]).coreSt c.val = .faulted ∧
    (raiseAll s c.val [f]).regFld (Reg.coreFault c.val) 0 16 = 0x0302 ∧
    (∀ m : Fin 1920, (raiseAll s c.val [f]).regFld (Reg.coreSync c.val m.val) 0 32 = s.regFld (Reg.coreSync c.val m.val) 0 32)) ∧
  (∀ (s : State) (c : Fin 96) (n : Fin 1920) (amt : Nat), amt ≤ s.syncVal c.val n.val →
    (takeWait s c.val n.val amt).syncVal c.val n.val = s.syncVal c.val n.val - amt ∧ OnlyRegs s (takeWait s c.val n.val amt) [Reg.coreSync c.val n.val]) ∧
  (∀ (s : State) (c : Fin 96) (n : Fin 2048) (amt : Nat), recorded s c.val n.val = true →
    ((applySignal s c.val n.val amt).core c.val).carried = (s.core c.val).carried ∧ (applySignal s c.val n.val amt).regs = s.regs ∧
    ((takeWait s c.val n.val amt).core c.val).carried = (s.core c.val).carried)

/-- A commit settles a record into the committed counters, a discard drops it. A commit of the owning command sets every carried counter C to C - D
+ P of its record and frees the record; a discard frees the record and leaves every C. Neither touches another core's counters or another owner's
record, and with no record of that owner nothing changes. -/
def Obligations.CarriedCommit : Prop :=
  (∀ (s : State) (c owner : Nat) (r : PendRec), (s.core c).records.find? (fun r => decide (r.owner = owner)) = some r →
    (∀ j : Fin 128, ((commitRecord s c owner).core c).committed (1920 + j.val) =
      (s.core c).committed (1920 + j.val) - sget 0 r.d (1920 + j.val) + sget 0 r.p (1920 + j.val)) ∧
    ((commitRecord s c owner).core c).records = (s.core c).records.filter (fun q => decide (q.owner ≠ owner)) ∧
    (∀ d, d ≠ c → (commitRecord s c owner).core d = s.core d) ∧ (commitRecord s c owner).mem = s.mem) ∧
  (∀ (s : State) (c owner : Nat) (r : PendRec), (s.core c).records.find? (fun r => decide (r.owner = owner)) = some r →
    (∀ n, ((discardRecord s c owner).core c).committed n = (s.core c).committed n) ∧
    ((discardRecord s c owner).core c).records = (s.core c).records.filter (fun q => decide (q.owner ≠ owner)) ∧
    (∀ d, d ≠ c → (discardRecord s c owner).core d = s.core d) ∧ (discardRecord s c owner).mem = s.mem) ∧
  (∀ (s : State) (c owner : Nat), (∀ r ∈ (s.core c).records, r.owner ≠ owner) → commitRecord s c owner = s ∧ discardRecord s c owner = s)

/-- Only partition 0 and Gaffer firmware change what is theirs to change. A command of management that comes from any other identity changes nothing
but device time, except that a reset request of another requester is logged as such, and one that only Gaffer firmware may give changes nothing from
any other identity. (Device time: log entry 1.) -/
def Obligations.ManagementOnly : Prop :=
  (∀ (c : Instr) (who : Ident) (s t : State), managedBy c = some who → mgmt who = false → exec c s = .next t → t = { s with now := t.now }) ∧
  (∀ (c : Instr) (who : Ident) (s t : State), firmwareOnly c = some who → who.val ≠ 16 → exec c s = .next t → t = { s with now := t.now })

/-- A function's doorbell moves no other function's ring. A doorbell write that comes over a function that does not own the ring, or that is not an
aligned 32-bit one, moves no index of any ring: it sets the ring's BADDB and changes nothing else. -/
def Obligations.OwnRingsOnly : Prop :=
  (∀ (s : State) (fn : Fin 16) (ring : Fin 256) (page : BitVec 12) (aligned : Bool) (v : BitVec 32), hostDieDown s = false →
    fn.val ≠ ringOwner s ring.val ∨ aligned = false →
    exec (.sqTailDoorbell fn ring ⟨page, aligned⟩ (some v)) s = .next (s.setRegBit (Reg.bomusRstat ring.val) 7 true) ∧
    exec (.cqHeadDoorbell fn ring ⟨page, aligned⟩ (some v)) s = .next (s.setRegBit (Reg.bomusRstat ring.val) 7 true)) ∧
  (∀ (s : State) (ring other : Fin 256), sqTail (s.setRegBit (Reg.bomusRstat ring.val) 7 true) other.val = sqTail s other.val ∧
    cqHead (s.setRegBit (Reg.bomusRstat ring.val) 7 true) other.val = cqHead s other.val ∧ ringSt (s.setRegBit (Reg.bomusRstat ring.val) 7 true) other.val = ringSt s other.val)

/-- Minimums are admitted up to four fifths of a crucible's capacity, and nothing beyond is stored. The minimums at a crucible are admitted while
five times their sum over the 21 masters, pending values included, is at most four times REGCAP. From partition 0 or Gaffer firmware, a budget that
would break this changes nothing but ADMREF, which it sets; a WIN outside 1 to 64, or one that would break it at any crucible, changes nothing but
WINREF, which it sets. -/
def Obligations.BudgetAdmission : Prop :=
  (∀ (s : State) (k : Fin 4), minSum s k.val = ((List.range 21).map (fun m => s.regFld (Reg.devRegbud k.val m) 32 20)).sum ∧
    (∀ n cap : Nat, admitted n cap = true ↔ 5 * n ≤ 4 * cap)) ∧
  (∀ (s : State) (who : Ident) (k : Fin 4) (m : Fin 21) (v : BitVec 64), mgmt who = true →
    admitted (minSum (s.setReg (Reg.devRegbud k.val m.val) (setFld (setFld 0#64 0 20 (budField v)) 32 20 (minField v))) k.val)
      (s.regcap k.val) = false →
    exec (.regbudWrite who k m v) s = .next (s.setRegBit Reg.devRegstat 0 true)) ∧
  (∀ (s : State) (who : Ident) (v : BitVec 32), mgmt who = true → bitsOf v.toNat 0 7 = 0 ∨ 64 < bitsOf v.toNat 0 7 ∨
      (∃ k : Fin 4, admitted (minSum s k.val) (capFormula (bitsOf v.toNat 0 7) s.mem.refForce (liveChannels s k.val)) = false) →
    exec (.regctlWrite who v) s = .next (s.setRegBit Reg.devRegstat 1 true))

/-- A step runs the command at the front of the queue, and an empty queue idles. With a command at the front of the queue the step is that command's
effect on the state with the rest of the queue; with no command waiting nothing changes (DESIGN CHOICE, log entry 2). -/
def Obligations.StepTakesTheFront : Prop :=
  (∀ (c : Instr) (rest : List Instr) (s : State), step { s with pending := c :: rest } = exec c { s with pending := rest }) ∧
  (∀ s : State, s.pending = [] → step s = .next s)

/-- The machine right after reset. Every register reads as its table's reset value, nothing is listed in DRAM, no command waits, every event log is
empty, nothing has left the device; among the values are the frame period of 33,333,333 ns, a frame timer that is stopped, frame 0, and every core
in RESET with CORE_STATE 0x7F01, CORE_STEPMIN 0xFFFF and no failed column in CORE_COLMAP. That device time is 0 then is the model's choice (log
entry 1). -/
def Obligations.ResetLeaves : Prop :=
  (∀ off : Nat, State.reset.reg off = regReset off) ∧
  (State.reset.pending = [] ∧ State.reset.mem.bytes = [] ∧ State.reset.now = 0 ∧ State.reset.canOut = [] ∧ State.reset.bench.hostOut = [] ∧
    State.reset.blow.sent = [] ∧ State.reset.sigOut = [] ∧ State.reset.bench.cmds = [] ∧ State.reset.rst.log.entries = [] ∧
    State.reset.timerStopped = true ∧ State.reset.frmcnt = 0) ∧
  (State.reset.frmper = 33333333 ∧ ∀ c : Fin 96, State.reset.coreSt c.val = .reset ∧ State.reset.reg (Reg.coreState c.val) = 0x7F01#64 ∧
    State.reset.reg (Reg.coreStepmin c.val) = 0xFFFF#64 ∧ State.reset.reg (Reg.coreColmap c.val) = 0xFFFFFFFF#64)

/-- The machine right after reset meets the invariant that every step keeps. Its register file and DRAM are in canonical form, its event logs are
within their capacity and no ill-formed command waits. -/
def Obligations.ResetKeepsTheInvariant : Prop :=
  Inv State.reset

/-- Every step keeps the invariant. From every state in which the register file and DRAM are in canonical form, every event log holds no more
entries than its chapter gives it room for and every waiting command is well-formed, a step leads to such a state again, whatever the command and
whatever it meets. -/
def Obligations.StepKeepsTheInvariant : Prop :=
  ∀ s t : State, Inv s → step s = .next t → Inv t

/-- No command stops the machine. Every command in every state whose register file, DRAM and event logs are in order has an effect: none ends in a
fault or a refusal, and none changes the queue of those that wait. -/
def Obligations.EveryCommandAnswers : Prop :=
  (∀ (c : Instr) (s : State), RegsWf s → Memory.wf s.mem → LogsWf s → ∃ t, exec c s = .next t ∧ t.pending = s.pending) ∧
  (∀ (c : Instr) (s : State), RegsWf s → Memory.wf s.mem → LogsWf s → (∀ f, exec c s ≠ .fault f) ∧ ∀ r, exec c s ≠ .refused r)

/-- What has left the device is never taken back. After any number of steps the frames sent on CAN, the writes and messages sent to the host and the
packets sent on Blowpipe begin with those sent before, in the order they were sent. -/
def Obligations.WhatLeftTheDeviceStays : Prop :=
  ∀ (n : Nat) (s t : State), RegsWf s → Memory.wf s.mem → LogsWf s → stepsTo n s = some t →
    s.canOut <+: t.canOut ∧ s.bench.hostOut <+: t.bench.hostOut ∧ s.blow.sent <+: t.blow.sent

/-- Fuses are never cleared. No step lowers the number of blown fuses of any type, and none changes the fuse that refuses every debug unlock. -/
def Obligations.FusesNeverCleared : Prop :=
  ∀ (n : Nat) (s t : State), RegsWf s → Memory.wf s.mem → LogsWf s → stepsTo n s = some t →
    (∀ ty, sget 0 s.cfg.arbFuses ty ≤ sget 0 t.cfg.arbFuses ty) ∧ t.cfg.dbgDisFuse = s.cfg.dbgDisFuse
end

