-- ==== Sys2Proof/Laws/Bits.lean ====
section
/-! SUPPORT. The laws of bit fields: what a field reads as after a field was written. -/

namespace Sys2Proof.Machine

theorem fld_lt (w : Word) (lo n : Nat) : fld w lo n < 2 ^ n := Nat.mod_lt _ (Nat.two_pow_pos n)

theorem setFld_lt_aux (w : Word) (lo n v : Nat) (h : lo + n ≤ 64) :
    w.toNat - fld w lo n * 2 ^ lo + v % 2 ^ n * 2 ^ lo
      = w.toNat / 2 ^ (lo + n) * 2 ^ (lo + n) + v % 2 ^ n * 2 ^ lo + w.toNat % 2 ^ lo
    ∧ w.toNat / 2 ^ (lo + n) * 2 ^ (lo + n) + v % 2 ^ n * 2 ^ lo + w.toNat % 2 ^ lo < 2 ^ 64 := by
  have hp : (2 : Nat) ^ (lo + n) = 2 ^ lo * 2 ^ n := Nat.pow_add 2 lo n
  have h1 : w.toNat = w.toNat / 2 ^ lo * 2 ^ lo + w.toNat % 2 ^ lo := by
    rw [Nat.mul_comm]; exact (Nat.div_add_mod _ _).symm
  have h2 : w.toNat / 2 ^ lo = w.toNat / 2 ^ (lo + n) * 2 ^ n + fld w lo n := by
    unfold fld bitsOf
    rw [hp, ← Nat.div_div_eq_div_mul, Nat.mul_comm]
    exact (Nat.div_add_mod _ _).symm
  have h3 : w.toNat = w.toNat / 2 ^ (lo + n) * 2 ^ (lo + n) + fld w lo n * 2 ^ lo + w.toNat % 2 ^ lo := by
    conv => lhs; rw [h1, h2]
    rw [hp, Nat.add_mul, Nat.mul_assoc, Nat.mul_comm (2 ^ n)]
  constructor
  · omega
  · have hlo : w.toNat % 2 ^ lo < 2 ^ lo := Nat.mod_lt _ (Nat.two_pow_pos lo)
    have hv : v % 2 ^ n < 2 ^ n := Nat.mod_lt _ (Nat.two_pow_pos n)
    have hmid : v % 2 ^ n * 2 ^ lo + w.toNat % 2 ^ lo < 2 ^ (lo + n) := by
      have : (v % 2 ^ n + 1) * 2 ^ lo ≤ 2 ^ n * 2 ^ lo := Nat.mul_le_mul_right _ hv
      rw [Nat.add_mul] at this
      rw [hp, Nat.mul_comm (2 ^ lo)]
      omega
    have hq : w.toNat / 2 ^ (lo + n) < 2 ^ (64 - (lo + n)) := by
      apply Nat.div_lt_of_lt_mul
      rw [← Nat.pow_add]
      have : lo + n + (64 - (lo + n)) = 64 := by omega
      rw [this]
      exact w.isLt
    have hfull : (w.toNat / 2 ^ (lo + n) + 1) * 2 ^ (lo + n) ≤ 2 ^ (64 - (lo + n)) * 2 ^ (lo + n) := Nat.mul_le_mul_right _ hq
    rw [← Nat.pow_add, Nat.add_mul] at hfull
    have : 64 - (lo + n) + (lo + n) = 64 := by omega
    rw [this] at hfull
    omega

/-- The number a word with a replaced field stands for: what lies above the field, the field, what lies below it. -/
theorem setFld_toNat (w : Word) (lo n v : Nat) (h : lo + n ≤ 64) :
    (setFld w lo n v).toNat = w.toNat / 2 ^ (lo + n) * 2 ^ (lo + n) + v % 2 ^ n * 2 ^ lo + w.toNat % 2 ^ lo := by
  obtain ⟨h1, h2⟩ := setFld_lt_aux w lo n v h
  simp only [setFld, BitVec.toNat_ofNat, h1]
  exact Nat.mod_eq_of_lt h2

/-- A field just written reads as what was written, cut to the field. -/
theorem fld_setFld_same (w : Word) (lo n v : Nat) (h : lo + n ≤ 64) : fld (setFld w lo n v) lo n = v % 2 ^ n := by
  have hw := setFld_toNat w lo n v h
  have hlo : w.toNat % 2 ^ lo < 2 ^ lo := Nat.mod_lt _ (Nat.two_pow_pos lo)
  unfold fld bitsOf at *
  rw [hw, Nat.pow_add, Nat.mul_comm (2 ^ lo) (2 ^ n), ← Nat.mul_assoc, ← Nat.add_mul, Nat.add_comm, Nat.add_mul_div_right _ _ (Nat.two_pow_pos lo),
    Nat.div_eq_of_lt hlo, Nat.zero_add, Nat.mul_comm, Nat.mul_add_mod, Nat.mod_mod]

/-- A write of a field leaves a field above it as it was. -/
theorem fld_setFld_above (w : Word) (lo n v lo' n' : Nat) (h : lo + n ≤ 64) (hd : lo + n ≤ lo') :
    fld (setFld w lo n v) lo' n' = fld w lo' n' := by
  have hw := setFld_toNat w lo n v h
  have hlo : w.toNat % 2 ^ lo < 2 ^ lo := Nat.mod_lt _ (Nat.two_pow_pos lo)
  have hv : v % 2 ^ n < 2 ^ n := Nat.mod_lt _ (Nat.two_pow_pos n)
  have hp : (2 : Nat) ^ (lo + n) = 2 ^ lo * 2 ^ n := Nat.pow_add 2 lo n
  have hmid : v % 2 ^ n * 2 ^ lo + w.toNat % 2 ^ lo < 2 ^ (lo + n) := by
    have : (v % 2 ^ n + 1) * 2 ^ lo ≤ 2 ^ n * 2 ^ lo := Nat.mul_le_mul_right _ hv
    rw [Nat.add_mul] at this
    rw [hp, Nat.mul_comm (2 ^ lo)]
    omega
  have key : (setFld w lo n v).toNat / 2 ^ (lo + n) = w.toNat / 2 ^ (lo + n) := by
    rw [hw, Nat.add_assoc, Nat.add_comm, Nat.add_mul_div_right _ _ (Nat.two_pow_pos _), Nat.div_eq_of_lt hmid, Nat.zero_add]
  have he : lo' = lo + n + (lo' - (lo + n)) := by omega
  unfold fld bitsOf
  rw [he, Nat.pow_add 2 (lo + n), ← Nat.div_div_eq_div_mul, ← Nat.div_div_eq_div_mul, key]

/-- A write of a field leaves a field below it as it was. -/
theorem fld_setFld_below (w : Word) (lo n v lo' n' : Nat) (h : lo + n ≤ 64) (hd : lo' + n' ≤ lo) :
    fld (setFld w lo n v) lo' n' = fld w lo' n' := by
  have hw := setFld_toNat w lo n v h
  have hp : (2 : Nat) ^ lo = 2 ^ lo' * (2 ^ n' * 2 ^ (lo - lo' - n')) := by
    rw [← Nat.pow_add, ← Nat.pow_add]
    congr 1
    omega
  have hmod : ∀ x : Nat, x % 2 ^ lo / 2 ^ lo' % 2 ^ n' = x / 2 ^ lo' % 2 ^ n' := by
    intro x
    rw [hp, Nat.mod_mul_right_div_self, Nat.mod_mul_right_mod]
  have hsame : (setFld w lo n v).toNat % 2 ^ lo = w.toNat % 2 ^ lo := by
    rw [hw, Nat.pow_add, Nat.mul_comm (2 ^ lo) (2 ^ n), ← Nat.mul_assoc, ← Nat.add_mul, Nat.add_comm, Nat.add_mul_mod_self_right, Nat.mod_mod]
  unfold fld bitsOf
  rw [← hmod, hsame, hmod]

/-- A write of a field leaves every field that does not overlap it as it was. -/
theorem fld_setFld_other (w : Word) (lo n v lo' n' : Nat) (h : lo + n ≤ 64) (hd : lo + n ≤ lo' ∨ lo' + n' ≤ lo) :
    fld (setFld w lo n v) lo' n' = fld w lo' n' := by
  rcases hd with hd | hd
  · exact fld_setFld_above w lo n v lo' n' h hd
  · exact fld_setFld_below w lo n v lo' n' h hd

theorem bitAt_setBit_same (w : Word) (i : Nat) (b : Bool) (h : i < 64) : bitAt (setBit w i b) i = b := by
  unfold bitAt setBit
  rw [fld_setFld_same w i 1 _ (by omega)]
  cases b <;> simp

theorem bitAt_setBit_other (w : Word) (i j : Nat) (b : Bool) (h : i < 64) (hij : i ≠ j) : bitAt (setBit w i b) j = bitAt w j := by
  unfold bitAt setBit
  rw [fld_setFld_other w i 1 _ j 1 (by omega) (by omega)]

theorem fld_setBit_other (w : Word) (i lo n : Nat) (b : Bool) (h : i < 64) (hd : i < lo ∨ lo + n ≤ i) :
    fld (setBit w i b) lo n = fld w lo n := by
  unfold setBit
  exact fld_setFld_other w i 1 _ lo n (by omega) (by omega)

theorem bitAt_setFld_other (w : Word) (lo n v i : Nat) (h : lo + n ≤ 64) (hd : i < lo ∨ lo + n ≤ i) :
    bitAt (setFld w lo n v) i = bitAt w i := by
  unfold bitAt
  rw [fld_setFld_other w lo n v i 1 h (by omega)]

end Sys2Proof.Machine
end

