-- ==== Sys2Proof/Laws/Sparse.lean ====
section
/-! SUPPORT. The laws of sparse tables: what a read after a write gives, and that every operation keeps the canonical form. -/

namespace Sys2Proof.Machine

variable {α : Type}

/-- A larger lower bound is a stronger one. -/
theorem sortedFrom_mono {m : List (Nat × α)} {a b : Nat} (hab : a ≤ b) (h : sortedFrom b m = true) : sortedFrom a m = true := by
  cases m with
  | nil => rfl
  | cons q m =>
    simp only [sortedFrom, Bool.and_eq_true, decide_eq_true_eq] at h ⊢
    exact ⟨by omega, h.2⟩

/-- An index below every listed one reads as the default. -/
theorem sget_below (d : α) {m : List (Nat × α)} {b i : Nat} (h : sortedFrom b m = true) (hi : i < b) : sget d m i = d := by
  induction m generalizing b with
  | nil => rfl
  | cons q m ih =>
    obtain ⟨k, v⟩ := q
    simp only [sortedFrom, Bool.and_eq_true, decide_eq_true_eq] at h
    have hk : k ≠ i := by omega
    simp only [sget, if_neg hk]
    exact ih h.2 (by omega)

theorem sdel_sorted {m : List (Nat × α)} {b i : Nat} (h : sortedFrom b m = true) : sortedFrom b (sdel m i) = true := by
  induction m generalizing b with
  | nil => rfl
  | cons q m ih =>
    obtain ⟨k, v⟩ := q
    simp only [sortedFrom, Bool.and_eq_true, decide_eq_true_eq] at h
    by_cases hk : k = i
    · simpa only [sdel, if_pos hk] using ih (sortedFrom_mono (by omega) h.2)
    · simp only [sdel, if_neg hk, sortedFrom, Bool.and_eq_true, decide_eq_true_eq]
      exact ⟨h.1, ih h.2⟩

theorem sins_sorted {m : List (Nat × α)} {b i : Nat} {x : α} (hb : b ≤ i) (h : sortedFrom b m = true) :
    sortedFrom b (sins m i x) = true := by
  induction m generalizing b with
  | nil => simp [sins, sortedFrom, hb]
  | cons q m ih =>
    obtain ⟨k, v⟩ := q
    simp only [sortedFrom, Bool.and_eq_true, decide_eq_true_eq] at h
    by_cases hk : k = i
    · subst hk
      simpa [sins, sortedFrom] using h
    · by_cases hlt : i < k
      · simp only [sins, if_neg hk, if_pos hlt, sortedFrom, Bool.and_eq_true, decide_eq_true_eq]
        exact ⟨hb, by omega, h.2⟩
      · simp only [sins, if_neg hk, if_neg hlt, sortedFrom, Bool.and_eq_true, decide_eq_true_eq]
        exact ⟨h.1, ih (by omega) h.2⟩

/-- A read at the index just written by an insertion. -/
theorem sget_sins_same (d : α) (m : List (Nat × α)) (i : Nat) (x : α) : sget d (sins m i x) i = x := by
  induction m with
  | nil => simp [sins, sget]
  | cons q m ih =>
    obtain ⟨k, v⟩ := q
    by_cases hk : k = i
    · simp [sins, sget, hk]
    · by_cases hlt : i < k
      · simp [sins, sget, hk, hlt]
      · simp [sins, sget, hk, hlt, ih]

/-- A read at another index than the one an insertion wrote. -/
theorem sget_sins_other (d : α) (m : List (Nat × α)) {i j : Nat} (x : α) (hij : j ≠ i) : sget d (sins m i x) j = sget d m j := by
  induction m with
  | nil => simp [sins, sget, hij.symm]
  | cons q m ih =>
    obtain ⟨k, v⟩ := q
    by_cases hk : k = i
    · subst hk
      simp [sins, sget, hij.symm]
    · by_cases hlt : i < k
      · simp [sins, sget, hk, hlt, hij.symm]
      · simp only [sins, if_neg hk, if_neg hlt, sget, ih]

/-- A read at a removed index. -/
theorem sget_sdel_same (d : α) (m : List (Nat × α)) (i : Nat) : sget d (sdel m i) i = d := by
  induction m with
  | nil => rfl
  | cons q m ih =>
    obtain ⟨k, v⟩ := q
    by_cases hk : k = i
    · simp only [sdel, if_pos hk, ih]
    · simp only [sdel, if_neg hk, sget, ih]

theorem sget_sdel_other (d : α) (m : List (Nat × α)) {i j : Nat} (hij : j ≠ i) : sget d (sdel m i) j = sget d m j := by
  induction m with
  | nil => rfl
  | cons q m ih =>
    obtain ⟨k, v⟩ := q
    by_cases hk : k = i
    · subst hk
      simp only [sdel, if_pos, sget, if_neg hij.symm, ih]
    · simp only [sdel, if_neg hk, sget, ih]

/-- Read after write, at the same index. -/
theorem sget_sput_same [DecidableEq α] (d : α) (m : List (Nat × α)) (i : Nat) (x : α) : sget d (sput d m i x) i = x := by
  unfold sput
  split
  · next hx => rw [hx]; exact sget_sdel_same d m i
  · exact sget_sins_same d m i x

/-- A write leaves every other index as it was. -/
theorem sget_sput_other [DecidableEq α] (d d' : α) (m : List (Nat × α)) {i j : Nat} (x : α) (hij : j ≠ i) :
    sget d (sput d' m i x) j = sget d m j := by
  unfold sput
  split
  · exact sget_sdel_other d m hij
  · exact sget_sins_other d m x hij

theorem sins_all {m : List (Nat × α)} {i : Nat} {x : α} {p : Nat × α → Bool} (hx : p (i, x) = true) (h : m.all p = true) :
    (sins m i x).all p = true := by
  induction m with
  | nil => simp [sins, hx]
  | cons q m ih =>
    obtain ⟨k, v⟩ := q
    simp only [List.all_cons, Bool.and_eq_true] at h
    by_cases hk : k = i
    · simp [sins, hk, hx, h.2]
    · by_cases hlt : i < k
      · simp [sins, hk, hlt, hx, h.1, h.2]
      · simp [sins, hk, hlt, h.1, ih h.2]

theorem sdel_all {m : List (Nat × α)} {i : Nat} {p : Nat × α → Bool} (h : m.all p = true) : (sdel m i).all p = true := by
  induction m with
  | nil => rfl
  | cons q m ih =>
    obtain ⟨k, v⟩ := q
    simp only [List.all_cons, Bool.and_eq_true] at h
    by_cases hk : k = i
    · simp [sdel, hk, ih h.2]
    · simp [sdel, hk, h.1, ih h.2]

/-- A table in canonical form has rising indices. -/
theorem sparseWf_sorted [DecidableEq α] {d : Nat → α} {m : List (Nat × α)} (h : sparseWf d m = true) : sortedFrom 0 m = true := by
  simp only [sparseWf, Bool.and_eq_true] at h
  exact h.1

/-- A write keeps the canonical form. -/
theorem sparseWf_sput [DecidableEq α] {d : Nat → α} {m : List (Nat × α)} (i : Nat) (x : α) (h : sparseWf d m = true) :
    sparseWf d (sput (d i) m i x) = true := by
  simp only [sparseWf, Bool.and_eq_true] at h ⊢
  unfold sput
  split
  · exact ⟨sdel_sorted h.1, sdel_all h.2⟩
  · next hx => exact ⟨sins_sorted (Nat.zero_le i) h.1, sins_all (by simpa using hx) h.2⟩

/-- A removal keeps the canonical form. -/
theorem sparseWf_sdel [DecidableEq α] {d : Nat → α} {m : List (Nat × α)} (i : Nat) (h : sparseWf d m = true) : sparseWf d (sdel m i) = true := by
  simp only [sparseWf, Bool.and_eq_true] at h ⊢
  exact ⟨sdel_sorted h.1, sdel_all h.2⟩

theorem sclear_sorted {m : List (Nat × α)} {b : Nat} (p : Nat → Bool) (h : sortedFrom b m = true) :
    sortedFrom b (sclear p m) = true := by
  induction m generalizing b with
  | nil => rfl
  | cons q m ih =>
    obtain ⟨k, v⟩ := q
    simp only [sortedFrom, Bool.and_eq_true, decide_eq_true_eq] at h
    have hm := ih h.2
    by_cases hp : p k = true
    · have he : sclear p ((k, v) :: m) = sclear p m := by simp [sclear, hp]
      rw [he]
      exact sortedFrom_mono (by omega) hm
    · have he : sclear p ((k, v) :: m) = (k, v) :: sclear p m := by simp [sclear, hp]
      rw [he]
      simp only [sortedFrom, Bool.and_eq_true, decide_eq_true_eq]
      exact ⟨h.1, hm⟩

/-- Setting a range back to its default keeps the canonical form. -/
theorem sparseWf_sclear [DecidableEq α] {d : Nat → α} {m : List (Nat × α)} (p : Nat → Bool) (h : sparseWf d m = true) :
    sparseWf d (sclear p m) = true := by
  simp only [sparseWf, Bool.and_eq_true] at h ⊢
  refine ⟨sclear_sorted p h.1, ?_⟩
  simp only [List.all_eq_true] at h ⊢
  intro x hx
  exact h.2 x (List.mem_filter.mp hx).1

/-- A cleared index reads as the default. -/
theorem sget_sclear_in (d : α) (m : List (Nat × α)) {p : Nat → Bool} {i : Nat} (hp : p i = true) : sget d (sclear p m) i = d := by
  induction m with
  | nil => rfl
  | cons q m ih =>
    obtain ⟨k, v⟩ := q
    by_cases hk : p k = true
    · have he : sclear p ((k, v) :: m) = sclear p m := by simp [sclear, hk]
      rw [he, ih]
    · have he : sclear p ((k, v) :: m) = (k, v) :: sclear p m := by simp [sclear, hk]
      have hne : k ≠ i := fun e => hk (e ▸ hp)
      rw [he]
      simp only [sget, if_neg hne, ih]

/-- An index outside what is cleared reads as before. -/
theorem sget_sclear_out (d : α) (m : List (Nat × α)) {p : Nat → Bool} {i : Nat} (hp : p i = false) :
    sget d (sclear p m) i = sget d m i := by
  induction m with
  | nil => rfl
  | cons q m ih =>
    obtain ⟨k, v⟩ := q
    by_cases hk : p k = true
    · have he : sclear p ((k, v) :: m) = sclear p m := by simp [sclear, hk]
      have hne : k ≠ i := fun e => by simp [e, hp] at hk
      rw [he, ih]
      simp [sget, hne]
    · have he : sclear p ((k, v) :: m) = (k, v) :: sclear p m := by simp [sclear, hk]
      rw [he]
      simp only [sget, ih]

end Sys2Proof.Machine
end

