-- ==== Sys2Proof/Laws/State.lean ====
section
/-! SUPPORT. What the primitive updates of the state leave as it was, field by field, and what a register reads as after a write. -/

namespace Sys2Proof.Machine

/-! ### Fields -/

@[simp] theorem State.setReg_pending (s : State) (off : Nat) (v : Word) : (s.setReg off v).pending = s.pending := rfl
@[simp] theorem State.setReg_now (s : State) (off : Nat) (v : Word) : (s.setReg off v).now = s.now := rfl
@[simp] theorem State.setReg_fresh (s : State) (off : Nat) (v : Word) : (s.setReg off v).fresh = s.fresh := rfl
@[simp] theorem State.setReg_readData (s : State) (off : Nat) (v : Word) : (s.setReg off v).readData = s.readData := rfl
@[simp] theorem State.setReg_cores (s : State) (off : Nat) (v : Word) : (s.setReg off v).cores = s.cores := rfl
@[simp] theorem State.setReg_mem (s : State) (off : Nat) (v : Word) : (s.setReg off v).mem = s.mem := rfl
@[simp] theorem State.setReg_cache (s : State) (off : Nat) (v : Word) : (s.setReg off v).cache = s.cache := rfl
@[simp] theorem State.setReg_regul (s : State) (off : Nat) (v : Word) : (s.setReg off v).regul = s.regul := rfl
@[simp] theorem State.setReg_lehrA (s : State) (off : Nat) (v : Word) : (s.setReg off v).lehrA = s.lehrA := rfl
@[simp] theorem State.setReg_lehrB (s : State) (off : Nat) (v : Word) : (s.setReg off v).lehrB = s.lehrB := rfl
@[simp] theorem State.setReg_canOut (s : State) (off : Nat) (v : Word) : (s.setReg off v).canOut = s.canOut := rfl
@[simp] theorem State.setReg_frame (s : State) (off : Nat) (v : Word) : (s.setReg off v).frame = s.frame := rfl
@[simp] theorem State.setReg_rst (s : State) (off : Nat) (v : Word) : (s.setReg off v).rst = s.rst := rfl
@[simp] theorem State.setReg_cfg (s : State) (off : Nat) (v : Word) : (s.setReg off v).cfg = s.cfg := rfl
@[simp] theorem State.setReg_therm (s : State) (off : Nat) (v : Word) : (s.setReg off v).therm = s.therm := rfl
@[simp] theorem State.setReg_pins (s : State) (off : Nat) (v : Word) : (s.setReg off v).pins = s.pins := rfl
@[simp] theorem State.setReg_faultRecord (s : State) (off : Nat) (v : Word) : (s.setReg off v).faultRecord = s.faultRecord := rfl
@[simp] theorem State.setReg_fab (s : State) (off : Nat) (v : Word) : (s.setReg off v).fab = s.fab := rfl
@[simp] theorem State.setReg_sigOut (s : State) (off : Nat) (v : Word) : (s.setReg off v).sigOut = s.sigOut := rfl
@[simp] theorem State.setReg_cullet (s : State) (off : Nat) (v : Word) : (s.setReg off v).cullet = s.cullet := rfl
@[simp] theorem State.setReg_bench (s : State) (off : Nat) (v : Word) : (s.setReg off v).bench = s.bench := rfl
@[simp] theorem State.setReg_blow (s : State) (off : Nat) (v : Word) : (s.setReg off v).blow = s.blow := rfl
@[simp] theorem State.setReg_marver (s : State) (off : Nat) (v : Word) : (s.setReg off v).marver = s.marver := rfl

@[simp] theorem State.setRegFld_pending (s : State) (off lo n v : Nat) : (s.setRegFld off lo n v).pending = s.pending := rfl
@[simp] theorem State.setRegFld_now (s : State) (off lo n v : Nat) : (s.setRegFld off lo n v).now = s.now := rfl
@[simp] theorem State.setRegFld_fresh (s : State) (off lo n v : Nat) : (s.setRegFld off lo n v).fresh = s.fresh := rfl
@[simp] theorem State.setRegFld_readData (s : State) (off lo n v : Nat) : (s.setRegFld off lo n v).readData = s.readData := rfl
@[simp] theorem State.setRegFld_cores (s : State) (off lo n v : Nat) : (s.setRegFld off lo n v).cores = s.cores := rfl
@[simp] theorem State.setRegFld_mem (s : State) (off lo n v : Nat) : (s.setRegFld off lo n v).mem = s.mem := rfl
@[simp] theorem State.setRegFld_cache (s : State) (off lo n v : Nat) : (s.setRegFld off lo n v).cache = s.cache := rfl
@[simp] theorem State.setRegFld_regul (s : State) (off lo n v : Nat) : (s.setRegFld off lo n v).regul = s.regul := rfl
@[simp] theorem State.setRegFld_lehrA (s : State) (off lo n v : Nat) : (s.setRegFld off lo n v).lehrA = s.lehrA := rfl
@[simp] theorem State.setRegFld_lehrB (s : State) (off lo n v : Nat) : (s.setRegFld off lo n v).lehrB = s.lehrB := rfl
@[simp] theorem State.setRegFld_canOut (s : State) (off lo n v : Nat) : (s.setRegFld off lo n v).canOut = s.canOut := rfl
@[simp] theorem State.setRegFld_frame (s : State) (off lo n v : Nat) : (s.setRegFld off lo n v).frame = s.frame := rfl
@[simp] theorem State.setRegFld_rst (s : State) (off lo n v : Nat) : (s.setRegFld off lo n v).rst = s.rst := rfl
@[simp] theorem State.setRegFld_cfg (s : State) (off lo n v : Nat) : (s.setRegFld off lo n v).cfg = s.cfg := rfl
@[simp] theorem State.setRegFld_therm (s : State) (off lo n v : Nat) : (s.setRegFld off lo n v).therm = s.therm := rfl
@[simp] theorem State.setRegFld_pins (s : State) (off lo n v : Nat) : (s.setRegFld off lo n v).pins = s.pins := rfl
@[simp] theorem State.setRegFld_faultRecord (s : State) (off lo n v : Nat) : (s.setRegFld off lo n v).faultRecord = s.faultRecord := rfl
@[simp] theorem State.setRegFld_fab (s : State) (off lo n v : Nat) : (s.setRegFld off lo n v).fab = s.fab := rfl
@[simp] theorem State.setRegFld_sigOut (s : State) (off lo n v : Nat) : (s.setRegFld off lo n v).sigOut = s.sigOut := rfl
@[simp] theorem State.setRegFld_cullet (s : State) (off lo n v : Nat) : (s.setRegFld off lo n v).cullet = s.cullet := rfl
@[simp] theorem State.setRegFld_bench (s : State) (off lo n v : Nat) : (s.setRegFld off lo n v).bench = s.bench := rfl
@[simp] theorem State.setRegFld_blow (s : State) (off lo n v : Nat) : (s.setRegFld off lo n v).blow = s.blow := rfl
@[simp] theorem State.setRegFld_marver (s : State) (off lo n v : Nat) : (s.setRegFld off lo n v).marver = s.marver := rfl

@[simp] theorem State.setRegBit_pending (s : State) (off i : Nat) (b : Bool) : (s.setRegBit off i b).pending = s.pending := rfl
@[simp] theorem State.setRegBit_now (s : State) (off i : Nat) (b : Bool) : (s.setRegBit off i b).now = s.now := rfl
@[simp] theorem State.setRegBit_fresh (s : State) (off i : Nat) (b : Bool) : (s.setRegBit off i b).fresh = s.fresh := rfl
@[simp] theorem State.setRegBit_readData (s : State) (off i : Nat) (b : Bool) : (s.setRegBit off i b).readData = s.readData := rfl
@[simp] theorem State.setRegBit_cores (s : State) (off i : Nat) (b : Bool) : (s.setRegBit off i b).cores = s.cores := rfl
@[simp] theorem State.setRegBit_mem (s : State) (off i : Nat) (b : Bool) : (s.setRegBit off i b).mem = s.mem := rfl
@[simp] theorem State.setRegBit_cache (s : State) (off i : Nat) (b : Bool) : (s.setRegBit off i b).cache = s.cache := rfl
@[simp] theorem State.setRegBit_regul (s : State) (off i : Nat) (b : Bool) : (s.setRegBit off i b).regul = s.regul := rfl
@[simp] theorem State.setRegBit_lehrA (s : State) (off i : Nat) (b : Bool) : (s.setRegBit off i b).lehrA = s.lehrA := rfl
@[simp] theorem State.setRegBit_lehrB (s : State) (off i : Nat) (b : Bool) : (s.setRegBit off i b).lehrB = s.lehrB := rfl
@[simp] theorem State.setRegBit_canOut (s : State) (off i : Nat) (b : Bool) : (s.setRegBit off i b).canOut = s.canOut := rfl
@[simp] theorem State.setRegBit_frame (s : State) (off i : Nat) (b : Bool) : (s.setRegBit off i b).frame = s.frame := rfl
@[simp] theorem State.setRegBit_rst (s : State) (off i : Nat) (b : Bool) : (s.setRegBit off i b).rst = s.rst := rfl
@[simp] theorem State.setRegBit_cfg (s : State) (off i : Nat) (b : Bool) : (s.setRegBit off i b).cfg = s.cfg := rfl
@[simp] theorem State.setRegBit_therm (s : State) (off i : Nat) (b : Bool) : (s.setRegBit off i b).therm = s.therm := rfl
@[simp] theorem State.setRegBit_pins (s : State) (off i : Nat) (b : Bool) : (s.setRegBit off i b).pins = s.pins := rfl
@[simp] theorem State.setRegBit_faultRecord (s : State) (off i : Nat) (b : Bool) : (s.setRegBit off i b).faultRecord = s.faultRecord := rfl
@[simp] theorem State.setRegBit_fab (s : State) (off i : Nat) (b : Bool) : (s.setRegBit off i b).fab = s.fab := rfl
@[simp] theorem State.setRegBit_sigOut (s : State) (off i : Nat) (b : Bool) : (s.setRegBit off i b).sigOut = s.sigOut := rfl
@[simp] theorem State.setRegBit_cullet (s : State) (off i : Nat) (b : Bool) : (s.setRegBit off i b).cullet = s.cullet := rfl
@[simp] theorem State.setRegBit_bench (s : State) (off i : Nat) (b : Bool) : (s.setRegBit off i b).bench = s.bench := rfl
@[simp] theorem State.setRegBit_blow (s : State) (off i : Nat) (b : Bool) : (s.setRegBit off i b).blow = s.blow := rfl
@[simp] theorem State.setRegBit_marver (s : State) (off i : Nat) (b : Bool) : (s.setRegBit off i b).marver = s.marver := rfl

@[simp] theorem State.bump_pending (s : State) (off k : Nat) : (s.bump off k).pending = s.pending := rfl
@[simp] theorem State.bump_now (s : State) (off k : Nat) : (s.bump off k).now = s.now := rfl
@[simp] theorem State.bump_fresh (s : State) (off k : Nat) : (s.bump off k).fresh = s.fresh := rfl
@[simp] theorem State.bump_readData (s : State) (off k : Nat) : (s.bump off k).readData = s.readData := rfl
@[simp] theorem State.bump_cores (s : State) (off k : Nat) : (s.bump off k).cores = s.cores := rfl
@[simp] theorem State.bump_mem (s : State) (off k : Nat) : (s.bump off k).mem = s.mem := rfl
@[simp] theorem State.bump_cache (s : State) (off k : Nat) : (s.bump off k).cache = s.cache := rfl
@[simp] theorem State.bump_regul (s : State) (off k : Nat) : (s.bump off k).regul = s.regul := rfl
@[simp] theorem State.bump_lehrA (s : State) (off k : Nat) : (s.bump off k).lehrA = s.lehrA := rfl
@[simp] theorem State.bump_lehrB (s : State) (off k : Nat) : (s.bump off k).lehrB = s.lehrB := rfl
@[simp] theorem State.bump_canOut (s : State) (off k : Nat) : (s.bump off k).canOut = s.canOut := rfl
@[simp] theorem State.bump_frame (s : State) (off k : Nat) : (s.bump off k).frame = s.frame := rfl
@[simp] theorem State.bump_rst (s : State) (off k : Nat) : (s.bump off k).rst = s.rst := rfl
@[simp] theorem State.bump_cfg (s : State) (off k : Nat) : (s.bump off k).cfg = s.cfg := rfl
@[simp] theorem State.bump_therm (s : State) (off k : Nat) : (s.bump off k).therm = s.therm := rfl
@[simp] theorem State.bump_pins (s : State) (off k : Nat) : (s.bump off k).pins = s.pins := rfl
@[simp] theorem State.bump_faultRecord (s : State) (off k : Nat) : (s.bump off k).faultRecord = s.faultRecord := rfl
@[simp] theorem State.bump_fab (s : State) (off k : Nat) : (s.bump off k).fab = s.fab := rfl
@[simp] theorem State.bump_sigOut (s : State) (off k : Nat) : (s.bump off k).sigOut = s.sigOut := rfl
@[simp] theorem State.bump_cullet (s : State) (off k : Nat) : (s.bump off k).cullet = s.cullet := rfl
@[simp] theorem State.bump_bench (s : State) (off k : Nat) : (s.bump off k).bench = s.bench := rfl
@[simp] theorem State.bump_blow (s : State) (off k : Nat) : (s.bump off k).blow = s.blow := rfl
@[simp] theorem State.bump_marver (s : State) (off k : Nat) : (s.bump off k).marver = s.marver := rfl

@[simp] theorem State.bumpSat_pending (s : State) (off lo n : Nat) : (s.bumpSat off lo n).pending = s.pending := rfl
@[simp] theorem State.bumpSat_now (s : State) (off lo n : Nat) : (s.bumpSat off lo n).now = s.now := rfl
@[simp] theorem State.bumpSat_fresh (s : State) (off lo n : Nat) : (s.bumpSat off lo n).fresh = s.fresh := rfl
@[simp] theorem State.bumpSat_readData (s : State) (off lo n : Nat) : (s.bumpSat off lo n).readData = s.readData := rfl
@[simp] theorem State.bumpSat_cores (s : State) (off lo n : Nat) : (s.bumpSat off lo n).cores = s.cores := rfl
@[simp] theorem State.bumpSat_mem (s : State) (off lo n : Nat) : (s.bumpSat off lo n).mem = s.mem := rfl
@[simp] theorem State.bumpSat_cache (s : State) (off lo n : Nat) : (s.bumpSat off lo n).cache = s.cache := rfl
@[simp] theorem State.bumpSat_regul (s : State) (off lo n : Nat) : (s.bumpSat off lo n).regul = s.regul := rfl
@[simp] theorem State.bumpSat_lehrA (s : State) (off lo n : Nat) : (s.bumpSat off lo n).lehrA = s.lehrA := rfl
@[simp] theorem State.bumpSat_lehrB (s : State) (off lo n : Nat) : (s.bumpSat off lo n).lehrB = s.lehrB := rfl
@[simp] theorem State.bumpSat_canOut (s : State) (off lo n : Nat) : (s.bumpSat off lo n).canOut = s.canOut := rfl
@[simp] theorem State.bumpSat_frame (s : State) (off lo n : Nat) : (s.bumpSat off lo n).frame = s.frame := rfl
@[simp] theorem State.bumpSat_rst (s : State) (off lo n : Nat) : (s.bumpSat off lo n).rst = s.rst := rfl
@[simp] theorem State.bumpSat_cfg (s : State) (off lo n : Nat) : (s.bumpSat off lo n).cfg = s.cfg := rfl
@[simp] theorem State.bumpSat_therm (s : State) (off lo n : Nat) : (s.bumpSat off lo n).therm = s.therm := rfl
@[simp] theorem State.bumpSat_pins (s : State) (off lo n : Nat) : (s.bumpSat off lo n).pins = s.pins := rfl
@[simp] theorem State.bumpSat_faultRecord (s : State) (off lo n : Nat) : (s.bumpSat off lo n).faultRecord = s.faultRecord := rfl
@[simp] theorem State.bumpSat_fab (s : State) (off lo n : Nat) : (s.bumpSat off lo n).fab = s.fab := rfl
@[simp] theorem State.bumpSat_sigOut (s : State) (off lo n : Nat) : (s.bumpSat off lo n).sigOut = s.sigOut := rfl
@[simp] theorem State.bumpSat_cullet (s : State) (off lo n : Nat) : (s.bumpSat off lo n).cullet = s.cullet := rfl
@[simp] theorem State.bumpSat_bench (s : State) (off lo n : Nat) : (s.bumpSat off lo n).bench = s.bench := rfl
@[simp] theorem State.bumpSat_blow (s : State) (off lo n : Nat) : (s.bumpSat off lo n).blow = s.blow := rfl
@[simp] theorem State.bumpSat_marver (s : State) (off lo n : Nat) : (s.bumpSat off lo n).marver = s.marver := rfl

@[simp] theorem State.resetReg_pending (s : State) (off : Nat) : (s.resetReg off).pending = s.pending := rfl
@[simp] theorem State.resetReg_now (s : State) (off : Nat) : (s.resetReg off).now = s.now := rfl
@[simp] theorem State.resetReg_fresh (s : State) (off : Nat) : (s.resetReg off).fresh = s.fresh := rfl
@[simp] theorem State.resetReg_readData (s : State) (off : Nat) : (s.resetReg off).readData = s.readData := rfl
@[simp] theorem State.resetReg_cores (s : State) (off : Nat) : (s.resetReg off).cores = s.cores := rfl
@[simp] theorem State.resetReg_mem (s : State) (off : Nat) : (s.resetReg off).mem = s.mem := rfl
@[simp] theorem State.resetReg_cache (s : State) (off : Nat) : (s.resetReg off).cache = s.cache := rfl
@[simp] theorem State.resetReg_regul (s : State) (off : Nat) : (s.resetReg off).regul = s.regul := rfl
@[simp] theorem State.resetReg_lehrA (s : State) (off : Nat) : (s.resetReg off).lehrA = s.lehrA := rfl
@[simp] theorem State.resetReg_lehrB (s : State) (off : Nat) : (s.resetReg off).lehrB = s.lehrB := rfl
@[simp] theorem State.resetReg_canOut (s : State) (off : Nat) : (s.resetReg off).canOut = s.canOut := rfl
@[simp] theorem State.resetReg_frame (s : State) (off : Nat) : (s.resetReg off).frame = s.frame := rfl
@[simp] theorem State.resetReg_rst (s : State) (off : Nat) : (s.resetReg off).rst = s.rst := rfl
@[simp] theorem State.resetReg_cfg (s : State) (off : Nat) : (s.resetReg off).cfg = s.cfg := rfl
@[simp] theorem State.resetReg_therm (s : State) (off : Nat) : (s.resetReg off).therm = s.therm := rfl
@[simp] theorem State.resetReg_pins (s : State) (off : Nat) : (s.resetReg off).pins = s.pins := rfl
@[simp] theorem State.resetReg_faultRecord (s : State) (off : Nat) : (s.resetReg off).faultRecord = s.faultRecord := rfl
@[simp] theorem State.resetReg_fab (s : State) (off : Nat) : (s.resetReg off).fab = s.fab := rfl
@[simp] theorem State.resetReg_sigOut (s : State) (off : Nat) : (s.resetReg off).sigOut = s.sigOut := rfl
@[simp] theorem State.resetReg_cullet (s : State) (off : Nat) : (s.resetReg off).cullet = s.cullet := rfl
@[simp] theorem State.resetReg_bench (s : State) (off : Nat) : (s.resetReg off).bench = s.bench := rfl
@[simp] theorem State.resetReg_blow (s : State) (off : Nat) : (s.resetReg off).blow = s.blow := rfl
@[simp] theorem State.resetReg_marver (s : State) (off : Nat) : (s.resetReg off).marver = s.marver := rfl

@[simp] theorem State.at_pending (s : State) (t : Nat) : (s.at t).pending = s.pending := rfl
@[simp] theorem State.at_fresh (s : State) (t : Nat) : (s.at t).fresh = s.fresh := rfl
@[simp] theorem State.at_readData (s : State) (t : Nat) : (s.at t).readData = s.readData := rfl
@[simp] theorem State.at_regs (s : State) (t : Nat) : (s.at t).regs = s.regs := rfl
@[simp] theorem State.at_cores (s : State) (t : Nat) : (s.at t).cores = s.cores := rfl
@[simp] theorem State.at_mem (s : State) (t : Nat) : (s.at t).mem = s.mem := rfl
@[simp] theorem State.at_cache (s : State) (t : Nat) : (s.at t).cache = s.cache := rfl
@[simp] theorem State.at_regul (s : State) (t : Nat) : (s.at t).regul = s.regul := rfl
@[simp] theorem State.at_lehrA (s : State) (t : Nat) : (s.at t).lehrA = s.lehrA := rfl
@[simp] theorem State.at_lehrB (s : State) (t : Nat) : (s.at t).lehrB = s.lehrB := rfl
@[simp] theorem State.at_canOut (s : State) (t : Nat) : (s.at t).canOut = s.canOut := rfl
@[simp] theorem State.at_frame (s : State) (t : Nat) : (s.at t).frame = s.frame := rfl
@[simp] theorem State.at_rst (s : State) (t : Nat) : (s.at t).rst = s.rst := rfl
@[simp] theorem State.at_cfg (s : State) (t : Nat) : (s.at t).cfg = s.cfg := rfl
@[simp] theorem State.at_therm (s : State) (t : Nat) : (s.at t).therm = s.therm := rfl
@[simp] theorem State.at_pins (s : State) (t : Nat) : (s.at t).pins = s.pins := rfl
@[simp] theorem State.at_faultRecord (s : State) (t : Nat) : (s.at t).faultRecord = s.faultRecord := rfl
@[simp] theorem State.at_fab (s : State) (t : Nat) : (s.at t).fab = s.fab := rfl
@[simp] theorem State.at_sigOut (s : State) (t : Nat) : (s.at t).sigOut = s.sigOut := rfl
@[simp] theorem State.at_cullet (s : State) (t : Nat) : (s.at t).cullet = s.cullet := rfl
@[simp] theorem State.at_bench (s : State) (t : Nat) : (s.at t).bench = s.bench := rfl
@[simp] theorem State.at_blow (s : State) (t : Nat) : (s.at t).blow = s.blow := rfl
@[simp] theorem State.at_marver (s : State) (t : Nat) : (s.at t).marver = s.marver := rfl

@[simp] theorem State.nextFresh_pending (s : State) : (s.nextFresh).pending = s.pending := rfl
@[simp] theorem State.nextFresh_now (s : State) : (s.nextFresh).now = s.now := rfl
@[simp] theorem State.nextFresh_readData (s : State) : (s.nextFresh).readData = s.readData := rfl
@[simp] theorem State.nextFresh_regs (s : State) : (s.nextFresh).regs = s.regs := rfl
@[simp] theorem State.nextFresh_cores (s : State) : (s.nextFresh).cores = s.cores := rfl
@[simp] theorem State.nextFresh_mem (s : State) : (s.nextFresh).mem = s.mem := rfl
@[simp] theorem State.nextFresh_cache (s : State) : (s.nextFresh).cache = s.cache := rfl
@[simp] theorem State.nextFresh_regul (s : State) : (s.nextFresh).regul = s.regul := rfl
@[simp] theorem State.nextFresh_lehrA (s : State) : (s.nextFresh).lehrA = s.lehrA := rfl
@[simp] theorem State.nextFresh_lehrB (s : State) : (s.nextFresh).lehrB = s.lehrB := rfl
@[simp] theorem State.nextFresh_canOut (s : State) : (s.nextFresh).canOut = s.canOut := rfl
@[simp] theorem State.nextFresh_frame (s : State) : (s.nextFresh).frame = s.frame := rfl
@[simp] theorem State.nextFresh_rst (s : State) : (s.nextFresh).rst = s.rst := rfl
@[simp] theorem State.nextFresh_cfg (s : State) : (s.nextFresh).cfg = s.cfg := rfl
@[simp] theorem State.nextFresh_therm (s : State) : (s.nextFresh).therm = s.therm := rfl
@[simp] theorem State.nextFresh_pins (s : State) : (s.nextFresh).pins = s.pins := rfl
@[simp] theorem State.nextFresh_faultRecord (s : State) : (s.nextFresh).faultRecord = s.faultRecord := rfl
@[simp] theorem State.nextFresh_fab (s : State) : (s.nextFresh).fab = s.fab := rfl
@[simp] theorem State.nextFresh_sigOut (s : State) : (s.nextFresh).sigOut = s.sigOut := rfl
@[simp] theorem State.nextFresh_cullet (s : State) : (s.nextFresh).cullet = s.cullet := rfl
@[simp] theorem State.nextFresh_bench (s : State) : (s.nextFresh).bench = s.bench := rfl
@[simp] theorem State.nextFresh_blow (s : State) : (s.nextFresh).blow = s.blow := rfl
@[simp] theorem State.nextFresh_marver (s : State) : (s.nextFresh).marver = s.marver := rfl

@[simp] theorem State.raise_pending (s : State) (code unit : Nat) : (s.raise code unit).pending = s.pending := rfl
@[simp] theorem State.raise_now (s : State) (code unit : Nat) : (s.raise code unit).now = s.now := rfl
@[simp] theorem State.raise_fresh (s : State) (code unit : Nat) : (s.raise code unit).fresh = s.fresh := rfl
@[simp] theorem State.raise_readData (s : State) (code unit : Nat) : (s.raise code unit).readData = s.readData := rfl
@[simp] theorem State.raise_regs (s : State) (code unit : Nat) : (s.raise code unit).regs = s.regs := rfl
@[simp] theorem State.raise_cores (s : State) (code unit : Nat) : (s.raise code unit).cores = s.cores := rfl
@[simp] theorem State.raise_mem (s : State) (code unit : Nat) : (s.raise code unit).mem = s.mem := rfl
@[simp] theorem State.raise_cache (s : State) (code unit : Nat) : (s.raise code unit).cache = s.cache := rfl
@[simp] theorem State.raise_regul (s : State) (code unit : Nat) : (s.raise code unit).regul = s.regul := rfl
@[simp] theorem State.raise_lehrA (s : State) (code unit : Nat) : (s.raise code unit).lehrA = s.lehrA := rfl
@[simp] theorem State.raise_lehrB (s : State) (code unit : Nat) : (s.raise code unit).lehrB = s.lehrB := rfl
@[simp] theorem State.raise_canOut (s : State) (code unit : Nat) : (s.raise code unit).canOut = s.canOut := rfl
@[simp] theorem State.raise_frame (s : State) (code unit : Nat) : (s.raise code unit).frame = s.frame := rfl
@[simp] theorem State.raise_rst (s : State) (code unit : Nat) : (s.raise code unit).rst = s.rst := rfl
@[simp] theorem State.raise_cfg (s : State) (code unit : Nat) : (s.raise code unit).cfg = s.cfg := rfl
@[simp] theorem State.raise_therm (s : State) (code unit : Nat) : (s.raise code unit).therm = s.therm := rfl
@[simp] theorem State.raise_pins (s : State) (code unit : Nat) : (s.raise code unit).pins = s.pins := rfl
@[simp] theorem State.raise_fab (s : State) (code unit : Nat) : (s.raise code unit).fab = s.fab := rfl
@[simp] theorem State.raise_sigOut (s : State) (code unit : Nat) : (s.raise code unit).sigOut = s.sigOut := rfl
@[simp] theorem State.raise_cullet (s : State) (code unit : Nat) : (s.raise code unit).cullet = s.cullet := rfl
@[simp] theorem State.raise_bench (s : State) (code unit : Nat) : (s.raise code unit).bench = s.bench := rfl
@[simp] theorem State.raise_blow (s : State) (code unit : Nat) : (s.raise code unit).blow = s.blow := rfl
@[simp] theorem State.raise_marver (s : State) (code unit : Nat) : (s.raise code unit).marver = s.marver := rfl

/-! ### Registers -/

theorem regsWf_same {s t : State} (h : RegsWf s) (e : t.regs = s.regs) : RegsWf t := by
  unfold RegsWf at *
  rw [e]
  exact h

@[simp] theorem regsWf_setReg {s : State} (h : RegsWf s) (off : Nat) (v : Word) : RegsWf (s.setReg off v) := sparseWf_sput off v h
@[simp] theorem regsWf_setRegFld {s : State} (h : RegsWf s) (off lo n v : Nat) : RegsWf (s.setRegFld off lo n v) := sparseWf_sput off _ h
@[simp] theorem regsWf_setRegBit {s : State} (h : RegsWf s) (off i : Nat) (b : Bool) : RegsWf (s.setRegBit off i b) := sparseWf_sput off _ h
@[simp] theorem regsWf_bump {s : State} (h : RegsWf s) (off k : Nat) : RegsWf (s.bump off k) := sparseWf_sput off _ h
@[simp] theorem regsWf_bumpSat {s : State} (h : RegsWf s) (off lo n : Nat) : RegsWf (s.bumpSat off lo n) := sparseWf_sput off _ h
@[simp] theorem regsWf_resetReg {s : State} (h : RegsWf s) (off : Nat) : RegsWf (s.resetReg off) := sparseWf_sdel off h
@[simp] theorem regsWf_at {s : State} (h : RegsWf s) (t : Nat) : RegsWf (s.at t) := h
@[simp] theorem regsWf_nextFresh {s : State} (h : RegsWf s) : RegsWf s.nextFresh := h
@[simp] theorem regsWf_raise {s : State} (h : RegsWf s) (code unit : Nat) : RegsWf (s.raise code unit) := h

@[simp] theorem reg_at (s : State) (t off : Nat) : (s.at t).reg off = s.reg off := rfl
@[simp] theorem reg_nextFresh (s : State) (off : Nat) : s.nextFresh.reg off = s.reg off := rfl
@[simp] theorem reg_raise (s : State) (code unit off : Nat) : (s.raise code unit).reg off = s.reg off := rfl

/-- A register just written reads as what was written. -/
@[simp] theorem reg_setReg_same (s : State) (off : Nat) (v : Word) : (s.setReg off v).reg off = v :=
  sget_sput_same (regReset off) s.regs off v

/-- A write leaves every other register as it was. -/
theorem reg_setReg_other (s : State) {off o : Nat} (v : Word) (ho : o ≠ off) : (s.setReg off v).reg o = s.reg o :=
  sget_sput_other (regReset o) (regReset off) s.regs v ho

@[simp] theorem reg_setRegFld_same (s : State) (off lo n v : Nat) : (s.setRegFld off lo n v).reg off = setFld (s.reg off) lo n v :=
  reg_setReg_same s off _
theorem reg_setRegFld_other (s : State) {off o : Nat} (lo n v : Nat) (ho : o ≠ off) : (s.setRegFld off lo n v).reg o = s.reg o :=
  reg_setReg_other s _ ho
@[simp] theorem reg_setRegBit_same (s : State) (off i : Nat) (b : Bool) : (s.setRegBit off i b).reg off = setBit (s.reg off) i b :=
  reg_setReg_same s off _
theorem reg_setRegBit_other (s : State) {off o : Nat} (i : Nat) (b : Bool) (ho : o ≠ off) : (s.setRegBit off i b).reg o = s.reg o :=
  reg_setReg_other s _ ho
@[simp] theorem reg_bump_same (s : State) (off k : Nat) : (s.bump off k).reg off = s.reg off + BitVec.ofNat 64 k :=
  reg_setReg_same s off _
theorem reg_bump_other (s : State) {off o : Nat} (k : Nat) (ho : o ≠ off) : (s.bump off k).reg o = s.reg o :=
  reg_setReg_other s _ ho
theorem reg_bumpSat_other (s : State) {off o : Nat} (lo n : Nat) (ho : o ≠ off) : (s.bumpSat off lo n).reg o = s.reg o :=
  reg_setReg_other s _ ho

/-- A register set back reads as its reset value. -/
theorem reg_resetReg_same (s : State) (off : Nat) : (s.resetReg off).reg off = regReset off :=
  sget_sdel_same (regReset off) s.regs off
theorem reg_resetReg_other (s : State) {off o : Nat} (ho : o ≠ off) : (s.resetReg off).reg o = s.reg o :=
  sget_sdel_other (regReset o) s.regs ho
/-- Inside a range set back every register reads as its reset value, outside it as before. -/
theorem reg_resetRegs_in (s : State) {lo hi o : Nat} (h1 : lo ≤ o) (h2 : o < hi) : (s.resetRegs lo hi).reg o = regReset o :=
  sget_sclear_in (p := fun o => decide (lo ≤ o) && decide (o < hi)) (regReset o) s.regs (by simp [h1, h2])
theorem reg_resetRegs_out (s : State) {lo hi o : Nat} (h : o < lo ∨ hi ≤ o) : (s.resetRegs lo hi).reg o = s.reg o :=
  sget_sclear_out (p := fun o => decide (lo ≤ o) && decide (o < hi)) (regReset o) s.regs (by rcases h with h | h <;> simp <;> omega)

/-! ### Records whose registers are those of a state -/

section
variable (x : State) (a0 a1 a2 a3 a5 a6 z6 a7 a8 a9 b0 b1 b2 b3 b4 b5 b6 b7 b8 b9 c0 c1 c2)

@[simp] theorem reg_mk (off : Nat) : State.reg ⟨a0, a1, a2, a3, x.regs, a5, a6, z6, a7, a8, a9, b0, b1, b2, b3, b4, b5, b6, b7, b8, b9, c0, c1, c2⟩ off = x.reg off := rfl
@[simp] theorem regFld_mk (off lo n : Nat) : State.regFld ⟨a0, a1, a2, a3, x.regs, a5, a6, z6, a7, a8, a9, b0, b1, b2, b3, b4, b5, b6, b7, b8, b9, c0, c1, c2⟩ off lo n = x.regFld off lo n := rfl
@[simp] theorem regBit_mk (off i : Nat) : State.regBit ⟨a0, a1, a2, a3, x.regs, a5, a6, z6, a7, a8, a9, b0, b1, b2, b3, b4, b5, b6, b7, b8, b9, c0, c1, c2⟩ off i = x.regBit off i := rfl
@[simp] theorem regsWf_mk : RegsWf ⟨a0, a1, a2, a3, x.regs, a5, a6, z6, a7, a8, a9, b0, b1, b2, b3, b4, b5, b6, b7, b8, b9, c0, c1, c2⟩ = RegsWf x := rfl
end

@[simp] theorem regFld_at (s : State) (t off lo n : Nat) : (s.at t).regFld off lo n = s.regFld off lo n := rfl
@[simp] theorem regBit_at (s : State) (t off i : Nat) : (s.at t).regBit off i = s.regBit off i := rfl
@[simp] theorem at_now (s : State) (t : Nat) : (s.at t).now = max s.now t := rfl
@[simp] theorem nextFresh_fresh (s : State) : s.nextFresh.fresh = s.fresh + 1 := rfl

/-! ### Fields and bits of registers -/

/-- A field just written. -/
@[simp] theorem regFld_setRegFld_same (s : State) (off : Nat) {lo n : Nat} (v : Nat) (hb : lo + n ≤ 64) :
    (s.setRegFld off lo n v).regFld off lo n = v % 2 ^ n := by
  unfold State.regFld
  rw [reg_setRegFld_same, fld_setFld_same _ _ _ _ hb]

/-- A bit just written. -/
@[simp] theorem regBit_setRegBit_same (s : State) (off : Nat) {i : Nat} (b : Bool) (hb : i < 64) :
    (s.setRegBit off i b).regBit off i = b := by
  unfold State.regBit
  rw [reg_setRegBit_same, bitAt_setBit_same _ _ _ hb]

/-- Another bit of the register written. -/
@[simp] theorem regBit_setRegBit_other (s : State) (off : Nat) {i j : Nat} (b : Bool) (hb : i < 64) (hij : i ≠ j) :
    (s.setRegBit off i b).regBit off j = s.regBit off j := by
  unfold State.regBit
  rw [reg_setRegBit_same, bitAt_setBit_other _ _ _ _ hb hij]

/-- A field beside the bit written. -/
@[simp] theorem regFld_setRegBit_other (s : State) (off : Nat) {i lo n : Nat} (b : Bool) (hb : i < 64) (hd : i < lo ∨ lo + n ≤ i) :
    (s.setRegBit off i b).regFld off lo n = s.regFld off lo n := by
  unfold State.regFld
  rw [reg_setRegBit_same, fld_setBit_other _ _ _ _ _ hb hd]

/-- A bit beside the field written. -/
@[simp] theorem regBit_setRegFld_other (s : State) (off : Nat) {lo n i : Nat} (v : Nat) (hb : lo + n ≤ 64) (hd : i < lo ∨ lo + n ≤ i) :
    (s.setRegFld off lo n v).regBit off i = s.regBit off i := by
  unfold State.regBit
  rw [reg_setRegFld_same, bitAt_setFld_other _ _ _ _ _ hb hd]

/-- A field that the field written does not overlap. -/
@[simp] theorem regFld_setRegFld_other (s : State) (off : Nat) {lo n lo' n' : Nat} (v : Nat) (hb : lo + n ≤ 64)
    (hd : lo + n ≤ lo' ∨ lo' + n' ≤ lo) : (s.setRegFld off lo n v).regFld off lo' n' = s.regFld off lo' n' := by
  unfold State.regFld
  rw [reg_setRegFld_same, fld_setFld_other _ _ _ _ _ _ hb hd]

theorem regFld_setReg_other (s : State) {off o : Nat} (v : Word) (lo n : Nat) (ho : o ≠ off) : (s.setReg off v).regFld o lo n = s.regFld o lo n := by
  unfold State.regFld
  rw [reg_setReg_other s v ho]
theorem regBit_setReg_other (s : State) {off o : Nat} (v : Word) (i : Nat) (ho : o ≠ off) : (s.setReg off v).regBit o i = s.regBit o i := by
  unfold State.regBit
  rw [reg_setReg_other s v ho]
theorem regFld_setRegFld_off (s : State) {off o : Nat} (lo n v lo' n' : Nat) (ho : o ≠ off) :
    (s.setRegFld off lo n v).regFld o lo' n' = s.regFld o lo' n' := regFld_setReg_other s _ lo' n' ho
theorem regBit_setRegFld_off (s : State) {off o : Nat} (lo n v i : Nat) (ho : o ≠ off) :
    (s.setRegFld off lo n v).regBit o i = s.regBit o i := regBit_setReg_other s _ i ho
theorem regFld_setRegBit_off (s : State) {off o : Nat} (i : Nat) (b : Bool) (lo n : Nat) (ho : o ≠ off) :
    (s.setRegBit off i b).regFld o lo n = s.regFld o lo n := regFld_setReg_other s _ lo n ho
theorem regBit_setRegBit_off (s : State) {off o : Nat} (i j : Nat) (b : Bool) (ho : o ≠ off) :
    (s.setRegBit off i b).regBit o j = s.regBit o j := regBit_setReg_other s _ j ho
theorem regFld_bump_off (s : State) {off o : Nat} (k lo n : Nat) (ho : o ≠ off) : (s.bump off k).regFld o lo n = s.regFld o lo n :=
  regFld_setReg_other s _ lo n ho
theorem regBit_bump_off (s : State) {off o : Nat} (k i : Nat) (ho : o ≠ off) : (s.bump off k).regBit o i = s.regBit o i :=
  regBit_setReg_other s _ i ho

/-! ### Only registers -/

theorem onlyRegs_refl (s : State) (offs : List Nat) : OnlyRegs s s offs := ⟨fun _ _ => rfl, rfl⟩

theorem onlyRegs_trans {s t u : State} {offs : List Nat} (h : OnlyRegs s t offs) (g : OnlyRegs t u offs) : OnlyRegs s u offs :=
  ⟨fun o ho => (g.1 o ho).trans (h.1 o ho), by rw [g.2, h.2]⟩

theorem onlyRegs_setReg {s t : State} {offs : List Nat} (h : OnlyRegs s t offs) {off : Nat} (v : Word) (ho : off ∈ offs) :
    OnlyRegs s (t.setReg off v) offs :=
  ⟨fun o hn => (reg_setReg_other t v (fun e => hn (by rw [e]; exact ho))).trans (h.1 o hn), by
    unfold State.setReg
    conv => lhs; rw [h.2]⟩

theorem onlyRegs_setRegFld {s t : State} {offs : List Nat} (h : OnlyRegs s t offs) {off : Nat} (lo n v : Nat) (ho : off ∈ offs) :
    OnlyRegs s (t.setRegFld off lo n v) offs := onlyRegs_setReg h _ ho

theorem onlyRegs_setRegBit {s t : State} {offs : List Nat} (h : OnlyRegs s t offs) {off : Nat} (i : Nat) (b : Bool) (ho : off ∈ offs) :
    OnlyRegs s (t.setRegBit off i b) offs := onlyRegs_setReg h _ ho

theorem onlyRegs_bump {s t : State} {offs : List Nat} (h : OnlyRegs s t offs) {off : Nat} (k : Nat) (ho : off ∈ offs) :
    OnlyRegs s (t.bump off k) offs := onlyRegs_setReg h _ ho

end Sys2Proof.Machine
end

