-- ==== Sys2Proof/Laws/At.lean ====
section
/-! SUPPORT. What device time does not enter into: each of these reads gives the same before and after device time moves. -/

namespace Sys2Proof.Machine

theorem fld_reg (s : State) (off lo n : Nat) : fld (s.reg off) lo n = s.regFld off lo n := rfl
theorem bitAt_reg (s : State) (off i : Nat) : bitAt (s.reg off) i = s.regBit off i := rfl
@[simp] theorem tieOn_at (s : State) (k : Nat) (t : Nat) : tieOn (s.at t) k = tieOn s k := rfl
@[simp] theorem reportFits_at (s : State) (c : Cmd) (r : ProgRun) (k : Nat) (t : Nat) : reportFits (s.at t) c r k = reportFits s c r k := rfl
@[simp] theorem State.ckptWait_at (s : State) (t : Nat) : (s.at t).ckptWait = s.ckptWait := rfl
@[simp] theorem victims_at (s : State) (t : Nat) : victims (s.at t) = victims s := rfl
@[simp] theorem freeing_at (s : State) (t : Nat) : freeing (s.at t) = freeing s := rfl
@[simp] theorem stagesAt_at (s : State) (key k : Nat) (t : Nat) : stagesAt (s.at t) key k = stagesAt s key k := rfl
@[simp] theorem State.rhNeed_at (s : State) (t : Nat) : (s.at t).rhNeed = s.rhNeed := rfl
@[simp] theorem inPhase_at (s : State) (b : Block) (p : BlockPhase) (t : Nat) : inPhase (s.at t) b p = inPhase s b p := rfl
@[simp] theorem expected_at (s : State) (b : Nat) (t : Nat) : expected (s.at t) b = expected s b := rfl
@[simp] theorem portSt_at (s : State) (b : Nat) (t : Nat) : portSt (s.at t) b = portSt s b := rfl
@[simp] theorem portWeight_at (s : State) (b : Nat) (t : Nat) : portWeight (s.at t) b = portWeight s b := rfl
@[simp] theorem envelope_at (s : State) (kind dst chan gen count crc : Nat) (t : Nat) : envelope (s.at t) kind dst chan gen count crc = envelope s kind dst chan gen count crc := rfl
@[simp] theorem fwdTmo_at (s : State) (n : Nat) (t : Nat) : fwdTmo (s.at t) n = fwdTmo s n := rfl
@[simp] theorem inPart_at (s : State) (n : Nat) (t : Nat) : inPart (s.at t) n = inPart s n := rfl
@[simp] theorem inNsrc_at (s : State) (n : Nat) (t : Nat) : inNsrc (s.at t) n = inNsrc s n := rfl
@[simp] theorem inb_at (s : State) (n : Nat) (t : Nat) : inb (s.at t) n = inb s n := rfl
@[simp] theorem nextGen_at (s : State) (n : Nat) (t : Nat) : nextGen (s.at t) n = nextGen s n := rfl
@[simp] theorem inTmo_at (s : State) (n : Nat) (t : Nat) : inTmo (s.at t) n = inTmo s n := rfl
@[simp] theorem oldestWait_at (s : State) (n : Nat) (t : Nat) : oldestWait (s.at t) n = oldestWait s n := rfl
@[simp] theorem opCmd_at (s : State) (part seq op : Nat) (t : Nat) : opCmd (s.at t) part seq op = opCmd s part seq op := rfl
@[simp] theorem abortOutcome_at (s : State) (c : Cmd) (t : Nat) : abortOutcome (s.at t) c = abortOutcome s c := rfl
@[simp] theorem layerNamed_at (s : State) (c : Cmd) (t : Nat) : layerNamed (s.at t) c = layerNamed s c := rfl
@[simp] theorem sensorPortUp_at (s : State) (kind port : Nat) (t : Nat) : sensorPortUp (s.at t) kind port = sensorPortUp s kind port := rfl
@[simp] theorem closing_at (s : State) (p : Nat) (t : Nat) : closing (s.at t) p = closing s p := rfl
@[simp] theorem mayCommit_at (s : State) (c : Cmd) (t : Nat) : mayCommit (s.at t) c = mayCommit s c := rfl
@[simp] theorem members_at (s : State) (p : Nat) (t : Nat) : members (s.at t) p = members s p := rfl
@[simp] theorem challengeBytes_at (s : State) (scope : Nat) (t : Nat) : challengeBytes (s.at t) scope = challengeBytes s scope := rfl
@[simp] theorem heldInReset_at (s : State) (c : Nat) (t : Nat) : heldInReset (s.at t) c = heldInReset s c := rfl
@[simp] theorem sEligible_at (s : State) (c : Nat) (t : Nat) : sEligible (s.at t) c = sEligible s c := rfl
@[simp] theorem allEnded_at (s : State) (c : Nat) (t : Nat) : allEnded (s.at t) c = allEnded s c := rfl
@[simp] theorem atBoundary_at (s : State) (c : Nat) (t : Nat) : atBoundary (s.at t) c = atBoundary s c := rfl
@[simp] theorem unlocked_at (s : State) (scope : Nat) (t : Nat) : unlocked (s.at t) scope = unlocked s scope := rfl
@[simp] theorem mayHalt_at (s : State) (c : Nat) (t : Nat) : mayHalt (s.at t) c = mayHalt s c := rfl
@[simp] theorem restartAbsorbed_at (s : State) (c : Nat) (t : Nat) : restartAbsorbed (s.at t) c = restartAbsorbed s c := rfl
@[simp] theorem windowServes_at (s : State) (acc : Accessor) (c : Nat) (write : Bool) (t : Nat) : windowServes (s.at t) acc c write = windowServes s acc c write := rfl
@[simp] theorem belowFloor_at (s : State) (c cap : Nat) (t : Nat) : belowFloor (s.at t) c cap = belowFloor s c cap := rfl
@[simp] theorem freshWords_at (s : State) (c : Nat) (t : Nat) : freshWords (s.at t) c = freshWords s c := rfl
@[simp] theorem mayFetch_at (s : State) (c k i : Nat) (t : Nat) : mayFetch (s.at t) c k i = mayFetch s c k i := rfl
@[simp] theorem blockedStreams_at (s : State) (c : Nat) (t : Nat) : blockedStreams (s.at t) c = blockedStreams s c := rfl
@[simp] theorem starved_at (s : State) (c : Nat) (t : Nat) : starved (s.at t) c = starved s c := rfl
@[simp] theorem State.coreSt_at (s : State) (c : Nat) (t : Nat) : (s.at t).coreSt c = s.coreSt c := rfl
@[simp] theorem State.core_at (s : State) (c : Nat) (t : Nat) : (s.at t).core c = s.core c := rfl
@[simp] theorem State.sclass_at (s : State) (c : Nat) (t : Nat) : (s.at t).sclass c = s.sclass c := rfl
@[simp] theorem State.failedCols_at (s : State) (c : Nat) (t : Nat) : (s.at t).failedCols c = s.failedCols c := rfl
@[simp] theorem seqLive_at (s : State) (k i : Nat) (t : Nat) : seqLive (s.at t) k i = seqLive s k i := rfl
@[simp] theorem seqPart_at (s : State) (k i : Nat) (t : Nat) : seqPart (s.at t) k i = seqPart s k i := rfl
@[simp] theorem seqLc_at (s : State) (k i : Nat) (t : Nat) : seqLc (s.at t) k i = seqLc s k i := rfl
@[simp] theorem seqLr_at (s : State) (k i : Nat) (t : Nat) : seqLr (s.at t) k i = seqLr s k i := rfl
@[simp] theorem geom_at (s : State) (k i : Nat) (t : Nat) : geom (s.at t) k i = geom s k i := rfl
@[simp] theorem poolPageSize_at (s : State) (k : Nat) (t : Nat) : poolPageSize (s.at t) k = poolPageSize s k := rfl
@[simp] theorem poolAddr_at (s : State) (k p : Nat) (t : Nat) : poolAddr (s.at t) k p = poolAddr s k p := rfl
@[simp] theorem seqRecs_at (s : State) (k i : Nat) (t : Nat) : seqRecs (s.at t) k i = seqRecs s k i := rfl
@[simp] theorem seqCheck_at (s : State) (k i part : Nat) (t : Nat) : seqCheck (s.at t) k i part = seqCheck s k i part := rfl
@[simp] theorem settled_at (s : State) (owner : Nat) (t : Nat) : settled (s.at t) owner = settled s owner := rfl
@[simp] theorem warmDomain_at (s : State) (t : Nat) : warmDomain (s.at t) = warmDomain s := rfl
@[simp] theorem warmReady_at (s : State) (d : DomainReset) (n : Nat) (t : Nat) : warmReady (s.at t) d n = warmReady s d n := rfl
@[simp] theorem resetStep_at (s : State) (t : Nat) : resetStep (s.at t) = resetStep s := rfl
@[simp] theorem coldReady_at (s : State) (n : Nat) (t : Nat) : coldReady (s.at t) n = coldReady s n := rfl
@[simp] theorem earlyChecks_at (s : State) (n : Nat) (e : List Byte) (t : Nat) : earlyChecks (s.at t) n e = earlyChecks s n e := rfl
@[simp] theorem mayConsume_at (s : State) (n : Nat) (t : Nat) : mayConsume (s.at t) n = mayConsume s n := rfl
@[simp] theorem frameBegun_at (s : State) (c : Cmd) (t : Nat) : frameBegun (s.at t) c = frameBegun s c := rfl
@[simp] theorem firmConditions_at (s : State) (c : Cmd) (t : Nat) : firmConditions (s.at t) c = firmConditions s c := rfl
@[simp] theorem eventTooLate_at (s : State) (c : Cmd) (t : Nat) : eventTooLate (s.at t) c = eventTooLate s c := rfl
@[simp] theorem frameTooLate_at (s : State) (c : Cmd) (t : Nat) : frameTooLate (s.at t) c = frameTooLate s c := rfl
@[simp] theorem ingressOf_at (s : State) (node home : Nat) (t : Nat) : ingressOf (s.at t) node home = ingressOf s node home := rfl
@[simp] theorem State.cull_at (s : State) (k : Nat) (t : Nat) : (s.at t).cull k = s.cull k := rfl

@[simp] theorem trackRoom_at (s : State) (k node source tag : Nat) (t : Nat) : trackRoom (s.at t) k node source tag = trackRoom s k node source tag := rfl
@[simp] theorem portPauses_at (s : State) (c : Nat) (t : Nat) : portPauses (s.at t) c = portPauses s c := rfl
@[simp] theorem mapHolds_at (s : State) (t : Nat) : mapHolds (s.at t) = mapHolds s := rfl
@[simp] theorem locked_at (s : State) (off : Nat) (t : Nat) : locked (s.at t) off = locked s off := rfl
@[simp] theorem State.frmper_at (s : State) (t : Nat) : (s.at t).frmper = s.frmper := rfl
@[simp] theorem State.frmphase_at (s : State) (t : Nat) : (s.at t).frmphase = s.frmphase := rfl
@[simp] theorem State.frmEn_at (s : State) (t : Nat) : (s.at t).frmEn = s.frmEn := rfl
@[simp] theorem State.timerStopped_at (s : State) (t : Nat) : (s.at t).timerStopped = s.timerStopped := rfl
@[simp] theorem wdCfg_at (s : State) (n : Nat) (t : Nat) : wdCfg (s.at t) n = wdCfg s n := rfl
@[simp] theorem wdSrc_at (s : State) (n : Nat) (t : Nat) : wdSrc (s.at t) n = wdSrc s n := rfl
@[simp] theorem State.frameSel_at (s : State) (f : Nat) (t : Nat) : (s.at t).frameSel f = s.frameSel f := rfl
@[simp] theorem State.lehrBOk_at (s : State) (t : Nat) : (s.at t).lehrBOk = s.lehrBOk := rfl
@[simp] theorem fbAddr_at (s : State) (f : Nat) (t : Nat) : fbAddr (s.at t) f = fbAddr s f := rfl
@[simp] theorem reportTaken_at (s : State) (c : Nat) (t : Nat) : reportTaken (s.at t) c = reportTaken s c := rfl
@[simp] theorem faultStands_at (s : State) (c : Nat) (t : Nat) : faultStands (s.at t) c = faultStands s c := rfl
@[simp] theorem endStands_at (s : State) (c : Nat) (t : Nat) : endStands (s.at t) c = endStands s c := rfl
@[simp] theorem crucDown_at (s : State) (k : Nat) (t : Nat) : crucDown (s.at t) k = crucDown s k := rfl
@[simp] theorem unprogrammed_at (s : State) (t : Nat) : unprogrammed (s.at t) = unprogrammed s := rfl
@[simp] theorem watchesHost_at (s : State) (t : Nat) : watchesHost (s.at t) = watchesHost s := rfl
@[simp] theorem lehrBRuns_at (s : State) (t : Nat) : lehrBRuns (s.at t) = lehrBRuns s := rfl
@[simp] theorem acceptBlock_at (s : State) (bs : List Byte) (t : Nat) : acceptBlock (s.at t) bs = acceptBlock s bs := rfl
@[simp] theorem packetReq_at (s : State) (node who cls : Nat) (owner : Option Nat) (t : Nat) : packetReq (s.at t) node who cls owner = packetReq s node who cls owner := rfl
@[simp] theorem canIssue_at (s : State) (node tag addr len : Nat) (csr : Bool) (agent : Agent) (t : Nat) : canIssue (s.at t) node tag addr len csr agent = canIssue s node tag addr len csr agent := rfl
@[simp] theorem State.link_at (s : State) (key : Nat) (t : Nat) : (s.at t).link key = s.link key := rfl
@[simp] theorem linkUp_at (s : State) (link : Nat) (t : Nat) : linkUp (s.at t) link = linkUp s link := rfl
@[simp] theorem mstate_at (s : State) (m : Nat) (t : Nat) : mstate (s.at t) m = mstate s m := rfl
@[simp] theorem slotFor_at (s : State) (i f tin : Nat) (t : Nat) : slotFor (s.at t) i f tin = slotFor s i f tin := rfl
@[simp] theorem cameraStreams_at (s : State) (port vc : Nat) (t : Nat) : cameraStreams (s.at t) port vc = cameraStreams s port vc := rfl
@[simp] theorem tooLarge_at (s : State) (is : List Nat) (dt bits : Nat) (data : List Byte) (t : Nat) : tooLarge (s.at t) is dt bits data = tooLarge s is dt bits data := rfl
@[simp] theorem ethMatches_at (s : State) (port : Nat) (e : EthInfo) (i : Nat) (t : Nat) : ethMatches (s.at t) port e i = ethMatches s port e i := rfl
@[simp] theorem poseRing_at (s : State) (t : Nat) : poseRing (s.at t) = poseRing s := rfl
@[simp] theorem State.mstream_at (s : State) (i : Nat) (t : Nat) : (s.at t).mstream i = s.mstream i := rfl
@[simp] theorem streamOn_at (s : State) (i : Nat) (t : Nat) : streamOn (s.at t) i = streamOn s i := rfl
@[simp] theorem streamKind_at (s : State) (i : Nat) (t : Nat) : streamKind (s.at t) i = streamKind s i := rfl
@[simp] theorem streamPayload_at (s : State) (i : Nat) (t : Nat) : streamPayload (s.at t) i = streamPayload s i := rfl
@[simp] theorem srcMode_at (s : State) (i : Nat) (t : Nat) : srcMode (s.at t) i = srcMode s i := rfl
@[simp] theorem servoSt_at (s : State) (i : Nat) (t : Nat) : servoSt (s.at t) i = servoSt s i := rfl
@[simp] theorem State.mperiod_at (s : State) (f : Nat) (t : Nat) : (s.at t).mperiod f = s.mperiod f := rfl
@[simp] theorem gpState_at (s : State) (t : Nat) : gpState (s.at t) = gpState s := rfl
@[simp] theorem gptpTakes_at (s : State) (domain : Nat) (t : Nat) : gptpTakes (s.at t) domain = gptpTakes s domain := rfl
@[simp] theorem syncTime_at (s : State) (origin : Nat) (corr : Int) (t : Nat) : syncTime (s.at t) origin corr = syncTime s origin corr := rfl
@[simp] theorem syncInterval_at (s : State) (t : Nat) : syncInterval (s.at t) = syncInterval s := rfl
@[simp] theorem State.chSt_at (s : State) (h : Nat) (t : Nat) : (s.at t).chSt h = s.chSt h := rfl
@[simp] theorem State.epoch_at (s : State) (h k : Nat) (t : Nat) : (s.at t).epoch h k = s.epoch h k := rfl
@[simp] theorem State.scrubPend_at (s : State) (h k : Nat) (t : Nat) : (s.at t).scrubPend h k = s.scrubPend h k := rfl
@[simp] theorem State.mark_at (s : State) (lineKey : Nat) (t : Nat) : (s.at t).mark lineKey = s.mark lineKey := rfl
@[simp] theorem scrubSegment_at (s : State) (h : Nat) (t : Nat) : scrubSegment (s.at t) h = scrubSegment s h := rfl
@[simp] theorem State.frzhold_at (s : State) (t : Nat) : (s.at t).frzhold = s.frzhold := rfl
@[simp] theorem refreshP_at (s : State) (t : Nat) : refreshP (s.at t) = refreshP s := rfl
@[simp] theorem hottest_at (s : State) (t : Nat) : hottest (s.at t) = hottest s := rfl
@[simp] theorem State.memHot_at (s : State) (t : Nat) : (s.at t).memHot = s.memHot := rfl
@[simp] theorem State.memTrip_at (s : State) (t : Nat) : (s.at t).memTrip = s.memTrip := rfl
@[simp] theorem pendA_at (s : State) (n : Nat) (t : Nat) : pendA (s.at t) n = pendA s n := rfl
@[simp] theorem pendM_at (s : State) (n : Nat) (t : Nat) : pendM (s.at t) n = pendM s n := rfl
@[simp] theorem pendingMapValid_at (s : State) (t : Nat) : pendingMapValid (s.at t) = pendingMapValid s := rfl
@[simp] theorem streamsOff_at (s : State) (t : Nat) : streamsOff (s.at t) = streamsOff s := rfl
@[simp] theorem segmentMoved_at (s : State) (h k : Nat) (t : Nat) : segmentMoved (s.at t) h k = segmentMoved s h k := rfl
@[simp] theorem helperReady_at (s : State) (h : Nat) (t : Nat) : helperReady (s.at t) h = helperReady s h := rfl
@[simp] theorem State.reg_at (s : State) (off : Nat) (t : Nat) : (s.at t).reg off = s.reg off := rfl
@[simp] theorem State.regFld_at (s : State) (off lo n : Nat) (t : Nat) : (s.at t).regFld off lo n = s.regFld off lo n := rfl
@[simp] theorem State.regBit_at (s : State) (off i : Nat) (t : Nat) : (s.at t).regBit off i = s.regBit off i := rfl
@[simp] theorem State.frmcnt_at (s : State) (t : Nat) : (s.at t).frmcnt = s.frmcnt := rfl
@[simp] theorem readOption_at (s : State) (off : Nat) (t : Nat) : readOption (s.at t) off = readOption s off := rfl
@[simp] theorem usedBlock_at (s : State) (t : Nat) : usedBlock (s.at t) = usedBlock s := rfl
@[simp] theorem jtagTakes_at (s : State) (ir : JtagIr) (t : Nat) : jtagTakes (s.at t) ir = jtagTakes s ir := rfl
@[simp] theorem State.quantum_at (s : State) (t : Nat) : (s.at t).quantum = s.quantum := rfl
@[simp] theorem State.win_at (s : State) (t : Nat) : (s.at t).win = s.win := rfl
@[simp] theorem minSum_at (s : State) (k : Nat) (t : Nat) : minSum (s.at t) k = minSum s k := rfl
@[simp] theorem State.regcap_at (s : State) (k : Nat) (t : Nat) : (s.at t).regcap k = s.regcap k := rfl
@[simp] theorem liveChannels_at (s : State) (k : Nat) (t : Nat) : liveChannels (s.at t) k = liveChannels s k := rfl
@[simp] theorem State.domains_at (s : State) (t : Nat) : (s.at t).domains = s.domains := rfl
@[simp] theorem inReset_at (s : State) (d : Nat × Nat) (t : Nat) : inReset (s.at t) d = inReset s d := rfl
@[simp] theorem State.blockPhase_at (s : State) (b : Block) (t : Nat) : (s.at t).blockPhase b = s.blockPhase b := rfl
@[simp] theorem ringSt_at (s : State) (n : Nat) (t : Nat) : ringSt (s.at t) n = ringSt s n := rfl
@[simp] theorem ringOwner_at (s : State) (n : Nat) (t : Nat) : ringOwner (s.at t) n = ringOwner s n := rfl
@[simp] theorem sqSize_at (s : State) (n : Nat) (t : Nat) : sqSize (s.at t) n = sqSize s n := rfl
@[simp] theorem cqSize_at (s : State) (n : Nat) (t : Nat) : cqSize (s.at t) n = cqSize s n := rfl
@[simp] theorem sqHead_at (s : State) (n : Nat) (t : Nat) : sqHead (s.at t) n = sqHead s n := rfl
@[simp] theorem sqTail_at (s : State) (n : Nat) (t : Nat) : sqTail (s.at t) n = sqTail s n := rfl
@[simp] theorem cqTail_at (s : State) (n : Nat) (t : Nat) : cqTail (s.at t) n = cqTail s n := rfl
@[simp] theorem cqHead_at (s : State) (n : Nat) (t : Nat) : cqHead (s.at t) n = cqHead s n := rfl
@[simp] theorem fnEnabled_at (s : State) (p : Nat) (t : Nat) : fnEnabled (s.at t) p = fnEnabled s p := rfl
@[simp] theorem hostDieDown_at (s : State) (t : Nat) : hostDieDown (s.at t) = hostDieDown s := rfl
@[simp] theorem ringWriter_at (s : State) (who : Ident) (n : Nat) (t : Nat) : ringWriter (s.at t) who n = ringWriter s who n := rfl
@[simp] theorem bar4Addr_at (s : State) (p off : Nat) (t : Nat) : bar4Addr (s.at t) p off = bar4Addr s p off := rfl
@[simp] theorem State.cmd_at (s : State) (key : Nat) (t : Nat) : (s.at t).cmd key = s.cmd key := rfl
@[simp] theorem State.live_at (s : State) (key : Nat) (t : Nat) : (s.at t).live key = s.live key := rfl
@[simp] theorem ringCmds_at (s : State) (n : Nat) (t : Nat) : ringCmds (s.at t) n = ringCmds s n := rfl
@[simp] theorem runOn_at (s : State) (core : Nat) (t : Nat) : runOn (s.at t) core = runOn s core := rfl
@[simp] theorem State.cmdSeq_at (s : State) (c : Nat) (t : Nat) : (s.at t).cmdSeq c = s.cmdSeq c := rfl
@[simp] theorem State.cmdPart_at (s : State) (c : Nat) (t : Nat) : (s.at t).cmdPart c = s.cmdPart c := rfl
@[simp] theorem State.cmdClass_at (s : State) (c : Nat) (t : Nat) : (s.at t).cmdClass c = s.cmdClass c := rfl
@[simp] theorem State.cmdSpec_at (s : State) (c : Nat) (t : Nat) : (s.at t).cmdSpec c = s.cmdSpec c := rfl
@[simp] theorem State.cmdValid_at (s : State) (c : Nat) (t : Nat) : (s.at t).cmdValid c = s.cmdValid c := rfl
@[simp] theorem State.cmdOwner_at (s : State) (c : Nat) (t : Nat) : (s.at t).cmdOwner c = s.cmdOwner c := rfl
@[simp] theorem coreReq_at (s : State) (c : Nat) (t : Nat) : coreReq (s.at t) c = coreReq s c := rfl
@[simp] theorem State.nextWord_at (s : State) (c k : Nat) (t : Nat) : (s.at t).nextWord c k = s.nextWord c k := rfl
@[simp] theorem State.ckptReq_at (s : State) (c : Nat) (t : Nat) : (s.at t).ckptReq c = s.ckptReq c := rfl
@[simp] theorem State.ckptTarget_at (s : State) (c : Nat) (t : Nat) : (s.at t).ckptTarget c = s.ckptTarget c := rfl
@[simp] theorem headWord_at (s : State) (c k : Nat) (t : Nat) : headWord (s.at t) c k = headWord s c k := rfl
@[simp] theorem shadowRun_at (s : State) (c : Nat) (t : Nat) : shadowRun (s.at t) c = shadowRun s c := rfl
@[simp] theorem recorded_at (s : State) (c n : Nat) (t : Nat) : recorded (s.at t) c n = recorded s c n := rfl
@[simp] theorem nextWords_at (s : State) (c : Nat) (t : Nat) : nextWords (s.at t) c = nextWords s c := rfl
@[simp] theorem running_at (s : State) (c : Nat) (t : Nat) : running (s.at t) c = running s c := rfl
@[simp] theorem State.plim_at (s : State) (t : Nat) : (s.at t).plim = s.plim := rfl
@[simp] theorem State.physt_at (s : State) (t : Nat) : (s.at t).physt = s.physt := rfl
@[simp] theorem State.vp_at (s : State) (t : Nat) : (s.at t).vp = s.vp := rfl
@[simp] theorem State.vcap_at (s : State) (t : Nat) : (s.at t).vcap = s.vcap := rfl
@[simp] theorem ageCondition_at (s : State) (c : Nat) (t : Nat) : ageCondition (s.at t) c = ageCondition s c := rfl
@[simp] theorem State.coolMax_at (s : State) (t : Nat) : (s.at t).coolMax = s.coolMax := rfl
@[simp] theorem parkBit_at (s : State) (c : Nat) (t : Nat) : parkBit (s.at t) c = parkBit s c := rfl
@[simp] theorem State.rhlim_at (s : State) (t : Nat) : (s.at t).rhlim = s.rhlim := rfl
@[simp] theorem headSwaps_at (s : State) (c : Nat) (t : Nat) : headSwaps (s.at t) c = headSwaps s c := rfl

end Sys2Proof.Machine
end

