-- ==== Sys2Proof/Laws/Issue.lean ====
section
/-! SUPPORT. What the issue of an instruction changes beside the instruction's own effect: only the course of its core's program. -/

namespace Sys2Proof.Machine

/-! ### The relation -/

@[simp] theorem core_setCore_same (s : State) (c : Nat) (x : Core) : (s.setCore c x).core c = x := sget_sput_same _ _ _ _

theorem core_setCore_other (s : State) {c d : Nat} (x : Core) (h : d ≠ c) : (s.setCore c x).core d = s.core d := sget_sput_other _ _ _ _ h

theorem courseOnly_refl (s : State) (c : Nat) : CourseOnly s s c := ⟨⟨fun _ _ => rfl, fun _ _ => rfl, rfl⟩, rfl, rfl⟩

theorem courseOnly_trans {s t u : State} {c : Nat} (h : CourseOnly s t c) (g : CourseOnly t u c) : CourseOnly s u c :=
  ⟨⟨fun o ho => (g.1.1 o ho).trans (h.1.1 o ho), fun d hd => (g.1.2.1 d hd).trans (h.1.2.1 d hd), by rw [g.1.2.2, h.1.2.2]⟩,
    g.2.1.trans h.2.1, g.2.2.trans h.2.2⟩

/-- A register of the core but CORE_AFLAGS. -/
theorem courseOnly_setReg {s t : State} {c : Nat} (h : CourseOnly s t c) {off : Nat} (v : Word) (hc : off / 0x10000 = 0x100 + c)
    (ha : off ≠ Reg.coreAflags c) : CourseOnly s (t.setReg off v) c :=
  courseOnly_trans h ⟨⟨fun _ ho => reg_setReg_other t v (fun e => ho (e ▸ hc)), fun _ _ => rfl, rfl⟩, rfl, reg_setReg_other t v ha.symm⟩

/-- The core itself, its memories as they were. -/
theorem courseOnly_setCore {s t : State} {c : Nat} (h : CourseOnly s t c) (x : Core) (hm : x.memory = (t.core c).memory) :
    CourseOnly s (t.setCore c x) c :=
  courseOnly_trans h ⟨⟨fun _ _ => rfl, fun d hd => core_setCore_other t x hd, rfl⟩, by rw [core_setCore_same, hm], rfl⟩

theorem courseOnly_ite {p : Prop} [Decidable p] {s t u : State} {c : Nat} (h : CourseOnly s t c) (g : CourseOnly s u c) :
    CourseOnly s (if p then t else u) c := by
  split
  · exact h
  · exact g

theorem courseOnly_foldl {β : Type} {c : Nat} (f : State → β → State) (hf : ∀ s b, CourseOnly s (f s b) c) (l : List β) (s : State) :
    CourseOnly s (l.foldl f s) c := by
  induction l generalizing s with
  | nil => exact courseOnly_refl s c
  | cons b l ih => exact courseOnly_trans (hf s b) (ih _)

/-! ### Faults of the word checks -/

/-- A fault that charges no core: neither SP_DATA nor RESIDUE (R428). -/
def TFault.quiet (f : TFault) : Bool := decide (f.code ≠ 0x0209) && decide (f.code ≠ 0x020B)

theorem quiet_whenF (b : Bool) {f : TFault} (h : f.quiet = true) : (whenF b f).all TFault.quiet = true := by
  cases b <;> simp [whenF, h]

theorem quiet_resv (w lo n : Nat) : (resv w lo n).all TFault.quiet = true := quiet_whenF _ rfl

theorem quiet_spCheck (a n k : Nat) : (spCheck a n k).all TFault.quiet = true := by
  simp only [spCheck, List.all_append, Bool.and_eq_true]
  exact ⟨quiet_whenF _ rfl, quiet_whenF _ rfl⟩

theorem quiet_nil : ([] : List TFault).all TFault.quiet = true := rfl

theorem quiet_append {a b : List TFault} (h : a.all TFault.quiet = true) (g : b.all TFault.quiet = true) : (a ++ b).all TFault.quiet = true := by
  simp only [List.all_append, h, g, Bool.and_true]

theorem quiet_ite {p : Prop} [Decidable p] {a b : List TFault} (h : a.all TFault.quiet = true) (g : b.all TFault.quiet = true) :
    (if p then a else b).all TFault.quiet = true := by
  split
  · exact h
  · exact g

/-- No word check gives SP_DATA or RESIDUE. -/
theorem quiet_wordChecks (k : Nat) (m : Bool) (w : Nat) : (wordChecks k m w).all TFault.quiet = true := by
  unfold wordChecks
  simp only []
  refine quiet_ite rfl (quiet_append (quiet_append (quiet_resv _ _ _) ?_) (quiet_whenF _ rfl))
  split
  · unfold checkClr
    simp only []
    repeat (with_reducible first | exact quiet_resv _ _ _ | exact quiet_whenF _ rfl | refine quiet_append ?_ ?_)
  · unfold checkWld
    simp only []
    repeat (with_reducible first | exact quiet_resv _ _ _ | exact quiet_whenF _ rfl | exact quiet_spCheck _ _ _ | exact quiet_nil | refine quiet_append ?_ ?_ | refine quiet_ite ?_ ?_)
  · unfold checkMm
    repeat (with_reducible first | exact quiet_resv _ _ _ | exact quiet_whenF _ rfl | exact quiet_spCheck _ _ _ | refine quiet_append ?_ ?_)
  · unfold checkDrn
    simp only []
    repeat (with_reducible first | exact quiet_resv _ _ _ | exact quiet_whenF _ rfl | exact quiet_spCheck _ _ _ | refine quiet_append ?_ ?_)
  iterate 3
    · unfold checkVmem
      simp only []
      repeat (with_reducible first | exact quiet_resv _ _ _ | exact quiet_whenF _ rfl | exact quiet_spCheck _ _ _ | exact quiet_nil | refine quiet_append ?_ ?_ | refine quiet_ite ?_ ?_)
  · unfold checkVreg
    simp only []
    repeat (with_reducible first | exact quiet_resv _ _ _ | exact quiet_whenF _ rfl | exact quiet_nil | refine quiet_append ?_ ?_ | refine quiet_ite ?_ ?_)
  all_goals first
    | (unfold checkLdSt descCheck; repeat (with_reducible first | exact quiet_resv _ _ _ | exact quiet_spCheck _ _ _ | refine quiet_append ?_ ?_))
    | (unfold checkRecBlock descCheck; repeat (with_reducible first | exact quiet_resv _ _ _ | exact quiet_whenF _ rfl | exact quiet_spCheck _ _ _ | exact quiet_nil | refine quiet_append ?_ ?_ | refine quiet_ite ?_ ?_))
    | (unfold checkStsig; repeat (with_reducible first | exact quiet_resv _ _ _ | exact quiet_whenF _ rfl | exact quiet_spCheck _ _ _ | exact quiet_nil | refine quiet_append ?_ ?_ | refine quiet_ite ?_ ?_))
    | (unfold checkGidx descCheck; repeat (with_reducible first | exact quiet_resv _ _ _ | exact quiet_spCheck _ _ _ | refine quiet_append ?_ ?_))
    | (unfold checkGpage descCheck; repeat (with_reducible first | exact quiet_resv _ _ _ | exact quiet_spCheck _ _ _ | refine quiet_append ?_ ?_))
    | exact quiet_resv _ _ _

theorem firstFault_mem {l : List TFault} {f : TFault} (h : firstFault l = some f) : f ∈ l := by
  induction l generalizing f with
  | nil => simp [firstFault] at h
  | cons g l ih =>
    simp only [firstFault] at h
    split at h
    · simp only [Option.some.injEq] at h; exact h ▸ List.mem_cons_self
    · next g' e =>
      split at h
      · simp only [Option.some.injEq] at h; exact List.mem_cons_of_mem _ (h ▸ ih e)
      · simp only [Option.some.injEq] at h; exact h ▸ List.mem_cons_self

theorem quiet_firstFault {l : List TFault} {f : TFault} (hl : l.all TFault.quiet = true) (h : firstFault l = some f) : f.quiet = true :=
  List.all_eq_true.mp hl f (firstFault_mem h)

/-! ### The operations -/

variable {c : Nat}

theorem courseOnly_setCoreReg (s : State) (d : Nat) (v : Word) (h1 : d < 0x10000) (h2 : d ≠ 0x20) : CourseOnly s (s.setReg (0x1000000 + 0x10000 * c + d) v) c := by
  refine courseOnly_setReg (courseOnly_refl s c) v (by omega) ?_
  unfold Reg.coreAflags
  omega

theorem courseOnly_accrue (s : State) : CourseOnly s (accrue s c) c := by
  unfold accrue
  simp only []
  split
  · refine courseOnly_setReg (courseOnly_setCore (courseOnly_refl s c) _ (by rfl)) _ ?_ ?_ <;> simp only [Reg.coreBusyns, Reg.coreAflags] <;> omega
  · exact courseOnly_refl s c

theorem courseOnly_stopStreams (s : State) : CourseOnly s (stopStreams s c) c := by
  unfold stopStreams
  simp only []
  refine courseOnly_setReg (courseOnly_setReg (courseOnly_setCore (courseOnly_accrue s) _ (by rfl)) _ ?_ ?_) _ ?_ ?_ <;>
    simp only [Reg.coreOutst, Reg.coreTpstat, Reg.coreAflags] <;> omega

theorem courseOnly_syncTpstat (s : State) : CourseOnly s (syncTpstat s c) c := by
  unfold syncTpstat
  simp only []
  refine courseOnly_setReg (courseOnly_setReg (courseOnly_refl s c) _ ?_ ?_) _ ?_ ?_ <;>
    simp only [Reg.coreOutst, Reg.coreTpstat, Reg.coreAflags] <;> omega

theorem courseOnly_coreReg (s : State) (v : Word) {off : Nat} (hc : off / 0x10000 = 0x100 + c) (ha : off ≠ Reg.coreAflags c) :
    CourseOnly s (s.setReg off v) c := courseOnly_setReg (courseOnly_refl s c) v hc ha

theorem courseOnly_faultAt (s : State) (v : Option Nat) : CourseOnly s (s.setCore c { s.core c with faultAt := v }) c :=
  courseOnly_setCore (courseOnly_refl s c) _ rfl

theorem courseOnly_faultSt (s : State) : CourseOnly s (syncTpstat (if s.coreSt c = .quarantine then s else s.setCoreSt c .faulted) c) c := by
  refine courseOnly_trans (courseOnly_ite (courseOnly_refl s c) (courseOnly_coreReg s _ ?_ ?_)) (courseOnly_syncTpstat _) <;>
    simp only [Reg.coreState, Reg.coreAflags] <;> omega

theorem courseOnly_tileFault (s : State) (eng word : Nat) {f : TFault} (h : f.quiet = true) : CourseOnly s (tileFault s c eng word f) c := by
  simp only [TFault.quiet, Bool.and_eq_true, decide_eq_true_eq] at h
  unfold tileFault
  simp only [if_neg h.1, if_neg h.2]
  refine courseOnly_trans ?_ (courseOnly_faultSt _)
  refine courseOnly_trans ?_ (courseOnly_faultAt _ _)
  refine courseOnly_trans (courseOnly_trans (courseOnly_trans (courseOnly_coreReg s _ ?_ ?_) (courseOnly_coreReg _ _ ?_ ?_)) (courseOnly_stopStreams _))
    (courseOnly_coreReg _ _ ?_ ?_)
  all_goals (simp only [Reg.coreFault, Reg.coreTpfaux, Reg.coreTpckpt, Reg.coreAflags]; omega)

theorem courseOnly_stepFaults (s : State) {l : List (Nat × Nat × TFault)} (h : ∀ p ∈ l, p.2.2.quiet = true) : CourseOnly s (stepFaults s c l) c := by
  unfold stepFaults
  split
  · exact courseOnly_refl s c
  · next e =>
    refine courseOnly_trans (courseOnly_tileFault s _ _ (h _ (List.mem_of_find?_eq_some e))) (courseOnly_coreReg _ _ ?_ ?_) <;>
      simp only [Reg.coreTpfcnt, Reg.coreAflags] <;> omega

/-- A fault found at the head of a stream is none of those that charge a core. -/
theorem headFault_quiet {s : State} {k : Nat} {f : Nat × Nat × TFault} (h : headFault s c k = some f) : f.2.2.quiet = true := by
  unfold headFault at h
  split at h
  · cases h
  · split at h
    · cases h; rfl
    · split at h
      · cases h
      · cases h; rfl
      · next w _ =>
        cases e : firstFault (wordChecks k (hasMarkers s c) w.toNat) with
        | none => simp [e] at h
        | some g =>
          simp only [e, Option.map_some, Option.some.injEq] at h
          subst h
          exact quiet_firstFault (quiet_wordChecks _ _ _) e

theorem courseOnly_headCheck (s : State) (k : Nat) : CourseOnly s (headCheck s c k) c := by
  unfold headCheck
  split
  · exact courseOnly_refl s c
  · next e => exact courseOnly_tileFault s _ _ (headFault_quiet e)

theorem courseOnly_giveRecord (s : State) : CourseOnly s (giveRecord s c) c := by
  unfold giveRecord
  simp only []
  split
  · exact courseOnly_refl s c
  · split
    · exact courseOnly_setCore (courseOnly_refl s c) _ (by rfl)
    · exact courseOnly_refl s c

theorem courseOnly_mapRecord (s : State) (f : PendRec → PendRec) : CourseOnly s (mapRecord s c f) c :=
  courseOnly_setCore (courseOnly_refl s c) _ (by rfl)

theorem courseOnly_sync (s : State) {n : Nat} (hn : n < 2048) (v : Nat) : CourseOnly s (s.setRegFld (Reg.coreSync c n) 0 32 v) c := by
  refine courseOnly_setReg (courseOnly_refl s c) _ ?_ ?_ <;> simp only [Reg.coreSync, Reg.coreAflags] <;> omega

theorem courseOnly_setSync (s : State) {n : Nat} (hn : n < 2048) (v : Nat) : CourseOnly s (s.setSync c n v) c := by
  unfold State.setSync
  split
  · exact courseOnly_setCore (courseOnly_refl s c) _ (by rfl)
  · exact courseOnly_sync s hn v

theorem courseOnly_takeWait (s : State) {n : Nat} (hn : n < 2048) (amt : Nat) : CourseOnly s (takeWait s c n amt) c := by
  unfold takeWait
  split
  · exact courseOnly_trans (courseOnly_mapRecord s _) (courseOnly_sync _ hn _)
  · exact courseOnly_setSync s hn _

theorem courseOnly_applySignal (s : State) {n : Nat} (hn : n < 2048) (amt : Nat) : CourseOnly s (applySignal s c n amt) c := by
  unfold applySignal
  split
  · exact courseOnly_trans (courseOnly_giveRecord s) (courseOnly_mapRecord _ _)
  · exact courseOnly_setSync s hn _

theorem wWctr_lt (w : Nat) : wWctr w < 2048 := Nat.mod_lt _ (Nat.two_pow_pos 11)
theorem wSctr_lt (w : Nat) : wSctr w < 2048 := Nat.mod_lt _ (Nat.two_pow_pos 11)

theorem courseOnly_atWait (s : State) (w : Nat) : CourseOnly s (atWait s c w) c := by
  unfold atWait
  split
  · exact courseOnly_giveRecord s
  · exact courseOnly_refl s c

/-- A wait taken changes only the course of the program. -/
theorem courseOnly_afterWait (s : State) (w : Nat) : CourseOnly s (afterWait s c w) c := by
  unfold afterWait
  split
  · exact courseOnly_trans (courseOnly_atWait s w) (courseOnly_takeWait _ (wWctr_lt w) _)
  · exact courseOnly_atWait s w

theorem courseOnly_raiseAll (s : State) (l : List InFlight) : CourseOnly s (raiseAll s c l) c := by
  induction l generalizing s with
  | nil => exact courseOnly_refl s c
  | cons e es ih =>
    simp only [raiseAll]
    split
    · exact courseOnly_setCore (courseOnly_refl s c) _ (by rfl)
    · split
      · refine courseOnly_stepFaults s fun p hp => ?_
        obtain ⟨_, _, rfl⟩ := List.mem_map.mp hp
        rfl
      · exact courseOnly_trans (courseOnly_applySignal s e.sctr.isLt _) (ih _)

theorem courseOnly_flush (s : State) (k : Nat) : CourseOnly s (flush s c k) c :=
  courseOnly_trans (courseOnly_setCore (courseOnly_refl s c) _ (by rfl)) (courseOnly_raiseAll _ _)

/-- The issue of an instruction, beside its own effect, changes only the course of the program. -/
theorem courseOnly_issueDone (s : State) {k : Nat} (hk : k < 5) (w txns slot : Nat) : CourseOnly s (issueDone s c k w txns slot) c := by
  unfold issueDone
  simp only []
  refine courseOnly_trans ?_ (courseOnly_syncTpstat _)
  have h : CourseOnly s (s.setRegFld (tpword c k) 0 24 (s.nextWord c k + 1)) c := by
    refine courseOnly_setReg (courseOnly_refl s c) _ ?_ ?_ <;> simp only [tpword, Reg.coreTpword0, Reg.coreAflags] <;> omega
  refine courseOnly_trans (courseOnly_trans (courseOnly_setCore h _ ?_) (courseOnly_flush _ k))
    (courseOnly_ite (courseOnly_refl _ c) (courseOnly_headCheck _ k))
  split <;> rfl

/-- Where no entry is FENCED no run meets a poisoned response (R466, R527). -/
theorem poisonRuns_unfenced (s0 : State) {s : State} (h : ∀ e ∈ s.fab.track, e.fenced = false) : poisonRuns s0 s = s := by
  have : s.fab.track.filter (fun e => e.fenced && decide (e.node < 96) && !e.orphan &&
      s0.fab.track.any (fun x => decide (x.node = e.node) && decide (x.tag = e.tag) && !x.fenced)) = [] :=
    List.filter_eq_nil_iff.mpr fun e he => by simp [h e he]
  simp only [poisonRuns, this]

/-- A core's read is a device read where no entry is FENCED after it. -/
theorem coreRead_unfenced {s u : State} {r : Req} {ecc : MemEcc} {a n : Nat} {x : Except Poison (List Byte)} (e : devRead s r ecc a n = (u, x))
    (h : ∀ e ∈ u.fab.track, e.fenced = false) : coreRead s r ecc a n = (u, x) := by
  simp only [coreRead, e, poisonRuns_unfenced s h]

/-! ### The issue -/

/-- A core with nothing to replay replays nothing (R415). -/
theorem replay_nil {s : State} (h : (s.core c).debugLog = []) : replay s c = s := by simp [replay, h]

/-- A ready head whose instruction's effect ends well issues (R140, R178). -/
theorem issueIf_ready {s : State} {k w : Nat} {checks : State → Nat → List TFault} (h : HeadReady s c k w checks)
    {effect : State → Nat → Effect} {u : State} {n : Nat} (he : effect (afterWait s c w) w = (u, .ok n)) :
    issueIf s c k (wEng w) (wOp w) checks effect = issueDone u c k w n (wordSlot (afterWait s c w) c w) := by
  obtain ⟨b, hb, rfl⟩ := h.head
  have hr : atReplay s c k = false := by simp [atReplay, h.live]
  have hi : issueChecked (afterWait s c b.toNat) c k b.toNat checks effect = issueDone u c k b.toNat n (wordSlot (afterWait s c b.toNat) c b.toNat) := by
    cases e : wordTile b.toNat with
    | none => simp only [issueChecked, e, h.checked, firstFault, Option.orElse, he]
    | some t => simp only [issueChecked, e, h.apart t e, whenF, Bool.false_eq_true, if_false, h.checked, firstFault, Option.orElse, he]
  have e0 : (if wWamt b.toNat ≠ 0 ∧ recorded s c (wWctr b.toNat) = true then giveRecord s c else s) = atWait s c b.toNat := rfl
  have e1 : (if wWamt b.toNat ≠ 0 then takeWait (atWait s c b.toNat) c (wWctr b.toNat) (wWamt b.toNat) else atWait s c b.toNat) =
      afterWait s c b.toNat := rfl
  simp only [issueIf, replay_nil h.live, h.runs, headIs, hb, decide_true, Bool.and_self, if_true, issueHead, h.passes, h.goes, hr,
    Bool.or_self, Bool.false_eq_true, if_false, e0, h.waited, h.free, or_self, e1, hi]

end Sys2Proof.Machine
end

