-- ==== Sys2Proof/Laws/Kept.lean ====
section
/-! SUPPORT. What every operation over the state keeps, with the lemmas that carry it through record updates, folds and the primitive
operations. -/

namespace Sys2Proof.Machine

/-- What came to the state from `from0` by commands: the queue as it was, the free-value counter never moved back, the state's data in order, what
left the device still there after what had left it, and no fuse cleared (R592) or DBGDIS changed. -/
structure Kept (from0 s : State) : Prop where
  pending : s.pending = from0.pending
  fresh : from0.fresh ≤ s.fresh
  regs : RegsWf s
  dram : Memory.wf s.mem
  logs : LogsWf s
  can : from0.canOut <+: s.canOut
  host : from0.bench.hostOut <+: s.bench.hostOut
  sent : from0.blow.sent <+: s.blow.sent
  arb : ∀ t, sget 0 from0.cfg.arbFuses t ≤ sget 0 s.cfg.arbFuses t
  dbg : s.cfg.dbgDisFuse = from0.cfg.dbgDisFuse

variable {from0 : State}

/-- An update of anything but the kept parts. -/
theorem Kept.same {s t : State} (h : Kept from0 s) (e1 : t.pending = s.pending) (e2 : t.fresh = s.fresh) (e3 : t.regs = s.regs)
    (e4 : t.mem.bytes = s.mem.bytes) (e5 : t.rst.log = s.rst.log) (e6 : t.cfg.log = s.cfg.log) (e7 : t.therm.log = s.therm.log)
    (e8 : t.lehrA.log = s.lehrA.log) (e9 : t.marver.log = s.marver.log) (e10 : t.blow.log = s.blow.log) (e11 : t.fab.logs = s.fab.logs)
    (e12 : t.mem.logs = s.mem.logs) (e13 : t.canOut = s.canOut) (e14 : t.bench.hostOut = s.bench.hostOut) (e15 : t.blow.sent = s.blow.sent)
    (e16 : t.cfg.arbFuses = s.cfg.arbFuses) (e17 : t.cfg.dbgDisFuse = s.cfg.dbgDisFuse) : Kept from0 t where
  pending := e1.trans h.pending
  fresh := e2 ▸ h.fresh
  can := e13 ▸ h.can
  host := e14 ▸ h.host
  sent := e15 ▸ h.sent
  arb := e16 ▸ h.arb
  dbg := e17.trans h.dbg
  regs := by
    have := h.regs
    unfold RegsWf at *
    rw [e3]
    exact this
  dram := by
    have := h.dram
    unfold Memory.wf at *
    rw [e4]
    exact this
  logs := by
    have := h.logs
    unfold LogsWf at *
    rw [e5, e6, e7, e8, e9, e10, e11, e12]
    exact this

/-- An updated record, whose kept parts are those of one state. -/
theorem kept_mk {s : State} {a0 a1 a2 a3 a4 a5 a6 z6 a7 a8 a9 b0 b1 b2 b3 b4 b5 b6 b7 b8 b9 c0 c1 c2} (h : Kept from0 s) (e1 : a0 = s.pending)
    (e2 : a2 = s.fresh) (e3 : a4 = s.regs) (e4 : MemState.bytes a6 = s.mem.bytes) (e5 : ResetState.log b2 = s.rst.log)
    (e6 : ConfigState.log b3 = s.cfg.log) (e7 : ThermState.log b4 = s.therm.log) (e8 : LehrAState.log a8 = s.lehrA.log)
    (e9 : MarverState.log c2 = s.marver.log) (e10 : BlowState.log c1 = s.blow.log) (e11 : FabState.logs b7 = s.fab.logs)
    (e12 : MemState.logs a6 = s.mem.logs) (e13 : b0 = s.canOut)
    (e14 : Bench.hostOut c0 = s.bench.hostOut) (e15 : BlowState.sent c1 = s.blow.sent) (e16 : ConfigState.arbFuses b3 = s.cfg.arbFuses)
    (e17 : ConfigState.dbgDisFuse b3 = s.cfg.dbgDisFuse) :
    Kept from0 ⟨a0, a1, a2, a3, a4, a5, a6, z6, a7, a8, a9, b0, b1, b2, b3, b4, b5, b6, b7, b8, b9, c0, c1, c2⟩ :=
  h.same e1 e2 e3 e4 e5 e6 e7 e8 e9 e10 e11 e12 e13 e14 e15 e16 e17

theorem EvLog.within_push {l : EvLog} {cap : Nat} (h : l.within cap) (b : Option Nat) (w : Word) (a : Nat) : (l.push cap b w a).within cap := by
  unfold EvLog.push EvLog.within at *
  split
  · exact h
  · simp only [List.length_append, List.length_singleton]
    omega

theorem EvLog.within_pop {l : EvLog} {cap : Nat} (h : l.within cap) : l.pop.within cap := by
  unfold EvLog.pop EvLog.within at *
  simp only [List.length_tail]
  omega

theorem EvLog.within_empty (cap : Nat) : EvLog.empty.within cap := Nat.zero_le cap

/-- An entry of a written table is the one written or one it held. -/
theorem mem_sput {α : Type} [DecidableEq α] {d : α} {m : List (Nat × α)} {i : Nat} {x : α} {q : Nat × α} (h : q ∈ sput d m i x) :
    q = (i, x) ∨ q ∈ m := by
  have hdel : ∀ m : List (Nat × α), q ∈ sdel m i → q ∈ m := by
    intro m
    induction m with
    | nil => exact id
    | cons r m ih =>
      intro hq
      simp only [sdel] at hq
      split at hq
      · exact List.mem_cons_of_mem _ (ih hq)
      · rcases List.mem_cons.mp hq with e | e
        · exact e ▸ List.mem_cons_self
        · exact List.mem_cons_of_mem _ (ih e)
  have hins : ∀ m : List (Nat × α), q ∈ sins m i x → q = (i, x) ∨ q ∈ m := by
    intro m
    induction m with
    | nil => intro hq; exact .inl (by simpa [sins] using hq)
    | cons r m ih =>
      intro hq
      simp only [sins] at hq
      split at hq
      · rcases List.mem_cons.mp hq with e | e
        · exact .inl e
        · exact .inr (List.mem_cons_of_mem _ e)
      · split at hq
        · rcases List.mem_cons.mp hq with e | e
          · exact .inl e
          · exact .inr e
        · rcases List.mem_cons.mp hq with e | e
          · exact .inr (e ▸ List.mem_cons_self)
          · rcases ih e with e | e
            · exact .inl e
            · exact .inr (List.mem_cons_of_mem _ e)
  unfold sput at h
  split at h
  · exact .inr (hdel m h)
  · exact hins m h

/-- A table of logs with one written. -/
theorem logs_sput {cap : Nat} {m : List (Nat × EvLog)} (h : ∀ q ∈ m, q.2.within cap) (i : Nat) {x : EvLog} (hx : x.within cap) :
    ∀ q ∈ sput EvLog.empty m i x, q.2.within cap := by
  intro q hq
  rcases mem_sput hq with e | e
  · exact e ▸ hx
  · exact h q e

/-- A log of a table. -/
theorem logs_sget {cap : Nat} {m : List (Nat × EvLog)} (h : ∀ q ∈ m, q.2.within cap) (i : Nat) : (sget EvLog.empty m i).within cap := by
  induction m with
  | nil => exact EvLog.within_empty cap
  | cons r m ih =>
    simp only [sget]
    split
    · exact h r List.mem_cons_self
    · exact ih (fun q hq => h q (List.mem_cons_of_mem _ hq))

/-- An updated record with event logs among what was updated. -/
theorem kept_mk_logs {s : State} {a0 a1 a2 a3 a4 a5 a6 z6 a7 a8 a9 b0 b1 b2 b3 b4 b5 b6 b7 b8 b9 c0 c1 c2} (h : Kept from0 s) (e1 : a0 = s.pending)
    (e2 : a2 = s.fresh) (e3 : a4 = s.regs) (e4 : MemState.bytes a6 = s.mem.bytes)
    (e13 : b0 = s.canOut)
    (e14 : Bench.hostOut c0 = s.bench.hostOut) (e15 : BlowState.sent c1 = s.blow.sent) (e16 : ConfigState.arbFuses b3 = s.cfg.arbFuses)
    (e17 : ConfigState.dbgDisFuse b3 = s.cfg.dbgDisFuse)
    (l1 : s.rst.log.within 64 → (ResetState.log b2).within 64) (l2 : s.cfg.log.within 64 → (ConfigState.log b3).within 64)
    (l3 : s.therm.log.within 64 → (ThermState.log b4).within 64) (l4 : s.blow.log.within 64 → (BlowState.log c1).within 64)
    (l5 : s.lehrA.log.within 256 → (LehrAState.log a8).within 256) (l6 : s.marver.log.within 256 → (MarverState.log c2).within 256)
    (l7 : (∀ q ∈ s.fab.logs, q.2.within 256) → ∀ q ∈ FabState.logs b7, q.2.within 256)
    (l8 : (∀ q ∈ s.mem.logs, q.2.within 64) → ∀ q ∈ MemState.logs a6, q.2.within 64) :
    Kept from0 ⟨a0, a1, a2, a3, a4, a5, a6, z6, a7, a8, a9, b0, b1, b2, b3, b4, b5, b6, b7, b8, b9, c0, c1, c2⟩ where
  pending := e1.trans h.pending
  fresh := e2 ▸ h.fresh
  can := e13 ▸ h.can
  host := e14 ▸ h.host
  sent := e15 ▸ h.sent
  arb := e16 ▸ h.arb
  dbg := e17.trans h.dbg
  regs := by
    have := h.regs
    unfold RegsWf at *
    rw [e3]
    exact this
  dram := by
    have := h.dram
    unfold Memory.wf at *
    rw [e4]
    exact this
  logs := by
    obtain ⟨k1, k2, k3, k4, k5, k6, k7, k8⟩ := h.logs
    exact ⟨l1 k1, l2 k2, l3 k3, l4 k4, l5 k5, l6 k6, l7 k7, l8 k8⟩

/-- An updated record in which DRAM changed too. -/
theorem kept_mk_dram {s : State} {a0 a1 a2 a3 a4 a5 a6 z6 a7 a8 a9 b0 b1 b2 b3 b4 b5 b6 b7 b8 b9 c0 c1 c2} (h : Kept from0 s) (e1 : a0 = s.pending)
    (e2 : a2 = s.fresh) (e3 : a4 = s.regs) (e5 : ResetState.log b2 = s.rst.log)
    (e6 : ConfigState.log b3 = s.cfg.log) (e7 : ThermState.log b4 = s.therm.log) (e8 : LehrAState.log a8 = s.lehrA.log)
    (e9 : MarverState.log c2 = s.marver.log) (e10 : BlowState.log c1 = s.blow.log) (e11 : FabState.logs b7 = s.fab.logs)
    (e12 : MemState.logs a6 = s.mem.logs) (e13 : b0 = s.canOut)
    (e14 : Bench.hostOut c0 = s.bench.hostOut) (e15 : BlowState.sent c1 = s.blow.sent) (e16 : ConfigState.arbFuses b3 = s.cfg.arbFuses)
    (e17 : ConfigState.dbgDisFuse b3 = s.cfg.dbgDisFuse)
    (e4 : sparseWf (fun _ => 0#8) s.mem.bytes = true → sparseWf (fun _ => 0#8) (MemState.bytes a6) = true) :
    Kept from0 ⟨a0, a1, a2, a3, a4, a5, a6, z6, a7, a8, a9, b0, b1, b2, b3, b4, b5, b6, b7, b8, b9, c0, c1, c2⟩ where
  pending := e1.trans h.pending
  fresh := e2 ▸ h.fresh
  can := e13 ▸ h.can
  host := e14 ▸ h.host
  sent := e15 ▸ h.sent
  arb := e16 ▸ h.arb
  dbg := e17.trans h.dbg
  regs := by
    have := h.regs
    unfold RegsWf at *
    rw [e3]
    exact this
  dram := e4 h.dram
  logs := by
    have := h.logs
    unfold LogsWf at *
    rw [e5, e6, e7, e8, e9, e10, e11, e12]
    exact this

/-- The state of a pair that something answered. -/
theorem kept_fst {β : Type} {x : State × β} {s : State} {b : β} (e : x = (s, b)) (h : Kept from0 x.1) : Kept from0 s := by
  rw [e] at h
  exact h

/-- Either branch. -/
theorem kept_ite {c : Prop} [Decidable c] {a b : State} (ha : Kept from0 a) (hb : Kept from0 b) : Kept from0 (if c then a else b) := by
  split
  · exact ha
  · exact hb

/-- A fold whose every round keeps. -/
theorem kept_foldl {α : Type} {f : State → α → State} {s : State} {l : List α} (h : Kept from0 s)
    (hf : ∀ x a, Kept from0 x → Kept from0 (f x a)) : Kept from0 (l.foldl f s) := by
  induction l generalizing s with
  | nil => exact h
  | cons a l ih => exact ih (hf s a h)

/-- A fold over a state and something beside it. -/
theorem kept_foldl_pair {α β : Type} {f : State × β → α → State × β} {x : State × β} {l : List α} (h : Kept from0 x.1)
    (hf : ∀ x a, Kept from0 x.1 → Kept from0 (f x a).1) : Kept from0 (l.foldl f x).1 := by
  induction l generalizing x with
  | nil => exact h
  | cons a l ih => exact ih (hf x a h)

/-- A fold over a structure that holds a state. -/
theorem kept_foldl_of {α β : Type} (g : β → State) {f : β → α → β} {x : β} {l : List α} (h : Kept from0 (g x))
    (hf : ∀ x a, Kept from0 (g x) → Kept from0 (g (f x a))) : Kept from0 (g (l.foldl f x)) := by
  induction l generalizing x with
  | nil => exact h
  | cons a l ih => exact ih (hf x a h)

theorem kept_foldr {α : Type} {f : α → State → State} {s : State} {l : List α} (h : Kept from0 s)
    (hf : ∀ a x, Kept from0 x → Kept from0 (f a x)) : Kept from0 (l.foldr f s) := by
  induction l with
  | nil => exact h
  | cons a l ih => exact hf a _ ih

theorem kept_regs {s : State} (h : Kept from0 s) {r : List (Nat × Word)} (hr : sparseWf regReset r = true) : Kept from0 { s with regs := r } :=
  ⟨h.pending, h.fresh, hr, h.dram, h.logs, h.can, h.host, h.sent, h.arb, h.dbg⟩

theorem kept_setReg {s : State} (h : Kept from0 s) (off : Nat) (v : Word) : Kept from0 (s.setReg off v) :=
  kept_regs h (sparseWf_sput off v h.regs)

theorem kept_resetReg {s : State} (h : Kept from0 s) (off : Nat) : Kept from0 (s.resetReg off) :=
  kept_regs h (sparseWf_sdel off h.regs)

theorem kept_resetRegs {s : State} (h : Kept from0 s) (lo hi : Nat) : Kept from0 (s.resetRegs lo hi) :=
  kept_regs h (sparseWf_sclear (fun o => decide (lo ≤ o) && decide (o < hi)) h.regs)

theorem kept_resetRegsBut {s : State} (h : Kept from0 s) (lo hi : Nat) (keep : Nat → Bool) : Kept from0 (s.resetRegsBut lo hi keep) :=
  kept_regs h (sparseWf_sclear (fun o => decide (lo ≤ o) && decide (o < hi) && !keep o) h.regs)

theorem kept_nextFresh {s : State} (h : Kept from0 s) : Kept from0 s.nextFresh :=
  ⟨h.pending, Nat.le_succ_of_le h.fresh, h.regs, h.dram, h.logs, h.can, h.host, h.sent, h.arb, h.dbg⟩

/-- What has left the device stays before what leaves it next. -/
theorem prefix_append {α : Type} {a b : List α} (h : a <+: b) (l : List α) : a <+: b ++ l := h.trans (List.prefix_append b l)

end Sys2Proof.Machine
end

