-- ==== Sys2Proof/Laws/KeptBase.lean ====
section
/-! SUPPORT. What the operations keep: the operations over registers, heat and power, and memory. -/

namespace Sys2Proof.Machine

variable {from0 : State}

/-! ### Machine/Ops.lean -/

theorem kept_setRegFld {s : State} (hk : Kept from0 s) (off : Nat) (lo : Nat) (n : Nat) (v : Nat) :
    Kept from0 (State.setRegFld s off lo n v) := by
  unfold State.setRegFld
  try dsimp only
  repeat' first
    | with_reducible assumption
    | with_reducible first | apply kept_setReg

theorem kept_setRegBit {s : State} (hk : Kept from0 s) (off : Nat) (i : Nat) (b : Bool) :
    Kept from0 (State.setRegBit s off i b) := by
  unfold State.setRegBit
  try dsimp only
  repeat' first
    | with_reducible assumption
    | with_reducible first | apply kept_setReg

theorem kept_bump {s : State} (hk : Kept from0 s) (off : Nat) (k : Nat) :
    Kept from0 (State.bump s off k) := by
  unfold State.bump
  try dsimp only
  repeat' first
    | with_reducible assumption
    | with_reducible first | apply kept_setReg

theorem kept_bumpSat {s : State} (hk : Kept from0 s) (off : Nat) (lo : Nat) (n : Nat) :
    Kept from0 (State.bumpSat s off lo n) := by
  unfold State.bumpSat
  try dsimp only
  repeat' first
    | with_reducible assumption
    | with_reducible first | apply kept_setReg

theorem kept_at {s : State} (hk : Kept from0 s) (t : Nat) :
    Kept from0 (State.at s t) := by
  unfold State.at
  try dsimp only
  repeat' first
    | with_reducible assumption
    | with_reducible refine kept_mk ?_ rfl rfl rfl rfl rfl rfl rfl rfl rfl rfl rfl rfl rfl rfl rfl rfl rfl

theorem kept_raise {s : State} (hk : Kept from0 s) (code : Nat) (unit : Nat) :
    Kept from0 (State.raise s code unit) := by
  unfold State.raise
  try dsimp only
  repeat' first
    | with_reducible assumption
    | with_reducible refine kept_fst (by assumption) ?_
    | with_reducible refine kept_mk ?_ rfl rfl rfl rfl rfl rfl rfl rfl rfl rfl rfl rfl rfl rfl rfl rfl rfl

theorem kept_logReset {s : State} (hk : Kept from0 s) (code : Nat) (kind : Nat) (index : Nat) :
    Kept from0 (State.logReset s code kind index) := by
  unfold State.logReset
  try dsimp only
  repeat' first
    | with_reducible assumption
    | with_reducible first | apply kept_raise
    | with_reducible refine kept_ite ?_ ?_
    | split
    | with_reducible refine kept_mk ?_ rfl rfl rfl rfl rfl rfl rfl rfl rfl rfl rfl rfl rfl rfl rfl rfl rfl
    | ((with_reducible refine kept_mk_logs ?_ rfl rfl rfl rfl rfl rfl rfl rfl rfl ?_ ?_ ?_ ?_ ?_ ?_ ?_ ?_) <;> try first
        | with_reducible exact id
        | with_reducible exact fun l => EvLog.within_push l _ _ _
        | with_reducible exact fun l => EvLog.within_pop l
        | with_reducible exact fun _ => EvLog.within_empty _
        | with_reducible exact fun l => logs_sput l _ (EvLog.within_push (logs_sget l _) _ _ _)
        | with_reducible exact fun l => logs_sput l _ (EvLog.within_pop (logs_sget l _))
        | with_reducible exact fun l => logs_sput l _ (EvLog.within_empty _)
        | exact fun _ => EvLog.within_empty _
        | exact fun _ => Nat.zero_le _
        | exact fun _ _ h => (List.not_mem_nil h).elim
        | exact fun l => logs_sput l _ (EvLog.within_empty _))

theorem kept_logCfg {s : State} (hk : Kept from0 s) (code : Nat) :
    Kept from0 (State.logCfg s code) := by
  unfold State.logCfg
  try dsimp only
  repeat' first
    | with_reducible assumption
    | with_reducible first | apply kept_raise
    | with_reducible refine kept_ite ?_ ?_
    | split
    | with_reducible refine kept_mk ?_ rfl rfl rfl rfl rfl rfl rfl rfl rfl rfl rfl rfl rfl rfl rfl rfl rfl
    | ((with_reducible refine kept_mk_logs ?_ rfl rfl rfl rfl rfl rfl rfl rfl rfl ?_ ?_ ?_ ?_ ?_ ?_ ?_ ?_) <;> try first
        | with_reducible exact id
        | with_reducible exact fun l => EvLog.within_push l _ _ _
        | with_reducible exact fun l => EvLog.within_pop l
        | with_reducible exact fun _ => EvLog.within_empty _
        | with_reducible exact fun l => logs_sput l _ (EvLog.within_push (logs_sget l _) _ _ _)
        | with_reducible exact fun l => logs_sput l _ (EvLog.within_pop (logs_sget l _))
        | with_reducible exact fun l => logs_sput l _ (EvLog.within_empty _)
        | exact fun _ => EvLog.within_empty _
        | exact fun _ => Nat.zero_le _
        | exact fun _ _ h => (List.not_mem_nil h).elim
        | exact fun l => logs_sput l _ (EvLog.within_empty _))

theorem kept_logTherm {s : State} (hk : Kept from0 s) (code : Nat) (unit : Nat) :
    Kept from0 (State.logTherm s code unit) := by
  unfold State.logTherm
  try dsimp only
  repeat' first
    | with_reducible assumption
    | with_reducible first | apply kept_setRegBit | apply kept_raise
    | with_reducible refine kept_ite ?_ ?_
    | split
    | with_reducible refine kept_mk ?_ rfl rfl rfl rfl rfl rfl rfl rfl rfl rfl rfl rfl rfl rfl rfl rfl rfl
    | ((with_reducible refine kept_mk_logs ?_ rfl rfl rfl rfl rfl rfl rfl rfl rfl ?_ ?_ ?_ ?_ ?_ ?_ ?_ ?_) <;> try first
        | with_reducible exact id
        | with_reducible exact fun l => EvLog.within_push l _ _ _
        | with_reducible exact fun l => EvLog.within_pop l
        | with_reducible exact fun _ => EvLog.within_empty _
        | with_reducible exact fun l => logs_sput l _ (EvLog.within_push (logs_sget l _) _ _ _)
        | with_reducible exact fun l => logs_sput l _ (EvLog.within_pop (logs_sget l _))
        | with_reducible exact fun l => logs_sput l _ (EvLog.within_empty _)
        | exact fun _ => EvLog.within_empty _
        | exact fun _ => Nat.zero_le _
        | exact fun _ _ h => (List.not_mem_nil h).elim
        | exact fun l => logs_sput l _ (EvLog.within_empty _))

/-! ### Machine/Sched.lean -/

theorem kept_mapCmd {s : State} (hk : Kept from0 s) (key : Nat) (f : Cmd → Cmd) :
    Kept from0 (mapCmd s key f) := by
  unfold mapCmd
  try dsimp only
  repeat' first
    | with_reducible assumption
    | with_reducible refine kept_ite ?_ ?_
    | split
    | with_reducible refine kept_mk ?_ rfl rfl rfl rfl rfl rfl rfl rfl rfl rfl rfl rfl rfl rfl rfl rfl rfl

theorem kept_syncLive {s : State} (hk : Kept from0 s) (ring : Nat) :
    Kept from0 (syncLive s ring) := by
  unfold syncLive
  try dsimp only
  repeat' first
    | with_reducible assumption
    | with_reducible first | apply kept_setRegFld | apply kept_setRegBit

theorem kept_markCancel {s : State} (hk : Kept from0 s) (key : Nat) (reason : Nat) :
    Kept from0 (markCancel key reason s) := by
  unfold markCancel
  try dsimp only
  repeat' first
    | with_reducible assumption
    | with_reducible first | apply kept_mapCmd | apply kept_setRegBit
    | with_reducible refine kept_ite ?_ ?_
    | split
    | with_reducible refine kept_mk ?_ rfl rfl rfl rfl rfl rfl rfl rfl rfl rfl rfl rfl rfl rfl rfl rfl rfl

theorem kept_cancelRunsOn {s : State} (hk : Kept from0 s) (cores : List Nat) :
    Kept from0 (cancelRunsOn cores s) := by
  unfold cancelRunsOn
  try dsimp only
  repeat' first
    | with_reducible assumption
    | with_reducible first | apply kept_markCancel
    | with_reducible refine kept_foldl ?_ (fun _ _ _ => ?_)
    | with_reducible refine kept_foldl_pair ?_ (fun _ _ _ => ?_)
    | split
    | with_reducible refine kept_mk ?_ rfl rfl rfl rfl rfl rfl rfl rfl rfl rfl rfl rfl rfl rfl rfl rfl rfl

theorem kept_mapRun {s : State} (hk : Kept from0 s) (key : Nat) (prog : Nat) (kind : RunKind) (f : ProgRun → ProgRun) :
    Kept from0 (mapRun s key prog kind f) := by
  unfold mapRun
  try dsimp only
  repeat' first
    | with_reducible assumption
    | with_reducible first | apply kept_mapCmd
    | with_reducible refine kept_ite ?_ ?_
    | split
    | with_reducible refine kept_mk ?_ rfl rfl rfl rfl rfl rfl rfl rfl rfl rfl rfl rfl rfl rfl rfl rfl rfl

/-! ### Machine/CoreOps.lean -/

theorem kept_setCoreSt {s : State} (hk : Kept from0 s) (c : Nat) (x : CoreSt) :
    Kept from0 (State.setCoreSt s c x) := by
  unfold State.setCoreSt
  try dsimp only
  repeat' first
    | with_reducible assumption
    | with_reducible first | apply kept_setRegFld

theorem kept_setCore {s : State} (hk : Kept from0 s) (c : Nat) (x : Core) :
    Kept from0 (State.setCore s c x) := by
  unfold State.setCore
  try dsimp only
  repeat' first
    | with_reducible assumption
    | with_reducible refine kept_mk ?_ rfl rfl rfl rfl rfl rfl rfl rfl rfl rfl rfl rfl rfl rfl rfl rfl rfl

theorem kept_setSclass {s : State} (hk : Kept from0 s) (c : Nat) (b : Bool) :
    Kept from0 (State.setSclass s c b) := by
  unfold State.setSclass
  try dsimp only
  repeat' first
    | with_reducible assumption
    | with_reducible first | apply kept_setRegBit

theorem kept_applyPairing {s : State} (hk : Kept from0 s) (c : Nat) :
    Kept from0 (applyPairing s c) := by
  unfold applyPairing
  try dsimp only
  repeat' first
    | with_reducible assumption
    | with_reducible first | apply kept_setRegFld | apply kept_setRegBit
    | with_reducible refine kept_ite ?_ ?_
    | split
    | with_reducible refine kept_mk ?_ rfl rfl rfl rfl rfl rfl rfl rfl rfl rfl rfl rfl rfl rfl rfl rfl rfl

theorem kept_logLehrA {s : State} (hk : Kept from0 s) (code : Nat) (unit : Nat) (frame : Nat) :
    Kept from0 (State.logLehrA s code unit frame) := by
  unfold State.logLehrA
  try dsimp only
  repeat' first
    | with_reducible assumption
    | with_reducible first | apply kept_setRegBit
    | with_reducible refine kept_ite ?_ ?_
    | split
    | with_reducible refine kept_mk ?_ rfl rfl rfl rfl rfl rfl rfl rfl rfl rfl rfl rfl rfl rfl rfl rfl rfl
    | ((with_reducible refine kept_mk_logs ?_ rfl rfl rfl rfl rfl rfl rfl rfl rfl ?_ ?_ ?_ ?_ ?_ ?_ ?_ ?_) <;> try first
        | with_reducible exact id
        | with_reducible exact fun l => EvLog.within_push l _ _ _
        | with_reducible exact fun l => EvLog.within_pop l
        | with_reducible exact fun _ => EvLog.within_empty _
        | with_reducible exact fun l => logs_sput l _ (EvLog.within_push (logs_sget l _) _ _ _)
        | with_reducible exact fun l => logs_sput l _ (EvLog.within_pop (logs_sget l _))
        | with_reducible exact fun l => logs_sput l _ (EvLog.within_empty _)
        | exact fun _ => EvLog.within_empty _
        | exact fun _ => Nat.zero_le _
        | exact fun _ _ h => (List.not_mem_nil h).elim
        | exact fun l => logs_sput l _ (EvLog.within_empty _))

theorem kept_noteLehrA {s : State} (hk : Kept from0 s) (code : Nat) (frame : Nat) :
    Kept from0 (State.noteLehrA s code frame) := by
  unfold State.noteLehrA
  try dsimp only
  repeat' first
    | with_reducible assumption
    | with_reducible first | apply kept_logLehrA
    | with_reducible refine kept_ite ?_ ?_
    | split
    | with_reducible refine kept_mk ?_ rfl rfl rfl rfl rfl rfl rfl rfl rfl rfl rfl rfl rfl rfl rfl rfl rfl

theorem kept_resetCoreRegs {s : State} (hk : Kept from0 s) (c : Nat) :
    Kept from0 (resetCoreRegs s c) := by
  unfold resetCoreRegs
  try dsimp only
  repeat' first
    | with_reducible assumption
    | with_reducible first | apply kept_resetRegsBut

theorem kept_copyCoreCounts {s : State} (hk : Kept from0 s) (c : Nat) :
    Kept from0 (copyCoreCounts s c) := by
  unfold copyCoreCounts
  try dsimp only
  repeat' first
    | with_reducible assumption
    | with_reducible refine kept_fst (by assumption) ?_
    | with_reducible refine kept_mk ?_ rfl rfl rfl rfl rfl rfl rfl rfl rfl rfl rfl rfl rfl rfl rfl rfl rfl

theorem kept_accrue {s : State} (hk : Kept from0 s) (c : Nat) :
    Kept from0 (accrue s c) := by
  unfold accrue
  try dsimp only
  repeat' first
    | with_reducible assumption
    | with_reducible first | apply kept_bump | apply kept_setCore
    | with_reducible refine kept_ite ?_ ?_
    | split
    | with_reducible refine kept_mk ?_ rfl rfl rfl rfl rfl rfl rfl rfl rfl rfl rfl rfl rfl rfl rfl rfl rfl

theorem kept_stopStreams {s0 : State} (hk : Kept from0 s0) (c : Nat) :
    Kept from0 (stopStreams s0 c) := by
  unfold stopStreams
  try dsimp only
  repeat' first
    | with_reducible assumption
    | with_reducible first | apply kept_accrue | apply kept_setCore | apply kept_setReg
    | with_reducible refine kept_mk ?_ rfl rfl rfl rfl rfl rfl rfl rfl rfl rfl rfl rfl rfl rfl rfl rfl rfl

theorem kept_endProgram {s : State} (hk : Kept from0 s) (c : Nat) :
    Kept from0 (endProgram s c) := by
  unfold endProgram
  try dsimp only
  repeat' first
    | with_reducible assumption
    | with_reducible first | apply kept_setReg | apply kept_setRegBit

theorem kept_syncBind {s : State} (hk : Kept from0 s) (c : Nat) :
    Kept from0 (syncBind s c) := by
  unfold syncBind
  try dsimp only
  repeat' first
    | with_reducible assumption
    | with_reducible first | apply kept_setRegFld | apply kept_setRegBit
    | split
    | with_reducible refine kept_mk ?_ rfl rfl rfl rfl rfl rfl rfl rfl rfl rfl rfl rfl rfl rfl rfl rfl rfl

theorem kept_loseBinding {s : State} (hk : Kept from0 s) (c : Nat) :
    Kept from0 (loseBinding s c) := by
  unfold loseBinding
  try dsimp only
  repeat' first
    | with_reducible assumption
    | with_reducible first | apply kept_markCancel
    | with_reducible refine kept_foldl ?_ (fun _ _ _ => ?_)
    | with_reducible refine kept_foldl_pair ?_ (fun _ _ _ => ?_)
    | split
    | with_reducible refine kept_mk ?_ rfl rfl rfl rfl rfl rfl rfl rfl rfl rfl rfl rfl rfl rfl rfl rfl rfl

theorem kept_wasteTime {s : State} (hk : Kept from0 s) (c : Nat) :
    Kept from0 (wasteTime s c) := by
  unfold wasteTime
  try dsimp only
  repeat' first
    | with_reducible assumption
    | with_reducible first | apply kept_accrue | apply kept_bump | apply kept_setCore
    | with_reducible refine kept_mk ?_ rfl rfl rfl rfl rfl rfl rfl rfl rfl rfl rfl rfl rfl rfl rfl rfl rfl

theorem kept_loseTie {s : State} (hk : Kept from0 s) (c : Nat) :
    Kept from0 (loseTie s c) := by
  unfold loseTie
  try dsimp only
  repeat' first
    | with_reducible assumption
    | with_reducible refine kept_ite ?_ ?_
    | split
    | with_reducible refine kept_mk ?_ rfl rfl rfl rfl rfl rfl rfl rfl rfl rfl rfl rfl rfl rfl rfl rfl rfl

theorem kept_dropSlice {s : State} (hk : Kept from0 s) (c : Nat) :
    Kept from0 (dropSlice s c) := by
  unfold dropSlice
  try dsimp only
  repeat' first
    | with_reducible assumption
    | with_reducible refine kept_mk ?_ rfl rfl rfl rfl rfl rfl rfl rfl rfl rfl rfl rfl rfl rfl rfl rfl rfl

theorem kept_enterReset {s0 : State} (hk : Kept from0 s0) (c : Nat) :
    Kept from0 (enterReset s0 c) := by
  unfold enterReset
  try dsimp only
  repeat' first
    | with_reducible assumption
    | with_reducible first | apply kept_dropSlice | apply kept_loseTie | apply kept_wasteTime | apply kept_loseBinding | apply kept_applyPairing
    | with_reducible first | apply kept_resetCoreRegs | apply kept_copyCoreCounts | apply kept_syncBind | apply kept_setCore
    | with_reducible refine kept_mk ?_ rfl rfl rfl rfl rfl rfl rfl rfl rfl rfl rfl rfl rfl rfl rfl rfl rfl

theorem kept_killActions {s : State} (hk : Kept from0 s) (c : Nat) :
    Kept from0 (killActions s c) := by
  unfold killActions
  try dsimp only
  repeat' first
    | with_reducible assumption
    | with_reducible first | apply kept_setReg | apply kept_stopStreams | apply kept_endProgram | apply kept_setCore
    | with_reducible refine kept_mk ?_ rfl rfl rfl rfl rfl rfl rfl rfl rfl rfl rfl rfl rfl rfl rfl rfl rfl

theorem kept_quarantineCore {s0 : State} (hk : Kept from0 s0) (c : Nat) :
    Kept from0 (quarantineCore s0 c) := by
  unfold quarantineCore
  try dsimp only
  repeat' first
    | with_reducible assumption
    | with_reducible first | apply kept_dropSlice | apply kept_loseBinding | apply kept_cancelRunsOn | apply kept_killActions
    | with_reducible first | apply kept_loseTie | apply kept_wasteTime | apply kept_endProgram | apply kept_syncBind | apply kept_setSclass
    | with_reducible first | apply kept_setCoreSt
    | with_reducible refine kept_ite ?_ ?_
    | split
    | with_reducible refine kept_mk ?_ rfl rfl rfl rfl rfl rfl rfl rfl rfl rfl rfl rfl rfl rfl rfl rfl rfl

theorem kept_setCharges {s : State} (hk : Kept from0 s) (c : Nat) (fs : List Nat) :
    Kept from0 (State.setCharges s c fs) := by
  unfold State.setCharges
  try dsimp only
  repeat' first
    | with_reducible assumption
    | with_reducible first | apply kept_setRegFld
    | with_reducible refine kept_mk ?_ rfl rfl rfl rfl rfl rfl rfl rfl rfl rfl rfl rfl rfl rfl rfl rfl rfl

theorem kept_noteCharge {s : State} (hk : Kept from0 s) (c : Nat) (f : Nat) :
    Kept from0 (noteCharge s c f) := by
  unfold noteCharge
  try dsimp only
  repeat' first
    | with_reducible assumption
    | with_reducible refine kept_mk ?_ rfl rfl rfl rfl rfl rfl rfl rfl rfl rfl rfl rfl rfl rfl rfl rfl rfl

theorem kept_chargeCore {s0 : State} (hk : Kept from0 s0) (c : Nat) (f : Nat) :
    Kept from0 (chargeCore s0 c f) := by
  unfold chargeCore
  try dsimp only
  repeat' first
    | with_reducible assumption
    | with_reducible first | apply kept_noteCharge | apply kept_setCharges | apply kept_logLehrA | apply kept_quarantineCore | apply kept_bumpSat
    | with_reducible first | apply kept_setSclass | apply kept_setRegBit
    | with_reducible refine kept_ite ?_ ?_
    | split

theorem kept_disagreement {s : State} (hk : Kept from0 s) (cores : List Nat) (f : Nat) :
    Kept from0 (disagreement s cores f) := by
  unfold disagreement
  try dsimp only
  repeat' first
    | with_reducible assumption
    | with_reducible first | apply kept_chargeCore | apply kept_bump
    | with_reducible refine kept_foldl ?_ (fun _ _ _ => ?_)
    | with_reducible refine kept_foldl_pair ?_ (fun _ _ _ => ?_)
    | with_reducible refine kept_ite ?_ ?_
    | split

theorem kept_coreCheckEvent {s : State} (hk : Kept from0 s) (c : Nat) :
    Kept from0 (coreCheckEvent s c) := by
  unfold coreCheckEvent
  try dsimp only
  repeat' first
    | with_reducible assumption
    | with_reducible first | apply kept_logLehrA | apply kept_disagreement
    | with_reducible refine kept_ite ?_ ?_
    | split

/-! ### Machine/ResetOps.lean -/

theorem kept_setBlock {s : State} (hk : Kept from0 s) (x : BlockReset) :
    Kept from0 (State.setBlock s x) := by
  unfold State.setBlock
  try dsimp only
  repeat' first
    | with_reducible assumption
    | with_reducible refine kept_ite ?_ ?_
    | split
    | with_reducible refine kept_mk ?_ rfl rfl rfl rfl rfl rfl rfl rfl rfl rfl rfl rfl rfl rfl rfl rfl rfl

theorem kept_recordCause {s : State} (hk : Kept from0 s) (kind : Nat) (index : Nat) (source : Nat) :
    Kept from0 (recordCause s kind index source) := by
  unfold recordCause
  try dsimp only
  repeat' first
    | with_reducible assumption
    | with_reducible first | apply kept_setReg

theorem kept_openDomain {s : State} (hk : Kept from0 s) (kind : Nat) (index : Nat) (source : Nat) (requested : Bool) :
    Kept from0 (openDomain s kind index source requested) := by
  unfold openDomain
  try dsimp only
  repeat' first
    | with_reducible assumption
    | with_reducible refine kept_fst (by assumption) ?_
    | with_reducible refine kept_mk ?_ rfl rfl rfl rfl rfl rfl rfl rfl rfl rfl rfl rfl rfl rfl rfl rfl rfl

theorem kept_markWarm {s : State} (hk : Kept from0 s) :
    Kept from0 (markWarm s) := by
  unfold markWarm
  try dsimp only
  repeat' first
    | with_reducible assumption
    | with_reducible first | apply kept_setReg

theorem kept_beginDomain {s : State} (hk : Kept from0 s) (kind : Nat) (index : Nat) :
    Kept from0 (beginDomain s kind index) := by
  unfold beginDomain
  try dsimp only
  repeat' first
    | with_reducible assumption
    | with_reducible first | apply kept_quarantineCore | apply kept_cancelRunsOn | apply kept_markWarm | apply kept_setReg
    | split
    | with_reducible refine kept_mk ?_ rfl rfl rfl rfl rfl rfl rfl rfl rfl rfl rfl rfl rfl rfl rfl rfl rfl

theorem kept_startReset {s : State} (hk : Kept from0 s) (kind : Nat) (index : Nat) (source : Nat) (requested : Bool) :
    Kept from0 (startReset kind index source requested s) := by
  unfold startReset
  try dsimp only
  repeat' first
    | with_reducible assumption
    | with_reducible first | apply kept_logReset | apply kept_recordCause | apply kept_openDomain | apply kept_setRegBit | apply kept_beginDomain
    | with_reducible refine kept_ite ?_ ?_
    | split

theorem kept_countRelease {s : State} (hk : Kept from0 s) (d : Nat × Nat) :
    Kept from0 (countRelease s d) := by
  unfold countRelease
  try dsimp only
  repeat' first
    | with_reducible assumption
    | with_reducible first | apply kept_logReset | apply kept_bump

theorem kept_releaseDomain {s : State} (hk : Kept from0 s) (d : DomainReset) :
    Kept from0 (releaseDomain s d) := by
  unfold releaseDomain
  try dsimp only
  repeat' first
    | with_reducible assumption
    | with_reducible first | apply kept_countRelease | apply kept_setRegBit
    | with_reducible refine kept_foldl ?_ (fun _ _ _ => ?_)
    | with_reducible refine kept_foldl_pair ?_ (fun _ _ _ => ?_)
    | with_reducible refine kept_ite ?_ ?_
    | split
    | with_reducible refine kept_mk ?_ rfl rfl rfl rfl rfl rfl rfl rfl rfl rfl rfl rfl rfl rfl rfl rfl rfl

theorem kept_releaseDomains {s : State} (hk : Kept from0 s) :
    Kept from0 (releaseDomains s) := by
  unfold releaseDomains
  try dsimp only
  repeat' first
    | with_reducible assumption
    | with_reducible first | apply kept_releaseDomain
    | with_reducible refine kept_foldl ?_ (fun _ _ _ => ?_)
    | with_reducible refine kept_foldl_pair ?_ (fun _ _ _ => ?_)

/-! ### Machine/Thermal.lean -/

theorem kept_ageRecheck {s : State} (hk : Kept from0 s) (c : Nat) :
    Kept from0 (ageRecheck s c) := by
  unfold ageRecheck
  try dsimp only
  repeat' first
    | with_reducible assumption
    | with_reducible refine kept_ite ?_ ?_
    | split
    | with_reducible refine kept_mk ?_ rfl rfl rfl rfl rfl rfl rfl rfl rfl rfl rfl rfl rfl rfl rfl rfl rfl

theorem kept_setCoreVolt {s : State} (hk : Kept from0 s) (c : Nat) :
    Kept from0 (setCoreVolt s c) := by
  unfold setCoreVolt
  try dsimp only
  repeat' first
    | with_reducible assumption
    | with_reducible first | apply kept_ageRecheck | apply kept_setReg
    | with_reducible refine kept_ite ?_ ?_
    | split

theorem kept_setAllVolts {s : State} (hk : Kept from0 s) :
    Kept from0 (setAllVolts s) := by
  unfold setAllVolts
  try dsimp only
  repeat' first
    | with_reducible assumption
    | with_reducible first | apply kept_setCoreVolt
    | with_reducible refine kept_foldl ?_ (fun _ _ _ => ?_)
    | with_reducible refine kept_foldl_pair ?_ (fun _ _ _ => ?_)

theorem kept_execPowerSample {s : State} (hk : Kept from0 s) (power : BitVec 16) (t : Nat) :
    ∃ sx, execPowerSample power t s = .next sx ∧ Kept from0 sx := by
  unfold execPowerSample
  try dsimp only
  repeat' first
    | with_reducible assumption
    | with_reducible refine ⟨_, rfl, ?_⟩
    | with_reducible first | apply kept_at | apply kept_setRegFld | apply kept_setReg
    | with_reducible refine kept_mk ?_ rfl rfl rfl rfl rfl rfl rfl rfl rfl rfl rfl rfl rfl rfl rfl rfl rfl

theorem kept_setVp {s : State} (hk : Kept from0 s) (v : Nat) (limited : Bool) :
    Kept from0 (setVp s v limited) := by
  unfold setVp
  try dsimp only
  repeat' first
    | with_reducible assumption
    | with_reducible first | apply kept_setRegBit | apply kept_setRegFld

theorem kept_setPace {s : State} (hk : Kept from0 s) (p : Nat) :
    Kept from0 (setPace s p) := by
  unfold setPace
  try dsimp only
  repeat' first
    | with_reducible assumption
    | with_reducible first | apply kept_setRegBit | apply kept_setRegFld | apply kept_ageRecheck
    | with_reducible refine kept_foldl ?_ (fun _ _ _ => ?_)
    | with_reducible refine kept_foldl_pair ?_ (fun _ _ _ => ?_)

theorem kept_logPwrOver {s : State} (hk : Kept from0 s) :
    Kept from0 (logPwrOver s) := by
  unfold logPwrOver
  try dsimp only
  repeat' first
    | with_reducible assumption
    | with_reducible first | apply kept_logTherm
    | with_reducible refine kept_ite ?_ ?_
    | split
    | with_reducible refine kept_mk ?_ rfl rfl rfl rfl rfl rfl rfl rfl rfl rfl rfl rfl rfl rfl rfl rfl rfl

theorem kept_pacePower {s : State} (hk : Kept from0 s) :
    Kept from0 (pacePower s) := by
  unfold pacePower
  try dsimp only
  repeat' first
    | with_reducible assumption
    | with_reducible first | apply kept_setRegBit | apply kept_logPwrOver | apply kept_setPace | apply kept_logTherm
    | with_reducible refine kept_ite ?_ ?_
    | split

theorem kept_powerRow {s : State} (hk : Kept from0 s) :
    Kept from0 (powerRow s) := by
  unfold powerRow
  try dsimp only
  repeat' first
    | with_reducible assumption
    | with_reducible first | apply kept_setVp | apply kept_pacePower | apply kept_setPace
    | with_reducible refine kept_ite ?_ ?_
    | split

theorem kept_limitedShown {s : State} (hk : Kept from0 s) :
    Kept from0 (limitedShown s) := by
  unfold limitedShown
  try dsimp only
  repeat' first
    | with_reducible assumption
    | with_reducible first | apply kept_setRegBit
    | with_reducible refine kept_ite ?_ ?_
    | split

theorem kept_paceAllowed {s : State} (hk : Kept from0 s) :
    Kept from0 (paceAllowed s) := by
  unfold paceAllowed
  try dsimp only
  repeat' first
    | with_reducible assumption
    | with_reducible first | apply kept_setPace
    | with_reducible refine kept_ite ?_ ?_
    | split

theorem kept_powerUpdate {s : State} (hk : Kept from0 s) :
    Kept from0 (powerUpdate s) := by
  unfold powerUpdate
  try dsimp only
  repeat' first
    | with_reducible assumption
    | with_reducible first | apply kept_setAllVolts | apply kept_limitedShown | apply kept_powerRow | apply kept_paceAllowed

theorem kept_execPowerUpdate {s : State} (hk : Kept from0 s) (t : Nat) :
    ∃ sx, execPowerUpdate t s = .next sx ∧ Kept from0 sx := by
  unfold execPowerUpdate
  try dsimp only
  repeat' first
    | with_reducible assumption
    | with_reducible refine ⟨_, rfl, ?_⟩
    | with_reducible first | apply kept_powerUpdate | apply kept_at

theorem kept_setUnitState {s : State} (hk : Kept from0 s) (u : Nat) (x : Nat) :
    Kept from0 (setUnitState s u x) := by
  unfold setUnitState
  try dsimp only
  repeat' first
    | with_reducible assumption
    | with_reducible first | apply kept_setRegFld | apply kept_bumpSat
    | with_reducible refine kept_ite ?_ ?_
    | split

theorem kept_applyUnitVolt {s : State} (hk : Kept from0 s) (u : Nat) :
    Kept from0 (applyUnitVolt s u) := by
  unfold applyUnitVolt
  try dsimp only
  repeat' first
    | with_reducible assumption
    | with_reducible first | apply kept_setCoreVolt
    | with_reducible refine kept_ite ?_ ?_
    | split

theorem kept_capUpdate {s : State} (hk : Kept from0 s) (u : Nat) (tu : Int) :
    Kept from0 (capUpdate s u tu) := by
  unfold capUpdate
  try dsimp only
  repeat' first
    | with_reducible assumption
    | with_reducible first | apply kept_setRegFld | apply kept_logTherm | apply kept_setUnitState | apply kept_applyUnitVolt
    | with_reducible refine kept_ite ?_ ?_
    | split

theorem kept_setHold {s : State} (hk : Kept from0 s) (d : Nat × Nat) (b : Bool) :
    Kept from0 (setHold s d b) := by
  unfold setHold
  try dsimp only
  repeat' first
    | with_reducible assumption
    | with_reducible refine kept_ite ?_ ?_
    | split
    | with_reducible refine kept_mk ?_ rfl rfl rfl rfl rfl rfl rfl rfl rfl rfl rfl rfl rfl rfl rfl rfl rfl

theorem kept_tripReset {s : State} (hk : Kept from0 s) (d : Nat × Nat) (u : Nat) :
    Kept from0 (tripReset s d u) := by
  unfold tripReset
  try dsimp only
  repeat' first
    | with_reducible assumption
    | with_reducible first | apply kept_startReset | apply kept_setUnitState | apply kept_logReset | apply kept_setHold
    | with_reducible refine kept_ite ?_ ?_
    | split

theorem kept_tripCrucible {s : State} (hk : Kept from0 s) (k : Nat) (x : Nat) :
    Kept from0 (tripCrucible s k x) := by
  unfold tripCrucible
  try dsimp only
  repeat' first
    | with_reducible assumption
    | with_reducible first | apply kept_tripReset
    | with_reducible refine kept_ite ?_ ?_
    | split
    | with_reducible refine kept_mk ?_ rfl rfl rfl rfl rfl rfl rfl rfl rfl rfl rfl rfl rfl rfl rfl rfl rfl

theorem kept_thermalTrip {s : State} (hk : Kept from0 s) (u : Nat) :
    Kept from0 (thermalTrip s u) := by
  unfold thermalTrip
  try dsimp only
  repeat' first
    | with_reducible assumption
    | with_reducible first | apply kept_logTherm | apply kept_bumpSat | apply kept_tripCrucible | apply kept_tripReset | apply kept_setUnitState
    | with_reducible refine kept_ite ?_ ?_
    | split
    | with_reducible refine kept_mk ?_ rfl rfl rfl rfl rfl rfl rfl rfl rfl rfl rfl rfl rfl rfl rfl rfl rfl

theorem kept_finishHold {s : State} (hk : Kept from0 s) (u : Nat) :
    Kept from0 (finishHold s u) := by
  unfold finishHold
  try dsimp only
  repeat' first
    | with_reducible assumption
    | with_reducible first | apply kept_logTherm | apply kept_setUnitState | apply kept_releaseDomains | apply kept_setHold
    | with_reducible refine kept_ite ?_ ?_
    | split
    | with_reducible refine kept_mk ?_ rfl rfl rfl rfl rfl rfl rfl rfl rfl rfl rfl rfl rfl rfl rfl rfl rfl

theorem kept_dropHolder {s : State} (hk : Kept from0 s) (k : Nat) (x : Nat) :
    Kept from0 (dropHolder s k x) := by
  unfold dropHolder
  try dsimp only
  repeat' first
    | with_reducible assumption
    | with_reducible first | apply kept_finishHold
    | with_reducible refine kept_ite ?_ ?_
    | split
    | with_reducible refine kept_mk ?_ rfl rfl rfl rfl rfl rfl rfl rfl rfl rfl rfl rfl rfl rfl rfl rfl rfl

theorem kept_endHold {s : State} (hk : Kept from0 s) (u : Nat) (tu : Int) :
    Kept from0 (endHold s u tu) := by
  unfold endHold
  try dsimp only
  repeat' first
    | with_reducible assumption
    | with_reducible first | apply kept_dropHolder | apply kept_finishHold
    | with_reducible refine kept_ite ?_ ?_
    | split

theorem kept_blindUnit {s : State} (hk : Kept from0 s) (u : Nat) :
    Kept from0 (blindUnit s u) := by
  unfold blindUnit
  try dsimp only
  repeat' first
    | with_reducible assumption
    | with_reducible first | apply kept_setUnitState | apply kept_applyUnitVolt | apply kept_setRegFld | apply kept_setSclass
    | with_reducible refine kept_ite ?_ ?_
    | split

theorem kept_failSensor {s : State} (hk : Kept from0 s) (i : Nat) :
    Kept from0 (failSensor s i) := by
  unfold failSensor
  try dsimp only
  repeat' first
    | with_reducible assumption
    | with_reducible first | apply kept_logTherm | apply kept_setRegBit | apply kept_blindUnit
    | with_reducible refine kept_ite ?_ ?_
    | split

theorem kept_sensorStreaks {s : State} (hk : Kept from0 s) (i : Nat) (r : Option Int) :
    Kept from0 (sensorStreaks s i r) := by
  unfold sensorStreaks
  try dsimp only
  repeat' first
    | with_reducible assumption
    | with_reducible first | apply kept_failSensor
    | with_reducible refine kept_ite ?_ ?_
    | split
    | with_reducible refine kept_mk ?_ rfl rfl rfl rfl rfl rfl rfl rfl rfl rfl rfl rfl rfl rfl rfl rfl rfl

theorem kept_unitUpdate {s : State} (hk : Kept from0 s) (u : Nat) (r : Option Int) :
    Kept from0 (unitUpdate s u r) := by
  unfold unitUpdate
  try dsimp only
  repeat' first
    | with_reducible assumption
    | with_reducible first | apply kept_setRegFld | apply kept_ageRecheck | apply kept_capUpdate | apply kept_thermalTrip | apply kept_endHold
    | with_reducible refine kept_foldl ?_ (fun _ _ _ => ?_)
    | with_reducible refine kept_foldl_pair ?_ (fun _ _ _ => ?_)
    | with_reducible refine kept_ite ?_ ?_
    | split
    | with_reducible refine kept_mk ?_ rfl rfl rfl rfl rfl rfl rfl rfl rfl rfl rfl rfl rfl rfl rfl rfl rfl

theorem kept_showReading {s : State} (hk : Kept from0 s) (i : Nat) (r : Option Int) :
    Kept from0 (showReading s i r) := by
  unfold showReading
  try dsimp only
  repeat' first
    | with_reducible assumption
    | with_reducible first | apply kept_setRegBit | apply kept_setRegFld
    | split
    | with_reducible refine kept_mk ?_ rfl rfl rfl rfl rfl rfl rfl rfl rfl rfl rfl rfl rfl rfl rfl rfl rfl

theorem kept_execSensorRead {s : State} (hk : Kept from0 s) (sensor : Fin 512) (reading : Option (BitVec 13)) (t : Nat) :
    ∃ sx, execSensorRead sensor reading t s = .next sx ∧ Kept from0 sx := by
  unfold execSensorRead
  try dsimp only
  repeat' first
    | with_reducible assumption
    | with_reducible refine ⟨_, rfl, ?_⟩
    | with_reducible first | apply kept_at | apply kept_sensorStreaks | apply kept_showReading | apply kept_unitUpdate
    | with_reducible refine kept_ite ?_ ?_
    | split

theorem kept_judgeCoolant {s : State} (hk : Kept from0 s) (v : Int) :
    Kept from0 (judgeCoolant s v) := by
  unfold judgeCoolant
  try dsimp only
  repeat' first
    | with_reducible assumption
    | with_reducible first | apply kept_logTherm | apply kept_setRegBit
    | with_reducible refine kept_ite ?_ ?_
    | split

theorem kept_execCoolantWrite {s : State} (hk : Kept from0 s) (who : Ident) (temp : BitVec 12) (t : Nat) :
    ∃ sx, execCoolantWrite who temp t s = .next sx ∧ Kept from0 sx := by
  unfold execCoolantWrite
  try dsimp only
  repeat' first
    | with_reducible assumption
    | with_reducible refine ⟨_, rfl, ?_⟩
    | with_reducible first | apply kept_at | apply kept_setRegBit | apply kept_setRegFld | apply kept_judgeCoolant
    | with_reducible refine kept_ite ?_ ?_
    | split
    | with_reducible refine kept_mk ?_ rfl rfl rfl rfl rfl rfl rfl rfl rfl rfl rfl rfl rfl rfl rfl rfl rfl

theorem kept_execCoolantStale {s : State} (hk : Kept from0 s) (t : Nat) :
    ∃ sx, execCoolantStale t s = .next sx ∧ Kept from0 sx := by
  unfold execCoolantStale
  try dsimp only
  repeat' first
    | with_reducible assumption
    | with_reducible refine ⟨_, rfl, ?_⟩
    | with_reducible first | apply kept_at | apply kept_setRegBit | apply kept_logTherm
    | with_reducible refine kept_ite ?_ ?_
    | split

theorem kept_abandonPattern {s : State} (hk : Kept from0 s) (c : Nat) :
    Kept from0 (abandonPattern s c) := by
  unfold abandonPattern
  try dsimp only
  repeat' first
    | with_reducible assumption
    | with_reducible first | apply kept_bumpSat

theorem kept_endSlice {s : State} (hk : Kept from0 s) (c : Nat) :
    Kept from0 (endSlice s c) := by
  unfold endSlice
  try dsimp only
  repeat' first
    | with_reducible assumption
    | with_reducible first | apply kept_setCoreSt | apply kept_dropSlice

theorem kept_abortSlice {s : State} (hk : Kept from0 s) (c : Nat) :
    Kept from0 (abortSlice s c) := by
  unfold abortSlice
  try dsimp only
  repeat' first
    | with_reducible assumption
    | with_reducible first | apply kept_bump | apply kept_endSlice | apply kept_abandonPattern

theorem kept_parkCore {s0 : State} (hk : Kept from0 s0) (c : Nat) :
    Kept from0 (parkCore s0 c) := by
  unfold parkCore
  try dsimp only
  repeat' first
    | with_reducible assumption
    | with_reducible first | apply kept_loseBinding | apply kept_setCoreSt | apply kept_setRegFld | apply kept_syncBind | apply kept_setCore
    | with_reducible refine kept_mk ?_ rfl rfl rfl rfl rfl rfl rfl rfl rfl rfl rfl rfl rfl rfl rfl rfl rfl

theorem kept_execCorePark {s : State} (hk : Kept from0 s) (core : Fin 96) :
    ∃ sx, execCorePark core s = .next sx ∧ Kept from0 sx := by
  unfold execCorePark
  try dsimp only
  repeat' first
    | with_reducible assumption
    | with_reducible refine ⟨_, rfl, ?_⟩
    | with_reducible first | apply kept_parkCore | apply kept_abortSlice
    | with_reducible refine kept_ite ?_ ?_
    | split
    | with_reducible refine kept_mk ?_ rfl rfl rfl rfl rfl rfl rfl rfl rfl rfl rfl rfl rfl rfl rfl rfl rfl

theorem kept_execCoreUnpark {s : State} (hk : Kept from0 s) (core : Fin 96) :
    ∃ sx, execCoreUnpark core s = .next sx ∧ Kept from0 sx := by
  unfold execCoreUnpark
  try dsimp only
  repeat' first
    | with_reducible assumption
    | with_reducible refine ⟨_, rfl, ?_⟩
    | with_reducible first | apply kept_enterReset
    | with_reducible refine kept_ite ?_ ?_
    | split

theorem kept_passDone {s : State} (hk : Kept from0 s) (c : Nat) :
    Kept from0 (passDone s c) := by
  unfold passDone
  try dsimp only
  repeat' first
    | with_reducible assumption
    | with_reducible first | apply kept_setReg | apply kept_logTherm | apply kept_setRegBit | apply kept_setSclass
    | with_reducible refine kept_ite ?_ ?_
    | split

theorem kept_patternPass {s : State} (hk : Kept from0 s) (c : Nat) :
    Kept from0 (patternPass s c) := by
  unfold patternPass
  try dsimp only
  repeat' first
    | with_reducible assumption
    | with_reducible first | apply kept_setRegFld | apply kept_passDone
    | with_reducible refine kept_ite ?_ ?_
    | split

theorem kept_columnFound {s : State} (hk : Kept from0 s) (c : Nat) (col : Nat) :
    Kept from0 (columnFound s c col) := by
  unfold columnFound
  try dsimp only
  repeat' first
    | with_reducible assumption
    | with_reducible first | apply kept_setRegBit | apply kept_setRegFld | apply kept_quarantineCore
    | with_reducible refine kept_ite ?_ ?_
    | split
    | with_reducible refine kept_mk ?_ rfl rfl rfl rfl rfl rfl rfl rfl rfl rfl rfl rfl rfl rfl rfl rfl rfl

theorem kept_patternFail {s : State} (hk : Kept from0 s) (c : Nat) :
    Kept from0 (patternFail s c) := by
  unfold patternFail
  try dsimp only
  repeat' first
    | with_reducible assumption
    | with_reducible first | apply kept_logTherm | apply kept_dropSlice | apply kept_columnFound | apply kept_chargeCore
    | with_reducible first | apply kept_quarantineCore | apply kept_disagreement
    | with_reducible refine kept_ite ?_ ?_
    | split

theorem kept_execReheatPatternDone {s : State} (hk : Kept from0 s) (core : Fin 96) (pass : Bool) (t : Nat) :
    ∃ sx, execReheatPatternDone core pass t s = .next sx ∧ Kept from0 sx := by
  unfold execReheatPatternDone
  try dsimp only
  repeat' first
    | with_reducible assumption
    | with_reducible refine ⟨_, rfl, ?_⟩
    | with_reducible first | apply kept_at | apply kept_patternPass | apply kept_patternFail
    | with_reducible refine kept_ite ?_ ?_
    | split

theorem kept_execReheatSliceEnd {s : State} (hk : Kept from0 s) (core : Fin 96) :
    ∃ sx, execReheatSliceEnd core s = .next sx ∧ Kept from0 sx := by
  unfold execReheatSliceEnd
  try dsimp only
  repeat' first
    | with_reducible assumption
    | with_reducible refine ⟨_, rfl, ?_⟩
    | with_reducible first | apply kept_endSlice | apply kept_at
    | with_reducible refine kept_ite ?_ ?_
    | split

theorem kept_execReheatAbort {s : State} (hk : Kept from0 s) (core : Fin 96) (ended : Option Bool) (t : Nat) :
    ∃ sx, execReheatAbort core ended t s = .next sx ∧ Kept from0 sx := by
  unfold execReheatAbort
  try dsimp only
  repeat' first
    | with_reducible assumption
    | with_reducible refine ⟨_, rfl, ?_⟩
    | with_reducible first | apply kept_at | apply kept_abortSlice | apply kept_bump | apply kept_endSlice | apply kept_patternPass
    | with_reducible first | apply kept_patternFail
    | with_reducible refine kept_ite ?_ ?_
    | split
    | with_reducible refine kept_mk ?_ rfl rfl rfl rfl rfl rfl rfl rfl rfl rfl rfl rfl rfl rfl rfl rfl rfl

theorem kept_execReheatOverdue {s : State} (hk : Kept from0 s) (core : Fin 96) (t : Nat) :
    ∃ sx, execReheatOverdue core t s = .next sx ∧ Kept from0 sx := by
  unfold execReheatOverdue
  try dsimp only
  repeat' first
    | with_reducible assumption
    | with_reducible refine ⟨_, rfl, ?_⟩
    | with_reducible first | apply kept_at | apply kept_logTherm | apply kept_setSclass | apply kept_setRegBit
    | with_reducible refine kept_ite ?_ ?_
    | split

theorem kept_ageOne {s : State} (hk : Kept from0 s) (c : Nat) :
    Kept from0 (ageOne s c) := by
  unfold ageOne
  try dsimp only
  repeat' first
    | with_reducible assumption
    | with_reducible first | apply kept_setRegFld | apply kept_bumpSat | apply kept_logTherm | apply kept_setRegBit
    | with_reducible refine kept_ite ?_ ?_
    | split

theorem kept_execAgeSample {s : State} (hk : Kept from0 s) (t : Nat) :
    ∃ sx, execAgeSample t s = .next sx ∧ Kept from0 sx := by
  unfold execAgeSample
  try dsimp only
  repeat' first
    | with_reducible assumption
    | with_reducible refine ⟨_, rfl, ?_⟩
    | with_reducible first | apply kept_at | apply kept_ageOne
    | with_reducible refine kept_foldl ?_ (fun _ _ _ => ?_)
    | with_reducible refine kept_foldl_pair ?_ (fun _ _ _ => ?_)
    | with_reducible refine kept_ite ?_ ?_
    | split
    | with_reducible refine kept_mk ?_ rfl rfl rfl rfl rfl rfl rfl rfl rfl rfl rfl rfl rfl rfl rfl rfl rfl

theorem kept_execThermEvlogRead {s : State} (hk : Kept from0 s) :
    ∃ sx, execThermEvlogRead s = .next sx ∧ Kept from0 sx := by
  unfold execThermEvlogRead
  try dsimp only
  repeat' first
    | with_reducible assumption
    | with_reducible refine ⟨_, rfl, ?_⟩
    | with_reducible refine kept_mk ?_ rfl rfl rfl rfl rfl rfl rfl rfl rfl rfl rfl rfl rfl rfl rfl rfl rfl
    | ((with_reducible refine kept_mk_logs ?_ rfl rfl rfl rfl rfl rfl rfl rfl rfl ?_ ?_ ?_ ?_ ?_ ?_ ?_ ?_) <;> try first
        | with_reducible exact id
        | with_reducible exact fun l => EvLog.within_push l _ _ _
        | with_reducible exact fun l => EvLog.within_pop l
        | with_reducible exact fun _ => EvLog.within_empty _
        | with_reducible exact fun l => logs_sput l _ (EvLog.within_push (logs_sget l _) _ _ _)
        | with_reducible exact fun l => logs_sput l _ (EvLog.within_pop (logs_sget l _))
        | with_reducible exact fun l => logs_sput l _ (EvLog.within_empty _)
        | exact fun _ => EvLog.within_empty _
        | exact fun _ => Nat.zero_le _
        | exact fun _ _ h => (List.not_mem_nil h).elim
        | exact fun l => logs_sput l _ (EvLog.within_empty _))

/-! ### Machine/Regulation.lean -/

theorem kept_checkOvercommit {s : State} (hk : Kept from0 s) (k : Nat) :
    Kept from0 (checkOvercommit s k) := by
  unfold checkOvercommit
  try dsimp only
  repeat' first
    | with_reducible assumption
    | with_reducible first | apply kept_setRegBit
    | with_reducible refine kept_ite ?_ ?_
    | split

theorem kept_recomputeCaps {s : State} (hk : Kept from0 s) :
    Kept from0 (recomputeCaps s) := by
  unfold recomputeCaps
  try dsimp only
  repeat' first
    | with_reducible assumption
    | with_reducible first | apply kept_checkOvercommit | apply kept_setRegFld
    | with_reducible refine kept_foldl ?_ (fun _ _ _ => ?_)
    | with_reducible refine kept_foldl_pair ?_ (fun _ _ _ => ?_)

theorem kept_admitRequest {s : State} (hk : Kept from0 s) (k : Nat) (m : Nat) (cls : Nat) (len : Nat) :
    Kept from0 (admitRequest s k m cls len) := by
  unfold admitRequest
  try dsimp only
  repeat' first
    | with_reducible assumption
    | with_reducible first | apply kept_bump
    | with_reducible refine kept_ite ?_ ?_
    | split
    | with_reducible refine kept_mk ?_ rfl rfl rfl rfl rfl rfl rfl rfl rfl rfl rfl rfl rfl rfl rfl rfl rfl

theorem kept_windowAt {s : State} (hk : Kept from0 s) (k : Nat) :
    Kept from0 (windowAt s k) := by
  unfold windowAt
  try dsimp only
  repeat' first
    | with_reducible assumption
    | with_reducible first | apply kept_setRegBit
    | with_reducible refine kept_foldl ?_ (fun _ _ _ => ?_)
    | with_reducible refine kept_foldl_pair ?_ (fun _ _ _ => ?_)
    | with_reducible refine kept_ite ?_ ?_
    | split
    | with_reducible refine kept_mk ?_ rfl rfl rfl rfl rfl rfl rfl rfl rfl rfl rfl rfl rfl rfl rfl rfl rfl

theorem kept_execRegulationWindow {s : State} (hk : Kept from0 s) (t : Nat) :
    ∃ sx, execRegulationWindow t s = .next sx ∧ Kept from0 sx := by
  unfold execRegulationWindow
  try dsimp only
  repeat' first
    | with_reducible assumption
    | with_reducible refine ⟨_, rfl, ?_⟩
    | with_reducible first | apply kept_at | apply kept_windowAt
    | with_reducible refine kept_foldl ?_ (fun _ _ _ => ?_)
    | with_reducible refine kept_foldl_pair ?_ (fun _ _ _ => ?_)
    | with_reducible refine kept_ite ?_ ?_
    | split
    | with_reducible refine kept_mk ?_ rfl rfl rfl rfl rfl rfl rfl rfl rfl rfl rfl rfl rfl rfl rfl rfl rfl

theorem kept_execRegbudWrite {s : State} (hk : Kept from0 s) (who : Ident) (k : Fin 4) (m : Fin 21) (v : BitVec 64) :
    ∃ sx, execRegbudWrite who k m v s = .next sx ∧ Kept from0 sx := by
  unfold execRegbudWrite
  try dsimp only
  repeat' first
    | with_reducible assumption
    | with_reducible refine ⟨_, rfl, ?_⟩
    | with_reducible first | apply kept_setReg | apply kept_setRegFld | apply kept_setRegBit
    | with_reducible refine kept_ite ?_ ?_
    | split

theorem kept_execRegctlWrite {s : State} (hk : Kept from0 s) (who : Ident) (v : BitVec 32) :
    ∃ sx, execRegctlWrite who v s = .next sx ∧ Kept from0 sx := by
  unfold execRegctlWrite
  try dsimp only
  repeat' first
    | with_reducible assumption
    | with_reducible refine ⟨_, rfl, ?_⟩
    | with_reducible first | apply kept_recomputeCaps | apply kept_setReg | apply kept_setRegBit
    | with_reducible refine kept_ite ?_ ?_
    | split

/-! ### Machine/Tracker.lean -/

theorem kept_logCruc {s : State} (hk : Kept from0 s) (k : Nat) (code : Nat) (node : Nat) (ident : Nat) (addr : Nat) :
    Kept from0 (State.logCruc s k code node ident addr) := by
  unfold State.logCruc
  try dsimp only
  repeat' first
    | with_reducible assumption
    | with_reducible first | apply kept_setReg | apply kept_setRegBit | apply kept_raise
    | with_reducible refine kept_ite ?_ ?_
    | split
    | with_reducible refine kept_mk ?_ rfl rfl rfl rfl rfl rfl rfl rfl rfl rfl rfl rfl rfl rfl rfl rfl rfl
    | ((with_reducible refine kept_mk_logs ?_ rfl rfl rfl rfl rfl rfl rfl rfl rfl ?_ ?_ ?_ ?_ ?_ ?_ ?_ ?_) <;> try first
        | with_reducible exact id
        | with_reducible exact fun l => EvLog.within_push l _ _ _
        | with_reducible exact fun l => EvLog.within_pop l
        | with_reducible exact fun _ => EvLog.within_empty _
        | with_reducible exact fun l => logs_sput l _ (EvLog.within_push (logs_sget l _) _ _ _)
        | with_reducible exact fun l => logs_sput l _ (EvLog.within_pop (logs_sget l _))
        | with_reducible exact fun l => logs_sput l _ (EvLog.within_empty _)
        | exact fun _ => EvLog.within_empty _
        | exact fun _ => Nat.zero_le _
        | exact fun _ _ h => (List.not_mem_nil h).elim
        | exact fun l => logs_sput l _ (EvLog.within_empty _))

theorem kept_poisonAt {s : State} (hk : Kept from0 s) (k : Nat) :
    Kept from0 (poisonAt s k) := by
  unfold poisonAt
  try dsimp only
  repeat' first
    | with_reducible assumption
    | with_reducible first | apply kept_bump

theorem kept_syncTrk {s : State} (hk : Kept from0 s) (k : Nat) :
    Kept from0 (syncTrk s k) := by
  unfold syncTrk
  try dsimp only
  repeat' first
    | with_reducible assumption
    | with_reducible first | apply kept_setRegBit | apply kept_setReg

theorem kept_pushTrack {s : State} (hk : Kept from0 s) (e : TrackEntry) :
    Kept from0 (pushTrack s e) := by
  unfold pushTrack
  try dsimp only
  repeat' first
    | with_reducible assumption
    | with_reducible first | apply kept_syncTrk
    | with_reducible refine kept_mk ?_ rfl rfl rfl rfl rfl rfl rfl rfl rfl rfl rfl rfl rfl rfl rfl rfl rfl

theorem kept_answer {s : State} (hk : Kept from0 s) (node : Nat) (tag : Nat) :
    Kept from0 (answer s node tag) := by
  unfold answer
  try dsimp only
  repeat' first
    | with_reducible assumption
    | with_reducible first | apply kept_bump | apply kept_syncTrk | apply kept_logCruc
    | with_reducible refine kept_fst (by assumption) ?_
    | with_reducible refine kept_ite ?_ ?_
    | split
    | with_reducible refine kept_mk ?_ rfl rfl rfl rfl rfl rfl rfl rfl rfl rfl rfl rfl rfl rfl rfl rfl rfl

theorem kept_fenceEntries {s : State} (hk : Kept from0 s) (g : Target) (code : Nat) (p : TrackEntry → Bool) :
    Kept from0 (fenceEntries s g code p) := by
  unfold fenceEntries
  try dsimp only
  repeat' first
    | with_reducible assumption
    | with_reducible first | apply kept_logCruc | apply kept_poisonAt | apply kept_syncTrk
    | with_reducible refine kept_fst (by assumption) ?_
    | with_reducible refine kept_foldl ?_ (fun _ _ _ => ?_)
    | with_reducible refine kept_foldl_pair ?_ (fun _ _ _ => ?_)
    | with_reducible refine kept_ite ?_ ?_
    | split
    | with_reducible refine kept_mk ?_ rfl rfl rfl rfl rfl rfl rfl rfl rfl rfl rfl rfl rfl rfl rfl rfl rfl

theorem kept_fenceTarget {s : State} (hk : Kept from0 s) (g : Target) :
    Kept from0 (fenceTarget s g) := by
  unfold fenceTarget
  try dsimp only
  repeat' first
    | with_reducible assumption
    | with_reducible first | apply kept_fenceEntries
    | with_reducible refine kept_ite ?_ ?_
    | split
    | with_reducible refine kept_mk ?_ rfl rfl rfl rfl rfl rfl rfl rfl rfl rfl rfl rfl rfl rfl rfl rfl rfl

theorem kept_releaseTarget {s : State} (hk : Kept from0 s) (g : Target) :
    Kept from0 (releaseTarget s g) := by
  unfold releaseTarget
  try dsimp only
  repeat' first
    | with_reducible assumption
    | with_reducible first | apply kept_syncTrk
    | with_reducible refine kept_foldl ?_ (fun _ _ _ => ?_)
    | with_reducible refine kept_foldl_pair ?_ (fun _ _ _ => ?_)
    | with_reducible refine kept_mk ?_ rfl rfl rfl rfl rfl rfl rfl rfl rfl rfl rfl rfl rfl rfl rfl rfl rfl

/-! ### Machine/Memory.lean -/

theorem kept_setChSt {s : State} (hk : Kept from0 s) (h : Nat) (x : Nat) :
    Kept from0 (State.setChSt s h x) := by
  unfold State.setChSt
  try dsimp only
  repeat' first
    | with_reducible assumption
    | with_reducible first | apply kept_setRegFld
    | with_reducible refine kept_mk ?_ rfl rfl rfl rfl rfl rfl rfl rfl rfl rfl rfl rfl rfl rfl rfl rfl rfl

theorem kept_syncScrub {s : State} (hk : Kept from0 s) (h : Nat) :
    Kept from0 (syncScrub s h) := by
  unfold syncScrub
  try dsimp only
  repeat' first
    | with_reducible assumption
    | with_reducible first | apply kept_setRegBit

theorem kept_logMemc {s : State} (hk : Kept from0 s) (code : Nat) (h : Nat) :
    Kept from0 (State.logMemc s code h) := by
  unfold State.logMemc
  try dsimp only
  repeat' first
    | with_reducible assumption
    | with_reducible first | apply kept_raise
    | with_reducible refine kept_ite ?_ ?_
    | split
    | with_reducible refine kept_mk ?_ rfl rfl rfl rfl rfl rfl rfl rfl rfl rfl rfl rfl rfl rfl rfl rfl rfl
    | ((with_reducible refine kept_mk_logs ?_ rfl rfl rfl rfl rfl rfl rfl rfl rfl ?_ ?_ ?_ ?_ ?_ ?_ ?_ ?_) <;> try first
        | with_reducible exact id
        | with_reducible exact fun l => EvLog.within_push l _ _ _
        | with_reducible exact fun l => EvLog.within_pop l
        | with_reducible exact fun _ => EvLog.within_empty _
        | with_reducible exact fun l => logs_sput l _ (EvLog.within_push (logs_sget l _) _ _ _)
        | with_reducible exact fun l => logs_sput l _ (EvLog.within_pop (logs_sget l _))
        | with_reducible exact fun l => logs_sput l _ (EvLog.within_empty _)
        | exact fun _ => EvLog.within_empty _
        | exact fun _ => Nat.zero_le _
        | exact fun _ _ h => (List.not_mem_nil h).elim
        | exact fun l => logs_sput l _ (EvLog.within_empty _))

theorem kept_setMark {s : State} (hk : Kept from0 s) (lineKey : Nat) (x : LineMark) :
    Kept from0 (State.setMark s lineKey x) := by
  unfold State.setMark
  try dsimp only
  repeat' first
    | with_reducible assumption
    | with_reducible refine kept_mk ?_ rfl rfl rfl rfl rfl rfl rfl rfl rfl rfl rfl rfl rfl rfl rfl rfl rfl

theorem kept_setCell {s : State} (hk : Kept from0 s) (key : Nat) (b : Byte) : Kept from0 (State.setCell s key b) :=
  ⟨hk.pending, hk.fresh, hk.regs, sparseWf_sput (d := fun _ => 0#8) key b hk.dram, hk.logs, hk.can, hk.host, hk.sent, hk.arb, hk.dbg⟩

theorem kept_putBytes {s : State} (hk : Kept from0 s) (key : Nat) (a2 : List (Option Byte)) :
    Kept from0 (putBytes s key a2) := by
  fun_induction putBytes s key a2
  all_goals try dsimp only
  all_goals repeat' first
    | with_reducible assumption
    | with_reducible apply_assumption
    | with_reducible first | apply kept_setCell
    | split

theorem kept_writeLine {s : State} (hk : Kept from0 s) (lineKey : Nat) (bs : List (Option Byte)) :
    Kept from0 (writeLine s lineKey bs) := by
  unfold writeLine
  try dsimp only
  repeat' first
    | with_reducible assumption
    | with_reducible first | apply kept_setMark | apply kept_putBytes
    | with_reducible refine kept_fst (by assumption) ?_
    | with_reducible refine kept_ite ?_ ?_
    | split
    | with_reducible refine kept_mk ?_ rfl rfl rfl rfl rfl rfl rfl rfl rfl rfl rfl rfl rfl rfl rfl rfl rfl

theorem kept_parkedWrite {s : State} (hk : Kept from0 s) (lineKey : Nat) :
    Kept from0 (parkedWrite s lineKey) := by
  unfold parkedWrite
  try dsimp only
  repeat' first
    | with_reducible assumption
    | with_reducible refine kept_mk ?_ rfl rfl rfl rfl rfl rfl rfl rfl rfl rfl rfl rfl rfl rfl rfl rfl rfl

theorem kept_writeDramLine {s : State} (hk : Kept from0 s) (lineAddr : Nat) (bs : List (Option Byte)) :
    Kept from0 (writeDramLine s lineAddr bs) := by
  unfold writeDramLine
  try dsimp only
  repeat' first
    | with_reducible assumption
    | with_reducible first | apply kept_bump | apply kept_writeLine | apply kept_parkedWrite
    | with_reducible refine kept_fst (by assumption) ?_
    | with_reducible refine kept_ite ?_ ?_
    | split
    | with_reducible refine kept_mk ?_ rfl rfl rfl rfl rfl rfl rfl rfl rfl rfl rfl rfl rfl rfl rfl rfl rfl

theorem kept_poisonLine {s : State} (hk : Kept from0 s) (line : Nat) :
    Kept from0 (poisonLine s line) := by
  unfold poisonLine
  try dsimp only
  repeat' first
    | with_reducible assumption
    | with_reducible first | apply kept_setMark
    | with_reducible refine kept_fst (by assumption) ?_
    | with_reducible refine kept_ite ?_ ?_
    | split
    | with_reducible refine kept_mk ?_ rfl rfl rfl rfl rfl rfl rfl rfl rfl rfl rfl rfl rfl rfl rfl rfl rfl

theorem kept_writeDramGo {a1 : State} (hk : Kept from0 a1) (a0 : Nat) (a2 : Nat) (a3 : List Byte) :
    Kept from0 (writeDramGo a0 a1 a2 a3) := by
  induction a0 generalizing a1 a2 a3 with
  | zero =>
    unfold writeDramGo
    try dsimp only
    repeat' first
      | with_reducible assumption
      | with_reducible first | apply kept_writeDramLine
      | split
      | with_reducible refine kept_mk ?_ rfl rfl rfl rfl rfl rfl rfl rfl rfl rfl rfl rfl rfl rfl rfl rfl rfl
  | succ n ih =>
    unfold writeDramGo
    try dsimp only
    repeat' first
      | with_reducible assumption
      | with_reducible apply ih
      | with_reducible first | apply kept_writeDramLine
      | split
      | with_reducible refine kept_mk ?_ rfl rfl rfl rfl rfl rfl rfl rfl rfl rfl rfl rfl rfl rfl rfl rfl rfl

theorem kept_writeDram {s : State} (hk : Kept from0 s) (addr : Nat) (bs : List Byte) :
    Kept from0 (writeDram s addr bs) := by
  unfold writeDram
  try dsimp only
  repeat' first
    | with_reducible assumption
    | with_reducible first | apply kept_writeDramGo

theorem kept_finishSegment {s : State} (hk : Kept from0 s) (h : Nat) (k : Nat) :
    Kept from0 (finishSegment s h k) := by
  unfold finishSegment
  try dsimp only
  repeat' first
    | with_reducible assumption
    | with_reducible first | apply kept_syncScrub | apply kept_setRegBit
    | with_reducible refine kept_fst (by assumption) ?_
    | with_reducible refine kept_mk ?_ rfl rfl rfl rfl rfl rfl rfl rfl rfl rfl rfl rfl rfl rfl rfl rfl rfl

theorem kept_advanceEpoch {s : State} (hk : Kept from0 s) (h : Nat) (k : Nat) :
    Kept from0 (advanceEpoch s h k) := by
  unfold advanceEpoch
  try dsimp only
  repeat' first
    | with_reducible assumption
    | with_reducible first | apply kept_finishSegment | apply kept_setRegFld | apply kept_setRegBit | apply kept_syncScrub
    | with_reducible refine kept_ite ?_ ?_
    | split
    | with_reducible refine kept_mk ?_ rfl rfl rfl rfl rfl rfl rfl rfl rfl rfl rfl rfl rfl rfl rfl rfl rfl

theorem kept_advanceChannel {s : State} (hk : Kept from0 s) (h : Nat) :
    Kept from0 (advanceChannel s h) := by
  unfold advanceChannel
  try dsimp only
  repeat' first
    | with_reducible assumption
    | with_reducible first | apply kept_advanceEpoch
    | with_reducible refine kept_foldl ?_ (fun _ _ _ => ?_)
    | with_reducible refine kept_foldl_pair ?_ (fun _ _ _ => ?_)

theorem kept_execScrubLine {s : State} (hk : Kept from0 s) (ch : Fin 64) (ecc : Ecc) :
    ∃ sx, execScrubLine ch ecc s = .next sx ∧ Kept from0 sx := by
  unfold execScrubLine
  try dsimp only
  repeat' first
    | with_reducible assumption
    | with_reducible refine ⟨_, rfl, ?_⟩
    | with_reducible first | apply kept_bump | apply kept_setMark | apply kept_setRegFld | apply kept_finishSegment
    | with_reducible refine kept_fst (by assumption) ?_
    | with_reducible refine kept_ite ?_ ?_
    | split
    | with_reducible refine kept_mk ?_ rfl rfl rfl rfl rfl rfl rfl rfl rfl rfl rfl rfl rfl rfl rfl rfl rfl

theorem kept_freezeDomain {s : State} (hk : Kept from0 s) (h : Nat) :
    Kept from0 (freezeDomain s h) := by
  unfold freezeDomain
  try dsimp only
  repeat' first
    | with_reducible assumption
    | with_reducible first | apply kept_logReset | apply kept_recordCause
    | with_reducible refine kept_fst (by assumption) ?_
    | with_reducible refine kept_ite ?_ ?_
    | split
    | with_reducible refine kept_mk ?_ rfl rfl rfl rfl rfl rfl rfl rfl rfl rfl rfl rfl rfl rfl rfl rfl rfl

theorem kept_dropCached {s : State} (hk : Kept from0 s) (k : Nat) (p : Nat → Bool) :
    Kept from0 (dropCached s k p) := by
  unfold dropCached
  try dsimp only
  repeat' first
    | with_reducible assumption
    | with_reducible refine kept_mk ?_ rfl rfl rfl rfl rfl rfl rfl rfl rfl rfl rfl rfl rfl rfl rfl rfl rfl

theorem kept_dropChannel {s : State} (hk : Kept from0 s) (h : Nat) :
    Kept from0 (dropChannel s h) := by
  unfold dropChannel
  try dsimp only
  repeat' first
    | with_reducible assumption
    | with_reducible first | apply kept_dropCached

theorem kept_fenceController {s : State} (hk : Kept from0 s) (h : Nat) :
    Kept from0 (fenceController s h) := by
  unfold fenceController
  try dsimp only
  repeat' first
    | with_reducible assumption
    | with_reducible first | apply kept_fenceEntries

theorem kept_freezeChannel {s : State} (hk : Kept from0 s) (h : Nat) (cause : Nat) (line : Nat) (info : FreezeInfo) :
    Kept from0 (freezeChannel s h cause line info) := by
  unfold freezeChannel
  try dsimp only
  repeat' first
    | with_reducible assumption
    | with_reducible first | apply kept_setReg | apply kept_bumpSat | apply kept_setChSt | apply kept_fenceController | apply kept_dropChannel
    | with_reducible first | apply kept_freezeDomain | apply kept_logMemc | apply kept_syncScrub

theorem kept_freezeIf {s : State} (hk : Kept from0 s) (h : Nat) (cause : Nat) (line : Nat) (info : FreezeInfo) :
    Kept from0 (freezeIf s h cause line info) := by
  unfold freezeIf
  try dsimp only
  repeat' first
    | with_reducible assumption
    | with_reducible first | apply kept_freezeChannel
    | with_reducible refine kept_ite ?_ ?_
    | split

theorem kept_execCaParityError {s : State} (hk : Kept from0 s) (ch : Fin 64) (info : FreezeInfo) (t : Nat) :
    ∃ sx, execCaParityError ch info t s = .next sx ∧ Kept from0 sx := by
  unfold execCaParityError
  try dsimp only
  repeat' first
    | with_reducible assumption
    | with_reducible refine ⟨_, rfl, ?_⟩
    | with_reducible first | apply kept_freezeIf | apply kept_at

theorem kept_execPhyLockLoss {s : State} (hk : Kept from0 s) (ch : Fin 64) (info : FreezeInfo) (t : Nat) :
    ∃ sx, execPhyLockLoss ch info t s = .next sx ∧ Kept from0 sx := by
  unfold execPhyLockLoss
  try dsimp only
  repeat' first
    | with_reducible assumption
    | with_reducible refine ⟨_, rfl, ?_⟩
    | with_reducible first | apply kept_freezeIf | apply kept_at

theorem kept_retireChannel {s : State} (hk : Kept from0 s) (h : Nat) :
    Kept from0 (retireChannel s h) := by
  unfold retireChannel
  try dsimp only
  repeat' first
    | with_reducible assumption
    | with_reducible first | apply kept_logMemc | apply kept_setChSt | apply kept_releaseDomains | apply kept_recomputeCaps
    | with_reducible refine kept_mk ?_ rfl rfl rfl rfl rfl rfl rfl rfl rfl rfl rfl rfl rfl rfl rfl rfl rfl

theorem kept_endFreezeHold {s : State} (hk : Kept from0 s) (h : Nat) :
    Kept from0 (endFreezeHold s h) := by
  unfold endFreezeHold
  try dsimp only
  repeat' first
    | with_reducible assumption
    | with_reducible first | apply kept_retireChannel | apply kept_setChSt
    | with_reducible refine kept_ite ?_ ?_
    | split

theorem kept_execFrzack {s : State} (hk : Kept from0 s) (who : Ident) (ch : Fin 64) (t : Nat) :
    ∃ sx, execFrzack who ch t s = .next sx ∧ Kept from0 sx := by
  unfold execFrzack
  try dsimp only
  repeat' first
    | with_reducible assumption
    | with_reducible refine ⟨_, rfl, ?_⟩
    | with_reducible first | apply kept_at | apply kept_endFreezeHold
    | with_reducible refine kept_ite ?_ ?_
    | split

theorem kept_execFrzholdTimeout {s : State} (hk : Kept from0 s) (ch : Fin 64) (t : Nat) :
    ∃ sx, execFrzholdTimeout ch t s = .next sx ∧ Kept from0 sx := by
  unfold execFrzholdTimeout
  try dsimp only
  repeat' first
    | with_reducible assumption
    | with_reducible refine ⟨_, rfl, ?_⟩
    | with_reducible first | apply kept_at | apply kept_endFreezeHold
    | with_reducible refine kept_ite ?_ ?_
    | split

theorem kept_landHeld {s : State} (hk : Kept from0 s) (h : Nat) :
    Kept from0 (landHeld s h) := by
  unfold landHeld
  try dsimp only
  repeat' first
    | with_reducible assumption
    | with_reducible first | apply kept_writeLine | apply kept_setMark
    | with_reducible refine kept_fst (by assumption) ?_
    | with_reducible refine kept_foldl ?_ (fun _ _ _ => ?_)
    | with_reducible refine kept_foldl_pair ?_ (fun _ _ _ => ?_)
    | with_reducible refine kept_ite ?_ ?_
    | split
    | with_reducible refine kept_mk ?_ rfl rfl rfl rfl rfl rfl rfl rfl rfl rfl rfl rfl rfl rfl rfl rfl rfl

theorem kept_toService {s : State} (hk : Kept from0 s) (h : Nat) :
    Kept from0 (toService s h) := by
  unfold toService
  try dsimp only
  repeat' first
    | with_reducible assumption
    | with_reducible first | apply kept_syncScrub | apply kept_advanceChannel | apply kept_setChSt | apply kept_releaseDomains
    | with_reducible first | apply kept_releaseTarget | apply kept_landHeld | apply kept_logMemc
    | with_reducible refine kept_ite ?_ ?_
    | split

theorem kept_failTraining {s : State} (hk : Kept from0 s) (h : Nat) :
    Kept from0 (failTraining s h) := by
  unfold failTraining
  try dsimp only
  repeat' first
    | with_reducible assumption
    | with_reducible first | apply kept_retireChannel | apply kept_logMemc

theorem kept_execGoservice {s : State} (hk : Kept from0 s) (who : Ident) (ch : Fin 64) (t : Nat) :
    ∃ sx, execGoservice who ch t s = .next sx ∧ Kept from0 sx := by
  unfold execGoservice
  try dsimp only
  repeat' first
    | with_reducible assumption
    | with_reducible refine ⟨_, rfl, ?_⟩
    | with_reducible first | apply kept_at | apply kept_failTraining | apply kept_toService | apply kept_retireChannel
    | with_reducible refine kept_ite ?_ ?_
    | split

theorem kept_execRetire {s : State} (hk : Kept from0 s) (who : Ident) (ch : Fin 64) :
    ∃ sx, execRetire who ch s = .next sx ∧ Kept from0 sx := by
  unfold execRetire
  try dsimp only
  repeat' first
    | with_reducible assumption
    | with_reducible refine ⟨_, rfl, ?_⟩
    | with_reducible first | apply kept_failTraining | apply kept_retireChannel
    | with_reducible refine kept_ite ?_ ?_
    | split

theorem kept_execRecoveryTimeout {s : State} (hk : Kept from0 s) (ch : Fin 64) (t : Nat) :
    ∃ sx, execRecoveryTimeout ch t s = .next sx ∧ Kept from0 sx := by
  unfold execRecoveryTimeout
  try dsimp only
  repeat' first
    | with_reducible assumption
    | with_reducible refine ⟨_, rfl, ?_⟩
    | with_reducible first | apply kept_at | apply kept_retireChannel
    | with_reducible refine kept_ite ?_ ?_
    | split

theorem kept_execTrainingTimeout {s : State} (hk : Kept from0 s) (ch : Fin 64) (t : Nat) :
    ∃ sx, execTrainingTimeout ch t s = .next sx ∧ Kept from0 sx := by
  unfold execTrainingTimeout
  try dsimp only
  repeat' first
    | with_reducible assumption
    | with_reducible refine ⟨_, rfl, ?_⟩
    | with_reducible first | apply kept_at | apply kept_failTraining
    | with_reducible refine kept_ite ?_ ?_
    | split

theorem kept_showStall {s : State} (hk : Kept from0 s) :
    Kept from0 (showStall s) := by
  unfold showStall
  try dsimp only
  repeat' first
    | with_reducible assumption
    | with_reducible first | apply kept_setRegFld

theorem kept_execRefreshPoint {s : State} (hk : Kept from0 s) (t : Nat) :
    ∃ sx, execRefreshPoint t s = .next sx ∧ Kept from0 sx := by
  unfold execRefreshPoint
  try dsimp only
  repeat' first
    | with_reducible assumption
    | with_reducible refine ⟨_, rfl, ?_⟩
    | with_reducible first | apply kept_at | apply kept_recomputeCaps | apply kept_showStall
    | with_reducible refine kept_ite ?_ ?_
    | split
    | with_reducible refine kept_mk ?_ rfl rfl rfl rfl rfl rfl rfl rfl rfl rfl rfl rfl rfl rfl rfl rfl rfl

theorem kept_execStallWindowEnd {s : State} (hk : Kept from0 s) (t : Nat) :
    ∃ sx, execStallWindowEnd t s = .next sx ∧ Kept from0 sx := by
  unfold execStallWindowEnd
  try dsimp only
  repeat' first
    | with_reducible assumption
    | with_reducible refine ⟨_, rfl, ?_⟩
    | with_reducible first | apply kept_at
    | with_reducible refine kept_ite ?_ ?_
    | split
    | with_reducible refine kept_mk ?_ rfl rfl rfl rfl rfl rfl rfl rfl rfl rfl rfl rfl rfl rfl rfl rfl rfl

theorem kept_execMemrefWrite {s : State} (hk : Kept from0 s) (who : Ident) (v : BitVec 64) :
    ∃ sx, execMemrefWrite who v s = .next sx ∧ Kept from0 sx := by
  unfold execMemrefWrite
  try dsimp only
  repeat' first
    | with_reducible assumption
    | with_reducible refine ⟨_, rfl, ?_⟩
    | with_reducible first | apply kept_setReg | apply kept_setRegBit
    | with_reducible refine kept_ite ?_ ?_
    | split

theorem kept_stackLimits {s : State} (hk : Kept from0 s) (site : Nat) (ts : Int) :
    Kept from0 (stackLimits s site ts) := by
  unfold stackLimits
  try dsimp only
  repeat' first
    | with_reducible assumption
    | with_reducible first | apply kept_logTherm | apply kept_setRegBit | apply kept_tripCrucible | apply kept_bumpSat | apply kept_dropHolder
    | with_reducible refine kept_ite ?_ ?_
    | split
    | with_reducible refine kept_mk ?_ rfl rfl rfl rfl rfl rfl rfl rfl rfl rfl rfl rfl rfl rfl rfl rfl rfl

theorem kept_execStackTempReport {s : State} (hk : Kept from0 s) (site : Fin 16) (temp : BitVec 8) (t : Nat) :
    ∃ sx, execStackTempReport site temp t s = .next sx ∧ Kept from0 sx := by
  unfold execStackTempReport
  try dsimp only
  repeat' first
    | with_reducible assumption
    | with_reducible refine ⟨_, rfl, ?_⟩
    | with_reducible first | apply kept_at | apply kept_setReg | apply kept_setRegBit | apply kept_stackLimits
    | with_reducible refine kept_ite ?_ ?_
    | split
    | with_reducible refine kept_mk ?_ rfl rfl rfl rfl rfl rfl rfl rfl rfl rfl rfl rfl rfl rfl rfl rfl rfl

theorem kept_execMapApply {s : State} (hk : Kept from0 s) (who : Ident) :
    ∃ sx, execMapApply who s = .next sx ∧ Kept from0 sx := by
  unfold execMapApply
  try dsimp only
  repeat' first
    | with_reducible assumption
    | with_reducible refine ⟨_, rfl, ?_⟩
    | with_reducible first | apply kept_setRegBit
    | with_reducible refine kept_ite ?_ ?_
    | split

theorem kept_execMapApplyDone {s : State} (hk : Kept from0 s) :
    ∃ sx, execMapApplyDone s = .next sx ∧ Kept from0 sx := by
  unfold execMapApplyDone
  try dsimp only
  repeat' first
    | with_reducible assumption
    | with_reducible refine ⟨_, rfl, ?_⟩
    | with_reducible first | apply kept_dropCached | apply kept_advanceEpoch | apply kept_setRegBit
    | with_reducible refine kept_foldl ?_ (fun _ _ _ => ?_)
    | with_reducible refine kept_foldl_pair ?_ (fun _ _ _ => ?_)
    | with_reducible refine kept_ite ?_ ?_
    | split
    | with_reducible refine kept_mk ?_ rfl rfl rfl rfl rfl rfl rfl rfl rfl rfl rfl rfl rfl rfl rfl rfl rfl

theorem kept_execPark {s : State} (hk : Kept from0 s) (who : Ident) (mask : BitVec 8) :
    ∃ sx, execPark who mask s = .next sx ∧ Kept from0 sx := by
  unfold execPark
  try dsimp only
  repeat' first
    | with_reducible assumption
    | with_reducible refine ⟨_, rfl, ?_⟩
    | with_reducible first | apply kept_setReg | apply kept_setRegBit
    | with_reducible refine kept_ite ?_ ?_
    | split
    | with_reducible refine kept_mk ?_ rfl rfl rfl rfl rfl rfl rfl rfl rfl rfl rfl rfl rfl rfl rfl rfl rfl

theorem kept_execParkDone {s : State} (hk : Kept from0 s) :
    ∃ sx, execParkDone s = .next sx ∧ Kept from0 sx := by
  unfold execParkDone
  try dsimp only
  repeat' first
    | with_reducible assumption
    | with_reducible refine ⟨_, rfl, ?_⟩
    | with_reducible first | apply kept_syncScrub | apply kept_setChSt | apply kept_setRegBit
    | with_reducible refine kept_foldl ?_ (fun _ _ _ => ?_)
    | with_reducible refine kept_foldl_pair ?_ (fun _ _ _ => ?_)
    | with_reducible refine kept_ite ?_ ?_
    | split
    | with_reducible refine kept_mk ?_ rfl rfl rfl rfl rfl rfl rfl rfl rfl rfl rfl rfl rfl rfl rfl rfl rfl

theorem kept_keepParked {s : State} (hk : Kept from0 s) :
    Kept from0 (keepParked s) := by
  unfold keepParked
  try dsimp only
  repeat' first
    | with_reducible assumption
    | with_reducible first | apply kept_setMark
    | with_reducible refine kept_fst (by assumption) ?_
    | with_reducible refine kept_foldl ?_ (fun _ _ _ => ?_)
    | with_reducible refine kept_foldl_pair ?_ (fun _ _ _ => ?_)
    | split
    | with_reducible refine kept_mk ?_ rfl rfl rfl rfl rfl rfl rfl rfl rfl rfl rfl rfl rfl rfl rfl rfl rfl

theorem kept_wakeMemory {s : State} (hk : Kept from0 s) :
    Kept from0 (wakeMemory s) := by
  unfold wakeMemory
  try dsimp only
  repeat' first
    | with_reducible assumption
    | with_reducible first | apply kept_setChSt | apply kept_advanceEpoch | apply kept_syncScrub | apply kept_keepParked | apply kept_setRegBit
    | with_reducible refine kept_foldl ?_ (fun _ _ _ => ?_)
    | with_reducible refine kept_foldl_pair ?_ (fun _ _ _ => ?_)

theorem kept_awake {s : State} (hk : Kept from0 s) (h : Nat) :
    Kept from0 (awake s h) := by
  unfold awake
  try dsimp only
  repeat' first
    | with_reducible assumption
    | with_reducible first | apply kept_wakeMemory
    | with_reducible refine kept_ite ?_ ?_
    | split

theorem kept_wakeParked {s : State} (hk : Kept from0 s) :
    Kept from0 (wakeParked s) := by
  unfold wakeParked
  try dsimp only
  repeat' first
    | with_reducible assumption
    | with_reducible first | apply kept_wakeMemory
    | with_reducible refine kept_ite ?_ ?_
    | split

theorem kept_execWake {s : State} (hk : Kept from0 s) :
    ∃ sx, execWake s = .next sx ∧ Kept from0 sx := by
  unfold execWake
  try dsimp only
  repeat' first
    | with_reducible assumption
    | with_reducible refine ⟨_, rfl, ?_⟩
    | with_reducible first | apply kept_wakeMemory
    | with_reducible refine kept_ite ?_ ?_
    | split

theorem kept_syncDelay {s : State} (hk : Kept from0 s) (h : Nat) :
    Kept from0 (syncDelay s h) := by
  unfold syncDelay
  try dsimp only
  repeat' first
    | with_reducible assumption
    | with_reducible first | apply kept_setReg

theorem kept_helperLines {a1 : State} (hk : Kept from0 a1) (a0 : Nat) (a2 : Nat) (a3 : Nat) :
    Kept from0 (helperLines a0 a1 a2 a3) := by
  induction a0 generalizing a1 a2 a3 with
  | zero =>
    unfold helperLines
    try dsimp only
    repeat' first
      | with_reducible assumption
      | with_reducible first | apply kept_writeLine
      | split
  | succ n ih =>
    unfold helperLines
    try dsimp only
    repeat' first
      | with_reducible assumption
      | with_reducible apply ih
      | with_reducible first | apply kept_writeLine
      | split

theorem kept_helperStart {s : State} (hk : Kept from0 s) (who : Ident) (h : Nat) (writes : Bool) (line : Nat) (count : Nat) :
    Kept from0 (helperStart who h writes line count s) := by
  unfold helperStart
  try dsimp only
  repeat' first
    | with_reducible assumption
    | with_reducible first | apply kept_setReg | apply kept_helperLines | apply kept_setRegBit
    | with_reducible refine kept_ite ?_ ?_
    | split

theorem kept_execTrainWrite {s : State} (hk : Kept from0 s) (who : Ident) (ch : Fin 64) (line : BitVec 24) (countm1 : BitVec 24) :
    ∃ sx, execTrainWrite who ch line countm1 s = .next sx ∧ Kept from0 sx := by
  unfold execTrainWrite
  try dsimp only
  repeat' first
    | with_reducible assumption
    | with_reducible refine ⟨_, rfl, ?_⟩
    | with_reducible first | apply kept_helperStart

theorem kept_execTrainReadCompare {s : State} (hk : Kept from0 s) (who : Ident) (ch : Fin 64) (line : BitVec 24) (countm1 : BitVec 24) :
    ∃ sx, execTrainReadCompare who ch line countm1 s = .next sx ∧ Kept from0 sx := by
  unfold execTrainReadCompare
  try dsimp only
  repeat' first
    | with_reducible assumption
    | with_reducible refine ⟨_, rfl, ?_⟩
    | with_reducible first | apply kept_helperStart

theorem kept_execTrainCaLoop {s : State} (hk : Kept from0 s) (who : Ident) (ch : Fin 64) (line : BitVec 24) (countm1 : BitVec 24) :
    ∃ sx, execTrainCaLoop who ch line countm1 s = .next sx ∧ Kept from0 sx := by
  unfold execTrainCaLoop
  try dsimp only
  repeat' first
    | with_reducible assumption
    | with_reducible refine ⟨_, rfl, ?_⟩
    | with_reducible first | apply kept_helperStart

theorem kept_execTrainWriteRead {s : State} (hk : Kept from0 s) (who : Ident) (ch : Fin 64) (line : BitVec 24) (countm1 : BitVec 24) :
    ∃ sx, execTrainWriteRead who ch line countm1 s = .next sx ∧ Kept from0 sx := by
  unfold execTrainWriteRead
  try dsimp only
  repeat' first
    | with_reducible assumption
    | with_reducible refine ⟨_, rfl, ?_⟩
    | with_reducible first | apply kept_helperStart

theorem kept_execTrainCmdDone {s : State} (hk : Kept from0 s) (ch : Fin 64) (dqFail : BitVec 24) (caFail : Bool) (errs : BitVec 32) :
    ∃ sx, execTrainCmdDone ch dqFail caFail errs s = .next sx ∧ Kept from0 sx := by
  unfold execTrainCmdDone
  try dsimp only
  repeat' first
    | with_reducible assumption
    | with_reducible refine ⟨_, rfl, ?_⟩
    | with_reducible first | apply kept_setReg
    | with_reducible refine kept_ite ?_ ?_
    | split

theorem kept_execZqCalibrationDone {s : State} (hk : Kept from0 s) (_ch : Fin 64) :
    ∃ sx, execZqCalibrationDone _ch s = .next sx ∧ Kept from0 sx := by
  unfold execZqCalibrationDone
  try dsimp only
  repeat' first
    | with_reducible assumption
    | with_reducible refine ⟨_, rfl, ?_⟩

theorem kept_execMemoryFillDone {s : State} (hk : Kept from0 s) (ch : Fin 64) :
    ∃ sx, execMemoryFillDone ch s = .next sx ∧ Kept from0 sx := by
  unfold execMemoryFillDone
  try dsimp only
  repeat' first
    | with_reducible assumption
    | with_reducible refine ⟨_, rfl, ?_⟩
    | with_reducible first | apply kept_setReg | apply kept_setRegFld
    | with_reducible refine kept_ite ?_ ?_
    | split
    | with_reducible refine kept_mk ?_ rfl rfl rfl rfl rfl rfl rfl rfl rfl rfl rfl rfl rfl rfl rfl rfl rfl
    | ((with_reducible refine kept_mk_dram ?_ rfl rfl rfl rfl rfl rfl rfl rfl rfl rfl rfl rfl rfl rfl rfl rfl ?_) <;> try with_reducible exact sparseWf_sclear _)

theorem kept_execMemcEvlogRead {s : State} (hk : Kept from0 s) (site : Fin 16) :
    ∃ sx, execMemcEvlogRead site s = .next sx ∧ Kept from0 sx := by
  unfold execMemcEvlogRead
  try dsimp only
  repeat' first
    | with_reducible assumption
    | with_reducible refine ⟨_, rfl, ?_⟩
    | with_reducible refine kept_mk ?_ rfl rfl rfl rfl rfl rfl rfl rfl rfl rfl rfl rfl rfl rfl rfl rfl rfl
    | ((with_reducible refine kept_mk_logs ?_ rfl rfl rfl rfl rfl rfl rfl rfl rfl ?_ ?_ ?_ ?_ ?_ ?_ ?_ ?_) <;> try first
        | with_reducible exact id
        | with_reducible exact fun l => EvLog.within_push l _ _ _
        | with_reducible exact fun l => EvLog.within_pop l
        | with_reducible exact fun _ => EvLog.within_empty _
        | with_reducible exact fun l => logs_sput l _ (EvLog.within_push (logs_sget l _) _ _ _)
        | with_reducible exact fun l => logs_sput l _ (EvLog.within_pop (logs_sget l _))
        | with_reducible exact fun l => logs_sput l _ (EvLog.within_empty _)
        | exact fun _ => EvLog.within_empty _
        | exact fun _ => Nat.zero_le _
        | exact fun _ _ h => (List.not_mem_nil h).elim
        | exact fun l => logs_sput l _ (EvLog.within_empty _))

end Sys2Proof.Machine
end

