-- ==== Sys2Proof/Laws/KeptCores.lean ====
section
/-! SUPPORT. What the operations keep: the fabric, the cores and the cullet managers. -/

namespace Sys2Proof.Machine

variable {from0 : State}

/-! ### Machine/Fabric.lean -/

theorem kept_setCull {s : State} (hk : Kept from0 s) (k : Nat) (x : Cullet) :
    Kept from0 (State.setCull s k x) := by
  unfold State.setCull
  try dsimp only
  repeat' first
    | with_reducible assumption
    | with_reducible refine kept_mk ?_ rfl rfl rfl rfl rfl rfl rfl rfl rfl rfl rfl rfl rfl rfl rfl rfl rfl

theorem kept_refuse {s : State} (hk : Kept from0 s) (k : Nat) (code : Nat) (r : Req) (a : Nat) :
    Kept from0 (refuse s k code r a) := by
  unfold refuse
  try dsimp only
  repeat' first
    | with_reducible assumption
    | with_reducible first | apply kept_poisonAt | apply kept_logCruc | apply kept_bump

theorem kept_checkReq {s : State} (hk : Kept from0 s) (r : Req) (a : Nat) (write : Bool) :
    Kept from0 (checkReq s r a write).1 := by
  unfold checkReq
  try dsimp only
  repeat' first
    | with_reducible assumption
    | with_reducible first | apply kept_poisonAt | apply kept_logCruc | apply kept_bump | apply kept_refuse
    | with_reducible refine kept_ite ?_ ?_
    | split
    | with_reducible refine kept_mk ?_ rfl rfl rfl rfl rfl rfl rfl rfl rfl rfl rfl rfl rfl rfl rfl rfl rfl

theorem kept_syncStage {s : State} (hk : Kept from0 s) (k : Nat) :
    Kept from0 (syncStage s k) := by
  unfold syncStage
  try dsimp only
  repeat' first
    | with_reducible assumption
    | with_reducible first | apply kept_setReg

theorem kept_orWait {s : State} {s' : State} (hk : Kept from0 s) (hk1 : Kept from0 s') :
    Kept from0 (orWait s s') := by
  unfold orWait
  try dsimp only
  repeat' first
    | with_reducible assumption
    | with_reducible refine kept_ite ?_ ?_
    | split

theorem kept_spillLine {s : State} (hk : Kept from0 s) (owner : Nat) (l : Nat) :
    Kept from0 (spillLine s owner l) := by
  unfold spillLine
  try dsimp only
  repeat' first
    | with_reducible assumption
    | with_reducible refine kept_mk ?_ rfl rfl rfl rfl rfl rfl rfl rfl rfl rfl rfl rfl rfl rfl rfl rfl rfl

theorem kept_placeLines {a2 : State} (hk : Kept from0 a2) (owner : Nat) (a1 : List Nat) :
    Kept from0 (placeLines owner a1 a2) := by
  induction a1 generalizing owner a2 with
  | nil =>
    unfold placeLines
    try dsimp only
    repeat' first
      | with_reducible assumption
      | with_reducible first | apply kept_wakeParked | apply kept_syncStage | apply kept_spillLine
      | with_reducible refine kept_ite ?_ ?_
      | split
  | cons b l ih =>
    unfold placeLines
    try dsimp only
    repeat' first
      | with_reducible assumption
      | with_reducible apply ih
      | with_reducible first | apply kept_wakeParked | apply kept_syncStage | apply kept_spillLine
      | with_reducible refine kept_ite ?_ ?_
      | split

theorem kept_stageBytes {s : State} (hk : Kept from0 s) (owner : Nat) (a : Nat) (bs : List Byte) :
    Kept from0 (stageBytes s owner a bs) := by
  unfold stageBytes
  try dsimp only
  repeat' first
    | with_reducible assumption
    | with_reducible first | apply kept_placeLines
    | with_reducible refine kept_foldl ?_ (fun _ _ _ => ?_)
    | with_reducible refine kept_foldl_pair ?_ (fun _ _ _ => ?_)
    | with_reducible refine kept_ite ?_ ?_
    | split
    | with_reducible refine kept_mk ?_ rfl rfl rfl rfl rfl rfl rfl rfl rfl rfl rfl rfl rfl rfl rfl rfl rfl

theorem kept_allocLine {s : State} (hk : Kept from0 s) (k : Nat) (line : Nat) (mask : Nat) :
    Kept from0 (allocLine s k line mask) := by
  unfold allocLine
  try dsimp only
  repeat' first
    | with_reducible assumption
    | split
    | with_reducible refine kept_mk ?_ rfl rfl rfl rfl rfl rfl rfl rfl rfl rfl rfl rfl rfl rfl rfl rfl rfl

theorem kept_countCache {s : State} (hk : Kept from0 s) (k : Nat) (line : Nat) (mask : Nat) :
    Kept from0 (countCache s k line mask) := by
  unfold countCache
  try dsimp only
  repeat' first
    | with_reducible assumption
    | with_reducible first | apply kept_bump | apply kept_nextFresh | apply kept_allocLine
    | with_reducible refine kept_ite ?_ ?_
    | split

theorem kept_countFailed {s : State} (hk : Kept from0 s) (k : Nat) (line : Nat) :
    Kept from0 (countFailed s k line) := by
  unfold countFailed
  try dsimp only
  repeat' first
    | with_reducible assumption
    | with_reducible first | apply kept_bump
    | with_reducible refine kept_ite ?_ ?_
    | split

theorem kept_cacheError {s : State} (hk : Kept from0 s) (r : Req) (a : Nat) (e : CacheEcc) :
    Kept from0 (cacheError s r a e) := by
  unfold cacheError
  try dsimp only
  repeat' first
    | with_reducible assumption
    | with_reducible first | apply kept_logCruc | apply kept_setRegBit | apply kept_bump | apply kept_poisonLine | apply kept_dropCached
    | with_reducible refine kept_ite ?_ ?_
    | split
    | with_reducible refine kept_mk ?_ rfl rfl rfl rfl rfl rfl rfl rfl rfl rfl rfl rfl rfl rfl rfl rfl rfl

theorem kept_countLine {s : State} (hk : Kept from0 s) (h : Nat) (code : Nat) :
    Kept from0 (countLine s h code) := by
  unfold countLine
  try dsimp only
  repeat' first
    | with_reducible assumption
    | with_reducible first | apply kept_bump
    | with_reducible refine kept_ite ?_ ?_
    | split

theorem kept_uncorrectable {s : State} (hk : Kept from0 s) (a : Nat) (info : FreezeInfo) :
    Kept from0 (uncorrectable s a info).1 := by
  unfold uncorrectable
  try dsimp only
  repeat' first
    | with_reducible assumption
    | with_reducible first | apply kept_bump | apply kept_freezeChannel
    | with_reducible refine kept_ite ?_ ?_
    | split
    | with_reducible refine kept_mk ?_ rfl rfl rfl rfl rfl rfl rfl rfl rfl rfl rfl rfl rfl rfl rfl rfl rfl

theorem kept_atHome {s : State} (hk : Kept from0 s) (r : Req) (a : Nat) (len : Nat) :
    Kept from0 (atHome s r a len).1 := by
  unfold atHome
  try dsimp only
  repeat' first
    | with_reducible assumption
    | with_reducible first | apply kept_poisonAt | apply kept_bump | apply kept_admitRequest
    | with_reducible refine kept_ite ?_ ?_
    | split
    | with_reducible refine kept_mk ?_ rfl rfl rfl rfl rfl rfl rfl rfl rfl rfl rfl rfl rfl rfl rfl rfl rfl

theorem kept_resolveRead {s : State} (hk : Kept from0 s) (r : Req) (h : Nat) (a : Nat) (n : Nat) :
    Kept from0 (resolveRead s r h a n).1 := by
  unfold resolveRead
  try dsimp only
  repeat' first
    | with_reducible assumption
    | with_reducible first | apply kept_poisonAt | apply kept_countLine | apply kept_countFailed | apply kept_countCache
    | split
    | with_reducible refine kept_mk ?_ rfl rfl rfl rfl rfl rfl rfl rfl rfl rfl rfl rfl rfl rfl rfl rfl rfl

theorem kept_readDramLine {s : State} (hk : Kept from0 s) (r : Req) (ecc : MemEcc) (h : Nat) (a : Nat) (n : Nat) :
    Kept from0 (readDramLine s r ecc h a n).1 := by
  unfold readDramLine
  try dsimp only
  repeat' first
    | with_reducible assumption
    | with_reducible first | apply kept_awake | apply kept_uncorrectable | apply kept_countFailed | apply kept_poisonAt | apply kept_resolveRead
    | with_reducible first | apply kept_bump
    | with_reducible refine kept_fst (by assumption) ?_
    | with_reducible refine kept_ite ?_ ?_
    | split
    | with_reducible refine kept_mk ?_ rfl rfl rfl rfl rfl rfl rfl rfl rfl rfl rfl rfl rfl rfl rfl rfl rfl

theorem kept_readTxn {s : State} (hk : Kept from0 s) (r : Req) (ecc : MemEcc) (a : Nat) (n : Nat) :
    Kept from0 (readTxn s r ecc a n).1 := by
  unfold readTxn
  try dsimp only
  repeat' first
    | with_reducible assumption
    | with_reducible first | apply kept_atHome | apply kept_cacheError | apply kept_poisonAt | apply kept_resolveRead | apply kept_readDramLine
    | with_reducible refine kept_fst (by assumption) ?_
    | with_reducible refine kept_ite ?_ ?_
    | split
    | with_reducible refine kept_mk ?_ rfl rfl rfl rfl rfl rfl rfl rfl rfl rfl rfl rfl rfl rfl rfl rfl rfl

theorem kept_refuseWindow {s : State} (hk : Kept from0 s) (a : Nat) :
    Kept from0 (refuseWindow s a) := by
  unfold refuseWindow
  try dsimp only
  repeat' first
    | with_reducible assumption
    | with_reducible first | apply kept_poisonAt | apply kept_bump
    | split
    | with_reducible refine kept_mk ?_ rfl rfl rfl rfl rfl rfl rfl rfl rfl rfl rfl rfl rfl rfl rfl rfl rfl

theorem kept_readReq {s : State} (hk : Kept from0 s) (r : Req) (ecc : MemEcc) (a : Nat) (n : Nat) :
    Kept from0 (readReq s r ecc a n).1 := by
  unfold readReq
  try dsimp only
  repeat' first
    | with_reducible assumption
    | with_reducible first | apply kept_checkReq | apply kept_poisonAt | apply kept_readTxn | apply kept_refuseWindow
    | with_reducible refine kept_fst (by assumption) ?_
    | with_reducible refine kept_ite ?_ ?_
    | split
    | with_reducible refine kept_mk ?_ rfl rfl rfl rfl rfl rfl rfl rfl rfl rfl rfl rfl rfl rfl rfl rfl rfl

theorem kept_devReadGo {a1 : State} (hk : Kept from0 a1) (a0 : Nat) (a2 : Req) (a3 : MemEcc) (a4 : Nat) (a5 : Nat) :
    Kept from0 (devReadGo a0 a1 a2 a3 a4 a5).1 := by
  induction a0 generalizing a1 a2 a3 a4 a5 with
  | zero =>
    unfold devReadGo
    try dsimp only
    repeat' first
      | with_reducible assumption
      | with_reducible first | apply kept_readReq
      | with_reducible refine kept_fst (by assumption) ?_
      | with_reducible refine kept_ite ?_ ?_
      | split
      | with_reducible refine kept_mk ?_ rfl rfl rfl rfl rfl rfl rfl rfl rfl rfl rfl rfl rfl rfl rfl rfl rfl
  | succ n ih =>
    unfold devReadGo
    try dsimp only
    repeat' first
      | with_reducible assumption
      | with_reducible apply ih
      | with_reducible first | apply kept_readReq
      | with_reducible refine kept_fst (by assumption) ?_
      | with_reducible refine kept_ite ?_ ?_
      | split
      | with_reducible refine kept_mk ?_ rfl rfl rfl rfl rfl rfl rfl rfl rfl rfl rfl rfl rfl rfl rfl rfl rfl

theorem kept_devRead {s : State} (hk : Kept from0 s) (r : Req) (ecc : MemEcc) (a : Nat) (n : Nat) :
    Kept from0 (devRead s r ecc a n).1 := by
  unfold devRead
  try dsimp only
  repeat' first
    | with_reducible assumption
    | with_reducible first | apply kept_devReadGo
    | with_reducible refine kept_fst (by assumption) ?_

theorem kept_mergeFails {s : State} (hk : Kept from0 s) (a : Nat) (info : FreezeInfo) :
    Kept from0 (mergeFails s a info).1 := by
  unfold mergeFails
  try dsimp only
  repeat' first
    | with_reducible assumption
    | with_reducible first | apply kept_uncorrectable | apply kept_setMark | apply kept_poisonAt
    | with_reducible refine kept_fst (by assumption) ?_
    | split
    | with_reducible refine kept_mk ?_ rfl rfl rfl rfl rfl rfl rfl rfl rfl rfl rfl rfl rfl rfl rfl rfl rfl

theorem kept_commitTxn {s : State} (hk : Kept from0 s) (r : Req) (ecc : MemEcc) (h : Nat) (a : Nat) (bs : List Byte) :
    Kept from0 (commitTxn s r ecc h a bs).1 := by
  unfold commitTxn
  try dsimp only
  repeat' first
    | with_reducible assumption
    | with_reducible first | apply kept_awake | apply kept_mergeFails | apply kept_countFailed | apply kept_writeDram | apply kept_countCache
    | with_reducible first | apply kept_bump
    | with_reducible refine kept_fst (by assumption) ?_
    | with_reducible refine kept_ite ?_ ?_
    | split
    | with_reducible refine kept_mk ?_ rfl rfl rfl rfl rfl rfl rfl rfl rfl rfl rfl rfl rfl rfl rfl rfl rfl

theorem kept_writeTxn {s : State} (hk : Kept from0 s) (r : Req) (ecc : MemEcc) (a : Nat) (bs : List Byte) :
    Kept from0 (writeTxn s r ecc a bs).1 := by
  unfold writeTxn
  try dsimp only
  repeat' first
    | with_reducible assumption
    | with_reducible first | apply kept_atHome | apply kept_stageBytes | apply kept_countCache | apply kept_commitTxn
    | with_reducible refine kept_fst (by assumption) ?_
    | split
    | with_reducible refine kept_mk ?_ rfl rfl rfl rfl rfl rfl rfl rfl rfl rfl rfl rfl rfl rfl rfl rfl rfl

theorem kept_combRefuse {s : State} (hk : Kept from0 s) (r : Req) (a : Nat) (code : Nat) :
    Kept from0 (combRefuse s r a code).1 := by
  unfold combRefuse
  try dsimp only
  repeat' first
    | with_reducible assumption
    | with_reducible first | apply kept_poisonAt | apply kept_logCruc | apply kept_bump

theorem kept_writeReq {s : State} (hk : Kept from0 s) (r : Req) (ecc : MemEcc) (a : Nat) (bs : List Byte) :
    Kept from0 (writeReq s r ecc a bs).1 := by
  unfold writeReq
  try dsimp only
  repeat' first
    | with_reducible assumption
    | with_reducible first | apply kept_checkReq | apply kept_poisonAt | apply kept_refuseWindow | apply kept_atHome | apply kept_combRefuse
    | with_reducible first | apply kept_writeTxn
    | with_reducible refine kept_fst (by assumption) ?_
    | with_reducible refine kept_ite ?_ ?_
    | split
    | with_reducible refine kept_mk ?_ rfl rfl rfl rfl rfl rfl rfl rfl rfl rfl rfl rfl rfl rfl rfl rfl rfl

theorem kept_devWriteGo {a1 : State} (hk : Kept from0 a1) (a0 : Nat) (a2 : Req) (a3 : MemEcc) (a4 : Nat) (a5 : List Byte) :
    Kept from0 (devWriteGo a0 a1 a2 a3 a4 a5).1 := by
  induction a0 generalizing a1 a2 a3 a4 a5 with
  | zero =>
    unfold devWriteGo
    try dsimp only
    repeat' first
      | with_reducible assumption
      | with_reducible first | apply kept_writeReq
      | with_reducible refine kept_fst (by assumption) ?_
      | split
      | with_reducible refine kept_mk ?_ rfl rfl rfl rfl rfl rfl rfl rfl rfl rfl rfl rfl rfl rfl rfl rfl rfl
  | succ n ih =>
    unfold devWriteGo
    try dsimp only
    repeat' first
      | with_reducible assumption
      | with_reducible apply ih
      | with_reducible first | apply kept_writeReq
      | with_reducible refine kept_fst (by assumption) ?_
      | split
      | with_reducible refine kept_mk ?_ rfl rfl rfl rfl rfl rfl rfl rfl rfl rfl rfl rfl rfl rfl rfl rfl rfl

theorem kept_devWrite {s : State} (hk : Kept from0 s) (r : Req) (ecc : MemEcc) (a : Nat) (bs : List Byte) :
    Kept from0 (devWrite s r ecc a bs).1 := by
  unfold devWrite
  try dsimp only
  repeat' first
    | with_reducible assumption
    | with_reducible first | apply kept_devWriteGo
    | with_reducible refine kept_fst (by assumption) ?_

theorem kept_combineReq {s : State} (hk : Kept from0 s) (r : Req) (o : Nat) (a : Nat) (tile : List Byte) (base : Nat) (rows : Nat) (bs : List Byte) :
    Kept from0 (combineReq s r o a tile base rows bs).1 := by
  unfold combineReq
  try dsimp only
  repeat' first
    | with_reducible assumption
    | with_reducible first | apply kept_combRefuse | apply kept_syncStage | apply kept_bump | apply kept_countCache
    | with_reducible refine kept_fst (by assumption) ?_
    | with_reducible refine kept_foldl ?_ (fun _ _ _ => ?_)
    | with_reducible refine kept_foldl_pair ?_ (fun _ _ _ => ?_)
    | with_reducible refine kept_ite ?_ ?_
    | split
    | with_reducible refine kept_mk ?_ rfl rfl rfl rfl rfl rfl rfl rfl rfl rfl rfl rfl rfl rfl rfl rfl rfl

theorem kept_recReq {s : State} (hk : Kept from0 s) (r : Req) (a : Nat) (tile : List Byte) (base : Nat) (rows : Nat) (bs : List Byte) :
    Kept from0 (recReq s r a tile base rows bs).1 := by
  unfold recReq
  try dsimp only
  repeat' first
    | with_reducible assumption
    | with_reducible first | apply kept_checkReq | apply kept_poisonAt | apply kept_writeTxn | apply kept_atHome | apply kept_combineReq
    | with_reducible refine kept_fst (by assumption) ?_
    | with_reducible refine kept_ite ?_ ?_
    | split
    | with_reducible refine kept_mk ?_ rfl rfl rfl rfl rfl rfl rfl rfl rfl rfl rfl rfl rfl rfl rfl rfl rfl

theorem kept_flipLine {s : State} (hk : Kept from0 s) (ecc : MemEcc) (line : Nat) (bs : List (Option Byte)) :
    Kept from0 (flipLine s ecc line bs) := by
  unfold flipLine
  try dsimp only
  repeat' first
    | with_reducible assumption
    | with_reducible first | apply kept_writeDramLine | apply kept_awake | apply kept_uncorrectable | apply kept_setMark | apply kept_bump
    | with_reducible refine kept_fst (by assumption) ?_
    | with_reducible refine kept_ite ?_ ?_
    | split
    | with_reducible refine kept_mk ?_ rfl rfl rfl rfl rfl rfl rfl rfl rfl rfl rfl rfl rfl rfl rfl rfl rfl

theorem kept_flipStaged {s : State} (hk : Kept from0 s) (ecc : MemEcc) (owner : Nat) :
    Kept from0 (flipStaged s ecc owner) := by
  unfold flipStaged
  try dsimp only
  repeat' first
    | with_reducible assumption
    | with_reducible first | apply kept_flipLine | apply kept_writeDram | apply kept_syncStage | apply kept_poisonLine
    | with_reducible refine kept_foldl ?_ (fun _ _ _ => ?_)
    | with_reducible refine kept_foldl_pair ?_ (fun _ _ _ => ?_)
    | with_reducible refine kept_mk ?_ rfl rfl rfl rfl rfl rfl rfl rfl rfl rfl rfl rfl rfl rfl rfl rfl rfl

theorem kept_dropStaged {s : State} (hk : Kept from0 s) (owner : Nat) :
    Kept from0 (dropStaged s owner) := by
  unfold dropStaged
  try dsimp only
  repeat' first
    | with_reducible assumption
    | with_reducible first | apply kept_syncStage
    | with_reducible refine kept_foldl ?_ (fun _ _ _ => ?_)
    | with_reducible refine kept_foldl_pair ?_ (fun _ _ _ => ?_)
    | with_reducible refine kept_mk ?_ rfl rfl rfl rfl rfl rfl rfl rfl rfl rfl rfl rfl rfl rfl rfl rfl rfl

theorem kept_dropSince {s : State} (hk : Kept from0 s) (key : Nat) (kept : List (Nat × Byte)) :
    Kept from0 (dropSince s key kept) := by
  unfold dropSince
  try dsimp only
  repeat' first
    | with_reducible assumption
    | with_reducible first | apply kept_syncStage
    | with_reducible refine kept_foldl ?_ (fun _ _ _ => ?_)
    | with_reducible refine kept_foldl_pair ?_ (fun _ _ _ => ?_)
    | with_reducible refine kept_mk ?_ rfl rfl rfl rfl rfl rfl rfl rfl rfl rfl rfl rfl rfl rfl rfl rfl rfl

theorem kept_dropRun {s : State} (hk : Kept from0 s) (key : Nat) :
    Kept from0 (dropRun s key) := by
  unfold dropRun
  try dsimp only
  repeat' first
    | with_reducible assumption
    | with_reducible first | apply kept_syncStage
    | with_reducible refine kept_foldl ?_ (fun _ _ _ => ?_)
    | with_reducible refine kept_foldl_pair ?_ (fun _ _ _ => ?_)
    | with_reducible refine kept_mk ?_ rfl rfl rfl rfl rfl rfl rfl rfl rfl rfl rfl rfl rfl rfl rfl rfl rfl

theorem kept_orphanNodes {s : State} (hk : Kept from0 s) (ns : List Nat) :
    Kept from0 (orphanNodes s ns) := by
  unfold orphanNodes
  try dsimp only
  repeat' first
    | with_reducible assumption
    | with_reducible refine kept_ite ?_ ?_
    | split
    | with_reducible refine kept_mk ?_ rfl rfl rfl rfl rfl rfl rfl rfl rfl rfl rfl rfl rfl rfl rfl rfl rfl

theorem kept_blockToReset {s : State} (hk : Kept from0 s) (b : Block) :
    Kept from0 (blockToReset s b) := by
  unfold blockToReset
  try dsimp only
  repeat' first
    | with_reducible assumption
    | with_reducible first | apply kept_fenceTarget | apply kept_orphanNodes | apply kept_setBlock
    | with_reducible refine kept_fst (by assumption) ?_
    | with_reducible refine kept_foldl ?_ (fun _ _ _ => ?_)
    | with_reducible refine kept_foldl_pair ?_ (fun _ _ _ => ?_)

theorem kept_blockToRun {s : State} (hk : Kept from0 s) (b : Block) :
    Kept from0 (blockToRun s b) := by
  unfold blockToRun
  try dsimp only
  repeat' first
    | with_reducible assumption
    | with_reducible first | apply kept_releaseTarget
    | with_reducible refine kept_foldl ?_ (fun _ _ _ => ?_)
    | with_reducible refine kept_foldl_pair ?_ (fun _ _ _ => ?_)
    | with_reducible refine kept_mk ?_ rfl rfl rfl rfl rfl rfl rfl rfl rfl rfl rfl rfl rfl rfl rfl rfl rfl

/-! ### Machine/Seq.lean -/

theorem kept_takeEcc {s : State} (hk : Kept from0 s) (c : Nat) (e : SpEcc) :
    Kept from0 (takeEcc s c e) := by
  unfold takeEcc
  try dsimp only
  repeat' first
    | with_reducible assumption
    | with_reducible first | apply kept_bump | apply kept_setCore
    | with_reducible refine kept_ite ?_ ?_
    | split
    | with_reducible refine kept_mk ?_ rfl rfl rfl rfl rfl rfl rfl rfl rfl rfl rfl rfl rfl rfl rfl rfl rfl

theorem kept_spStore {s : State} (hk : Kept from0 s) (c : Nat) (a : Nat) (bs : List Byte) :
    ∀ sx, spStore s c a bs = .ok sx → Kept from0 sx := by
  unfold spStore
  intro sx hx
  revert hx
  try dsimp only
  repeat' first
    | with_reducible assumption
    | with_reducible first | apply kept_setCore
    | (intro hx; cases hx)
    | split
    | with_reducible refine kept_mk ?_ rfl rfl rfl rfl rfl rfl rfl rfl rfl rfl rfl rfl rfl rfl rfl rfl rfl

theorem kept_setSync {s : State} (hk : Kept from0 s) (c : Nat) (n : Nat) (v : Nat) :
    Kept from0 (State.setSync s c n v) := by
  unfold State.setSync
  try dsimp only
  repeat' first
    | with_reducible assumption
    | with_reducible first | apply kept_setCore | apply kept_setRegFld
    | with_reducible refine kept_ite ?_ ?_
    | split
    | with_reducible refine kept_mk ?_ rfl rfl rfl rfl rfl rfl rfl rfl rfl rfl rfl rfl rfl rfl rfl rfl rfl

theorem kept_syncV {s : State} (hk : Kept from0 s) (c : Nat) (n : Nat) :
    Kept from0 (syncV s c n) := by
  unfold syncV
  try dsimp only
  repeat' first
    | with_reducible assumption
    | with_reducible first | apply kept_setRegFld

theorem kept_syncAllV {s : State} (hk : Kept from0 s) (c : Nat) :
    Kept from0 (syncAllV s c) := by
  unfold syncAllV
  try dsimp only
  repeat' first
    | with_reducible assumption
    | with_reducible first | apply kept_syncV
    | with_reducible refine kept_foldl ?_ (fun _ _ _ => ?_)
    | with_reducible refine kept_foldl_pair ?_ (fun _ _ _ => ?_)

theorem kept_giveRecord {s : State} (hk : Kept from0 s) (c : Nat) :
    Kept from0 (giveRecord s c) := by
  unfold giveRecord
  try dsimp only
  repeat' first
    | with_reducible assumption
    | with_reducible first | apply kept_setCore
    | with_reducible refine kept_fst (by assumption) ?_
    | with_reducible refine kept_ite ?_ ?_
    | split
    | with_reducible refine kept_mk ?_ rfl rfl rfl rfl rfl rfl rfl rfl rfl rfl rfl rfl rfl rfl rfl rfl rfl

theorem kept_mapRecord {s : State} (hk : Kept from0 s) (c : Nat) (f : PendRec → PendRec) :
    Kept from0 (mapRecord s c f) := by
  unfold mapRecord
  try dsimp only
  repeat' first
    | with_reducible assumption
    | with_reducible first | apply kept_setCore
    | with_reducible refine kept_ite ?_ ?_
    | split
    | with_reducible refine kept_mk ?_ rfl rfl rfl rfl rfl rfl rfl rfl rfl rfl rfl rfl rfl rfl rfl rfl rfl

theorem kept_takeWait {s : State} (hk : Kept from0 s) (c : Nat) (n : Nat) (amt : Nat) :
    Kept from0 (takeWait s c n amt) := by
  unfold takeWait
  try dsimp only
  repeat' first
    | with_reducible assumption
    | with_reducible first | apply kept_syncV | apply kept_mapRecord | apply kept_setSync
    | with_reducible refine kept_ite ?_ ?_
    | split
    | with_reducible refine kept_mk ?_ rfl rfl rfl rfl rfl rfl rfl rfl rfl rfl rfl rfl rfl rfl rfl rfl rfl

theorem kept_applySignal {s : State} (hk : Kept from0 s) (c : Nat) (n : Nat) (amt : Nat) :
    Kept from0 (applySignal s c n amt) := by
  unfold applySignal
  try dsimp only
  repeat' first
    | with_reducible assumption
    | with_reducible first | apply kept_mapRecord | apply kept_giveRecord | apply kept_setSync
    | with_reducible refine kept_ite ?_ ?_
    | split
    | with_reducible refine kept_mk ?_ rfl rfl rfl rfl rfl rfl rfl rfl rfl rfl rfl rfl rfl rfl rfl rfl rfl

theorem kept_applyDebugWrite {s : State} (hk : Kept from0 s) (c : Nat) (d : DebugWrite) :
    Kept from0 (applyDebugWrite s c d) := by
  unfold applyDebugWrite
  try dsimp only
  repeat' first
    | with_reducible assumption
    | with_reducible first | apply kept_setCore | apply kept_setSync
    | with_reducible refine kept_ite ?_ ?_
    | split

theorem kept_replay {s : State} (hk : Kept from0 s) (c : Nat) :
    Kept from0 (replay s c) := by
  unfold replay
  try dsimp only
  repeat' first
    | with_reducible assumption
    | with_reducible first | apply kept_applyDebugWrite | apply kept_setCore
    | with_reducible refine kept_foldl ?_ (fun _ _ _ => ?_)
    | with_reducible refine kept_foldl_pair ?_ (fun _ _ _ => ?_)
    | with_reducible refine kept_ite ?_ ?_
    | split
    | with_reducible refine kept_mk ?_ rfl rfl rfl rfl rfl rfl rfl rfl rfl rfl rfl rfl rfl rfl rfl rfl rfl

theorem kept_syncTpstat {s : State} (hk : Kept from0 s) (c : Nat) :
    Kept from0 (syncTpstat s c) := by
  unfold syncTpstat
  try dsimp only
  repeat' first
    | with_reducible assumption
    | with_reducible first | apply kept_setReg
    | with_reducible refine kept_foldl ?_ (fun _ _ _ => ?_)
    | with_reducible refine kept_foldl_pair ?_ (fun _ _ _ => ?_)

theorem kept_tileFault {s : State} (hk : Kept from0 s) (c : Nat) (eng : Nat) (word : Nat) (f : TFault) :
    Kept from0 (tileFault s c eng word f) := by
  unfold tileFault
  try dsimp only
  repeat' first
    | with_reducible assumption
    | with_reducible first | apply kept_setReg | apply kept_coreCheckEvent | apply kept_bump | apply kept_setRegBit | apply kept_stopStreams
    | with_reducible first | apply kept_setCore | apply kept_syncTpstat | apply kept_setCoreSt
    | with_reducible refine kept_ite ?_ ?_
    | split
    | with_reducible refine kept_mk ?_ rfl rfl rfl rfl rfl rfl rfl rfl rfl rfl rfl rfl rfl rfl rfl rfl rfl

theorem kept_countFaults {s : State} (hk : Kept from0 s) (c : Nat) (n : Nat) :
    Kept from0 (countFaults s c n) := by
  unfold countFaults
  try dsimp only
  repeat' first
    | with_reducible assumption
    | with_reducible first | apply kept_setRegFld

theorem kept_stepFaults {s : State} (hk : Kept from0 s) (c : Nat) (l : List (Nat × Nat × TFault)) :
    Kept from0 (stepFaults s c l) := by
  unfold stepFaults
  try dsimp only
  repeat' first
    | with_reducible assumption
    | with_reducible first | apply kept_countFaults | apply kept_tileFault
    | split
    | with_reducible refine kept_mk ?_ rfl rfl rfl rfl rfl rfl rfl rfl rfl rfl rfl rfl rfl rfl rfl rfl rfl

theorem kept_poisonRuns {s0 : State} {s : State} (hk : Kept from0 s) :
    Kept from0 (poisonRuns s0 s) := by
  unfold poisonRuns
  try dsimp only
  repeat' first
    | with_reducible assumption
    | with_reducible first | apply kept_stepFaults
    | with_reducible refine kept_foldl ?_ (fun _ _ _ => ?_)
    | with_reducible refine kept_foldl_pair ?_ (fun _ _ _ => ?_)
    | with_reducible refine kept_ite ?_ ?_
    | split
    | with_reducible refine kept_mk ?_ rfl rfl rfl rfl rfl rfl rfl rfl rfl rfl rfl rfl rfl rfl rfl rfl rfl

theorem kept_coreRead {s : State} (hk : Kept from0 s) (r : Req) (ecc : MemEcc) (a : Nat) (n : Nat) :
    Kept from0 (coreRead s r ecc a n).1 := by
  unfold coreRead
  try dsimp only
  repeat' first
    | with_reducible assumption
    | with_reducible first | apply kept_devRead | apply kept_poisonRuns
    | with_reducible refine kept_fst (by assumption) ?_

theorem kept_headCheck {s : State} (hk : Kept from0 s) (c : Nat) (k : Nat) :
    Kept from0 (headCheck s c k) := by
  unfold headCheck
  try dsimp only
  repeat' first
    | with_reducible assumption
    | with_reducible first | apply kept_tileFault
    | split
    | with_reducible refine kept_mk ?_ rfl rfl rfl rfl rfl rfl rfl rfl rfl rfl rfl rfl rfl rfl rfl rfl rfl

theorem kept_headChecks {s : State} (hk : Kept from0 s) (c : Nat) :
    Kept from0 (headChecks s c) := by
  unfold headChecks
  try dsimp only
  repeat' first
    | with_reducible assumption
    | with_reducible first | apply kept_stepFaults

theorem kept_raiseAll {s : State} (hk : Kept from0 s) (c : Nat) (a2 : List InFlight) :
    Kept from0 (raiseAll s c a2) := by
  induction a2 generalizing s c with
  | nil =>
    unfold raiseAll
    try dsimp only
    repeat' first
      | with_reducible assumption
      | with_reducible first | apply kept_stepFaults | apply kept_applySignal | apply kept_setCore
      | with_reducible refine kept_ite ?_ ?_
      | split
      | with_reducible refine kept_mk ?_ rfl rfl rfl rfl rfl rfl rfl rfl rfl rfl rfl rfl rfl rfl rfl rfl rfl
  | cons b l ih =>
    unfold raiseAll
    try dsimp only
    repeat' first
      | with_reducible assumption
      | with_reducible apply ih
      | with_reducible first | apply kept_stepFaults | apply kept_applySignal | apply kept_setCore
      | with_reducible refine kept_ite ?_ ?_
      | split
      | with_reducible refine kept_mk ?_ rfl rfl rfl rfl rfl rfl rfl rfl rfl rfl rfl rfl rfl rfl rfl rfl rfl

theorem kept_flush {s : State} (hk : Kept from0 s) (c : Nat) (k : Nat) :
    Kept from0 (flush s c k) := by
  unfold flush
  try dsimp only
  repeat' first
    | with_reducible assumption
    | with_reducible first | apply kept_raiseAll | apply kept_setCore
    | with_reducible refine kept_mk ?_ rfl rfl rfl rfl rfl rfl rfl rfl rfl rfl rfl rfl rfl rfl rfl rfl rfl

theorem kept_issueDone {s : State} (hk : Kept from0 s) (c : Nat) (k : Nat) (w : Nat) (txns : Nat) (slot : Nat) :
    Kept from0 (issueDone s c k w txns slot) := by
  unfold issueDone
  try dsimp only
  repeat' first
    | with_reducible assumption
    | with_reducible first | apply kept_setRegFld | apply kept_flush | apply kept_setCore | apply kept_syncTpstat | apply kept_headCheck
    | with_reducible refine kept_fst (by assumption) ?_
    | with_reducible refine kept_ite ?_ ?_
    | split
    | with_reducible refine kept_mk ?_ rfl rfl rfl rfl rfl rfl rfl rfl rfl rfl rfl rfl rfl rfl rfl rfl rfl

theorem kept_issueChecked {s : State} (hk : Kept from0 s) (c : Nat) (k : Nat) (w : Nat) (checks : State → Nat → List TFault) (effect : State → Nat → Effect) (hf : ∀ x i, Kept from0 x → Kept from0 (effect x i).1) :
    Kept from0 (issueChecked s c k w checks effect) := by
  unfold issueChecked
  try dsimp only
  repeat' first
    | with_reducible assumption
    | with_reducible apply hf
    | with_reducible first | apply kept_tileFault | apply kept_issueDone
    | with_reducible refine kept_fst (by assumption) ?_
    | split
    | with_reducible refine kept_mk ?_ rfl rfl rfl rfl rfl rfl rfl rfl rfl rfl rfl rfl rfl rfl rfl rfl rfl

theorem kept_issueHead {s : State} (hk : Kept from0 s) (c : Nat) (k : Nat) (checks : State → Nat → List TFault) (effect : State → Nat → Effect) (hf : ∀ x i, Kept from0 x → Kept from0 (effect x i).1) :
    Kept from0 (issueHead s c k checks effect) := by
  unfold issueHead
  try dsimp only
  repeat' first
    | with_reducible assumption
    | with_reducible apply hf
    | with_reducible first | apply kept_tileFault | apply kept_giveRecord | apply kept_syncTpstat | apply kept_issueChecked | apply kept_takeWait
    | intro _ _ _
    | intro _ _
    | with_reducible refine kept_ite ?_ ?_
    | split
    | with_reducible refine kept_mk ?_ rfl rfl rfl rfl rfl rfl rfl rfl rfl rfl rfl rfl rfl rfl rfl rfl rfl

theorem kept_issueIf {s : State} (hk : Kept from0 s) (c : Nat) (k : Nat) (eng : Nat) (op : Nat) (checks : State → Nat → List TFault) (effect : State → Nat → Effect) (hf : ∀ x i, Kept from0 x → Kept from0 (effect x i).1) :
    Kept from0 (issueIf s c k eng op checks effect) := by
  unfold issueIf
  try dsimp only
  repeat' first
    | with_reducible assumption
    | with_reducible apply hf
    | with_reducible first | apply kept_replay | apply kept_issueHead
    | intro _ _ _
    | intro _ _
    | with_reducible refine kept_ite ?_ ?_
    | split

/-! ### Machine/TileArray.lean -/

theorem kept_clrEffect {s : State} (hk : Kept from0 s) (c : Nat) (w : Nat) :
    Kept from0 (clrEffect c s w).1 := by
  unfold clrEffect
  try dsimp only
  repeat' first
    | with_reducible assumption
    | with_reducible first | apply kept_setCore
    | with_reducible refine kept_mk ?_ rfl rfl rfl rfl rfl rfl rfl rfl rfl rfl rfl rfl rfl rfl rfl rfl rfl

theorem kept_wldEffect {s : State} (hk : Kept from0 s) (c : Nat) (ph : Phys) (w : Nat) :
    Kept from0 (wldEffect c ph s w).1 := by
  unfold wldEffect
  try dsimp only
  repeat' first
    | with_reducible assumption
    | with_reducible first | apply kept_takeEcc | apply kept_setCore
    | with_reducible refine kept_fst (by assumption) ?_
    | with_reducible refine kept_ite ?_ ?_
    | split
    | with_reducible refine kept_mk ?_ rfl rfl rfl rfl rfl rfl rfl rfl rfl rfl rfl rfl rfl rfl rfl rfl rfl

theorem kept_mmRows {a5 : State} (hk : Kept from0 a5) (c : Nat) (w : Nat) (wt : WTile) (a3 : Nat) (a4 : Nat) :
    Kept from0 (mmRows c w wt a3 a4 a5).1 := by
  induction a3 generalizing c w wt a4 a5 with
  | zero =>
    unfold mmRows
    try dsimp only
    repeat' first
      | with_reducible assumption
      | with_reducible first | apply kept_setRegBit | apply kept_setCore
      | with_reducible refine kept_ite ?_ ?_
      | split
      | with_reducible refine kept_mk ?_ rfl rfl rfl rfl rfl rfl rfl rfl rfl rfl rfl rfl rfl rfl rfl rfl rfl
  | succ n ih =>
    unfold mmRows
    try dsimp only
    repeat' first
      | with_reducible assumption
      | with_reducible apply ih
      | with_reducible first | apply kept_setRegBit | apply kept_setCore
      | with_reducible refine kept_ite ?_ ?_
      | split
      | with_reducible refine kept_mk ?_ rfl rfl rfl rfl rfl rfl rfl rfl rfl rfl rfl rfl rfl rfl rfl rfl rfl

theorem kept_mmEffect {s : State} (hk : Kept from0 s) (c : Nat) (ph : Phys) (w : Nat) :
    Kept from0 (mmEffect c ph s w).1 := by
  unfold mmEffect
  try dsimp only
  repeat' first
    | with_reducible assumption
    | with_reducible first | apply kept_takeEcc | apply kept_mmRows | apply kept_setCore
    | with_reducible refine kept_fst (by assumption) ?_
    | with_reducible refine kept_ite ?_ ?_
    | split
    | with_reducible refine kept_mk ?_ rfl rfl rfl rfl rfl rfl rfl rfl rfl rfl rfl rfl rfl rfl rfl rfl rfl

theorem kept_addFlags {s : State} (hk : Kept from0 s) (c : Nat) (f : AFlags) :
    Kept from0 (addFlags s c f) := by
  unfold addFlags
  try dsimp only
  repeat' first
    | with_reducible assumption
    | with_reducible first | apply kept_setReg

theorem kept_drnRows {a4 : State} (hk : Kept from0 a4) (c : Nat) (w : Nat) (a2 : Nat) (a3 : Nat) :
    Kept from0 (drnRows c w a2 a3 a4).1 := by
  induction a2 generalizing c w a3 a4 with
  | zero =>
    unfold drnRows
    try dsimp only
    repeat' first
      | with_reducible assumption
      | with_reducible first | apply kept_addFlags
      | with_reducible refine kept_spStore ?_ _ _ _ _ (by assumption)
      | split
      | with_reducible refine kept_mk ?_ rfl rfl rfl rfl rfl rfl rfl rfl rfl rfl rfl rfl rfl rfl rfl rfl rfl
  | succ n ih =>
    unfold drnRows
    try dsimp only
    repeat' first
      | with_reducible assumption
      | with_reducible apply ih
      | with_reducible first | apply kept_addFlags
      | with_reducible refine kept_spStore ?_ _ _ _ _ (by assumption)
      | split
      | with_reducible refine kept_mk ?_ rfl rfl rfl rfl rfl rfl rfl rfl rfl rfl rfl rfl rfl rfl rfl rfl rfl

theorem kept_drnEffect {s : State} (hk : Kept from0 s) (c : Nat) (ph : Phys) (w : Nat) :
    Kept from0 (drnEffect c ph s w).1 := by
  unfold drnEffect
  try dsimp only
  repeat' first
    | with_reducible assumption
    | with_reducible first | apply kept_takeEcc | apply kept_drnRows
    | with_reducible refine kept_fst (by assumption) ?_
    | with_reducible refine kept_ite ?_ ?_
    | split

theorem kept_execClr {s : State} (hk : Kept from0 s) (core : Fin 96) :
    ∃ sx, execClr core s = .next sx ∧ Kept from0 sx := by
  unfold execClr
  try dsimp only
  repeat' first
    | with_reducible assumption
    | with_reducible refine ⟨_, rfl, ?_⟩
    | with_reducible first | apply kept_issueIf | apply kept_clrEffect
    | with_reducible refine kept_fst (by assumption) ?_
    | intro _ _ _
    | intro _ _

theorem kept_execWld {s : State} (hk : Kept from0 s) (core : Fin 96) (ph : Phys) :
    ∃ sx, execWld core ph s = .next sx ∧ Kept from0 sx := by
  unfold execWld
  try dsimp only
  repeat' first
    | with_reducible assumption
    | with_reducible refine ⟨_, rfl, ?_⟩
    | with_reducible first | apply kept_issueIf | apply kept_wldEffect
    | with_reducible refine kept_fst (by assumption) ?_
    | intro _ _ _
    | intro _ _

theorem kept_execMm {s : State} (hk : Kept from0 s) (core : Fin 96) (ph : Phys) :
    ∃ sx, execMm core ph s = .next sx ∧ Kept from0 sx := by
  unfold execMm
  try dsimp only
  repeat' first
    | with_reducible assumption
    | with_reducible refine ⟨_, rfl, ?_⟩
    | with_reducible first | apply kept_issueIf | apply kept_mmEffect
    | with_reducible refine kept_fst (by assumption) ?_
    | intro _ _ _
    | intro _ _

theorem kept_execDrn {s : State} (hk : Kept from0 s) (core : Fin 96) (ph : Phys) :
    ∃ sx, execDrn core ph s = .next sx ∧ Kept from0 sx := by
  unfold execDrn
  try dsimp only
  repeat' first
    | with_reducible assumption
    | with_reducible refine ⟨_, rfl, ?_⟩
    | with_reducible first | apply kept_issueIf | apply kept_drnEffect
    | with_reducible refine kept_fst (by assumption) ?_
    | intro _ _ _
    | intro _ _

theorem kept_execWeightSwap {s : State} (hk : Kept from0 s) (core : Fin 96) :
    ∃ sx, execWeightSwap core s = .next sx ∧ Kept from0 sx := by
  unfold execWeightSwap
  try dsimp only
  repeat' first
    | with_reducible assumption
    | with_reducible refine ⟨_, rfl, ?_⟩
    | with_reducible first | apply kept_syncTpstat | apply kept_setCore
    | with_reducible refine kept_ite ?_ ?_
    | split
    | with_reducible refine kept_mk ?_ rfl rfl rfl rfl rfl rfl rfl rfl rfl rfl rfl rfl rfl rfl rfl rfl rfl

/-! ### Machine/TileVector.lean -/

theorem kept_lanesEffect {s : State} (hk : Kept from0 s) (c : Nat) (f : Core → Nat → Nat → FVal) (w : Nat) :
    Kept from0 (lanesEffect c f s w).1 := by
  unfold lanesEffect
  try dsimp only
  repeat' first
    | with_reducible assumption
    | with_reducible first | apply kept_addFlags | apply kept_setCore

theorem kept_reduceEffect {s : State} (hk : Kept from0 s) (c : Nat) (leaf : Nat → Nat → FVal) (node : Nat → Nat → Nat → FVal) (ident : Nat → Nat) (w : Nat) :
    Kept from0 (reduceEffect c leaf node ident s w).1 := by
  unfold reduceEffect
  try dsimp only
  repeat' first
    | with_reducible assumption
    | with_reducible first | apply kept_addFlags | apply kept_setCore
    | with_reducible refine kept_ite ?_ ?_
    | split

theorem kept_loadLanes {s : State} (hk : Kept from0 s) (c : Nat) (v : Nat) (rs : List FVal) :
    Kept from0 (loadLanes s c v rs) := by
  unfold loadLanes
  try dsimp only
  repeat' first
    | with_reducible assumption
    | with_reducible first | apply kept_addFlags | apply kept_setCore

theorem kept_vldEffect {s : State} (hk : Kept from0 s) (c : Nat) (e : SpEcc) (w : Nat) :
    Kept from0 (vldEffect c e s w).1 := by
  unfold vldEffect
  try dsimp only
  repeat' first
    | with_reducible assumption
    | with_reducible first | apply kept_takeEcc | apply kept_loadLanes
    | split
    | with_reducible refine kept_mk ?_ rfl rfl rfl rfl rfl rfl rfl rfl rfl rfl rfl rfl rfl rfl rfl rfl rfl

theorem kept_vstEffect {s : State} (hk : Kept from0 s) (c : Nat) (e : SpEcc) (w : Nat) :
    Kept from0 (vstEffect c e s w).1 := by
  unfold vstEffect
  try dsimp only
  repeat' first
    | with_reducible assumption
    | with_reducible first | apply kept_takeEcc | apply kept_addFlags
    | with_reducible refine kept_spStore ?_ _ _ _ _ (by assumption)
    | with_reducible refine kept_ite ?_ ?_
    | split
    | with_reducible refine kept_mk ?_ rfl rfl rfl rfl rfl rfl rfl rfl rfl rfl rfl rfl rfl rfl rfl rfl rfl

theorem kept_vldscEffect {s : State} (hk : Kept from0 s) (c : Nat) (e : SpEcc) (w : Nat) :
    Kept from0 (vldscEffect c e s w).1 := by
  unfold vldscEffect
  try dsimp only
  repeat' first
    | with_reducible assumption
    | with_reducible first | apply kept_takeEcc | apply kept_loadLanes
    | split
    | with_reducible refine kept_mk ?_ rfl rfl rfl rfl rfl rfl rfl rfl rfl rfl rfl rfl rfl rfl rfl rfl rfl

theorem kept_issueVec {s : State} (hk : Kept from0 s) (core : Fin 96) (op : Nat) (f : Core → Nat → Nat → FVal) :
    Kept from0 (issueVec core op f s) := by
  unfold issueVec
  try dsimp only
  repeat' first
    | with_reducible assumption
    | with_reducible first | apply kept_issueIf | apply kept_lanesEffect
    | with_reducible refine kept_fst (by assumption) ?_
    | intro _ _ _
    | intro _ _

theorem kept_execVld {s : State} (hk : Kept from0 s) (core : Fin 96) (ecc : SpEcc) :
    ∃ sx, execVld core ecc s = .next sx ∧ Kept from0 sx := by
  unfold execVld
  try dsimp only
  repeat' first
    | with_reducible assumption
    | with_reducible refine ⟨_, rfl, ?_⟩
    | with_reducible first | apply kept_issueIf | apply kept_vldEffect
    | with_reducible refine kept_fst (by assumption) ?_
    | intro _ _ _
    | intro _ _

theorem kept_execVst {s : State} (hk : Kept from0 s) (core : Fin 96) (ecc : SpEcc) :
    ∃ sx, execVst core ecc s = .next sx ∧ Kept from0 sx := by
  unfold execVst
  try dsimp only
  repeat' first
    | with_reducible assumption
    | with_reducible refine ⟨_, rfl, ?_⟩
    | with_reducible first | apply kept_issueIf | apply kept_vstEffect
    | with_reducible refine kept_fst (by assumption) ?_
    | intro _ _ _
    | intro _ _

theorem kept_execVldsc {s : State} (hk : Kept from0 s) (core : Fin 96) (ecc : SpEcc) :
    ∃ sx, execVldsc core ecc s = .next sx ∧ Kept from0 sx := by
  unfold execVldsc
  try dsimp only
  repeat' first
    | with_reducible assumption
    | with_reducible refine ⟨_, rfl, ?_⟩
    | with_reducible first | apply kept_issueIf | apply kept_vldscEffect
    | with_reducible refine kept_fst (by assumption) ?_
    | intro _ _ _
    | intro _ _

theorem kept_execVbc {s : State} (hk : Kept from0 s) (core : Fin 96) :
    ∃ sx, execVbc core s = .next sx ∧ Kept from0 sx := by
  unfold execVbc
  try dsimp only
  repeat' first
    | with_reducible assumption
    | with_reducible refine ⟨_, rfl, ?_⟩
    | with_reducible first | apply kept_issueVec

theorem kept_execVadd {s : State} (hk : Kept from0 s) (core : Fin 96) :
    ∃ sx, execVadd core s = .next sx ∧ Kept from0 sx := by
  unfold execVadd
  try dsimp only
  repeat' first
    | with_reducible assumption
    | with_reducible refine ⟨_, rfl, ?_⟩
    | with_reducible first | apply kept_issueVec

theorem kept_execVsub {s : State} (hk : Kept from0 s) (core : Fin 96) :
    ∃ sx, execVsub core s = .next sx ∧ Kept from0 sx := by
  unfold execVsub
  try dsimp only
  repeat' first
    | with_reducible assumption
    | with_reducible refine ⟨_, rfl, ?_⟩
    | with_reducible first | apply kept_issueVec

theorem kept_execVmul {s : State} (hk : Kept from0 s) (core : Fin 96) :
    ∃ sx, execVmul core s = .next sx ∧ Kept from0 sx := by
  unfold execVmul
  try dsimp only
  repeat' first
    | with_reducible assumption
    | with_reducible refine ⟨_, rfl, ?_⟩
    | with_reducible first | apply kept_issueVec

theorem kept_execVfma {s : State} (hk : Kept from0 s) (core : Fin 96) :
    ∃ sx, execVfma core s = .next sx ∧ Kept from0 sx := by
  unfold execVfma
  try dsimp only
  repeat' first
    | with_reducible assumption
    | with_reducible refine ⟨_, rfl, ?_⟩
    | with_reducible first | apply kept_issueVec

theorem kept_execVdiv {s : State} (hk : Kept from0 s) (core : Fin 96) :
    ∃ sx, execVdiv core s = .next sx ∧ Kept from0 sx := by
  unfold execVdiv
  try dsimp only
  repeat' first
    | with_reducible assumption
    | with_reducible refine ⟨_, rfl, ?_⟩
    | with_reducible first | apply kept_issueVec

theorem kept_execVsqrt {s : State} (hk : Kept from0 s) (core : Fin 96) :
    ∃ sx, execVsqrt core s = .next sx ∧ Kept from0 sx := by
  unfold execVsqrt
  try dsimp only
  repeat' first
    | with_reducible assumption
    | with_reducible refine ⟨_, rfl, ?_⟩
    | with_reducible first | apply kept_issueVec

theorem kept_execVmin {s : State} (hk : Kept from0 s) (core : Fin 96) :
    ∃ sx, execVmin core s = .next sx ∧ Kept from0 sx := by
  unfold execVmin
  try dsimp only
  repeat' first
    | with_reducible assumption
    | with_reducible refine ⟨_, rfl, ?_⟩
    | with_reducible first | apply kept_issueVec

theorem kept_execVmax {s : State} (hk : Kept from0 s) (core : Fin 96) :
    ∃ sx, execVmax core s = .next sx ∧ Kept from0 sx := by
  unfold execVmax
  try dsimp only
  repeat' first
    | with_reducible assumption
    | with_reducible refine ⟨_, rfl, ?_⟩
    | with_reducible first | apply kept_issueVec

theorem kept_execVabs {s : State} (hk : Kept from0 s) (core : Fin 96) :
    ∃ sx, execVabs core s = .next sx ∧ Kept from0 sx := by
  unfold execVabs
  try dsimp only
  repeat' first
    | with_reducible assumption
    | with_reducible refine ⟨_, rfl, ?_⟩
    | with_reducible first | apply kept_issueVec

theorem kept_execVneg {s : State} (hk : Kept from0 s) (core : Fin 96) :
    ∃ sx, execVneg core s = .next sx ∧ Kept from0 sx := by
  unfold execVneg
  try dsimp only
  repeat' first
    | with_reducible assumption
    | with_reducible refine ⟨_, rfl, ?_⟩
    | with_reducible first | apply kept_issueVec

theorem kept_execVcmp {s : State} (hk : Kept from0 s) (core : Fin 96) :
    ∃ sx, execVcmp core s = .next sx ∧ Kept from0 sx := by
  unfold execVcmp
  try dsimp only
  repeat' first
    | with_reducible assumption
    | with_reducible refine ⟨_, rfl, ?_⟩
    | with_reducible first | apply kept_issueVec

theorem kept_execVsel {s : State} (hk : Kept from0 s) (core : Fin 96) :
    ∃ sx, execVsel core s = .next sx ∧ Kept from0 sx := by
  unfold execVsel
  try dsimp only
  repeat' first
    | with_reducible assumption
    | with_reducible refine ⟨_, rfl, ?_⟩
    | with_reducible first | apply kept_issueVec

theorem kept_execVand {s : State} (hk : Kept from0 s) (core : Fin 96) :
    ∃ sx, execVand core s = .next sx ∧ Kept from0 sx := by
  unfold execVand
  try dsimp only
  repeat' first
    | with_reducible assumption
    | with_reducible refine ⟨_, rfl, ?_⟩
    | with_reducible first | apply kept_issueVec

theorem kept_execVor {s : State} (hk : Kept from0 s) (core : Fin 96) :
    ∃ sx, execVor core s = .next sx ∧ Kept from0 sx := by
  unfold execVor
  try dsimp only
  repeat' first
    | with_reducible assumption
    | with_reducible refine ⟨_, rfl, ?_⟩
    | with_reducible first | apply kept_issueVec

theorem kept_execVxor {s : State} (hk : Kept from0 s) (core : Fin 96) :
    ∃ sx, execVxor core s = .next sx ∧ Kept from0 sx := by
  unfold execVxor
  try dsimp only
  repeat' first
    | with_reducible assumption
    | with_reducible refine ⟨_, rfl, ?_⟩
    | with_reducible first | apply kept_issueVec

theorem kept_execVshl {s : State} (hk : Kept from0 s) (core : Fin 96) :
    ∃ sx, execVshl core s = .next sx ∧ Kept from0 sx := by
  unfold execVshl
  try dsimp only
  repeat' first
    | with_reducible assumption
    | with_reducible refine ⟨_, rfl, ?_⟩
    | with_reducible first | apply kept_issueVec

theorem kept_execVshr {s : State} (hk : Kept from0 s) (core : Fin 96) :
    ∃ sx, execVshr core s = .next sx ∧ Kept from0 sx := by
  unfold execVshr
  try dsimp only
  repeat' first
    | with_reducible assumption
    | with_reducible refine ⟨_, rfl, ?_⟩
    | with_reducible first | apply kept_issueVec

theorem kept_execVcvt {s : State} (hk : Kept from0 s) (core : Fin 96) :
    ∃ sx, execVcvt core s = .next sx ∧ Kept from0 sx := by
  unfold execVcvt
  try dsimp only
  repeat' first
    | with_reducible assumption
    | with_reducible refine ⟨_, rfl, ?_⟩
    | with_reducible first | apply kept_issueVec

theorem kept_execVqnt {s : State} (hk : Kept from0 s) (core : Fin 96) :
    ∃ sx, execVqnt core s = .next sx ∧ Kept from0 sx := by
  unfold execVqnt
  try dsimp only
  repeat' first
    | with_reducible assumption
    | with_reducible refine ⟨_, rfl, ?_⟩
    | with_reducible first | apply kept_issueVec

theorem kept_execVexp2 {s : State} (hk : Kept from0 s) (core : Fin 96) :
    ∃ sx, execVexp2 core s = .next sx ∧ Kept from0 sx := by
  unfold execVexp2
  try dsimp only
  repeat' first
    | with_reducible assumption
    | with_reducible refine ⟨_, rfl, ?_⟩
    | with_reducible first | apply kept_issueVec

theorem kept_execVlog2 {s : State} (hk : Kept from0 s) (core : Fin 96) :
    ∃ sx, execVlog2 core s = .next sx ∧ Kept from0 sx := by
  unfold execVlog2
  try dsimp only
  repeat' first
    | with_reducible assumption
    | with_reducible refine ⟨_, rfl, ?_⟩
    | with_reducible first | apply kept_issueVec

theorem kept_execVrcp {s : State} (hk : Kept from0 s) (core : Fin 96) :
    ∃ sx, execVrcp core s = .next sx ∧ Kept from0 sx := by
  unfold execVrcp
  try dsimp only
  repeat' first
    | with_reducible assumption
    | with_reducible refine ⟨_, rfl, ?_⟩
    | with_reducible first | apply kept_issueVec

theorem kept_execVrsqrt {s : State} (hk : Kept from0 s) (core : Fin 96) :
    ∃ sx, execVrsqrt core s = .next sx ∧ Kept from0 sx := by
  unfold execVrsqrt
  try dsimp only
  repeat' first
    | with_reducible assumption
    | with_reducible refine ⟨_, rfl, ?_⟩
    | with_reducible first | apply kept_issueVec

theorem kept_execVsigm {s : State} (hk : Kept from0 s) (core : Fin 96) :
    ∃ sx, execVsigm core s = .next sx ∧ Kept from0 sx := by
  unfold execVsigm
  try dsimp only
  repeat' first
    | with_reducible assumption
    | with_reducible refine ⟨_, rfl, ?_⟩
    | with_reducible first | apply kept_issueVec

theorem kept_execVtanh {s : State} (hk : Kept from0 s) (core : Fin 96) :
    ∃ sx, execVtanh core s = .next sx ∧ Kept from0 sx := by
  unfold execVtanh
  try dsimp only
  repeat' first
    | with_reducible assumption
    | with_reducible refine ⟨_, rfl, ?_⟩
    | with_reducible first | apply kept_issueVec

theorem kept_execVgelu {s : State} (hk : Kept from0 s) (core : Fin 96) :
    ∃ sx, execVgelu core s = .next sx ∧ Kept from0 sx := by
  unfold execVgelu
  try dsimp only
  repeat' first
    | with_reducible assumption
    | with_reducible refine ⟨_, rfl, ?_⟩
    | with_reducible first | apply kept_issueVec

theorem kept_execVexpd {s : State} (hk : Kept from0 s) (core : Fin 96) :
    ∃ sx, execVexpd core s = .next sx ∧ Kept from0 sx := by
  unfold execVexpd
  try dsimp only
  repeat' first
    | with_reducible assumption
    | with_reducible refine ⟨_, rfl, ?_⟩
    | with_reducible first | apply kept_issueVec

theorem kept_issueRed {s : State} (hk : Kept from0 s) (core : Fin 96) (op : Nat) (leaf : Nat → Nat → FVal) (node : Nat → Nat → Nat → FVal) (identF : Nat) (identI : Nat) :
    Kept from0 (issueRed core op leaf node identF identI s) := by
  unfold issueRed
  try dsimp only
  repeat' first
    | with_reducible assumption
    | with_reducible first | apply kept_issueIf | apply kept_reduceEffect
    | with_reducible refine kept_fst (by assumption) ?_
    | intro _ _ _
    | intro _ _
    | with_reducible refine kept_ite ?_ ?_
    | split

theorem kept_execVrsum {s : State} (hk : Kept from0 s) (core : Fin 96) :
    ∃ sx, execVrsum core s = .next sx ∧ Kept from0 sx := by
  unfold execVrsum
  try dsimp only
  repeat' first
    | with_reducible assumption
    | with_reducible refine ⟨_, rfl, ?_⟩
    | with_reducible first | apply kept_issueRed

theorem kept_execVrmax {s : State} (hk : Kept from0 s) (core : Fin 96) :
    ∃ sx, execVrmax core s = .next sx ∧ Kept from0 sx := by
  unfold execVrmax
  try dsimp only
  repeat' first
    | with_reducible assumption
    | with_reducible refine ⟨_, rfl, ?_⟩
    | with_reducible first | apply kept_issueRed

theorem kept_execVrmin {s : State} (hk : Kept from0 s) (core : Fin 96) :
    ∃ sx, execVrmin core s = .next sx ∧ Kept from0 sx := by
  unfold execVrmin
  try dsimp only
  repeat' first
    | with_reducible assumption
    | with_reducible refine ⟨_, rfl, ?_⟩
    | with_reducible first | apply kept_issueRed

theorem kept_execVrssq {s : State} (hk : Kept from0 s) (core : Fin 96) :
    ∃ sx, execVrssq core s = .next sx ∧ Kept from0 sx := by
  unfold execVrssq
  try dsimp only
  repeat' first
    | with_reducible assumption
    | with_reducible refine ⟨_, rfl, ?_⟩
    | with_reducible first | apply kept_issueRed

/-! ### Machine/TileMove.lean -/

theorem kept_loadRuns {a7 : State} (hk : Kept from0 a7) (c : Nat) (e : MemEcc) (slot : Nat) (spa : Nat) (len : Nat) (a5 : List (Int × Nat)) (a6 : Nat) :
    Kept from0 (loadRuns c e slot spa len a5 a6 a7).1 := by
  induction a5 generalizing c e slot spa len a6 a7 with
  | nil =>
    unfold loadRuns
    try dsimp only
    repeat' first
      | with_reducible assumption
      | with_reducible first | apply kept_bump | apply kept_coreRead
      | with_reducible refine kept_fst (by assumption) ?_
      | with_reducible refine kept_spStore ?_ _ _ _ _ (by assumption)
      | split
      | with_reducible refine kept_mk ?_ rfl rfl rfl rfl rfl rfl rfl rfl rfl rfl rfl rfl rfl rfl rfl rfl rfl
  | cons b l ih =>
    unfold loadRuns
    try dsimp only
    repeat' first
      | with_reducible assumption
      | with_reducible apply ih
      | with_reducible first | apply kept_bump | apply kept_coreRead
      | with_reducible refine kept_fst (by assumption) ?_
      | with_reducible refine kept_spStore ?_ _ _ _ _ (by assumption)
      | split
      | with_reducible refine kept_mk ?_ rfl rfl rfl rfl rfl rfl rfl rfl rfl rfl rfl rfl rfl rfl rfl rfl rfl

theorem kept_ldEffect {s : State} (hk : Kept from0 s) (c : Nat) (ph : Phys) (w : Nat) :
    Kept from0 (ldEffect c ph s w).1 := by
  unfold ldEffect
  try dsimp only
  repeat' first
    | with_reducible assumption
    | with_reducible first | apply kept_takeEcc | apply kept_loadRuns
    | with_reducible refine kept_fst (by assumption) ?_
    | split
    | with_reducible refine kept_mk ?_ rfl rfl rfl rfl rfl rfl rfl rfl rfl rfl rfl rfl rfl rfl rfl rfl rfl

theorem kept_storeRuns {a6 : State} (hk : Kept from0 a6) (c : Nat) (slot : Nat) (spa : Nat) (len : Nat) (a4 : List (Int × Nat)) (a5 : Nat) :
    Kept from0 (storeRuns c slot spa len a4 a5 a6).1 := by
  induction a4 generalizing c slot spa len a5 a6 with
  | nil =>
    unfold storeRuns
    try dsimp only
    repeat' first
      | with_reducible assumption
      | with_reducible first | apply kept_bump | apply kept_devWrite
      | with_reducible refine kept_fst (by assumption) ?_
      | with_reducible refine kept_ite ?_ ?_
      | split
      | with_reducible refine kept_mk ?_ rfl rfl rfl rfl rfl rfl rfl rfl rfl rfl rfl rfl rfl rfl rfl rfl rfl
  | cons b l ih =>
    unfold storeRuns
    try dsimp only
    repeat' first
      | with_reducible assumption
      | with_reducible apply ih
      | with_reducible first | apply kept_bump | apply kept_devWrite
      | with_reducible refine kept_fst (by assumption) ?_
      | with_reducible refine kept_ite ?_ ?_
      | split
      | with_reducible refine kept_mk ?_ rfl rfl rfl rfl rfl rfl rfl rfl rfl rfl rfl rfl rfl rfl rfl rfl rfl

theorem kept_stEffect {s : State} (hk : Kept from0 s) (c : Nat) (ph : Phys) (w : Nat) :
    Kept from0 (stEffect c ph s w).1 := by
  unfold stEffect
  try dsimp only
  repeat' first
    | with_reducible assumption
    | with_reducible first | apply kept_takeEcc | apply kept_storeRuns
    | with_reducible refine kept_fst (by assumption) ?_
    | split
    | with_reducible refine kept_mk ?_ rfl rfl rfl rfl rfl rfl rfl rfl rfl rfl rfl rfl rfl rfl rfl rfl rfl

theorem kept_ldaccEffect {s : State} (hk : Kept from0 s) (c : Nat) (ph : Phys) (w : Nat) :
    Kept from0 (ldaccEffect c ph s w).1 := by
  unfold ldaccEffect
  try dsimp only
  repeat' first
    | with_reducible assumption
    | with_reducible first | apply kept_takeEcc | apply kept_coreRead | apply kept_bump | apply kept_setCore
    | with_reducible refine kept_fst (by assumption) ?_
    | with_reducible refine kept_foldl ?_ (fun _ _ _ => ?_)
    | with_reducible refine kept_foldl_pair ?_ (fun _ _ _ => ?_)
    | with_reducible refine kept_ite ?_ ?_
    | split
    | with_reducible refine kept_mk ?_ rfl rfl rfl rfl rfl rfl rfl rfl rfl rfl rfl rfl rfl rfl rfl rfl rfl

theorem kept_recRuns {a5 : State} (hk : Kept from0 a5) (c : Nat) (base : Nat) (rows : Nat) (tile : List Byte) (a4 : Nat) (a6 : Nat) (a7 : List Byte) :
    Kept from0 (recRuns c base rows tile a4 a5 a6 a7).1 := by
  induction a4 generalizing c base rows tile a5 a6 a7 with
  | zero =>
    unfold recRuns
    try dsimp only
    repeat' first
      | with_reducible assumption
      | with_reducible first | apply kept_recReq
      | with_reducible refine kept_fst (by assumption) ?_
      | split
      | with_reducible refine kept_mk ?_ rfl rfl rfl rfl rfl rfl rfl rfl rfl rfl rfl rfl rfl rfl rfl rfl rfl
  | succ n ih =>
    unfold recRuns
    try dsimp only
    repeat' first
      | with_reducible assumption
      | with_reducible apply ih
      | with_reducible first | apply kept_recReq
      | with_reducible refine kept_fst (by assumption) ?_
      | split
      | with_reducible refine kept_mk ?_ rfl rfl rfl rfl rfl rfl rfl rfl rfl rfl rfl rfl rfl rfl rfl rfl rfl

theorem kept_staccEffect {s : State} (hk : Kept from0 s) (c : Nat) (ph : Phys) (w : Nat) :
    Kept from0 (staccEffect c ph s w).1 := by
  unfold staccEffect
  try dsimp only
  repeat' first
    | with_reducible assumption
    | with_reducible first | apply kept_takeEcc | apply kept_recRuns | apply kept_bump
    | with_reducible refine kept_fst (by assumption) ?_
    | with_reducible refine kept_ite ?_ ?_
    | split
    | with_reducible refine kept_mk ?_ rfl rfl rfl rfl rfl rfl rfl rfl rfl rfl rfl rfl rfl rfl rfl rfl rfl

theorem kept_stsigEffect {s : State} (hk : Kept from0 s) (c : Nat) (ph : Phys) (w : Nat) :
    Kept from0 (stsigEffect c ph s w).1 := by
  unfold stsigEffect
  try dsimp only
  repeat' first
    | with_reducible assumption
    | with_reducible first | apply kept_takeEcc | apply kept_setCore
    | with_reducible refine kept_fst (by assumption) ?_
    | with_reducible refine kept_ite ?_ ?_
    | split
    | with_reducible refine kept_mk ?_ rfl rfl rfl rfl rfl rfl rfl rfl rfl rfl rfl rfl rfl rfl rfl rfl rfl

theorem kept_gatherRows {a7 : State} (hk : Kept from0 a7) (c : Nat) (e : MemEcc) (d : GatherD) (spa : Nat) (a4 : List Int) (a5 : Nat) (a6 : Nat) :
    Kept from0 (gatherRows c e d spa a4 a5 a6 a7).1 := by
  induction a4 generalizing c e d spa a5 a6 a7 with
  | nil =>
    unfold gatherRows
    try dsimp only
    repeat' first
      | with_reducible assumption
      | with_reducible first | apply kept_bump | apply kept_coreRead
      | with_reducible refine kept_fst (by assumption) ?_
      | with_reducible refine kept_spStore ?_ _ _ _ _ (by assumption)
      | split
      | with_reducible refine kept_mk ?_ rfl rfl rfl rfl rfl rfl rfl rfl rfl rfl rfl rfl rfl rfl rfl rfl rfl
  | cons b l ih =>
    unfold gatherRows
    try dsimp only
    repeat' first
      | with_reducible assumption
      | with_reducible apply ih
      | with_reducible first | apply kept_bump | apply kept_coreRead
      | with_reducible refine kept_fst (by assumption) ?_
      | with_reducible refine kept_spStore ?_ _ _ _ _ (by assumption)
      | split
      | with_reducible refine kept_mk ?_ rfl rfl rfl rfl rfl rfl rfl rfl rfl rfl rfl rfl rfl rfl rfl rfl rfl

theorem kept_gidxEffect {s : State} (hk : Kept from0 s) (c : Nat) (ph : Phys) (w : Nat) :
    Kept from0 (gidxEffect c ph s w).1 := by
  unfold gidxEffect
  try dsimp only
  repeat' first
    | with_reducible assumption
    | with_reducible first | apply kept_takeEcc | apply kept_gatherRows
    | with_reducible refine kept_fst (by assumption) ?_
    | split
    | with_reducible refine kept_mk ?_ rfl rfl rfl rfl rfl rfl rfl rfl rfl rfl rfl rfl rfl rfl rfl rfl rfl

theorem kept_nopEffect {s : State} (hk : Kept from0 s) (a1 : Nat) :
    Kept from0 (nopEffect s a1).1 := by
  unfold nopEffect
  try dsimp only
  repeat' first
    | with_reducible assumption

theorem kept_endEffect {s : State} (hk : Kept from0 s) (c : Nat) (k : Nat) (a3 : Nat) :
    Kept from0 (endEffect c k s a3).1 := by
  unfold endEffect
  try dsimp only
  repeat' first
    | with_reducible assumption
    | with_reducible first | apply kept_setCore
    | with_reducible refine kept_mk ?_ rfl rfl rfl rfl rfl rfl rfl rfl rfl rfl rfl rfl rfl rfl rfl rfl rfl

theorem kept_ckptEffect {s : State} (hk : Kept from0 s) (c : Nat) (k : Nat) (w : Nat) :
    Kept from0 (ckptEffect c k s w).1 := by
  unfold ckptEffect
  try dsimp only
  repeat' first
    | with_reducible assumption
    | with_reducible first | apply kept_setCore | apply kept_setRegFld
    | with_reducible refine kept_mk ?_ rfl rfl rfl rfl rfl rfl rfl rfl rfl rfl rfl rfl rfl rfl rfl rfl rfl

theorem kept_execLd {s : State} (hk : Kept from0 s) (core : Fin 96) (ph : Phys) :
    ∃ sx, execLd core ph s = .next sx ∧ Kept from0 sx := by
  unfold execLd
  try dsimp only
  repeat' first
    | with_reducible assumption
    | with_reducible refine ⟨_, rfl, ?_⟩
    | with_reducible first | apply kept_issueIf | apply kept_ldEffect
    | with_reducible refine kept_fst (by assumption) ?_
    | intro _ _ _
    | intro _ _

theorem kept_execLdacc {s : State} (hk : Kept from0 s) (core : Fin 96) (ph : Phys) :
    ∃ sx, execLdacc core ph s = .next sx ∧ Kept from0 sx := by
  unfold execLdacc
  try dsimp only
  repeat' first
    | with_reducible assumption
    | with_reducible refine ⟨_, rfl, ?_⟩
    | with_reducible first | apply kept_issueIf | apply kept_ldaccEffect
    | with_reducible refine kept_fst (by assumption) ?_
    | intro _ _ _
    | intro _ _

theorem kept_execSt {s : State} (hk : Kept from0 s) (core : Fin 96) (ph : Phys) :
    ∃ sx, execSt core ph s = .next sx ∧ Kept from0 sx := by
  unfold execSt
  try dsimp only
  repeat' first
    | with_reducible assumption
    | with_reducible refine ⟨_, rfl, ?_⟩
    | with_reducible first | apply kept_orWait | apply kept_issueIf | apply kept_stEffect
    | with_reducible refine kept_fst (by assumption) ?_
    | intro _ _ _
    | intro _ _

theorem kept_execStacc {s : State} (hk : Kept from0 s) (core : Fin 96) (ph : Phys) :
    ∃ sx, execStacc core ph s = .next sx ∧ Kept from0 sx := by
  unfold execStacc
  try dsimp only
  repeat' first
    | with_reducible assumption
    | with_reducible refine ⟨_, rfl, ?_⟩
    | with_reducible first | apply kept_orWait | apply kept_issueIf | apply kept_staccEffect
    | with_reducible refine kept_fst (by assumption) ?_
    | intro _ _ _
    | intro _ _

theorem kept_execStsig {s : State} (hk : Kept from0 s) (core : Fin 96) (ph : Phys) :
    ∃ sx, execStsig core ph s = .next sx ∧ Kept from0 sx := by
  unfold execStsig
  try dsimp only
  repeat' first
    | with_reducible assumption
    | with_reducible refine ⟨_, rfl, ?_⟩
    | with_reducible first | apply kept_issueIf | apply kept_stsigEffect
    | with_reducible refine kept_fst (by assumption) ?_
    | intro _ _ _
    | intro _ _

theorem kept_execGidx {s : State} (hk : Kept from0 s) (core : Fin 96) (ph : Phys) :
    ∃ sx, execGidx core ph s = .next sx ∧ Kept from0 sx := by
  unfold execGidx
  try dsimp only
  repeat' first
    | with_reducible assumption
    | with_reducible refine ⟨_, rfl, ?_⟩
    | with_reducible first | apply kept_issueIf | apply kept_gidxEffect
    | with_reducible refine kept_fst (by assumption) ?_
    | intro _ _ _
    | intro _ _

theorem kept_execNop {s : State} (hk : Kept from0 s) (core : Fin 96) (stream : Fin 5) :
    ∃ sx, execNop core stream s = .next sx ∧ Kept from0 sx := by
  unfold execNop
  try dsimp only
  repeat' first
    | with_reducible assumption
    | with_reducible refine ⟨_, rfl, ?_⟩
    | with_reducible first | apply kept_issueIf | apply kept_nopEffect
    | with_reducible refine kept_fst (by assumption) ?_
    | intro _ _ _
    | intro _ _

theorem kept_execEndStream {s : State} (hk : Kept from0 s) (core : Fin 96) (stream : Fin 5) :
    ∃ sx, execEndStream core stream s = .next sx ∧ Kept from0 sx := by
  unfold execEndStream
  try dsimp only
  repeat' first
    | with_reducible assumption
    | with_reducible refine ⟨_, rfl, ?_⟩
    | with_reducible first | apply kept_issueIf | apply kept_endEffect
    | with_reducible refine kept_fst (by assumption) ?_
    | intro _ _ _
    | intro _ _

theorem kept_execCkpt {s : State} (hk : Kept from0 s) (core : Fin 96) (stream : Fin 5) :
    ∃ sx, execCkpt core stream s = .next sx ∧ Kept from0 sx := by
  unfold execCkpt
  try dsimp only
  repeat' first
    | with_reducible assumption
    | with_reducible refine ⟨_, rfl, ?_⟩
    | with_reducible first | apply kept_issueIf | apply kept_ckptEffect
    | with_reducible refine kept_fst (by assumption) ?_
    | intro _ _ _
    | intro _ _

theorem kept_execFence {s : State} (hk : Kept from0 s) (core : Fin 96) (stream : Fin 5) :
    ∃ sx, execFence core stream s = .next sx ∧ Kept from0 sx := by
  unfold execFence
  try dsimp only
  repeat' first
    | with_reducible assumption
    | with_reducible refine ⟨_, rfl, ?_⟩
    | with_reducible first | apply kept_issueIf | apply kept_nopEffect
    | with_reducible refine kept_fst (by assumption) ?_
    | intro _ _ _
    | intro _ _

/-! ### Machine/Cullet.lean -/

theorem kept_setLc {s : State} (hk : Kept from0 s) (k : Nat) (i : Nat) (v : Nat) :
    Kept from0 (setLc s k i v) := by
  unfold setLc
  try dsimp only
  repeat' first
    | with_reducible assumption
    | with_reducible first | apply kept_setRegFld

theorem kept_setLr {s : State} (hk : Kept from0 s) (k : Nat) (i : Nat) (v : Nat) :
    Kept from0 (setLr s k i v) := by
  unfold setLr
  try dsimp only
  repeat' first
    | with_reducible assumption
    | with_reducible first | apply kept_setRegFld

theorem kept_setRecs {s : State} (hk : Kept from0 s) (k : Nat) (i : Nat) (rs : List KvRec) :
    Kept from0 (setRecs s k i rs) := by
  unfold setRecs
  try dsimp only
  repeat' first
    | with_reducible assumption
    | with_reducible first | apply kept_setCull
    | with_reducible refine kept_mk ?_ rfl rfl rfl rfl rfl rfl rfl rfl rfl rfl rfl rfl rfl rfl rfl rfl rfl

theorem kept_setPte {s : State} (hk : Kept from0 s) (k : Nat) (i : Nat) (p : Nat) (e : BitVec 32) :
    Kept from0 (setPte s k i p e) := by
  unfold setPte
  try dsimp only
  repeat' first
    | with_reducible assumption
    | with_reducible first | apply kept_setCull
    | with_reducible refine kept_mk ?_ rfl rfl rfl rfl rfl rfl rfl rfl rfl rfl rfl rfl rfl rfl rfl rfl rfl

theorem kept_syncSeq {s : State} (hk : Kept from0 s) (k : Nat) (i : Nat) :
    Kept from0 (syncSeq s k i) := by
  unfold syncSeq
  try dsimp only
  repeat' first
    | with_reducible assumption
    | with_reducible first | apply kept_setReg
    | with_reducible refine kept_ite ?_ ?_
    | split
    | with_reducible refine kept_mk ?_ rfl rfl rfl rfl rfl rfl rfl rfl rfl rfl rfl rfl rfl rfl rfl rfl rfl

theorem kept_syncPool {s : State} (hk : Kept from0 s) (k : Nat) :
    Kept from0 (syncPool s k) := by
  unfold syncPool
  try dsimp only
  repeat' first
    | with_reducible assumption
    | with_reducible first | apply kept_setRegFld | apply kept_setRegBit
    | with_reducible refine kept_foldl ?_ (fun _ _ _ => ?_)
    | with_reducible refine kept_foldl_pair ?_ (fun _ _ _ => ?_)
    | split
    | with_reducible refine kept_mk ?_ rfl rfl rfl rfl rfl rfl rfl rfl rfl rfl rfl rfl rfl rfl rfl rfl rfl

theorem kept_drawPages {a3 : State} (hk : Kept from0 a3) (k : Nat) (i : Nat) (spec : Bool) (a4 : Nat) (a5 : List Nat) :
    Kept from0 (drawPages k i spec a3 a4 a5) := by
  induction a5 generalizing k i spec a3 a4 with
  | nil =>
    unfold drawPages
    try dsimp only
    repeat' first
      | with_reducible assumption
      | with_reducible first | apply kept_setCull | apply kept_setPte
      | with_reducible refine kept_ite ?_ ?_
      | split
      | with_reducible refine kept_mk ?_ rfl rfl rfl rfl rfl rfl rfl rfl rfl rfl rfl rfl rfl rfl rfl rfl rfl
  | cons b l ih =>
    unfold drawPages
    try dsimp only
    repeat' first
      | with_reducible assumption
      | with_reducible apply ih
      | with_reducible first | apply kept_setCull | apply kept_setPte
      | with_reducible refine kept_ite ?_ ?_
      | split
      | with_reducible refine kept_mk ?_ rfl rfl rfl rfl rfl rfl rfl rfl rfl rfl rfl rfl rfl rfl rfl rfl rfl

theorem kept_refused {s : State} (hk : Kept from0 s) (k : Nat) :
    Kept from0 (refused s k) := by
  unfold refused
  try dsimp only
  repeat' first
    | with_reducible assumption
    | with_reducible first | apply kept_bump

theorem kept_markPages {s : State} (hk : Kept from0 s) (k : Nat) (i : Nat) (r : KvRec) (bit : Nat) (b : Bool) :
    Kept from0 (markPages s k i r bit b) := by
  unfold markPages
  try dsimp only
  repeat' first
    | with_reducible assumption
    | with_reducible first | apply kept_setPte
    | with_reducible refine kept_foldl ?_ (fun _ _ _ => ?_)
    | with_reducible refine kept_foldl_pair ?_ (fun _ _ _ => ?_)
    | with_reducible refine kept_ite ?_ ?_
    | split

theorem kept_specRecs {s : State} (hk : Kept from0 s) (k : Nat) (i : Nat) (owner : Nat) :
    Kept from0 (specRecs s k i owner) := by
  unfold specRecs
  try dsimp only
  repeat' first
    | with_reducible assumption
    | with_reducible first | apply kept_markPages | apply kept_syncSeq | apply kept_setRecs
    | with_reducible refine kept_foldl ?_ (fun _ _ _ => ?_)
    | with_reducible refine kept_foldl_pair ?_ (fun _ _ _ => ?_)
    | with_reducible refine kept_ite ?_ ?_
    | split
    | with_reducible refine kept_mk ?_ rfl rfl rfl rfl rfl rfl rfl rfl rfl rfl rfl rfl rfl rfl rfl rfl rfl

theorem kept_syncSpec {s : State} (hk : Kept from0 s) (key : Nat) :
    Kept from0 (syncSpec s key) := by
  unfold syncSpec
  try dsimp only
  repeat' first
    | with_reducible assumption
    | with_reducible first | apply kept_mapCmd | apply kept_setRegBit | apply kept_specRecs
    | with_reducible refine kept_foldl ?_ (fun _ _ _ => ?_)
    | with_reducible refine kept_foldl_pair ?_ (fun _ _ _ => ?_)
    | with_reducible refine kept_ite ?_ ?_
    | split
    | with_reducible refine kept_mk ?_ rfl rfl rfl rfl rfl rfl rfl rfl rfl rfl rfl rfl rfl rfl rfl rfl rfl

theorem kept_notice {s : State} (hk : Kept from0 s) (reader : Nat) (handle : Nat) (hi : Nat) (r : KvRec) :
    Kept from0 (notice reader handle hi s r) := by
  unfold notice
  try dsimp only
  repeat' first
    | with_reducible assumption
    | with_reducible first | apply kept_bump | apply kept_mapCmd | apply kept_specRecs | apply kept_syncSpec
    | with_reducible refine kept_foldl ?_ (fun _ _ _ => ?_)
    | with_reducible refine kept_foldl_pair ?_ (fun _ _ _ => ?_)
    | with_reducible refine kept_ite ?_ ?_
    | split
    | with_reducible refine kept_mk ?_ rfl rfl rfl rfl rfl rfl rfl rfl rfl rfl rfl rfl rfl rfl rfl rfl rfl

theorem kept_notices {s : State} (hk : Kept from0 s) (reader : Nat) (handle : Nat) (lo : Nat) (hi : Nat) :
    Kept from0 (notices reader handle lo hi s) := by
  unfold notices
  try dsimp only
  repeat' first
    | with_reducible assumption
    | with_reducible first | apply kept_notice
    | with_reducible refine kept_foldl ?_ (fun _ _ _ => ?_)
    | with_reducible refine kept_foldl_pair ?_ (fun _ _ _ => ?_)

theorem kept_reserve {s : State} (hk : Kept from0 s) (handle : Nat) (part : Nat) (owner : Nat) (count : Nat) (draft : Bool) (spec : Bool) :
    ∀ sx, reserve s handle part owner count draft spec = .ok sx → Kept from0 sx.1 := by
  unfold reserve
  intro sx hx
  revert hx
  try dsimp only
  repeat' first
    | with_reducible assumption
    | with_reducible first | apply kept_drawPages | apply kept_setRecs | apply kept_syncPool | apply kept_syncSeq | apply kept_setLr
    | (intro hx; cases hx)
    | with_reducible refine kept_fst (by assumption) ?_
    | with_reducible refine kept_ite ?_ ?_
    | split
    | with_reducible refine kept_mk ?_ rfl rfl rfl rfl rfl rfl rfl rfl rfl rfl rfl rfl rfl rfl rfl rfl rfl

theorem kept_releaseReaders {s : State} (hk : Kept from0 s) (id : Nat) :
    Kept from0 (releaseReaders s id) := by
  unfold releaseReaders
  try dsimp only
  repeat' first
    | with_reducible assumption
    | with_reducible first | apply kept_syncSpec
    | with_reducible refine kept_foldl ?_ (fun _ _ _ => ?_)
    | with_reducible refine kept_foldl_pair ?_ (fun _ _ _ => ?_)
    | with_reducible refine kept_mk ?_ rfl rfl rfl rfl rfl rfl rfl rfl rfl rfl rfl rfl rfl rfl rfl rfl rfl

theorem kept_mergeReady {a3 : State} (hk : Kept from0 a3) (k : Nat) (i : Nat) (a2 : Nat) :
    Kept from0 (mergeReady k i a2 a3) := by
  induction a2 generalizing k i a3 with
  | zero =>
    unfold mergeReady
    try dsimp only
    repeat' first
      | with_reducible assumption
      | with_reducible first | apply kept_setLc | apply kept_setRecs | apply kept_markPages | apply kept_releaseReaders
      | with_reducible refine kept_ite ?_ ?_
      | split
      | with_reducible refine kept_mk ?_ rfl rfl rfl rfl rfl rfl rfl rfl rfl rfl rfl rfl rfl rfl rfl rfl rfl
  | succ n ih =>
    unfold mergeReady
    try dsimp only
    repeat' first
      | with_reducible assumption
      | with_reducible apply ih
      | with_reducible first | apply kept_setLc | apply kept_setRecs | apply kept_markPages | apply kept_releaseReaders
      | with_reducible refine kept_ite ?_ ?_
      | split
      | with_reducible refine kept_mk ?_ rfl rfl rfl rfl rfl rfl rfl rfl rfl rfl rfl rfl rfl rfl rfl rfl rfl

theorem kept_dropPages {s : State} (hk : Kept from0 s) (k : Nat) (i : Nat) (len : Nat) (owners : List Nat) :
    Kept from0 (dropPages s k i len owners).1 := by
  unfold dropPages
  try dsimp only
  repeat' first
    | with_reducible assumption
    | with_reducible first | apply kept_setPte | apply kept_setCull
    | with_reducible refine kept_foldl ?_ (fun _ _ _ => ?_)
    | with_reducible refine kept_foldl_pair ?_ (fun _ _ _ => ?_)
    | with_reducible refine kept_mk ?_ rfl rfl rfl rfl rfl rfl rfl rfl rfl rfl rfl rfl rfl rfl rfl rfl rfl

theorem kept_rollbackFrom {s : State} (hk : Kept from0 s) (k : Nat) (i : Nat) (p0 : Nat) (owners : List Nat) :
    Kept from0 (rollbackFrom s k i p0 owners) := by
  unfold rollbackFrom
  try dsimp only
  repeat' first
    | with_reducible assumption
    | with_reducible first | apply kept_dropPages | apply kept_setLr | apply kept_setRecs | apply kept_syncPool | apply kept_syncSeq | apply kept_bump
    | with_reducible refine kept_fst (by assumption) ?_
    | with_reducible refine kept_ite ?_ ?_
    | split
    | with_reducible refine kept_mk ?_ rfl rfl rfl rfl rfl rfl rfl rfl rfl rfl rfl rfl rfl rfl rfl rfl rfl

theorem kept_rollbackCmd {s : State} (hk : Kept from0 s) (owner : Nat) :
    Kept from0 (rollbackCmd s owner) := by
  unfold rollbackCmd
  try dsimp only
  repeat' first
    | with_reducible assumption
    | with_reducible first | apply kept_rollbackFrom
    | with_reducible refine kept_foldl ?_ (fun _ _ _ => ?_)
    | with_reducible refine kept_foldl_pair ?_ (fun _ _ _ => ?_)
    | split
    | with_reducible refine kept_mk ?_ rfl rfl rfl rfl rfl rfl rfl rfl rfl rfl rfl rfl rfl rfl rfl rfl rfl

theorem kept_commitRecords {s : State} (hk : Kept from0 s) (owner : Nat) :
    Kept from0 (commitRecords s owner) := by
  unfold commitRecords
  try dsimp only
  repeat' first
    | with_reducible assumption
    | with_reducible first | apply kept_syncSeq | apply kept_mergeReady | apply kept_setRecs
    | with_reducible refine kept_foldl ?_ (fun _ _ _ => ?_)
    | with_reducible refine kept_foldl_pair ?_ (fun _ _ _ => ?_)
    | with_reducible refine kept_ite ?_ ?_
    | split
    | with_reducible refine kept_mk ?_ rfl rfl rfl rfl rfl rfl rfl rfl rfl rfl rfl rfl rfl rfl rfl rfl rfl

theorem kept_resolveAt {s : State} (hk : Kept from0 s) (handle : Nat) (key : Nat) (a : Nat) :
    Kept from0 (resolveAt s handle key a).1 := by
  unfold resolveAt
  try dsimp only
  repeat' first
    | with_reducible assumption
    | with_reducible first | apply kept_rollbackFrom | apply kept_setRecs | apply kept_mapCmd | apply kept_syncSeq
    | with_reducible refine kept_ite ?_ ?_
    | split
    | with_reducible refine kept_mk ?_ rfl rfl rfl rfl rfl rfl rfl rfl rfl rfl rfl rfl rfl rfl rfl rfl rfl

theorem kept_unresolve {s : State} (hk : Kept from0 s) (key : Nat) :
    Kept from0 (unresolve s key) := by
  unfold unresolve
  try dsimp only
  repeat' first
    | with_reducible assumption
    | with_reducible first | apply kept_setRecs
    | with_reducible refine kept_foldl ?_ (fun _ _ _ => ?_)
    | with_reducible refine kept_foldl_pair ?_ (fun _ _ _ => ?_)
    | with_reducible refine kept_mk ?_ rfl rfl rfl rfl rfl rfl rfl rfl rfl rfl rfl rfl rfl rfl rfl rfl rfl

theorem kept_pageRows {a10 : State} (hk : Kept from0 a10) (c : Nat) (k : Nat) (i : Nat) (e : MemEcc) (g : Geometry) (blk : Nat) (lr : Nat) (a7 : Nat) (a8 : Nat) (a9 : List (List Byte)) :
    Kept from0 (pageRows c k i e g blk lr a7 a8 a9 a10).1 := by
  induction a7 generalizing c k i e g blk lr a8 a9 a10 with
  | zero =>
    unfold pageRows
    try dsimp only
    repeat' first
      | with_reducible assumption
      | with_reducible first | apply kept_bump | apply kept_coreRead
      | with_reducible refine kept_fst (by assumption) ?_
      | with_reducible refine kept_ite ?_ ?_
      | split
      | with_reducible refine kept_mk ?_ rfl rfl rfl rfl rfl rfl rfl rfl rfl rfl rfl rfl rfl rfl rfl rfl rfl
  | succ n ih =>
    unfold pageRows
    try dsimp only
    repeat' first
      | with_reducible assumption
      | with_reducible apply ih
      | with_reducible first | apply kept_bump | apply kept_coreRead
      | with_reducible refine kept_fst (by assumption) ?_
      | with_reducible refine kept_ite ?_ ?_
      | split
      | with_reducible refine kept_mk ?_ rfl rfl rfl rfl rfl rfl rfl rfl rfl rfl rfl rfl rfl rfl rfl rfl rfl

theorem kept_storeRows {a5 : State} (hk : Kept from0 a5) (c : Nat) (spa : Nat) (pitch : Nat) (a3 : List (List Byte)) (a4 : Nat) :
    Kept from0 (storeRows c spa pitch a3 a4 a5).1 := by
  induction a3 generalizing c spa pitch a4 a5 with
  | nil =>
    unfold storeRows
    try dsimp only
    repeat' first
      | with_reducible assumption
      | with_reducible refine kept_spStore ?_ _ _ _ _ (by assumption)
      | split
      | with_reducible refine kept_mk ?_ rfl rfl rfl rfl rfl rfl rfl rfl rfl rfl rfl rfl rfl rfl rfl rfl rfl
  | cons b l ih =>
    unfold storeRows
    try dsimp only
    repeat' first
      | with_reducible assumption
      | with_reducible apply ih
      | with_reducible refine kept_spStore ?_ _ _ _ _ (by assumption)
      | split
      | with_reducible refine kept_mk ?_ rfl rfl rfl rfl rfl rfl rfl rfl rfl rfl rfl rfl rfl rfl rfl rfl rfl

theorem kept_gpageEffect {s0 : State} (hk : Kept from0 s0) (c : Nat) (ph : Phys) (w : Nat) :
    Kept from0 (gpageEffect c ph s0 w).1 := by
  unfold gpageEffect
  try dsimp only
  repeat' first
    | with_reducible assumption
    | with_reducible first | apply kept_takeEcc | apply kept_refused | apply kept_notices | apply kept_bump | apply kept_pageRows
    | with_reducible first | apply kept_storeRows
    | with_reducible refine kept_fst (by assumption) ?_
    | with_reducible refine kept_ite ?_ ?_
    | split
    | with_reducible refine kept_mk ?_ rfl rfl rfl rfl rfl rfl rfl rfl rfl rfl rfl rfl rfl rfl rfl rfl rfl

theorem kept_execGpage {s : State} (hk : Kept from0 s) (core : Fin 96) (ph : Phys) :
    ∃ sx, execGpage core ph s = .next sx ∧ Kept from0 sx := by
  unfold execGpage
  try dsimp only
  repeat' first
    | with_reducible assumption
    | with_reducible refine ⟨_, rfl, ?_⟩
    | with_reducible first | apply kept_issueIf | apply kept_gpageEffect
    | with_reducible refine kept_fst (by assumption) ?_
    | intro _ _ _
    | intro _ _

/-! ### Machine/Frame.lean -/

theorem kept_recordLocked {s : State} (hk : Kept from0 s) (who : Ident) (off : Nat) :
    Kept from0 (recordLocked s who off) := by
  unfold recordLocked
  try dsimp only
  repeat' first
    | with_reducible assumption
    | with_reducible first | apply kept_bump | apply kept_setReg | apply kept_logCfg

theorem kept_syncPend {s : State} (hk : Kept from0 s) :
    Kept from0 (State.syncPend s) := by
  unfold State.syncPend
  try dsimp only
  repeat' first
    | with_reducible assumption
    | with_reducible first | apply kept_setRegBit

theorem kept_enableTimer {s : State} (hk : Kept from0 s) :
    Kept from0 (enableTimer s) := by
  unfold enableTimer
  try dsimp only
  repeat' first
    | with_reducible assumption
    | with_reducible first | apply kept_setRegBit
    | with_reducible refine kept_ite ?_ ?_
    | split
    | with_reducible refine kept_mk ?_ rfl rfl rfl rfl rfl rfl rfl rfl rfl rfl rfl rfl rfl rfl rfl rfl rfl

theorem kept_disableTimer {s : State} (hk : Kept from0 s) :
    Kept from0 (disableTimer s) := by
  unfold disableTimer
  try dsimp only
  repeat' first
    | with_reducible assumption
    | with_reducible first | apply kept_setRegBit

theorem kept_badPeriod {s : State} (hk : Kept from0 s) (v : Nat) :
    Kept from0 (badPeriod s v) := by
  unfold badPeriod
  try dsimp only
  repeat' first
    | with_reducible assumption
    | with_reducible first | apply kept_setRegBit
    | with_reducible refine kept_ite ?_ ?_
    | split

theorem kept_writePeriod {s : State} (hk : Kept from0 s) (v : Nat) :
    Kept from0 (writePeriod s v) := by
  unfold writePeriod
  try dsimp only
  repeat' first
    | with_reducible assumption
    | with_reducible first | apply kept_setRegBit | apply kept_syncPend | apply kept_setReg
    | with_reducible refine kept_ite ?_ ?_
    | split
    | with_reducible refine kept_mk ?_ rfl rfl rfl rfl rfl rfl rfl rfl rfl rfl rfl rfl rfl rfl rfl rfl rfl

theorem kept_writePhase {s : State} (hk : Kept from0 s) (v : Nat) :
    Kept from0 (writePhase s v) := by
  unfold writePhase
  try dsimp only
  repeat' first
    | with_reducible assumption
    | with_reducible first | apply kept_syncPend | apply kept_setReg
    | with_reducible refine kept_ite ?_ ?_
    | split
    | with_reducible refine kept_mk ?_ rfl rfl rfl rfl rfl rfl rfl rfl rfl rfl rfl rfl rfl rfl rfl rfl rfl

theorem kept_applyPending {s : State} (hk : Kept from0 s) :
    Kept from0 (applyPending s) := by
  unfold applyPending
  try dsimp only
  repeat' first
    | with_reducible assumption
    | with_reducible first | apply kept_setReg | apply kept_syncPend
    | split
    | with_reducible refine kept_mk ?_ rfl rfl rfl rfl rfl rfl rfl rfl rfl rfl rfl rfl rfl rfl rfl rfl rfl

theorem kept_timerBoundary {s : State} (hk : Kept from0 s) (b : Nat) :
    Kept from0 (timerBoundary s b) := by
  unfold timerBoundary
  try dsimp only
  repeat' first
    | with_reducible assumption
    | with_reducible first | apply kept_at | apply kept_setReg | apply kept_applyPending
    | with_reducible refine kept_ite ?_ ?_
    | split
    | with_reducible refine kept_mk ?_ rfl rfl rfl rfl rfl rfl rfl rfl rfl rfl rfl rfl rfl rfl rfl rfl rfl

theorem kept_execFrameTimerEnable {s : State} (hk : Kept from0 s) (who : Ident) (t : Nat) :
    ∃ sx, execFrameTimerEnable who t s = .next sx ∧ Kept from0 sx := by
  unfold execFrameTimerEnable
  try dsimp only
  repeat' first
    | with_reducible assumption
    | with_reducible refine ⟨_, rfl, ?_⟩
    | with_reducible first | apply kept_at | apply kept_recordLocked | apply kept_enableTimer
    | with_reducible refine kept_ite ?_ ?_
    | split

theorem kept_execFrameTimerDisable {s : State} (hk : Kept from0 s) (who : Ident) :
    ∃ sx, execFrameTimerDisable who s = .next sx ∧ Kept from0 sx := by
  unfold execFrameTimerDisable
  try dsimp only
  repeat' first
    | with_reducible assumption
    | with_reducible refine ⟨_, rfl, ?_⟩
    | with_reducible first | apply kept_recordLocked | apply kept_disableTimer
    | with_reducible refine kept_ite ?_ ?_
    | split

theorem kept_execFrmperWrite {s : State} (hk : Kept from0 s) (who : Ident) (v : BitVec 32) :
    ∃ sx, execFrmperWrite who v s = .next sx ∧ Kept from0 sx := by
  unfold execFrmperWrite
  try dsimp only
  repeat' first
    | with_reducible assumption
    | with_reducible refine ⟨_, rfl, ?_⟩
    | with_reducible first | apply kept_badPeriod | apply kept_recordLocked | apply kept_writePeriod
    | with_reducible refine kept_ite ?_ ?_
    | split

theorem kept_execFrmphaseWrite {s : State} (hk : Kept from0 s) (who : Ident) (v : BitVec 64) :
    ∃ sx, execFrmphaseWrite who v s = .next sx ∧ Kept from0 sx := by
  unfold execFrmphaseWrite
  try dsimp only
  repeat' first
    | with_reducible assumption
    | with_reducible refine ⟨_, rfl, ?_⟩
    | with_reducible first | apply kept_recordLocked | apply kept_writePhase
    | with_reducible refine kept_ite ?_ ?_
    | split

theorem kept_execFrmcntWrite {s : State} (hk : Kept from0 s) (who : Ident) (v : BitVec 32) :
    ∃ sx, execFrmcntWrite who v s = .next sx ∧ Kept from0 sx := by
  unfold execFrmcntWrite
  try dsimp only
  repeat' first
    | with_reducible assumption
    | with_reducible refine ⟨_, rfl, ?_⟩
    | with_reducible first | apply kept_setReg | apply kept_setRegBit
    | with_reducible refine kept_ite ?_ ?_
    | split

/-! ### Machine/CulletPort.lean -/

theorem kept_walkAt {s : State} (hk : Kept from0 s) (handle : Nat) (part : Nat) (reader : Nat) (lo : Nat) (n : Nat) (pad : Bool) :
    Kept from0 (walkAt s handle part reader lo n pad).1 := by
  unfold walkAt
  try dsimp only
  repeat' first
    | with_reducible assumption
    | with_reducible first | apply kept_refused | apply kept_notices | apply kept_bump
    | with_reducible refine kept_ite ?_ ?_
    | split
    | with_reducible refine kept_mk ?_ rfl rfl rfl rfl rfl rfl rfl rfl rfl rfl rfl rfl rfl rfl rfl rfl rfl

theorem kept_walkAnswer {s : State} (hk : Kept from0 s) (c : Nat) (handle : Nat) (pos : Nat) (npos : Nat) (pad : Bool) :
    Kept from0 (walkAnswer s c handle pos npos pad).1 := by
  unfold walkAnswer
  try dsimp only
  repeat' first
    | with_reducible assumption
    | with_reducible first | apply kept_poisonAt | apply kept_walkAt
    | with_reducible refine kept_fst (by assumption) ?_
    | with_reducible refine kept_ite ?_ ?_
    | split
    | with_reducible refine kept_mk ?_ rfl rfl rfl rfl rfl rfl rfl rfl rfl rfl rfl rfl rfl rfl rfl rfl rfl

theorem kept_execWalk {s : State} (hk : Kept from0 s) (core : Fin 96) (tag : BitVec 12) (handle : BitVec 10) (pos : BitVec 16) (npos : BitVec 9) (pad : Bool) :
    ∃ sx, execWalk core tag handle pos npos pad s = .next sx ∧ Kept from0 sx := by
  unfold execWalk
  try dsimp only
  repeat' first
    | with_reducible assumption
    | with_reducible refine ⟨_, rfl, ?_⟩
    | with_reducible first | apply kept_walkAnswer | apply kept_pushTrack
    | with_reducible refine kept_fst (by assumption) ?_
    | with_reducible refine kept_ite ?_ ?_
    | split

theorem kept_execWalkrsp {s : State} (hk : Kept from0 s) (core : Fin 96) (tag : BitVec 12) :
    ∃ sx, execWalkrsp core tag s = .next sx ∧ Kept from0 sx := by
  unfold execWalkrsp
  try dsimp only
  repeat' first
    | with_reducible assumption
    | with_reducible refine ⟨_, rfl, ?_⟩
    | with_reducible first | apply kept_answer

theorem kept_execPageReturn {s : State} (hk : Kept from0 s) (cruc : Fin 4) :
    ∃ sx, execPageReturn cruc s = .next sx ∧ Kept from0 sx := by
  unfold execPageReturn
  try dsimp only
  repeat' first
    | with_reducible assumption
    | with_reducible refine ⟨_, rfl, ?_⟩
    | with_reducible first | apply kept_syncPool | apply kept_setCull
    | with_reducible refine kept_ite ?_ ?_
    | split
    | with_reducible refine kept_mk ?_ rfl rfl rfl rfl rfl rfl rfl rfl rfl rfl rfl rfl rfl rfl rfl rfl rfl

theorem kept_scrubPage {s : State} (hk : Kept from0 s) (k : Nat) (page : Nat) :
    Kept from0 (scrubPage s k page).1 := by
  unfold scrubPage
  try dsimp only
  repeat' first
    | with_reducible assumption
    | with_reducible first | apply kept_devWrite
    | with_reducible refine kept_fst (by assumption) ?_

theorem kept_execPoolPageScrubbed {s : State} (hk : Kept from0 s) (cruc : Fin 4) (page : BitVec 20) :
    ∃ sx, execPoolPageScrubbed cruc page s = .next sx ∧ Kept from0 sx := by
  unfold execPoolPageScrubbed
  try dsimp only
  repeat' first
    | with_reducible assumption
    | with_reducible refine ⟨_, rfl, ?_⟩
    | with_reducible first | apply kept_scrubPage | apply kept_syncPool | apply kept_setCull
    | with_reducible refine kept_fst (by assumption) ?_
    | with_reducible refine kept_ite ?_ ?_
    | split
    | with_reducible refine kept_mk ?_ rfl rfl rfl rfl rfl rfl rfl rfl rfl rfl rfl rfl rfl rfl rfl rfl rfl

theorem kept_execPageTableUncorrectable {s : State} (hk : Kept from0 s) (cruc : Fin 4) (sq : Fin 256) :
    ∃ sx, execPageTableUncorrectable cruc sq s = .next sx ∧ Kept from0 sx := by
  unfold execPageTableUncorrectable
  try dsimp only
  repeat' first
    | with_reducible assumption
    | with_reducible refine ⟨_, rfl, ?_⟩
    | with_reducible first | apply kept_setRegBit | apply kept_raise
    | with_reducible refine kept_ite ?_ ?_
    | split

theorem kept_opCreate {s : State} (hk : Kept from0 s) (k : Nat) (part : Nat) :
    Kept from0 (opCreate s k part).1 := by
  unfold opCreate
  try dsimp only
  repeat' first
    | with_reducible assumption
    | with_reducible first | apply kept_setReg | apply kept_syncPool | apply kept_syncSeq
    | with_reducible refine kept_ite ?_ ?_
    | split
    | with_reducible refine kept_mk ?_ rfl rfl rfl rfl rfl rfl rfl rfl rfl rfl rfl rfl rfl rfl rfl rfl rfl

theorem kept_freeSeq {s : State} (hk : Kept from0 s) (k : Nat) (i : Nat) :
    Kept from0 (freeSeq s k i) := by
  unfold freeSeq
  try dsimp only
  repeat' first
    | with_reducible assumption
    | with_reducible first | apply kept_dropPages | apply kept_setRecs | apply kept_setReg | apply kept_syncPool | apply kept_syncSeq
    | with_reducible refine kept_fst (by assumption) ?_

theorem kept_opFree {s : State} (hk : Kept from0 s) (k : Nat) (i : Nat) (part : Nat) :
    Kept from0 (opFree s k i part).1 := by
  unfold opFree
  try dsimp only
  repeat' first
    | with_reducible assumption
    | with_reducible first | apply kept_freeSeq
    | with_reducible refine kept_ite ?_ ?_
    | split

theorem kept_opTruncate {s : State} (hk : Kept from0 s) (k : Nat) (i : Nat) (part : Nat) (arg : Nat) :
    Kept from0 (opTruncate s k i part arg).1 := by
  unfold opTruncate
  try dsimp only
  repeat' first
    | with_reducible assumption
    | with_reducible first | apply kept_dropPages | apply kept_syncPool | apply kept_syncSeq | apply kept_setLr | apply kept_setLc
    | with_reducible refine kept_fst (by assumption) ?_
    | with_reducible refine kept_ite ?_ ?_
    | split
    | with_reducible refine kept_mk ?_ rfl rfl rfl rfl rfl rfl rfl rfl rfl rfl rfl rfl rfl rfl rfl rfl rfl

theorem kept_opSetseg {s : State} (hk : Kept from0 s) (k : Nat) (i : Nat) (part : Nat) :
    Kept from0 (opSetseg s k i part).1 := by
  unfold opSetseg
  try dsimp only
  repeat' first
    | with_reducible assumption
    | with_reducible first | apply kept_setReg
    | with_reducible refine kept_ite ?_ ?_
    | split
    | with_reducible refine kept_mk ?_ rfl rfl rfl rfl rfl rfl rfl rfl rfl rfl rfl rfl rfl rfl rfl rfl rfl

theorem kept_opLoadbias {s : State} (hk : Kept from0 s) (k : Nat) (arg : Nat) (ecc : MemEcc) :
    Kept from0 (opLoadbias s k arg ecc).1 := by
  unfold opLoadbias
  try dsimp only
  repeat' first
    | with_reducible assumption
    | with_reducible first | apply kept_devRead | apply kept_setRegBit | apply kept_setCull
    | with_reducible refine kept_fst (by assumption) ?_
    | with_reducible refine kept_foldl ?_ (fun _ _ _ => ?_)
    | with_reducible refine kept_foldl_pair ?_ (fun _ _ _ => ?_)
    | with_reducible refine kept_ite ?_ ?_
    | split
    | with_reducible refine kept_mk ?_ rfl rfl rfl rfl rfl rfl rfl rfl rfl rfl rfl rfl rfl rfl rfl rfl rfl

theorem kept_opCode {s : State} (hk : Kept from0 s) (k : Nat) (code : Nat) (result : Nat) :
    Kept from0 (opCode s k code result) := by
  unfold opCode
  try dsimp only
  repeat' first
    | with_reducible assumption
    | with_reducible first | apply kept_setReg
    | with_reducible refine kept_ite ?_ ?_
    | split

theorem kept_opDone {s : State} (hk : Kept from0 s) (k : Nat) (code : Nat) (result : Nat) :
    Kept from0 (opDone s k code result) := by
  unfold opDone
  try dsimp only
  repeat' first
    | with_reducible assumption
    | with_reducible first | apply kept_opCode | apply kept_refused
    | with_reducible refine kept_ite ?_ ?_
    | split

theorem kept_portRefused {s : State} (hk : Kept from0 s) (k : Nat) :
    Kept from0 (portRefused s k) := by
  unfold portRefused
  try dsimp only
  repeat' first
    | with_reducible assumption
    | with_reducible first | apply kept_setRegBit

theorem kept_portBusy {s : State} (hk : Kept from0 s) (k : Nat) (bound : Nat) :
    Kept from0 (portBusy s k bound) := by
  unfold portBusy
  try dsimp only
  repeat' first
    | with_reducible assumption
    | with_reducible first | apply kept_setCull
    | with_reducible refine kept_mk ?_ rfl rfl rfl rfl rfl rfl rfl rfl rfl rfl rfl rfl rfl rfl rfl rfl rfl

theorem kept_onPort {s : State} {op : State} (hk : Kept from0 s) (hk1 : Kept from0 op) (who : Ident) (k : Nat) (bound : Nat) :
    ∃ sx, onPort who k s op bound = .next sx ∧ Kept from0 sx := by
  unfold onPort
  try dsimp only
  repeat' first
    | with_reducible assumption
    | with_reducible refine ⟨_, rfl, ?_⟩
    | with_reducible first | apply kept_portRefused | apply kept_portBusy
    | with_reducible refine kept_ite ?_ ?_
    | split

theorem kept_execCreateSeq {s : State} (hk : Kept from0 s) (who : Ident) (cruc : Fin 4) (part : Fin 16) :
    ∃ sx, execCreateSeq who cruc part s = .next sx ∧ Kept from0 sx := by
  unfold execCreateSeq
  try dsimp only
  repeat' first
    | with_reducible assumption
    | with_reducible refine ⟨_, rfl, ?_⟩
    | with_reducible first | apply kept_opCreate | apply kept_onPort | apply kept_opDone
    | with_reducible refine kept_fst (by assumption) ?_

theorem kept_execFreeSeq {s : State} (hk : Kept from0 s) (who : Ident) (cruc : Fin 4) (part : Fin 16) (sq : Fin 256) :
    ∃ sx, execFreeSeq who cruc part sq s = .next sx ∧ Kept from0 sx := by
  unfold execFreeSeq
  try dsimp only
  repeat' first
    | with_reducible assumption
    | with_reducible refine ⟨_, rfl, ?_⟩
    | with_reducible first | apply kept_opFree | apply kept_onPort | apply kept_opDone
    | with_reducible refine kept_fst (by assumption) ?_

theorem kept_execTruncateSeq {s : State} (hk : Kept from0 s) (who : Ident) (cruc : Fin 4) (part : Fin 16) (sq : Fin 256) (arg : BitVec 32) :
    ∃ sx, execTruncateSeq who cruc part sq arg s = .next sx ∧ Kept from0 sx := by
  unfold execTruncateSeq
  try dsimp only
  repeat' first
    | with_reducible assumption
    | with_reducible refine ⟨_, rfl, ?_⟩
    | with_reducible first | apply kept_opTruncate | apply kept_onPort | apply kept_opDone
    | with_reducible refine kept_fst (by assumption) ?_

theorem kept_execSetseg {s : State} (hk : Kept from0 s) (who : Ident) (cruc : Fin 4) (part : Fin 16) (sq : Fin 256) :
    ∃ sx, execSetseg who cruc part sq s = .next sx ∧ Kept from0 sx := by
  unfold execSetseg
  try dsimp only
  repeat' first
    | with_reducible assumption
    | with_reducible refine ⟨_, rfl, ?_⟩
    | with_reducible first | apply kept_opSetseg | apply kept_onPort | apply kept_opDone
    | with_reducible refine kept_fst (by assumption) ?_

theorem kept_execLoadbias {s : State} (hk : Kept from0 s) (who : Ident) (cruc : Fin 4) (_part : Fin 16) (arg : BitVec 32) (ecc : MemEcc) :
    ∃ sx, execLoadbias who cruc _part arg ecc s = .next sx ∧ Kept from0 sx := by
  unfold execLoadbias
  try dsimp only
  repeat' first
    | with_reducible assumption
    | with_reducible refine ⟨_, rfl, ?_⟩
    | with_reducible first | apply kept_opLoadbias | apply kept_onPort | apply kept_opDone
    | with_reducible refine kept_fst (by assumption) ?_

theorem kept_scrubPages {a2 : State} (hk : Kept from0 a2) (k : Nat) (a1 : List Nat) :
    Kept from0 (scrubPages k a1 a2).1 := by
  induction a1 generalizing k a2 with
  | nil =>
    unfold scrubPages
    try dsimp only
    repeat' first
      | with_reducible assumption
      | with_reducible first | apply kept_scrubPage
      | with_reducible refine kept_fst (by assumption) ?_
      | with_reducible refine kept_ite ?_ ?_
      | split
  | cons b l ih =>
    unfold scrubPages
    try dsimp only
    repeat' first
      | with_reducible assumption
      | with_reducible apply ih
      | with_reducible first | apply kept_scrubPage
      | with_reducible refine kept_fst (by assumption) ?_
      | with_reducible refine kept_ite ?_ ?_
      | split

theorem kept_writePool {s : State} (hk : Kept from0 s) (k : Nat) (cfg : Bool) (gaffer : Bool) (new : Word) :
    Kept from0 (writePool s k cfg gaffer new) := by
  unfold writePool
  try dsimp only
  repeat' first
    | with_reducible assumption
    | with_reducible first | apply kept_setRegBit | apply kept_opCode | apply kept_scrubPages | apply kept_setReg | apply kept_syncPool
    | with_reducible first | apply kept_setCull
    | with_reducible refine kept_fst (by assumption) ?_
    | with_reducible refine kept_ite ?_ ?_
    | split
    | with_reducible refine kept_mk ?_ rfl rfl rfl rfl rfl rfl rfl rfl rfl rfl rfl rfl rfl rfl rfl rfl rfl

theorem kept_execPoolConfigWrite {s : State} (hk : Kept from0 s) (who : Ident) (cruc : Fin 4) (cfg : Bool) (v : BitVec 64) :
    ∃ sx, execPoolConfigWrite who cruc cfg v s = .next sx ∧ Kept from0 sx := by
  unfold execPoolConfigWrite
  try dsimp only
  repeat' first
    | with_reducible assumption
    | with_reducible refine ⟨_, rfl, ?_⟩
    | with_reducible first | apply kept_recordLocked | apply kept_writePool
    | with_reducible refine kept_ite ?_ ?_
    | split

theorem kept_commitRecord {s : State} (hk : Kept from0 s) (c : Nat) (owner : Nat) :
    Kept from0 (commitRecord s c owner) := by
  unfold commitRecord
  try dsimp only
  repeat' first
    | with_reducible assumption
    | with_reducible first | apply kept_syncTpstat | apply kept_syncBind | apply kept_syncAllV | apply kept_setCore
    | with_reducible refine kept_foldl ?_ (fun _ _ _ => ?_)
    | with_reducible refine kept_foldl_pair ?_ (fun _ _ _ => ?_)
    | split
    | with_reducible refine kept_mk ?_ rfl rfl rfl rfl rfl rfl rfl rfl rfl rfl rfl rfl rfl rfl rfl rfl rfl

theorem kept_discardRecord {s : State} (hk : Kept from0 s) (c : Nat) (owner : Nat) :
    Kept from0 (discardRecord s c owner) := by
  unfold discardRecord
  try dsimp only
  repeat' first
    | with_reducible assumption
    | with_reducible first | apply kept_syncTpstat | apply kept_syncAllV | apply kept_setCore
    | with_reducible refine kept_ite ?_ ?_
    | split
    | with_reducible refine kept_mk ?_ rfl rfl rfl rfl rfl rfl rfl rfl rfl rfl rfl rfl rfl rfl rfl rfl rfl

theorem kept_retrySignals {s : State} (hk : Kept from0 s) (c : Nat) :
    Kept from0 (retrySignals s c) := by
  unfold retrySignals
  try dsimp only
  repeat' first
    | with_reducible assumption
    | with_reducible first | apply kept_syncTpstat | apply kept_flush
    | with_reducible refine kept_foldl ?_ (fun _ _ _ => ?_)
    | with_reducible refine kept_foldl_pair ?_ (fun _ _ _ => ?_)
    | with_reducible refine kept_ite ?_ ?_
    | split

theorem kept_execCommitNotice {s : State} (hk : Kept from0 s) (core : Fin 96) (part : Fin 16) (seq : BitVec 32) :
    ∃ sx, execCommitNotice core part seq s = .next sx ∧ Kept from0 sx := by
  unfold execCommitNotice
  try dsimp only
  repeat' first
    | with_reducible assumption
    | with_reducible refine ⟨_, rfl, ?_⟩
    | with_reducible first | apply kept_retrySignals | apply kept_commitRecord

theorem kept_execDiscardNotice {s : State} (hk : Kept from0 s) (core : Fin 96) (part : Fin 16) (seq : BitVec 32) :
    ∃ sx, execDiscardNotice core part seq s = .next sx ∧ Kept from0 sx := by
  unfold execDiscardNotice
  try dsimp only
  repeat' first
    | with_reducible assumption
    | with_reducible refine ⟨_, rfl, ?_⟩
    | with_reducible first | apply kept_retrySignals | apply kept_discardRecord

theorem kept_rollbackNow {s : State} (hk : Kept from0 s) (key : Nat) :
    Kept from0 (rollbackNow s key) := by
  unfold rollbackNow
  try dsimp only
  repeat' first
    | with_reducible assumption
    | with_reducible first | apply kept_unresolve | apply kept_rollbackCmd | apply kept_markCancel
    | with_reducible refine kept_foldl ?_ (fun _ _ _ => ?_)
    | with_reducible refine kept_foldl_pair ?_ (fun _ _ _ => ?_)

theorem kept_execRollback {s : State} (hk : Kept from0 s) (part : Fin 16) (seq : BitVec 32) :
    ∃ sx, execRollback part seq s = .next sx ∧ Kept from0 sx := by
  unfold execRollback
  try dsimp only
  repeat' first
    | with_reducible assumption
    | with_reducible refine ⟨_, rfl, ?_⟩
    | with_reducible first | apply kept_rollbackNow

theorem kept_execCancellationNotice {s : State} (hk : Kept from0 s) (part : Fin 16) (seq : BitVec 32) :
    ∃ sx, execCancellationNotice part seq s = .next sx ∧ Kept from0 sx := by
  unfold execCancellationNotice
  try dsimp only
  repeat' first
    | with_reducible assumption
    | with_reducible refine ⟨_, rfl, ?_⟩
    | with_reducible first | apply kept_rollbackNow | apply kept_dropStaged

/-! ### Machine/FrameView.lean -/

theorem kept_setFrameSel {s : State} (hk : Kept from0 s) (x : FrameSel) :
    Kept from0 (setFrameSel s x) := by
  unfold setFrameSel
  try dsimp only
  repeat' first
    | with_reducible assumption
    | with_reducible refine kept_ite ?_ ?_
    | split
    | with_reducible refine kept_mk ?_ rfl rfl rfl rfl rfl rfl rfl rfl rfl rfl rfl rfl rfl rfl rfl rfl rfl

theorem kept_memberDebugged {s : State} (hk : Kept from0 s) (f : Nat) :
    Kept from0 (memberDebugged s f) := by
  unfold memberDebugged
  try dsimp only
  repeat' first
    | with_reducible assumption
    | with_reducible first | apply kept_setFrameSel
    | with_reducible refine kept_mk ?_ rfl rfl rfl rfl rfl rfl rfl rfl rfl rfl rfl rfl rfl rfl rfl rfl rfl

theorem kept_noteDebug {s : State} (hk : Kept from0 s) (c : Nat) :
    Kept from0 (noteDebug s c) := by
  unfold noteDebug
  try dsimp only
  repeat' first
    | with_reducible assumption
    | with_reducible first | apply kept_memberDebugged
    | with_reducible refine kept_ite ?_ ?_
    | split
    | with_reducible refine kept_mk ?_ rfl rfl rfl rfl rfl rfl rfl rfl rfl rfl rfl rfl rfl rfl rfl rfl rfl

/-! ### Machine/CoreCtl.lean -/

theorem kept_execCoreResetRelease {s : State} (hk : Kept from0 s) (core : Fin 96) :
    ∃ sx, execCoreResetRelease core s = .next sx ∧ Kept from0 sx := by
  unfold execCoreResetRelease
  try dsimp only
  repeat' first
    | with_reducible assumption
    | with_reducible refine ⟨_, rfl, ?_⟩
    | with_reducible first | apply kept_setCoreSt | apply kept_setReg
    | with_reducible refine kept_ite ?_ ?_
    | split

theorem kept_execRepairDone {s : State} (hk : Kept from0 s) (core : Fin 96) :
    ∃ sx, execRepairDone core s = .next sx ∧ Kept from0 sx := by
  unfold execRepairDone
  try dsimp only
  repeat' first
    | with_reducible assumption
    | with_reducible refine ⟨_, rfl, ?_⟩
    | with_reducible first | apply kept_setRegBit | apply kept_setRegFld | apply kept_setSclass | apply kept_setCoreSt
    | with_reducible first | apply kept_releaseDomains | apply kept_raise
    | with_reducible refine kept_ite ?_ ?_
    | split

theorem kept_execSelftestDone {s : State} (hk : Kept from0 s) (core : Fin 96) (fail : Option (BitVec 10)) (t : Nat) :
    ∃ sx, execSelftestDone core fail t s = .next sx ∧ Kept from0 sx := by
  unfold execSelftestDone
  try dsimp only
  repeat' first
    | with_reducible assumption
    | with_reducible refine ⟨_, rfl, ?_⟩
    | with_reducible first | apply kept_at | apply kept_passDone | apply kept_setCoreSt | apply kept_setRegFld | apply kept_patternFail
    | with_reducible refine kept_ite ?_ ?_
    | split
    | with_reducible refine kept_mk ?_ rfl rfl rfl rfl rfl rfl rfl rfl rfl rfl rfl rfl rfl rfl rfl rfl rfl

theorem kept_execHeldRelease {s : State} (hk : Kept from0 s) (core : Fin 96) :
    ∃ sx, execHeldRelease core s = .next sx ∧ Kept from0 sx := by
  unfold execHeldRelease
  try dsimp only
  repeat' first
    | with_reducible assumption
    | with_reducible refine ⟨_, rfl, ?_⟩
    | with_reducible first | apply kept_setRegBit | apply kept_setSclass | apply kept_setCoreSt | apply kept_releaseDomains
    | with_reducible refine kept_ite ?_ ?_
    | split

theorem kept_execQuarantineRestart {s : State} (hk : Kept from0 s) (core : Fin 96) (t : Nat) :
    ∃ sx, execQuarantineRestart core t s = .next sx ∧ Kept from0 sx := by
  unfold execQuarantineRestart
  try dsimp only
  repeat' first
    | with_reducible assumption
    | with_reducible refine ⟨_, rfl, ?_⟩
    | with_reducible first | apply kept_at | apply kept_openDomain | apply kept_recordCause | apply kept_enterReset | apply kept_blockToReset
    | with_reducible refine kept_ite ?_ ?_
    | split

theorem kept_zeroCounters {s : State} (hk : Kept from0 s) (c : Nat) (lo : Nat) (hi : Nat) :
    Kept from0 (zeroCounters s c lo hi) := by
  unfold zeroCounters
  try dsimp only
  repeat' first
    | with_reducible assumption
    | with_reducible first | apply kept_resetRegs

theorem kept_execPartitionClearDone {s : State} (hk : Kept from0 s) (core : Fin 96) :
    ∃ sx, execPartitionClearDone core s = .next sx ∧ Kept from0 sx := by
  unfold execPartitionClearDone
  try dsimp only
  repeat' first
    | with_reducible assumption
    | with_reducible refine ⟨_, rfl, ?_⟩
    | with_reducible first | apply kept_zeroCounters | apply kept_setCore | apply kept_syncTpstat | apply kept_headChecks
    | with_reducible refine kept_ite ?_ ?_
    | split
    | with_reducible refine kept_mk ?_ rfl rfl rfl rfl rfl rfl rfl rfl rfl rfl rfl rfl rfl rfl rfl rfl rfl

theorem kept_toIdle {s : State} (hk : Kept from0 s) (c : Nat) :
    Kept from0 (toIdle s c) := by
  unfold toIdle
  try dsimp only
  repeat' first
    | with_reducible assumption
    | with_reducible first | apply kept_setCoreSt | apply kept_endProgram | apply kept_accrue

theorem kept_execProgramEnd {s : State} (hk : Kept from0 s) (core : Fin 96) (t : Nat) :
    ∃ sx, execProgramEnd core t s = .next sx ∧ Kept from0 sx := by
  unfold execProgramEnd
  try dsimp only
  repeat' first
    | with_reducible assumption
    | with_reducible refine ⟨_, rfl, ?_⟩
    | with_reducible first | apply kept_at | apply kept_toIdle | apply kept_replay
    | with_reducible refine kept_ite ?_ ?_
    | split

theorem kept_execFaultAck {s : State} (hk : Kept from0 s) (core : Fin 96) :
    ∃ sx, execFaultAck core s = .next sx ∧ Kept from0 sx := by
  unfold execFaultAck
  try dsimp only
  repeat' first
    | with_reducible assumption
    | with_reducible refine ⟨_, rfl, ?_⟩
    | with_reducible first | apply kept_setCoreSt | apply kept_endProgram
    | with_reducible refine kept_ite ?_ ?_
    | split

theorem kept_execKillSettled {s : State} (hk : Kept from0 s) (core : Fin 96) :
    ∃ sx, execKillSettled core s = .next sx ∧ Kept from0 sx := by
  unfold execKillSettled
  try dsimp only
  repeat' first
    | with_reducible assumption
    | with_reducible refine ⟨_, rfl, ?_⟩
    | with_reducible first | apply kept_setCoreSt | apply kept_killActions
    | with_reducible refine kept_ite ?_ ?_
    | split

theorem kept_requestCkpt {s : State} (hk : Kept from0 s) (c : Nat) :
    Kept from0 (requestCkpt s c) := by
  unfold requestCkpt
  try dsimp only
  repeat' first
    | with_reducible assumption
    | with_reducible first | apply kept_setReg | apply kept_syncTpstat | apply kept_setCore
    | with_reducible refine kept_ite ?_ ?_
    | split
    | with_reducible refine kept_mk ?_ rfl rfl rfl rfl rfl rfl rfl rfl rfl rfl rfl rfl rfl rfl rfl rfl rfl

theorem kept_execCheckpointRequest {s : State} (hk : Kept from0 s) (core : Fin 96) (t : Nat) :
    ∃ sx, execCheckpointRequest core t s = .next sx ∧ Kept from0 sx := by
  unfold execCheckpointRequest
  try dsimp only
  repeat' first
    | with_reducible assumption
    | with_reducible refine ⟨_, rfl, ?_⟩
    | with_reducible first | apply kept_at | apply kept_requestCkpt
    | with_reducible refine kept_ite ?_ ?_
    | split

theorem kept_execCheckpointBoundary {s : State} (hk : Kept from0 s) (core : Fin 96) (t : Nat) :
    ∃ sx, execCheckpointBoundary core t s = .next sx ∧ Kept from0 sx := by
  unfold execCheckpointBoundary
  try dsimp only
  repeat' first
    | with_reducible assumption
    | with_reducible refine ⟨_, rfl, ?_⟩
    | with_reducible first | apply kept_at | apply kept_syncTpstat | apply kept_setReg | apply kept_accrue | apply kept_setCoreSt
    | with_reducible refine kept_ite ?_ ?_
    | split

theorem kept_saveImage {s : State} (hk : Kept from0 s) (r : Req) (addr : Nat) (img : List Byte) :
    Kept from0 (saveImage s r addr img).1 := by
  unfold saveImage
  try dsimp only
  repeat' first
    | with_reducible assumption
    | with_reducible first | apply kept_devWrite
    | with_reducible refine kept_fst (by assumption) ?_
    | split
    | with_reducible refine kept_mk ?_ rfl rfl rfl rfl rfl rfl rfl rfl rfl rfl rfl rfl rfl rfl rfl rfl rfl

theorem kept_keepSaved {s : State} (hk : Kept from0 s) (v : SavedRun) :
    Kept from0 (keepSaved s v) := by
  unfold keepSaved
  try dsimp only
  repeat' first
    | with_reducible assumption
    | with_reducible refine kept_mk ?_ rfl rfl rfl rfl rfl rfl rfl rfl rfl rfl rfl rfl rfl rfl rfl rfl rfl

theorem kept_saveAs {s : State} (hk : Kept from0 s) (c : Nat) (img : List Byte) :
    Kept from0 (saveAs s c img).1 := by
  unfold saveAs
  try dsimp only
  repeat' first
    | with_reducible assumption
    | with_reducible first | apply kept_saveImage | apply kept_bump | apply kept_keepSaved
    | with_reducible refine kept_fst (by assumption) ?_
    | split
    | with_reducible refine kept_mk ?_ rfl rfl rfl rfl rfl rfl rfl rfl rfl rfl rfl rfl rfl rfl rfl rfl rfl

theorem kept_saveCkpt {s0 : State} (hk : Kept from0 s0) (c : Nat) (upset : Bool) (ecc : SpEcc) :
    Kept from0 (saveCkpt s0 c upset ecc).1 := by
  unfold saveCkpt
  try dsimp only
  repeat' first
    | with_reducible assumption
    | with_reducible first | apply kept_takeEcc | apply kept_saveAs
    | with_reducible refine kept_fst (by assumption) ?_
    | with_reducible refine kept_ite ?_ ?_
    | split
    | with_reducible refine kept_mk ?_ rfl rfl rfl rfl rfl rfl rfl rfl rfl rfl rfl rfl rfl rfl rfl rfl rfl

theorem kept_restoreCkpt {s : State} (hk : Kept from0 s) (c : Nat) (bs : List Byte) :
    Kept from0 (restoreCkpt s c bs) := by
  unfold restoreCkpt
  try dsimp only
  repeat' first
    | with_reducible assumption
    | with_reducible first | apply kept_setCore | apply kept_setRegFld | apply kept_setReg
    | with_reducible refine kept_foldl ?_ (fun _ _ _ => ?_)
    | with_reducible refine kept_foldl_pair ?_ (fun _ _ _ => ?_)
    | with_reducible refine kept_ite ?_ ?_
    | split
    | with_reducible refine kept_mk ?_ rfl rfl rfl rfl rfl rfl rfl rfl rfl rfl rfl rfl rfl rfl rfl rfl rfl

theorem kept_resumeFrom {s : State} (hk : Kept from0 s) (c : Nat) (z : Nat) (bs : List Byte) :
    Kept from0 (resumeFrom s c z bs) := by
  unfold resumeFrom
  try dsimp only
  repeat' first
    | with_reducible assumption
    | with_reducible first | apply kept_bump | apply kept_tileFault | apply kept_restoreCkpt | apply kept_syncTpstat | apply kept_headChecks
    | with_reducible refine kept_ite ?_ ?_
    | split

theorem kept_resumeCkpt {s : State} (hk : Kept from0 s) (c : Nat) (addr : Nat) (z : Nat) (ecc : MemEcc) :
    Kept from0 (resumeCkpt s c addr z ecc) := by
  unfold resumeCkpt
  try dsimp only
  repeat' first
    | with_reducible assumption
    | with_reducible first | apply kept_devRead | apply kept_tileFault | apply kept_resumeFrom
    | with_reducible refine kept_fst (by assumption) ?_
    | split
    | with_reducible refine kept_mk ?_ rfl rfl rfl rfl rfl rfl rfl rfl rfl rfl rfl rfl rfl rfl rfl rfl rfl

theorem kept_execCheckpointResume {s : State} (hk : Kept from0 s) (core : Fin 96) (ecc : MemEcc) :
    ∃ sx, execCheckpointResume core ecc s = .next sx ∧ Kept from0 sx := by
  unfold execCheckpointResume
  try dsimp only
  repeat' first
    | with_reducible assumption
    | with_reducible refine ⟨_, rfl, ?_⟩
    | with_reducible first | apply kept_resumeCkpt
    | with_reducible refine kept_ite ?_ ?_
    | split

theorem kept_windowRefused {s : State} (hk : Kept from0 s) (c : Nat) :
    Kept from0 (windowRefused s c) := by
  unfold windowRefused
  try dsimp only
  repeat' first
    | with_reducible assumption
    | with_reducible first | apply kept_bump

theorem kept_haltCore {s : State} (hk : Kept from0 s) (c : Nat) :
    Kept from0 (haltCore s c) := by
  unfold haltCore
  try dsimp only
  repeat' first
    | with_reducible assumption
    | with_reducible first | apply kept_setCoreSt | apply kept_accrue | apply kept_syncTpstat | apply kept_setCore
    | with_reducible refine kept_mk ?_ rfl rfl rfl rfl rfl rfl rfl rfl rfl rfl rfl rfl rfl rfl rfl rfl rfl

theorem kept_execHaltreq {s : State} (hk : Kept from0 s) (acc : Accessor) (core : Fin 96) (t : Nat) :
    ∃ sx, execHaltreq acc core t s = .next sx ∧ Kept from0 sx := by
  unfold execHaltreq
  try dsimp only
  repeat' first
    | with_reducible assumption
    | with_reducible refine ⟨_, rfl, ?_⟩
    | with_reducible first | apply kept_at | apply kept_windowRefused | apply kept_haltCore | apply kept_setRegBit
    | with_reducible refine kept_ite ?_ ?_
    | split

theorem kept_execResume {s : State} (hk : Kept from0 s) (acc : Accessor) (core : Fin 96) (t : Nat) :
    ∃ sx, execResume acc core t s = .next sx ∧ Kept from0 sx := by
  unfold execResume
  try dsimp only
  repeat' first
    | with_reducible assumption
    | with_reducible refine ⟨_, rfl, ?_⟩
    | with_reducible first | apply kept_at | apply kept_windowRefused | apply kept_setCore | apply kept_syncTpstat | apply kept_headChecks
    | with_reducible first | apply kept_setCoreSt
    | with_reducible refine kept_ite ?_ ?_
    | split
    | with_reducible refine kept_mk ?_ rfl rfl rfl rfl rfl rfl rfl rfl rfl rfl rfl rfl rfl rfl rfl rfl rfl

theorem kept_requestRestart {s : State} (hk : Kept from0 s) (c : Nat) (requested : Bool) :
    Kept from0 (requestRestart s c requested) := by
  unfold requestRestart
  try dsimp only
  repeat' first
    | with_reducible assumption
    | with_reducible first | apply kept_logReset | apply kept_startReset
    | with_reducible refine kept_ite ?_ ?_
    | split

theorem kept_execRestartreq {s : State} (hk : Kept from0 s) (acc : Accessor) (core : Fin 96) (t : Nat) :
    ∃ sx, execRestartreq acc core t s = .next sx ∧ Kept from0 sx := by
  unfold execRestartreq
  try dsimp only
  repeat' first
    | with_reducible assumption
    | with_reducible refine ⟨_, rfl, ?_⟩
    | with_reducible first | apply kept_at | apply kept_windowRefused | apply kept_requestRestart
    | with_reducible refine kept_ite ?_ ?_
    | split

theorem kept_execBreakpointHit {s : State} (hk : Kept from0 s) (core : Fin 96) (t : Nat) :
    ∃ sx, execBreakpointHit core t s = .next sx ∧ Kept from0 sx := by
  unfold execBreakpointHit
  try dsimp only
  repeat' first
    | with_reducible assumption
    | with_reducible refine ⟨_, rfl, ?_⟩
    | with_reducible first | apply kept_at | apply kept_haltCore
    | with_reducible refine kept_ite ?_ ?_
    | split

theorem kept_completeInstrs {s : State} (hk : Kept from0 s) (c : Nat) (k : Nat) (p : InFlight → Bool) :
    Kept from0 (completeInstrs s c k p) := by
  unfold completeInstrs
  try dsimp only
  repeat' first
    | with_reducible assumption
    | with_reducible first | apply kept_setCore | apply kept_syncTpstat | apply kept_flush
    | with_reducible refine kept_ite ?_ ?_
    | split
    | with_reducible refine kept_mk ?_ rfl rfl rfl rfl rfl rfl rfl rfl rfl rfl rfl rfl rfl rfl rfl rfl rfl

/-- The effect of an instruction keeps what it must, whichever instruction it is. -/
theorem kept_opOf {core : Fin 96} {k : Nat} {ph : Phys} {eng op : Nat} {checks : State → Nat → List TFault} {effect : State → Nat → Effect}
    (e : opOf core k ph eng op = some (checks, effect)) (x : State) (i : Nat) (hk : Kept from0 x) : Kept from0 (effect x i).1 := by
  unfold opOf at e
  split at e
  all_goals cases e
  all_goals with_reducible first
    | exact kept_lanesEffect hk ..
    | exact kept_reduceEffect hk ..
    | exact kept_clrEffect hk ..
    | exact kept_wldEffect hk ..
    | exact kept_mmEffect hk ..
    | exact kept_drnEffect hk ..
    | exact kept_vldEffect hk ..
    | exact kept_vstEffect hk ..
    | exact kept_vldscEffect hk ..
    | exact kept_ldEffect hk ..
    | exact kept_ldaccEffect hk ..
    | exact kept_stEffect hk ..
    | exact kept_staccEffect hk ..
    | exact kept_stsigEffect hk ..
    | exact kept_gidxEffect hk ..
    | exact kept_gpageEffect hk ..
    | exact kept_nopEffect hk ..
    | exact kept_endEffect hk ..
    | exact kept_ckptEffect hk ..

theorem kept_stepHead {s : State} (hk : Kept from0 s) (core : Fin 96) (k : Nat) (ph : Phys) (w : Nat) :
    Kept from0 (stepHead s core k ph w) := by
  unfold stepHead
  apply kept_completeInstrs
  split
  · next checks effect e => exact kept_orWait hk (kept_issueHead hk _ _ _ _ (kept_opOf e))
  · exact kept_issueHead hk _ _ _ _ (fun _ _ h => h)

theorem kept_moveHaltPoint {s : State} (hk : Kept from0 s) (c : Nat) :
    Kept from0 (moveHaltPoint s c) := by
  unfold moveHaltPoint
  try dsimp only
  repeat' first
    | with_reducible assumption
    | with_reducible first | apply kept_setCore
    | with_reducible refine kept_ite ?_ ?_
    | split
    | with_reducible refine kept_mk ?_ rfl rfl rfl rfl rfl rfl rfl rfl rfl rfl rfl rfl rfl rfl rfl rfl rfl

theorem kept_execTpstep {s : State} (hk : Kept from0 s) (acc : Accessor) (core : Fin 96) (stream : BitVec 3) (ph : Phys) :
    ∃ sx, execTpstep acc core stream ph s = .next sx ∧ Kept from0 sx := by
  unfold execTpstep
  try dsimp only
  repeat' first
    | with_reducible assumption
    | with_reducible refine ⟨_, rfl, ?_⟩
    | with_reducible first | apply kept_windowRefused | apply kept_moveHaltPoint | apply kept_stepHead | apply kept_tileFault
    | with_reducible refine kept_ite ?_ ?_
    | split
    | with_reducible refine kept_mk ?_ rfl rfl rfl rfl rfl rfl rfl rfl rfl rfl rfl rfl rfl rfl rfl rfl rfl

theorem kept_execDebugHaltPoint {s : State} (hk : Kept from0 s) (core : Fin 96) :
    ∃ sx, execDebugHaltPoint core s = .next sx ∧ Kept from0 sx := by
  unfold execDebugHaltPoint
  try dsimp only
  repeat' first
    | with_reducible assumption
    | with_reducible refine ⟨_, rfl, ?_⟩
    | with_reducible first | apply kept_setCore
    | with_reducible refine kept_ite ?_ ?_
    | split
    | with_reducible refine kept_mk ?_ rfl rfl rfl rfl rfl rfl rfl rfl rfl rfl rfl rfl rfl rfl rfl rfl rfl

theorem kept_logDebugWrite {s : State} (hk : Kept from0 s) (c : Nat) (off : Nat) (bs : List Byte) :
    ∀ sx, logDebugWrite s c off bs = some sx → Kept from0 sx := by
  unfold logDebugWrite
  intro sx hx
  revert hx
  try dsimp only
  repeat' first
    | with_reducible assumption
    | with_reducible first | apply kept_noteDebug | apply kept_setCore
    | (intro hx; cases hx)
    | with_reducible refine kept_fst (by assumption) ?_
    | with_reducible refine kept_ite ?_ ?_
    | split
    | with_reducible refine kept_mk ?_ rfl rfl rfl rfl rfl rfl rfl rfl rfl rfl rfl rfl rfl rfl rfl rfl rfl

theorem kept_windowGet {s : State} (hk : Kept from0 s) (c : Nat) (off : Nat) (n : Nat) :
    Kept from0 (windowGet s c off n).1 := by
  unfold windowGet
  try dsimp only
  repeat' first
    | with_reducible assumption
    | with_reducible first | apply kept_coreCheckEvent | apply kept_bump
    | with_reducible refine kept_ite ?_ ?_
    | split
    | with_reducible refine kept_mk ?_ rfl rfl rfl rfl rfl rfl rfl rfl rfl rfl rfl rfl rfl rfl rfl rfl rfl

theorem kept_windowMeets {s : State} (hk : Kept from0 s) (acc : Accessor) (c : Nat) (off : Nat) (write : Bool) (ecc : SpEcc) :
    Kept from0 (windowMeets s acc c off write ecc) := by
  unfold windowMeets
  try dsimp only
  repeat' first
    | with_reducible assumption
    | with_reducible first | apply kept_takeEcc
    | with_reducible refine kept_ite ?_ ?_
    | split

theorem kept_windowAccess {s : State} (hk : Kept from0 s) (acc : Accessor) (c : Nat) (off : Nat) (n : Nat) (write : Option (List Byte)) :
    Kept from0 (windowAccess s acc c off n write).1 := by
  unfold windowAccess
  try dsimp only
  repeat' first
    | with_reducible assumption
    | with_reducible first | apply kept_windowRefused | apply kept_windowGet | apply kept_setCore | apply kept_logLehrA
    | with_reducible refine kept_fst (by assumption) ?_
    | with_reducible refine kept_logDebugWrite ?_ _ _ _ _ (by assumption)
    | with_reducible refine kept_ite ?_ ?_
    | split
    | with_reducible refine kept_mk ?_ rfl rfl rfl rfl rfl rfl rfl rfl rfl rfl rfl rfl rfl rfl rfl rfl rfl

theorem kept_unmappedFromHost {s : State} (hk : Kept from0 s) (addr : Nat) :
    Kept from0 (unmappedFromHost s addr) := by
  unfold unmappedFromHost
  try dsimp only
  repeat' first
    | with_reducible assumption
    | with_reducible first | apply kept_poisonAt | apply kept_logCruc | apply kept_bump

theorem kept_execCoreWindowAccess {s : State} (hk : Kept from0 s) (acc : Accessor) (core : Fin 96) (word : BitVec 18) (access : WindowWord) :
    ∃ sx, execCoreWindowAccess acc core word access s = .next sx ∧ Kept from0 sx := by
  unfold execCoreWindowAccess
  try dsimp only
  repeat' first
    | with_reducible assumption
    | with_reducible refine ⟨_, rfl, ?_⟩
    | with_reducible first | apply kept_windowAccess | apply kept_windowMeets | apply kept_unmappedFromHost
    | with_reducible refine kept_fst (by assumption) ?_
    | split
    | with_reducible refine kept_mk ?_ rfl rfl rfl rfl rfl rfl rfl rfl rfl rfl rfl rfl rfl rfl rfl rfl rfl

theorem kept_debugSyncRead {s : State} (hk : Kept from0 s) (c : Nat) (n : Nat) :
    Kept from0 (debugSyncRead s c n) := by
  unfold debugSyncRead
  try dsimp only
  repeat' first
    | with_reducible assumption
    | with_reducible first | apply kept_windowRefused
    | with_reducible refine kept_fst (by assumption) ?_
    | with_reducible refine kept_ite ?_ ?_
    | split
    | with_reducible refine kept_mk ?_ rfl rfl rfl rfl rfl rfl rfl rfl rfl rfl rfl rfl rfl rfl rfl rfl rfl

theorem kept_writeSync {s : State} (hk : Kept from0 s) (acc : Accessor) (core : Fin 96) (n : Fin 2048) (v : BitVec 32) :
    ∃ sx, writeSync acc core n v s = .next sx ∧ Kept from0 sx := by
  unfold writeSync
  try dsimp only
  repeat' first
    | with_reducible assumption
    | with_reducible refine ⟨_, rfl, ?_⟩
    | with_reducible first | apply kept_syncBind | apply kept_syncV | apply kept_setCore | apply kept_setRegFld | apply kept_windowRefused
    | with_reducible first | apply kept_syncTpstat | apply kept_logLehrA
    | with_reducible refine kept_logDebugWrite ?_ _ _ _ _ (by assumption)
    | with_reducible refine kept_ite ?_ ?_
    | split
    | with_reducible refine kept_mk ?_ rfl rfl rfl rfl rfl rfl rfl rfl rfl rfl rfl rfl rfl rfl rfl rfl rfl

theorem kept_identSyncRead {s : State} (hk : Kept from0 s) (who : Ident) (c : Nat) (n : Nat) :
    Kept from0 (identSyncRead s who c n) := by
  unfold identSyncRead
  try dsimp only
  repeat' first
    | with_reducible assumption
    | with_reducible first | apply kept_windowRefused
    | with_reducible refine kept_ite ?_ ?_
    | split
    | with_reducible refine kept_mk ?_ rfl rfl rfl rfl rfl rfl rfl rfl rfl rfl rfl rfl rfl rfl rfl rfl rfl

theorem kept_execCoreSyncWrite {s : State} (hk : Kept from0 s) (acc : Accessor) (core : Fin 96) (n : Fin 2048) (v : Option (BitVec 32)) :
    ∃ sx, execCoreSyncWrite acc core n v s = .next sx ∧ Kept from0 sx := by
  unfold execCoreSyncWrite
  try dsimp only
  repeat' first
    | with_reducible assumption
    | with_reducible refine ⟨_, rfl, ?_⟩
    | with_reducible first | apply kept_writeSync | apply kept_debugSyncRead | apply kept_identSyncRead
    | split
    | with_reducible refine kept_mk ?_ rfl rfl rfl rfl rfl rfl rfl rfl rfl rfl rfl rfl rfl rfl rfl rfl rfl

theorem kept_execSteprateUpdate {s : State} (hk : Kept from0 s) (core : Fin 96) (steps : BitVec 20) (cap : BitVec 15) (t : Nat) :
    ∃ sx, execSteprateUpdate core steps cap t s = .next sx ∧ Kept from0 sx := by
  unfold execSteprateUpdate
  try dsimp only
  repeat' first
    | with_reducible assumption
    | with_reducible refine ⟨_, rfl, ?_⟩
    | with_reducible first | apply kept_at | apply kept_setRegFld | apply kept_bump | apply kept_setRegBit | apply kept_logTherm
    | with_reducible first | apply kept_setSclass
    | with_reducible refine kept_ite ?_ ?_
    | split
    | with_reducible refine kept_mk ?_ rfl rfl rfl rfl rfl rfl rfl rfl rfl rfl rfl rfl rfl rfl rfl rfl rfl

theorem kept_execStepminWrite {s : State} (hk : Kept from0 s) (core : Fin 96) :
    ∃ sx, execStepminWrite core s = .next sx ∧ Kept from0 sx := by
  unfold execStepminWrite
  try dsimp only
  repeat' first
    | with_reducible assumption
    | with_reducible refine ⟨_, rfl, ?_⟩
    | with_reducible first | apply kept_setRegFld

theorem kept_execInstructionFetch {s : State} (hk : Kept from0 s) (core : Fin 96) (stream : Fin 5) (index : BitVec 24) (ecc : MemEcc) :
    ∃ sx, execInstructionFetch core stream index ecc s = .next sx ∧ Kept from0 sx := by
  unfold execInstructionFetch
  try dsimp only
  repeat' first
    | with_reducible assumption
    | with_reducible refine ⟨_, rfl, ?_⟩
    | with_reducible first | apply kept_devRead | apply kept_bump | apply kept_setCore | apply kept_syncTpstat | apply kept_headCheck
    | with_reducible refine kept_fst (by assumption) ?_
    | with_reducible refine kept_ite ?_ ?_
    | split
    | with_reducible refine kept_mk ?_ rfl rfl rfl rfl rfl rfl rfl rfl rfl rfl rfl rfl rfl rfl rfl rfl rfl

theorem kept_execInstrComplete {s : State} (hk : Kept from0 s) (core : Fin 96) (stream : Fin 5) (word : BitVec 24) :
    ∃ sx, execInstrComplete core stream word s = .next sx ∧ Kept from0 sx := by
  unfold execInstrComplete
  try dsimp only
  repeat' first
    | with_reducible assumption
    | with_reducible refine ⟨_, rfl, ?_⟩
    | with_reducible first | apply kept_completeInstrs
    | with_reducible refine kept_ite ?_ ?_
    | split

theorem kept_execStarvedFault {s0 : State} (hk : Kept from0 s0) (core : Fin 96) :
    ∃ sx, execStarvedFault core s0 = .next sx ∧ Kept from0 sx := by
  unfold execStarvedFault
  try dsimp only
  repeat' first
    | with_reducible assumption
    | with_reducible refine ⟨_, rfl, ?_⟩
    | with_reducible first | apply kept_replay | apply kept_stepFaults
    | with_reducible refine kept_ite ?_ ?_
    | split

end Sys2Proof.Machine
end

