-- ==== Sys2Proof/Laws/KeptBench.lean ====
section
/-! SUPPORT. What the operations keep: Lehr A, the rings and Bench. -/

namespace Sys2Proof.Machine

variable {from0 : State}

/-! ### Machine/LehrA.lean -/

theorem kept_sendCan {s : State} (hk : Kept from0 s) (lehr : Nat) (cfg : Word) (off : Nat) (bytes : List Byte) :
    Kept from0 (sendCan s lehr cfg off bytes) := by
  unfold sendCan
  split
  · exact ⟨hk.pending, hk.fresh, hk.regs, hk.dram, hk.logs, prefix_append hk.can _, hk.host, hk.sent, hk.arb, hk.dbg⟩
  · exact hk

theorem kept_syncActive {s : State} (hk : Kept from0 s) :
    Kept from0 (syncActive s) := by
  unfold syncActive
  try dsimp only
  repeat' first
    | with_reducible assumption
    | with_reducible first | apply kept_setRegBit

theorem kept_planMessage {s : State} (hk : Kept from0 s) (p : FbPlan) :
    Kept from0 (planMessage s p) := by
  unfold planMessage
  try dsimp only
  repeat' first
    | with_reducible assumption
    | with_reducible first | apply kept_syncActive | apply kept_sendCan
    | with_reducible refine kept_foldl ?_ (fun _ _ _ => ?_)
    | with_reducible refine kept_foldl_pair ?_ (fun _ _ _ => ?_)
    | with_reducible refine kept_ite ?_ ?_
    | split

theorem kept_selCrc {s : State} (hk : Kept from0 s) (src : SelSource) (addr : Nat) (fb : Option FbPlan) :
    Kept from0 (selCrc s src addr fb).1 := by
  unfold selCrc
  try dsimp only
  repeat' first
    | with_reducible assumption
    | with_reducible first | apply kept_nextFresh
    | split
    | with_reducible refine kept_mk ?_ rfl rfl rfl rfl rfl rfl rfl rfl rfl rfl rfl rfl rfl rfl rfl rfl rfl

theorem kept_selectionMessage {s : State} (hk : Kept from0 s) (f : Nat) (src : SelSource) (detail : Nat) (addr : Nat) (fb : Option FbPlan) :
    Kept from0 (selectionMessage s f src detail addr fb) := by
  unfold selectionMessage
  try dsimp only
  repeat' first
    | with_reducible assumption
    | with_reducible first | apply kept_selCrc | apply kept_sendCan
    | with_reducible refine kept_fst (by assumption) ?_

theorem kept_violate {s : State} (hk : Kept from0 s) (n : Nat) (code : Nat) (last : Nat) :
    Kept from0 (violate s n code last) := by
  unfold violate
  try dsimp only
  repeat' first
    | with_reducible assumption
    | with_reducible first | apply kept_logLehrA | apply kept_setRegFld | apply kept_bumpSat | apply kept_setFrameSel | apply kept_startReset
    | with_reducible refine kept_ite ?_ ?_
    | split
    | with_reducible refine kept_mk ?_ rfl rfl rfl rfl rfl rfl rfl rfl rfl rfl rfl rfl rfl rfl rfl rfl rfl

theorem kept_closeStage {s : State} (hk : Kept from0 s) (n : Nat) :
    Kept from0 (closeStage s n) := by
  unfold closeStage
  try dsimp only
  repeat' first
    | with_reducible assumption
    | with_reducible first | apply kept_violate
    | with_reducible refine kept_ite ?_ ?_
    | split

theorem kept_kickStage {s0 : State} (hk : Kept from0 s0) (n : Nat) :
    Kept from0 (kickStage s0 n) := by
  unfold kickStage
  try dsimp only
  repeat' first
    | with_reducible assumption
    | with_reducible first | apply kept_closeStage | apply kept_violate
    | with_reducible refine kept_ite ?_ ?_
    | split
    | with_reducible refine kept_mk ?_ rfl rfl rfl rfl rfl rfl rfl rfl rfl rfl rfl rfl rfl rfl rfl rfl rfl

theorem kept_kickStages {s : State} (hk : Kept from0 s) (src : Nat) (p : Word → Bool) :
    Kept from0 (kickStages s src p) := by
  unfold kickStages
  try dsimp only
  repeat' first
    | with_reducible assumption
    | with_reducible first | apply kept_kickStage
    | with_reducible refine kept_foldl ?_ (fun _ _ _ => ?_)
    | with_reducible refine kept_foldl_pair ?_ (fun _ _ _ => ?_)

theorem kept_kickFor {s : State} (hk : Kept from0 s) (f : Nat) (src : Nat) (p : Word → Bool) :
    Kept from0 (kickFor s f src p) := by
  unfold kickFor
  try dsimp only
  repeat' first
    | with_reducible assumption
    | with_reducible first | apply kept_kickStages | apply kept_bump
    | with_reducible refine kept_ite ?_ ?_
    | split

theorem kept_closeWatchdogs {s : State} (hk : Kept from0 s) :
    Kept from0 (closeWatchdogs s) := by
  unfold closeWatchdogs
  try dsimp only
  repeat' first
    | with_reducible assumption
    | with_reducible first | apply kept_closeStage | apply kept_setRegFld
    | with_reducible refine kept_foldl ?_ (fun _ _ _ => ?_)
    | with_reducible refine kept_foldl_pair ?_ (fun _ _ _ => ?_)
    | with_reducible refine kept_mk ?_ rfl rfl rfl rfl rfl rfl rfl rfl rfl rfl rfl rfl rfl rfl rfl rfl rfl

theorem kept_makeSelection {s : State} (hk : Kept from0 s) (x : FrameSel) (main : Bool) (timeout : Bool) :
    Kept from0 (makeSelection s x main timeout) := by
  unfold makeSelection
  try dsimp only
  repeat' first
    | with_reducible assumption
    | with_reducible first | apply kept_setFrameSel | apply kept_setReg | apply kept_bump | apply kept_selectionMessage | apply kept_planMessage
    | with_reducible first | apply kept_syncActive | apply kept_kickFor
    | with_reducible refine kept_fst (by assumption) ?_
    | with_reducible refine kept_ite ?_ ?_
    | split
    | with_reducible refine kept_mk ?_ rfl rfl rfl rfl rfl rfl rfl rfl rfl rfl rfl rfl rfl rfl rfl rfl rfl

theorem kept_evalFrame {s : State} (hk : Kept from0 s) (f : Nat) :
    Kept from0 (evalFrame s f) := by
  unfold evalFrame
  try dsimp only
  repeat' first
    | with_reducible assumption
    | with_reducible first | apply kept_makeSelection
    | with_reducible refine kept_ite ?_ ?_
    | split
    | with_reducible refine kept_mk ?_ rfl rfl rfl rfl rfl rfl rfl rfl rfl rfl rfl rfl rfl rfl rfl rfl rfl

theorem kept_decideFrame {s : State} (hk : Kept from0 s) (f : Nat) :
    Kept from0 (decideFrame s f) := by
  unfold decideFrame
  try dsimp only
  repeat' first
    | with_reducible assumption
    | with_reducible first | apply kept_evalFrame | apply kept_makeSelection
    | with_reducible refine kept_ite ?_ ?_
    | split
    | with_reducible refine kept_mk ?_ rfl rfl rfl rfl rfl rfl rfl rfl rfl rfl rfl rfl rfl rfl rfl rfl rfl

theorem kept_violateEval {s : State} (hk : Kept from0 s) :
    Kept from0 (violateEval s) := by
  unfold violateEval
  try dsimp only
  repeat' first
    | with_reducible assumption
    | with_reducible first | apply kept_evalFrame

theorem kept_addMember {s : State} (hk : Kept from0 s) (c : Cmd) (nprog : Nat) :
    Kept from0 (addMember s c nprog) := by
  unfold addMember
  try dsimp only
  repeat' first
    | with_reducible assumption
    | with_reducible first | apply kept_setFrameSel
    | with_reducible refine kept_fst (by assumption) ?_
    | with_reducible refine kept_mk ?_ rfl rfl rfl rfl rfl rfl rfl rfl rfl rfl rfl rfl rfl rfl rfl rfl rfl

theorem kept_mapMember {s : State} (hk : Kept from0 s) (f : Nat) (key : Nat) (g : Member → Member) :
    Kept from0 (mapMember s f key g) := by
  unfold mapMember
  try dsimp only
  repeat' first
    | with_reducible assumption
    | with_reducible first | apply kept_setFrameSel
    | with_reducible refine kept_ite ?_ ?_
    | split
    | with_reducible refine kept_mk ?_ rfl rfl rfl rfl rfl rfl rfl rfl rfl rfl rfl rfl rfl rfl rfl rfl rfl

theorem kept_memberFailed {s : State} (hk : Kept from0 s) (f : Nat) (key : Nat) :
    Kept from0 (memberFailed s f key) := by
  unfold memberFailed
  try dsimp only
  repeat' first
    | with_reducible assumption
    | with_reducible first | apply kept_mapMember | apply kept_evalFrame | apply kept_setFrameSel
    | with_reducible refine kept_mk ?_ rfl rfl rfl rfl rfl rfl rfl rfl rfl rfl rfl rfl rfl rfl rfl rfl rfl

theorem kept_memberCommitted {s : State} (hk : Kept from0 s) (c : Cmd) :
    Kept from0 (memberCommitted s c) := by
  unfold memberCommitted
  try dsimp only
  repeat' first
    | with_reducible assumption
    | with_reducible first | apply kept_mapMember | apply kept_setFrameSel | apply kept_evalFrame
    | with_reducible refine kept_ite ?_ ?_
    | split
    | with_reducible refine kept_mk ?_ rfl rfl rfl rfl rfl rfl rfl rfl rfl rfl rfl rfl rfl rfl rfl rfl rfl

theorem kept_forgetRun {s : State} (hk : Kept from0 s) (key : Nat) (prog : Nat) (kind : RunKind) :
    Kept from0 (forgetRun s key prog kind) := by
  unfold forgetRun
  try dsimp only
  repeat' first
    | with_reducible assumption
    | with_reducible refine kept_mk ?_ rfl rfl rfl rfl rfl rfl rfl rfl rfl rfl rfl rfl rfl rfl rfl rfl rfl

theorem kept_refuseFrame {s : State} (hk : Kept from0 s) (r : RunReport) :
    Kept from0 (refuseFrame s r) := by
  unfold refuseFrame
  try dsimp only
  repeat' first
    | with_reducible assumption
    | with_reducible first | apply kept_evalFrame | apply kept_setFrameSel
    | with_reducible refine kept_ite ?_ ?_
    | split
    | with_reducible refine kept_mk ?_ rfl rfl rfl rfl rfl rfl rfl rfl rfl rfl rfl rfl rfl rfl rfl rfl rfl

theorem kept_chargeAll {s : State} (hk : Kept from0 s) (cores : List Nat) (f : Nat) :
    Kept from0 (chargeAll s cores f) := by
  unfold chargeAll
  try dsimp only
  repeat' first
    | with_reducible assumption
    | with_reducible first | apply kept_chargeCore
    | with_reducible refine kept_foldl ?_ (fun _ _ _ => ?_)
    | with_reducible refine kept_foldl_pair ?_ (fun _ _ _ => ?_)

theorem kept_disagree {s : State} (hk : Kept from0 s) (code : Nat) (a : RunReport) (b : RunReport) (sa : List (Nat × Nat)) (sb : List (Nat × Nat)) :
    Kept from0 (disagree s code a b sa sb) := by
  unfold disagree
  try dsimp only
  repeat' first
    | with_reducible assumption
    | with_reducible first | apply kept_bump | apply kept_logLehrA | apply kept_chargeAll | apply kept_raise
    | with_reducible refine kept_fst (by assumption) ?_
    | split
    | with_reducible refine kept_mk ?_ rfl rfl rfl rfl rfl rfl rfl rfl rfl rfl rfl rfl rfl rfl rfl rfl rfl

theorem kept_compareRuns {s : State} (hk : Kept from0 s) (key : Nat) (prog : Nat) (a : RunReport) (b : RunReport) :
    Kept from0 (compareRuns s key prog a b) := by
  unfold compareRuns
  try dsimp only
  repeat' first
    | with_reducible assumption
    | with_reducible first | apply kept_bump | apply kept_forgetRun | apply kept_refuseFrame | apply kept_logLehrA | apply kept_evalFrame
    | with_reducible first | apply kept_mapMember | apply kept_disagree
    | with_reducible refine kept_ite ?_ ?_
    | split
    | with_reducible refine kept_mk ?_ rfl rfl rfl rfl rfl rfl rfl rfl rfl rfl rfl rfl rfl rfl rfl rfl rfl

theorem kept_reblowFault {s : State} (hk : Kept from0 s) (key : Nat) (prog : Nat) (a : RunReport) (b : RunReport) :
    Kept from0 (reblowFault s key prog a b) := by
  unfold reblowFault
  try dsimp only
  repeat' first
    | with_reducible assumption
    | with_reducible first | apply kept_bump | apply kept_forgetRun | apply kept_refuseFrame | apply kept_disagreement | apply kept_logLehrA

theorem kept_resolveTie {s : State} (hk : Kept from0 s) (key : Nat) (prog : Nat) (r : RunReport) :
    Kept from0 (resolveTie s key prog r) := by
  unfold resolveTie
  try dsimp only
  repeat' first
    | with_reducible assumption
    | with_reducible first | apply kept_forgetRun | apply kept_chargeAll | apply kept_bump
    | with_reducible refine kept_ite ?_ ?_
    | split
    | with_reducible refine kept_mk ?_ rfl rfl rfl rfl rfl rfl rfl rfl rfl rfl rfl rfl rfl rfl rfl rfl rfl

theorem kept_dropTies {s : State} (hk : Kept from0 s) (p : TiePending → Bool) :
    Kept from0 (dropTies s p) := by
  unfold dropTies
  try dsimp only
  repeat' first
    | with_reducible assumption
    | with_reducible first | apply kept_chargeAll
    | with_reducible refine kept_foldl ?_ (fun _ _ _ => ?_)
    | with_reducible refine kept_foldl_pair ?_ (fun _ _ _ => ?_)
    | with_reducible refine kept_mk ?_ rfl rfl rfl rfl rfl rfl rfl rfl rfl rfl rfl rfl rfl rfl rfl rfl rfl

theorem kept_tryCompare {s : State} (hk : Kept from0 s) (key : Nat) (prog : Nat) :
    Kept from0 (tryCompare s key prog) := by
  unfold tryCompare
  try dsimp only
  repeat' first
    | with_reducible assumption
    | with_reducible first | apply kept_resolveTie | apply kept_reblowFault | apply kept_compareRuns
    | with_reducible refine kept_ite ?_ ?_
    | split
    | with_reducible refine kept_mk ?_ rfl rfl rfl rfl rfl rfl rfl rfl rfl rfl rfl rfl rfl rfl rfl rfl rfl

theorem kept_takeSig {s : State} (hk : Kept from0 s) (m : SigMsg) (crcOk : Bool) :
    Kept from0 (takeSig s m crcOk) := by
  unfold takeSig
  try dsimp only
  repeat' first
    | with_reducible assumption
    | with_reducible first | apply kept_bump | apply kept_setRegBit | apply kept_tryCompare
    | with_reducible refine kept_fst (by assumption) ?_
    | with_reducible refine kept_ite ?_ ?_
    | split
    | with_reducible refine kept_mk ?_ rfl rfl rfl rfl rfl rfl rfl rfl rfl rfl rfl rfl rfl rfl rfl rfl rfl

theorem kept_dropSigs {s0 : State} (hk : Kept from0 s0) (key : Nat) :
    Kept from0 (dropSigs s0 key) := by
  unfold dropSigs
  try dsimp only
  repeat' first
    | with_reducible assumption
    | with_reducible first | apply kept_reblowFault
    | with_reducible refine kept_foldl ?_ (fun _ _ _ => ?_)
    | with_reducible refine kept_foldl_pair ?_ (fun _ _ _ => ?_)
    | with_reducible refine kept_mk ?_ rfl rfl rfl rfl rfl rfl rfl rfl rfl rfl rfl rfl rfl rfl rfl rfl rfl

theorem kept_noteSplit {s : State} (hk : Kept from0 s) :
    Kept from0 (noteSplit s) := by
  unfold noteSplit
  try dsimp only
  repeat' first
    | with_reducible assumption
    | with_reducible first | apply kept_bump
    | with_reducible refine kept_ite ?_ ?_
    | split
    | with_reducible refine kept_mk ?_ rfl rfl rfl rfl rfl rfl rfl rfl rfl rfl rfl rfl rfl rfl rfl rfl rfl

theorem kept_execSig {s : State} (hk : Kept from0 s) (crcOk : Bool) (t : Nat) :
    ∃ sx, execSig crcOk t s = .next sx ∧ Kept from0 sx := by
  unfold execSig
  try dsimp only
  repeat' first
    | with_reducible assumption
    | with_reducible refine ⟨_, rfl, ?_⟩
    | with_reducible first | apply kept_at | apply kept_takeSig
    | with_reducible refine kept_ite ?_ ?_
    | split
    | with_reducible refine kept_mk ?_ rfl rfl rfl rfl rfl rfl rfl rfl rfl rfl rfl rfl rfl rfl rfl rfl rfl

theorem kept_execRunReport {s : State} (hk : Kept from0 s) (t : Nat) :
    ∃ sx, execRunReport t s = .next sx ∧ Kept from0 sx := by
  unfold execRunReport
  try dsimp only
  repeat' first
    | with_reducible assumption
    | with_reducible refine ⟨_, rfl, ?_⟩
    | with_reducible first | apply kept_at | apply kept_tryCompare
    | with_reducible refine kept_ite ?_ ?_
    | split
    | with_reducible refine kept_mk ?_ rfl rfl rfl rfl rfl rfl rfl rfl rfl rfl rfl rfl rfl rfl rfl rfl rfl

theorem kept_execDecisionTime {s : State} (hk : Kept from0 s) (t : Nat) :
    ∃ sx, execDecisionTime t s = .next sx ∧ Kept from0 sx := by
  unfold execDecisionTime
  try dsimp only
  repeat' first
    | with_reducible assumption
    | with_reducible refine ⟨_, rfl, ?_⟩
    | with_reducible first | apply kept_at | apply kept_decideFrame
    | with_reducible refine kept_ite ?_ ?_
    | split

theorem kept_execWatchdogKick {s : State} (hk : Kept from0 s) (who : Ident) (stage : BitVec 6) (frame : BitVec 32) (t : Nat) :
    ∃ sx, execWatchdogKick who stage frame t s = .next sx ∧ Kept from0 sx := by
  unfold execWatchdogKick
  try dsimp only
  repeat' first
    | with_reducible assumption
    | with_reducible refine ⟨_, rfl, ?_⟩
    | with_reducible first | apply kept_at | apply kept_bump | apply kept_violateEval | apply kept_kickStage
    | with_reducible refine kept_ite ?_ ?_
    | split

theorem kept_execWatchdogClose {s : State} (hk : Kept from0 s) (stage : BitVec 6) (t : Nat) :
    ∃ sx, execWatchdogClose stage t s = .next sx ∧ Kept from0 sx := by
  unfold execWatchdogClose
  try dsimp only
  repeat' first
    | with_reducible assumption
    | with_reducible refine ⟨_, rfl, ?_⟩
    | with_reducible first | apply kept_at | apply kept_violateEval | apply kept_closeStage
    | with_reducible refine kept_ite ?_ ?_
    | split

theorem kept_execComparatorTest {s : State} (hk : Kept from0 s) (pass : Bool) :
    ∃ sx, execComparatorTest pass s = .next sx ∧ Kept from0 sx := by
  unfold execComparatorTest
  try dsimp only
  repeat' first
    | with_reducible assumption
    | with_reducible refine ⟨_, rfl, ?_⟩
    | with_reducible first | apply kept_bump | apply kept_setRegBit | apply kept_syncActive | apply kept_logLehrA
    | with_reducible refine kept_ite ?_ ?_
    | split
    | with_reducible refine kept_mk ?_ rfl rfl rfl rfl rfl rfl rfl rfl rfl rfl rfl rfl rfl rfl rfl rfl rfl

theorem kept_execLehraEvlogRead {s : State} (hk : Kept from0 s) :
    ∃ sx, execLehraEvlogRead s = .next sx ∧ Kept from0 sx := by
  unfold execLehraEvlogRead
  try dsimp only
  repeat' first
    | with_reducible assumption
    | with_reducible refine ⟨_, rfl, ?_⟩
    | with_reducible refine kept_mk ?_ rfl rfl rfl rfl rfl rfl rfl rfl rfl rfl rfl rfl rfl rfl rfl rfl rfl
    | ((with_reducible refine kept_mk_logs ?_ rfl rfl rfl rfl rfl rfl rfl rfl rfl ?_ ?_ ?_ ?_ ?_ ?_ ?_ ?_) <;> try first
        | with_reducible exact id
        | with_reducible exact fun l => EvLog.within_push l _ _ _
        | with_reducible exact fun l => EvLog.within_pop l
        | with_reducible exact fun _ => EvLog.within_empty _
        | with_reducible exact fun l => logs_sput l _ (EvLog.within_push (logs_sget l _) _ _ _)
        | with_reducible exact fun l => logs_sput l _ (EvLog.within_pop (logs_sget l _))
        | with_reducible exact fun l => logs_sput l _ (EvLog.within_empty _)
        | exact fun _ => EvLog.within_empty _
        | exact fun _ => Nat.zero_le _
        | exact fun _ _ h => (List.not_mem_nil h).elim
        | exact fun l => logs_sput l _ (EvLog.within_empty _))

/-! ### Machine/Rings.lean -/

theorem kept_setRingSt {s : State} (hk : Kept from0 s) (n : Nat) (x : Nat) :
    Kept from0 (setRingSt s n x) := by
  unfold setRingSt
  try dsimp only
  repeat' first
    | with_reducible assumption
    | with_reducible first | apply kept_setRegFld

theorem kept_syncRings {s : State} (hk : Kept from0 s) :
    Kept from0 (syncRings s) := by
  unfold syncRings
  try dsimp only
  repeat' first
    | with_reducible assumption
    | with_reducible first | apply kept_setRegFld
    | with_reducible refine kept_foldl ?_ (fun _ _ _ => ?_)
    | with_reducible refine kept_foldl_pair ?_ (fun _ _ _ => ?_)
    | with_reducible refine kept_ite ?_ ?_
    | split

theorem kept_ringSettle {s : State} (hk : Kept from0 s) (n : Nat) :
    Kept from0 (ringSettle s n) := by
  unfold ringSettle
  try dsimp only
  repeat' first
    | with_reducible assumption
    | with_reducible first | apply kept_setRingSt
    | with_reducible refine kept_ite ?_ ?_
    | split

theorem kept_ringError {s : State} (hk : Kept from0 s) (n : Nat) :
    Kept from0 (ringError s n) := by
  unfold ringError
  try dsimp only
  repeat' first
    | with_reducible assumption
    | with_reducible first | apply kept_setRingSt | apply kept_markCancel
    | with_reducible refine kept_foldl ?_ (fun _ _ _ => ?_)
    | with_reducible refine kept_foldl_pair ?_ (fun _ _ _ => ?_)
    | with_reducible refine kept_ite ?_ ?_
    | split
    | with_reducible refine kept_mk ?_ rfl rfl rfl rfl rfl rfl rfl rfl rfl rfl rfl rfl rfl rfl rfl rfl rfl

theorem kept_resetRing {s : State} (hk : Kept from0 s) (n : Nat) :
    Kept from0 (resetRing s n) := by
  unfold resetRing
  try dsimp only
  repeat' first
    | with_reducible assumption
    | with_reducible first | apply kept_setRegFld | apply kept_resetRegs

theorem kept_resetFunction {s : State} (hk : Kept from0 s) (p : Nat) :
    Kept from0 (resetFunction s p) := by
  unfold resetFunction
  try dsimp only
  repeat' first
    | with_reducible assumption
    | with_reducible first | apply kept_markCancel | apply kept_resetRing | apply kept_syncLive
    | with_reducible refine kept_foldl ?_ (fun _ _ _ => ?_)
    | with_reducible refine kept_foldl_pair ?_ (fun _ _ _ => ?_)
    | with_reducible refine kept_ite ?_ ?_
    | split
    | with_reducible refine kept_mk ?_ rfl rfl rfl rfl rfl rfl rfl rfl rfl rfl rfl rfl rfl rfl rfl rfl rfl

theorem kept_toHost {s : State} (hk : Kept from0 s) (m : HostMsg) : Kept from0 (State.toHost s m) :=
  ⟨hk.pending, hk.fresh, hk.regs, hk.dram, hk.logs, hk.can, prefix_append hk.host _, hk.sent, hk.arb, hk.dbg⟩

theorem kept_writeRecord {s : State} (hk : Kept from0 s) (n : Nat) (entry : List Byte) (status : Nat) (result : Nat) (spec : Bool) (done : Nat) :
    Kept from0 (writeRecord s n entry status result spec done) := by
  unfold writeRecord
  try dsimp only
  repeat' first
    | with_reducible assumption
    | with_reducible first | apply kept_toHost | apply kept_setRegFld
    | with_reducible refine kept_ite ?_ ?_
    | split

theorem kept_badDoorbell {s : State} (hk : Kept from0 s) (n : Nat) :
    Kept from0 (badDoorbell s n) := by
  unfold badDoorbell
  try dsimp only
  repeat' first
    | with_reducible assumption
    | with_reducible first | apply kept_setRegBit | apply kept_ringError
    | with_reducible refine kept_ite ?_ ?_
    | split

theorem kept_writeSqTail {s : State} (hk : Kept from0 s) (n : Nat) (v : Nat) :
    Kept from0 (writeSqTail s n v) := by
  unfold writeSqTail
  try dsimp only
  repeat' first
    | with_reducible assumption
    | with_reducible first | apply kept_setRegFld | apply kept_badDoorbell
    | with_reducible refine kept_ite ?_ ?_
    | split

theorem kept_writeCqHead {s : State} (hk : Kept from0 s) (n : Nat) (v : Nat) :
    Kept from0 (writeCqHead s n v) := by
  unfold writeCqHead
  try dsimp only
  repeat' first
    | with_reducible assumption
    | with_reducible first | apply kept_setRegFld | apply kept_badDoorbell
    | with_reducible refine kept_ite ?_ ?_
    | split

theorem kept_bar2Write {s : State} (hk : Kept from0 s) (fn : Nat) (n : Nat) (page : Nat) (aligned32 : Bool) (v : Nat) :
    Kept from0 (bar2Write s fn n page aligned32 v) := by
  unfold bar2Write
  try dsimp only
  repeat' first
    | with_reducible assumption
    | with_reducible first | apply kept_setRegBit | apply kept_writeSqTail | apply kept_writeCqHead
    | with_reducible refine kept_ite ?_ ?_
    | split

theorem kept_hostAnswer {s : State} (hk : Kept from0 s) (poisoned : Bool) (bs : List Byte) :
    Kept from0 (hostAnswer s poisoned bs) := by
  unfold hostAnswer
  try dsimp only
  repeat' first
    | with_reducible assumption
    | with_reducible refine kept_fst (by assumption) ?_
    | with_reducible refine kept_mk ?_ rfl rfl rfl rfl rfl rfl rfl rfl rfl rfl rfl rfl rfl rfl rfl rfl rfl

theorem kept_bar2Access {s : State} (hk : Kept from0 s) (fn : Fin 16) (ring : Fin 256) (page : BitVec 12) (aligned32 : Bool) (v : Option (BitVec 32)) :
    Kept from0 (bar2Access s fn ring page aligned32 v) := by
  unfold bar2Access
  try dsimp only
  repeat' first
    | with_reducible assumption
    | with_reducible first | apply kept_bar2Write | apply kept_hostAnswer
    | with_reducible refine kept_ite ?_ ?_
    | split
    | with_reducible refine kept_mk ?_ rfl rfl rfl rfl rfl rfl rfl rfl rfl rfl rfl rfl rfl rfl rfl rfl rfl

theorem kept_execSqTailDoorbell {s : State} (hk : Kept from0 s) (fn : Fin 16) (ring : Fin 256) (place : Bar2Place) (v : Option (BitVec 32)) :
    ∃ sx, execSqTailDoorbell fn ring place v s = .next sx ∧ Kept from0 sx := by
  unfold execSqTailDoorbell
  try dsimp only
  repeat' first
    | with_reducible assumption
    | with_reducible refine ⟨_, rfl, ?_⟩
    | with_reducible first | apply kept_bar2Access

theorem kept_execCqHeadDoorbell {s : State} (hk : Kept from0 s) (fn : Fin 16) (ring : Fin 256) (place : Bar2Place) (v : Option (BitVec 32)) :
    ∃ sx, execCqHeadDoorbell fn ring place v s = .next sx ∧ Kept from0 sx := by
  unfold execCqHeadDoorbell
  try dsimp only
  repeat' first
    | with_reducible assumption
    | with_reducible refine ⟨_, rfl, ?_⟩
    | with_reducible first | apply kept_bar2Access

theorem kept_execRingEnable {s : State} (hk : Kept from0 s) (who : Ident) (ring : Fin 256) :
    ∃ sx, execRingEnable who ring s = .next sx ∧ Kept from0 sx := by
  unfold execRingEnable
  try dsimp only
  repeat' first
    | with_reducible assumption
    | with_reducible refine ⟨_, rfl, ?_⟩
    | with_reducible first | apply kept_setRegBit | apply kept_setReg | apply kept_setRingSt
    | with_reducible refine kept_foldl ?_ (fun _ _ _ => ?_)
    | with_reducible refine kept_foldl_pair ?_ (fun _ _ _ => ?_)
    | with_reducible refine kept_ite ?_ ?_
    | split
    | with_reducible refine kept_mk ?_ rfl rfl rfl rfl rfl rfl rfl rfl rfl rfl rfl rfl rfl rfl rfl rfl rfl

theorem kept_execRingDisable {s : State} (hk : Kept from0 s) (who : Ident) (ring : Fin 256) :
    ∃ sx, execRingDisable who ring s = .next sx ∧ Kept from0 sx := by
  unfold execRingDisable
  try dsimp only
  repeat' first
    | with_reducible assumption
    | with_reducible refine ⟨_, rfl, ?_⟩
    | with_reducible first | apply kept_setRegBit | apply kept_ringSettle | apply kept_setRingSt
    | with_reducible refine kept_ite ?_ ?_
    | split

theorem kept_execEntryReadError {s : State} (hk : Kept from0 s) (ring : Fin 256) :
    ∃ sx, execEntryReadError ring s = .next sx ∧ Kept from0 sx := by
  unfold execEntryReadError
  try dsimp only
  repeat' first
    | with_reducible assumption
    | with_reducible refine ⟨_, rfl, ?_⟩
    | with_reducible first | apply kept_ringError | apply kept_setRegBit
    | with_reducible refine kept_ite ?_ ?_
    | split

theorem kept_execRecordWriteRefused {s : State} (hk : Kept from0 s) (ring : Fin 256) :
    ∃ sx, execRecordWriteRefused ring s = .next sx ∧ Kept from0 sx := by
  unfold execRecordWriteRefused
  try dsimp only
  repeat' first
    | with_reducible assumption
    | with_reducible refine ⟨_, rfl, ?_⟩
    | with_reducible first | apply kept_ringError | apply kept_setRegBit
    | with_reducible refine kept_ite ?_ ?_
    | split

theorem kept_execBar4Read {s : State} (hk : Kept from0 s) (fn : Fin 16) (off : BitVec 36) (lenm1 : BitVec 12) (ecc : MemEcc) :
    ∃ sx, execBar4Read fn off lenm1 ecc s = .next sx ∧ Kept from0 sx := by
  unfold execBar4Read
  try dsimp only
  repeat' first
    | with_reducible assumption
    | with_reducible refine ⟨_, rfl, ?_⟩
    | with_reducible first | apply kept_hostAnswer | apply kept_devRead | apply kept_bump
    | with_reducible refine kept_fst (by assumption) ?_
    | with_reducible refine kept_ite ?_ ?_
    | split
    | with_reducible refine kept_mk ?_ rfl rfl rfl rfl rfl rfl rfl rfl rfl rfl rfl rfl rfl rfl rfl rfl rfl

theorem kept_execBar4Write {s : State} (hk : Kept from0 s) (fn : Fin 16) (off : BitVec 36) (bytes : List (BitVec 8)) :
    ∃ sx, execBar4Write fn off bytes s = .next sx ∧ Kept from0 sx := by
  unfold execBar4Write
  try dsimp only
  repeat' first
    | with_reducible assumption
    | with_reducible refine ⟨_, rfl, ?_⟩
    | with_reducible first | apply kept_devWrite | apply kept_bump
    | with_reducible refine kept_fst (by assumption) ?_
    | with_reducible refine kept_ite ?_ ?_
    | split
    | with_reducible refine kept_mk ?_ rfl rfl rfl rfl rfl rfl rfl rfl rfl rfl rfl rfl rfl rfl rfl rfl rfl

theorem kept_freeSequences {s : State} (hk : Kept from0 s) (p : Nat) :
    Kept from0 (freeSequences s p) := by
  unfold freeSequences
  try dsimp only
  repeat' first
    | with_reducible assumption
    | with_reducible first | apply kept_freeSeq
    | with_reducible refine kept_foldl ?_ (fun _ _ _ => ?_)
    | with_reducible refine kept_foldl_pair ?_ (fun _ _ _ => ?_)
    | with_reducible refine kept_ite ?_ ?_
    | split

theorem kept_settleFunction {s : State} (hk : Kept from0 s) (p : Nat) :
    Kept from0 (settleFunction s p) := by
  unfold settleFunction
  try dsimp only
  repeat' first
    | with_reducible assumption
    | with_reducible first | apply kept_releaseDomains | apply kept_freeSequences
    | with_reducible refine kept_ite ?_ ?_
    | split

theorem kept_execFunctionLevelReset {s : State} (hk : Kept from0 s) (fn : Fin 16) (t : Nat) :
    ∃ sx, execFunctionLevelReset fn t s = .next sx ∧ Kept from0 sx := by
  unfold execFunctionLevelReset
  try dsimp only
  repeat' first
    | with_reducible assumption
    | with_reducible refine ⟨_, rfl, ?_⟩
    | with_reducible first | apply kept_at | apply kept_resetFunction | apply kept_startReset | apply kept_settleFunction | apply kept_bumpSat

theorem kept_execVirtualFunctionEnable {s : State} (hk : Kept from0 s) (fn : Fin 16) (on : Bool) :
    ∃ sx, execVirtualFunctionEnable fn on s = .next sx ∧ Kept from0 sx := by
  unfold execVirtualFunctionEnable
  try dsimp only
  repeat' first
    | with_reducible assumption
    | with_reducible refine ⟨_, rfl, ?_⟩
    | with_reducible first | apply kept_resetFunction | apply kept_syncRings | apply kept_setRegBit
    | with_reducible refine kept_ite ?_ ?_
    | split

/-! ### Machine/Entry.lean -/

theorem kept_readArgs {s : State} (hk : Kept from0 s) (r : Req) (ecc : MemEcc) (a : Nat) (n : Nat) :
    Kept from0 (readArgs s r ecc a n).1 := by
  unfold readArgs
  try dsimp only
  repeat' first
    | with_reducible assumption
    | with_reducible first | apply kept_devRead
    | with_reducible refine kept_fst (by assumption) ?_
    | with_reducible refine kept_ite ?_ ?_
    | split
    | with_reducible refine kept_mk ?_ rfl rfl rfl rfl rfl rfl rfl rfl rfl rfl rfl rfl rfl rfl rfl rfl rfl

theorem kept_checkImages {a4 : State} (hk : Kept from0 a4) (r : Req) (ecc : MemEcc) (nslot : Nat) (a3 : List Nat) :
    Kept from0 (checkImages r ecc nslot a3 a4).1 := by
  induction a3 generalizing r ecc nslot a4 with
  | nil =>
    unfold checkImages
    try dsimp only
    repeat' first
      | with_reducible assumption
      | with_reducible first | apply kept_devRead
      | with_reducible refine kept_fst (by assumption) ?_
      | with_reducible refine kept_ite ?_ ?_
      | split
      | with_reducible refine kept_mk ?_ rfl rfl rfl rfl rfl rfl rfl rfl rfl rfl rfl rfl rfl rfl rfl rfl rfl
  | cons b l ih =>
    unfold checkImages
    try dsimp only
    repeat' first
      | with_reducible assumption
      | with_reducible apply ih
      | with_reducible first | apply kept_devRead
      | with_reducible refine kept_fst (by assumption) ?_
      | with_reducible refine kept_ite ?_ ?_
      | split
      | with_reducible refine kept_mk ?_ rfl rfl rfl rfl rfl rfl rfl rfl rfl rfl rfl rfl rfl rfl rfl rfl rfl

theorem kept_readDesc {s : State} (hk : Kept from0 s) (r : Req) (ecc : MemEcc) (a : Nat) :
    Kept from0 (readDesc s r ecc a).1 := by
  unfold readDesc
  try dsimp only
  repeat' first
    | with_reducible assumption
    | with_reducible first | apply kept_devRead | apply kept_checkImages
    | with_reducible refine kept_fst (by assumption) ?_
    | with_reducible refine kept_ite ?_ ?_
    | split
    | with_reducible refine kept_mk ?_ rfl rfl rfl rfl rfl rfl rfl rfl rfl rfl rfl rfl rfl rfl rfl rfl rfl

theorem kept_findDesc {s : State} (hk : Kept from0 s) (part : Nat) (e : List Byte) (r : Req) (ecc : MemEcc) :
    Kept from0 (findDesc s part e r ecc).1 := by
  unfold findDesc
  try dsimp only
  repeat' first
    | with_reducible assumption
    | with_reducible first | apply kept_readDesc
    | with_reducible refine kept_fst (by assumption) ?_
    | with_reducible refine kept_ite ?_ ?_
    | split
    | with_reducible refine kept_mk ?_ rfl rfl rfl rfl rfl rfl rfl rfl rfl rfl rfl rfl rfl rfl rfl rfl rfl

theorem kept_runChecks {s : State} (hk : Kept from0 s) (part : Nat) (e : List Byte) (ecc : MemEcc) :
    Kept from0 (runChecks s part e ecc).1 := by
  unfold runChecks
  try dsimp only
  repeat' first
    | with_reducible assumption
    | with_reducible first | apply kept_readArgs | apply kept_findDesc
    | with_reducible refine kept_fst (by assumption) ?_
    | with_reducible refine kept_ite ?_ ?_
    | split
    | with_reducible refine kept_mk ?_ rfl rfl rfl rfl rfl rfl rfl rfl rfl rfl rfl rfl rfl rfl rfl rfl rfl

theorem kept_goLive {s : State} (hk : Kept from0 s) (n : Nat) (c : Cmd) :
    Kept from0 (goLive s n c) := by
  unfold goLive
  try dsimp only
  repeat' first
    | with_reducible assumption
    | with_reducible first | apply kept_syncLive | apply kept_setRegFld | apply kept_addMember | apply kept_noteLehrA | apply kept_markCancel
    | with_reducible refine kept_ite ?_ ?_
    | split
    | with_reducible refine kept_mk ?_ rfl rfl rfl rfl rfl rfl rfl rfl rfl rfl rfl rfl rfl rfl rfl rfl rfl

theorem kept_refuseEntry {s : State} (hk : Kept from0 s) (n : Nat) (e : List Byte) (status : Nat) :
    Kept from0 (refuseEntry s n e status) := by
  unfold refuseEntry
  try dsimp only
  repeat' first
    | with_reducible assumption
    | with_reducible first | apply kept_writeRecord | apply kept_memberFailed
    | with_reducible refine kept_ite ?_ ?_
    | split

theorem kept_takeTurn {s : State} (hk : Kept from0 s) (n : Nat) :
    Kept from0 (takeTurn s n) := by
  unfold takeTurn
  try dsimp only
  repeat' first
    | with_reducible assumption
    | with_reducible refine kept_ite ?_ ?_
    | split
    | with_reducible refine kept_mk ?_ rfl rfl rfl rfl rfl rfl rfl rfl rfl rfl rfl rfl rfl rfl rfl rfl rfl

theorem kept_fetchEntry {s : State} (hk : Kept from0 s) (n : Nat) :
    Kept from0 (fetchEntry s n) := by
  unfold fetchEntry
  try dsimp only
  repeat' first
    | with_reducible assumption
    | with_reducible first | apply kept_toHost | apply kept_takeTurn | apply kept_bump | apply kept_setRegFld

theorem kept_execEntryConsume {s : State} (hk : Kept from0 s) (ring : Fin 256) (entry : BitVec 512) (ecc : MemEcc) (t : Nat) :
    ∃ sx, execEntryConsume ring entry ecc t s = .next sx ∧ Kept from0 sx := by
  unfold execEntryConsume
  try dsimp only
  repeat' first
    | with_reducible assumption
    | with_reducible refine ⟨_, rfl, ?_⟩
    | with_reducible first | apply kept_at | apply kept_fetchEntry | apply kept_refuseEntry | apply kept_runChecks | apply kept_goLive
    | with_reducible refine kept_fst (by assumption) ?_
    | with_reducible refine kept_ite ?_ ?_
    | split
    | with_reducible refine kept_mk ?_ rfl rfl rfl rfl rfl rfl rfl rfl rfl rfl rfl rfl rfl rfl rfl rfl rfl

theorem kept_noteMet {s : State} (hk : Kept from0 s) :
    Kept from0 (noteMet s) := by
  unfold noteMet
  try dsimp only
  repeat' first
    | with_reducible assumption
    | with_reducible refine kept_mk ?_ rfl rfl rfl rfl rfl rfl rfl rfl rfl rfl rfl rfl rfl rfl rfl rfl rfl

theorem kept_activate {s : State} (hk : Kept from0 s) (p : Nat) :
    Kept from0 (activate s p) := by
  unfold activate
  try dsimp only
  repeat' first
    | with_reducible assumption
    | with_reducible first | apply kept_setReg
    | with_reducible refine kept_foldl ?_ (fun _ _ _ => ?_)
    | with_reducible refine kept_foldl_pair ?_ (fun _ _ _ => ?_)
    | split
    | with_reducible refine kept_mk ?_ rfl rfl rfl rfl rfl rfl rfl rfl rfl rfl rfl rfl rfl rfl rfl rfl rfl

theorem kept_markReady {s : State} (hk : Kept from0 s) (c : Cmd) :
    Kept from0 (markReady s c) := by
  unfold markReady
  try dsimp only
  repeat' first
    | with_reducible assumption
    | with_reducible first | apply kept_activate | apply kept_mapCmd
    | with_reducible refine kept_ite ?_ ?_
    | split
    | with_reducible refine kept_mk ?_ rfl rfl rfl rfl rfl rfl rfl rfl rfl rfl rfl rfl rfl rfl rfl rfl rfl

theorem kept_execCommandReady {s : State} (hk : Kept from0 s) (part : Fin 16) (seq : BitVec 32) (t : Nat) :
    ∃ sx, execCommandReady part seq t s = .next sx ∧ Kept from0 sx := by
  unfold execCommandReady
  try dsimp only
  repeat' first
    | with_reducible assumption
    | with_reducible refine ⟨_, rfl, ?_⟩
    | with_reducible first | apply kept_at | apply kept_markCancel | apply kept_markReady | apply kept_mapCmd | apply kept_syncSpec
    | with_reducible refine kept_ite ?_ ?_
    | split
    | with_reducible refine kept_mk ?_ rfl rfl rfl rfl rfl rfl rfl rfl rfl rfl rfl rfl rfl rfl rfl rfl rfl

/-! ### Machine/Place.lean -/

theorem kept_startResolve {s : State} (hk : Kept from0 s) (c : Cmd) :
    ∀ sx, startResolve s c = .ok sx → Kept from0 sx := by
  unfold startResolve
  intro sx hx
  revert hx
  try dsimp only
  repeat' first
    | with_reducible assumption
    | with_reducible first | apply kept_resolveAt | apply kept_markCancel | apply kept_mapCmd
    | (intro hx; cases hx)
    | with_reducible refine kept_fst (by assumption) ?_
    | with_reducible refine kept_foldl ?_ (fun _ _ _ => ?_)
    | with_reducible refine kept_foldl_pair ?_ (fun _ _ _ => ?_)
    | with_reducible refine kept_ite ?_ ?_
    | split
    | with_reducible refine kept_mk ?_ rfl rfl rfl rfl rfl rfl rfl rfl rfl rfl rfl rfl rfl rfl rfl rfl rfl

theorem kept_startReserve {s : State} (hk : Kept from0 s) (c : Cmd) :
    ∀ sx, startReserve s c = .ok sx → Kept from0 sx := by
  unfold startReserve
  intro sx hx
  revert hx
  try dsimp only
  repeat' first
    | with_reducible assumption
    | with_reducible first | apply kept_mapCmd
    | (intro hx; cases hx)
    | with_reducible refine kept_reserve ?_ _ _ _ _ _ _ (_, _) (by assumption)
    | with_reducible refine kept_ite ?_ ?_
    | split
    | with_reducible refine kept_mk ?_ rfl rfl rfl rfl rfl rfl rfl rfl rfl rfl rfl rfl rfl rfl rfl rfl rfl

theorem kept_startCmd {s : State} (hk : Kept from0 s) (c : Cmd) :
    Kept from0 (startCmd s c) := by
  unfold startCmd
  try dsimp only
  repeat' first
    | with_reducible assumption
    | with_reducible first | apply kept_markCancel | apply kept_refused | apply kept_syncSpec | apply kept_mapCmd
    | with_reducible refine kept_startResolve ?_ _ _ (by assumption)
    | with_reducible refine kept_startReserve ?_ _ _ (by assumption)
    | split
    | with_reducible refine kept_mk ?_ rfl rfl rfl rfl rfl rfl rfl rfl rfl rfl rfl rfl rfl rfl rfl rfl rfl

theorem kept_loadSlots {s : State} (hk : Kept from0 s) (k : Nat) (c : Cmd) (d : KDesc) (prog : Nat) :
    Kept from0 (loadSlots s k c d prog) := by
  unfold loadSlots
  try dsimp only
  repeat' first
    | with_reducible assumption
    | with_reducible first | apply kept_setReg
    | with_reducible refine kept_foldl ?_ (fun _ _ _ => ?_)
    | with_reducible refine kept_foldl_pair ?_ (fun _ _ _ => ?_)

theorem kept_loadCore {s : State} (hk : Kept from0 s) (k : Nat) (c : Cmd) (d : KDesc) (kind : RunKind) (prog : Nat) (resume : Bool) (log : List DebugWrite) (ecc : MemEcc) :
    Kept from0 (loadCore s k c d kind prog resume log ecc) := by
  unfold loadCore
  try dsimp only
  repeat' first
    | with_reducible assumption
    | with_reducible first | apply kept_setReg | apply kept_zeroCounters | apply kept_loadSlots | apply kept_devRead | apply kept_bump
    | with_reducible first | apply kept_setCoreSt | apply kept_setCore | apply kept_syncTpstat | apply kept_tileFault
    | with_reducible refine kept_fst (by assumption) ?_
    | with_reducible refine kept_foldl ?_ (fun _ _ _ => ?_)
    | with_reducible refine kept_foldl_pair ?_ (fun _ _ _ => ?_)
    | with_reducible refine kept_ite ?_ ?_
    | split
    | with_reducible refine kept_mk ?_ rfl rfl rfl rfl rfl rfl rfl rfl rfl rfl rfl rfl rfl rfl rfl rfl rfl

theorem kept_noteCoverage {s : State} (hk : Kept from0 s) (x : Cand) (k : Nat) :
    Kept from0 (noteCoverage s x k) := by
  unfold noteCoverage
  try dsimp only
  repeat' first
    | with_reducible assumption
    | with_reducible first | apply kept_noteSplit
    | with_reducible refine kept_ite ?_ ?_
    | split

theorem kept_dispatchRun {s : State} (hk : Kept from0 s) (x : Cand) (k : Nat) (ecc : MemEcc) :
    Kept from0 (dispatchRun s x k ecc) := by
  unfold dispatchRun
  try dsimp only
  repeat' first
    | with_reducible assumption
    | with_reducible first | apply kept_loadCore | apply kept_mapRun | apply kept_noteCoverage
    | with_reducible refine kept_ite ?_ ?_
    | split
    | with_reducible refine kept_mk ?_ rfl rfl rfl rfl rfl rfl rfl rfl rfl rfl rfl rfl rfl rfl rfl rfl rfl
    | ((with_reducible refine kept_mk_logs ?_ rfl rfl rfl rfl rfl rfl rfl rfl rfl ?_ ?_ ?_ ?_ ?_ ?_ ?_ ?_) <;> try first
        | with_reducible exact id
        | with_reducible exact fun l => EvLog.within_push l _ _ _
        | with_reducible exact fun l => EvLog.within_pop l
        | with_reducible exact fun _ => EvLog.within_empty _
        | with_reducible exact fun l => logs_sput l _ (EvLog.within_push (logs_sget l _) _ _ _)
        | with_reducible exact fun l => logs_sput l _ (EvLog.within_pop (logs_sget l _))
        | with_reducible exact fun l => logs_sput l _ (EvLog.within_empty _)
        | exact fun _ => EvLog.within_empty _
        | exact fun _ => Nat.zero_le _
        | exact fun _ _ h => (List.not_mem_nil h).elim
        | exact fun l => logs_sput l _ (EvLog.within_empty _))

theorem kept_dispatchNext {s : State} (hk : Kept from0 s) (p : Cmd → Bool) (ecc : MemEcc) :
    Kept from0 (dispatchNext s p ecc) := by
  unfold dispatchNext
  try dsimp only
  repeat' first
    | with_reducible assumption
    | with_reducible first | apply kept_startCmd | apply kept_dispatchRun
    | with_reducible refine kept_ite ?_ ?_
    | split
    | with_reducible refine kept_mk ?_ rfl rfl rfl rfl rfl rfl rfl rfl rfl rfl rfl rfl rfl rfl rfl rfl rfl

theorem kept_execDispatch {s : State} (hk : Kept from0 s) (ecc : MemEcc) (t : Nat) :
    ∃ sx, execDispatch ecc t s = .next sx ∧ Kept from0 sx := by
  unfold execDispatch
  try dsimp only
  repeat' first
    | with_reducible assumption
    | with_reducible refine ⟨_, rfl, ?_⟩
    | with_reducible first | apply kept_dispatchNext | apply kept_at

theorem kept_startOp {s : State} (hk : Kept from0 s) (c : Cmd) :
    Kept from0 (startOp s c) := by
  unfold startOp
  try dsimp only
  repeat' first
    | with_reducible assumption
    | with_reducible first | apply kept_mapCmd
    | with_reducible refine kept_ite ?_ ?_
    | split
    | with_reducible refine kept_mk ?_ rfl rfl rfl rfl rfl rfl rfl rfl rfl rfl rfl rfl rfl rfl rfl rfl rfl

theorem kept_execCommandStart {s : State} (hk : Kept from0 s) (part : Fin 16) (seq : BitVec 32) (ecc : MemEcc) (t : Nat) :
    ∃ sx, execCommandStart part seq ecc t s = .next sx ∧ Kept from0 sx := by
  unfold execCommandStart
  try dsimp only
  repeat' first
    | with_reducible assumption
    | with_reducible refine ⟨_, rfl, ?_⟩
    | with_reducible first | apply kept_at | apply kept_dispatchNext | apply kept_startOp
    | with_reducible refine kept_ite ?_ ?_
    | split
    | with_reducible refine kept_mk ?_ rfl rfl rfl rfl rfl rfl rfl rfl rfl rfl rfl rfl rfl rfl rfl rfl rfl

theorem kept_execRunLayer {s : State} (hk : Kept from0 s) (part : Fin 16) (seq : BitVec 32) (ecc : MemEcc) (t : Nat) :
    ∃ sx, execRunLayer part seq ecc t s = .next sx ∧ Kept from0 sx := by
  unfold execRunLayer
  try dsimp only
  repeat' first
    | with_reducible assumption
    | with_reducible refine ⟨_, rfl, ?_⟩
    | with_reducible first | apply kept_dispatchNext | apply kept_at

theorem kept_execRunKernel {s : State} (hk : Kept from0 s) (part : Fin 16) (seq : BitVec 32) (ecc : MemEcc) (t : Nat) :
    ∃ sx, execRunKernel part seq ecc t s = .next sx ∧ Kept from0 sx := by
  unfold execRunKernel
  try dsimp only
  repeat' first
    | with_reducible assumption
    | with_reducible refine ⟨_, rfl, ?_⟩
    | with_reducible first | apply kept_dispatchNext | apply kept_at

/-! ### Machine/BenchRun.lean -/

theorem kept_settleTime {s : State} (hk : Kept from0 s) (p : Nat) (k : Nat) (waste : Bool) :
    Kept from0 (settleTime s p k waste) := by
  unfold settleTime
  try dsimp only
  repeat' first
    | with_reducible assumption
    | with_reducible first | apply kept_accrue | apply kept_bump | apply kept_setCore
    | with_reducible refine kept_ite ?_ ?_
    | split
    | with_reducible refine kept_mk ?_ rfl rfl rfl rfl rfl rfl rfl rfl rfl rfl rfl rfl rfl rfl rfl rfl rfl

theorem kept_execAccountingTick {s : State} (hk : Kept from0 s) (core : Fin 96) (t : Nat) :
    ∃ sx, execAccountingTick core t s = .next sx ∧ Kept from0 sx := by
  unfold execAccountingTick
  try dsimp only
  repeat' first
    | with_reducible assumption
    | with_reducible refine ⟨_, rfl, ?_⟩
    | with_reducible first | apply kept_at | apply kept_accrue | apply kept_bump | apply kept_setCore
    | with_reducible refine kept_ite ?_ ?_
    | split
    | with_reducible refine kept_mk ?_ rfl rfl rfl rfl rfl rfl rfl rfl rfl rfl rfl rfl rfl rfl rfl rfl rfl

theorem kept_removeTie {s : State} (hk : Kept from0 s) (t : TieRun) :
    Kept from0 (removeTie s t) := by
  unfold removeTie
  try dsimp only
  repeat' first
    | with_reducible assumption
    | with_reducible refine kept_mk ?_ rfl rfl rfl rfl rfl rfl rfl rfl rfl rfl rfl rfl rfl rfl rfl rfl rfl

theorem kept_sendReport {s : State} (hk : Kept from0 s) (c : Cmd) (prog : Nat) (kind : RunKind) (k : Nat) (fault : Nat) :
    Kept from0 (sendReport s c prog kind k fault) := by
  unfold sendReport
  try dsimp only
  repeat' first
    | with_reducible assumption
    | with_reducible refine kept_fst (by assumption) ?_
    | with_reducible refine kept_ite ?_ ?_
    | split
    | with_reducible refine kept_mk ?_ rfl rfl rfl rfl rfl rfl rfl rfl rfl rfl rfl rfl rfl rfl rfl rfl rfl

theorem kept_killCore {s : State} (hk : Kept from0 s) (k : Nat) :
    Kept from0 (killCore s k) := by
  unfold killCore
  try dsimp only
  repeat' first
    | with_reducible assumption
    | with_reducible first | apply kept_stopStreams | apply kept_setCoreSt | apply kept_setRegBit | apply kept_setReg
    | with_reducible refine kept_ite ?_ ?_
    | split

theorem kept_dropRunStaged {s : State} (hk : Kept from0 s) (c : Cmd) (r : ProgRun) :
    Kept from0 (dropRunStaged s c r) := by
  unfold dropRunStaged
  try dsimp only
  repeat' first
    | with_reducible assumption
    | with_reducible first | apply kept_dropSince | apply kept_dropStaged | apply kept_dropRun
    | with_reducible refine kept_ite ?_ ?_
    | split
    | with_reducible refine kept_mk ?_ rfl rfl rfl rfl rfl rfl rfl rfl rfl rfl rfl rfl rfl rfl rfl rfl rfl

theorem kept_faultRun {s : State} (hk : Kept from0 s) (c : Cmd) (r : ProgRun) (k : Nat) :
    Kept from0 (faultRun s c r k) := by
  unfold faultRun
  try dsimp only
  repeat' first
    | with_reducible assumption
    | with_reducible first | apply kept_sendReport | apply kept_settleTime | apply kept_mapRun | apply kept_discardRecord
    | with_reducible refine kept_ite ?_ ?_
    | split
    | with_reducible refine kept_mk ?_ rfl rfl rfl rfl rfl rfl rfl rfl rfl rfl rfl rfl rfl rfl rfl rfl rfl

theorem kept_faultCmd {s : State} (hk : Kept from0 s) (c : Cmd) (prog : Nat) (k : Nat) :
    Kept from0 (faultCmd s c prog k) := by
  unfold faultCmd
  try dsimp only
  repeat' first
    | with_reducible assumption
    | with_reducible first | apply kept_mapCmd | apply kept_markCancel
    | with_reducible refine kept_ite ?_ ?_
    | split
    | with_reducible refine kept_mk ?_ rfl rfl rfl rfl rfl rfl rfl rfl rfl rfl rfl rfl rfl rfl rfl rfl rfl

theorem kept_faultTaken {s : State} (hk : Kept from0 s) (c : Cmd) (r : ProgRun) (k : Nat) :
    Kept from0 (faultTaken s c r k) := by
  unfold faultTaken
  try dsimp only
  repeat' first
    | with_reducible assumption
    | with_reducible first | apply kept_faultRun | apply kept_faultCmd
    | split
    | with_reducible refine kept_mk ?_ rfl rfl rfl rfl rfl rfl rfl rfl rfl rfl rfl rfl rfl rfl rfl rfl rfl

theorem kept_killRun {s : State} (hk : Kept from0 s) (c : Cmd) (r : ProgRun) (k : Nat) :
    Kept from0 (killRun s c r k) := by
  unfold killRun
  try dsimp only
  repeat' first
    | with_reducible assumption
    | with_reducible first | apply kept_killCore | apply kept_settleTime | apply kept_discardRecord | apply kept_mapRun
    | with_reducible first | apply kept_dropRunStaged | apply kept_faultTaken
    | with_reducible refine kept_ite ?_ ?_
    | split
    | with_reducible refine kept_mk ?_ rfl rfl rfl rfl rfl rfl rfl rfl rfl rfl rfl rfl rfl rfl rfl rfl rfl

theorem kept_execKill {s : State} (hk : Kept from0 s) (core : Fin 96) (t : Nat) :
    ∃ sx, execKill core t s = .next sx ∧ Kept from0 sx := by
  unfold execKill
  try dsimp only
  repeat' first
    | with_reducible assumption
    | with_reducible refine ⟨_, rfl, ?_⟩
    | with_reducible first | apply kept_at | apply kept_killRun | apply kept_dropTies | apply kept_killCore | apply kept_settleTime
    | with_reducible refine kept_ite ?_ ?_
    | split
    | with_reducible refine kept_mk ?_ rfl rfl rfl rfl rfl rfl rfl rfl rfl rfl rfl rfl rfl rfl rfl rfl rfl

theorem kept_killRuns {s : State} (hk : Kept from0 s) (key : Nat) :
    Kept from0 (killRuns s key) := by
  unfold killRuns
  try dsimp only
  repeat' first
    | with_reducible assumption
    | with_reducible first | apply kept_killRun
    | with_reducible refine kept_foldl ?_ (fun _ _ _ => ?_)
    | with_reducible refine kept_foldl_pair ?_ (fun _ _ _ => ?_)
    | split
    | with_reducible refine kept_mk ?_ rfl rfl rfl rfl rfl rfl rfl rfl rfl rfl rfl rfl rfl rfl rfl rfl rfl

theorem kept_preemptKill {s : State} (hk : Kept from0 s) (k : Nat) :
    Kept from0 (preemptKill s k) := by
  unfold preemptKill
  try dsimp only
  repeat' first
    | with_reducible assumption
    | with_reducible first | apply kept_bump | apply kept_killRun
    | split
    | with_reducible refine kept_mk ?_ rfl rfl rfl rfl rfl rfl rfl rfl rfl rfl rfl rfl rfl rfl rfl rfl rfl

theorem kept_runEnded {s : State} (hk : Kept from0 s) (c : Cmd) (r : ProgRun) (k : Nat) :
    Kept from0 (runEnded s c r k) := by
  unfold runEnded
  try dsimp only
  repeat' first
    | with_reducible assumption
    | with_reducible first | apply kept_sendReport | apply kept_settleTime | apply kept_mapRun | apply kept_mapCmd | apply kept_noteMet
    | with_reducible refine kept_fst (by assumption) ?_
    | with_reducible refine kept_ite ?_ ?_
    | split
    | with_reducible refine kept_mk ?_ rfl rfl rfl rfl rfl rfl rfl rfl rfl rfl rfl rfl rfl rfl rfl rfl rfl
    | ((with_reducible refine kept_mk_logs ?_ rfl rfl rfl rfl rfl rfl rfl rfl rfl ?_ ?_ ?_ ?_ ?_ ?_ ?_ ?_) <;> try first
        | with_reducible exact id
        | with_reducible exact fun l => EvLog.within_push l _ _ _
        | with_reducible exact fun l => EvLog.within_pop l
        | with_reducible exact fun _ => EvLog.within_empty _
        | with_reducible exact fun l => logs_sput l _ (EvLog.within_push (logs_sget l _) _ _ _)
        | with_reducible exact fun l => logs_sput l _ (EvLog.within_pop (logs_sget l _))
        | with_reducible exact fun l => logs_sput l _ (EvLog.within_empty _)
        | exact fun _ => EvLog.within_empty _
        | exact fun _ => Nat.zero_le _
        | exact fun _ _ h => (List.not_mem_nil h).elim
        | exact fun l => logs_sput l _ (EvLog.within_empty _))

theorem kept_execRunEnd {s : State} (hk : Kept from0 s) (core : Fin 96) (t : Nat) :
    ∃ sx, execRunEnd core t s = .next sx ∧ Kept from0 sx := by
  unfold execRunEnd
  try dsimp only
  repeat' first
    | with_reducible assumption
    | with_reducible refine ⟨_, rfl, ?_⟩
    | with_reducible first | apply kept_at | apply kept_runEnded | apply kept_removeTie | apply kept_sendReport | apply kept_settleTime
    | with_reducible refine kept_ite ?_ ?_
    | split
    | with_reducible refine kept_mk ?_ rfl rfl rfl rfl rfl rfl rfl rfl rfl rfl rfl rfl rfl rfl rfl rfl rfl

theorem kept_execRunFault {s : State} (hk : Kept from0 s) (core : Fin 96) (t : Nat) :
    ∃ sx, execRunFault core t s = .next sx ∧ Kept from0 sx := by
  unfold execRunFault
  try dsimp only
  repeat' first
    | with_reducible assumption
    | with_reducible refine ⟨_, rfl, ?_⟩
    | with_reducible first | apply kept_at | apply kept_killRuns | apply kept_faultCmd | apply kept_faultRun | apply kept_removeTie
    | with_reducible first | apply kept_sendReport | apply kept_settleTime
    | with_reducible refine kept_ite ?_ ?_
    | split
    | with_reducible refine kept_mk ?_ rfl rfl rfl rfl rfl rfl rfl rfl rfl rfl rfl rfl rfl rfl rfl rfl rfl

theorem kept_execRunLimitExpired {s : State} (hk : Kept from0 s) (core : Fin 96) (t : Nat) :
    ∃ sx, execRunLimitExpired core t s = .next sx ∧ Kept from0 sx := by
  unfold execRunLimitExpired
  try dsimp only
  repeat' first
    | with_reducible assumption
    | with_reducible refine ⟨_, rfl, ?_⟩
    | with_reducible first | apply kept_accrue | apply kept_at | apply kept_bump | apply kept_killRuns | apply kept_markCancel
    | with_reducible first | apply kept_killRun | apply kept_dropTies | apply kept_killCore | apply kept_settleTime
    | with_reducible refine kept_ite ?_ ?_
    | split
    | with_reducible refine kept_mk ?_ rfl rfl rfl rfl rfl rfl rfl rfl rfl rfl rfl rfl rfl rfl rfl rfl rfl

theorem kept_execCheckpointSaveDone {s : State} (hk : Kept from0 s) (core : Fin 96) (meets : SaveMeets) (t : Nat) :
    ∃ sx, execCheckpointSaveDone core meets t s = .next sx ∧ Kept from0 sx := by
  unfold execCheckpointSaveDone
  try dsimp only
  repeat' first
    | with_reducible assumption
    | with_reducible refine ⟨_, rfl, ?_⟩
    | with_reducible first | apply kept_accrue | apply kept_at | apply kept_saveCkpt | apply kept_tileFault | apply kept_bump
    | with_reducible first | apply kept_settleTime | apply kept_toIdle | apply kept_mapRun
    | with_reducible refine kept_fst (by assumption) ?_
    | with_reducible refine kept_ite ?_ ?_
    | split
    | with_reducible refine kept_mk ?_ rfl rfl rfl rfl rfl rfl rfl rfl rfl rfl rfl rfl rfl rfl rfl rfl rfl

theorem kept_execCheckpointWaitTimeout {s : State} (hk : Kept from0 s) (core : Fin 96) (t : Nat) :
    ∃ sx, execCheckpointWaitTimeout core t s = .next sx ∧ Kept from0 sx := by
  unfold execCheckpointWaitTimeout
  try dsimp only
  repeat' first
    | with_reducible assumption
    | with_reducible refine ⟨_, rfl, ?_⟩
    | with_reducible first | apply kept_at | apply kept_preemptKill
    | with_reducible refine kept_ite ?_ ?_
    | split

theorem kept_takeVictim {s : State} (hk : Kept from0 s) (v : Victim) :
    Kept from0 (takeVictim s v) := by
  unfold takeVictim
  try dsimp only
  repeat' first
    | with_reducible assumption
    | with_reducible first | apply kept_requestCkpt | apply kept_preemptKill
    | with_reducible refine kept_ite ?_ ?_
    | split
    | with_reducible refine kept_mk ?_ rfl rfl rfl rfl rfl rfl rfl rfl rfl rfl rfl rfl rfl rfl rfl rfl rfl

theorem kept_execPreempt {s : State} (hk : Kept from0 s) (staging : Option (Fin 4)) (t : Nat) :
    ∃ sx, execPreempt staging t s = .next sx ∧ Kept from0 sx := by
  unfold execPreempt
  try dsimp only
  repeat' first
    | with_reducible assumption
    | with_reducible refine ⟨_, rfl, ?_⟩
    | with_reducible first | apply kept_at | apply kept_preemptKill | apply kept_takeVictim
    | with_reducible refine kept_ite ?_ ?_
    | split
    | with_reducible refine kept_mk ?_ rfl rfl rfl rfl rfl rfl rfl rfl rfl rfl rfl rfl rfl rfl rfl rfl rfl

theorem kept_execPreemptQuantum {s : State} (hk : Kept from0 s) (part : Fin 16) (seq : BitVec 32) (t : Nat) :
    ∃ sx, execPreemptQuantum part seq t s = .next sx ∧ Kept from0 sx := by
  unfold execPreemptQuantum
  try dsimp only
  repeat' first
    | with_reducible assumption
    | with_reducible refine ⟨_, rfl, ?_⟩
    | with_reducible first | apply kept_at
    | with_reducible refine kept_ite ?_ ?_
    | split
    | with_reducible refine kept_mk ?_ rfl rfl rfl rfl rfl rfl rfl rfl rfl rfl rfl rfl rfl rfl rfl rfl rfl

theorem kept_execReheatSliceStart {s : State} (hk : Kept from0 s) (die : Fin 12) (t : Nat) :
    ∃ sx, execReheatSliceStart die t s = .next sx ∧ Kept from0 sx := by
  unfold execReheatSliceStart
  try dsimp only
  repeat' first
    | with_reducible assumption
    | with_reducible refine ⟨_, rfl, ?_⟩
    | with_reducible first | apply kept_at | apply kept_bump | apply kept_setCoreSt
    | with_reducible refine kept_ite ?_ ?_
    | split
    | with_reducible refine kept_mk ?_ rfl rfl rfl rfl rfl rfl rfl rfl rfl rfl rfl rfl rfl rfl rfl rfl rfl

end Sys2Proof.Machine
end

