-- ==== Sys2Proof/Laws/KeptMarver.lean ====
section
/-! SUPPORT. What the operations keep: Marver. -/

namespace Sys2Proof.Machine

variable {from0 : State}

/-! ### Machine/MarverTime.lean -/

theorem kept_logMarver {s : State} (hk : Kept from0 s) (code : Nat) (stream : Nat) (frame : Nat) :
    Kept from0 (State.logMarver s code stream frame) := by
  unfold State.logMarver
  try dsimp only
  repeat' first
    | with_reducible assumption
    | with_reducible first | apply kept_setRegBit | apply kept_raise
    | with_reducible refine kept_ite ?_ ?_
    | split
    | with_reducible refine kept_mk ?_ rfl rfl rfl rfl rfl rfl rfl rfl rfl rfl rfl rfl rfl rfl rfl rfl rfl
    | ((with_reducible refine kept_mk_logs ?_ rfl rfl rfl rfl rfl rfl rfl rfl rfl ?_ ?_ ?_ ?_ ?_ ?_ ?_ ?_) <;> try first
        | with_reducible exact id
        | with_reducible exact fun l => EvLog.within_push l _ _ _
        | with_reducible exact fun l => EvLog.within_pop l
        | with_reducible exact fun _ => EvLog.within_empty _
        | with_reducible exact fun l => logs_sput l _ (EvLog.within_push (logs_sget l _) _ _ _)
        | with_reducible exact fun l => logs_sput l _ (EvLog.within_pop (logs_sget l _))
        | with_reducible exact fun l => logs_sput l _ (EvLog.within_empty _)
        | exact fun _ => EvLog.within_empty _
        | exact fun _ => Nat.zero_le _
        | exact fun _ _ h => (List.not_mem_nil h).elim
        | exact fun l => logs_sput l _ (EvLog.within_empty _))

theorem kept_marverEvent {s : State} (hk : Kept from0 s) (e : Nat) (f : Nat) :
    Kept from0 (marverEvent s e f) := by
  unfold marverEvent
  try dsimp only
  repeat' first
    | with_reducible assumption
    | with_reducible first | apply kept_setRegFld | apply kept_evalFrame | apply kept_kickFor
    | with_reducible refine kept_ite ?_ ?_
    | split

theorem kept_setMstream {s : State} (hk : Kept from0 s) (i : Nat) (x : MStream) :
    Kept from0 (State.setMstream s i x) := by
  unfold State.setMstream
  try dsimp only
  repeat' first
    | with_reducible assumption
    | with_reducible refine kept_mk ?_ rfl rfl rfl rfl rfl rfl rfl rfl rfl rfl rfl rfl rfl rfl rfl rfl rfl

theorem kept_setServo {s : State} (hk : Kept from0 s) (i : Nat) (v : Servo) :
    Kept from0 (setServo s i v) := by
  unfold setServo
  try dsimp only
  repeat' first
    | with_reducible assumption
    | with_reducible first | apply kept_setMstream | apply kept_setReg
    | with_reducible refine kept_mk ?_ rfl rfl rfl rfl rfl rfl rfl rfl rfl rfl rfl rfl rfl rfl rfl rfl rfl

theorem kept_setServoSt {s : State} (hk : Kept from0 s) (i : Nat) (x : Nat) :
    Kept from0 (setServoSt s i x) := by
  unfold setServoSt
  try dsimp only
  repeat' first
    | with_reducible assumption
    | with_reducible first | apply kept_setRegFld

theorem kept_syncHealth {s : State} (hk : Kept from0 s) (i : Nat) :
    Kept from0 (syncHealth s i) := by
  unfold syncHealth
  try dsimp only
  repeat' first
    | with_reducible assumption
    | with_reducible first | apply kept_setRegBit

theorem kept_lockServo {s : State} (hk : Kept from0 s) (i : Nat) :
    Kept from0 (lockServo s i) := by
  unfold lockServo
  try dsimp only
  repeat' first
    | with_reducible assumption
    | with_reducible first | apply kept_syncHealth | apply kept_setServoSt | apply kept_setServo
    | with_reducible refine kept_mk ?_ rfl rfl rfl rfl rfl rfl rfl rfl rfl rfl rfl rfl rfl rfl rfl rfl rfl

theorem kept_enterUnsync {s : State} (hk : Kept from0 s) (i : Nat) (cause : Nat) :
    Kept from0 (enterUnsync s i cause) := by
  unfold enterUnsync
  try dsimp only
  repeat' first
    | with_reducible assumption
    | with_reducible first | apply kept_setRegFld | apply kept_setServoSt | apply kept_setServo | apply kept_bumpSat | apply kept_syncHealth
    | with_reducible first | apply kept_logMarver
    | with_reducible refine kept_ite ?_ ?_
    | split
    | with_reducible refine kept_mk ?_ rfl rfl rfl rfl rfl rfl rfl rfl rfl rfl rfl rfl rfl rfl rfl rfl rfl

theorem kept_sampleTaken {s : State} (hk : Kept from0 s) (i : Nat) (initialised : Bool) :
    Kept from0 (sampleTaken s i initialised) := by
  unfold sampleTaken
  try dsimp only
  repeat' first
    | with_reducible assumption
    | with_reducible first | apply kept_setServo | apply kept_lockServo | apply kept_enterUnsync
    | with_reducible refine kept_ite ?_ ?_
    | split
    | with_reducible refine kept_mk ?_ rfl rfl rfl rfl rfl rfl rfl rfl rfl rfl rfl rfl rfl rfl rfl rfl rfl

theorem kept_sampleRejected {s : State} (hk : Kept from0 s) (i : Nat) :
    Kept from0 (sampleRejected s i) := by
  unfold sampleRejected
  try dsimp only
  repeat' first
    | with_reducible assumption
    | with_reducible first | apply kept_bump | apply kept_setServo | apply kept_enterUnsync
    | with_reducible refine kept_ite ?_ ?_
    | split
    | with_reducible refine kept_mk ?_ rfl rfl rfl rfl rfl rfl rfl rfl rfl rfl rfl rfl rfl rfl rfl rfl rfl

theorem kept_servoSample {s : State} (hk : Kept from0 s) (i : Nat) (src : Nat) (tin : Nat) :
    Kept from0 (servoSample s i src tin) := by
  unfold servoSample
  try dsimp only
  repeat' first
    | with_reducible assumption
    | with_reducible first | apply kept_setServo | apply kept_sampleRejected | apply kept_bump | apply kept_sampleTaken
    | with_reducible refine kept_ite ?_ ?_
    | split
    | with_reducible refine kept_mk ?_ rfl rfl rfl rfl rfl rfl rfl rfl rfl rfl rfl rfl rfl rfl rfl rfl rfl

theorem kept_servoBoundary {s : State} (hk : Kept from0 s) (i : Nat) :
    Kept from0 (servoBoundary s i) := by
  unfold servoBoundary
  try dsimp only
  repeat' first
    | with_reducible assumption
    | with_reducible first | apply kept_enterUnsync | apply kept_setRegFld | apply kept_lockServo | apply kept_setServo
    | with_reducible refine kept_ite ?_ ?_
    | split
    | with_reducible refine kept_mk ?_ rfl rfl rfl rfl rfl rfl rfl rfl rfl rfl rfl rfl rfl rfl rfl rfl rfl

theorem kept_sourceTime {s : State} (hk : Kept from0 s) (i : Nat) (bs : List Byte) :
    Kept from0 (sourceTime s i bs).1 := by
  unfold sourceTime
  try dsimp only
  repeat' first
    | with_reducible assumption
    | with_reducible first | apply kept_sampleRejected | apply kept_setServo
    | with_reducible refine kept_ite ?_ ?_
    | split
    | with_reducible refine kept_mk ?_ rfl rfl rfl rfl rfl rfl rfl rfl rfl rfl rfl rfl rfl rfl rfl rfl rfl

theorem kept_mapPeriod {s : State} (hk : Kept from0 s) (f : Nat) (g : MPeriod → MPeriod) :
    Kept from0 (mapPeriod s f g) := by
  unfold mapPeriod
  try dsimp only
  repeat' first
    | with_reducible assumption
    | with_reducible refine kept_ite ?_ ?_
    | split
    | with_reducible refine kept_mk ?_ rfl rfl rfl rfl rfl rfl rfl rfl rfl rfl rfl rfl rfl rfl rfl rfl rfl

theorem kept_logOnce {s : State} (hk : Kept from0 s) (f : Nat) (code : Nat) (stream : Nat) :
    Kept from0 (logOnce s f code stream) := by
  unfold logOnce
  try dsimp only
  repeat' first
    | with_reducible assumption
    | with_reducible first | apply kept_logMarver | apply kept_mapPeriod
    | with_reducible refine kept_ite ?_ ?_
    | split
    | with_reducible refine kept_mk ?_ rfl rfl rfl rfl rfl rfl rfl rfl rfl rfl rfl rfl rfl rfl rfl rfl rfl

theorem kept_execStreamEnable {s : State} (hk : Kept from0 s) (stream : Fin 64) (t : Nat) :
    ∃ sx, execStreamEnable stream t s = .next sx ∧ Kept from0 sx := by
  unfold execStreamEnable
  try dsimp only
  repeat' first
    | with_reducible assumption
    | with_reducible refine ⟨_, rfl, ?_⟩
    | with_reducible first | apply kept_at | apply kept_setRegFld | apply kept_setRegBit | apply kept_setServo | apply kept_setReg
    | with_reducible first | apply kept_syncHealth | apply kept_setServoSt
    | with_reducible refine kept_ite ?_ ?_
    | split
    | with_reducible refine kept_mk ?_ rfl rfl rfl rfl rfl rfl rfl rfl rfl rfl rfl rfl rfl rfl rfl rfl rfl

theorem kept_execStreamDisable {s : State} (hk : Kept from0 s) (stream : Fin 64) :
    ∃ sx, execStreamDisable stream s = .next sx ∧ Kept from0 sx := by
  unfold execStreamDisable
  try dsimp only
  repeat' first
    | with_reducible assumption
    | with_reducible refine ⟨_, rfl, ?_⟩
    | with_reducible first | apply kept_setRegBit | apply kept_setServo | apply kept_syncHealth | apply kept_setServoSt
    | with_reducible refine kept_mk ?_ rfl rfl rfl rfl rfl rfl rfl rfl rfl rfl rfl rfl rfl rfl rfl rfl rfl

theorem kept_execServoHoldTimeout {s : State} (hk : Kept from0 s) (stream : Fin 64) (t : Nat) :
    ∃ sx, execServoHoldTimeout stream t s = .next sx ∧ Kept from0 sx := by
  unfold execServoHoldTimeout
  try dsimp only
  repeat' first
    | with_reducible assumption
    | with_reducible refine ⟨_, rfl, ?_⟩
    | with_reducible first | apply kept_at | apply kept_setServoSt
    | with_reducible refine kept_ite ?_ ?_
    | split

theorem kept_execServoHoldmaxTimeout {s : State} (hk : Kept from0 s) (stream : Fin 64) (t : Nat) :
    ∃ sx, execServoHoldmaxTimeout stream t s = .next sx ∧ Kept from0 sx := by
  unfold execServoHoldmaxTimeout
  try dsimp only
  repeat' first
    | with_reducible assumption
    | with_reducible refine ⟨_, rfl, ?_⟩
    | with_reducible first | apply kept_at | apply kept_enterUnsync
    | with_reducible refine kept_ite ?_ ?_
    | split

theorem kept_execInjwrWrite {s : State} (hk : Kept from0 s) (stream : Fin 64) (v : BitVec 32) :
    ∃ sx, execInjwrWrite stream v s = .next sx ∧ Kept from0 sx := by
  unfold execInjwrWrite
  try dsimp only
  repeat' first
    | with_reducible assumption
    | with_reducible refine ⟨_, rfl, ?_⟩
    | with_reducible first | apply kept_setRegBit | apply kept_setRegFld
    | with_reducible refine kept_ite ?_ ?_
    | split

theorem kept_setGp {s : State} (hk : Kept from0 s) (g : Gptp) :
    Kept from0 (setGp s g) := by
  unfold setGp
  try dsimp only
  repeat' first
    | with_reducible assumption
    | with_reducible first | apply kept_setReg
    | with_reducible refine kept_mk ?_ rfl rfl rfl rfl rfl rfl rfl rfl rfl rfl rfl rfl rfl rfl rfl rfl rfl

theorem kept_steer {s : State} (hk : Kept from0 s) :
    Kept from0 (steer s) := by
  unfold steer
  try dsimp only
  repeat' first
    | with_reducible assumption
    | with_reducible first | apply kept_setGp | apply kept_setRegBit
    | with_reducible refine kept_ite ?_ ?_
    | split
    | with_reducible refine kept_mk ?_ rfl rfl rfl rfl rfl rfl rfl rfl rfl rfl rfl rfl rfl rfl rfl rfl rfl

theorem kept_gptpMiss {s : State} (hk : Kept from0 s) (n : Nat) :
    Kept from0 (gptpMiss s n) := by
  unfold gptpMiss
  try dsimp only
  repeat' first
    | with_reducible assumption
    | with_reducible first | apply kept_setRegFld | apply kept_setGp
    | with_reducible refine kept_mk ?_ rfl rfl rfl rfl rfl rfl rfl rfl rfl rfl rfl rfl rfl rfl rfl rfl rfl

theorem kept_gptpShows {s : State} (hk : Kept from0 s) :
    Kept from0 (gptpShows s) := by
  unfold gptpShows
  try dsimp only
  repeat' first
    | with_reducible assumption
    | with_reducible first | apply kept_gptpMiss
    | with_reducible refine kept_ite ?_ ?_
    | split

theorem kept_noteSample {s : State} (hk : Kept from0 s) :
    Kept from0 (noteSample s) := by
  unfold noteSample
  try dsimp only
  repeat' first
    | with_reducible assumption
    | with_reducible first | apply kept_gptpMiss | apply kept_setGp
    | with_reducible refine kept_mk ?_ rfl rfl rfl rfl rfl rfl rfl rfl rfl rfl rfl rfl rfl rfl rfl rfl rfl

theorem kept_gptpSample {s0 : State} (hk : Kept from0 s0) (src : Nat) (tin : Nat) :
    Kept from0 (gptpSample s0 src tin) := by
  unfold gptpSample
  try dsimp only
  repeat' first
    | with_reducible assumption
    | with_reducible first | apply kept_noteSample | apply kept_setGp | apply kept_steer | apply kept_setRegFld
    | with_reducible refine kept_ite ?_ ?_
    | split
    | with_reducible refine kept_mk ?_ rfl rfl rfl rfl rfl rfl rfl rfl rfl rfl rfl rfl rfl rfl rfl rfl rfl

theorem kept_gptpOn {s : State} (hk : Kept from0 s) :
    Kept from0 (gptpOn s) := by
  unfold gptpOn
  try dsimp only
  repeat' first
    | with_reducible assumption
    | with_reducible first | apply kept_setGp | apply kept_setRegFld
    | with_reducible refine kept_ite ?_ ?_
    | split
    | with_reducible refine kept_mk ?_ rfl rfl rfl rfl rfl rfl rfl rfl rfl rfl rfl rfl rfl rfl rfl rfl rfl

theorem kept_execGptpSync {s : State} (hk : Kept from0 s) (domain : BitVec 7) (sq : BitVec 16) (twoStep : Bool) (origin : BitVec 64) (corr : BitVec 64) (t : Nat) :
    ∃ sx, execGptpSync domain sq twoStep origin corr t s = .next sx ∧ Kept from0 sx := by
  unfold execGptpSync
  try dsimp only
  repeat' first
    | with_reducible assumption
    | with_reducible refine ⟨_, rfl, ?_⟩
    | with_reducible first | apply kept_at | apply kept_gptpOn | apply kept_setGp | apply kept_gptpSample
    | with_reducible refine kept_ite ?_ ?_
    | split
    | with_reducible refine kept_mk ?_ rfl rfl rfl rfl rfl rfl rfl rfl rfl rfl rfl rfl rfl rfl rfl rfl rfl

theorem kept_execGptpFollowUp {s : State} (hk : Kept from0 s) (domain : BitVec 7) (sq : BitVec 16) (origin : BitVec 64) (corr : BitVec 64) (t : Nat) :
    ∃ sx, execGptpFollowUp domain sq origin corr t s = .next sx ∧ Kept from0 sx := by
  unfold execGptpFollowUp
  try dsimp only
  repeat' first
    | with_reducible assumption
    | with_reducible refine ⟨_, rfl, ?_⟩
    | with_reducible first | apply kept_at | apply kept_setGp | apply kept_gptpSample
    | with_reducible refine kept_ite ?_ ?_
    | split
    | with_reducible refine kept_mk ?_ rfl rfl rfl rfl rfl rfl rfl rfl rfl rfl rfl rfl rfl rfl rfl rfl rfl

theorem kept_execGptpAnnounce {s : State} (hk : Kept from0 s) (domain : BitVec 7) (gm : BitVec 64) :
    ∃ sx, execGptpAnnounce domain gm s = .next sx ∧ Kept from0 sx := by
  unfold execGptpAnnounce
  try dsimp only
  repeat' first
    | with_reducible assumption
    | with_reducible refine ⟨_, rfl, ?_⟩
    | with_reducible first | apply kept_gptpOn | apply kept_setReg | apply kept_setRegFld | apply kept_setRegBit | apply kept_setGp
    | with_reducible refine kept_ite ?_ ?_
    | split
    | with_reducible refine kept_mk ?_ rfl rfl rfl rfl rfl rfl rfl rfl rfl rfl rfl rfl rfl rfl rfl rfl rfl

theorem kept_execPdelayReqSend {s : State} (hk : Kept from0 s) (sq : BitVec 16) (t : Nat) :
    ∃ sx, execPdelayReqSend sq t s = .next sx ∧ Kept from0 sx := by
  unfold execPdelayReqSend
  try dsimp only
  repeat' first
    | with_reducible assumption
    | with_reducible refine ⟨_, rfl, ?_⟩
    | with_reducible first | apply kept_at | apply kept_setGp
    | with_reducible refine kept_ite ?_ ?_
    | split
    | with_reducible refine kept_mk ?_ rfl rfl rfl rfl rfl rfl rfl rfl rfl rfl rfl rfl rfl rfl rfl rfl rfl

theorem kept_execPdelayResp {s : State} (hk : Kept from0 s) (sq : BitVec 16) (t2 : BitVec 64) (t3 : BitVec 64) (t : Nat) :
    ∃ sx, execPdelayResp sq t2 t3 t s = .next sx ∧ Kept from0 sx := by
  unfold execPdelayResp
  try dsimp only
  repeat' first
    | with_reducible assumption
    | with_reducible refine ⟨_, rfl, ?_⟩
    | with_reducible first | apply kept_at | apply kept_setGp
    | with_reducible refine kept_ite ?_ ?_
    | split
    | with_reducible refine kept_mk ?_ rfl rfl rfl rfl rfl rfl rfl rfl rfl rfl rfl rfl rfl rfl rfl rfl rfl

theorem kept_execGptpSyncTimeout {s : State} (hk : Kept from0 s) (t : Nat) :
    ∃ sx, execGptpSyncTimeout t s = .next sx ∧ Kept from0 sx := by
  unfold execGptpSyncTimeout
  try dsimp only
  repeat' first
    | with_reducible assumption
    | with_reducible refine ⟨_, rfl, ?_⟩
    | with_reducible first | apply kept_at | apply kept_gptpMiss | apply kept_setGp | apply kept_setRegFld
    | with_reducible refine kept_ite ?_ ?_
    | split
    | with_reducible refine kept_mk ?_ rfl rfl rfl rfl rfl rfl rfl rfl rfl rfl rfl rfl rfl rfl rfl rfl rfl

theorem kept_execSteerHoldoverExpiry {s : State} (hk : Kept from0 s) (t : Nat) :
    ∃ sx, execSteerHoldoverExpiry t s = .next sx ∧ Kept from0 sx := by
  unfold execSteerHoldoverExpiry
  try dsimp only
  repeat' first
    | with_reducible assumption
    | with_reducible refine ⟨_, rfl, ?_⟩
    | with_reducible first | apply kept_at | apply kept_setGp
    | with_reducible refine kept_ite ?_ ?_
    | split
    | with_reducible refine kept_mk ?_ rfl rfl rfl rfl rfl rfl rfl rfl rfl rfl rfl rfl rfl rfl rfl rfl rfl

theorem kept_execDeviceTimeAdjust {s : State} (hk : Kept from0 s) (add : Bool) (t : Nat) :
    ∃ sx, execDeviceTimeAdjust add t s = .next sx ∧ Kept from0 sx := by
  unfold execDeviceTimeAdjust
  try dsimp only
  repeat' first
    | with_reducible assumption
    | with_reducible refine ⟨_, rfl, ?_⟩
    | with_reducible first | apply kept_at | apply kept_setGp
    | with_reducible refine kept_ite ?_ ?_
    | split
    | with_reducible refine kept_mk ?_ rfl rfl rfl rfl rfl rfl rfl rfl rfl rfl rfl rfl rfl rfl rfl rfl rfl

theorem kept_execMarverEvlogRead {s : State} (hk : Kept from0 s) :
    ∃ sx, execMarverEvlogRead s = .next sx ∧ Kept from0 sx := by
  unfold execMarverEvlogRead
  try dsimp only
  repeat' first
    | with_reducible assumption
    | with_reducible refine ⟨_, rfl, ?_⟩
    | with_reducible refine kept_mk ?_ rfl rfl rfl rfl rfl rfl rfl rfl rfl rfl rfl rfl rfl rfl rfl rfl rfl
    | ((with_reducible refine kept_mk_logs ?_ rfl rfl rfl rfl rfl rfl rfl rfl rfl ?_ ?_ ?_ ?_ ?_ ?_ ?_ ?_) <;> try first
        | with_reducible exact id
        | with_reducible exact fun l => EvLog.within_push l _ _ _
        | with_reducible exact fun l => EvLog.within_pop l
        | with_reducible exact fun _ => EvLog.within_empty _
        | with_reducible exact fun l => logs_sput l _ (EvLog.within_push (logs_sget l _) _ _ _)
        | with_reducible exact fun l => logs_sput l _ (EvLog.within_pop (logs_sget l _))
        | with_reducible exact fun l => logs_sput l _ (EvLog.within_empty _)
        | exact fun _ => EvLog.within_empty _
        | exact fun _ => Nat.zero_le _
        | exact fun _ _ h => (List.not_mem_nil h).elim
        | exact fun l => logs_sput l _ (EvLog.within_empty _))

/-! ### Machine/MarverIngest.lean -/

theorem kept_marverWrite {s : State} (hk : Kept from0 s) (a : Nat) (bs : List Byte) :
    Kept from0 (marverWrite s a bs) := by
  unfold marverWrite
  try dsimp only
  repeat' first
    | with_reducible assumption
    | with_reducible first | apply kept_devWrite
    | with_reducible refine kept_fst (by assumption) ?_

theorem kept_writeHeader {s : State} (hk : Kept from0 s) (i : Nat) (x : MSlot) :
    Kept from0 (writeHeader s i x) := by
  unfold writeHeader
  try dsimp only
  repeat' first
    | with_reducible assumption
    | with_reducible first | apply kept_marverWrite

theorem kept_openSlot {s : State} (hk : Kept from0 s) (i : Nat) (index : Nat) :
    Kept from0 (openSlot s i index) := by
  unfold openSlot
  try dsimp only
  repeat' first
    | with_reducible assumption
    | with_reducible first | apply kept_marverWrite

theorem kept_dropItems {s : State} (hk : Kept from0 s) (i : Nat) (k : Nat) :
    Kept from0 (dropItems s i k) := by
  unfold dropItems
  try dsimp only
  repeat' first
    | with_reducible assumption
    | with_reducible first | apply kept_bump

theorem kept_putSlot {s : State} (hk : Kept from0 s) (i : Nat) (x : MSlot) :
    Kept from0 (putSlot s i x) := by
  unfold putSlot
  try dsimp only
  repeat' first
    | with_reducible assumption
    | with_reducible first | apply kept_setMstream
    | with_reducible refine kept_mk ?_ rfl rfl rfl rfl rfl rfl rfl rfl rfl rfl rfl rfl rfl rfl rfl rfl rfl

theorem kept_openFresh {s : State} (hk : Kept from0 s) (i : Nat) (f : Nat) (x : MSlot) :
    Kept from0 (openFresh s i f x) := by
  unfold openFresh
  try dsimp only
  repeat' first
    | with_reducible assumption
    | with_reducible first | apply kept_openSlot
    | with_reducible refine kept_ite ?_ ?_
    | split

theorem kept_flagCurrent {s : State} (hk : Kept from0 s) (i : Nat) (tin : Nat) (b : Nat) (k : Nat) :
    Kept from0 (flagCurrent s i tin b k) := by
  unfold flagCurrent
  try dsimp only
  repeat' first
    | with_reducible assumption
    | with_reducible first | apply kept_putSlot | apply kept_openFresh
    | with_reducible refine kept_ite ?_ ?_
    | split
    | with_reducible refine kept_mk ?_ rfl rfl rfl rfl rfl rfl rfl rfl rfl rfl rfl rfl rfl rfl rfl rfl rfl

theorem kept_noteLate {s : State} (hk : Kept from0 s) (i : Nat) (f : Nat) (tin : Nat) (k : Nat) :
    Kept from0 (noteLate s i f tin k) := by
  unfold noteLate
  try dsimp only
  repeat' first
    | with_reducible assumption
    | with_reducible first | apply kept_putSlot | apply kept_writeHeader
    | with_reducible refine kept_ite ?_ ?_
    | split
    | with_reducible refine kept_mk ?_ rfl rfl rfl rfl rfl rfl rfl rfl rfl rfl rfl rfl rfl rfl rfl rfl rfl

theorem kept_dropUntimely {s : State} (hk : Kept from0 s) (i : Nat) (w : When) (tin : Nat) (k : Nat) :
    Kept from0 (dropUntimely s i w tin k) := by
  unfold dropUntimely
  try dsimp only
  repeat' first
    | with_reducible assumption
    | with_reducible first | apply kept_dropItems | apply kept_noteLate
    | split
    | with_reducible refine kept_mk ?_ rfl rfl rfl rfl rfl rfl rfl rfl rfl rfl rfl rfl rfl rfl rfl rfl rfl

theorem kept_noteNewest {s : State} (hk : Kept from0 s) (i : Nat) (v : Int) :
    Kept from0 (noteNewest s i v) := by
  unfold noteNewest
  try dsimp only
  repeat' first
    | with_reducible assumption
    | with_reducible first | apply kept_setMstream
    | with_reducible refine kept_mk ?_ rfl rfl rfl rfl rfl rfl rfl rfl rfl rfl rfl rfl rfl rfl rfl rfl rfl

theorem kept_mapImage {s : State} (hk : Kept from0 s) (i : Nat) (g : MSlot → MSlot) :
    Kept from0 (mapImage s i g) := by
  unfold mapImage
  try dsimp only
  repeat' first
    | with_reducible assumption
    | with_reducible first | apply kept_setMstream
    | with_reducible refine kept_mk ?_ rfl rfl rfl rfl rfl rfl rfl rfl rfl rfl rfl rfl rfl rfl rfl rfl rfl

theorem kept_imageLine {s : State} (hk : Kept from0 s) (i : Nat) (data : List Byte) :
    Kept from0 (imageLine s i data) := by
  unfold imageLine
  try dsimp only
  repeat' first
    | with_reducible assumption
    | with_reducible first | apply kept_dropItems | apply kept_mapImage | apply kept_marverWrite
    | with_reducible refine kept_ite ?_ ?_
    | split
    | with_reducible refine kept_mk ?_ rfl rfl rfl rfl rfl rfl rfl rfl rfl rfl rfl rfl rfl rfl rfl rfl rfl

theorem kept_imageSource {s : State} (hk : Kept from0 s) (i : Nat) (data : List Byte) :
    Kept from0 (imageSource s i data) := by
  unfold imageSource
  try dsimp only
  repeat' first
    | with_reducible assumption
    | with_reducible first | apply kept_sourceTime | apply kept_setMstream | apply kept_servoSample
    | with_reducible refine kept_fst (by assumption) ?_
    | split
    | with_reducible refine kept_mk ?_ rfl rfl rfl rfl rfl rfl rfl rfl rfl rfl rfl rfl rfl rfl rfl rfl rfl

theorem kept_keepImage {s : State} (hk : Kept from0 s) (i : Nat) (y : MSlot) :
    Kept from0 (keepImage i s y) := by
  unfold keepImage
  try dsimp only
  repeat' first
    | with_reducible assumption
    | with_reducible first | apply kept_writeHeader | apply kept_setMstream
    | with_reducible refine kept_mk ?_ rfl rfl rfl rfl rfl rfl rfl rfl rfl rfl rfl rfl rfl rfl rfl rfl rfl

theorem kept_imageEnd {s : State} (hk : Kept from0 s) (i : Nat) :
    Kept from0 (imageEnd s i) := by
  unfold imageEnd
  try dsimp only
  repeat' first
    | with_reducible assumption
    | with_reducible first | apply kept_noteNewest | apply kept_setMstream | apply kept_keepImage | apply kept_writeHeader | apply kept_dropItems
    | split
    | with_reducible refine kept_mk ?_ rfl rfl rfl rfl rfl rfl rfl rfl rfl rfl rfl rfl rfl rfl rfl rfl rfl

theorem kept_imageBegin {s0 : State} (hk : Kept from0 s0) (i : Nat) (tin : Nat) :
    Kept from0 (imageBegin s0 i tin) := by
  unfold imageBegin
  try dsimp only
  repeat' first
    | with_reducible assumption
    | with_reducible first | apply kept_imageEnd | apply kept_mapImage | apply kept_setMstream | apply kept_openSlot
    | with_reducible refine kept_ite ?_ ?_
    | split
    | with_reducible refine kept_mk ?_ rfl rfl rfl rfl rfl rfl rfl rfl rfl rfl rfl rfl rfl rfl rfl rfl rfl

theorem kept_startCamera {s : State} (hk : Kept from0 s) (n : Nat) :
    Kept from0 (startCamera s n) := by
  unfold startCamera
  try dsimp only
  repeat' first
    | with_reducible assumption
    | with_reducible first | apply kept_setRegFld
    | with_reducible refine kept_ite ?_ ?_
    | split
    | with_reducible refine kept_mk ?_ rfl rfl rfl rfl rfl rfl rfl rfl rfl rfl rfl rfl rfl rfl rfl rfl rfl

theorem kept_startEthernet {s : State} (hk : Kept from0 s) (n : Nat) :
    Kept from0 (startEthernet s n) := by
  unfold startEthernet
  try dsimp only
  repeat' first
    | with_reducible assumption
    | with_reducible first | apply kept_setRegFld
    | with_reducible refine kept_ite ?_ ?_
    | split

theorem kept_trainCamera {s : State} (hk : Kept from0 s) (n : Nat) (ok : Bool) :
    Kept from0 (trainCamera s n ok) := by
  unfold trainCamera
  try dsimp only
  repeat' first
    | with_reducible assumption
    | with_reducible first | apply kept_setRegFld | apply kept_setRegBit
    | with_reducible refine kept_ite ?_ ?_
    | split
    | with_reducible refine kept_mk ?_ rfl rfl rfl rfl rfl rfl rfl rfl rfl rfl rfl rfl rfl rfl rfl rfl rfl

theorem kept_execCameraPortTraining {s : State} (hk : Kept from0 s) (port : Fin 16) (ok : Bool) :
    ∃ sx, execCameraPortTraining port ok s = .next sx ∧ Kept from0 sx := by
  unfold execCameraPortTraining
  try dsimp only
  repeat' first
    | with_reducible assumption
    | with_reducible refine ⟨_, rfl, ?_⟩
    | with_reducible first | apply kept_releaseDomains | apply kept_trainCamera

theorem kept_rawWrite {s : State} (hk : Kept from0 s) (i : Nat) (f : Nat) (tin : Nat) (fl : Nat) (raw : List Byte) :
    Kept from0 (rawWrite s i f tin fl raw) := by
  unfold rawWrite
  try dsimp only
  repeat' first
    | with_reducible assumption
    | with_reducible first | apply kept_openFresh | apply kept_dropItems | apply kept_putSlot | apply kept_marverWrite
    | with_reducible refine kept_ite ?_ ?_
    | split
    | with_reducible refine kept_mk ?_ rfl rfl rfl rfl rfl rfl rfl rfl rfl rfl rfl rfl rfl rfl rfl rfl rfl

theorem kept_pointArrive {s : State} (hk : Kept from0 s) (i : Nat) (tin : Nat) (src : Option Nat) (p : RawPoint) :
    Kept from0 (pointArrive s i tin src p) := by
  unfold pointArrive
  try dsimp only
  repeat' first
    | with_reducible assumption
    | with_reducible first | apply kept_noteNewest | apply kept_setMstream | apply kept_putSlot | apply kept_dropUntimely
    | with_reducible refine kept_fst (by assumption) ?_
    | with_reducible refine kept_ite ?_ ?_
    | split
    | with_reducible refine kept_mk ?_ rfl rfl rfl rfl rfl rfl rfl rfl rfl rfl rfl rfl rfl rfl rfl rfl rfl

theorem kept_packetArrive {s : State} (hk : Kept from0 s) (i : Nat) (tin : Nat) (raw : List Byte) (pay : List Byte) :
    Kept from0 (packetArrive s i tin raw pay) := by
  unfold packetArrive
  try dsimp only
  repeat' first
    | with_reducible assumption
    | with_reducible first | apply kept_sourceTime | apply kept_servoSample | apply kept_pointArrive | apply kept_flagCurrent
    | with_reducible first | apply kept_dropItems | apply kept_noteNewest | apply kept_rawWrite | apply kept_setMstream | apply kept_dropUntimely
    | with_reducible refine kept_fst (by assumption) ?_
    | with_reducible refine kept_foldl ?_ (fun _ _ _ => ?_)
    | with_reducible refine kept_foldl_pair ?_ (fun _ _ _ => ?_)
    | with_reducible refine kept_ite ?_ ?_
    | split
    | with_reducible refine kept_mk ?_ rfl rfl rfl rfl rfl rfl rfl rfl rfl rfl rfl rfl rfl rfl rfl rfl rfl

theorem kept_streamLost {s : State} (hk : Kept from0 s) (tin : Nat) (dt : Nat) (cut : Bool) (i : Nat) :
    Kept from0 (streamLost tin dt cut s i) := by
  unfold streamLost
  try dsimp only
  repeat' first
    | with_reducible assumption
    | with_reducible first | apply kept_dropItems | apply kept_flagCurrent | apply kept_mapImage | apply kept_imageBegin | apply kept_setMstream
    | with_reducible refine kept_ite ?_ ?_
    | split
    | with_reducible refine kept_mk ?_ rfl rfl rfl rfl rfl rfl rfl rfl rfl rfl rfl rfl rfl rfl rfl rfl rfl

theorem kept_csiLost {s : State} (hk : Kept from0 s) (port : Nat) (is : List Nat) (cut : Bool) (tin : Nat) (dt : Nat) :
    Kept from0 (csiLost s port is cut tin dt) := by
  unfold csiLost
  try dsimp only
  repeat' first
    | with_reducible assumption
    | with_reducible first | apply kept_streamLost | apply kept_bumpSat
    | with_reducible refine kept_foldl ?_ (fun _ _ _ => ?_)
    | with_reducible refine kept_foldl_pair ?_ (fun _ _ _ => ?_)

theorem kept_beginLost {s : State} (hk : Kept from0 s) (i : Nat) (tin : Nat) :
    Kept from0 (beginLost s i tin) := by
  unfold beginLost
  try dsimp only
  repeat' first
    | with_reducible assumption
    | with_reducible first | apply kept_mapImage | apply kept_imageBegin
    | with_reducible refine kept_ite ?_ ?_
    | split

theorem kept_csiLine {s0 : State} (hk : Kept from0 s0) (i : Nat) (dt : Nat) (tin : Nat) (data : List Byte) :
    Kept from0 (csiLine s0 i dt tin data) := by
  unfold csiLine
  try dsimp only
  repeat' first
    | with_reducible assumption
    | with_reducible first | apply kept_beginLost | apply kept_imageSource | apply kept_imageLine | apply kept_packetArrive
    | with_reducible refine kept_ite ?_ ?_
    | split

theorem kept_execCsi2Packet {s : State} (hk : Kept from0 s) (port : Fin 16) (vc : Fin 32) (dt : BitVec 6) (data : List Byte) (hdrErr : Bool) (crcErr : Bool) (full : Bool) (t : Nat) :
    ∃ sx, execCsi2Packet port vc dt data hdrErr crcErr full t s = .next sx ∧ Kept from0 sx := by
  unfold execCsi2Packet
  try dsimp only
  repeat' first
    | with_reducible assumption
    | with_reducible refine ⟨_, rfl, ?_⟩
    | with_reducible first | apply kept_at | apply kept_csiLost | apply kept_imageBegin | apply kept_imageEnd | apply kept_csiLine
    | with_reducible refine kept_foldl ?_ (fun _ _ _ => ?_)
    | with_reducible refine kept_foldl_pair ?_ (fun _ _ _ => ?_)
    | with_reducible refine kept_ite ?_ ?_
    | split
    | with_reducible refine kept_mk ?_ rfl rfl rfl rfl rfl rfl rfl rfl rfl rfl rfl rfl rfl rfl rfl rfl rfl

theorem kept_ethDrop {s : State} (hk : Kept from0 s) (port : Nat) :
    Kept from0 (ethDrop s port) := by
  unfold ethDrop
  try dsimp only
  repeat' first
    | with_reducible assumption
    | with_reducible first | apply kept_bump

theorem kept_execEthFrameReceive {s : State} (hk : Kept from0 s) (port : Fin 8) (frame : List Byte) (fcsOk : Bool) (full : Bool) (t : Nat) :
    ∃ sx, execEthFrameReceive port frame fcsOk full t s = .next sx ∧ Kept from0 sx := by
  unfold execEthFrameReceive
  try dsimp only
  repeat' first
    | with_reducible assumption
    | with_reducible refine ⟨_, rfl, ?_⟩
    | with_reducible first | apply kept_at | apply kept_ethDrop | apply kept_flagCurrent | apply kept_dropItems | apply kept_packetArrive
    | with_reducible refine kept_ite ?_ ?_
    | split
    | with_reducible refine kept_mk ?_ rfl rfl rfl rfl rfl rfl rfl rfl rfl rfl rfl rfl rfl rfl rfl rfl rfl

theorem kept_injectPayload {s : State} (hk : Kept from0 s) (i : Nat) (form : Nat) (tin : Nat) (bs : List Byte) :
    Kept from0 (injectPayload s i form tin bs) := by
  unfold injectPayload
  try dsimp only
  repeat' first
    | with_reducible assumption
    | with_reducible first | apply kept_imageBegin | apply kept_imageSource | apply kept_imageEnd | apply kept_imageLine
    | with_reducible first | apply kept_packetArrive | apply kept_dropItems
    | with_reducible refine kept_foldl ?_ (fun _ _ _ => ?_)
    | with_reducible refine kept_foldl_pair ?_ (fun _ _ _ => ?_)
    | with_reducible refine kept_ite ?_ ?_
    | split

theorem kept_execInjectedEntryRelease {s : State} (hk : Kept from0 s) (stream : Fin 64) (ecc : MemEcc) (t : Nat) :
    ∃ sx, execInjectedEntryRelease stream ecc t s = .next sx ∧ Kept from0 sx := by
  unfold execInjectedEntryRelease
  try dsimp only
  repeat' first
    | with_reducible assumption
    | with_reducible refine ⟨_, rfl, ?_⟩
    | with_reducible first | apply kept_at | apply kept_devRead | apply kept_setRegFld | apply kept_dropItems | apply kept_injectPayload
    | with_reducible refine kept_fst (by assumption) ?_
    | with_reducible refine kept_ite ?_ ?_
    | split
    | with_reducible refine kept_mk ?_ rfl rfl rfl rfl rfl rfl rfl rfl rfl rfl rfl rfl rfl rfl rfl rfl rfl

/-! ### Machine/MarverProject.lean -/

theorem kept_poseTake {s : State} (hk : Kept from0 s) (ecc : MemEcc) (n : Nat) :
    Kept from0 (poseTake ecc s n) := by
  unfold poseTake
  try dsimp only
  repeat' first
    | with_reducible assumption
    | with_reducible first | apply kept_devRead | apply kept_setRegBit
    | with_reducible refine kept_fst (by assumption) ?_
    | with_reducible refine kept_ite ?_ ?_
    | split
    | with_reducible refine kept_mk ?_ rfl rfl rfl rfl rfl rfl rfl rfl rfl rfl rfl rfl rfl rfl rfl rfl rfl

theorem kept_lehrTake {s : State} (hk : Kept from0 s) (ecc : MemEcc) (n : Nat) :
    Kept from0 (lehrTake ecc s n) := by
  unfold lehrTake
  try dsimp only
  repeat' first
    | with_reducible assumption
    | with_reducible first | apply kept_devRead
    | with_reducible refine kept_fst (by assumption) ?_
    | with_reducible refine kept_ite ?_ ?_
    | split
    | with_reducible refine kept_mk ?_ rfl rfl rfl rfl rfl rfl rfl rfl rfl rfl rfl rfl rfl rfl rfl rfl rfl

theorem kept_syncPoses {s : State} (hk : Kept from0 s) :
    Kept from0 (syncPoses s) := by
  unfold syncPoses
  try dsimp only
  repeat' first
    | with_reducible assumption
    | with_reducible first | apply kept_setRegFld
    | split
    | with_reducible refine kept_mk ?_ rfl rfl rfl rfl rfl rfl rfl rfl rfl rfl rfl rfl rfl rfl rfl rfl rfl

theorem kept_execPoseWrite {s : State} (hk : Kept from0 s) (v : BitVec 32) (ecc : MemEcc) :
    ∃ sx, execPoseWrite v ecc s = .next sx ∧ Kept from0 sx := by
  unfold execPoseWrite
  try dsimp only
  repeat' first
    | with_reducible assumption
    | with_reducible refine ⟨_, rfl, ?_⟩
    | with_reducible first | apply kept_setRegFld | apply kept_setRegBit | apply kept_lehrTake | apply kept_syncPoses | apply kept_poseTake
    | with_reducible refine kept_foldl ?_ (fun _ _ _ => ?_)
    | with_reducible refine kept_foldl_pair ?_ (fun _ _ _ => ?_)
    | with_reducible refine kept_ite ?_ ?_
    | split
    | with_reducible refine kept_mk ?_ rfl rfl rfl rfl rfl rfl rfl rfl rfl rfl rfl rfl rfl rfl rfl rfl rfl

theorem kept_requestMode {s : State} (hk : Kept from0 s) (v : Nat) :
    Kept from0 (requestMode s v) := by
  unfold requestMode
  try dsimp only
  repeat' first
    | with_reducible assumption
    | with_reducible first | apply kept_setRegBit | apply kept_setRegFld
    | with_reducible refine kept_mk ?_ rfl rfl rfl rfl rfl rfl rfl rfl rfl rfl rfl rfl rfl rfl rfl rfl rfl

theorem kept_execModeRequest {s : State} (hk : Kept from0 s) (v : BitVec 2) :
    ∃ sx, execModeRequest v s = .next sx ∧ Kept from0 sx := by
  unfold execModeRequest
  try dsimp only
  repeat' first
    | with_reducible assumption
    | with_reducible refine ⟨_, rfl, ?_⟩
    | with_reducible first | apply kept_requestMode

theorem kept_dropMain {s : State} (hk : Kept from0 s) :
    Kept from0 (dropMain s) := by
  unfold dropMain
  try dsimp only
  repeat' first
    | with_reducible assumption
    | with_reducible first | apply kept_setRegFld
    | with_reducible refine kept_mk ?_ rfl rfl rfl rfl rfl rfl rfl rfl rfl rfl rfl rfl rfl rfl rfl rfl rfl

theorem kept_readCalib {s : State} (hk : Kept from0 s) (ecc : MemEcc) (i : Nat) :
    Kept from0 (readCalib ecc s i) := by
  unfold readCalib
  try dsimp only
  repeat' first
    | with_reducible assumption
    | with_reducible first | apply kept_devRead | apply kept_logMarver | apply kept_dropItems | apply kept_setRegBit | apply kept_setMstream
    | with_reducible refine kept_fst (by assumption) ?_
    | with_reducible refine kept_ite ?_ ?_
    | split
    | with_reducible refine kept_mk ?_ rfl rfl rfl rfl rfl rfl rfl rfl rfl rfl rfl rfl rfl rfl rfl rfl rfl

theorem kept_flushEarly {s : State} (hk : Kept from0 s) (f : Nat) (i : Nat) :
    Kept from0 (flushEarly f s i) := by
  unfold flushEarly
  try dsimp only
  repeat' first
    | with_reducible assumption
    | with_reducible first | apply kept_setMstream | apply kept_rawWrite | apply kept_keepImage
    | with_reducible refine kept_foldl ?_ (fun _ _ _ => ?_)
    | with_reducible refine kept_foldl_pair ?_ (fun _ _ _ => ?_)
    | with_reducible refine kept_mk ?_ rfl rfl rfl rfl rfl rfl rfl rfl rfl rfl rfl rfl rfl rfl rfl rfl rfl

theorem kept_marverBoundary {s : State} (hk : Kept from0 s) (f : Nat) (b : Nat) (ecc : MemEcc) :
    Kept from0 (marverBoundary s f b ecc) := by
  unfold marverBoundary
  try dsimp only
  repeat' first
    | with_reducible assumption
    | with_reducible first | apply kept_setRegBit | apply kept_setRegFld | apply kept_dropMain | apply kept_readCalib | apply kept_servoBoundary
    | with_reducible first | apply kept_flushEarly
    | with_reducible refine kept_fst (by assumption) ?_
    | with_reducible refine kept_foldl ?_ (fun _ _ _ => ?_)
    | with_reducible refine kept_foldl_pair ?_ (fun _ _ _ => ?_)
    | with_reducible refine kept_ite ?_ ?_
    | split
    | with_reducible refine kept_mk ?_ rfl rfl rfl rfl rfl rfl rfl rfl rfl rfl rfl rfl rfl rfl rfl rfl rfl

theorem kept_freshTest {s : State} (hk : Kept from0 s) (f : Nat) (ref : Nat) (i : Nat) :
    Kept from0 (freshTest f ref s i) := by
  unfold freshTest
  try dsimp only
  repeat' first
    | with_reducible assumption
    | with_reducible first | apply kept_syncHealth | apply kept_logMarver | apply kept_bumpSat | apply kept_setRegBit
    | with_reducible refine kept_ite ?_ ?_
    | split
    | with_reducible refine kept_mk ?_ rfl rfl rfl rfl rfl rfl rfl rfl rfl rfl rfl rfl rfl rfl rfl rfl rfl

theorem kept_closeSlots {s : State} (hk : Kept from0 s) (f : Nat) (ref : Nat) (i : Nat) :
    Kept from0 (closeSlots f ref s i) := by
  unfold closeSlots
  try dsimp only
  repeat' first
    | with_reducible assumption
    | with_reducible first | apply kept_writeHeader | apply kept_putSlot | apply kept_openSlot
    | with_reducible refine kept_ite ?_ ?_
    | split
    | with_reducible refine kept_mk ?_ rfl rfl rfl rfl rfl rfl rfl rfl rfl rfl rfl rfl rfl rfl rfl rfl rfl

theorem kept_closePeriod {s : State} (hk : Kept from0 s) (f : Nat) (ref : Nat) :
    Kept from0 (closePeriod s f ref) := by
  unfold closePeriod
  try dsimp only
  repeat' first
    | with_reducible assumption
    | with_reducible first | apply kept_freshTest | apply kept_mapPeriod | apply kept_closeSlots | apply kept_setRegBit
    | with_reducible refine kept_foldl ?_ (fun _ _ _ => ?_)
    | with_reducible refine kept_foldl_pair ?_ (fun _ _ _ => ?_)
    | with_reducible refine kept_foldl_of Proj.s ?_ (fun _ _ _ => ?_)
    | with_reducible refine kept_mk ?_ rfl rfl rfl rfl rfl rfl rfl rfl rfl rfl rfl rfl rfl rfl rfl rfl rfl

theorem kept_notePose {s : State} (hk : Kept from0 s) (stale : Bool) (missing : Bool) :
    Kept from0 (notePose s stale missing) := by
  unfold notePose
  try dsimp only
  repeat' first
    | with_reducible assumption
    | with_reducible first | apply kept_setRegBit
    | with_reducible refine kept_ite ?_ ?_
    | split

theorem kept_flagImage {s : State} (hk : Kept from0 s) (c : Nat) (x : MSlot) (b : Nat) :
    Kept from0 (flagImage s c x b) := by
  unfold flagImage
  try dsimp only
  repeat' first
    | with_reducible assumption
    | with_reducible first | apply kept_writeHeader | apply kept_setMstream
    | with_reducible refine kept_ite ?_ ?_
    | split
    | with_reducible refine kept_mk ?_ rfl rfl rfl rfl rfl rfl rfl rfl rfl rfl rfl rfl rfl rfl rfl rfl rfl

theorem kept_projectPoint {s : State} (hk : Kept from0 s) (per : MPeriod) (at' : PoseAt) (pv : V3) (a : APoint) (c : Nat) :
    Kept from0 (projectPoint per at' pv a s c) := by
  unfold projectPoint
  try dsimp only
  repeat' first
    | with_reducible assumption
    | with_reducible first | apply kept_bump | apply kept_notePose | apply kept_flagImage | apply kept_marverWrite | apply kept_setMstream
    | with_reducible refine kept_ite ?_ ?_
    | split
    | with_reducible refine kept_mk ?_ rfl rfl rfl rfl rfl rfl rfl rfl rfl rfl rfl rfl rfl rfl rfl rfl rfl

theorem kept_placePoint {x : Proj} (hk : Kept from0 x.s) (per : MPeriod) (i : Nat) (pa : PoseAt) (pv : V3) (a : APoint) (a5 : Nat) (sl : MSlot) :
    Kept from0 (placePoint per i pa pv a a5 sl x).s := by
  unfold placePoint
  try dsimp only
  repeat' first
    | with_reducible assumption
    | with_reducible first | apply kept_putSlot | apply kept_marverWrite | apply kept_projectPoint | apply kept_bump
    | with_reducible refine kept_fst (by assumption) ?_
    | with_reducible refine kept_foldl ?_ (fun _ _ _ => ?_)
    | with_reducible refine kept_foldl_pair ?_ (fun _ _ _ => ?_)
    | with_reducible refine kept_foldl_of Proj.s ?_ (fun _ _ _ => ?_)
    | with_reducible refine kept_ite ?_ ?_
    | split
    | with_reducible refine kept_mk ?_ rfl rfl rfl rfl rfl rfl rfl rfl rfl rfl rfl rfl rfl rfl rfl rfl rfl

theorem kept_alignPoint {x : Proj} (hk : Kept from0 x.s) (per : MPeriod) (ref : Nat) (i : Nat) (p : MPoint) (pa : PoseAt) (pr : PoseAt) :
    Kept from0 (alignPoint per ref i x p pa pr).s := by
  unfold alignPoint
  try dsimp only
  repeat' first
    | with_reducible assumption
    | with_reducible first | apply kept_dropItems | apply kept_putSlot | apply kept_placePoint
    | with_reducible refine kept_fst (by assumption) ?_
    | with_reducible refine kept_foldl_of Proj.s ?_ (fun _ _ _ => ?_)
    | with_reducible refine kept_ite ?_ ?_
    | split
    | with_reducible refine kept_mk ?_ rfl rfl rfl rfl rfl rfl rfl rfl rfl rfl rfl rfl rfl rfl rfl rfl rfl

theorem kept_projPoint {x : Proj} (hk : Kept from0 x.s) (per : MPeriod) (ref : Nat) (i : Nat) (p : MPoint) :
    Kept from0 (projPoint per ref i x p).s := by
  unfold projPoint
  try dsimp only
  repeat' first
    | with_reducible assumption
    | with_reducible first | apply kept_bump | apply kept_alignPoint | apply kept_notePose
    | with_reducible refine kept_foldl_of Proj.s ?_ (fun _ _ _ => ?_)
    | with_reducible refine kept_ite ?_ ?_
    | split
    | with_reducible refine kept_mk ?_ rfl rfl rfl rfl rfl rfl rfl rfl rfl rfl rfl rfl rfl rfl rfl rfl rfl

theorem kept_projStream {x : Proj} (hk : Kept from0 x.s) (per : MPeriod) (ref : Nat) (i : Nat) :
    Kept from0 (projStream per ref x i).s := by
  unfold projStream
  try dsimp only
  repeat' first
    | with_reducible assumption
    | with_reducible first | apply kept_projPoint | apply kept_setMstream | apply kept_writeHeader | apply kept_putSlot
    | with_reducible refine kept_foldl ?_ (fun _ _ _ => ?_)
    | with_reducible refine kept_foldl_pair ?_ (fun _ _ _ => ?_)
    | with_reducible refine kept_foldl_of Proj.s ?_ (fun _ _ _ => ?_)
    | with_reducible refine kept_ite ?_ ?_
    | split
    | with_reducible refine kept_mk ?_ rfl rfl rfl rfl rfl rfl rfl rfl rfl rfl rfl rfl rfl rfl rfl rfl rfl

theorem kept_noteNoImage {s : State} (hk : Kept from0 s) (f : Nat) :
    Kept from0 (noteNoImage s f) := by
  unfold noteNoImage
  try dsimp only
  repeat' first
    | with_reducible assumption
    | with_reducible first | apply kept_setRegBit
    | with_reducible refine kept_ite ?_ ?_
    | split

theorem kept_flagImages {s : State} (hk : Kept from0 s) (f : Nat) :
    Kept from0 (flagImages s f) := by
  unfold flagImages
  try dsimp only
  repeat' first
    | with_reducible assumption
    | with_reducible first | apply kept_flagImage
    | with_reducible refine kept_foldl ?_ (fun _ _ _ => ?_)
    | with_reducible refine kept_foldl_pair ?_ (fun _ _ _ => ?_)
    | split
    | with_reducible refine kept_mk ?_ rfl rfl rfl rfl rfl rfl rfl rfl rfl rfl rfl rfl rfl rfl rfl rfl rfl

theorem kept_writeCells {s : State} (hk : Kept from0 s) (f : Nat) (cells : List (Nat × Option GridCell)) :
    Kept from0 (writeCells f cells s) := by
  unfold writeCells
  try dsimp only
  repeat' first
    | with_reducible assumption
    | with_reducible first | apply kept_marverWrite
    | with_reducible refine kept_foldl ?_ (fun _ _ _ => ?_)
    | with_reducible refine kept_foldl_pair ?_ (fun _ _ _ => ?_)
    | split
    | with_reducible refine kept_mk ?_ rfl rfl rfl rfl rfl rfl rfl rfl rfl rfl rfl rfl rfl rfl rfl rfl rfl

theorem kept_cutShort {s : State} (hk : Kept from0 s) (per : MPeriod) :
    Kept from0 (cutShort s per) := by
  unfold cutShort
  try dsimp only
  repeat' first
    | with_reducible assumption
    | with_reducible first | apply kept_logMarver | apply kept_setRegBit | apply kept_flagImages
    | with_reducible refine kept_ite ?_ ?_
    | split

theorem kept_projectAll {s : State} (hk : Kept from0 s) (per : MPeriod) (ref : Nat) (n : Nat) :
    Kept from0 (projectAll s per ref n).s := by
  unfold projectAll
  try dsimp only
  repeat' first
    | with_reducible assumption
    | with_reducible first | apply kept_noteNoImage | apply kept_marverWrite | apply kept_projStream
    | with_reducible refine kept_fst (by assumption) ?_
    | with_reducible refine kept_foldl ?_ (fun _ _ _ => ?_)
    | with_reducible refine kept_foldl_pair ?_ (fun _ _ _ => ?_)
    | with_reducible refine kept_foldl_of Proj.s ?_ (fun _ _ _ => ?_)
    | with_reducible refine kept_ite ?_ ?_
    | split

theorem kept_projectionOver {s : State} {x : Proj} (hk : Kept from0 s) (hk1 : Kept from0 x.s) (per : MPeriod) (cut : Bool) :
    Kept from0 (projectionOver s per x cut) := by
  unfold projectionOver
  try dsimp only
  repeat' first
    | with_reducible assumption
    | with_reducible first | apply kept_setRegFld | apply kept_setRegBit | apply kept_syncPoses | apply kept_mapPeriod
    | with_reducible refine kept_mk ?_ rfl rfl rfl rfl rfl rfl rfl rfl rfl rfl rfl rfl rfl rfl rfl rfl rfl

theorem kept_project {s : State} (hk : Kept from0 s) (per : MPeriod) (ref : Nat) (n : Nat) :
    Kept from0 (project s per ref n) := by
  unfold project
  try dsimp only
  repeat' first
    | with_reducible assumption
    | with_reducible first | apply kept_projectAll | apply kept_writeCells | apply kept_projectionOver | apply kept_cutShort
    | with_reducible refine kept_foldl ?_ (fun _ _ _ => ?_)
    | with_reducible refine kept_foldl_pair ?_ (fun _ _ _ => ?_)
    | with_reducible refine kept_foldl_of Proj.s ?_ (fun _ _ _ => ?_)
    | with_reducible refine kept_ite ?_ ?_
    | split

/-! ### Machine/MarverGrid.lean -/

theorem kept_completeGrid {s : State} (hk : Kept from0 s) (per : MPeriod) (noscat : Bool) :
    Kept from0 (completeGrid s per noscat) := by
  unfold completeGrid
  try dsimp only
  repeat' first
    | with_reducible assumption
    | with_reducible first | apply kept_marverWrite | apply kept_mapPeriod | apply kept_setRegBit | apply kept_setRegFld | apply kept_marverEvent
    | with_reducible first | apply kept_logMarver
    | with_reducible refine kept_foldl ?_ (fun _ _ _ => ?_)
    | with_reducible refine kept_foldl_pair ?_ (fun _ _ _ => ?_)
    | with_reducible refine kept_ite ?_ ?_
    | split
    | with_reducible refine kept_mk ?_ rfl rfl rfl rfl rfl rfl rfl rfl rfl rfl rfl rfl rfl rfl rfl rfl rfl

theorem kept_skipScatter {s : State} (hk : Kept from0 s) (f : Nat) :
    Kept from0 (skipScatter s f) := by
  unfold skipScatter
  try dsimp only
  repeat' first
    | with_reducible assumption
    | with_reducible first | apply kept_logOnce | apply kept_bump

theorem kept_takeScatter {s : State} (hk : Kept from0 s) (f : Nat) (e : List Byte) :
    Kept from0 (takeScatter s f e) := by
  unfold takeScatter
  try dsimp only
  repeat' first
    | with_reducible assumption
    | with_reducible first | apply kept_mapPeriod | apply kept_bump
    | with_reducible refine kept_foldl ?_ (fun _ _ _ => ?_)
    | with_reducible refine kept_foldl_pair ?_ (fun _ _ _ => ?_)
    | with_reducible refine kept_mk ?_ rfl rfl rfl rfl rfl rfl rfl rfl rfl rfl rfl rfl rfl rfl rfl rfl rfl

theorem kept_applyScatter {s : State} (hk : Kept from0 s) (f : Nat) (e : List Byte) :
    Kept from0 (applyScatter s f e) := by
  unfold applyScatter
  try dsimp only
  repeat' first
    | with_reducible assumption
    | with_reducible first | apply kept_skipScatter | apply kept_takeScatter
    | with_reducible refine kept_ite ?_ ?_
    | split

theorem kept_scatterEntry {s : State} (hk : Kept from0 s) (ecc : MemEcc) (f : Nat) (j : Nat) :
    Kept from0 (scatterEntry ecc f s j) := by
  unfold scatterEntry
  try dsimp only
  repeat' first
    | with_reducible assumption
    | with_reducible first | apply kept_devRead | apply kept_skipScatter | apply kept_applyScatter
    | with_reducible refine kept_fst (by assumption) ?_
    | split
    | with_reducible refine kept_mk ?_ rfl rfl rfl rfl rfl rfl rfl rfl rfl rfl rfl rfl rfl rfl rfl rfl rfl

theorem kept_scatterGo {s : State} (hk : Kept from0 s) (frame : Nat) (nent : Nat) :
    Kept from0 (scatterGo s frame nent) := by
  unfold scatterGo
  try dsimp only
  repeat' first
    | with_reducible assumption
    | with_reducible first | apply kept_mapPeriod | apply kept_logMarver
    | with_reducible refine kept_ite ?_ ?_
    | split
    | with_reducible refine kept_mk ?_ rfl rfl rfl rfl rfl rfl rfl rfl rfl rfl rfl rfl rfl rfl rfl rfl rfl

theorem kept_execScatgo {s : State} (hk : Kept from0 s) (who : Ident) (frame : BitVec 32) (nent : BitVec 20) (t : Nat) :
    ∃ sx, execScatgo who frame nent t s = .next sx ∧ Kept from0 sx := by
  unfold execScatgo
  try dsimp only
  repeat' first
    | with_reducible assumption
    | with_reducible refine ⟨_, rfl, ?_⟩
    | with_reducible first | apply kept_at | apply kept_scatterGo
    | with_reducible refine kept_ite ?_ ?_
    | split

theorem kept_execScatterDone {s : State} (hk : Kept from0 s) (ecc : MemEcc) (t : Nat) :
    ∃ sx, execScatterDone ecc t s = .next sx ∧ Kept from0 sx := by
  unfold execScatterDone
  try dsimp only
  repeat' first
    | with_reducible assumption
    | with_reducible refine ⟨_, rfl, ?_⟩
    | with_reducible first | apply kept_at | apply kept_scatterEntry | apply kept_completeGrid
    | with_reducible refine kept_foldl ?_ (fun _ _ _ => ?_)
    | with_reducible refine kept_foldl_pair ?_ (fun _ _ _ => ?_)
    | split
    | with_reducible refine kept_mk ?_ rfl rfl rfl rfl rfl rfl rfl rfl rfl rfl rfl rfl rfl rfl rfl rfl rfl

theorem kept_execScatterDeadline {s : State} (hk : Kept from0 s) (t : Nat) :
    ∃ sx, execScatterDeadline t s = .next sx ∧ Kept from0 sx := by
  unfold execScatterDeadline
  try dsimp only
  repeat' first
    | with_reducible assumption
    | with_reducible refine ⟨_, rfl, ?_⟩
    | with_reducible first | apply kept_at | apply kept_completeGrid
    | split
    | with_reducible refine kept_mk ?_ rfl rfl rfl rfl rfl rfl rfl rfl rfl rfl rfl rfl rfl rfl rfl rfl rfl

/-! ### Machine/MarverTrack.lean -/

theorem kept_takeDet {r : State × Except Poison (List Byte)} (hk : Kept from0 r.1) (q : PoseAt) (ref j : Nat) (ms : List Meas) :
    Kept from0 (takeDet q ref j ms r).1 := by
  unfold takeDet
  split
  · exact kept_bump hk _ _
  · exact hk

theorem kept_readDet {x : State × List Meas} (hk : Kept from0 x.1) (ecc : MemEcc) (q : PoseAt) (ref f j : Nat) :
    Kept from0 (readDet ecc q ref f x j).1 := by
  unfold readDet
  exact kept_takeDet (kept_devRead hk ..) ..

theorem kept_readDets {s : State} (hk : Kept from0 s) (ecc : MemEcc) (q : PoseAt) (ref : Nat) (f : Nat) (n : Nat) :
    Kept from0 (readDets ecc q ref f n s).1 := by
  unfold readDets
  exact kept_foldl_pair hk fun x j hx => kept_readDet hx ecc q ref f j

theorem kept_noteLimit {s : State} (hk : Kept from0 s) (f : Nat) (mark : Nat) (n : Nat) (limit : Bool) :
    Kept from0 (noteLimit s f mark n limit) := by
  unfold noteLimit
  try dsimp only
  repeat' first
    | with_reducible assumption
    | with_reducible first | apply kept_bump | apply kept_mapPeriod | apply kept_logMarver
    | with_reducible refine kept_ite ?_ ?_
    | split
    | with_reducible refine kept_mk ?_ rfl rfl rfl rfl rfl rfl rfl rfl rfl rfl rfl rfl rfl rfl rfl rfl rfl

theorem kept_measurements {s : State} (hk : Kept from0 s) (ecc : MemEcc) (x : RunIn) :
    Kept from0 (measurements ecc x s).1 := by
  unfold measurements
  try dsimp only
  repeat' first
    | with_reducible assumption
    | with_reducible first | apply kept_readDets | apply kept_noteLimit
    | with_reducible refine kept_fst (by assumption) ?_
    | with_reducible refine kept_ite ?_ ?_
    | split
    | with_reducible refine kept_mk ?_ rfl rfl rfl rfl rfl rfl rfl rfl rfl rfl rfl rfl rfl rfl rfl rfl rfl

theorem kept_initiate {w : RunWork} (hk : Kept from0 w.s) (x : RunIn) (m : Meas) (sibling : Bool) :
    Kept from0 (initiate x w m sibling).1.s := by
  unfold initiate
  try dsimp only
  repeat' first
    | with_reducible assumption
    | with_reducible first | apply kept_logOnce | apply kept_bump
    | with_reducible refine kept_foldl_of RunWork.s ?_ (fun _ _ _ => ?_)
    | split
    | with_reducible refine kept_mk ?_ rfl rfl rfl rfl rfl rfl rfl rfl rfl rfl rfl rfl rfl rfl rfl rfl rfl

/-- Changing tracks leaves the state beside them. -/
theorem RunWork.map_s (w : RunWork) (q : Track → Bool) (g : Track → Track) : (w.map q g).s = w.s := by
  rfl

theorem kept_stateConflict {w : RunWork} (hk : Kept from0 w.s) (x : RunIn) (slot : Nat) (m : Meas) :
    Kept from0 (stateConflict x w slot m).s := by
  have h1 : Kept from0 (((streamsOf m.mask).foldl (fun s i => s.bumpSat (Reg.marverHstat i) 48 16) (w.s.bump Reg.marverCnfstate 1)).logMarver
      0x0704 (if m.source < 64 then m.source else 0xFF) x.per.frame) :=
    kept_logMarver (kept_foldl (kept_bump hk _ _) (fun s i hs => kept_bumpSat hs _ _ _)) _ _ _
  unfold stateConflict
  generalize (if m.source < 64 then m.source else 0xFF) = src at *
  dsimp only
  split
  all_goals simp only [RunWork.map_s]
  all_goals
    refine kept_initiate ?_ x m true
    exact h1

theorem kept_existConflict {s : State} (hk : Kept from0 s) (x : RunIn) (t : Track) :
    Kept from0 (existConflict x s t).1 := by
  unfold existConflict
  try dsimp only
  repeat' first
    | with_reducible assumption
    | with_reducible first | apply kept_logMarver | apply kept_bumpSat | apply kept_bump
    | split
    | with_reducible refine kept_mk ?_ rfl rfl rfl rfl rfl rfl rfl rfl rfl rfl rfl rfl rfl rfl rfl rfl rfl

theorem kept_countPlaus {s : State} (hk : Kept from0 s) (cs : List (Nat × Bool)) :
    Kept from0 (countPlaus s cs) := by
  unfold countPlaus
  try dsimp only
  repeat' first
    | with_reducible assumption
    | with_reducible first | apply kept_setRegFld
    | with_reducible refine kept_foldl ?_ (fun _ _ _ => ?_)
    | with_reducible refine kept_foldl_pair ?_ (fun _ _ _ => ?_)
    | with_reducible refine kept_ite ?_ ?_
    | split

theorem kept_runNotes {s : State} (hk : Kept from0 s) (per : MPeriod) (disc : Bool) (noPose : Bool) (lost : Bool) :
    Kept from0 (runNotes s per disc noPose lost) := by
  unfold runNotes
  try dsimp only
  repeat' first
    | with_reducible assumption
    | with_reducible first | apply kept_logMarver
    | with_reducible refine kept_ite ?_ ?_
    | split

theorem kept_runSpawn {w : RunWork} (hk : Kept from0 w.s) (x : RunIn) (divs : List (Nat × Meas)) (taken : Meas → Bool) (ms : List Meas) :
    Kept from0 (runSpawn x divs taken ms w).s := by
  unfold runSpawn
  try dsimp only
  repeat' first
    | with_reducible assumption
    | with_reducible first | apply kept_stateConflict | apply kept_initiate
    | with_reducible refine kept_foldl ?_ (fun _ _ _ => ?_)
    | with_reducible refine kept_foldl_pair ?_ (fun _ _ _ => ?_)
    | with_reducible refine kept_foldl_of RunWork.s ?_ (fun _ _ _ => ?_)
    | with_reducible refine kept_ite ?_ ?_
    | split
    | with_reducible refine kept_mk ?_ rfl rfl rfl rfl rfl rfl rfl rfl rfl rfl rfl rfl rfl rfl rfl rfl rfl

theorem kept_runExist {s : State} (hk : Kept from0 s) (x : RunIn) (ts : List Track) :
    Kept from0 (runExist x s ts).1 := by
  unfold runExist
  try dsimp only
  repeat' first
    | with_reducible assumption
    | with_reducible first | apply kept_existConflict
    | with_reducible refine kept_fst (by assumption) ?_
    | with_reducible refine kept_foldl ?_ (fun _ _ _ => ?_)
    | with_reducible refine kept_foldl_pair ?_ (fun _ _ _ => ?_)

theorem kept_storeTracks {s : State} (hk : Kept from0 s) (ts : List Track) (fb : Nat) (main : Bool) :
    Kept from0 (storeTracks s ts fb main) := by
  unfold storeTracks
  try dsimp only
  repeat' first
    | with_reducible assumption
    | with_reducible refine kept_mk ?_ rfl rfl rfl rfl rfl rfl rfl rfl rfl rfl rfl rfl rfl rfl rfl rfl rfl

theorem kept_runTracks {s : State} (hk : Kept from0 s) (x : RunIn) (ms : List Meas) (kept : List Track) (others : List Nat) :
    Kept from0 (runTracks x ms kept others s).s := by
  unfold runTracks
  try dsimp only
  repeat' first
    | with_reducible assumption
    | with_reducible first | apply kept_countPlaus | apply kept_runSpawn
    | with_reducible refine kept_fst (by assumption) ?_
    | with_reducible refine kept_foldl_of RunWork.s ?_ (fun _ _ _ => ?_)
    | with_reducible refine kept_ite ?_ ?_
    | split
    | with_reducible refine kept_mk ?_ rfl rfl rfl rfl rfl rfl rfl rfl rfl rfl rfl rfl rfl rfl rfl rfl rfl

theorem kept_runTracker {s : State} (hk : Kept from0 s) (run : TrackRun) (per : MPeriod) (main : Bool) (upd : Option Nat) (bad : Option Nat) (ecc : MemEcc) :
    Kept from0 (runTracker s run per main upd bad ecc).s := by
  unfold runTracker
  try dsimp only
  repeat' first
    | with_reducible assumption
    | with_reducible first | apply kept_measurements | apply kept_runNotes | apply kept_runTracks | apply kept_runExist | apply kept_storeTracks
    | with_reducible refine kept_fst (by assumption) ?_
    | with_reducible refine kept_foldl_of RunWork.s ?_ (fun _ _ _ => ?_)
    | with_reducible refine kept_ite ?_ ?_
    | split

/-! ### Machine/MarverRun.lean -/

theorem kept_writeTable {s : State} (hk : Kept from0 s) (per : MPeriod) (recs : List (List Byte)) (flags : Nat) (nconf : Nat) :
    Kept from0 (writeTable s per recs flags nconf) := by
  unfold writeTable
  try dsimp only
  repeat' first
    | with_reducible assumption
    | with_reducible first | apply kept_marverWrite
    | with_reducible refine kept_foldl ?_ (fun _ _ _ => ?_)
    | with_reducible refine kept_foldl_pair ?_ (fun _ _ _ => ?_)

theorem kept_noteOverrun {s : State} (hk : Kept from0 s) (f : Nat) (late : Bool) :
    Kept from0 (noteOverrun s f late) := by
  unfold noteOverrun
  try dsimp only
  repeat' first
    | with_reducible assumption
    | with_reducible first | apply kept_logMarver | apply kept_bump
    | with_reducible refine kept_ite ?_ ?_
    | split

theorem kept_showMain {s : State} (hk : Kept from0 s) (f : Nat) (n : Nat) :
    Kept from0 (showMain s f n) := by
  unfold showMain
  try dsimp only
  repeat' first
    | with_reducible assumption
    | with_reducible first | apply kept_setRegFld

theorem kept_noteMain {s : State} (hk : Kept from0 s) (f : Nat) (n : Nat) :
    Kept from0 (noteMain s f n) := by
  unfold noteMain
  try dsimp only
  repeat' first
    | with_reducible assumption
    | with_reducible first | apply kept_showMain
    | with_reducible refine kept_mk ?_ rfl rfl rfl rfl rfl rfl rfl rfl rfl rfl rfl rfl rfl rfl rfl rfl rfl

theorem kept_noteEmptyMain {s : State} (hk : Kept from0 s) (f : Nat) :
    Kept from0 (noteEmptyMain s f) := by
  unfold noteEmptyMain
  try dsimp only
  repeat' first
    | with_reducible assumption
    | with_reducible first | apply kept_showMain
    | with_reducible refine kept_mk ?_ rfl rfl rfl rfl rfl rfl rfl rfl rfl rfl rfl rfl rfl rfl rfl rfl rfl

theorem kept_finishMain {s : State} (hk : Kept from0 s) (upd : Option Nat) (bad : Option Nat) (ecc : MemEcc) :
    Kept from0 (finishMain s upd bad ecc) := by
  unfold finishMain
  try dsimp only
  repeat' first
    | with_reducible assumption
    | with_reducible first | apply kept_runTracker | apply kept_writeTable | apply kept_noteOverrun | apply kept_marverEvent
    | with_reducible first | apply kept_setRegBit | apply kept_noteMain | apply kept_nextFresh
    | with_reducible refine kept_foldl_of RunRes.s ?_ (fun _ _ _ => ?_)
    | with_reducible refine kept_ite ?_ ?_
    | split
    | with_reducible refine kept_mk ?_ rfl rfl rfl rfl rfl rfl rfl rfl rfl rfl rfl rfl rfl rfl rfl rfl rfl

theorem kept_emptyTable {s : State} (hk : Kept from0 s) (per : MPeriod) :
    Kept from0 (emptyTable s per) := by
  unfold emptyTable
  try dsimp only
  repeat' first
    | with_reducible assumption
    | with_reducible first | apply kept_writeTable | apply kept_marverEvent | apply kept_mapPeriod | apply kept_noteEmptyMain
    | with_reducible refine kept_ite ?_ ?_
    | split
    | with_reducible refine kept_mk ?_ rfl rfl rfl rfl rfl rfl rfl rfl rfl rfl rfl rfl rfl rfl rfl rfl rfl

theorem kept_finishFallback {s : State} (hk : Kept from0 s) (upd : Option Nat) (bad : Option Nat) (ecc : MemEcc) :
    Kept from0 (finishFallback s upd bad ecc) := by
  unfold finishFallback
  try dsimp only
  repeat' first
    | with_reducible assumption
    | with_reducible first | apply kept_runTracker | apply kept_noteOverrun | apply kept_nextFresh | apply kept_setRegBit | apply kept_setRegFld
    | with_reducible first | apply kept_marverEvent
    | with_reducible refine kept_foldl_of RunRes.s ?_ (fun _ _ _ => ?_)
    | with_reducible refine kept_ite ?_ ?_
    | split
    | with_reducible refine kept_mk ?_ rfl rfl rfl rfl rfl rfl rfl rfl rfl rfl rfl rfl rfl rfl rfl rfl rfl

theorem kept_syncFbact {s : State} (hk : Kept from0 s) :
    Kept from0 (syncFbact s) := by
  unfold syncFbact
  try dsimp only
  repeat' first
    | with_reducible assumption
    | with_reducible first | apply kept_setRegBit

theorem kept_startFallback {s : State} (hk : Kept from0 s) (f : Nat) (updated : Nat) (ecc : MemEcc) :
    Kept from0 (startFallback s f updated ecc) := by
  unfold startFallback
  try dsimp only
  repeat' first
    | with_reducible assumption
    | with_reducible first | apply kept_finishFallback | apply kept_setRegBit
    | with_reducible refine kept_fst (by assumption) ?_
    | with_reducible refine kept_ite ?_ ?_
    | split
    | with_reducible refine kept_mk ?_ rfl rfl rfl rfl rfl rfl rfl rfl rfl rfl rfl rfl rfl rfl rfl rfl rfl

theorem kept_startMain {s : State} (hk : Kept from0 s) (f : Nat) (ndet : Option Nat) (updated : Nat) (ecc : MemEcc) :
    Kept from0 (startMain s f ndet updated ecc) := by
  unfold startMain
  try dsimp only
  repeat' first
    | with_reducible assumption
    | with_reducible first | apply kept_finishMain | apply kept_mapPeriod | apply kept_setRegBit
    | with_reducible refine kept_fst (by assumption) ?_
    | with_reducible refine kept_mk ?_ rfl rfl rfl rfl rfl rfl rfl rfl rfl rfl rfl rfl rfl rfl rfl rfl rfl

theorem kept_emptyIfNotNormal {s : State} (hk : Kept from0 s) (f : Nat) (updated : Nat) (ecc : MemEcc) :
    Kept from0 (emptyIfNotNormal s f updated ecc) := by
  unfold emptyIfNotNormal
  try dsimp only
  repeat' first
    | with_reducible assumption
    | with_reducible first | apply kept_emptyTable | apply kept_finishMain
    | with_reducible refine kept_ite ?_ ?_
    | split
    | with_reducible refine kept_mk ?_ rfl rfl rfl rfl rfl rfl rfl rfl rfl rfl rfl rfl rfl rfl rfl rfl rfl

theorem kept_endProjection {s : State} (hk : Kept from0 s) (n : Nat) (updated : Nat) (ecc : MemEcc) :
    Kept from0 (endProjection s n updated ecc) := by
  unfold endProjection
  try dsimp only
  repeat' first
    | with_reducible assumption
    | with_reducible first | apply kept_emptyIfNotNormal | apply kept_startFallback | apply kept_marverEvent | apply kept_project
    | with_reducible refine kept_foldl_of Proj.s ?_ (fun _ _ _ => ?_)
    | split
    | with_reducible refine kept_mk ?_ rfl rfl rfl rfl rfl rfl rfl rfl rfl rfl rfl rfl rfl rfl rfl rfl rfl

theorem kept_closeNow {s : State} (hk : Kept from0 s) (p : MPeriod) (done : Nat) (updated : Nat) (ecc : MemEcc) :
    Kept from0 (closeNow s p done updated ecc) := by
  unfold closeNow
  try dsimp only
  repeat' first
    | with_reducible assumption
    | with_reducible first | apply kept_closePeriod | apply kept_endProjection
    | with_reducible refine kept_foldl_of Proj.s ?_ (fun _ _ _ => ?_)

theorem kept_execMarverCloseWrite {s : State} (hk : Kept from0 s) (frame : BitVec 32) (done : Nat) (updated : Nat) (ecc : MemEcc) (t : Nat) :
    ∃ sx, execMarverCloseWrite frame done updated ecc t s = .next sx ∧ Kept from0 sx := by
  unfold execMarverCloseWrite
  try dsimp only
  repeat' first
    | with_reducible assumption
    | with_reducible refine ⟨_, rfl, ?_⟩
    | with_reducible first | apply kept_at | apply kept_mapPeriod | apply kept_closeNow
    | with_reducible refine kept_ite ?_ ?_
    | split
    | with_reducible refine kept_mk ?_ rfl rfl rfl rfl rfl rfl rfl rfl rfl rfl rfl rfl rfl rfl rfl rfl rfl

theorem kept_execPeriodClose {s : State} (hk : Kept from0 s) (done : Nat) (updated : Nat) (ecc : MemEcc) (t : Nat) :
    ∃ sx, execPeriodClose done updated ecc t s = .next sx ∧ Kept from0 sx := by
  unfold execPeriodClose
  try dsimp only
  repeat' first
    | with_reducible assumption
    | with_reducible refine ⟨_, rfl, ?_⟩
    | with_reducible first | apply kept_at | apply kept_closeNow
    | split
    | with_reducible refine kept_mk ?_ rfl rfl rfl rfl rfl rfl rfl rfl rfl rfl rfl rfl rfl rfl rfl rfl rfl

theorem kept_execProjectionDone {s : State} (hk : Kept from0 s) (updated : Nat) (ecc : MemEcc) (t : Nat) :
    ∃ sx, execProjectionDone updated ecc t s = .next sx ∧ Kept from0 sx := by
  unfold execProjectionDone
  try dsimp only
  repeat' first
    | with_reducible assumption
    | with_reducible refine ⟨_, rfl, ?_⟩
    | with_reducible first | apply kept_endProjection | apply kept_at
    | with_reducible refine kept_foldl_of Proj.s ?_ (fun _ _ _ => ?_)

theorem kept_trackGo {s : State} (hk : Kept from0 s) (frame : Nat) (ndet : Nat) :
    Kept from0 (trackGo s frame ndet) := by
  unfold trackGo
  try dsimp only
  repeat' first
    | with_reducible assumption
    | with_reducible first | apply kept_logMarver | apply kept_mapPeriod
    | with_reducible refine kept_ite ?_ ?_
    | split
    | with_reducible refine kept_mk ?_ rfl rfl rfl rfl rfl rfl rfl rfl rfl rfl rfl rfl rfl rfl rfl rfl rfl

theorem kept_execTrkgo {s : State} (hk : Kept from0 s) (who : Ident) (frame : BitVec 32) (ndet : BitVec 13) (t : Nat) :
    ∃ sx, execTrkgo who frame ndet t s = .next sx ∧ Kept from0 sx := by
  unfold execTrkgo
  try dsimp only
  repeat' first
    | with_reducible assumption
    | with_reducible refine ⟨_, rfl, ?_⟩
    | with_reducible first | apply kept_at | apply kept_trackGo
    | with_reducible refine kept_ite ?_ ?_
    | split

theorem kept_execMainRunStart {s : State} (hk : Kept from0 s) (updated : Nat) (ecc : MemEcc) (t : Nat) :
    ∃ sx, execMainRunStart updated ecc t s = .next sx ∧ Kept from0 sx := by
  unfold execMainRunStart
  try dsimp only
  repeat' first
    | with_reducible assumption
    | with_reducible refine ⟨_, rfl, ?_⟩
    | with_reducible first | apply kept_at | apply kept_startMain
    | split
    | with_reducible refine kept_mk ?_ rfl rfl rfl rfl rfl rfl rfl rfl rfl rfl rfl rfl rfl rfl rfl rfl rfl

theorem kept_execMainRunDeadline {s : State} (hk : Kept from0 s) (updated : Nat) (ecc : MemEcc) (t : Nat) :
    ∃ sx, execMainRunDeadline updated ecc t s = .next sx ∧ Kept from0 sx := by
  unfold execMainRunDeadline
  try dsimp only
  repeat' first
    | with_reducible assumption
    | with_reducible refine ⟨_, rfl, ?_⟩
    | with_reducible first | apply kept_at | apply kept_startMain | apply kept_logMarver
    | split
    | with_reducible refine kept_mk ?_ rfl rfl rfl rfl rfl rfl rfl rfl rfl rfl rfl rfl rfl rfl rfl rfl rfl

theorem kept_execMainRunDone {s : State} (hk : Kept from0 s) (bad : Option (Fin 4096)) (ecc : MemEcc) (t : Nat) :
    ∃ sx, execMainRunDone bad ecc t s = .next sx ∧ Kept from0 sx := by
  unfold execMainRunDone
  try dsimp only
  repeat' first
    | with_reducible assumption
    | with_reducible refine ⟨_, rfl, ?_⟩
    | with_reducible first | apply kept_finishMain | apply kept_at

theorem kept_execFallbackRunDone {s : State} (hk : Kept from0 s) (bad : Option (Fin 4096)) (ecc : MemEcc) (t : Nat) :
    ∃ sx, execFallbackRunDone bad ecc t s = .next sx ∧ Kept from0 sx := by
  unfold execFallbackRunDone
  try dsimp only
  repeat' first
    | with_reducible assumption
    | with_reducible refine ⟨_, rfl, ?_⟩
    | with_reducible first | apply kept_finishFallback | apply kept_at

theorem kept_plausStream {s : State} (hk : Kept from0 s) (i : Nat) :
    Kept from0 (plausStream s i) := by
  unfold plausStream
  try dsimp only
  repeat' first
    | with_reducible assumption
    | with_reducible first | apply kept_setReg | apply kept_syncHealth | apply kept_setRegBit | apply kept_logMarver | apply kept_bumpSat
    | with_reducible refine kept_ite ?_ ?_
    | split
    | with_reducible refine kept_mk ?_ rfl rfl rfl rfl rfl rfl rfl rfl rfl rfl rfl rfl rfl rfl rfl rfl rfl

theorem kept_execPlausibilityEval {s : State} (hk : Kept from0 s) (t : Nat) :
    ∃ sx, execPlausibilityEval t s = .next sx ∧ Kept from0 sx := by
  unfold execPlausibilityEval
  try dsimp only
  repeat' first
    | with_reducible assumption
    | with_reducible refine ⟨_, rfl, ?_⟩
    | with_reducible first | apply kept_at | apply kept_plausStream
    | with_reducible refine kept_foldl ?_ (fun _ _ _ => ?_)
    | with_reducible refine kept_foldl_pair ?_ (fun _ _ _ => ?_)
    | with_reducible refine kept_ite ?_ ?_
    | split
    | with_reducible refine kept_mk ?_ rfl rfl rfl rfl rfl rfl rfl rfl rfl rfl rfl rfl rfl rfl rfl rfl rfl

end Sys2Proof.Machine
end

