-- ==== Sys2Proof/Laws/KeptLinks.lean ====
section
/-! SUPPORT. What the operations keep: Lehr B, the links, commits and Blowpipe. -/

namespace Sys2Proof.Machine

variable {from0 : State}

/-! ### Machine/LehrB.lean -/

theorem kept_syncFbReady {s : State} (hk : Kept from0 s) :
    Kept from0 (syncFbReady s) := by
  unfold syncFbReady
  try dsimp only
  repeat' first
    | with_reducible assumption
    | with_reducible first | apply kept_setRegBit

theorem kept_planBegun {s : State} (hk : Kept from0 s) (k : Nat) :
    Kept from0 (planBegun s k) := by
  unfold planBegun
  try dsimp only
  repeat' first
    | with_reducible assumption
    | with_reducible refine kept_mk ?_ rfl rfl rfl rfl rfl rfl rfl rfl rfl rfl rfl rfl rfl rfl rfl rfl rfl

theorem kept_execFallbackBlock {s : State} (hk : Kept from0 s) (buf : Fin 2) (t : Nat) :
    ∃ sx, execFallbackBlock buf t s = .next sx ∧ Kept from0 sx := by
  unfold execFallbackBlock
  try dsimp only
  repeat' first
    | with_reducible assumption
    | with_reducible refine ⟨_, rfl, ?_⟩
    | with_reducible first | apply kept_at | apply kept_bump | apply kept_planBegun | apply kept_noteLehrA | apply kept_setRegBit
    | with_reducible refine kept_ite ?_ ?_
    | split
    | with_reducible refine kept_mk ?_ rfl rfl rfl rfl rfl rfl rfl rfl rfl rfl rfl rfl rfl rfl rfl rfl rfl

theorem kept_readRadcal {s : State} (hk : Kept from0 s) (ecc : MemEcc) (r : Nat) :
    Kept from0 (readRadcal ecc s r) := by
  unfold readRadcal
  try dsimp only
  repeat' first
    | with_reducible assumption
    | with_reducible first | apply kept_devRead
    | with_reducible refine kept_fst (by assumption) ?_
    | with_reducible refine kept_ite ?_ ?_
    | split
    | with_reducible refine kept_mk ?_ rfl rfl rfl rfl rfl rfl rfl rfl rfl rfl rfl rfl rfl rfl rfl rfl rfl

theorem kept_execRadarPacket {s : State} (hk : Kept from0 s) (port : Fin 2) (payload : List Byte) (t : Nat) :
    ∃ sx, execRadarPacket port payload t s = .next sx ∧ Kept from0 sx := by
  unfold execRadarPacket
  try dsimp only
  repeat' first
    | with_reducible assumption
    | with_reducible refine ⟨_, rfl, ?_⟩
    | with_reducible first | apply kept_at
    | with_reducible refine kept_fst (by assumption) ?_
    | with_reducible refine kept_ite ?_ ?_
    | split
    | with_reducible refine kept_mk ?_ rfl rfl rfl rfl rfl rfl rfl rfl rfl rfl rfl rfl rfl rfl rfl rfl rfl

theorem kept_execPlanCheckRequest {s : State} (hk : Kept from0 s) (frame : BitVec 32) (t : Nat) :
    ∃ sx, execPlanCheckRequest frame t s = .next sx ∧ Kept from0 sx := by
  unfold execPlanCheckRequest
  try dsimp only
  repeat' first
    | with_reducible assumption
    | with_reducible refine ⟨_, rfl, ?_⟩
    | with_reducible first | apply kept_at
    | with_reducible refine kept_ite ?_ ?_
    | split
    | with_reducible refine kept_mk ?_ rfl rfl rfl rfl rfl rfl rfl rfl rfl rfl rfl rfl rfl rfl rfl rfl rfl

theorem kept_showVerdict {s : State} (hk : Kept from0 s) (k : Nat) (v : VerdictRes) :
    Kept from0 (showVerdict s k v) := by
  unfold showVerdict
  try dsimp only
  repeat' first
    | with_reducible assumption
    | with_reducible first | apply kept_setRegBit | apply kept_setReg | apply kept_logLehrA | apply kept_bump
    | with_reducible refine kept_ite ?_ ?_
    | split
    | with_reducible refine kept_mk ?_ rfl rfl rfl rfl rfl rfl rfl rfl rfl rfl rfl rfl rfl rfl rfl rfl rfl

theorem kept_takeVerdict {s : State} (hk : Kept from0 s) (k : Nat) (v : VerdictRes) :
    Kept from0 (takeVerdict s k v) := by
  unfold takeVerdict
  try dsimp only
  repeat' first
    | with_reducible assumption
    | with_reducible first | apply kept_showVerdict | apply kept_evalFrame | apply kept_setFrameSel
    | with_reducible refine kept_mk ?_ rfl rfl rfl rfl rfl rfl rfl rfl rfl rfl rfl rfl rfl rfl rfl rfl rfl

theorem kept_execEnvelopeVerdict {s : State} (hk : Kept from0 s) (ecc : MemEcc) (t : Nat) :
    ∃ sx, execEnvelopeVerdict ecc t s = .next sx ∧ Kept from0 sx := by
  unfold execEnvelopeVerdict
  try dsimp only
  repeat' first
    | with_reducible assumption
    | with_reducible refine ⟨_, rfl, ?_⟩
    | with_reducible first | apply kept_at | apply kept_takeVerdict | apply kept_devRead
    | with_reducible refine kept_fst (by assumption) ?_
    | with_reducible refine kept_ite ?_ ?_
    | split
    | with_reducible refine kept_mk ?_ rfl rfl rfl rfl rfl rfl rfl rfl rfl rfl rfl rfl rfl rfl rfl rfl rfl

theorem kept_execFallbackPlanLate {s : State} (hk : Kept from0 s) (t : Nat) :
    ∃ sx, execFallbackPlanLate t s = .next sx ∧ Kept from0 sx := by
  unfold execFallbackPlanLate
  try dsimp only
  repeat' first
    | with_reducible assumption
    | with_reducible refine ⟨_, rfl, ?_⟩
    | with_reducible first | apply kept_at | apply kept_planBegun
    | with_reducible refine kept_ite ?_ ?_
    | split
    | with_reducible refine kept_mk ?_ rfl rfl rfl rfl rfl rfl rfl rfl rfl rfl rfl rfl rfl rfl rfl rfl rfl

theorem kept_takePlan {s : State} (hk : Kept from0 s) (q : FbPlan) :
    Kept from0 (takePlan s q) := by
  unfold takePlan
  try dsimp only
  repeat' first
    | with_reducible assumption
    | with_reducible first | apply kept_planMessage | apply kept_evalFrame | apply kept_syncFbReady | apply kept_kickFor
    | with_reducible refine kept_mk ?_ rfl rfl rfl rfl rfl rfl rfl rfl rfl rfl rfl rfl rfl rfl rfl rfl rfl

theorem kept_writePlan {s : State} (hk : Kept from0 s) (addr : Nat) (bs : List Byte) :
    Kept from0 (writePlan s addr bs).1 := by
  unfold writePlan
  try dsimp only
  repeat' first
    | with_reducible assumption
    | with_reducible first | apply kept_devWrite
    | with_reducible refine kept_fst (by assumption) ?_
    | with_reducible refine kept_ite ?_ ?_
    | split
    | with_reducible refine kept_mk ?_ rfl rfl rfl rfl rfl rfl rfl rfl rfl rfl rfl rfl rfl rfl rfl rfl rfl

theorem kept_execFallbackPlanDone {s : State} (hk : Kept from0 s) (t : Nat) :
    ∃ sx, execFallbackPlanDone t s = .next sx ∧ Kept from0 sx := by
  unfold execFallbackPlanDone
  try dsimp only
  repeat' first
    | with_reducible assumption
    | with_reducible refine ⟨_, rfl, ?_⟩
    | with_reducible first | apply kept_at | apply kept_nextFresh | apply kept_writePlan | apply kept_takePlan
    | with_reducible refine kept_fst (by assumption) ?_
    | with_reducible refine kept_ite ?_ ?_
    | split
    | with_reducible refine kept_mk ?_ rfl rfl rfl rfl rfl rfl rfl rfl rfl rfl rfl rfl rfl rfl rfl rfl rfl

theorem kept_hostSilent {s : State} (hk : Kept from0 s) :
    Kept from0 (hostSilent s) := by
  unfold hostSilent
  try dsimp only
  repeat' first
    | with_reducible assumption
    | with_reducible first | apply kept_setRegBit | apply kept_logLehrA | apply kept_startReset | apply kept_syncActive
    | with_reducible refine kept_mk ?_ rfl rfl rfl rfl rfl rfl rfl rfl rfl rfl rfl rfl rfl rfl rfl rfl rfl

theorem kept_execDieHeartbeatTimeout {s : State} (hk : Kept from0 s) (die : Block) (t : Nat) :
    ∃ sx, execDieHeartbeatTimeout die t s = .next sx ∧ Kept from0 sx := by
  unfold execDieHeartbeatTimeout
  try dsimp only
  repeat' first
    | with_reducible assumption
    | with_reducible refine ⟨_, rfl, ?_⟩
    | with_reducible first | apply kept_at | apply kept_logLehrA | apply kept_startReset | apply kept_hostSilent
    | with_reducible refine kept_ite ?_ ?_
    | split
    | with_reducible refine kept_mk ?_ rfl rfl rfl rfl rfl rfl rfl rfl rfl rfl rfl rfl rfl rfl rfl rfl rfl

theorem kept_execRingTokenTimeout {s : State} (hk : Kept from0 s) (seg : RingNode) (t : Nat) :
    ∃ sx, execRingTokenTimeout seg t s = .next sx ∧ Kept from0 sx := by
  unfold execRingTokenTimeout
  try dsimp only
  repeat' first
    | with_reducible assumption
    | with_reducible refine ⟨_, rfl, ?_⟩
    | with_reducible first | apply kept_at | apply kept_logLehrA | apply kept_setRegFld | apply kept_setRegBit
    | with_reducible refine kept_ite ?_ ?_
    | split

theorem kept_execGafhbWrite {s : State} (hk : Kept from0 s) (who : Ident) (t : Nat) :
    ∃ sx, execGafhbWrite who t s = .next sx ∧ Kept from0 sx := by
  unfold execGafhbWrite
  try dsimp only
  repeat' first
    | with_reducible assumption
    | with_reducible refine ⟨_, rfl, ?_⟩
    | with_reducible first | apply kept_at | apply kept_setRegBit | apply kept_syncActive
    | with_reducible refine kept_ite ?_ ?_
    | split
    | with_reducible refine kept_mk ?_ rfl rfl rfl rfl rfl rfl rfl rfl rfl rfl rfl rfl rfl rfl rfl rfl rfl

theorem kept_execGafferHeartbeatTimeout {s : State} (hk : Kept from0 s) (t : Nat) :
    ∃ sx, execGafferHeartbeatTimeout t s = .next sx ∧ Kept from0 sx := by
  unfold execGafferHeartbeatTimeout
  try dsimp only
  repeat' first
    | with_reducible assumption
    | with_reducible refine ⟨_, rfl, ?_⟩
    | with_reducible first | apply kept_at | apply kept_hostSilent
    | with_reducible refine kept_ite ?_ ?_
    | split

theorem kept_loseB {s : State} (hk : Kept from0 s) :
    Kept from0 (loseB s) := by
  unfold loseB
  try dsimp only
  repeat' first
    | with_reducible assumption
    | with_reducible first | apply kept_logLehrA | apply kept_setRegBit | apply kept_violateEval
    | with_reducible refine kept_mk ?_ rfl rfl rfl rfl rfl rfl rfl rfl rfl rfl rfl rfl rfl rfl rfl rfl rfl

theorem kept_loseA {s : State} (hk : Kept from0 s) :
    Kept from0 (loseA s) := by
  unfold loseA
  try dsimp only
  repeat' first
    | with_reducible assumption
    | with_reducible first | apply kept_setRegBit | apply kept_noteLehrA | apply kept_syncActive | apply kept_markCancel
    | with_reducible refine kept_foldl ?_ (fun _ _ _ => ?_)
    | with_reducible refine kept_foldl_pair ?_ (fun _ _ _ => ?_)
    | with_reducible refine kept_mk ?_ rfl rfl rfl rfl rfl rfl rfl rfl rfl rfl rfl rfl rfl rfl rfl rfl rfl

theorem kept_execLehrHeartbeatTimeout {s : State} (hk : Kept from0 s) (lostB : Bool) (t : Nat) :
    ∃ sx, execLehrHeartbeatTimeout lostB t s = .next sx ∧ Kept from0 sx := by
  unfold execLehrHeartbeatTimeout
  try dsimp only
  repeat' first
    | with_reducible assumption
    | with_reducible refine ⟨_, rfl, ?_⟩
    | with_reducible first | apply kept_at | apply kept_loseB | apply kept_loseA
    | with_reducible refine kept_ite ?_ ?_
    | split

theorem kept_execLockstepMismatch {s : State} (hk : Kept from0 s) (lehrB : Bool) (t : Nat) :
    ∃ sx, execLockstepMismatch lehrB t s = .next sx ∧ Kept from0 sx := by
  unfold execLockstepMismatch
  try dsimp only
  repeat' first
    | with_reducible assumption
    | with_reducible refine ⟨_, rfl, ?_⟩
    | with_reducible first | apply kept_at | apply kept_loseB | apply kept_loseA
    | with_reducible refine kept_ite ?_ ?_
    | split
    | with_reducible refine kept_mk ?_ rfl rfl rfl rfl rfl rfl rfl rfl rfl rfl rfl rfl rfl rfl rfl rfl rfl

theorem kept_execLehraTakeover {s : State} (hk : Kept from0 s) (t : Nat) :
    ∃ sx, execLehraTakeover t s = .next sx ∧ Kept from0 sx := by
  unfold execLehraTakeover
  try dsimp only
  repeat' first
    | with_reducible assumption
    | with_reducible refine ⟨_, rfl, ?_⟩
    | with_reducible first | apply kept_at | apply kept_setRegBit
    | with_reducible refine kept_ite ?_ ?_
    | split
    | with_reducible refine kept_mk ?_ rfl rfl rfl rfl rfl rfl rfl rfl rfl rfl rfl rfl rfl rfl rfl rfl rfl

theorem kept_execDeviceTimeHandover {s : State} (hk : Kept from0 s) (t : Nat) :
    ∃ sx, execDeviceTimeHandover t s = .next sx ∧ Kept from0 sx := by
  unfold execDeviceTimeHandover
  try dsimp only
  repeat' first
    | with_reducible assumption
    | with_reducible refine ⟨_, rfl, ?_⟩
    | with_reducible first | apply kept_at
    | with_reducible refine kept_ite ?_ ?_
    | split
    | with_reducible refine kept_mk ?_ rfl rfl rfl rfl rfl rfl rfl rfl rfl rfl rfl rfl rfl rfl rfl rfl rfl

theorem kept_execLehrHeartbeat {s : State} (hk : Kept from0 s) (fromB : Bool) (t : Nat) :
    ∃ sx, execLehrHeartbeat fromB t s = .next sx ∧ Kept from0 sx := by
  unfold execLehrHeartbeat
  try dsimp only
  repeat' first
    | with_reducible assumption
    | with_reducible refine ⟨_, rfl, ?_⟩
    | with_reducible first | apply kept_at | apply kept_setRegBit | apply kept_releaseDomains | apply kept_logLehrA | apply kept_syncActive
    | with_reducible refine kept_foldl ?_ (fun _ _ _ => ?_)
    | with_reducible refine kept_foldl_pair ?_ (fun _ _ _ => ?_)
    | with_reducible refine kept_ite ?_ ?_
    | split
    | with_reducible refine kept_mk ?_ rfl rfl rfl rfl rfl rfl rfl rfl rfl rfl rfl rfl rfl rfl rfl rfl rfl

/-! ### Machine/Links.lean -/

theorem kept_discardPacket {s : State} (hk : Kept from0 s) (k : Nat) (node : Nat) (who : Nat) (addr : Nat) :
    Kept from0 (discardPacket s k node who addr) := by
  unfold discardPacket
  try dsimp only
  repeat' first
    | with_reducible assumption
    | with_reducible first | apply kept_logCruc | apply kept_bump

theorem kept_malformed {s : State} (hk : Kept from0 s) (node : Nat) (who : Nat) (tag : Nat) (addr : Nat) (owner : Option Nat) :
    Kept from0 (malformed s node who tag addr owner) := by
  unfold malformed
  try dsimp only
  repeat' first
    | with_reducible assumption
    | with_reducible first | apply kept_poisonAt | apply kept_discardPacket
    | with_reducible refine kept_fst (by assumption) ?_
    | with_reducible refine kept_mk ?_ rfl rfl rfl rfl rfl rfl rfl rfl rfl rfl rfl rfl rfl rfl rfl rfl rfl

theorem kept_trackReq {s0 : State} {s : State} (hk : Kept from0 s0) (hk1 : Kept from0 s) (r : Req) (tag : Nat) (addr : Nat) (kind : Nat) (agent : Agent) (owner : Option Nat) (poisoned : Bool) (data : List Byte) :
    Kept from0 (trackReq s0 s r tag addr kind agent owner poisoned data) := by
  unfold trackReq
  try dsimp only
  repeat' first
    | with_reducible assumption
    | with_reducible first | apply kept_pushTrack
    | with_reducible refine kept_fst (by assumption) ?_

theorem kept_packetRead {s : State} (hk : Kept from0 s) (r : Req) (ecc : CopyEcc) (a : Nat) (n : Nat) :
    Kept from0 (packetRead s r ecc a n).1 := by
  unfold packetRead
  try dsimp only
  repeat' first
    | with_reducible assumption
    | with_reducible first | apply kept_checkReq | apply kept_windowMeets | apply kept_windowAccess | apply kept_poisonAt | apply kept_readReq
    | with_reducible refine kept_fst (by assumption) ?_
    | with_reducible refine kept_ite ?_ ?_
    | split
    | with_reducible refine kept_mk ?_ rfl rfl rfl rfl rfl rfl rfl rfl rfl rfl rfl rfl rfl rfl rfl rfl rfl

theorem kept_packetWrite {s : State} (hk : Kept from0 s) (r : Req) (ecc : CopyEcc) (a : Nat) (bs : List Byte) :
    Kept from0 (packetWrite s r ecc a bs).1 := by
  unfold packetWrite
  try dsimp only
  repeat' first
    | with_reducible assumption
    | with_reducible first | apply kept_checkReq | apply kept_windowAccess | apply kept_windowMeets | apply kept_poisonAt | apply kept_writeReq
    | with_reducible refine kept_fst (by assumption) ?_
    | with_reducible refine kept_ite ?_ ?_
    | split
    | with_reducible refine kept_mk ?_ rfl rfl rfl rfl rfl rfl rfl rfl rfl rfl rfl rfl rfl rfl rfl rfl rfl

theorem kept_execRd {s : State} (hk : Kept from0 s) (node : BitVec 8) (who : Ident) (tag : BitVec 12) (cls : BitVec 2) (addr : BitVec 48) (want : ReadFor) (ecc : CopyEcc) (cache : CacheEcc) (t : Nat) :
    ∃ sx, execRd node who tag cls addr want ecc cache t s = .next sx ∧ Kept from0 sx := by
  unfold execRd
  try dsimp only
  repeat' first
    | with_reducible assumption
    | with_reducible refine ⟨_, rfl, ?_⟩
    | with_reducible first | apply kept_at | apply kept_malformed | apply kept_packetRead | apply kept_poisonRuns | apply kept_trackReq
    | with_reducible refine kept_fst (by assumption) ?_
    | with_reducible refine kept_ite ?_ ?_
    | split

theorem kept_execWr {s : State} (hk : Kept from0 s) (node : BitVec 8) (who : Ident) (tag : BitVec 12) (cls : BitVec 2) (addr : BitVec 48) (want : WriteFor) (data : List Byte) (t : Nat) :
    ∃ sx, execWr node who tag cls addr want data t s = .next sx ∧ Kept from0 sx := by
  unfold execWr
  try dsimp only
  repeat' first
    | with_reducible assumption
    | with_reducible refine ⟨_, rfl, ?_⟩
    | with_reducible first | apply kept_at | apply kept_malformed | apply kept_packetWrite | apply kept_orWait | apply kept_poisonRuns
    | with_reducible first | apply kept_trackReq
    | with_reducible refine kept_fst (by assumption) ?_
    | with_reducible refine kept_ite ?_ ?_
    | split
    | with_reducible refine kept_mk ?_ rfl rfl rfl rfl rfl rfl rfl rfl rfl rfl rfl rfl rfl rfl rfl rfl rfl

theorem kept_execRecPacket {s : State} (hk : Kept from0 s) (node : BitVec 8) (who : Ident) (tag : BitVec 12) (cls : BitVec 2) (addr : BitVec 48) (sq : BitVec 32) (tile : BitVec 88) (base : BitVec 48) (rowsM1 : BitVec 16) (data : List Byte) (t : Nat) :
    ∃ sx, execRecPacket node who tag cls addr sq tile base rowsM1 data t s = .next sx ∧ Kept from0 sx := by
  unfold execRecPacket
  try dsimp only
  repeat' first
    | with_reducible assumption
    | with_reducible refine ⟨_, rfl, ?_⟩
    | with_reducible first | apply kept_at | apply kept_malformed | apply kept_recReq | apply kept_orWait | apply kept_trackReq
    | with_reducible refine kept_fst (by assumption) ?_
    | with_reducible refine kept_ite ?_ ?_
    | split

theorem kept_respond {s : State} (hk : Kept from0 s) (node : Nat) (tag : Nat) (kind : Nat) :
    Kept from0 (respond s node tag kind) := by
  unfold respond
  try dsimp only
  repeat' first
    | with_reducible assumption
    | with_reducible first | apply kept_answer
    | with_reducible refine kept_ite ?_ ?_
    | split
    | with_reducible refine kept_mk ?_ rfl rfl rfl rfl rfl rfl rfl rfl rfl rfl rfl rfl rfl rfl rfl rfl rfl

theorem kept_execRdrsp {s : State} (hk : Kept from0 s) (node : BitVec 8) (tag : BitVec 12) :
    ∃ sx, execRdrsp node tag s = .next sx ∧ Kept from0 sx := by
  unfold execRdrsp
  try dsimp only
  repeat' first
    | with_reducible assumption
    | with_reducible refine ⟨_, rfl, ?_⟩
    | with_reducible first | apply kept_respond

theorem kept_execWrack {s : State} (hk : Kept from0 s) (node : BitVec 8) (tag : BitVec 12) :
    ∃ sx, execWrack node tag s = .next sx ∧ Kept from0 sx := by
  unfold execWrack
  try dsimp only
  repeat' first
    | with_reducible assumption
    | with_reducible refine ⟨_, rfl, ?_⟩
    | with_reducible first | apply kept_respond

theorem kept_execCsrrsp {s : State} (hk : Kept from0 s) (node : BitVec 8) (tag : BitVec 12) :
    ∃ sx, execCsrrsp node tag s = .next sx ∧ Kept from0 sx := by
  unfold execCsrrsp
  try dsimp only
  repeat' first
    | with_reducible assumption
    | with_reducible refine ⟨_, rfl, ?_⟩
    | with_reducible first | apply kept_respond

theorem kept_setLink {s : State} (hk : Kept from0 s) (key : Nat) (x : LinkDir) :
    Kept from0 (State.setLink s key x) := by
  unfold State.setLink
  try dsimp only
  repeat' first
    | with_reducible assumption
    | with_reducible refine kept_mk ?_ rfl rfl rfl rfl rfl rfl rfl rfl rfl rfl rfl rfl rfl rfl rfl rfl rfl

theorem kept_enterRecover {s : State} (hk : Kept from0 s) (link : Nat) :
    Kept from0 (enterRecover s link) := by
  unfold enterRecover
  try dsimp only
  repeat' first
    | with_reducible assumption
    | with_reducible first | apply kept_bumpSat | apply kept_setRegFld
    | with_reducible refine kept_ite ?_ ?_
    | split
    | with_reducible refine kept_mk ?_ rfl rfl rfl rfl rfl rfl rfl rfl rfl rfl rfl rfl rfl rfl rfl rfl rfl

theorem kept_setCond {s : State} (hk : Kept from0 s) (bit : Nat) (b : Bool) :
    Kept from0 (setCond s bit b).1 := by
  unfold setCond
  try dsimp only
  repeat' first
    | with_reducible assumption
    | with_reducible first | apply kept_setRegBit

theorem kept_judgePair {s : State} (hk : Kept from0 s) (q : Nat) :
    Kept from0 (judgePair s q) := by
  unfold judgePair
  try dsimp only
  repeat' first
    | with_reducible assumption
    | with_reducible first | apply kept_setCond | apply kept_logCruc | apply kept_startReset
    | with_reducible refine kept_fst (by assumption) ?_
    | with_reducible refine kept_foldl ?_ (fun _ _ _ => ?_)
    | with_reducible refine kept_foldl_pair ?_ (fun _ _ _ => ?_)
    | with_reducible refine kept_ite ?_ ?_
    | split

theorem kept_judgeAttach {s : State} (hk : Kept from0 s) :
    Kept from0 (judgeAttach s) := by
  unfold judgeAttach
  try dsimp only
  repeat' first
    | with_reducible assumption
    | with_reducible first | apply kept_setRegBit | apply kept_fenceEntries | apply kept_logCruc
    | with_reducible refine kept_foldl ?_ (fun _ _ _ => ?_)
    | with_reducible refine kept_foldl_pair ?_ (fun _ _ _ => ?_)
    | with_reducible refine kept_mk ?_ rfl rfl rfl rfl rfl rfl rfl rfl rfl rfl rfl rfl rfl rfl rfl rfl rfl

theorem kept_judgeModule {s : State} (hk : Kept from0 s) (m : Nat) :
    Kept from0 (judgeModule s m) := by
  unfold judgeModule
  try dsimp only
  repeat' first
    | with_reducible assumption
    | with_reducible first | apply kept_judgePair | apply kept_judgeAttach | apply kept_startReset | apply kept_logCruc
    | with_reducible refine kept_ite ?_ ?_
    | split

theorem kept_clearLink {s : State} (hk : Kept from0 s) (link : Nat) :
    Kept from0 (clearLink s link) := by
  unfold clearLink
  try dsimp only
  repeat' first
    | with_reducible assumption
    | with_reducible first | apply kept_setLink

theorem kept_removeModule {s : State} (hk : Kept from0 s) (m : Nat) :
    Kept from0 (removeModule s m) := by
  unfold removeModule
  try dsimp only
  repeat' first
    | with_reducible assumption
    | with_reducible first | apply kept_clearLink | apply kept_setRegFld | apply kept_judgeModule | apply kept_logCruc

theorem kept_crcFailure {s : State} (hk : Kept from0 s) (link : Nat) :
    Kept from0 (crcFailure s link) := by
  unfold crcFailure
  try dsimp only
  repeat' first
    | with_reducible assumption
    | with_reducible first | apply kept_bump | apply kept_enterRecover | apply kept_judgeModule
    | with_reducible refine kept_ite ?_ ?_
    | split
    | with_reducible refine kept_mk ?_ rfl rfl rfl rfl rfl rfl rfl rfl rfl rfl rfl rfl rfl rfl rfl rfl rfl

theorem kept_countReplay {s : State} (hk : Kept from0 s) (link : Nat) :
    Kept from0 (countReplay s link) := by
  unfold countReplay
  try dsimp only
  repeat' first
    | with_reducible assumption
    | with_reducible first | apply kept_bump
    | with_reducible refine kept_ite ?_ ?_
    | split

theorem kept_setFails {s : State} (hk : Kept from0 s) (key : Nat) (n : Nat) :
    Kept from0 (setFails s key n) := by
  unfold setFails
  try dsimp only
  repeat' first
    | with_reducible assumption
    | with_reducible refine kept_mk ?_ rfl rfl rfl rfl rfl rfl rfl rfl rfl rfl rfl rfl rfl rfl rfl rfl rfl

theorem kept_startReplay {s : State} (hk : Kept from0 s) (link : Nat) (key : Nat) :
    Kept from0 (startReplay s link key) := by
  unfold startReplay
  try dsimp only
  repeat' first
    | with_reducible assumption
    | with_reducible first | apply kept_countReplay | apply kept_setLink | apply kept_setFails
    | with_reducible refine kept_ite ?_ ?_
    | split
    | with_reducible refine kept_mk ?_ rfl rfl rfl rfl rfl rfl rfl rfl rfl rfl rfl rfl rfl rfl rfl rfl rfl

theorem kept_takePacket {s : State} (hk : Kept from0 s) (k : Nat) (h : PacketHead) (extOk : Bool) :
    Kept from0 (takePacket s k h extOk) := by
  unfold takePacket
  try dsimp only
  repeat' first
    | with_reducible assumption
    | with_reducible first | apply kept_discardPacket | apply kept_poisonAt
    | with_reducible refine kept_fst (by assumption) ?_
    | with_reducible refine kept_ite ?_ ?_
    | split
    | with_reducible refine kept_mk ?_ rfl rfl rfl rfl rfl rfl rfl rfl rfl rfl rfl rfl rfl rfl rfl rfl rfl

theorem kept_noteLayout {s : State} (hk : Kept from0 s) (link : Nat) (up : Bool) :
    Kept from0 (noteLayout s link up) := by
  unfold noteLayout
  try dsimp only
  repeat' first
    | with_reducible assumption
    | with_reducible refine kept_ite ?_ ?_
    | split
    | with_reducible refine kept_mk ?_ rfl rfl rfl rfl rfl rfl rfl rfl rfl rfl rfl rfl rfl rfl rfl rfl rfl

theorem kept_execPacketReceive {s : State} (hk : Kept from0 s) (link : Fin 122) (up : Bool) (sq : BitVec 8) (head : PacketHead) (extOk : Bool) (crcOk : Bool) (t : Nat) :
    ∃ sx, execPacketReceive link up sq head extOk crcOk t s = .next sx ∧ Kept from0 sx := by
  unfold execPacketReceive
  try dsimp only
  repeat' first
    | with_reducible assumption
    | with_reducible refine ⟨_, rfl, ?_⟩
    | with_reducible first | apply kept_at | apply kept_setLink | apply kept_noteLayout | apply kept_crcFailure | apply kept_takePacket
    | with_reducible refine kept_ite ?_ ?_
    | split
    | with_reducible refine kept_mk ?_ rfl rfl rfl rfl rfl rfl rfl rfl rfl rfl rfl rfl rfl rfl rfl rfl rfl

theorem kept_execAck {s : State} (hk : Kept from0 s) (link : Fin 122) (up : Bool) (sq : BitVec 8) (crc : BitVec 16) :
    ∃ sx, execAck link up sq crc s = .next sx ∧ Kept from0 sx := by
  unfold execAck
  try dsimp only
  repeat' first
    | with_reducible assumption
    | with_reducible refine ⟨_, rfl, ?_⟩
    | with_reducible first | apply kept_setFails | apply kept_setLink
    | with_reducible refine kept_ite ?_ ?_
    | split

theorem kept_execNak {s : State} (hk : Kept from0 s) (link : Fin 122) (up : Bool) (sq : BitVec 8) (crc : BitVec 16) (t : Nat) :
    ∃ sx, execNak link up sq crc t s = .next sx ∧ Kept from0 sx := by
  unfold execNak
  try dsimp only
  repeat' first
    | with_reducible assumption
    | with_reducible refine ⟨_, rfl, ?_⟩
    | with_reducible first | apply kept_at | apply kept_startReplay | apply kept_setLink
    | with_reducible refine kept_ite ?_ ?_
    | split
    | with_reducible refine kept_mk ?_ rfl rfl rfl rfl rfl rfl rfl rfl rfl rfl rfl rfl rfl rfl rfl rfl rfl

theorem kept_execCredit {s : State} (hk : Kept from0 s) (link : Fin 122) (up : Bool) (vc : Fin 6) (total : BitVec 16) (crc : BitVec 16) :
    ∃ sx, execCredit link up vc total crc s = .next sx ∧ Kept from0 sx := by
  unfold execCredit
  try dsimp only
  repeat' first
    | with_reducible assumption
    | with_reducible refine ⟨_, rfl, ?_⟩
    | with_reducible first | apply kept_setLink
    | with_reducible refine kept_ite ?_ ?_
    | split
    | with_reducible refine kept_mk ?_ rfl rfl rfl rfl rfl rfl rfl rfl rfl rfl rfl rfl rfl rfl rfl rfl rfl

theorem kept_execIdle {s : State} (hk : Kept from0 s) (_link : Fin 122) (_up : Bool) :
    ∃ sx, execIdle _link _up s = .next sx ∧ Kept from0 sx := by
  unfold execIdle
  try dsimp only
  repeat' first
    | with_reducible assumption
    | with_reducible refine ⟨_, rfl, ?_⟩

theorem kept_replayFatal {s : State} (hk : Kept from0 s) (link : Nat) (key : Nat) :
    Kept from0 (replayFatal s link key) := by
  unfold replayFatal
  try dsimp only
  repeat' first
    | with_reducible assumption
    | with_reducible first | apply kept_setFails | apply kept_logCruc | apply kept_startReset
    | with_reducible refine kept_ite ?_ ?_
    | split

theorem kept_execReplayTimeout {s : State} (hk : Kept from0 s) (link : Fin 122) (up : Bool) (sideband : Bool) (t : Nat) :
    ∃ sx, execReplayTimeout link up sideband t s = .next sx ∧ Kept from0 sx := by
  unfold execReplayTimeout
  try dsimp only
  repeat' first
    | with_reducible assumption
    | with_reducible refine ⟨_, rfl, ?_⟩
    | with_reducible first | apply kept_at | apply kept_startReplay | apply kept_setFails | apply kept_replayFatal
    | with_reducible refine kept_ite ?_ ?_
    | split

theorem kept_failPackets {s : State} (hk : Kept from0 s) (m : Nat) (us : List LinkPkt) :
    Kept from0 (failPackets s m us) := by
  unfold failPackets
  try dsimp only
  repeat' first
    | with_reducible assumption
    | with_reducible first | apply kept_fenceEntries
    | with_reducible refine kept_ite ?_ ?_
    | split

theorem kept_resendOver {s : State} (hk : Kept from0 s) (up : Bool) (ms : List Nat) (ws : List Nat) (a4 : List LinkPkt) :
    Kept from0 (resendOver s up ms ws a4) := by
  induction a4 generalizing s up ms ws with
  | nil =>
    unfold resendOver
    try dsimp only
    repeat' first
      | with_reducible assumption
      | with_reducible first | apply kept_setLink
      | split
      | with_reducible refine kept_mk ?_ rfl rfl rfl rfl rfl rfl rfl rfl rfl rfl rfl rfl rfl rfl rfl rfl rfl
  | cons b l ih =>
    unfold resendOver
    try dsimp only
    repeat' first
      | with_reducible assumption
      | with_reducible apply ih
      | with_reducible first | apply kept_setLink
      | split
      | with_reducible refine kept_mk ?_ rfl rfl rfl rfl rfl rfl rfl rfl rfl rfl rfl rfl rfl rfl rfl rfl rfl

theorem kept_rescue {s0 : State} {s : State} (hk : Kept from0 s0) (hk1 : Kept from0 s) (m : Nat) (up : Bool) :
    Kept from0 (rescue s0 s m up) := by
  unfold rescue
  try dsimp only
  repeat' first
    | with_reducible assumption
    | with_reducible first | apply kept_resendOver | apply kept_failPackets
    | with_reducible refine kept_ite ?_ ?_
    | split

theorem kept_rescueBoth {s0 : State} {s : State} (hk : Kept from0 s0) (hk1 : Kept from0 s) (m : Nat) :
    Kept from0 (rescueBoth s0 s m) := by
  unfold rescueBoth
  try dsimp only
  repeat' first
    | with_reducible assumption
    | with_reducible first | apply kept_rescue

theorem kept_setLanes {s : State} (hk : Kept from0 s) (m : Nat) (l : LaneReport) :
    Kept from0 (setLanes s m l) := by
  unfold setLanes
  try dsimp only
  repeat' first
    | with_reducible assumption
    | with_reducible first | apply kept_setReg

theorem kept_activateLink {s : State} (hk : Kept from0 s) (m : Nat) :
    Kept from0 (activateLink s m) := by
  unfold activateLink
  try dsimp only
  repeat' first
    | with_reducible assumption
    | with_reducible first | apply kept_setRegFld | apply kept_setRegBit
    | with_reducible refine kept_mk ?_ rfl rfl rfl rfl rfl rfl rfl rfl rfl rfl rfl rfl rfl rfl rfl rfl rfl

theorem kept_narrowTo {s : State} (hk : Kept from0 s) (m : Nat) (upper : Bool) :
    Kept from0 (narrowTo s m upper) := by
  unfold narrowTo
  try dsimp only
  repeat' first
    | with_reducible assumption
    | with_reducible first | apply kept_setRegFld | apply kept_setRegBit | apply kept_logCruc
    | with_reducible refine kept_mk ?_ rfl rfl rfl rfl rfl rfl rfl rfl rfl rfl rfl rfl rfl rfl rfl rfl rfl

theorem kept_execLaneMonitorFlag {s : State} (hk : Kept from0 s) (m : Fin 26) (t : Nat) :
    ∃ sx, execLaneMonitorFlag m t s = .next sx ∧ Kept from0 sx := by
  unfold execLaneMonitorFlag
  try dsimp only
  repeat' first
    | with_reducible assumption
    | with_reducible refine ⟨_, rfl, ?_⟩
    | with_reducible first | apply kept_at | apply kept_judgeModule | apply kept_enterRecover
    | with_reducible refine kept_ite ?_ ?_
    | split

theorem kept_execModuleTrainingDone {s : State} (hk : Kept from0 s) (m : Fin 26) (res : TrainRes) (lanes : LaneReport) :
    ∃ sx, execModuleTrainingDone m res lanes s = .next sx ∧ Kept from0 sx := by
  unfold execModuleTrainingDone
  try dsimp only
  repeat' first
    | with_reducible assumption
    | with_reducible refine ⟨_, rfl, ?_⟩
    | with_reducible first | apply kept_setLanes | apply kept_releaseDomains | apply kept_judgeModule | apply kept_activateLink
    | with_reducible first | apply kept_removeModule | apply kept_narrowTo
    | with_reducible refine kept_ite ?_ ?_
    | split
    | with_reducible refine kept_mk ?_ rfl rfl rfl rfl rfl rfl rfl rfl rfl rfl rfl rfl rfl rfl rfl rfl rfl

theorem kept_execModuleRetrainDone {s : State} (hk : Kept from0 s) (m : Fin 26) (res : TrainRes) (lanes : LaneReport) :
    ∃ sx, execModuleRetrainDone m res lanes s = .next sx ∧ Kept from0 sx := by
  unfold execModuleRetrainDone
  try dsimp only
  repeat' first
    | with_reducible assumption
    | with_reducible refine ⟨_, rfl, ?_⟩
    | with_reducible first | apply kept_clearLink | apply kept_setLanes | apply kept_judgeModule | apply kept_logCruc | apply kept_activateLink
    | with_reducible first | apply kept_removeModule | apply kept_narrowTo | apply kept_releaseDomains | apply kept_poisonRuns
    | with_reducible first | apply kept_rescueBoth
    | with_reducible refine kept_ite ?_ ?_
    | split
    | with_reducible refine kept_mk ?_ rfl rfl rfl rfl rfl rfl rfl rfl rfl rfl rfl rfl rfl rfl rfl rfl rfl

theorem kept_execRecoverTimeout {s : State} (hk : Kept from0 s) (m : Fin 26) (t : Nat) :
    ∃ sx, execRecoverTimeout m t s = .next sx ∧ Kept from0 sx := by
  unfold execRecoverTimeout
  try dsimp only
  repeat' first
    | with_reducible assumption
    | with_reducible refine ⟨_, rfl, ?_⟩
    | with_reducible first | apply kept_at | apply kept_releaseDomains | apply kept_poisonRuns | apply kept_rescueBoth | apply kept_removeModule
    | with_reducible refine kept_ite ?_ ?_
    | split

theorem kept_execSidebandTimeout {s : State} (hk : Kept from0 s) (m : Fin 26) (lost : List (BitVec 8 × BitVec 12)) (t : Nat) :
    ∃ sx, execSidebandTimeout m lost t s = .next sx ∧ Kept from0 sx := by
  unfold execSidebandTimeout
  try dsimp only
  repeat' first
    | with_reducible assumption
    | with_reducible refine ⟨_, rfl, ?_⟩
    | with_reducible first | apply kept_at | apply kept_removeModule | apply kept_poisonRuns | apply kept_failPackets
    | with_reducible refine kept_fst (by assumption) ?_
    | with_reducible refine kept_ite ?_ ?_
    | split

theorem kept_execVportRecoverDone {s : State} (hk : Kept from0 s) (core : Fin 96) (res : VportRes) (spup : BitVec 6) (spdn : BitVec 6) (badgrp : BitVec 5) :
    ∃ sx, execVportRecoverDone core res spup spdn badgrp s = .next sx ∧ Kept from0 sx := by
  unfold execVportRecoverDone
  try dsimp only
  repeat' first
    | with_reducible assumption
    | with_reducible refine ⟨_, rfl, ?_⟩
    | with_reducible first | apply kept_setRegFld | apply kept_logCruc | apply kept_setRegBit | apply kept_clearLink | apply kept_fenceTarget
    | with_reducible first | apply kept_fenceEntries | apply kept_quarantineCore | apply kept_setCore
    | with_reducible refine kept_ite ?_ ?_
    | split
    | with_reducible refine kept_mk ?_ rfl rfl rfl rfl rfl rfl rfl rfl rfl rfl rfl rfl rfl rfl rfl rfl rfl

theorem kept_execFenceTarget {s : State} (hk : Kept from0 s) (g : Target) :
    ∃ sx, execFenceTarget g s = .next sx ∧ Kept from0 sx := by
  unfold execFenceTarget
  try dsimp only
  repeat' first
    | with_reducible assumption
    | with_reducible refine ⟨_, rfl, ?_⟩
    | with_reducible first | apply kept_poisonRuns | apply kept_fenceTarget

theorem kept_execTargetRelease {s : State} (hk : Kept from0 s) (g : Target) :
    ∃ sx, execTargetRelease g s = .next sx ∧ Kept from0 sx := by
  unfold execTargetRelease
  try dsimp only
  repeat' first
    | with_reducible assumption
    | with_reducible refine ⟨_, rfl, ?_⟩
    | with_reducible first | apply kept_releaseTarget

theorem kept_startMaint {s : State} (hk : Kept from0 s) (who : Ident) (k : Nat) (inv : Bool) :
    Kept from0 (startMaint s who k inv) := by
  unfold startMaint
  try dsimp only
  repeat' first
    | with_reducible assumption
    | with_reducible first | apply kept_setRegBit | apply kept_dropCached
    | with_reducible refine kept_ite ?_ ?_
    | split

theorem kept_execClean {s : State} (hk : Kept from0 s) (who : Ident) (k : Fin 4) :
    ∃ sx, execClean who k s = .next sx ∧ Kept from0 sx := by
  unfold execClean
  try dsimp only
  repeat' first
    | with_reducible assumption
    | with_reducible refine ⟨_, rfl, ?_⟩
    | with_reducible first | apply kept_startMaint

theorem kept_execCleanInv {s : State} (hk : Kept from0 s) (who : Ident) (k : Fin 4) :
    ∃ sx, execCleanInv who k s = .next sx ∧ Kept from0 sx := by
  unfold execCleanInv
  try dsimp only
  repeat' first
    | with_reducible assumption
    | with_reducible refine ⟨_, rfl, ?_⟩
    | with_reducible first | apply kept_startMaint

theorem kept_execCacheMaintDone {s : State} (hk : Kept from0 s) (k : Fin 4) :
    ∃ sx, execCacheMaintDone k s = .next sx ∧ Kept from0 sx := by
  unfold execCacheMaintDone
  try dsimp only
  repeat' first
    | with_reducible assumption
    | with_reducible refine ⟨_, rfl, ?_⟩
    | with_reducible first | apply kept_setRegBit

theorem kept_execCrucEvlogRead {s : State} (hk : Kept from0 s) (k : Fin 4) :
    ∃ sx, execCrucEvlogRead k s = .next sx ∧ Kept from0 sx := by
  unfold execCrucEvlogRead
  try dsimp only
  repeat' first
    | with_reducible assumption
    | with_reducible refine ⟨_, rfl, ?_⟩
    | with_reducible first | apply kept_setReg
    | with_reducible refine kept_mk ?_ rfl rfl rfl rfl rfl rfl rfl rfl rfl rfl rfl rfl rfl rfl rfl rfl rfl
    | ((with_reducible refine kept_mk_logs ?_ rfl rfl rfl rfl rfl rfl rfl rfl rfl ?_ ?_ ?_ ?_ ?_ ?_ ?_ ?_) <;> try first
        | with_reducible exact id
        | with_reducible exact fun l => EvLog.within_push l _ _ _
        | with_reducible exact fun l => EvLog.within_pop l
        | with_reducible exact fun _ => EvLog.within_empty _
        | with_reducible exact fun l => logs_sput l _ (EvLog.within_push (logs_sget l _) _ _ _)
        | with_reducible exact fun l => logs_sput l _ (EvLog.within_pop (logs_sget l _))
        | with_reducible exact fun l => logs_sput l _ (EvLog.within_empty _)
        | exact fun _ => EvLog.within_empty _
        | exact fun _ => Nat.zero_le _
        | exact fun _ _ h => (List.not_mem_nil h).elim
        | exact fun l => logs_sput l _ (EvLog.within_empty _))

/-! ### Machine/Commit.lean -/

theorem kept_formDelivery {s : State} (hk : Kept from0 s) (owner : Nat) (part : Nat) (cls : Nat) (n : Nat) :
    Kept from0 (formDelivery s owner part cls n) := by
  unfold formDelivery
  try dsimp only
  repeat' first
    | with_reducible assumption
    | with_reducible refine kept_fst (by assumption) ?_
    | with_reducible refine kept_ite ?_ ?_
    | split
    | with_reducible refine kept_mk ?_ rfl rfl rfl rfl rfl rfl rfl rfl rfl rfl rfl rfl rfl rfl rfl rfl rfl

theorem kept_formDeliveries {s : State} (hk : Kept from0 s) (owner : Nat) (part : Nat) (cls : Nat) :
    Kept from0 (formDeliveries s owner part cls) := by
  unfold formDeliveries
  try dsimp only
  repeat' first
    | with_reducible assumption
    | with_reducible first | apply kept_formDelivery
    | with_reducible refine kept_foldl ?_ (fun _ _ _ => ?_)
    | with_reducible refine kept_foldl_pair ?_ (fun _ _ _ => ?_)

theorem kept_finishCmd {s : State} (hk : Kept from0 s) (c : Cmd) (status : Nat) (result : Nat) :
    Kept from0 (finishCmd s c status result) := by
  unfold finishCmd
  try dsimp only
  repeat' first
    | with_reducible assumption
    | with_reducible first | apply kept_writeRecord | apply kept_settleFunction | apply kept_ringSettle | apply kept_syncLive
    | with_reducible refine kept_ite ?_ ?_
    | split
    | with_reducible refine kept_mk ?_ rfl rfl rfl rfl rfl rfl rfl rfl rfl rfl rfl rfl rfl rfl rfl rfl rfl

theorem kept_freeDependants {s : State} (hk : Kept from0 s) (c : Cmd) :
    Kept from0 (freeDependants s c) := by
  unfold freeDependants
  try dsimp only
  repeat' first
    | with_reducible assumption
    | with_reducible first | apply kept_syncSpec
    | with_reducible refine kept_foldl ?_ (fun _ _ _ => ?_)
    | with_reducible refine kept_foldl_pair ?_ (fun _ _ _ => ?_)
    | with_reducible refine kept_ite ?_ ?_
    | split
    | with_reducible refine kept_mk ?_ rfl rfl rfl rfl rfl rfl rfl rfl rfl rfl rfl rfl rfl rfl rfl rfl rfl

theorem kept_armTriggers {s : State} (hk : Kept from0 s) (c : Cmd) :
    Kept from0 (armTriggers s c) := by
  unfold armTriggers
  try dsimp only
  repeat' first
    | with_reducible assumption
    | with_reducible refine kept_fst (by assumption) ?_
    | with_reducible refine kept_ite ?_ ?_
    | split
    | with_reducible refine kept_mk ?_ rfl rfl rfl rfl rfl rfl rfl rfl rfl rfl rfl rfl rfl rfl rfl rfl rfl

theorem kept_kickCommit {s : State} (hk : Kept from0 s) (c : Cmd) :
    Kept from0 (kickCommit s c) := by
  unfold kickCommit
  try dsimp only
  repeat' first
    | with_reducible assumption
    | with_reducible first | apply kept_evalFrame | apply kept_kickFor
    | with_reducible refine kept_ite ?_ ?_
    | split

theorem kept_commitRecordOf {s : State} (hk : Kept from0 s) (c : Cmd) :
    Kept from0 (commitRecordOf s c) := by
  unfold commitRecordOf
  try dsimp only
  repeat' first
    | with_reducible assumption
    | with_reducible first | apply kept_noteMet | apply kept_finishCmd

theorem kept_commitSteps {s : State} (hk : Kept from0 s) (ecc : MemEcc) (c : Cmd) :
    Kept from0 (commitSteps s ecc c) := by
  unfold commitSteps
  try dsimp only
  repeat' first
    | with_reducible assumption
    | with_reducible first | apply kept_bump | apply kept_flipStaged | apply kept_formDeliveries | apply kept_commitRecords
    | with_reducible first | apply kept_retrySignals | apply kept_commitRecord | apply kept_kickCommit | apply kept_armTriggers
    | with_reducible first | apply kept_freeDependants | apply kept_memberCommitted | apply kept_noteMet | apply kept_mapCmd
    | with_reducible first | apply kept_commitRecordOf
    | with_reducible refine kept_foldl ?_ (fun _ _ _ => ?_)
    | with_reducible refine kept_foldl_pair ?_ (fun _ _ _ => ?_)
    | with_reducible refine kept_ite ?_ ?_
    | split
    | with_reducible refine kept_mk ?_ rfl rfl rfl rfl rfl rfl rfl rfl rfl rfl rfl rfl rfl rfl rfl rfl rfl

theorem kept_execCommitCommand {s : State} (hk : Kept from0 s) (part : Fin 16) (seq : BitVec 32) (flip : FlipAt) :
    ∃ sx, execCommitCommand part seq flip s = .next sx ∧ Kept from0 sx := by
  unfold execCommitCommand
  try dsimp only
  repeat' first
    | with_reducible assumption
    | with_reducible refine ⟨_, rfl, ?_⟩
    | with_reducible first | apply kept_at | apply kept_poisonRuns | apply kept_commitSteps
    | with_reducible refine kept_ite ?_ ?_
    | split
    | with_reducible refine kept_mk ?_ rfl rfl rfl rfl rfl rfl rfl rfl rfl rfl rfl rfl rfl rfl rfl rfl rfl

theorem kept_spillCopied {s : State} (hk : Kept from0 s) (p : Nat × Nat) :
    Kept from0 (spillCopied s p) := by
  unfold spillCopied
  try dsimp only
  repeat' first
    | with_reducible assumption
    | with_reducible first | apply kept_syncStage
    | with_reducible refine kept_mk ?_ rfl rfl rfl rfl rfl rfl rfl rfl rfl rfl rfl rfl rfl rfl rfl rfl rfl

theorem kept_execSpillCopyDone {s : State} (hk : Kept from0 s) (cruc : Fin 4) :
    ∃ sx, execSpillCopyDone cruc s = .next sx ∧ Kept from0 sx := by
  unfold execSpillCopyDone
  try dsimp only
  repeat' first
    | with_reducible assumption
    | with_reducible refine ⟨_, rfl, ?_⟩
    | with_reducible first | apply kept_admitRequest | apply kept_spillCopied
    | split
    | with_reducible refine kept_mk ?_ rfl rfl rfl rfl rfl rfl rfl rfl rfl rfl rfl rfl rfl rfl rfl rfl rfl

theorem kept_settleEnded {s : State} (hk : Kept from0 s) (c : Cmd) :
    Kept from0 (settleEnded s c) := by
  unfold settleEnded
  try dsimp only
  repeat' first
    | with_reducible assumption
    | with_reducible first | apply kept_settleTime
    | with_reducible refine kept_foldl ?_ (fun _ _ _ => ?_)
    | with_reducible refine kept_foldl_pair ?_ (fun _ _ _ => ?_)
    | with_reducible refine kept_ite ?_ ?_
    | split
    | with_reducible refine kept_mk ?_ rfl rfl rfl rfl rfl rfl rfl rfl rfl rfl rfl rfl rfl rfl rfl rfl rfl

theorem kept_cancelMember {s : State} (hk : Kept from0 s) (key : Nat) :
    Kept from0 (cancelMember s key) := by
  unfold cancelMember
  try dsimp only
  repeat' first
    | with_reducible assumption
    | with_reducible first | apply kept_killRuns | apply kept_settleEnded | apply kept_mapCmd | apply kept_retrySignals
    | with_reducible first | apply kept_discardRecord | apply kept_dropStaged | apply kept_dropSigs | apply kept_rollbackNow
    | with_reducible refine kept_foldl ?_ (fun _ _ _ => ?_)
    | with_reducible refine kept_foldl_pair ?_ (fun _ _ _ => ?_)
    | with_reducible refine kept_ite ?_ ?_
    | split
    | with_reducible refine kept_mk ?_ rfl rfl rfl rfl rfl rfl rfl rfl rfl rfl rfl rfl rfl rfl rfl rfl rfl

theorem kept_execCancellationClosure {s : State} (hk : Kept from0 s) (part : Fin 16) (seq : BitVec 32) (t : Nat) :
    ∃ sx, execCancellationClosure part seq t s = .next sx ∧ Kept from0 sx := by
  unfold execCancellationClosure
  try dsimp only
  repeat' first
    | with_reducible assumption
    | with_reducible refine ⟨_, rfl, ?_⟩
    | with_reducible first | apply kept_at | apply kept_markCancel | apply kept_mapCmd | apply kept_cancelMember
    | with_reducible refine kept_foldl ?_ (fun _ _ _ => ?_)
    | with_reducible refine kept_foldl_pair ?_ (fun _ _ _ => ?_)
    | with_reducible refine kept_ite ?_ ?_
    | split
    | with_reducible refine kept_mk ?_ rfl rfl rfl rfl rfl rfl rfl rfl rfl rfl rfl rfl rfl rfl rfl rfl rfl

theorem kept_finishMember {s : State} (hk : Kept from0 s) (c : Cmd) :
    Kept from0 (finishMember s c) := by
  unfold finishMember
  try dsimp only
  repeat' first
    | with_reducible assumption
    | with_reducible first | apply kept_finishCmd | apply kept_memberFailed
    | with_reducible refine kept_ite ?_ ?_
    | split

theorem kept_execClosureDone {s : State} (hk : Kept from0 s) (part : Fin 16) (t : Nat) :
    ∃ sx, execClosureDone part t s = .next sx ∧ Kept from0 sx := by
  unfold execClosureDone
  try dsimp only
  repeat' first
    | with_reducible assumption
    | with_reducible refine ⟨_, rfl, ?_⟩
    | with_reducible first | apply kept_at | apply kept_noteMet | apply kept_finishMember
    | with_reducible refine kept_foldl ?_ (fun _ _ _ => ?_)
    | with_reducible refine kept_foldl_pair ?_ (fun _ _ _ => ?_)
    | with_reducible refine kept_ite ?_ ?_
    | split

/-! ### Machine/Commands.lean -/

theorem kept_endOp {s : State} (hk : Kept from0 s) (c : Cmd) (status : Nat) (result : Nat) :
    Kept from0 (endOp s c status result) := by
  unfold endOp
  try dsimp only
  repeat' first
    | with_reducible assumption
    | with_reducible first | apply kept_noteMet | apply kept_mapCmd | apply kept_markCancel
    | with_reducible refine kept_ite ?_ ?_
    | split
    | with_reducible refine kept_mk ?_ rfl rfl rfl rfl rfl rfl rfl rfl rfl rfl rfl rfl rfl rfl rfl rfl rfl

theorem kept_execNopCommand {s : State} (hk : Kept from0 s) (part : Fin 16) (seq : BitVec 32) (t : Nat) :
    ∃ sx, execNopCommand part seq t s = .next sx ∧ Kept from0 sx := by
  unfold execNopCommand
  try dsimp only
  repeat' first
    | with_reducible assumption
    | with_reducible refine ⟨_, rfl, ?_⟩
    | with_reducible first | apply kept_at | apply kept_endOp | apply kept_commitSteps
    | with_reducible refine kept_ite ?_ ?_
    | split
    | with_reducible refine kept_mk ?_ rfl rfl rfl rfl rfl rfl rfl rfl rfl rfl rfl rfl rfl rfl rfl rfl rfl

theorem kept_execAbort {s : State} (hk : Kept from0 s) (part : Fin 16) (seq : BitVec 32) (t : Nat) :
    ∃ sx, execAbort part seq t s = .next sx ∧ Kept from0 sx := by
  unfold execAbort
  try dsimp only
  repeat' first
    | with_reducible assumption
    | with_reducible refine ⟨_, rfl, ?_⟩
    | with_reducible first | apply kept_at | apply kept_markCancel | apply kept_endOp
    | split
    | with_reducible refine kept_mk ?_ rfl rfl rfl rfl rfl rfl rfl rfl rfl rfl rfl rfl rfl rfl rfl rfl rfl

theorem kept_execRegisterLayer {s : State} (hk : Kept from0 s) (part : Fin 16) (seq : BitVec 32) (ecc : MemEcc) (t : Nat) :
    ∃ sx, execRegisterLayer part seq ecc t s = .next sx ∧ Kept from0 sx := by
  unfold execRegisterLayer
  try dsimp only
  repeat' first
    | with_reducible assumption
    | with_reducible refine ⟨_, rfl, ?_⟩
    | with_reducible first | apply kept_at | apply kept_endOp | apply kept_readDesc
    | with_reducible refine kept_fst (by assumption) ?_
    | with_reducible refine kept_ite ?_ ?_
    | split
    | with_reducible refine kept_mk ?_ rfl rfl rfl rfl rfl rfl rfl rfl rfl rfl rfl rfl rfl rfl rfl rfl rfl

theorem kept_execUnregisterLayer {s : State} (hk : Kept from0 s) (part : Fin 16) (seq : BitVec 32) (t : Nat) :
    ∃ sx, execUnregisterLayer part seq t s = .next sx ∧ Kept from0 sx := by
  unfold execUnregisterLayer
  try dsimp only
  repeat' first
    | with_reducible assumption
    | with_reducible refine ⟨_, rfl, ?_⟩
    | with_reducible first | apply kept_at | apply kept_endOp
    | with_reducible refine kept_ite ?_ ?_
    | split
    | with_reducible refine kept_mk ?_ rfl rfl rfl rfl rfl rfl rfl rfl rfl rfl rfl rfl rfl rfl rfl rfl rfl

theorem kept_copyWindowRead {a1 : State} (hk : Kept from0 a1) (a0 : Nat) (a2 : Nat) :
    Kept from0 (copyWindowRead a0 a1 a2).1 := by
  induction a0 generalizing a1 a2 with
  | zero =>
    unfold copyWindowRead
    try dsimp only
    repeat' first
      | with_reducible assumption
      | with_reducible first | apply kept_unmappedFromHost | apply kept_windowAccess
      | with_reducible refine kept_fst (by assumption) ?_
      | with_reducible refine kept_ite ?_ ?_
      | split
      | with_reducible refine kept_mk ?_ rfl rfl rfl rfl rfl rfl rfl rfl rfl rfl rfl rfl rfl rfl rfl rfl rfl
  | succ n ih =>
    unfold copyWindowRead
    try dsimp only
    repeat' first
      | with_reducible assumption
      | with_reducible apply ih
      | with_reducible first | apply kept_unmappedFromHost | apply kept_windowAccess
      | with_reducible refine kept_fst (by assumption) ?_
      | with_reducible refine kept_ite ?_ ?_
      | split
      | with_reducible refine kept_mk ?_ rfl rfl rfl rfl rfl rfl rfl rfl rfl rfl rfl rfl rfl rfl rfl rfl rfl

theorem kept_copyWindowWrite {a1 : State} (hk : Kept from0 a1) (a0 : Nat) (a2 : Nat) (a3 : List Byte) :
    Kept from0 (copyWindowWrite a0 a1 a2 a3).1 := by
  induction a0 generalizing a1 a2 a3 with
  | zero =>
    unfold copyWindowWrite
    try dsimp only
    repeat' first
      | with_reducible assumption
      | with_reducible first | apply kept_unmappedFromHost | apply kept_windowAccess
      | with_reducible refine kept_fst (by assumption) ?_
      | split
      | with_reducible refine kept_mk ?_ rfl rfl rfl rfl rfl rfl rfl rfl rfl rfl rfl rfl rfl rfl rfl rfl rfl
  | succ n ih =>
    unfold copyWindowWrite
    try dsimp only
    repeat' first
      | with_reducible assumption
      | with_reducible apply ih
      | with_reducible first | apply kept_unmappedFromHost | apply kept_windowAccess
      | with_reducible refine kept_fst (by assumption) ?_
      | split
      | with_reducible refine kept_mk ?_ rfl rfl rfl rfl rfl rfl rfl rfl rfl rfl rfl rfl rfl rfl rfl rfl rfl

theorem kept_copyMeets {s : State} (hk : Kept from0 s) (a : Nat) (sp : SpEcc) :
    Kept from0 (copyMeets s a sp) := by
  unfold copyMeets
  try dsimp only
  repeat' first
    | with_reducible assumption
    | with_reducible first | apply kept_windowMeets
    | split
    | with_reducible refine kept_mk ?_ rfl rfl rfl rfl rfl rfl rfl rfl rfl rfl rfl rfl rfl rfl rfl rfl rfl

theorem kept_copyRead {s : State} (hk : Kept from0 s) (c : Cmd) (ecc : MemEcc) (sp : SpEcc) (a : Nat) (n : Nat) :
    Kept from0 (copyRead s c ecc sp a n).1 := by
  unfold copyRead
  try dsimp only
  repeat' first
    | with_reducible assumption
    | with_reducible first | apply kept_devRead | apply kept_copyWindowRead | apply kept_copyMeets
    | with_reducible refine kept_fst (by assumption) ?_
    | with_reducible refine kept_ite ?_ ?_
    | split
    | with_reducible refine kept_mk ?_ rfl rfl rfl rfl rfl rfl rfl rfl rfl rfl rfl rfl rfl rfl rfl rfl rfl

theorem kept_copyWrite {s : State} (hk : Kept from0 s) (c : Cmd) (a : Nat) (bs : List Byte) :
    Kept from0 (copyWrite s c a bs).1 := by
  unfold copyWrite
  try dsimp only
  repeat' first
    | with_reducible assumption
    | with_reducible first | apply kept_devWrite | apply kept_copyWindowWrite
    | with_reducible refine kept_fst (by assumption) ?_
    | with_reducible refine kept_ite ?_ ?_
    | split

theorem kept_copyOut {s : State} (hk : Kept from0 s) (c : Cmd) (bs : List Byte) :
    Kept from0 (copyOut s c bs) := by
  unfold copyOut
  try dsimp only
  repeat' first
    | with_reducible assumption
    | with_reducible first | apply kept_endOp | apply kept_toHost | apply kept_copyWrite
    | with_reducible refine kept_fst (by assumption) ?_
    | with_reducible refine kept_ite ?_ ?_
    | split

theorem kept_execCopyBlock {s : State} (hk : Kept from0 s) (part : Fin 16) (seq : BitVec 32) (hostData : List (BitVec 8)) (hostOk : Bool) (ecc : CopyEcc) (t : Nat) :
    ∃ sx, execCopyBlock part seq hostData hostOk ecc t s = .next sx ∧ Kept from0 sx := by
  unfold execCopyBlock
  try dsimp only
  repeat' first
    | with_reducible assumption
    | with_reducible refine ⟨_, rfl, ?_⟩
    | with_reducible first | apply kept_at | apply kept_toHost | apply kept_endOp | apply kept_orWait | apply kept_copyOut | apply kept_copyRead
    | with_reducible refine kept_fst (by assumption) ?_
    | with_reducible refine kept_ite ?_ ?_
    | split
    | with_reducible refine kept_mk ?_ rfl rfl rfl rfl rfl rfl rfl rfl rfl rfl rfl rfl rfl rfl rfl rfl rfl

theorem kept_execFillBlock {s : State} (hk : Kept from0 s) (part : Fin 16) (seq : BitVec 32) (t : Nat) :
    ∃ sx, execFillBlock part seq t s = .next sx ∧ Kept from0 sx := by
  unfold execFillBlock
  try dsimp only
  repeat' first
    | with_reducible assumption
    | with_reducible refine ⟨_, rfl, ?_⟩
    | with_reducible first | apply kept_at | apply kept_copyWrite | apply kept_orWait | apply kept_endOp
    | with_reducible refine kept_fst (by assumption) ?_
    | split
    | with_reducible refine kept_mk ?_ rfl rfl rfl rfl rfl rfl rfl rfl rfl rfl rfl rfl rfl rfl rfl rfl rfl

theorem kept_seqOperation {s : State} (hk : Kept from0 s) (c : Cmd) (ecc : MemEcc) :
    Kept from0 (seqOperation s c ecc).1 := by
  unfold seqOperation
  try dsimp only
  repeat' first
    | with_reducible assumption
    | with_reducible first | apply kept_setReg | apply kept_opCreate | apply kept_opFree | apply kept_opTruncate | apply kept_opSetseg
    | with_reducible first | apply kept_opLoadbias
    | with_reducible refine kept_fst (by assumption) ?_
    | with_reducible refine kept_ite ?_ ?_
    | split
    | with_reducible refine kept_mk ?_ rfl rfl rfl rfl rfl rfl rfl rfl rfl rfl rfl rfl rfl rfl rfl rfl rfl

theorem kept_execSeqOp {s : State} (hk : Kept from0 s) (part : Fin 16) (seq : BitVec 32) (ecc : MemEcc) (t : Nat) :
    ∃ sx, execSeqOp part seq ecc t s = .next sx ∧ Kept from0 sx := by
  unfold execSeqOp
  try dsimp only
  repeat' first
    | with_reducible assumption
    | with_reducible refine ⟨_, rfl, ?_⟩
    | with_reducible first | apply kept_at | apply kept_seqOperation | apply kept_endOp | apply kept_opDone
    | with_reducible refine kept_fst (by assumption) ?_
    | split
    | with_reducible refine kept_mk ?_ rfl rfl rfl rfl rfl rfl rfl rfl rfl rfl rfl rfl rfl rfl rfl rfl rfl

theorem kept_resultOf {s : State} (hk : Kept from0 s) (c : Cmd) (x : Selection) :
    Kept from0 (resultOf s c x) := by
  unfold resultOf
  try dsimp only
  repeat' first
    | with_reducible assumption
    | with_reducible first | apply kept_mapCmd | apply kept_endOp
    | with_reducible refine kept_ite ?_ ?_
    | split
    | with_reducible refine kept_mk ?_ rfl rfl rfl rfl rfl rfl rfl rfl rfl rfl rfl rfl rfl rfl rfl rfl rfl

theorem kept_execFrameResult {s : State} (hk : Kept from0 s) (part : Fin 16) (seq : BitVec 32) (t : Nat) :
    ∃ sx, execFrameResult part seq t s = .next sx ∧ Kept from0 sx := by
  unfold execFrameResult
  try dsimp only
  repeat' first
    | with_reducible assumption
    | with_reducible refine ⟨_, rfl, ?_⟩
    | with_reducible first | apply kept_at | apply kept_resultOf
    | with_reducible refine kept_ite ?_ ?_
    | split
    | with_reducible refine kept_mk ?_ rfl rfl rfl rfl rfl rfl rfl rfl rfl rfl rfl rfl rfl rfl rfl rfl rfl

theorem kept_execSensorMgmt {s : State} (hk : Kept from0 s) (part : Fin 16) (seq : BitVec 32) (ack : Bool) (data : List (BitVec 8)) (ecc : MemEcc) (t : Nat) :
    ∃ sx, execSensorMgmt part seq ack data ecc t s = .next sx ∧ Kept from0 sx := by
  unfold execSensorMgmt
  try dsimp only
  repeat' first
    | with_reducible assumption
    | with_reducible refine ⟨_, rfl, ?_⟩
    | with_reducible first | apply kept_at | apply kept_endOp | apply kept_devWrite | apply kept_toHost | apply kept_orWait | apply kept_devRead
    | with_reducible refine kept_fst (by assumption) ?_
    | with_reducible refine kept_ite ?_ ?_
    | split
    | with_reducible refine kept_mk ?_ rfl rfl rfl rfl rfl rfl rfl rfl rfl rfl rfl rfl rfl rfl rfl rfl rfl

/-! ### Machine/Blowpipe.lean -/

theorem kept_logBp {s : State} (hk : Kept from0 s) (code : Nat) :
    Kept from0 (State.logBp s code) := by
  unfold State.logBp
  try dsimp only
  repeat' first
    | with_reducible assumption
    | with_reducible first | apply kept_setRegBit | apply kept_raise
    | with_reducible refine kept_ite ?_ ?_
    | split
    | with_reducible refine kept_mk ?_ rfl rfl rfl rfl rfl rfl rfl rfl rfl rfl rfl rfl rfl rfl rfl rfl rfl
    | ((with_reducible refine kept_mk_logs ?_ rfl rfl rfl rfl rfl rfl rfl rfl rfl ?_ ?_ ?_ ?_ ?_ ?_ ?_ ?_) <;> try first
        | with_reducible exact id
        | with_reducible exact fun l => EvLog.within_push l _ _ _
        | with_reducible exact fun l => EvLog.within_pop l
        | with_reducible exact fun _ => EvLog.within_empty _
        | with_reducible exact fun l => logs_sput l _ (EvLog.within_push (logs_sget l _) _ _ _)
        | with_reducible exact fun l => logs_sput l _ (EvLog.within_pop (logs_sget l _))
        | with_reducible exact fun l => logs_sput l _ (EvLog.within_empty _)
        | exact fun _ => EvLog.within_empty _
        | exact fun _ => Nat.zero_le _
        | exact fun _ _ h => (List.not_mem_nil h).elim
        | exact fun l => logs_sput l _ (EvLog.within_empty _))

theorem kept_syncRoutes {s : State} (hk : Kept from0 s) :
    Kept from0 (syncRoutes s) := by
  unfold syncRoutes
  try dsimp only
  repeat' first
    | with_reducible assumption
    | with_reducible first | apply kept_setRegFld
    | with_reducible refine kept_ite ?_ ?_
    | split

theorem kept_setBpPort {s : State} (hk : Kept from0 s) (b : Nat) (x : BpPort) :
    Kept from0 (State.setBpPort s b x) := by
  unfold State.setBpPort
  try dsimp only
  repeat' first
    | with_reducible assumption
    | with_reducible refine kept_mk ?_ rfl rfl rfl rfl rfl rfl rfl rfl rfl rfl rfl rfl rfl rfl rfl rfl rfl

theorem kept_sentMore {s : State} (hk : Kept from0 s) (l : List BpMsg) :
    Kept from0 { s with blow := { s.blow with sent := s.blow.sent ++ l } } :=
  ⟨hk.pending, hk.fresh, hk.regs, hk.dram, hk.logs, hk.can, hk.host, prefix_append hk.sent _, hk.arb, hk.dbg⟩

theorem kept_portSend {s : State} (hk : Kept from0 s) (m : BpMsg) : Kept from0 (portSend s m) := by
  unfold portSend
  exact kept_sentMore (kept_setBpPort hk _ _) _

theorem kept_bpSend {s : State} (hk : Kept from0 s) (m : BpMsg) : Kept from0 (bpSend s m) := by
  unfold bpSend
  split
  · exact kept_sentMore hk _
  · split
    · exact kept_logBp hk _
    · exact kept_portSend hk _

theorem kept_setPort {s : State} (hk : Kept from0 s) (b : Nat) (st : Nat) :
    Kept from0 (setPort s b st) := by
  unfold setPort
  try dsimp only
  repeat' first
    | with_reducible assumption
    | with_reducible first | apply kept_syncRoutes | apply kept_setReg

theorem kept_trainPort {s : State} (hk : Kept from0 s) (b : Nat) :
    Kept from0 (trainPort s b) := by
  unfold trainPort
  try dsimp only
  repeat' first
    | with_reducible assumption
    | with_reducible first | apply kept_setPort
    | with_reducible refine kept_mk ?_ rfl rfl rfl rfl rfl rfl rfl rfl rfl rfl rfl rfl rfl rfl rfl rfl rfl

theorem kept_writeTopo {s : State} (hk : Kept from0 s) (v : Nat) :
    Kept from0 (writeTopo s v) := by
  unfold writeTopo
  try dsimp only
  repeat' first
    | with_reducible assumption
    | with_reducible first | apply kept_setRegBit | apply kept_syncRoutes | apply kept_setPort | apply kept_setReg | apply kept_trainPort
    | with_reducible refine kept_foldl ?_ (fun _ _ _ => ?_)
    | with_reducible refine kept_foldl_pair ?_ (fun _ _ _ => ?_)
    | with_reducible refine kept_ite ?_ ?_
    | split
    | with_reducible refine kept_mk ?_ rfl rfl rfl rfl rfl rfl rfl rfl rfl rfl rfl rfl rfl rfl rfl rfl rfl

theorem kept_execBlowpipeTopoWrite {s : State} (hk : Kept from0 s) (who : Ident) (v : BitVec 32) (t : Nat) :
    ∃ sx, execBlowpipeTopoWrite who v t s = .next sx ∧ Kept from0 sx := by
  unfold execBlowpipeTopoWrite
  try dsimp only
  repeat' first
    | with_reducible assumption
    | with_reducible refine ⟨_, rfl, ?_⟩
    | with_reducible first | apply kept_at | apply kept_writeTopo
    | with_reducible refine kept_ite ?_ ?_
    | split

theorem kept_execBpPortTrainingDone {s : State} (hk : Kept from0 s) (port : Fin 6) (lanes : BpLanes) (nbr : BitVec 6) :
    ∃ sx, execBpPortTrainingDone port lanes nbr s = .next sx ∧ Kept from0 sx := by
  unfold execBpPortTrainingDone
  try dsimp only
  repeat' first
    | with_reducible assumption
    | with_reducible refine ⟨_, rfl, ?_⟩
    | with_reducible first | apply kept_logBp | apply kept_setPort | apply kept_syncRoutes | apply kept_setReg
    | with_reducible refine kept_ite ?_ ?_
    | split
    | with_reducible refine kept_mk ?_ rfl rfl rfl rfl rfl rfl rfl rfl rfl rfl rfl rfl rfl rfl rfl rfl rfl

theorem kept_execBpTrainingTimeout {s : State} (hk : Kept from0 s) (port : Fin 6) (t : Nat) :
    ∃ sx, execBpTrainingTimeout port t s = .next sx ∧ Kept from0 sx := by
  unfold execBpTrainingTimeout
  try dsimp only
  repeat' first
    | with_reducible assumption
    | with_reducible refine ⟨_, rfl, ?_⟩
    | with_reducible first | apply kept_at | apply kept_logBp | apply kept_setPort
    | with_reducible refine kept_ite ?_ ?_
    | split

theorem kept_retrainPort {s : State} (hk : Kept from0 s) (b : Nat) :
    Kept from0 (retrainPort s b) := by
  unfold retrainPort
  try dsimp only
  repeat' first
    | with_reducible assumption
    | with_reducible first | apply kept_setBpPort | apply kept_trainPort | apply kept_bpSend
    | with_reducible refine kept_foldl ?_ (fun _ _ _ => ?_)
    | with_reducible refine kept_foldl_pair ?_ (fun _ _ _ => ?_)
    | with_reducible refine kept_mk ?_ rfl rfl rfl rfl rfl rfl rfl rfl rfl rfl rfl rfl rfl rfl rfl rfl rfl

theorem kept_execBpReplayLimit {s : State} (hk : Kept from0 s) (port : Fin 6) (lockLost : Bool) (t : Nat) :
    ∃ sx, execBpReplayLimit port lockLost t s = .next sx ∧ Kept from0 sx := by
  unfold execBpReplayLimit
  try dsimp only
  repeat' first
    | with_reducible assumption
    | with_reducible refine ⟨_, rfl, ?_⟩
    | with_reducible first | apply kept_at | apply kept_retrainPort | apply kept_logBp
    | with_reducible refine kept_ite ?_ ?_
    | split

theorem kept_execBpFlitReplayTimeout {s : State} (hk : Kept from0 s) (port : Fin 6) (t : Nat) :
    ∃ sx, execBpFlitReplayTimeout port t s = .next sx ∧ Kept from0 sx := by
  unfold execBpFlitReplayTimeout
  try dsimp only
  repeat' first
    | with_reducible assumption
    | with_reducible refine ⟨_, rfl, ?_⟩
    | with_reducible first | apply kept_at | apply kept_bump | apply kept_setBpPort
    | with_reducible refine kept_ite ?_ ?_
    | split
    | with_reducible refine kept_mk ?_ rfl rfl rfl rfl rfl rfl rfl rfl rfl rfl rfl rfl rfl rfl rfl rfl rfl

theorem kept_mapOut {s : State} (hk : Kept from0 s) (n : Nat) (g : Nat) (f : BpOut → BpOut) :
    Kept from0 (mapOut s n g f) := by
  unfold mapOut
  try dsimp only
  repeat' first
    | with_reducible assumption
    | with_reducible refine kept_ite ?_ ?_
    | split
    | with_reducible refine kept_mk ?_ rfl rfl rfl rfl rfl rfl rfl rfl rfl rfl rfl rfl rfl rfl rfl rfl rfl

theorem kept_sendBegin {s : State} (hk : Kept from0 s) (d : BpOut) :
    Kept from0 (sendBegin s d) := by
  unfold sendBegin
  try dsimp only
  repeat' first
    | with_reducible assumption
    | with_reducible first | apply kept_mapOut | apply kept_bpSend
    | with_reducible refine kept_mk ?_ rfl rfl rfl rfl rfl rfl rfl rfl rfl rfl rfl rfl rfl rfl rfl rfl rfl

theorem kept_sendBody {s : State} (hk : Kept from0 s) (d : BpOut) :
    Kept from0 (sendBody s d) := by
  unfold sendBody
  try dsimp only
  repeat' first
    | with_reducible assumption
    | with_reducible first | apply kept_bpSend | apply kept_setRegFld | apply kept_mapOut
    | with_reducible refine kept_foldl ?_ (fun _ _ _ => ?_)
    | with_reducible refine kept_foldl_pair ?_ (fun _ _ _ => ?_)
    | with_reducible refine kept_mk ?_ rfl rfl rfl rfl rfl rfl rfl rfl rfl rfl rfl rfl rfl rfl rfl rfl rfl

theorem kept_sendDelivery {s : State} (hk : Kept from0 s) (d : BpOut) (waited : Bool) :
    Kept from0 (sendDelivery s d waited) := by
  unfold sendDelivery
  try dsimp only
  repeat' first
    | with_reducible assumption
    | with_reducible first | apply kept_sendBegin | apply kept_mapOut | apply kept_sendBody
    | with_reducible refine kept_ite ?_ ?_
    | split
    | with_reducible refine kept_mk ?_ rfl rfl rfl rfl rfl rfl rfl rfl rfl rfl rfl rfl rfl rfl rfl rfl rfl

theorem kept_execBpDeliveryStart {s : State} (hk : Kept from0 s) (chan : Fin 32) (waited : Bool) (t : Nat) :
    ∃ sx, execBpDeliveryStart chan waited t s = .next sx ∧ Kept from0 sx := by
  unfold execBpDeliveryStart
  try dsimp only
  repeat' first
    | with_reducible assumption
    | with_reducible refine ⟨_, rfl, ?_⟩
    | with_reducible first | apply kept_at | apply kept_sendDelivery
    | split
    | with_reducible refine kept_mk ?_ rfl rfl rfl rfl rfl rfl rfl rfl rfl rfl rfl rfl rfl rfl rfl rfl rfl

theorem kept_execBpBeginRepeat {s : State} (hk : Kept from0 s) (chan : Fin 32) (waited : Bool) (t : Nat) :
    ∃ sx, execBpBeginRepeat chan waited t s = .next sx ∧ Kept from0 sx := by
  unfold execBpBeginRepeat
  try dsimp only
  repeat' first
    | with_reducible assumption
    | with_reducible refine ⟨_, rfl, ?_⟩
    | with_reducible first | apply kept_at | apply kept_sendDelivery
    | split
    | with_reducible refine kept_mk ?_ rfl rfl rfl rfl rfl rfl rfl rfl rfl rfl rfl rfl rfl rfl rfl rfl rfl

theorem kept_dropOut {s : State} (hk : Kept from0 s) (d : BpOut) :
    Kept from0 (dropOut s d) := by
  unfold dropOut
  try dsimp only
  repeat' first
    | with_reducible assumption
    | with_reducible refine kept_mk ?_ rfl rfl rfl rfl rfl rfl rfl rfl rfl rfl rfl rfl rfl rfl rfl rfl rfl

theorem kept_failOut {s : State} (hk : Kept from0 s) (d : BpOut) :
    Kept from0 (failOut s d) := by
  unfold failOut
  try dsimp only
  repeat' first
    | with_reducible assumption
    | with_reducible first | apply kept_logBp | apply kept_bump | apply kept_dropOut

theorem kept_bpTakeAck {s : State} (hk : Kept from0 s) (src : Nat) (chan : Nat) (gen : Nat) :
    Kept from0 (bpTakeAck s src chan gen) := by
  unfold bpTakeAck
  try dsimp only
  repeat' first
    | with_reducible assumption
    | with_reducible first | apply kept_setRegFld | apply kept_dropOut
    | split
    | with_reducible refine kept_mk ?_ rfl rfl rfl rfl rfl rfl rfl rfl rfl rfl rfl rfl rfl rfl rfl rfl rfl

theorem kept_bpTakeNak {s : State} (hk : Kept from0 s) (src : Nat) (chan : Nat) (gen : Nat) (code : Nat) (instat : Nat) :
    Kept from0 (bpTakeNak s src chan gen code instat) := by
  unfold bpTakeNak
  try dsimp only
  repeat' first
    | with_reducible assumption
    | with_reducible first | apply kept_failOut | apply kept_logBp
    | with_reducible refine kept_ite ?_ ?_
    | split
    | with_reducible refine kept_mk ?_ rfl rfl rfl rfl rfl rfl rfl rfl rfl rfl rfl rfl rfl rfl rfl rfl rfl

theorem kept_bpTakeWait {s : State} (hk : Kept from0 s) (src : Nat) (chan : Nat) (gen : Nat) :
    Kept from0 (bpTakeWait s src chan gen) := by
  unfold bpTakeWait
  try dsimp only
  repeat' first
    | with_reducible assumption
    | with_reducible first | apply kept_mapOut
    | split
    | with_reducible refine kept_mk ?_ rfl rfl rfl rfl rfl rfl rfl rfl rfl rfl rfl rfl rfl rfl rfl rfl rfl

theorem kept_execBpAck {s : State} (hk : Kept from0 s) (src : Fin 64) (chan : Fin 32) (gen : BitVec 32) (t : Nat) :
    ∃ sx, execBpAck src chan gen t s = .next sx ∧ Kept from0 sx := by
  unfold execBpAck
  try dsimp only
  repeat' first
    | with_reducible assumption
    | with_reducible refine ⟨_, rfl, ?_⟩
    | with_reducible first | apply kept_bpTakeAck | apply kept_at

theorem kept_execBpNak {s : State} (hk : Kept from0 s) (src : Fin 64) (chan : Fin 32) (gen : BitVec 32) (code : BitVec 16) (instat : BitVec 32) (t : Nat) :
    ∃ sx, execBpNak src chan gen code instat t s = .next sx ∧ Kept from0 sx := by
  unfold execBpNak
  try dsimp only
  repeat' first
    | with_reducible assumption
    | with_reducible refine ⟨_, rfl, ?_⟩
    | with_reducible first | apply kept_bpTakeNak | apply kept_at

theorem kept_execBpWait {s : State} (hk : Kept from0 s) (src : Fin 64) (chan : Fin 32) (gen : BitVec 32) (t : Nat) :
    ∃ sx, execBpWait src chan gen t s = .next sx ∧ Kept from0 sx := by
  unfold execBpWait
  try dsimp only
  repeat' first
    | with_reducible assumption
    | with_reducible refine ⟨_, rfl, ?_⟩
    | with_reducible first | apply kept_bpTakeWait | apply kept_at

theorem kept_execBpFwdTimeout {s : State} (hk : Kept from0 s) (chan : Fin 32) (t : Nat) :
    ∃ sx, execBpFwdTimeout chan t s = .next sx ∧ Kept from0 sx := by
  unfold execBpFwdTimeout
  try dsimp only
  repeat' first
    | with_reducible assumption
    | with_reducible refine ⟨_, rfl, ?_⟩
    | with_reducible first | apply kept_at | apply kept_failOut
    | with_reducible refine kept_fst (by assumption) ?_
    | split
    | with_reducible refine kept_mk ?_ rfl rfl rfl rfl rfl rfl rfl rfl rfl rfl rfl rfl rfl rfl rfl rfl rfl

theorem kept_setInb {s : State} (hk : Kept from0 s) (n : Nat) (l : List BpIn) :
    Kept from0 (setInb s n l) := by
  unfold setInb
  try dsimp only
  repeat' first
    | with_reducible assumption
    | with_reducible first | apply kept_setRegFld
    | with_reducible refine kept_mk ?_ rfl rfl rfl rfl rfl rfl rfl rfl rfl rfl rfl rfl rfl rfl rfl rfl rfl

theorem kept_nakTo {s : State} (hk : Kept from0 s) (n : Nat) (src : Nat) (gen : Nat) (code : Nat) :
    Kept from0 (nakTo s n src gen code) := by
  unfold nakTo
  try dsimp only
  repeat' first
    | with_reducible assumption
    | with_reducible first | apply kept_bpSend

theorem kept_sendNak {s : State} (hk : Kept from0 s) (n : Nat) (src : Nat) (gen : Nat) (code : Nat) :
    Kept from0 (sendNak s n src gen code) := by
  unfold sendNak
  try dsimp only
  repeat' first
    | with_reducible assumption
    | with_reducible first | apply kept_nakTo | apply kept_logBp
    | with_reducible refine kept_ite ?_ ?_
    | split

theorem kept_abandon {s : State} (hk : Kept from0 s) (n : Nat) (g : Nat) :
    Kept from0 (abandon s n g) := by
  unfold abandon
  try dsimp only
  repeat' first
    | with_reducible assumption
    | with_reducible first | apply kept_setInb | apply kept_dropStaged | apply kept_setRegBit | apply kept_setRegFld | apply kept_logBp
    | with_reducible first | apply kept_bump

theorem kept_settleIn {s : State} (hk : Kept from0 s) (n : Nat) (src : Nat) (g : Nat) :
    Kept from0 (settleIn s n src g) := by
  unfold settleIn
  try dsimp only
  repeat' first
    | with_reducible assumption
    | with_reducible first | apply kept_setInb | apply kept_abandon | apply kept_sendNak
    | with_reducible refine kept_ite ?_ ?_
    | split
    | with_reducible refine kept_mk ?_ rfl rfl rfl rfl rfl rfl rfl rfl rfl rfl rfl rfl rfl rfl rfl rfl rfl

theorem kept_bpTakeBegin {s : State} (hk : Kept from0 s) (src : Nat) (n : Nat) (g : Nat) :
    Kept from0 (bpTakeBegin s src n g) := by
  unfold bpTakeBegin
  try dsimp only
  repeat' first
    | with_reducible assumption
    | with_reducible first | apply kept_sendNak | apply kept_setRegBit | apply kept_setRegFld | apply kept_settleIn | apply kept_setInb
    | with_reducible first | apply kept_bpSend
    | with_reducible refine kept_ite ?_ ?_
    | split
    | with_reducible refine kept_mk ?_ rfl rfl rfl rfl rfl rfl rfl rfl rfl rfl rfl rfl rfl rfl rfl rfl rfl

theorem kept_stagePacket {s : State} (hk : Kept from0 s) (n : Nat) (d : BpData) (addr : Nat) :
    Kept from0 (stagePacket s n d addr).1 := by
  unfold stagePacket
  try dsimp only
  repeat' first
    | with_reducible assumption
    | with_reducible first | apply kept_recReq | apply kept_writeReq
    | with_reducible refine kept_fst (by assumption) ?_
    | with_reducible refine kept_foldl ?_ (fun _ _ _ => ?_)
    | with_reducible refine kept_foldl_pair ?_ (fun _ _ _ => ?_)
    | with_reducible refine kept_ite ?_ ?_
    | split
    | with_reducible refine kept_mk ?_ rfl rfl rfl rfl rfl rfl rfl rfl rfl rfl rfl rfl rfl rfl rfl rfl rfl

theorem kept_bpTakeData {s : State} (hk : Kept from0 s) (src : Nat) (n : Nat) (g : Nat) (d : BpData) :
    Kept from0 (bpTakeData s src n g d) := by
  unfold bpTakeData
  try dsimp only
  repeat' first
    | with_reducible assumption
    | with_reducible first | apply kept_sendNak | apply kept_abandon | apply kept_stagePacket | apply kept_settleIn | apply kept_orWait
    | with_reducible first | apply kept_setInb
    | with_reducible refine kept_fst (by assumption) ?_
    | with_reducible refine kept_ite ?_ ?_
    | split
    | with_reducible refine kept_mk ?_ rfl rfl rfl rfl rfl rfl rfl rfl rfl rfl rfl rfl rfl rfl rfl rfl rfl

theorem kept_bpTakeEnd {s : State} (hk : Kept from0 s) (src : Nat) (n : Nat) (g : Nat) (count : Nat) (crc : Nat) :
    Kept from0 (bpTakeEnd s src n g count crc) := by
  unfold bpTakeEnd
  try dsimp only
  repeat' first
    | with_reducible assumption
    | with_reducible first | apply kept_sendNak | apply kept_settleIn | apply kept_setInb
    | with_reducible refine kept_ite ?_ ?_
    | split
    | with_reducible refine kept_mk ?_ rfl rfl rfl rfl rfl rfl rfl rfl rfl rfl rfl rfl rfl rfl rfl rfl rfl

theorem kept_execBpBegin {s : State} (hk : Kept from0 s) (src : Fin 64) (chan : Fin 32) (gen : BitVec 32) (t : Nat) :
    ∃ sx, execBpBegin src chan gen t s = .next sx ∧ Kept from0 sx := by
  unfold execBpBegin
  try dsimp only
  repeat' first
    | with_reducible assumption
    | with_reducible refine ⟨_, rfl, ?_⟩
    | with_reducible first | apply kept_bpTakeBegin | apply kept_at

theorem kept_execBpData {s : State} (hk : Kept from0 s) (src : Fin 64) (chan : Fin 32) (gen : BitVec 32) (packet : BpData) (t : Nat) :
    ∃ sx, execBpData src chan gen packet t s = .next sx ∧ Kept from0 sx := by
  unfold execBpData
  try dsimp only
  repeat' first
    | with_reducible assumption
    | with_reducible refine ⟨_, rfl, ?_⟩
    | with_reducible first | apply kept_bpTakeData | apply kept_at

theorem kept_execBpEnd {s : State} (hk : Kept from0 s) (src : Fin 64) (chan : Fin 32) (gen : BitVec 32) (count : BitVec 32) (crc : BitVec 32) (t : Nat) :
    ∃ sx, execBpEnd src chan gen count crc t s = .next sx ∧ Kept from0 sx := by
  unfold execBpEnd
  try dsimp only
  repeat' first
    | with_reducible assumption
    | with_reducible refine ⟨_, rfl, ?_⟩
    | with_reducible first | apply kept_bpTakeEnd | apply kept_at

theorem kept_execInboundCommit {s : State} (hk : Kept from0 s) (chan : Fin 32) (flip : FlipAt) :
    ∃ sx, execInboundCommit chan flip s = .next sx ∧ Kept from0 sx := by
  unfold execInboundCommit
  try dsimp only
  repeat' first
    | with_reducible assumption
    | with_reducible refine ⟨_, rfl, ?_⟩
    | with_reducible first | apply kept_at | apply kept_setInb | apply kept_poisonRuns | apply kept_flipStaged | apply kept_bump
    | with_reducible first | apply kept_setRegFld | apply kept_toHost | apply kept_bpSend
    | with_reducible refine kept_foldl ?_ (fun _ _ _ => ?_)
    | with_reducible refine kept_foldl_pair ?_ (fun _ _ _ => ?_)
    | with_reducible refine kept_ite ?_ ?_
    | split

theorem kept_execBpGenTimeout {s : State} (hk : Kept from0 s) (chan : Fin 32) (t : Nat) :
    ∃ sx, execBpGenTimeout chan t s = .next sx ∧ Kept from0 sx := by
  unfold execBpGenTimeout
  try dsimp only
  repeat' first
    | with_reducible assumption
    | with_reducible refine ⟨_, rfl, ?_⟩
    | with_reducible first | apply kept_at | apply kept_nakTo | apply kept_abandon
    | with_reducible refine kept_foldl ?_ (fun _ _ _ => ?_)
    | with_reducible refine kept_foldl_pair ?_ (fun _ _ _ => ?_)
    | with_reducible refine kept_ite ?_ ?_
    | split
    | with_reducible refine kept_mk ?_ rfl rfl rfl rfl rfl rfl rfl rfl rfl rfl rfl rfl rfl rfl rfl rfl rfl

theorem kept_enableFwd {s : State} (hk : Kept from0 s) (n : Nat) :
    Kept from0 (enableFwd s n) := by
  unfold enableFwd
  try dsimp only
  repeat' first
    | with_reducible assumption
    | with_reducible first | apply kept_setRegBit
    | with_reducible refine kept_mk ?_ rfl rfl rfl rfl rfl rfl rfl rfl rfl rfl rfl rfl rfl rfl rfl rfl rfl

theorem kept_clearIn {s : State} (hk : Kept from0 s) (n : Nat) :
    Kept from0 (clearIn s n) := by
  unfold clearIn
  try dsimp only
  repeat' first
    | with_reducible assumption
    | with_reducible first | apply kept_setInb | apply kept_dropStaged
    | with_reducible refine kept_mk ?_ rfl rfl rfl rfl rfl rfl rfl rfl rfl rfl rfl rfl rfl rfl rfl rfl rfl

theorem kept_enableIn {s : State} (hk : Kept from0 s) (n : Nat) :
    Kept from0 (enableIn s n) := by
  unfold enableIn
  try dsimp only
  repeat' first
    | with_reducible assumption
    | with_reducible first | apply kept_clearIn | apply kept_setRegBit | apply kept_setRegFld

theorem kept_writeChanA {s : State} (hk : Kept from0 s) (off : Nat) (mask : Nat) (v : Nat) (enable : State → State) (hf : ∀ x, Kept from0 x → Kept from0 (enable x)) :
    Kept from0 (writeChanA s off mask v enable) := by
  unfold writeChanA
  try dsimp only
  repeat' first
    | with_reducible assumption
    | with_reducible apply hf
    | with_reducible first | apply kept_setReg | apply kept_setRegBit
    | with_reducible refine kept_ite ?_ ?_
    | split

theorem kept_writeChanB {s : State} (hk : Kept from0 s) (a : Nat) (off : Nat) (mask : Nat) (v : Nat) :
    Kept from0 (writeChanB s a off mask v) := by
  unfold writeChanB
  try dsimp only
  repeat' first
    | with_reducible assumption
    | with_reducible first | apply kept_setRegBit | apply kept_setReg
    | with_reducible refine kept_ite ?_ ?_
    | split

theorem kept_execFwdChannelEnable {s : State} (hk : Kept from0 s) (who : Ident) (chan : Fin 32) :
    ∃ sx, execFwdChannelEnable who chan s = .next sx ∧ Kept from0 sx := by
  unfold execFwdChannelEnable
  try dsimp only
  repeat' first
    | with_reducible assumption
    | with_reducible refine ⟨_, rfl, ?_⟩
    | with_reducible first | apply kept_writeChanA | apply kept_enableFwd
    | intro _ _ _
    | intro _ _
    | with_reducible refine kept_ite ?_ ?_
    | split

theorem kept_execInChannelEnable {s : State} (hk : Kept from0 s) (who : Ident) (chan : Fin 32) :
    ∃ sx, execInChannelEnable who chan s = .next sx ∧ Kept from0 sx := by
  unfold execInChannelEnable
  try dsimp only
  repeat' first
    | with_reducible assumption
    | with_reducible refine ⟨_, rfl, ?_⟩
    | with_reducible first | apply kept_writeChanA | apply kept_enableIn
    | intro _ _ _
    | intro _ _
    | with_reducible refine kept_ite ?_ ?_
    | split

theorem kept_execBlowpipeEvlogRead {s : State} (hk : Kept from0 s) :
    ∃ sx, execBlowpipeEvlogRead s = .next sx ∧ Kept from0 sx := by
  unfold execBlowpipeEvlogRead
  try dsimp only
  repeat' first
    | with_reducible assumption
    | with_reducible refine ⟨_, rfl, ?_⟩
    | with_reducible refine kept_mk ?_ rfl rfl rfl rfl rfl rfl rfl rfl rfl rfl rfl rfl rfl rfl rfl rfl rfl
    | ((with_reducible refine kept_mk_logs ?_ rfl rfl rfl rfl rfl rfl rfl rfl rfl ?_ ?_ ?_ ?_ ?_ ?_ ?_ ?_) <;> try first
        | with_reducible exact id
        | with_reducible exact fun l => EvLog.within_push l _ _ _
        | with_reducible exact fun l => EvLog.within_pop l
        | with_reducible exact fun _ => EvLog.within_empty _
        | with_reducible exact fun l => logs_sput l _ (EvLog.within_push (logs_sget l _) _ _ _)
        | with_reducible exact fun l => logs_sput l _ (EvLog.within_pop (logs_sget l _))
        | with_reducible exact fun l => logs_sput l _ (EvLog.within_empty _)
        | exact fun _ => EvLog.within_empty _
        | exact fun _ => Nat.zero_le _
        | exact fun _ _ h => (List.not_mem_nil h).elim
        | exact fun l => logs_sput l _ (EvLog.within_empty _))

theorem kept_bpTakePacket {s : State} (hk : Kept from0 s) (p : BpPacket) :
    Kept from0 (bpTakePacket s p) := by
  unfold bpTakePacket
  try dsimp only
  repeat' first
    | with_reducible assumption
    | with_reducible first | apply kept_logBp | apply kept_bump | apply kept_bpSend | apply kept_bpTakeData | apply kept_bpTakeBegin
    | with_reducible first | apply kept_bpTakeEnd | apply kept_bpTakeAck | apply kept_bpTakeNak | apply kept_bpTakeWait
    | with_reducible refine kept_fst (by assumption) ?_
    | with_reducible refine kept_ite ?_ ?_
    | split
    | with_reducible refine kept_mk ?_ rfl rfl rfl rfl rfl rfl rfl rfl rfl rfl rfl rfl rfl rfl rfl rfl rfl

theorem kept_takeFlit {s : State} (hk : Kept from0 s) (b : Nat) (ackseq : Nat) (cls : Nat) (words : Nat) :
    Kept from0 (takeFlit s b ackseq cls words) := by
  unfold takeFlit
  try dsimp only
  repeat' first
    | with_reducible assumption
    | with_reducible first | apply kept_setBpPort
    | with_reducible refine kept_mk ?_ rfl rfl rfl rfl rfl rfl rfl rfl rfl rfl rfl rfl rfl rfl rfl rfl rfl

theorem kept_execBpFlit {s : State} (hk : Kept from0 s) (port : Fin 6) (fseq : BitVec 16) (ackseq : BitVec 16) (cls : BitVec 2) (words : BitVec 14) (crcOk : Bool) (packets : List BpPacket) (t : Nat) :
    ∃ sx, execBpFlit port fseq ackseq cls words crcOk packets t s = .next sx ∧ Kept from0 sx := by
  unfold execBpFlit
  try dsimp only
  repeat' first
    | with_reducible assumption
    | with_reducible refine ⟨_, rfl, ?_⟩
    | with_reducible first | apply kept_at | apply kept_bump | apply kept_bpTakePacket | apply kept_takeFlit
    | with_reducible refine kept_foldl ?_ (fun _ _ _ => ?_)
    | with_reducible refine kept_foldl_pair ?_ (fun _ _ _ => ?_)
    | with_reducible refine kept_ite ?_ ?_
    | split

end Sys2Proof.Machine
end

