-- ==== Sys2Proof/Laws/KeptDevice.lean ====
section
/-! SUPPORT. What the operations keep: configuration, reset and the balls. -/

namespace Sys2Proof.Machine

variable {from0 : State}

/-! ### Machine/ConfigOps.lean -/

theorem kept_readList {s : State} (hk : Kept from0 s) (ecc : MemEcc) (addr : Nat) (magic : Nat) (most : Nat) :
    Kept from0 (readList s ecc addr magic most).1 := by
  unfold readList
  try dsimp only
  repeat' first
    | with_reducible assumption
    | with_reducible first | apply kept_devRead
    | with_reducible refine kept_fst (by assumption) ?_
    | with_reducible refine kept_ite ?_ ?_
    | split
    | with_reducible refine kept_mk ?_ rfl rfl rfl rfl rfl rfl rfl rfl rfl rfl rfl rfl rfl rfl rfl rfl rfl

theorem kept_badLoad {s : State} (hk : Kept from0 s) (code : Nat) :
    Kept from0 (badLoad s code) := by
  unfold badLoad
  try dsimp only
  repeat' first
    | with_reducible assumption
    | with_reducible first | apply kept_logCfg | apply kept_setRegBit

theorem kept_execLoadBatch {s : State} (hk : Kept from0 s) (who : Ident) (ecc : MemEcc) :
    ∃ sx, execLoadBatch who ecc s = .next sx ∧ Kept from0 sx := by
  unfold execLoadBatch
  try dsimp only
  repeat' first
    | with_reducible assumption
    | with_reducible refine ⟨_, rfl, ?_⟩
    | with_reducible first | apply kept_readList | apply kept_badLoad | apply kept_setRegBit
    | with_reducible refine kept_fst (by assumption) ?_
    | with_reducible refine kept_ite ?_ ?_
    | split
    | with_reducible refine kept_mk ?_ rfl rfl rfl rfl rfl rfl rfl rfl rfl rfl rfl rfl rfl rfl rfl rfl rfl

theorem kept_loadFrit {s : State} (hk : Kept from0 s) (w : FritLoad) :
    Kept from0 (loadFrit s w) := by
  unfold loadFrit
  try dsimp only
  repeat' first
    | with_reducible assumption
    | with_reducible first | apply kept_readList | apply kept_badLoad | apply kept_setRegBit
    | with_reducible refine kept_fst (by assumption) ?_
    | split
    | with_reducible refine kept_mk ?_ rfl rfl rfl rfl rfl rfl rfl rfl rfl rfl rfl rfl rfl rfl rfl rfl rfl

theorem kept_execLoadFrit {s : State} (hk : Kept from0 s) (who : Ident) (frit : Fin 16) (ecc : MemEcc) :
    ∃ sx, execLoadFrit who frit ecc s = .next sx ∧ Kept from0 sx := by
  unfold execLoadFrit
  try dsimp only
  repeat' first
    | with_reducible assumption
    | with_reducible refine ⟨_, rfl, ?_⟩
    | with_reducible first | apply kept_loadFrit
    | with_reducible refine kept_fst (by assumption) ?_
    | with_reducible refine kept_ite ?_ ?_
    | split
    | with_reducible refine kept_mk ?_ rfl rfl rfl rfl rfl rfl rfl rfl rfl rfl rfl rfl rfl rfl rfl rfl rfl

theorem kept_execFritSwitchRequest {s : State} (hk : Kept from0 s) (who : Ident) (v : BitVec 32) :
    ∃ sx, execFritSwitchRequest who v s = .next sx ∧ Kept from0 sx := by
  unfold execFritSwitchRequest
  try dsimp only
  repeat' first
    | with_reducible assumption
    | with_reducible refine ⟨_, rfl, ?_⟩
    | with_reducible first | apply kept_setRegBit | apply kept_setReg
    | with_reducible refine kept_ite ?_ ?_
    | split

theorem kept_showChallenge {s : State} (hk : Kept from0 s) (bs : List Byte) :
    Kept from0 (showChallenge s bs) := by
  unfold showChallenge
  try dsimp only
  repeat' first
    | with_reducible assumption
    | with_reducible first | apply kept_setReg
    | with_reducible refine kept_foldl ?_ (fun _ _ _ => ?_)
    | with_reducible refine kept_foldl_pair ?_ (fun _ _ _ => ?_)

theorem kept_execDebugRequest {s : State} (hk : Kept from0 s) (who : Ident) (scope : BitVec 4) (t : Nat) :
    ∃ sx, execDebugRequest who scope t s = .next sx ∧ Kept from0 sx := by
  unfold execDebugRequest
  try dsimp only
  repeat' first
    | with_reducible assumption
    | with_reducible refine ⟨_, rfl, ?_⟩
    | with_reducible first | apply kept_at | apply kept_setRegBit | apply kept_showChallenge | apply kept_nextFresh
    | with_reducible refine kept_fst (by assumption) ?_
    | with_reducible refine kept_ite ?_ ?_
    | split
    | with_reducible refine kept_mk ?_ rfl rfl rfl rfl rfl rfl rfl rfl rfl rfl rfl rfl rfl rfl rfl rfl rfl

theorem kept_execDebugLock {s : State} (hk : Kept from0 s) (who : Ident) :
    ∃ sx, execDebugLock who s = .next sx ∧ Kept from0 sx := by
  unfold execDebugLock
  try dsimp only
  repeat' first
    | with_reducible assumption
    | with_reducible refine ⟨_, rfl, ?_⟩
    | with_reducible first | apply kept_setRegFld
    | with_reducible refine kept_ite ?_ ?_
    | split

theorem kept_execDebugResponse {s : State} (hk : Kept from0 s) (who : Ident) (addr : BitVec 64) (ecc : MemEcc) (t : Nat) :
    ∃ sx, execDebugResponse who addr ecc t s = .next sx ∧ Kept from0 sx := by
  unfold execDebugResponse
  try dsimp only
  repeat' first
    | with_reducible assumption
    | with_reducible refine ⟨_, rfl, ?_⟩
    | with_reducible first | apply kept_at | apply kept_devRead | apply kept_setRegBit | apply kept_raise | apply kept_logCfg
    | with_reducible first | apply kept_setRegFld | apply kept_bumpSat
    | with_reducible refine kept_fst (by assumption) ?_
    | with_reducible refine kept_ite ?_ ?_
    | split
    | with_reducible refine kept_mk ?_ rfl rfl rfl rfl rfl rfl rfl rfl rfl rfl rfl rfl rfl rfl rfl rfl rfl

theorem kept_execCfgEvlogRead {s : State} (hk : Kept from0 s) :
    ∃ sx, execCfgEvlogRead s = .next sx ∧ Kept from0 sx := by
  unfold execCfgEvlogRead
  try dsimp only
  repeat' first
    | with_reducible assumption
    | with_reducible refine ⟨_, rfl, ?_⟩
    | with_reducible refine kept_mk ?_ rfl rfl rfl rfl rfl rfl rfl rfl rfl rfl rfl rfl rfl rfl rfl rfl rfl
    | ((with_reducible refine kept_mk_logs ?_ rfl rfl rfl rfl rfl rfl rfl rfl rfl ?_ ?_ ?_ ?_ ?_ ?_ ?_ ?_) <;> try first
        | with_reducible exact id
        | with_reducible exact fun l => EvLog.within_push l _ _ _
        | with_reducible exact fun l => EvLog.within_pop l
        | with_reducible exact fun _ => EvLog.within_empty _
        | with_reducible exact fun l => logs_sput l _ (EvLog.within_push (logs_sget l _) _ _ _)
        | with_reducible exact fun l => logs_sput l _ (EvLog.within_pop (logs_sget l _))
        | with_reducible exact fun l => logs_sput l _ (EvLog.within_empty _)
        | exact fun _ => EvLog.within_empty _
        | exact fun _ => Nat.zero_le _
        | exact fun _ _ h => (List.not_mem_nil h).elim
        | exact fun l => logs_sput l _ (EvLog.within_empty _))

theorem kept_coldState {s : State} (hk : Kept from0 s) : Kept from0 (coldState s) where
  pending := hk.pending
  fresh := hk.fresh
  regs := rfl
  dram := rfl
  logs := ⟨Nat.zero_le _, Nat.zero_le _, Nat.zero_le _, Nat.zero_le _, Nat.zero_le _, Nat.zero_le _, fun _ h => (List.not_mem_nil h).elim,
    fun _ h => (List.not_mem_nil h).elim⟩
  can := hk.can
  host := hk.host
  sent := hk.sent
  arb := hk.arb
  dbg := hk.dbg

theorem sparseWf_putAll (l m : List (Nat × Word)) (h : sparseWf regReset m = true) :
    sparseWf regReset (l.foldl (fun m p => sput (regReset p.1) m p.1 p.2) m) = true := by
  induction l generalizing m with
  | nil => exact h
  | cons q l ih => exact ih _ (sparseWf_sput q.1 q.2 h)

theorem kept_keepLehr {old : State} {new : State} (hk : Kept from0 old) (hk1 : Kept from0 new) : Kept from0 (keepLehr old new) := by
  obtain ⟨_, _, _, _, ⟨k1, k2, k3, k4, k5, k6, k7, k8⟩, _, _, _, _, _⟩ := hk
  obtain ⟨p1, p2, p3, p4, ⟨m1, m2, m3, m4, m5, m6, m7, m8⟩, q1, q2, q3, q4, q5⟩ := hk1
  exact ⟨p1, p2, sparseWf_putAll _ _ p3, p4, ⟨m1, m2, k3, m4, k5, m6, m7, m8⟩, q1, q2, q3, q4, q5⟩

theorem kept_startCold {s : State} (hk : Kept from0 s) (source : Nat) (requested : Bool) (rails : Bool) :
    Kept from0 (startCold source requested rails s) := by
  unfold startCold
  try dsimp only
  repeat' first
    | with_reducible assumption
    | with_reducible first | apply kept_coldState | apply kept_keepLehr | apply kept_recordCause | apply kept_setReg | apply kept_setRegBit
    | with_reducible refine kept_fst (by assumption) ?_
    | with_reducible refine kept_foldl ?_ (fun _ _ _ => ?_)
    | with_reducible refine kept_foldl_pair ?_ (fun _ _ _ => ?_)
    | with_reducible refine kept_ite ?_ ?_
    | split
    | with_reducible refine kept_mk ?_ rfl rfl rfl rfl rfl rfl rfl rfl rfl rfl rfl rfl rfl rfl rfl rfl rfl

theorem kept_beginRequested {s : State} (hk : Kept from0 s) (kind : Nat) (index : Nat) :
    Kept from0 (beginRequested s kind index) := by
  unfold beginRequested
  try dsimp only
  repeat' first
    | with_reducible assumption
    | with_reducible first | apply kept_settleFunction | apply kept_resetFunction | apply kept_clearLink | apply kept_resetReg
    | with_reducible first | apply kept_releaseDomains | apply kept_startCamera | apply kept_startEthernet
    | split
    | with_reducible refine kept_mk ?_ rfl rfl rfl rfl rfl rfl rfl rfl rfl rfl rfl rfl rfl rfl rfl rfl rfl

theorem kept_requestAnswer {s : State} (hk : Kept from0 s) (code : Nat) :
    Kept from0 (requestAnswer s code) := by
  unfold requestAnswer
  try dsimp only
  repeat' first
    | with_reducible assumption
    | with_reducible first | apply kept_setRegFld

theorem kept_resetRequest {s : State} (hk : Kept from0 s) (kind : Nat) (index : Nat) :
    Kept from0 (resetRequest s kind index) := by
  unfold resetRequest
  try dsimp only
  repeat' first
    | with_reducible assumption
    | with_reducible first | apply kept_logReset | apply kept_requestAnswer | apply kept_startCold | apply kept_requestRestart
    | with_reducible first | apply kept_beginRequested | apply kept_startReset
    | with_reducible refine kept_ite ?_ ?_
    | split

theorem kept_execResetReq {s : State} (hk : Kept from0 s) (who : Ident) (kind : BitVec 4) (index : BitVec 8) (t : Nat) :
    ∃ sx, execResetReq who kind index t s = .next sx ∧ Kept from0 sx := by
  unfold execResetReq
  try dsimp only
  repeat' first
    | with_reducible assumption
    | with_reducible refine ⟨_, rfl, ?_⟩
    | with_reducible first | apply kept_at | apply kept_resetRequest | apply kept_logReset
    | with_reducible refine kept_ite ?_ ?_
    | split

theorem kept_execResetEvlogRead {s : State} (hk : Kept from0 s) :
    ∃ sx, execResetEvlogRead s = .next sx ∧ Kept from0 sx := by
  unfold execResetEvlogRead
  try dsimp only
  repeat' first
    | with_reducible assumption
    | with_reducible refine ⟨_, rfl, ?_⟩
    | with_reducible refine kept_mk ?_ rfl rfl rfl rfl rfl rfl rfl rfl rfl rfl rfl rfl rfl rfl rfl rfl rfl
    | ((with_reducible refine kept_mk_logs ?_ rfl rfl rfl rfl rfl rfl rfl rfl rfl ?_ ?_ ?_ ?_ ?_ ?_ ?_ ?_) <;> try first
        | with_reducible exact id
        | with_reducible exact fun l => EvLog.within_push l _ _ _
        | with_reducible exact fun l => EvLog.within_pop l
        | with_reducible exact fun _ => EvLog.within_empty _
        | with_reducible exact fun l => logs_sput l _ (EvLog.within_push (logs_sget l _) _ _ _)
        | with_reducible exact fun l => logs_sput l _ (EvLog.within_pop (logs_sget l _))
        | with_reducible exact fun l => logs_sput l _ (EvLog.within_empty _)
        | exact fun _ => EvLog.within_empty _
        | exact fun _ => Nat.zero_le _
        | exact fun _ _ h => (List.not_mem_nil h).elim
        | exact fun l => logs_sput l _ (EvLog.within_empty _))

/-! ### Machine/Csr.lean -/

theorem kept_outState {s : State} (hk : Kept from0 s) {o : Out} (ho : ∃ sx, o = .next sx ∧ Kept from0 sx) : Kept from0 (outState s o) := by
  obtain ⟨sx, e, h⟩ := ho
  rw [e]
  exact h

theorem kept_writeFields {s : State} (hk : Kept from0 s) (w : Writer) (r : RegRow) (off : Nat) (v : Nat) :
    Kept from0 (writeFields s w r off v) := by
  unfold writeFields
  try dsimp only
  repeat' first
    | with_reducible assumption
    | with_reducible first | apply kept_recordLocked | apply kept_setReg
    | with_reducible refine kept_ite ?_ ?_
    | split

theorem kept_writeFrmctl {s : State} (hk : Kept from0 s) (w : Writer) (v : Nat) :
    Kept from0 (writeFrmctl s w v) := by
  unfold writeFrmctl
  try dsimp only
  repeat' first
    | with_reducible assumption
    | with_reducible first | apply kept_setRegBit | apply kept_recordLocked | apply kept_enableTimer | apply kept_disableTimer
    | with_reducible refine kept_ite ?_ ?_
    | split

theorem kept_writeMempwr {s : State} (hk : Kept from0 s) (v : Nat) :
    Kept from0 (writeMempwr s v) := by
  unfold writeMempwr
  try dsimp only
  repeat' first
    | with_reducible assumption
    | with_reducible first | apply kept_outState | apply kept_execPark | apply kept_wakeMemory | apply kept_setRegFld | apply kept_setRegBit
    | with_reducible refine kept_fst (by assumption) ?_
    | with_reducible refine kept_ite ?_ ?_
    | split
    | with_reducible refine kept_mk ?_ rfl rfl rfl rfl rfl rfl rfl rfl rfl rfl rfl rfl rfl rfl rfl rfl rfl

theorem kept_writeCfgload {s : State} (hk : Kept from0 s) (w : Writer) (v : Nat) :
    Kept from0 (writeCfgload s w v) := by
  unfold writeCfgload
  try dsimp only
  repeat' first
    | with_reducible assumption
    | with_reducible first | apply kept_outState | apply kept_execLoadBatch | apply kept_execLoadFrit
    | split
    | with_reducible refine kept_mk ?_ rfl rfl rfl rfl rfl rfl rfl rfl rfl rfl rfl rfl rfl rfl rfl rfl rfl

theorem kept_writeDbgctl {s : State} (hk : Kept from0 s) (w : Writer) (v : Nat) (t : Nat) :
    Kept from0 (writeDbgctl s w v t) := by
  unfold writeDbgctl
  try dsimp only
  repeat' first
    | with_reducible assumption
    | with_reducible first | apply kept_outState | apply kept_execDebugLock | apply kept_execDebugRequest
    | with_reducible refine kept_ite ?_ ?_
    | split

theorem kept_writeDev {s : State} (hk : Kept from0 s) (w : Writer) (r : RegRow) (off : Nat) (v : Nat) (t : Nat) :
    Kept from0 (writeDev s w r off v t) := by
  unfold writeDev
  try dsimp only
  repeat' first
    | with_reducible assumption
    | with_reducible first | apply kept_writeFrmctl | apply kept_badPeriod | apply kept_recordLocked | apply kept_writePeriod
    | with_reducible first | apply kept_writePhase | apply kept_setReg | apply kept_setRegBit | apply kept_outState | apply kept_execRegctlWrite
    | with_reducible first | apply kept_execMemrefWrite | apply kept_writeMempwr | apply kept_execMapApply | apply kept_writeCfgload
    | with_reducible first | apply kept_execFritSwitchRequest | apply kept_writeDbgctl | apply kept_execDebugResponse | apply kept_writeFields
    | with_reducible first | apply kept_execRegbudWrite
    | with_reducible refine kept_fst (by assumption) ?_
    | with_reducible refine kept_ite ?_ ?_
    | split
    | with_reducible refine kept_mk ?_ rfl rfl rfl rfl rfl rfl rfl rfl rfl rfl rfl rfl rfl rfl rfl rfl rfl

theorem kept_ringField {s : State} (hk : Kept from0 s) (n : Nat) (lo : Nat) (len : Nat) (v : Nat) (may : Bool) :
    Kept from0 (ringField s n lo len v may) := by
  unfold ringField
  try dsimp only
  repeat' first
    | with_reducible assumption
    | with_reducible first | apply kept_setRegFld | apply kept_setRegBit
    | with_reducible refine kept_ite ?_ ?_
    | split

theorem kept_writeRcfg {s : State} (hk : Kept from0 s) (w : Writer) (n : Nat) (v : Nat) :
    Kept from0 (writeRcfg s w n v) := by
  unfold writeRcfg
  try dsimp only
  repeat' first
    | with_reducible assumption
    | with_reducible first | apply kept_ringField | apply kept_setRegFld | apply kept_syncRings | apply kept_outState | apply kept_execRingEnable
    | with_reducible first | apply kept_execRingDisable
    | with_reducible refine kept_fst (by assumption) ?_
    | with_reducible refine kept_ite ?_ ?_
    | split

theorem kept_writeRing {s : State} (hk : Kept from0 s) (w : Writer) (r : RegRow) (off : Nat) (v : Nat) :
    Kept from0 (writeRing s w r off v) := by
  unfold writeRing
  try dsimp only
  repeat' first
    | with_reducible assumption
    | with_reducible first | apply kept_writeRcfg | apply kept_setRegBit | apply kept_writeFields
    | with_reducible refine kept_ite ?_ ?_
    | split

theorem kept_streamRefused {s : State} (hk : Kept from0 s) (i : Nat) :
    Kept from0 (streamRefused s i) := by
  unfold streamRefused
  try dsimp only
  repeat' first
    | with_reducible assumption
    | with_reducible first | apply kept_logMarver | apply kept_setRegBit

theorem kept_streamEn {s : State} (hk : Kept from0 s) (i : Nat) (t : Nat) (en : Bool) :
    Kept from0 (streamEn s i t en) := by
  unfold streamEn
  try dsimp only
  repeat' first
    | with_reducible assumption
    | with_reducible first | apply kept_outState | apply kept_execStreamEnable | apply kept_execStreamDisable
    | with_reducible refine kept_ite ?_ ?_
    | split

theorem kept_writeScfg {s : State} (hk : Kept from0 s) (w : Writer) (r : RegRow) (off : Nat) (i : Nat) (v : Nat) (t : Nat) :
    Kept from0 (writeScfg s w r off i v t) := by
  unfold writeScfg
  try dsimp only
  repeat' first
    | with_reducible assumption
    | with_reducible first | apply kept_setReg | apply kept_streamEn | apply kept_streamRefused
    | with_reducible refine kept_ite ?_ ?_
    | split

theorem kept_writeSslot {s : State} (hk : Kept from0 s) (w : Writer) (off : Nat) (i : Nat) (v : Nat) :
    Kept from0 (writeSslot s w off i v) := by
  unfold writeSslot
  try dsimp only
  repeat' first
    | with_reducible assumption
    | with_reducible first | apply kept_setRegFld | apply kept_streamRefused | apply kept_outState | apply kept_execInjwrWrite
    | with_reducible refine kept_ite ?_ ?_
    | split

theorem kept_afterFrit {s0 : State} {s : State} (hk : Kept from0 s0) (hk1 : Kept from0 s) (i : Nat) :
    Kept from0 (afterFrit s0 s i) := by
  unfold afterFrit
  try dsimp only
  repeat' first
    | with_reducible assumption
    | with_reducible first | apply kept_setServo | apply kept_syncHealth | apply kept_setServoSt
    | with_reducible refine kept_ite ?_ ?_
    | split
    | with_reducible refine kept_mk ?_ rfl rfl rfl rfl rfl rfl rfl rfl rfl rfl rfl rfl rfl rfl rfl rfl rfl

theorem kept_writeStream {s : State} (hk : Kept from0 s) (w : Writer) (r : RegRow) (off : Nat) (i : Nat) (v : Nat) (t : Nat) :
    Kept from0 (writeStream s w r off i v t) := by
  unfold writeStream
  try dsimp only
  repeat' first
    | with_reducible assumption
    | with_reducible first | apply kept_writeScfg | apply kept_writeSslot | apply kept_writeFields | apply kept_streamRefused | apply kept_afterFrit
    | with_reducible refine kept_ite ?_ ?_
    | split

theorem kept_writeFusctl {s : State} (hk : Kept from0 s) (w : Writer) (r : RegRow) (v : Nat) :
    Kept from0 (writeFusctl s w r v) := by
  unfold writeFusctl
  try dsimp only
  repeat' first
    | with_reducible assumption
    | with_reducible first | apply kept_syncFbact | apply kept_requestMode | apply kept_writeFields

theorem kept_writeTrkcfg {s : State} (hk : Kept from0 s) (w : Writer) (r : RegRow) (v : Nat) :
    Kept from0 (writeTrkcfg s w r v) := by
  unfold writeTrkcfg
  try dsimp only
  repeat' first
    | with_reducible assumption
    | with_reducible first | apply kept_logMarver | apply kept_setRegBit | apply kept_syncFbact | apply kept_writeFields
    | with_reducible refine kept_ite ?_ ?_
    | split

theorem kept_writeGpctl {s : State} (hk : Kept from0 s) (w : Writer) (r : RegRow) (v : Nat) :
    Kept from0 (writeGpctl s w r v) := by
  unfold writeGpctl
  try dsimp only
  repeat' first
    | with_reducible assumption
    | with_reducible first | apply kept_writeFields | apply kept_setRegFld
    | with_reducible refine kept_ite ?_ ?_
    | split

theorem kept_writeMarver {s : State} (hk : Kept from0 s) (w : Writer) (r : RegRow) (off : Nat) (v : Nat) (t : Nat) :
    Kept from0 (writeMarver s w r off v t) := by
  unfold writeMarver
  try dsimp only
  repeat' first
    | with_reducible assumption
    | with_reducible first | apply kept_writeFusctl | apply kept_outState | apply kept_execTrkgo | apply kept_execScatgo | apply kept_writeTrkcfg
    | with_reducible first | apply kept_execMarverCloseWrite | apply kept_execPoseWrite | apply kept_writeGpctl | apply kept_startCamera
    | with_reducible first | apply kept_writeFields | apply kept_startEthernet | apply kept_writeStream
    | with_reducible refine kept_ite ?_ ?_
    | split
    | with_reducible refine kept_mk ?_ rfl rfl rfl rfl rfl rfl rfl rfl rfl rfl rfl rfl rfl rfl rfl rfl rfl

theorem kept_writeLehra {s : State} (hk : Kept from0 s) (w : Writer) (r : RegRow) (off : Nat) (v : Nat) (t : Nat) :
    Kept from0 (writeLehra s w r off v t) := by
  unfold writeLehra
  try dsimp only
  repeat' first
    | with_reducible assumption
    | with_reducible first | apply kept_outState | apply kept_execWatchdogKick | apply kept_execGafhbWrite | apply kept_writeFields
    | with_reducible refine kept_ite ?_ ?_
    | split

theorem kept_writeCruc {s : State} (hk : Kept from0 s) (w : Writer) (r : RegRow) (off : Nat) (v : Nat) :
    Kept from0 (writeCruc s w r off v) := by
  unfold writeCruc
  try dsimp only
  repeat' first
    | with_reducible assumption
    | with_reducible first | apply kept_startMaint | apply kept_writeFields
    | with_reducible refine kept_ite ?_ ?_
    | split

theorem kept_writeTcmd {s : State} (hk : Kept from0 s) (w : Writer) (h : Nat) (v : Nat) :
    Kept from0 (writeTcmd s w h v) := by
  unfold writeTcmd
  try dsimp only
  repeat' first
    | with_reducible assumption
    | with_reducible first | apply kept_helperStart
    | with_reducible refine kept_ite ?_ ?_
    | split

theorem kept_writeChctl {s : State} (hk : Kept from0 s) (w : Writer) (h : Nat) (v : Nat) (t : Nat) :
    Kept from0 (writeChctl s w h v t) := by
  unfold writeChctl
  try dsimp only
  repeat' first
    | with_reducible assumption
    | with_reducible first | apply kept_outState | apply kept_execGoservice | apply kept_execRetire
    | with_reducible refine kept_ite ?_ ?_
    | split

theorem kept_writeMemc {s : State} (hk : Kept from0 s) (w : Writer) (r : RegRow) (off : Nat) (v : Nat) (t : Nat) :
    Kept from0 (writeMemc s w r off v t) := by
  unfold writeMemc
  try dsimp only
  repeat' first
    | with_reducible assumption
    | with_reducible first | apply kept_outState | apply kept_execFrzack | apply kept_writeTcmd | apply kept_syncDelay | apply kept_writeFields
    | with_reducible first | apply kept_writeChctl
    | with_reducible refine kept_ite ?_ ?_
    | split
    | with_reducible refine kept_mk ?_ rfl rfl rfl rfl rfl rfl rfl rfl rfl rfl rfl rfl rfl rfl rfl rfl rfl

theorem kept_writeBlowpipe {s : State} (hk : Kept from0 s) (w : Writer) (r : RegRow) (off : Nat) (v : Nat) :
    Kept from0 (writeBlowpipe s w r off v) := by
  unfold writeBlowpipe
  try dsimp only
  repeat' first
    | with_reducible assumption
    | with_reducible first | apply kept_writeTopo | apply kept_writeChanA | apply kept_enableFwd | apply kept_writeChanB | apply kept_enableIn
    | with_reducible first | apply kept_writeFields
    | intro _ _ _
    | intro _ _
    | with_reducible refine kept_ite ?_ ?_
    | split
    | with_reducible refine kept_mk ?_ rfl rfl rfl rfl rfl rfl rfl rfl rfl rfl rfl rfl rfl rfl rfl rfl rfl

theorem kept_writeTherm {s : State} (hk : Kept from0 s) (w : Writer) (r : RegRow) (off : Nat) (v : Nat) (t : Nat) :
    Kept from0 (writeTherm s w r off v t) := by
  unfold writeTherm
  try dsimp only
  repeat' first
    | with_reducible assumption
    | with_reducible first | apply kept_outState | apply kept_execCoolantWrite | apply kept_writeFields | apply kept_judgeCoolant
    | with_reducible refine kept_fst (by assumption) ?_
    | with_reducible refine kept_ite ?_ ?_
    | split

theorem kept_writeResetBlock {s : State} (hk : Kept from0 s) (w : Writer) (r : RegRow) (off : Nat) (v : Nat) (t : Nat) :
    Kept from0 (writeResetBlock s w r off v t) := by
  unfold writeResetBlock
  try dsimp only
  repeat' first
    | with_reducible assumption
    | with_reducible first | apply kept_outState | apply kept_execResetReq | apply kept_writeFields
    | with_reducible refine kept_ite ?_ ?_
    | split

theorem kept_writeCoreCtl {s : State} (hk : Kept from0 s) (acc : Accessor) (c : Nat) (v : Nat) (t : Nat) :
    Kept from0 (writeCoreCtl s acc c v t) := by
  unfold writeCoreCtl
  try dsimp only
  repeat' first
    | with_reducible assumption
    | with_reducible first | apply kept_setRegBit | apply kept_outState | apply kept_execHaltreq | apply kept_execResume | apply kept_execRestartreq
    | with_reducible refine kept_ite ?_ ?_
    | split

theorem kept_writeCore {s : State} (hk : Kept from0 s) (w : Writer) (r : RegRow) (off : Nat) (v : Nat) (t : Nat) :
    Kept from0 (writeCore s w r off v t) := by
  unfold writeCore
  try dsimp only
  repeat' first
    | with_reducible assumption
    | with_reducible first | apply kept_writeCoreCtl | apply kept_windowRefused | apply kept_writeFields | apply kept_outState
    | with_reducible first | apply kept_execTpstep | apply kept_execStepminWrite | apply kept_execCoreSyncWrite
    | with_reducible refine kept_fst (by assumption) ?_
    | with_reducible refine kept_ite ?_ ?_
    | split
    | with_reducible refine kept_mk ?_ rfl rfl rfl rfl rfl rfl rfl rfl rfl rfl rfl rfl rfl rfl rfl rfl rfl

theorem kept_writeOpcmd {s : State} (hk : Kept from0 s) (k : Nat) (v : Nat) :
    Kept from0 (writeOpcmd s k v) := by
  unfold writeOpcmd
  try dsimp only
  repeat' first
    | with_reducible assumption
    | with_reducible first | apply kept_outState | apply kept_execCreateSeq | apply kept_execFreeSeq | apply kept_execTruncateSeq
    | with_reducible first | apply kept_execSetseg | apply kept_execLoadbias | apply kept_portRefused
    | with_reducible refine kept_fst (by assumption) ?_
    | with_reducible refine kept_ite ?_ ?_
    | split
    | with_reducible refine kept_mk ?_ rfl rfl rfl rfl rfl rfl rfl rfl rfl rfl rfl rfl rfl rfl rfl rfl rfl

theorem kept_writeCullet {s : State} (hk : Kept from0 s) (w : Writer) (r : RegRow) (off : Nat) (v : Nat) :
    Kept from0 (writeCullet s w r off v) := by
  unfold writeCullet
  try dsimp only
  repeat' first
    | with_reducible assumption
    | with_reducible first | apply kept_writeOpcmd | apply kept_portRefused | apply kept_writeFields | apply kept_recordLocked | apply kept_writePool
    | with_reducible refine kept_fst (by assumption) ?_
    | with_reducible refine kept_ite ?_ ?_
    | split

theorem kept_writeReg {s : State} (hk : Kept from0 s) (w : Writer) (r : RegRow) (off : Nat) (v : Nat) (t : Nat) :
    Kept from0 (writeReg s w r off v t) := by
  unfold writeReg
  try dsimp only
  repeat' first
    | with_reducible assumption
    | with_reducible first | apply kept_writeDev | apply kept_writeRing | apply kept_writeMarver | apply kept_writeLehra | apply kept_writeFields
    | with_reducible first | apply kept_writeCruc | apply kept_writeMemc | apply kept_writeBlowpipe | apply kept_writeTherm
    | with_reducible first | apply kept_writeResetBlock | apply kept_writeCore | apply kept_writeCullet
    | with_reducible refine kept_ite ?_ ?_
    | split
    | with_reducible refine kept_mk ?_ rfl rfl rfl rfl rfl rfl rfl rfl rfl rfl rfl rfl rfl rfl rfl rfl rfl

theorem kept_csrWrite32 {s : State} (hk : Kept from0 s) (w : Writer) (off : Nat) (v : Nat) (t : Nat) :
    Kept from0 (csrWrite32 s w off v t) := by
  unfold csrWrite32
  try dsimp only
  repeat' first
    | with_reducible assumption
    | with_reducible first | apply kept_writeReg
    | split
    | with_reducible refine kept_mk ?_ rfl rfl rfl rfl rfl rfl rfl rfl rfl rfl rfl rfl rfl rfl rfl rfl rfl

theorem kept_csrWriteAt {s : State} (hk : Kept from0 s) (w : Writer) (off : Nat) (wide : Bool) (v : Nat) (t : Nat) :
    Kept from0 (csrWriteAt s w off wide v t) := by
  unfold csrWriteAt
  try dsimp only
  repeat' first
    | with_reducible assumption
    | with_reducible first | apply kept_csrWrite32 | apply kept_writeReg
    | with_reducible refine kept_ite ?_ ?_
    | split
    | with_reducible refine kept_mk ?_ rfl rfl rfl rfl rfl rfl rfl rfl rfl rfl rfl rfl rfl rfl rfl rfl rfl

theorem kept_execCsrWrite {s : State} (hk : Kept from0 s) (acc : Accessor) (off : BitVec 28) (wide : Bool) (v : BitVec 64) (t : Nat) :
    ∃ sx, execCsrWrite acc off wide v t s = .next sx ∧ Kept from0 sx := by
  unfold execCsrWrite
  try dsimp only
  repeat' first
    | with_reducible assumption
    | with_reducible refine ⟨_, rfl, ?_⟩
    | with_reducible first | apply kept_csrWriteAt | apply kept_at

theorem kept_popLog {s : State} (hk : Kept from0 s) (off : Nat) :
    ∀ sx, popLog s off = some sx → Kept from0 sx := by
  unfold popLog
  intro sx hx
  revert hx
  try dsimp only
  repeat' first
    | with_reducible assumption
    | with_reducible first | apply kept_outState | apply kept_execMarverEvlogRead | apply kept_execLehraEvlogRead
    | with_reducible first | apply kept_execBlowpipeEvlogRead | apply kept_execThermEvlogRead | apply kept_execResetEvlogRead
    | with_reducible first | apply kept_execCfgEvlogRead | apply kept_execCrucEvlogRead | apply kept_execMemcEvlogRead
    | (intro hx; cases hx)
    | with_reducible refine kept_ite ?_ ?_
    | split
    | with_reducible refine kept_mk ?_ rfl rfl rfl rfl rfl rfl rfl rfl rfl rfl rfl rfl rfl rfl rfl rfl rfl

theorem kept_readReg {s0 : State} (hk : Kept from0 s0) (who : Ident) (off : Nat) :
    Kept from0 (readReg s0 who off) := by
  unfold readReg
  try dsimp only
  repeat' first
    | with_reducible assumption
    | with_reducible first | apply kept_accrue | apply kept_gptpShows | apply kept_windowRefused
    | with_reducible refine kept_popLog ?_ _ _ (by assumption)
    | with_reducible refine kept_ite ?_ ?_
    | split
    | with_reducible refine kept_mk ?_ rfl rfl rfl rfl rfl rfl rfl rfl rfl rfl rfl rfl rfl rfl rfl rfl rfl

theorem kept_csrRead32 {s : State} (hk : Kept from0 s) (who : Ident) (off : Nat) :
    Kept from0 (csrRead32 s who off) := by
  unfold csrRead32
  try dsimp only
  repeat' first
    | with_reducible assumption
    | with_reducible first | apply kept_readReg
    | split
    | with_reducible refine kept_mk ?_ rfl rfl rfl rfl rfl rfl rfl rfl rfl rfl rfl rfl rfl rfl rfl rfl rfl

theorem kept_csrReadAt {s : State} (hk : Kept from0 s) (who : Ident) (off : Nat) (wide : Bool) :
    Kept from0 (csrReadAt s who off wide) := by
  unfold csrReadAt
  try dsimp only
  repeat' first
    | with_reducible assumption
    | with_reducible first | apply kept_csrRead32 | apply kept_readReg
    | with_reducible refine kept_ite ?_ ?_
    | split
    | with_reducible refine kept_mk ?_ rfl rfl rfl rfl rfl rfl rfl rfl rfl rfl rfl rfl rfl rfl rfl rfl rfl

theorem kept_csrJudge {s : State} (hk : Kept from0 s) (r : Req) (off : Nat) (write : Bool) :
    Kept from0 (csrJudge s r off write).1 := by
  unfold csrJudge
  try dsimp only
  repeat' first
    | with_reducible assumption
    | with_reducible first | apply kept_checkReq | apply kept_poisonAt
    | with_reducible refine kept_fst (by assumption) ?_
    | with_reducible refine kept_ite ?_ ?_
    | split
    | with_reducible refine kept_mk ?_ rfl rfl rfl rfl rfl rfl rfl rfl rfl rfl rfl rfl rfl rfl rfl rfl rfl

theorem kept_csrTrack {s0 : State} {s : State} (hk : Kept from0 s0) (hk1 : Kept from0 s) (r : Req) (off : Nat) (tag : Nat) (owner : Option Nat) (poisoned : Bool) (data : List Byte) :
    Kept from0 (csrTrack s0 s r off tag owner poisoned data) := by
  unfold csrTrack
  try dsimp only
  repeat' first
    | with_reducible assumption
    | with_reducible first | apply kept_trackReq

theorem kept_execCsrrd {s : State} (hk : Kept from0 s) (node : BitVec 8) (who : Ident) (tag : BitVec 12) (cls : BitVec 2) (off : BitVec 28) (want : CsrFor) (t : Nat) :
    ∃ sx, execCsrrd node who tag cls off want t s = .next sx ∧ Kept from0 sx := by
  unfold execCsrrd
  try dsimp only
  repeat' first
    | with_reducible assumption
    | with_reducible refine ⟨_, rfl, ?_⟩
    | with_reducible first | apply kept_at | apply kept_csrReadAt | apply kept_csrJudge | apply kept_csrTrack
    | with_reducible refine kept_fst (by assumption) ?_
    | with_reducible refine kept_ite ?_ ?_
    | split
    | with_reducible refine kept_mk ?_ rfl rfl rfl rfl rfl rfl rfl rfl rfl rfl rfl rfl rfl rfl rfl rfl rfl

theorem kept_execCsrwr {s : State} (hk : Kept from0 s) (node : BitVec 8) (who : Ident) (tag : BitVec 12) (cls : BitVec 2) (off : BitVec 28) (want : CsrFor) (v : BitVec 64) (t : Nat) :
    ∃ sx, execCsrwr node who tag cls off want v t s = .next sx ∧ Kept from0 sx := by
  unfold execCsrwr
  try dsimp only
  repeat' first
    | with_reducible assumption
    | with_reducible refine ⟨_, rfl, ?_⟩
    | with_reducible first | apply kept_at | apply kept_csrJudge | apply kept_csrTrack | apply kept_csrWriteAt
    | with_reducible refine kept_fst (by assumption) ?_
    | with_reducible refine kept_ite ?_ ?_
    | split
    | with_reducible refine kept_mk ?_ rfl rfl rfl rfl rfl rfl rfl rfl rfl rfl rfl rfl rfl rfl rfl rfl rfl

/-! ### Machine/Config.lean -/

theorem kept_readBlock {s : State} (hk : Kept from0 s) (ecc : MemEcc) (addr : Nat) :
    Kept from0 (readBlock s ecc addr).1 := by
  unfold readBlock
  try dsimp only
  repeat' first
    | with_reducible assumption
    | with_reducible first | apply kept_devRead
    | with_reducible refine kept_fst (by assumption) ?_
    | with_reducible refine kept_ite ?_ ?_
    | split
    | with_reducible refine kept_mk ?_ rfl rfl rfl rfl rfl rfl rfl rfl rfl rfl rfl rfl rfl rfl rfl rfl rfl

theorem kept_failOp {s : State} (hk : Kept from0 s) (c : Cmd) (f : Failure) :
    Kept from0 (failOp s c f) := by
  unfold failOp
  try dsimp only
  repeat' first
    | with_reducible assumption
    | with_reducible first | apply kept_endOp | apply kept_mapCmd
    | with_reducible refine kept_mk ?_ rfl rfl rfl rfl rfl rfl rfl rfl rfl rfl rfl rfl rfl rfl rfl rfl rfl

theorem kept_storeProposal {s : State} (hk : Kept from0 s) (c : Cmd) (b : ChangeBlock) :
    Kept from0 (storeProposal s c b) := by
  unfold storeProposal
  try dsimp only
  repeat' first
    | with_reducible assumption
    | with_reducible first | apply kept_nextFresh | apply kept_endOp | apply kept_setRegBit
    | with_reducible refine kept_fst (by assumption) ?_
    | with_reducible refine kept_mk ?_ rfl rfl rfl rfl rfl rfl rfl rfl rfl rfl rfl rfl rfl rfl rfl rfl rfl

theorem kept_propose {s : State} (hk : Kept from0 s) (c : Cmd) (ecc : MemEcc) (addr : Nat) :
    Kept from0 (propose s c ecc addr) := by
  unfold propose
  try dsimp only
  repeat' first
    | with_reducible assumption
    | with_reducible first | apply kept_failOp | apply kept_readBlock | apply kept_storeProposal
    | with_reducible refine kept_fst (by assumption) ?_
    | with_reducible refine kept_ite ?_ ?_
    | split
    | with_reducible refine kept_mk ?_ rfl rfl rfl rfl rfl rfl rfl rfl rfl rfl rfl rfl rfl rfl rfl rfl rfl

theorem kept_execConfigPropose {s : State} (hk : Kept from0 s) (part : Fin 16) (seq : BitVec 32) (ecc : MemEcc) (t : Nat) :
    ∃ sx, execConfigPropose part seq ecc t s = .next sx ∧ Kept from0 sx := by
  unfold execConfigPropose
  try dsimp only
  repeat' first
    | with_reducible assumption
    | with_reducible refine ⟨_, rfl, ?_⟩
    | with_reducible first | apply kept_at | apply kept_propose
    | split
    | with_reducible refine kept_mk ?_ rfl rfl rfl rfl rfl rfl rfl rfl rfl rfl rfl rfl rfl rfl rfl rfl rfl

theorem kept_dropProposal {s : State} (hk : Kept from0 s) :
    Kept from0 (dropProposal s) := by
  unfold dropProposal
  try dsimp only
  repeat' first
    | with_reducible assumption
    | with_reducible first | apply kept_setRegBit
    | with_reducible refine kept_mk ?_ rfl rfl rfl rfl rfl rfl rfl rfl rfl rfl rfl rfl rfl rfl rfl rfl rfl

theorem kept_applyEntry {s : State} (hk : Kept from0 s) (t : Nat) (e : CfgEntry) :
    Kept from0 (applyEntry t s e) := by
  unfold applyEntry
  try dsimp only
  repeat' first
    | with_reducible assumption
    | with_reducible first | apply kept_csrWriteAt
    | with_reducible refine kept_fst (by assumption) ?_

theorem kept_copyRegion {s : State} (hk : Kept from0 s) (e : CfgEntry) :
    Kept from0 (copyRegion s e) := by
  unfold copyRegion
  try dsimp only
  repeat' first
    | with_reducible assumption
    | with_reducible refine kept_ite ?_ ?_
    | split
    | with_reducible refine kept_mk ?_ rfl rfl rfl rfl rfl rfl rfl rfl rfl rfl rfl rfl rfl rfl rfl rfl rfl

/-- A count of fuses raised. -/
theorem kept_arb {s : State} (hk : Kept from0 s) (t n : Nat) (h : sget 0 s.cfg.arbFuses t ≤ n) :
    Kept from0 { s with cfg := { s.cfg with arbFuses := sput 0 s.cfg.arbFuses t n } } :=
  ⟨hk.pending, hk.fresh, hk.regs, hk.dram, hk.logs, hk.can, hk.host, hk.sent, by
    intro j
    refine Nat.le_trans (hk.arb j) ?_
    by_cases hj : j = t
    · subst hj
      show _ ≤ sget 0 (sput 0 s.cfg.arbFuses j n) j
      unfold sput
      split
      · omega
      · rw [sget_sins_same]
        exact h
    · show _ ≤ sget 0 (sput 0 s.cfg.arbFuses t n) j
      exact Nat.le_of_eq (sget_sput_other _ _ _ _ hj).symm, hk.dbg⟩

theorem kept_blowFuses {s : State} (hk : Kept from0 s) (reached : List (Nat × Nat)) (t : Nat) (v : Nat) :
    Kept from0 (blowFuses reached s t v) := by
  unfold blowFuses
  dsimp only
  have h1 : sget 0 s.cfg.arbFuses t ≤ (match reached.lookup t with
      | some c => max (sget 0 s.cfg.arbFuses t) (min c v)
      | none => max (sget 0 s.cfg.arbFuses t) v) := by
    split <;> exact Nat.le_max_left _ _
  apply kept_ite
  · exact kept_logCfg (kept_setReg (kept_arb hk t _ h1) _ _) _
  · exact kept_setReg (kept_arb hk t _ h1) _ _

theorem kept_blowEntry {s : State} (hk : Kept from0 s) (reached : List (Nat × Nat)) (e : CfgEntry) :
    Kept from0 (blowEntry reached s e) := by
  unfold blowEntry
  try dsimp only
  repeat' first
    | with_reducible assumption
    | with_reducible first | apply kept_blowFuses
    | split
    | with_reducible refine kept_mk ?_ rfl rfl rfl rfl rfl rfl rfl rfl rfl rfl rfl rfl rfl rfl rfl rfl rfl

theorem kept_applyCommit {s : State} (hk : Kept from0 s) (c : Cmd) (p : Proposal) (reached : List (Nat × Nat)) (t : Nat) :
    Kept from0 (applyCommit s c p reached t) := by
  unfold applyCommit
  try dsimp only
  repeat' first
    | with_reducible assumption
    | with_reducible first | apply kept_applyEntry | apply kept_blowEntry | apply kept_copyRegion | apply kept_setRegBit | apply kept_setRegFld
    | with_reducible first | apply kept_dropProposal | apply kept_endOp
    | with_reducible refine kept_foldl ?_ (fun _ _ _ => ?_)
    | with_reducible refine kept_foldl_pair ?_ (fun _ _ _ => ?_)

theorem kept_failCommit {s : State} (hk : Kept from0 s) (c : Cmd) (status : Nat) :
    Kept from0 (failCommit s c status) := by
  unfold failCommit
  try dsimp only
  repeat' first
    | with_reducible assumption
    | with_reducible first | apply kept_endOp | apply kept_dropProposal

theorem kept_commitConfig {s : State} (hk : Kept from0 s) (c : Cmd) (ecc : MemEcc) (addr : Nat) (reached : List (Nat × Nat)) (t : Nat) :
    Kept from0 (commitConfig s c ecc addr reached t) := by
  unfold commitConfig
  try dsimp only
  repeat' first
    | with_reducible assumption
    | with_reducible first | apply kept_failCommit | apply kept_readBlock | apply kept_applyCommit
    | with_reducible refine kept_fst (by assumption) ?_
    | with_reducible refine kept_ite ?_ ?_
    | split
    | with_reducible refine kept_mk ?_ rfl rfl rfl rfl rfl rfl rfl rfl rfl rfl rfl rfl rfl rfl rfl rfl rfl

theorem kept_execConfigCommit {s : State} (hk : Kept from0 s) (part : Fin 16) (seq : BitVec 32) (ecc : MemEcc) (reached : List (Fin 4 × BitVec 7)) (t : Nat) :
    ∃ sx, execConfigCommit part seq ecc reached t s = .next sx ∧ Kept from0 sx := by
  unfold execConfigCommit
  try dsimp only
  repeat' first
    | with_reducible assumption
    | with_reducible refine ⟨_, rfl, ?_⟩
    | with_reducible first | apply kept_at | apply kept_commitConfig
    | split
    | with_reducible refine kept_mk ?_ rfl rfl rfl rfl rfl rfl rfl rfl rfl rfl rfl rfl rfl rfl rfl rfl rfl

theorem kept_applySetting {s : State} (hk : Kept from0 s) (t : Nat) (e : CfgEntry) :
    Kept from0 (applySetting t s e) := by
  unfold applySetting
  try dsimp only
  repeat' first
    | with_reducible assumption
    | with_reducible first | apply kept_applyEntry | apply kept_logCfg | apply kept_setRegBit
    | with_reducible refine kept_ite ?_ ?_
    | split
    | with_reducible refine kept_mk ?_ rfl rfl rfl rfl rfl rfl rfl rfl rfl rfl rfl rfl rfl rfl rfl rfl rfl

theorem kept_startSwitch {s : State} (hk : Kept from0 s) :
    Kept from0 (startSwitch s) := by
  unfold startSwitch
  try dsimp only
  repeat' first
    | with_reducible assumption
    | with_reducible refine kept_ite ?_ ?_
    | split
    | with_reducible refine kept_mk ?_ rfl rfl rfl rfl rfl rfl rfl rfl rfl rfl rfl rfl rfl rfl rfl rfl rfl

theorem kept_switchTo {s : State} (hk : Kept from0 s) (target : Option Nat) (t : Nat) :
    Kept from0 (switchTo s target t) := by
  unfold switchTo
  try dsimp only
  repeat' first
    | with_reducible assumption
    | with_reducible first | apply kept_applySetting | apply kept_setRegBit | apply kept_setRegFld
    | with_reducible refine kept_foldl ?_ (fun _ _ _ => ?_)
    | with_reducible refine kept_foldl_pair ?_ (fun _ _ _ => ?_)
    | with_reducible refine kept_ite ?_ ?_
    | split
    | with_reducible refine kept_mk ?_ rfl rfl rfl rfl rfl rfl rfl rfl rfl rfl rfl rfl rfl rfl rfl rfl rfl

theorem kept_finishSwitch {s : State} (hk : Kept from0 s) (target : Option Nat) (t : Nat) :
    Kept from0 (finishSwitch s target t) := by
  unfold finishSwitch
  try dsimp only
  repeat' first
    | with_reducible assumption
    | with_reducible first | apply kept_switchTo | apply kept_loadFrit
    | with_reducible refine kept_foldl ?_ (fun _ _ _ => ?_)
    | with_reducible refine kept_foldl_pair ?_ (fun _ _ _ => ?_)
    | with_reducible refine kept_mk ?_ rfl rfl rfl rfl rfl rfl rfl rfl rfl rfl rfl rfl rfl rfl rfl rfl rfl

theorem kept_endSwitch {s : State} (hk : Kept from0 s) (t : Nat) :
    Kept from0 (endSwitch s t) := by
  unfold endSwitch
  try dsimp only
  repeat' first
    | with_reducible assumption
    | with_reducible first | apply kept_finishSwitch
    | split
    | with_reducible refine kept_mk ?_ rfl rfl rfl rfl rfl rfl rfl rfl rfl rfl rfl rfl rfl rfl rfl rfl rfl

theorem kept_execFritSwitch {s : State} (hk : Kept from0 s) (t : Nat) :
    ∃ sx, execFritSwitch t s = .next sx ∧ Kept from0 sx := by
  unfold execFritSwitch
  try dsimp only
  repeat' first
    | with_reducible assumption
    | with_reducible refine ⟨_, rfl, ?_⟩
    | with_reducible first | apply kept_endSwitch | apply kept_at

theorem kept_reapply {s : State} (hk : Kept from0 s) (inBlock : Nat → Bool) (t : Nat) :
    Kept from0 (reapply s inBlock t) := by
  unfold reapply
  try dsimp only
  repeat' first
    | with_reducible assumption
    | with_reducible first | apply kept_applySetting
    | with_reducible refine kept_foldl ?_ (fun _ _ _ => ?_)
    | with_reducible refine kept_foldl_pair ?_ (fun _ _ _ => ?_)
    | with_reducible refine kept_mk ?_ rfl rfl rfl rfl rfl rfl rfl rfl rfl rfl rfl rfl rfl rfl rfl rfl rfl

/-! ### Machine/BlockReset.lean -/

theorem kept_coreContents {s : State} (hk : Kept from0 s) (c : Nat) :
    Kept from0 (coreContents s c) := by
  unfold coreContents
  try dsimp only
  repeat' first
    | with_reducible assumption
    | with_reducible first | apply kept_setCoreSt | apply kept_enterReset
    | with_reducible refine kept_ite ?_ ?_
    | split

theorem kept_dieContents {s : State} (hk : Kept from0 s) (d : Nat) :
    Kept from0 (dieContents s d) := by
  unfold dieContents
  try dsimp only
  repeat' first
    | with_reducible assumption
    | with_reducible first | apply kept_syncBind | apply kept_coreContents | apply kept_resetRegs
    | with_reducible refine kept_foldl ?_ (fun _ _ _ => ?_)
    | with_reducible refine kept_foldl_pair ?_ (fun _ _ _ => ?_)

theorem kept_channelContents {s0 : State} (hk : Kept from0 s0) (h : Nat) :
    Kept from0 (channelContents s0 h) := by
  unfold channelContents
  try dsimp only
  repeat' first
    | with_reducible assumption
    | with_reducible first | apply kept_wakeMemory | apply kept_raise | apply kept_syncDelay | apply kept_resetRegsBut | apply kept_syncScrub
    | with_reducible first | apply kept_setChSt
    | with_reducible refine kept_ite ?_ ?_
    | split

theorem kept_dropHomed {s : State} (hk : Kept from0 s) (k : Nat) :
    Kept from0 (dropHomed s k) := by
  unfold dropHomed
  try dsimp only
  repeat' first
    | with_reducible assumption
    | with_reducible refine kept_mk ?_ rfl rfl rfl rfl rfl rfl rfl rfl rfl rfl rfl rfl rfl rfl rfl rfl rfl

theorem kept_wipeCrucible {s : State} (hk : Kept from0 s) (k : Nat) :
    Kept from0 (wipeCrucible s k) := by
  unfold wipeCrucible
  try dsimp only
  repeat' first
    | with_reducible assumption
    | with_reducible first | apply kept_dropCached
    | with_reducible refine kept_mk ?_ rfl rfl rfl rfl rfl rfl rfl rfl rfl rfl rfl rfl rfl rfl rfl rfl rfl
    | ((with_reducible refine kept_mk_logs ?_ rfl rfl rfl rfl rfl rfl rfl rfl rfl ?_ ?_ ?_ ?_ ?_ ?_ ?_ ?_) <;> try first
        | with_reducible exact id
        | with_reducible exact fun l => EvLog.within_push l _ _ _
        | with_reducible exact fun l => EvLog.within_pop l
        | with_reducible exact fun _ => EvLog.within_empty _
        | with_reducible exact fun l => logs_sput l _ (EvLog.within_push (logs_sget l _) _ _ _)
        | with_reducible exact fun l => logs_sput l _ (EvLog.within_pop (logs_sget l _))
        | with_reducible exact fun l => logs_sput l _ (EvLog.within_empty _)
        | exact fun _ => EvLog.within_empty _
        | exact fun _ => Nat.zero_le _
        | exact fun _ _ h => (List.not_mem_nil h).elim
        | exact fun l => logs_sput l _ (EvLog.within_empty _))

theorem kept_crucibleContents {s : State} (hk : Kept from0 s) (k : Nat) (clean : Bool) :
    Kept from0 (crucibleContents s k clean) := by
  unfold crucibleContents
  try dsimp only
  repeat' first
    | with_reducible assumption
    | with_reducible first | apply kept_markCancel | apply kept_resetRegs | apply kept_dropHomed | apply kept_syncStage | apply kept_wipeCrucible
    | with_reducible first | apply kept_advanceChannel
    | with_reducible refine kept_foldl ?_ (fun _ _ _ => ?_)
    | with_reducible refine kept_foldl_pair ?_ (fun _ _ _ => ?_)
    | with_reducible refine kept_ite ?_ ?_
    | split

theorem kept_sensorContents {s : State} (hk : Kept from0 s) :
    Kept from0 (sensorContents s) := by
  unfold sensorContents
  try dsimp only
  repeat' first
    | with_reducible assumption
    | with_reducible first | apply kept_resetRegs
    | with_reducible refine kept_mk ?_ rfl rfl rfl rfl rfl rfl rfl rfl rfl rfl rfl rfl rfl rfl rfl rfl rfl
    | ((with_reducible refine kept_mk_logs ?_ rfl rfl rfl rfl rfl rfl rfl rfl rfl ?_ ?_ ?_ ?_ ?_ ?_ ?_ ?_) <;> try first
        | with_reducible exact id
        | with_reducible exact fun l => EvLog.within_push l _ _ _
        | with_reducible exact fun l => EvLog.within_pop l
        | with_reducible exact fun _ => EvLog.within_empty _
        | with_reducible exact fun l => logs_sput l _ (EvLog.within_push (logs_sget l _) _ _ _)
        | with_reducible exact fun l => logs_sput l _ (EvLog.within_pop (logs_sget l _))
        | with_reducible exact fun l => logs_sput l _ (EvLog.within_empty _)
        | exact fun _ => EvLog.within_empty _
        | exact fun _ => Nat.zero_le _
        | exact fun _ _ h => (List.not_mem_nil h).elim
        | exact fun l => logs_sput l _ (EvLog.within_empty _))

theorem kept_blockContents {s : State} (hk : Kept from0 s) (b : Block) (clean : Bool) :
    Kept from0 (blockContents s b clean) := by
  unfold blockContents
  try dsimp only
  repeat' first
    | with_reducible assumption
    | with_reducible first | apply kept_coreContents | apply kept_dieContents | apply kept_crucibleContents | apply kept_channelContents
    | with_reducible first | apply kept_setChSt | apply kept_sensorContents
    | with_reducible refine kept_ite ?_ ?_
    | split
    | with_reducible refine kept_mk ?_ rfl rfl rfl rfl rfl rfl rfl rfl rfl rfl rfl rfl rfl rfl rfl rfl rfl

theorem kept_enterBlockReset {s : State} (hk : Kept from0 s) (b : Block) (clean : Bool) :
    Kept from0 (enterBlockReset s b clean) := by
  unfold enterBlockReset
  try dsimp only
  repeat' first
    | with_reducible assumption
    | with_reducible first | apply kept_blockContents | apply kept_poisonRuns | apply kept_blockToReset

theorem kept_execIdleAck {s : State} (hk : Kept from0 s) (b : Block) (t : Nat) :
    ∃ sx, execIdleAck b t s = .next sx ∧ Kept from0 sx := by
  unfold execIdleAck
  try dsimp only
  repeat' first
    | with_reducible assumption
    | with_reducible refine ⟨_, rfl, ?_⟩
    | with_reducible first | apply kept_at | apply kept_enterBlockReset
    | with_reducible refine kept_ite ?_ ?_
    | split

theorem kept_fenceBlock {s : State} (hk : Kept from0 s) (b : Block) :
    Kept from0 (fenceBlock s b) := by
  unfold fenceBlock
  try dsimp only
  repeat' first
    | with_reducible assumption
    | with_reducible first | apply kept_orphanNodes | apply kept_poisonRuns | apply kept_fenceTarget | apply kept_logReset | apply kept_setBlock
    | with_reducible refine kept_fst (by assumption) ?_
    | with_reducible refine kept_foldl ?_ (fun _ _ _ => ?_)
    | with_reducible refine kept_foldl_pair ?_ (fun _ _ _ => ?_)

theorem kept_execIdleTimeout {s : State} (hk : Kept from0 s) (b : Block) (t : Nat) :
    ∃ sx, execIdleTimeout b t s = .next sx ∧ Kept from0 sx := by
  unfold execIdleTimeout
  try dsimp only
  repeat' first
    | with_reducible assumption
    | with_reducible refine ⟨_, rfl, ?_⟩
    | with_reducible first | apply kept_at | apply kept_fenceBlock
    | with_reducible refine kept_ite ?_ ?_
    | split

theorem kept_drainNodes {s : State} (hk : Kept from0 s) (b : Block) :
    Kept from0 (drainNodes s b) := by
  unfold drainNodes
  try dsimp only
  repeat' first
    | with_reducible assumption
    | with_reducible first | apply kept_syncTrk
    | with_reducible refine kept_foldl ?_ (fun _ _ _ => ?_)
    | with_reducible refine kept_foldl_pair ?_ (fun _ _ _ => ?_)
    | with_reducible refine kept_mk ?_ rfl rfl rfl rfl rfl rfl rfl rfl rfl rfl rfl rfl rfl rfl rfl rfl rfl

theorem kept_execOrphanDrainDone {s : State} (hk : Kept from0 s) (b : Block) (t : Nat) :
    ∃ sx, execOrphanDrainDone b t s = .next sx ∧ Kept from0 sx := by
  unfold execOrphanDrainDone
  try dsimp only
  repeat' first
    | with_reducible assumption
    | with_reducible refine ⟨_, rfl, ?_⟩
    | with_reducible first | apply kept_at | apply kept_enterBlockReset | apply kept_drainNodes | apply kept_setBlock
    | with_reducible refine kept_fst (by assumption) ?_
    | with_reducible refine kept_ite ?_ ?_
    | split

theorem kept_trainVport {s : State} (hk : Kept from0 s) (c : Nat) :
    Kept from0 (trainVport s c) := by
  unfold trainVport
  try dsimp only
  repeat' first
    | with_reducible assumption
    | with_reducible first | apply kept_clearLink | apply kept_resetReg
    | with_reducible refine kept_ite ?_ ?_
    | split

theorem kept_portUp {s : State} (hk : Kept from0 s) (c : Nat) :
    Kept from0 (portUp s c) := by
  unfold portUp
  try dsimp only
  repeat' first
    | with_reducible assumption
    | with_reducible first | apply kept_setRegFld
    | with_reducible refine kept_ite ?_ ?_
    | split

theorem kept_trainModule {s : State} (hk : Kept from0 s) (m : Nat) :
    Kept from0 (trainModule s m) := by
  unfold trainModule
  try dsimp only
  repeat' first
    | with_reducible assumption
    | with_reducible first | apply kept_clearLink | apply kept_resetReg
    | with_reducible refine kept_mk ?_ rfl rfl rfl rfl rfl rfl rfl rfl rfl rfl rfl rfl rfl rfl rfl rfl rfl

theorem kept_restoreRegions {s : State} (hk : Kept from0 s) (k : Nat) :
    Kept from0 (restoreRegions s k) := by
  unfold restoreRegions
  try dsimp only
  repeat' first
    | with_reducible assumption
    | with_reducible first | apply kept_setReg
    | with_reducible refine kept_foldl ?_ (fun _ _ _ => ?_)
    | with_reducible refine kept_foldl_pair ?_ (fun _ _ _ => ?_)

theorem kept_startChannel {s : State} (hk : Kept from0 s) (h : Nat) :
    Kept from0 (startChannel s h) := by
  unfold startChannel
  try dsimp only
  repeat' first
    | with_reducible assumption
    | with_reducible first | apply kept_setChSt
    | split
    | with_reducible refine kept_mk ?_ rfl rfl rfl rfl rfl rfl rfl rfl rfl rfl rfl rfl rfl rfl rfl rfl rfl

theorem kept_startBlock {s : State} (hk : Kept from0 s) (b : Block) :
    Kept from0 (startBlock s b) := by
  unfold startBlock
  try dsimp only
  repeat' first
    | with_reducible assumption
    | with_reducible first | apply kept_trainVport | apply kept_restoreRegions | apply kept_trainModule | apply kept_startChannel
    | with_reducible refine kept_foldl ?_ (fun _ _ _ => ?_)
    | with_reducible refine kept_foldl_pair ?_ (fun _ _ _ => ?_)
    | split
    | with_reducible refine kept_mk ?_ rfl rfl rfl rfl rfl rfl rfl rfl rfl rfl rfl rfl rfl rfl rfl rfl rfl

theorem kept_execResetLineEnd {s : State} (hk : Kept from0 s) (b : Block) (t : Nat) :
    ∃ sx, execResetLineEnd b t s = .next sx ∧ Kept from0 sx := by
  unfold execResetLineEnd
  try dsimp only
  repeat' first
    | with_reducible assumption
    | with_reducible refine ⟨_, rfl, ?_⟩
    | with_reducible first | apply kept_at | apply kept_startBlock | apply kept_setBlock
    | with_reducible refine kept_fst (by assumption) ?_
    | with_reducible refine kept_ite ?_ ?_
    | split
    | with_reducible refine kept_mk ?_ rfl rfl rfl rfl rfl rfl rfl rfl rfl rfl rfl rfl rfl rfl rfl rfl rfl

theorem kept_finishBlock {s : State} (hk : Kept from0 s) (b : Block) (t : Nat) :
    Kept from0 (finishBlock s b t) := by
  unfold finishBlock
  try dsimp only
  repeat' first
    | with_reducible assumption
    | with_reducible first | apply kept_portUp | apply kept_blockToRun | apply kept_fenceTarget | apply kept_releaseDomains | apply kept_reapply
    | with_reducible refine kept_foldl ?_ (fun _ _ _ => ?_)
    | with_reducible refine kept_foldl_pair ?_ (fun _ _ _ => ?_)
    | with_reducible refine kept_mk ?_ rfl rfl rfl rfl rfl rfl rfl rfl rfl rfl rfl rfl rfl rfl rfl rfl rfl

theorem kept_execBlockRestartDone {s : State} (hk : Kept from0 s) (b : Block) (pass : Bool) (t : Nat) :
    ∃ sx, execBlockRestartDone b pass t s = .next sx ∧ Kept from0 sx := by
  unfold execBlockRestartDone
  try dsimp only
  repeat' first
    | with_reducible assumption
    | with_reducible refine ⟨_, rfl, ?_⟩
    | with_reducible first | apply kept_at | apply kept_finishBlock | apply kept_setBlock
    | with_reducible refine kept_fst (by assumption) ?_
    | with_reducible refine kept_ite ?_ ?_
    | split

theorem kept_warmAgain {s : State} (hk : Kept from0 s) (d : DomainReset) :
    Kept from0 (warmAgain s d) := by
  unfold warmAgain
  try dsimp only
  repeat' first
    | with_reducible assumption
    | with_reducible first | apply kept_openDomain | apply kept_recordCause | apply kept_beginDomain | apply kept_setRegBit | apply kept_logReset
    | with_reducible first | apply kept_syncActive
    | with_reducible refine kept_ite ?_ ?_
    | split
    | with_reducible refine kept_mk ?_ rfl rfl rfl rfl rfl rfl rfl rfl rfl rfl rfl rfl rfl rfl rfl rfl rfl

theorem kept_escalate {s : State} (hk : Kept from0 s) (d : DomainReset) :
    Kept from0 (escalate s d) := by
  unfold escalate
  try dsimp only
  repeat' first
    | with_reducible assumption
    | with_reducible first | apply kept_startReset | apply kept_retireChannel | apply kept_blockToRun | apply kept_warmAgain
    | with_reducible first | apply kept_releaseDomains | apply kept_setRegFld
    | split
    | with_reducible refine kept_mk ?_ rfl rfl rfl rfl rfl rfl rfl rfl rfl rfl rfl rfl rfl rfl rfl rfl rfl

theorem kept_execRestartTimeout {s : State} (hk : Kept from0 s) (kind : BitVec 4) (index : BitVec 8) (t : Nat) :
    ∃ sx, execRestartTimeout kind index t s = .next sx ∧ Kept from0 sx := by
  unfold execRestartTimeout
  try dsimp only
  repeat' first
    | with_reducible assumption
    | with_reducible refine ⟨_, rfl, ?_⟩
    | with_reducible first | apply kept_at | apply kept_escalate | apply kept_logReset
    | with_reducible refine kept_ite ?_ ?_
    | split
    | with_reducible refine kept_mk ?_ rfl rfl rfl rfl rfl rfl rfl rfl rfl rfl rfl rfl rfl rfl rfl rfl rfl

/-! ### Machine/FrameTick.lean -/

theorem kept_resultsEnd {s : State} (hk : Kept from0 s) (f : Nat) :
    Kept from0 (resultsEnd s f) := by
  unfold resultsEnd
  try dsimp only
  repeat' first
    | with_reducible assumption
    | with_reducible first | apply kept_logLehrA | apply kept_markCancel
    | with_reducible refine kept_foldl ?_ (fun _ _ _ => ?_)
    | with_reducible refine kept_foldl_pair ?_ (fun _ _ _ => ?_)
    | split
    | with_reducible refine kept_mk ?_ rfl rfl rfl rfl rfl rfl rfl rfl rfl rfl rfl rfl rfl rfl rfl rfl rfl

theorem kept_expireAll {s : State} (hk : Kept from0 s) (f : Nat) :
    Kept from0 (expireAll s f) := by
  unfold expireAll
  try dsimp only
  repeat' first
    | with_reducible assumption
    | with_reducible first | apply kept_markCancel
    | with_reducible refine kept_foldl ?_ (fun _ _ _ => ?_)
    | with_reducible refine kept_foldl_pair ?_ (fun _ _ _ => ?_)

theorem kept_beginFrames {s : State} (hk : Kept from0 s) (f : Nat) (b : Nat) :
    Kept from0 (beginFrames s f b) := by
  unfold beginFrames
  try dsimp only
  repeat' first
    | with_reducible assumption
    | with_reducible first | apply kept_syncSpec | apply kept_mapCmd
    | with_reducible refine kept_foldl ?_ (fun _ _ _ => ?_)
    | with_reducible refine kept_foldl_pair ?_ (fun _ _ _ => ?_)
    | with_reducible refine kept_mk ?_ rfl rfl rfl rfl rfl rfl rfl rfl rfl rfl rfl rfl rfl rfl rfl rfl rfl

theorem kept_endFrame {s : State} (hk : Kept from0 s) (f : Nat) :
    Kept from0 (endFrame s f) := by
  unfold endFrame
  try dsimp only
  repeat' first
    | with_reducible assumption
    | with_reducible first | apply kept_resultsEnd | apply kept_decideFrame | apply kept_dropTies | apply kept_closeWatchdogs
    | with_reducible refine kept_ite ?_ ?_
    | split
    | with_reducible refine kept_mk ?_ rfl rfl rfl rfl rfl rfl rfl rfl rfl rfl rfl rfl rfl rfl rfl rfl rfl

theorem kept_lehrBBoundary {s : State} (hk : Kept from0 s) (ecc : MemEcc) :
    Kept from0 (lehrBBoundary s ecc) := by
  unfold lehrBBoundary
  try dsimp only
  repeat' first
    | with_reducible assumption
    | with_reducible first | apply kept_readRadcal
    | with_reducible refine kept_ite ?_ ?_
    | split

theorem kept_boundary {s : State} (hk : Kept from0 s) (ecc : MemEcc) (b : Nat) :
    Kept from0 (boundary s ecc b) := by
  unfold boundary
  try dsimp only
  repeat' first
    | with_reducible assumption
    | with_reducible first | apply kept_timerBoundary | apply kept_endFrame | apply kept_endSwitch | apply kept_startSwitch
    | with_reducible first | apply kept_marverBoundary | apply kept_noteMet | apply kept_beginFrames | apply kept_expireAll
    | with_reducible first | apply kept_lehrBBoundary | apply kept_syncActive | apply kept_syncFbReady
    | with_reducible refine kept_ite ?_ ?_
    | split
    | with_reducible refine kept_mk ?_ rfl rfl rfl rfl rfl rfl rfl rfl rfl rfl rfl rfl rfl rfl rfl rfl rfl

theorem kept_execFrameBoundary {s : State} (hk : Kept from0 s) (ecc : MemEcc) (t : Nat) :
    ∃ sx, execFrameBoundary ecc t s = .next sx ∧ Kept from0 sx := by
  unfold execFrameBoundary
  try dsimp only
  repeat' first
    | with_reducible assumption
    | with_reducible refine ⟨_, rfl, ?_⟩
    | with_reducible first | apply kept_boundary | apply kept_at
    | with_reducible refine kept_ite ?_ ?_
    | split

/-! ### Machine/OptionRead.lean -/

theorem kept_programFlash {s : State} (hk : Kept from0 s) (off : Nat) (bs : List Byte) :
    Kept from0 (programFlash s off bs) := by
  unfold programFlash
  try dsimp only
  repeat' first
    | with_reducible assumption
    | with_reducible refine kept_foldl ?_ (fun _ _ _ => ?_)
    | with_reducible refine kept_foldl_pair ?_ (fun _ _ _ => ?_)
    | with_reducible refine kept_mk ?_ rfl rfl rfl rfl rfl rfl rfl rfl rfl rfl rfl rfl rfl rfl rfl rfl rfl

theorem kept_setReader {s : State} (hk : Kept from0 s) (x : ReaderSt) :
    Kept from0 (setReader s x) := by
  unfold setReader
  try dsimp only
  repeat' first
    | with_reducible assumption
    | with_reducible first | apply kept_setRegFld
    | with_reducible refine kept_mk ?_ rfl rfl rfl rfl rfl rfl rfl rfl rfl rfl rfl rfl rfl rfl rfl rfl rfl

theorem kept_startReader {s : State} (hk : Kept from0 s) :
    Kept from0 (startReader s) := by
  unfold startReader
  try dsimp only
  repeat' first
    | with_reducible assumption
    | with_reducible first | apply kept_setRegFld | apply kept_setReader

theorem kept_takeA {s : State} (hk : Kept from0 s) (b : Option (List Byte)) :
    Kept from0 (takeA s b) := by
  unfold takeA
  try dsimp only
  repeat' first
    | with_reducible assumption
    | with_reducible first | apply kept_setReader | apply kept_setRegBit
    | with_reducible refine kept_mk ?_ rfl rfl rfl rfl rfl rfl rfl rfl rfl rfl rfl rfl rfl rfl rfl rfl rfl

theorem kept_takeB {s : State} (hk : Kept from0 s) (b : Option (List Byte)) :
    Kept from0 (takeB s b) := by
  unfold takeB
  try dsimp only
  repeat' first
    | with_reducible assumption
    | with_reducible first | apply kept_setReader | apply kept_setRegBit
    | with_reducible refine kept_mk ?_ rfl rfl rfl rfl rfl rfl rfl rfl rfl rfl rfl rfl rfl rfl rfl rfl rfl

theorem kept_useBlock {s : State} (hk : Kept from0 s) (second : Bool) (b : List Byte) :
    Kept from0 (useBlock s second b) := by
  unfold useBlock
  try dsimp only
  repeat' first
    | with_reducible assumption
    | with_reducible first | apply kept_setReg | apply kept_setRegBit | apply kept_setReader
    | with_reducible refine kept_ite ?_ ?_
    | split

theorem kept_noBlock {s : State} (hk : Kept from0 s) :
    Kept from0 (noBlock s) := by
  unfold noBlock
  try dsimp only
  repeat' first
    | with_reducible assumption
    | with_reducible first | apply kept_logReset | apply kept_syncActive | apply kept_setRegBit | apply kept_setReader
    | with_reducible refine kept_ite ?_ ?_
    | split
    | with_reducible refine kept_mk ?_ rfl rfl rfl rfl rfl rfl rfl rfl rfl rfl rfl rfl rfl rfl rfl rfl rfl

theorem kept_selectBlock {s : State} (hk : Kept from0 s) :
    Kept from0 (selectBlock s) := by
  unfold selectBlock
  try dsimp only
  repeat' first
    | with_reducible assumption
    | with_reducible first | apply kept_noBlock | apply kept_useBlock | apply kept_logReset | apply kept_setRegBit
    | with_reducible refine kept_ite ?_ ?_
    | split
    | with_reducible refine kept_mk ?_ rfl rfl rfl rfl rfl rfl rfl rfl rfl rfl rfl rfl rfl rfl rfl rfl rfl

theorem kept_addColumn {s : State} (hk : Kept from0 s) (c : Nat) (col : Nat) :
    Kept from0 (addColumn s c col) := by
  unfold addColumn
  try dsimp only
  repeat' first
    | with_reducible assumption
    | with_reducible refine kept_ite ?_ ?_
    | split
    | with_reducible refine kept_mk ?_ rfl rfl rfl rfl rfl rfl rfl rfl rfl rfl rfl rfl rfl rfl rfl rfl rfl

theorem kept_takeEntry {s : State} (hk : Kept from0 s) (e : List Byte) :
    Kept from0 (takeEntry s e) := by
  unfold takeEntry
  try dsimp only
  repeat' first
    | with_reducible assumption
    | with_reducible first | apply kept_setRegFld | apply kept_addColumn | apply kept_logReset
    | with_reducible refine kept_ite ?_ ?_
    | split

theorem kept_readLogGo {a1 : State} (hk : Kept from0 a1) (a0 : Nat) (a2 : Nat) (a3 : Nat) :
    Kept from0 (readLogGo a0 a1 a2 a3) := by
  induction a0 generalizing a1 a2 a3 with
  | zero =>
    unfold readLogGo
    try dsimp only
    repeat' first
      | with_reducible assumption
      | with_reducible first | apply kept_takeEntry
      | with_reducible refine kept_ite ?_ ?_
      | split
      | with_reducible refine kept_mk ?_ rfl rfl rfl rfl rfl rfl rfl rfl rfl rfl rfl rfl rfl rfl rfl rfl rfl
  | succ n ih =>
    unfold readLogGo
    try dsimp only
    repeat' first
      | with_reducible assumption
      | with_reducible apply ih
      | with_reducible first | apply kept_takeEntry
      | with_reducible refine kept_ite ?_ ?_
      | split
      | with_reducible refine kept_mk ?_ rfl rfl rfl rfl rfl rfl rfl rfl rfl rfl rfl rfl rfl rfl rfl rfl rfl

theorem kept_readRepairLog {s : State} (hk : Kept from0 s) (most : Nat) :
    Kept from0 (readRepairLog s most) := by
  unfold readRepairLog
  try dsimp only
  repeat' first
    | with_reducible assumption
    | with_reducible first | apply kept_setReader | apply kept_readLogGo
    | split
    | with_reducible refine kept_mk ?_ rfl rfl rfl rfl rfl rfl rfl rfl rfl rfl rfl rfl rfl rfl rfl rfl rfl

theorem kept_applyOptions {s : State} (hk : Kept from0 s) :
    Kept from0 (applyOptions s) := by
  unfold applyOptions
  try dsimp only
  repeat' first
    | with_reducible assumption
    | with_reducible first | apply kept_addColumn | apply kept_setReg | apply kept_setReader | apply kept_applyPairing
    | with_reducible refine kept_foldl ?_ (fun _ _ _ => ?_)
    | with_reducible refine kept_foldl_pair ?_ (fun _ _ _ => ?_)
    | split
    | with_reducible refine kept_mk ?_ rfl rfl rfl rfl rfl rfl rfl rfl rfl rfl rfl rfl rfl rfl rfl rfl rfl

theorem kept_execOptionReadStep {s : State} (hk : Kept from0 s) :
    ∃ sx, execOptionReadStep s = .next sx ∧ Kept from0 sx := by
  unfold execOptionReadStep
  try dsimp only
  repeat' first
    | with_reducible assumption
    | with_reducible refine ⟨_, rfl, ?_⟩
    | with_reducible first | apply kept_takeA | apply kept_takeB | apply kept_selectBlock | apply kept_readRepairLog | apply kept_applyOptions
    | with_reducible refine kept_ite ?_ ?_
    | split
    | with_reducible refine kept_mk ?_ rfl rfl rfl rfl rfl rfl rfl rfl rfl rfl rfl rfl rfl rfl rfl rfl rfl

theorem kept_execFlashCmdTimeout {s : State} (hk : Kept from0 s) (entries : BitVec 13) :
    ∃ sx, execFlashCmdTimeout entries s = .next sx ∧ Kept from0 sx := by
  unfold execFlashCmdTimeout
  try dsimp only
  repeat' first
    | with_reducible assumption
    | with_reducible refine ⟨_, rfl, ?_⟩
    | with_reducible first | apply kept_setRegBit | apply kept_takeA | apply kept_takeB | apply kept_logReset | apply kept_readRepairLog
    | split
    | with_reducible refine kept_mk ?_ rfl rfl rfl rfl rfl rfl rfl rfl rfl rfl rfl rfl rfl rfl rfl rfl rfl

theorem kept_execOptionRetryPause {s : State} (hk : Kept from0 s) :
    ∃ sx, execOptionRetryPause s = .next sx ∧ Kept from0 sx := by
  unfold execOptionRetryPause
  try dsimp only
  repeat' first
    | with_reducible assumption
    | with_reducible refine ⟨_, rfl, ?_⟩
    | with_reducible first | apply kept_setRegFld | apply kept_setReader
    | with_reducible refine kept_ite ?_ ?_
    | split
    | with_reducible refine kept_mk ?_ rfl rfl rfl rfl rfl rfl rfl rfl rfl rfl rfl rfl rfl rfl rfl rfl rfl

theorem kept_logFull {s : State} (hk : Kept from0 s) (c : Nat) (col : Nat) :
    Kept from0 (logFull s c col) := by
  unfold logFull
  try dsimp only
  repeat' first
    | with_reducible assumption
    | with_reducible first | apply kept_logReset | apply kept_setRegBit
    | with_reducible refine kept_mk ?_ rfl rfl rfl rfl rfl rfl rfl rfl rfl rfl rfl rfl rfl rfl rfl rfl rfl

theorem kept_execRepairLogAppend {s0 : State} (hk : Kept from0 s0) (core : Fin 96) (column : Fin 132) (residue : Bool) :
    ∃ sx, execRepairLogAppend core column residue s0 = .next sx ∧ Kept from0 sx := by
  unfold execRepairLogAppend
  try dsimp only
  repeat' first
    | with_reducible assumption
    | with_reducible refine ⟨_, rfl, ?_⟩
    | with_reducible first | apply kept_columnFound | apply kept_logFull | apply kept_programFlash
    | with_reducible refine kept_ite ?_ ?_
    | split
    | with_reducible refine kept_mk ?_ rfl rfl rfl rfl rfl rfl rfl rfl rfl rfl rfl rfl rfl rfl rfl rfl rfl

/-! ### Machine/DeviceReset.lean -/

theorem kept_showImage {s : State} (hk : Kept from0 s) (type : Nat) (i : Option FwImage) :
    Kept from0 (showImage s type i) := by
  unfold showImage
  try dsimp only
  repeat' first
    | with_reducible assumption
    | with_reducible first | apply kept_setRegFld

theorem kept_loadImage {s : State} (hk : Kept from0 s) (type : Nat) :
    Kept from0 (loadImage s type).1 := by
  unfold loadImage
  try dsimp only
  repeat' first
    | with_reducible assumption
    | with_reducible first | apply kept_showImage | apply kept_logCfg
    | with_reducible refine kept_fst (by assumption) ?_
    | with_reducible refine kept_ite ?_ ?_
    | split
    | with_reducible refine kept_mk ?_ rfl rfl rfl rfl rfl rfl rfl rfl rfl rfl rfl rfl rfl rfl rfl rfl rfl

theorem kept_secbootFail {s : State} (hk : Kept from0 s) :
    Kept from0 (secbootFail s) := by
  unfold secbootFail
  try dsimp only
  repeat' first
    | with_reducible assumption
    | with_reducible first | apply kept_syncActive | apply kept_setRegBit | apply kept_logCfg

theorem kept_takeGaffer {s : State} (hk : Kept from0 s) (i : FwImage) :
    Kept from0 (takeGaffer s i) := by
  unfold takeGaffer
  try dsimp only
  repeat' first
    | with_reducible assumption
    | with_reducible refine kept_mk ?_ rfl rfl rfl rfl rfl rfl rfl rfl rfl rfl rfl rfl rfl rfl rfl rfl rfl

theorem kept_bootImages {s : State} (hk : Kept from0 s) :
    Kept from0 (bootImages s) := by
  unfold bootImages
  try dsimp only
  repeat' first
    | with_reducible assumption
    | with_reducible first | apply kept_loadImage | apply kept_setRegBit | apply kept_takeGaffer | apply kept_secbootFail
    | with_reducible refine kept_fst (by assumption) ?_
    | split
    | with_reducible refine kept_mk ?_ rfl rfl rfl rfl rfl rfl rfl rfl rfl rfl rfl rfl rfl rfl rfl rfl rfl

theorem kept_checkGaffer {s : State} (hk : Kept from0 s) :
    Kept from0 (checkGaffer s) := by
  unfold checkGaffer
  try dsimp only
  repeat' first
    | with_reducible assumption
    | with_reducible first | apply kept_loadImage | apply kept_takeGaffer | apply kept_secbootFail
    | with_reducible refine kept_fst (by assumption) ?_
    | with_reducible refine kept_ite ?_ ?_
    | split
    | with_reducible refine kept_mk ?_ rfl rfl rfl rfl rfl rfl rfl rfl rfl rfl rfl rfl rfl rfl rfl rfl rfl

theorem kept_dropLink {s : State} (hk : Kept from0 s) :
    Kept from0 (dropLink s) := by
  unfold dropLink
  try dsimp only
  repeat' first
    | with_reducible assumption
    | with_reducible first | apply kept_resetReg | apply kept_setRegBit | apply kept_syncRings
    | with_reducible refine kept_foldl ?_ (fun _ _ _ => ?_)
    | with_reducible refine kept_foldl_pair ?_ (fun _ _ _ => ?_)
    | with_reducible refine kept_mk ?_ rfl rfl rfl rfl rfl rfl rfl rfl rfl rfl rfl rfl rfl rfl rfl rfl rfl

theorem kept_raiseLink {s : State} (hk : Kept from0 s) :
    Kept from0 (raiseLink s) := by
  unfold raiseLink
  try dsimp only
  repeat' first
    | with_reducible assumption
    | with_reducible first | apply kept_setReg | apply kept_syncRings | apply kept_setRegBit
    | with_reducible refine kept_ite ?_ ?_
    | split
    | with_reducible refine kept_mk ?_ rfl rfl rfl rfl rfl rfl rfl rfl rfl rfl rfl rfl rfl rfl rfl rfl rfl

theorem kept_stopBench {s : State} (hk : Kept from0 s) :
    Kept from0 (stopBench s) := by
  unfold stopBench
  try dsimp only
  repeat' first
    | with_reducible assumption
    | with_reducible first | apply kept_cancelMember | apply kept_markCancel | apply kept_memberFailed | apply kept_setRegFld | apply kept_resetRing
    | with_reducible refine kept_foldl ?_ (fun _ _ _ => ?_)
    | with_reducible refine kept_foldl_pair ?_ (fun _ _ _ => ?_)
    | with_reducible refine kept_ite ?_ ?_
    | split
    | with_reducible refine kept_mk ?_ rfl rfl rfl rfl rfl rfl rfl rfl rfl rfl rfl rfl rfl rfl rfl rfl rfl

theorem kept_fenceSilent {s : State} (hk : Kept from0 s) :
    Kept from0 (fenceSilent s) := by
  unfold fenceSilent
  try dsimp only
  repeat' first
    | with_reducible assumption
    | with_reducible first | apply kept_logReset | apply kept_fenceTarget
    | with_reducible refine kept_foldl ?_ (fun _ _ _ => ?_)
    | with_reducible refine kept_foldl_pair ?_ (fun _ _ _ => ?_)

theorem kept_cleanMemory {s : State} (hk : Kept from0 s) :
    Kept from0 (cleanMemory s) := by
  unfold cleanMemory
  try dsimp only
  repeat' first
    | with_reducible assumption
    | with_reducible first | apply kept_advanceChannel | apply kept_channelContents
    | with_reducible refine kept_foldl ?_ (fun _ _ _ => ?_)
    | with_reducible refine kept_foldl_pair ?_ (fun _ _ _ => ?_)
    | with_reducible refine kept_ite ?_ ?_
    | split

theorem kept_warmConfig {s : State} (hk : Kept from0 s) :
    Kept from0 (warmConfig s) := by
  unfold warmConfig
  try dsimp only
  repeat' first
    | with_reducible assumption
    | with_reducible first | apply kept_setReg | apply kept_setRegBit
    | with_reducible refine kept_mk ?_ rfl rfl rfl rfl rfl rfl rfl rfl rfl rfl rfl rfl rfl rfl rfl rfl rfl
    | ((with_reducible refine kept_mk_logs ?_ rfl rfl rfl rfl rfl rfl rfl rfl rfl ?_ ?_ ?_ ?_ ?_ ?_ ?_ ?_) <;> try first
        | with_reducible exact id
        | with_reducible exact fun l => EvLog.within_push l _ _ _
        | with_reducible exact fun l => EvLog.within_pop l
        | with_reducible exact fun _ => EvLog.within_empty _
        | with_reducible exact fun l => logs_sput l _ (EvLog.within_push (logs_sget l _) _ _ _)
        | with_reducible exact fun l => logs_sput l _ (EvLog.within_pop (logs_sget l _))
        | with_reducible exact fun l => logs_sput l _ (EvLog.within_empty _)
        | exact fun _ => EvLog.within_empty _
        | exact fun _ => Nat.zero_le _
        | exact fun _ _ h => (List.not_mem_nil h).elim
        | exact fun l => logs_sput l _ (EvLog.within_empty _))

theorem kept_keepFailed {s : State} {s' : State} (hk : Kept from0 s) (hk1 : Kept from0 s') :
    Kept from0 (keepFailed s s') := by
  unfold keepFailed
  try dsimp only
  repeat' first
    | with_reducible assumption
    | with_reducible first | apply kept_setRegBit | apply kept_blindUnit
    | with_reducible refine kept_foldl ?_ (fun _ _ _ => ?_)
    | with_reducible refine kept_foldl_pair ?_ (fun _ _ _ => ?_)

theorem kept_warmTherm {s : State} (hk : Kept from0 s) :
    Kept from0 (warmTherm s) := by
  unfold warmTherm
  try dsimp only
  repeat' first
    | with_reducible assumption
    | with_reducible first | apply kept_resetRegsBut | apply kept_setRegFld | apply kept_keepFailed
    | with_reducible refine kept_fst (by assumption) ?_
    | with_reducible refine kept_foldl ?_ (fun _ _ _ => ?_)
    | with_reducible refine kept_foldl_pair ?_ (fun _ _ _ => ?_)
    | with_reducible refine kept_mk ?_ rfl rfl rfl rfl rfl rfl rfl rfl rfl rfl rfl rfl rfl rfl rfl rfl rfl
    | ((with_reducible refine kept_mk_logs ?_ rfl rfl rfl rfl rfl rfl rfl rfl rfl ?_ ?_ ?_ ?_ ?_ ?_ ?_ ?_) <;> try first
        | with_reducible exact id
        | with_reducible exact fun l => EvLog.within_push l _ _ _
        | with_reducible exact fun l => EvLog.within_pop l
        | with_reducible exact fun _ => EvLog.within_empty _
        | with_reducible exact fun l => logs_sput l _ (EvLog.within_push (logs_sget l _) _ _ _)
        | with_reducible exact fun l => logs_sput l _ (EvLog.within_pop (logs_sget l _))
        | with_reducible exact fun l => logs_sput l _ (EvLog.within_empty _)
        | exact fun _ => EvLog.within_empty _
        | exact fun _ => Nat.zero_le _
        | exact fun _ _ h => (List.not_mem_nil h).elim
        | exact fun l => logs_sput l _ (EvLog.within_empty _))

theorem kept_keepOwners {s : State} {s' : State} (hk : Kept from0 s) (hk1 : Kept from0 s') :
    Kept from0 (keepOwners s s') := by
  unfold keepOwners
  try dsimp only
  repeat' first
    | with_reducible assumption
    | with_reducible first | apply kept_setRegFld
    | with_reducible refine kept_foldl ?_ (fun _ _ _ => ?_)
    | with_reducible refine kept_foldl_pair ?_ (fun _ _ _ => ?_)

theorem kept_hostRegs {s : State} (hk : Kept from0 s) :
    Kept from0 (hostRegs s) := by
  unfold hostRegs
  try dsimp only
  repeat' first
    | with_reducible assumption
    | with_reducible first | apply kept_resetRegsBut | apply kept_keepOwners | apply kept_resetRegs | apply kept_setRegFld | apply kept_showStall
    | with_reducible refine kept_fst (by assumption) ?_
    | with_reducible refine kept_foldl ?_ (fun _ _ _ => ?_)
    | with_reducible refine kept_foldl_pair ?_ (fun _ _ _ => ?_)

theorem kept_hostLost {s : State} (hk : Kept from0 s) :
    Kept from0 (hostLost s) := by
  unfold hostLost
  try dsimp only
  repeat' first
    | with_reducible assumption
    | with_reducible refine kept_mk ?_ rfl rfl rfl rfl rfl rfl rfl rfl rfl rfl rfl rfl rfl rfl rfl rfl rfl
    | ((with_reducible refine kept_mk_logs ?_ rfl rfl rfl rfl rfl rfl rfl rfl rfl ?_ ?_ ?_ ?_ ?_ ?_ ?_ ?_) <;> try first
        | with_reducible exact id
        | with_reducible exact fun l => EvLog.within_push l _ _ _
        | with_reducible exact fun l => EvLog.within_pop l
        | with_reducible exact fun _ => EvLog.within_empty _
        | with_reducible exact fun l => logs_sput l _ (EvLog.within_push (logs_sget l _) _ _ _)
        | with_reducible exact fun l => logs_sput l _ (EvLog.within_pop (logs_sget l _))
        | with_reducible exact fun l => logs_sput l _ (EvLog.within_empty _)
        | exact fun _ => EvLog.within_empty _
        | exact fun _ => Nat.zero_le _
        | exact fun _ _ h => (List.not_mem_nil h).elim
        | exact fun l => logs_sput l _ (EvLog.within_empty _))

theorem kept_hostContents {s : State} (hk : Kept from0 s) :
    Kept from0 (hostContents s) := by
  unfold hostContents
  try dsimp only
  repeat' first
    | with_reducible assumption
    | with_reducible first | apply kept_hostLost | apply kept_hostRegs

theorem kept_warmLehr {s : State} (hk : Kept from0 s) :
    Kept from0 (warmLehr s) := by
  unfold warmLehr
  try dsimp only
  repeat' first
    | with_reducible assumption
    | with_reducible first | apply kept_resetRegsBut | apply kept_setRegBit | apply kept_syncActive | apply kept_syncFbReady
    | with_reducible refine kept_foldl ?_ (fun _ _ _ => ?_)
    | with_reducible refine kept_foldl_pair ?_ (fun _ _ _ => ?_)

theorem kept_resetDies {s : State} (hk : Kept from0 s) :
    Kept from0 (resetDies s) := by
  unfold resetDies
  try dsimp only
  repeat' first
    | with_reducible assumption
    | with_reducible first | apply kept_dieContents | apply kept_crucibleContents | apply kept_hostContents | apply kept_warmTherm
    | with_reducible first | apply kept_warmConfig | apply kept_sensorContents | apply kept_recomputeCaps | apply kept_syncRings
    | with_reducible first | apply kept_syncBind
    | with_reducible refine kept_fst (by assumption) ?_
    | with_reducible refine kept_foldl ?_ (fun _ _ _ => ?_)
    | with_reducible refine kept_foldl_pair ?_ (fun _ _ _ => ?_)
    | with_reducible refine kept_mk ?_ rfl rfl rfl rfl rfl rfl rfl rfl rfl rfl rfl rfl rfl rfl rfl rfl rfl

theorem kept_startFabric {s : State} (hk : Kept from0 s) :
    Kept from0 (startFabric s) := by
  unfold startFabric
  try dsimp only
  repeat' first
    | with_reducible assumption
    | with_reducible first | apply kept_restoreRegions | apply kept_trainModule
    | with_reducible refine kept_foldl ?_ (fun _ _ _ => ?_)
    | with_reducible refine kept_foldl_pair ?_ (fun _ _ _ => ?_)

theorem kept_releaseDies {s : State} (hk : Kept from0 s) :
    Kept from0 (releaseDies s) := by
  unfold releaseDies
  try dsimp only
  repeat' first
    | with_reducible assumption
    | with_reducible first | apply kept_setRegBit | apply kept_trainVport
    | with_reducible refine kept_foldl ?_ (fun _ _ _ => ?_)
    | with_reducible refine kept_foldl_pair ?_ (fun _ _ _ => ?_)

theorem kept_warmWork {s : State} (hk : Kept from0 s) (d : DomainReset) (n : Nat) (t : Nat) :
    Kept from0 (warmWork s d n t) := by
  unfold warmWork
  try dsimp only
  repeat' first
    | with_reducible assumption
    | with_reducible first | apply kept_stopBench | apply kept_fenceSilent | apply kept_cleanMemory | apply kept_startFabric
    | with_reducible first | apply kept_warmLehr | apply kept_resetDies | apply kept_checkGaffer | apply kept_startChannel
    | with_reducible first | apply kept_releaseDies | apply kept_reapply | apply kept_raiseLink
    | with_reducible refine kept_foldl ?_ (fun _ _ _ => ?_)
    | with_reducible refine kept_foldl_pair ?_ (fun _ _ _ => ?_)
    | with_reducible refine kept_ite ?_ ?_
    | split
    | with_reducible refine kept_mk ?_ rfl rfl rfl rfl rfl rfl rfl rfl rfl rfl rfl rfl rfl rfl rfl rfl rfl

theorem kept_finishWarm {s : State} (hk : Kept from0 s) (d : DomainReset) :
    Kept from0 (finishWarm s d) := by
  unfold finishWarm
  try dsimp only
  repeat' first
    | with_reducible assumption
    | with_reducible first | apply kept_setReg | apply kept_toHost | apply kept_releaseDomains | apply kept_portUp
    | with_reducible refine kept_foldl ?_ (fun _ _ _ => ?_)
    | with_reducible refine kept_foldl_pair ?_ (fun _ _ _ => ?_)
    | with_reducible refine kept_ite ?_ ?_
    | split
    | with_reducible refine kept_mk ?_ rfl rfl rfl rfl rfl rfl rfl rfl rfl rfl rfl rfl rfl rfl rfl rfl rfl

theorem kept_execDeviceWarmReset {s : State} (hk : Kept from0 s) (t : Nat) :
    ∃ sx, execDeviceWarmReset t s = .next sx ∧ Kept from0 sx := by
  unfold execDeviceWarmReset
  try dsimp only
  repeat' first
    | with_reducible assumption
    | with_reducible refine ⟨_, rfl, ?_⟩
    | with_reducible first | apply kept_at | apply kept_finishWarm | apply kept_warmWork | apply kept_setRegFld
    | with_reducible refine kept_ite ?_ ?_
    | split
    | with_reducible refine kept_mk ?_ rfl rfl rfl rfl rfl rfl rfl rfl rfl rfl rfl rfl rfl rfl rfl rfl rfl

theorem kept_resetTable {s : State} (hk : Kept from0 s) (k : Nat) :
    Kept from0 (resetTable s k) := by
  unfold resetTable
  try dsimp only
  repeat' first
    | with_reducible assumption
    | with_reducible first | apply kept_setReg
    | with_reducible refine kept_mk ?_ rfl rfl rfl rfl rfl rfl rfl rfl rfl rfl rfl rfl rfl rfl rfl rfl rfl

theorem kept_startLehr {s : State} (hk : Kept from0 s) :
    Kept from0 (startLehr s) := by
  unfold startLehr
  try dsimp only
  repeat' first
    | with_reducible assumption
    | with_reducible first | apply kept_startReader
    | with_reducible refine kept_mk ?_ rfl rfl rfl rfl rfl rfl rfl rfl rfl rfl rfl rfl rfl rfl rfl rfl rfl

theorem kept_startCrucibles {s : State} (hk : Kept from0 s) :
    Kept from0 (startCrucibles s) := by
  unfold startCrucibles
  try dsimp only
  repeat' first
    | with_reducible assumption
    | with_reducible first | apply kept_bootImages | apply kept_trainModule | apply kept_resetTable
    | with_reducible refine kept_foldl ?_ (fun _ _ _ => ?_)
    | with_reducible refine kept_foldl_pair ?_ (fun _ _ _ => ?_)
    | with_reducible refine kept_mk ?_ rfl rfl rfl rfl rfl rfl rfl rfl rfl rfl rfl rfl rfl rfl rfl rfl rfl

theorem kept_coldWork {s : State} (hk : Kept from0 s) (n : Nat) :
    Kept from0 (coldWork s n) := by
  unfold coldWork
  try dsimp only
  repeat' first
    | with_reducible assumption
    | with_reducible first | apply kept_startLehr | apply kept_startCrucibles | apply kept_startChannel | apply kept_releaseDies
    | with_reducible first | apply kept_raiseLink
    | with_reducible refine kept_foldl ?_ (fun _ _ _ => ?_)
    | with_reducible refine kept_foldl_pair ?_ (fun _ _ _ => ?_)
    | split
    | with_reducible refine kept_mk ?_ rfl rfl rfl rfl rfl rfl rfl rfl rfl rfl rfl rfl rfl rfl rfl rfl rfl

theorem kept_finishCold {s : State} (hk : Kept from0 s) :
    Kept from0 (finishCold s) := by
  unfold finishCold
  try dsimp only
  repeat' first
    | with_reducible assumption
    | with_reducible first | apply kept_setReg | apply kept_releaseDomains | apply kept_portUp
    | with_reducible refine kept_foldl ?_ (fun _ _ _ => ?_)
    | with_reducible refine kept_foldl_pair ?_ (fun _ _ _ => ?_)
    | with_reducible refine kept_mk ?_ rfl rfl rfl rfl rfl rfl rfl rfl rfl rfl rfl rfl rfl rfl rfl rfl rfl

theorem kept_execDeviceColdReset {s : State} (hk : Kept from0 s) (t : Nat) :
    ∃ sx, execDeviceColdReset t s = .next sx ∧ Kept from0 sx := by
  unfold execDeviceColdReset
  try dsimp only
  repeat' first
    | with_reducible assumption
    | with_reducible refine ⟨_, rfl, ?_⟩
    | with_reducible first | apply kept_at | apply kept_finishCold | apply kept_coldWork | apply kept_setRegFld | apply kept_startCold
    | with_reducible refine kept_ite ?_ ?_
    | split

/-! ### Machine/Pins.lean -/

theorem kept_resetLehrA {s : State} (hk : Kept from0 s) :
    Kept from0 (resetLehrA s) := by
  unfold resetLehrA
  try dsimp only
  repeat' first
    | with_reducible assumption
    | with_reducible first | apply kept_setRegBit | apply kept_resetRegsBut | apply kept_dropProposal
    | with_reducible refine kept_mk ?_ rfl rfl rfl rfl rfl rfl rfl rfl rfl rfl rfl rfl rfl rfl rfl rfl rfl
    | ((with_reducible refine kept_mk_logs ?_ rfl rfl rfl rfl rfl rfl rfl rfl rfl ?_ ?_ ?_ ?_ ?_ ?_ ?_ ?_) <;> try first
        | with_reducible exact id
        | with_reducible exact fun l => EvLog.within_push l _ _ _
        | with_reducible exact fun l => EvLog.within_pop l
        | with_reducible exact fun _ => EvLog.within_empty _
        | with_reducible exact fun l => logs_sput l _ (EvLog.within_push (logs_sget l _) _ _ _)
        | with_reducible exact fun l => logs_sput l _ (EvLog.within_pop (logs_sget l _))
        | with_reducible exact fun l => logs_sput l _ (EvLog.within_empty _)
        | exact fun _ => EvLog.within_empty _
        | exact fun _ => Nat.zero_le _
        | exact fun _ _ h => (List.not_mem_nil h).elim
        | exact fun l => logs_sput l _ (EvLog.within_empty _))

theorem kept_aloneAgain {s : State} (hk : Kept from0 s) :
    Kept from0 (aloneAgain s) := by
  unfold aloneAgain
  try dsimp only
  repeat' first
    | with_reducible assumption
    | with_reducible first | apply kept_syncActive | apply kept_setRegBit
    | with_reducible refine kept_mk ?_ rfl rfl rfl rfl rfl rfl rfl rfl rfl rfl rfl rfl rfl rfl rfl rfl rfl

theorem kept_ballA {s : State} (hk : Kept from0 s) :
    Kept from0 (ballA s) := by
  unfold ballA
  try dsimp only
  repeat' first
    | with_reducible assumption
    | with_reducible first | apply kept_logReset | apply kept_resetLehrA | apply kept_loseA | apply kept_startReset | apply kept_aloneAgain
    | with_reducible refine kept_ite ?_ ?_
    | split

theorem kept_resetLehrB {s : State} (hk : Kept from0 s) :
    Kept from0 (resetLehrB s) := by
  unfold resetLehrB
  try dsimp only
  repeat' first
    | with_reducible assumption
    | with_reducible first | apply kept_resetRegs | apply kept_syncActive
    | with_reducible refine kept_mk ?_ rfl rfl rfl rfl rfl rfl rfl rfl rfl rfl rfl rfl rfl rfl rfl rfl rfl
    | ((with_reducible refine kept_mk_logs ?_ rfl rfl rfl rfl rfl rfl rfl rfl rfl ?_ ?_ ?_ ?_ ?_ ?_ ?_ ?_) <;> try first
        | with_reducible exact id
        | with_reducible exact fun l => EvLog.within_push l _ _ _
        | with_reducible exact fun l => EvLog.within_pop l
        | with_reducible exact fun _ => EvLog.within_empty _
        | with_reducible exact fun l => logs_sput l _ (EvLog.within_push (logs_sget l _) _ _ _)
        | with_reducible exact fun l => logs_sput l _ (EvLog.within_pop (logs_sget l _))
        | with_reducible exact fun l => logs_sput l _ (EvLog.within_empty _)
        | exact fun _ => EvLog.within_empty _
        | exact fun _ => Nat.zero_le _
        | exact fun _ _ h => (List.not_mem_nil h).elim
        | exact fun l => logs_sput l _ (EvLog.within_empty _))

theorem kept_ballB {s : State} (hk : Kept from0 s) :
    Kept from0 (ballB s) := by
  unfold ballB
  try dsimp only
  repeat' first
    | with_reducible assumption
    | with_reducible first | apply kept_logReset | apply kept_startReset | apply kept_resetLehrB | apply kept_loseB
    | with_reducible refine kept_ite ?_ ?_
    | split

theorem kept_execLehraRstn {s : State} (hk : Kept from0 s) (us : Nat) (acted : Bool) (t : Nat) :
    ∃ sx, execLehraRstn us acted t s = .next sx ∧ Kept from0 sx := by
  unfold execLehraRstn
  try dsimp only
  repeat' first
    | with_reducible assumption
    | with_reducible refine ⟨_, rfl, ?_⟩
    | with_reducible first | apply kept_at | apply kept_ballA
    | with_reducible refine kept_ite ?_ ?_
    | split

theorem kept_execLehrbRstn {s : State} (hk : Kept from0 s) (us : Nat) (acted : Bool) (t : Nat) :
    ∃ sx, execLehrbRstn us acted t s = .next sx ∧ Kept from0 sx := by
  unfold execLehrbRstn
  try dsimp only
  repeat' first
    | with_reducible assumption
    | with_reducible refine ⟨_, rfl, ?_⟩
    | with_reducible first | apply kept_at | apply kept_ballB
    | with_reducible refine kept_ite ?_ ?_
    | split

theorem kept_execSysRstn {s : State} (hk : Kept from0 s) (level : Bool) (us : Nat) (acted : Bool) (t : Nat) :
    ∃ sx, execSysRstn level us acted t s = .next sx ∧ Kept from0 sx := by
  unfold execSysRstn
  try dsimp only
  repeat' first
    | with_reducible assumption
    | with_reducible refine ⟨_, rfl, ?_⟩
    | with_reducible first | apply kept_at | apply kept_startCold
    | with_reducible refine kept_ite ?_ ?_
    | split
    | with_reducible refine kept_mk ?_ rfl rfl rfl rfl rfl rfl rfl rfl rfl rfl rfl rfl rfl rfl rfl rfl rfl

theorem kept_resetLink {s : State} (hk : Kept from0 s) (source : Nat) :
    Kept from0 (resetLink s source) := by
  unfold resetLink
  try dsimp only
  repeat' first
    | with_reducible assumption
    | with_reducible first | apply kept_logReset | apply kept_startReset | apply kept_dropLink
    | with_reducible refine kept_ite ?_ ?_
    | split

theorem kept_execPciePerstn {s : State} (hk : Kept from0 s) (us : Nat) (acted : Bool) (t : Nat) :
    ∃ sx, execPciePerstn us acted t s = .next sx ∧ Kept from0 sx := by
  unfold execPciePerstn
  try dsimp only
  repeat' first
    | with_reducible assumption
    | with_reducible refine ⟨_, rfl, ?_⟩
    | with_reducible first | apply kept_at | apply kept_resetLink
    | with_reducible refine kept_ite ?_ ?_
    | split
    | with_reducible refine kept_mk ?_ rfl rfl rfl rfl rfl rfl rfl rfl rfl rfl rfl rfl rfl rfl rfl rfl rfl

theorem kept_execPcieHotReset {s : State} (hk : Kept from0 s) (t : Nat) :
    ∃ sx, execPcieHotReset t s = .next sx ∧ Kept from0 sx := by
  unfold execPcieHotReset
  try dsimp only
  repeat' first
    | with_reducible assumption
    | with_reducible refine ⟨_, rfl, ?_⟩
    | with_reducible first | apply kept_resetLink | apply kept_at

theorem kept_execPciePerstnRise {s : State} (hk : Kept from0 s) (rate : BitVec 3) (width : BitVec 5) (flit : Bool) (t : Nat) :
    ∃ sx, execPciePerstnRise rate width flit t s = .next sx ∧ Kept from0 sx := by
  unfold execPciePerstnRise
  try dsimp only
  repeat' first
    | with_reducible assumption
    | with_reducible refine ⟨_, rfl, ?_⟩
    | with_reducible first | apply kept_at | apply kept_finishCold | apply kept_raiseLink | apply kept_finishWarm
    | with_reducible refine kept_ite ?_ ?_
    | split
    | with_reducible refine kept_mk ?_ rfl rfl rfl rfl rfl rfl rfl rfl rfl rfl rfl rfl rfl rfl rfl rfl rfl

theorem kept_mainDown {s : State} (hk : Kept from0 s) :
    Kept from0 (mainDown s) := by
  unfold mainDown
  try dsimp only
  repeat' first
    | with_reducible assumption
    | with_reducible first | apply kept_dropLink | apply kept_resetDies | apply kept_cleanMemory | apply kept_stopBench | apply kept_setRegBit
    | with_reducible refine kept_mk ?_ rfl rfl rfl rfl rfl rfl rfl rfl rfl rfl rfl rfl rfl rfl rfl rfl rfl

theorem kept_execMainRailFail {s : State} (hk : Kept from0 s) (t : Nat) :
    ∃ sx, execMainRailFail t s = .next sx ∧ Kept from0 sx := by
  unfold execMainRailFail
  try dsimp only
  repeat' first
    | with_reducible assumption
    | with_reducible refine ⟨_, rfl, ?_⟩
    | with_reducible first | apply kept_at | apply kept_mainDown
    | with_reducible refine kept_ite ?_ ?_
    | split

theorem kept_execLehrRailFail {s : State} (hk : Kept from0 s) (isB : Bool) (t : Nat) :
    ∃ sx, execLehrRailFail isB t s = .next sx ∧ Kept from0 sx := by
  unfold execLehrRailFail
  try dsimp only
  repeat' first
    | with_reducible assumption
    | with_reducible refine ⟨_, rfl, ?_⟩
    | with_reducible first | apply kept_at | apply kept_ballB | apply kept_ballA
    | with_reducible refine kept_ite ?_ ?_
    | split

theorem kept_loseDram {s : State} (hk : Kept from0 s) : Kept from0 (loseDram s) :=
  ⟨hk.pending, hk.fresh, hk.regs, rfl, hk.logs, hk.can, hk.host, hk.sent, hk.arb, hk.dbg⟩

theorem kept_railsOffA {s : State} (hk : Kept from0 s) :
    Kept from0 (railsOffA s) := by
  unfold railsOffA
  try dsimp only
  repeat' first
    | with_reducible assumption
    | with_reducible refine kept_mk ?_ rfl rfl rfl rfl rfl rfl rfl rfl rfl rfl rfl rfl rfl rfl rfl rfl rfl

theorem kept_railsOffB {s : State} (hk : Kept from0 s) :
    Kept from0 (railsOffB s) := by
  unfold railsOffB
  try dsimp only
  repeat' first
    | with_reducible assumption
    | with_reducible refine kept_mk ?_ rfl rfl rfl rfl rfl rfl rfl rfl rfl rfl rfl rfl rfl rfl rfl rfl rfl

theorem kept_execRailFall {s : State} (hk : Kept from0 s) (lehrA : Bool) (lehrB : Bool) (main : Bool) (t : Nat) :
    ∃ sx, execRailFall lehrA lehrB main t s = .next sx ∧ Kept from0 sx := by
  unfold execRailFall
  try dsimp only
  repeat' first
    | with_reducible assumption
    | with_reducible refine ⟨_, rfl, ?_⟩
    | with_reducible first | apply kept_at | apply kept_loseDram | apply kept_mainDown | apply kept_railsOffA | apply kept_railsOffB
    | with_reducible refine kept_ite ?_ ?_
    | split

theorem kept_execPowerGood {s : State} (hk : Kept from0 s) (t : Nat) :
    ∃ sx, execPowerGood t s = .next sx ∧ Kept from0 sx := by
  unfold execPowerGood
  try dsimp only
  repeat' first
    | with_reducible assumption
    | with_reducible refine ⟨_, rfl, ?_⟩
    | with_reducible first | apply kept_at | apply kept_setRegFld | apply kept_startReader | apply kept_startCold
    | with_reducible refine kept_ite ?_ ?_
    | split
    | with_reducible refine kept_mk ?_ rfl rfl rfl rfl rfl rfl rfl rfl rfl rfl rfl rfl rfl rfl rfl rfl rfl

theorem kept_execJtagInstruction {s : State} (hk : Kept from0 s) (ir : JtagIr) :
    ∃ sx, execJtagInstruction ir s = .next sx ∧ Kept from0 sx := by
  unfold execJtagInstruction
  try dsimp only
  repeat' first
    | with_reducible assumption
    | with_reducible refine ⟨_, rfl, ?_⟩
    | with_reducible refine kept_ite ?_ ?_
    | split
    | with_reducible refine kept_mk ?_ rfl rfl rfl rfl rfl rfl rfl rfl rfl rfl rfl rfl rfl rfl rfl rfl rfl

/-! ### Machine/Triggers.lean -/

theorem kept_fireTrigger {s : State} (hk : Kept from0 s) (ecc : MemEcc) (a : TrigArmed) :
    Kept from0 (fireTrigger s ecc a) := by
  unfold fireTrigger
  try dsimp only
  repeat' first
    | with_reducible assumption
    | with_reducible first | apply kept_devRead | apply kept_setRegBit | apply kept_trackGo | apply kept_logMarver | apply kept_scatterGo
    | with_reducible refine kept_fst (by assumption) ?_
    | with_reducible refine kept_ite ?_ ?_
    | split
    | with_reducible refine kept_mk ?_ rfl rfl rfl rfl rfl rfl rfl rfl rfl rfl rfl rfl rfl rfl rfl rfl rfl

theorem kept_execMarverTriggerFire {s : State} (hk : Kept from0 s) (ecc : MemEcc) (t : Nat) :
    ∃ sx, execMarverTriggerFire ecc t s = .next sx ∧ Kept from0 sx := by
  unfold execMarverTriggerFire
  try dsimp only
  repeat' first
    | with_reducible assumption
    | with_reducible refine ⟨_, rfl, ?_⟩
    | with_reducible first | apply kept_at | apply kept_fireTrigger | apply kept_commitRecordOf
    | with_reducible refine kept_ite ?_ ?_
    | split
    | with_reducible refine kept_mk ?_ rfl rfl rfl rfl rfl rfl rfl rfl rfl rfl rfl rfl rfl rfl rfl rfl rfl

end Sys2Proof.Machine
end

