-- ==== Sys2Proof/Laws/KeptExec.lean ====
section
/-! SUPPORT. Every command answers a next state and keeps what must be kept. -/

namespace Sys2Proof.Machine

variable {from0 : State}

/-- Every command is carried out: none faults and none is refused. The queue, the free-value counter, the sparse tables, the event logs, the fuses
and what has left the device stay in order. -/
theorem kept_exec {s : State} (hk : Kept from0 s) (c : Instr) : ∃ sx, exec c s = .next sx ∧ Kept from0 sx := by
  cases c with
  | frameBoundary ecc t => exact kept_execFrameBoundary hk ecc t
  | frameTimerEnable who t => exact kept_execFrameTimerEnable hk who t
  | frameTimerDisable who => exact kept_execFrameTimerDisable hk who
  | frmperWrite who v => exact kept_execFrmperWrite hk who v
  | frmphaseWrite who v => exact kept_execFrmphaseWrite hk who v
  | frmcntWrite who v => exact kept_execFrmcntWrite hk who v
  | csrWrite acc off wide v t => exact kept_execCsrWrite hk acc off wide v t
  | deviceTimeAdjust add t => exact kept_execDeviceTimeAdjust hk add t
  | coreResetRelease core => exact kept_execCoreResetRelease hk core
  | repairDone core => exact kept_execRepairDone hk core
  | selftestDone core fail t => exact kept_execSelftestDone hk core fail t
  | heldRelease core => exact kept_execHeldRelease hk core
  | quarantineRestart core t => exact kept_execQuarantineRestart hk core t
  | dispatch ecc t => exact kept_execDispatch hk ecc t
  | partitionClearDone core => exact kept_execPartitionClearDone hk core
  | checkpointResume core ecc => exact kept_execCheckpointResume hk core ecc
  | programEnd core t => exact kept_execProgramEnd hk core t
  | faultAck core => exact kept_execFaultAck hk core
  | kill core t => exact kept_execKill hk core t
  | killSettled core => exact kept_execKillSettled hk core
  | checkpointRequest core t => exact kept_execCheckpointRequest hk core t
  | checkpointBoundary core t => exact kept_execCheckpointBoundary hk core t
  | checkpointSaveDone core meets t => exact kept_execCheckpointSaveDone hk core meets t
  | haltreq acc core t => exact kept_execHaltreq hk acc core t
  | resume acc core t => exact kept_execResume hk acc core t
  | restartreq acc core t => exact kept_execRestartreq hk acc core t
  | breakpointHit core t => exact kept_execBreakpointHit hk core t
  | tpstep acc core stream ph => exact kept_execTpstep hk acc core stream ph
  | debugHaltPoint core => exact kept_execDebugHaltPoint hk core
  | coreWindowAccess acc core word access => exact kept_execCoreWindowAccess hk acc core word access
  | steprateUpdate core steps cap t => exact kept_execSteprateUpdate hk core steps cap t
  | stepminWrite core => exact kept_execStepminWrite hk core
  | weightSwap core => exact kept_execWeightSwap hk core
  | instructionFetch core stream index ecc => exact kept_execInstructionFetch hk core stream index ecc
  | instrComplete core stream word => exact kept_execInstrComplete hk core stream word
  | starvedFault core => exact kept_execStarvedFault hk core
  | coreSyncWrite acc core n v => exact kept_execCoreSyncWrite hk acc core n v
  | clr core => exact kept_execClr hk core
  | wld core ph => exact kept_execWld hk core ph
  | mm core ph => exact kept_execMm hk core ph
  | drn core ph => exact kept_execDrn hk core ph
  | vld core ecc => exact kept_execVld hk core ecc
  | vst core ecc => exact kept_execVst hk core ecc
  | vldsc core ecc => exact kept_execVldsc hk core ecc
  | vbc core => exact kept_execVbc hk core
  | vadd core => exact kept_execVadd hk core
  | vsub core => exact kept_execVsub hk core
  | vmul core => exact kept_execVmul hk core
  | vfma core => exact kept_execVfma hk core
  | vdiv core => exact kept_execVdiv hk core
  | vsqrt core => exact kept_execVsqrt hk core
  | vmin core => exact kept_execVmin hk core
  | vmax core => exact kept_execVmax hk core
  | vabs core => exact kept_execVabs hk core
  | vneg core => exact kept_execVneg hk core
  | vcmp core => exact kept_execVcmp hk core
  | vsel core => exact kept_execVsel hk core
  | vand core => exact kept_execVand hk core
  | vor core => exact kept_execVor hk core
  | vxor core => exact kept_execVxor hk core
  | vshl core => exact kept_execVshl hk core
  | vshr core => exact kept_execVshr hk core
  | vcvt core => exact kept_execVcvt hk core
  | vqnt core => exact kept_execVqnt hk core
  | vexp2 core => exact kept_execVexp2 hk core
  | vlog2 core => exact kept_execVlog2 hk core
  | vrcp core => exact kept_execVrcp hk core
  | vrsqrt core => exact kept_execVrsqrt hk core
  | vsigm core => exact kept_execVsigm hk core
  | vtanh core => exact kept_execVtanh hk core
  | vgelu core => exact kept_execVgelu hk core
  | vexpd core => exact kept_execVexpd hk core
  | vrsum core => exact kept_execVrsum hk core
  | vrmax core => exact kept_execVrmax hk core
  | vrmin core => exact kept_execVrmin hk core
  | vrssq core => exact kept_execVrssq hk core
  | ld core ph => exact kept_execLd hk core ph
  | ldacc core ph => exact kept_execLdacc hk core ph
  | st core ph => exact kept_execSt hk core ph
  | stacc core ph => exact kept_execStacc hk core ph
  | stsig core ph => exact kept_execStsig hk core ph
  | gidx core ph => exact kept_execGidx hk core ph
  | gpage core ph => exact kept_execGpage hk core ph
  | nop core stream => exact kept_execNop hk core stream
  | endStream core stream => exact kept_execEndStream hk core stream
  | ckpt core stream => exact kept_execCkpt hk core stream
  | fence core stream => exact kept_execFence hk core stream
  | commitNotice core part seq => exact kept_execCommitNotice hk core part seq
  | discardNotice core part seq => exact kept_execDiscardNotice hk core part seq
  | runReport t => exact kept_execRunReport hk t
  | cancellationNotice part seq => exact kept_execCancellationNotice hk part seq
  | walk core tag handle pos npos pad => exact kept_execWalk hk core tag handle pos npos pad
  | walkrsp core tag => exact kept_execWalkrsp hk core tag
  | rollback part seq => exact kept_execRollback hk part seq
  | pageReturn cruc => exact kept_execPageReturn hk cruc
  | poolPageScrubbed cruc page => exact kept_execPoolPageScrubbed hk cruc page
  | pageTableUncorrectable cruc sq => exact kept_execPageTableUncorrectable hk cruc sq
  | createSeq who cruc part => exact kept_execCreateSeq hk who cruc part
  | freeSeq who cruc part sq => exact kept_execFreeSeq hk who cruc part sq
  | truncateSeq who cruc part sq arg => exact kept_execTruncateSeq hk who cruc part sq arg
  | setseg who cruc part sq => exact kept_execSetseg hk who cruc part sq
  | loadbias who cruc part arg ecc => exact kept_execLoadbias hk who cruc part arg ecc
  | poolConfigWrite who cruc cfg v => exact kept_execPoolConfigWrite hk who cruc cfg v
  | cameraPortTraining port ok => exact kept_execCameraPortTraining hk port ok
  | csi2Packet port vc dt data hdrErr crcErr full t => exact kept_execCsi2Packet hk port vc dt data hdrErr crcErr full t
  | ethFrameReceive port frame fcsOk full t => exact kept_execEthFrameReceive hk port frame fcsOk full t
  | injectedEntryRelease stream ecc t => exact kept_execInjectedEntryRelease hk stream ecc t
  | injwrWrite stream v => exact kept_execInjwrWrite hk stream v
  | streamEnable stream t => exact kept_execStreamEnable hk stream t
  | streamDisable stream => exact kept_execStreamDisable hk stream
  | servoHoldTimeout stream t => exact kept_execServoHoldTimeout hk stream t
  | servoHoldmaxTimeout stream t => exact kept_execServoHoldmaxTimeout hk stream t
  | gptpSync domain sq twoStep origin corr t => exact kept_execGptpSync hk domain sq twoStep origin corr t
  | gptpFollowUp domain sq origin corr t => exact kept_execGptpFollowUp hk domain sq origin corr t
  | gptpAnnounce domain gm => exact kept_execGptpAnnounce hk domain gm
  | pdelayReqSend sq t => exact kept_execPdelayReqSend hk sq t
  | pdelayResp sq t2 t3 t => exact kept_execPdelayResp hk sq t2 t3 t
  | gptpSyncTimeout t => exact kept_execGptpSyncTimeout hk t
  | steerHoldoverExpiry t => exact kept_execSteerHoldoverExpiry hk t
  | marverCloseWrite frame done updated ecc t => exact kept_execMarverCloseWrite hk frame done updated ecc t
  | periodClose done updated ecc t => exact kept_execPeriodClose hk done updated ecc t
  | poseWrite v ecc => exact kept_execPoseWrite hk v ecc
  | projectionDone updated ecc t => exact kept_execProjectionDone hk updated ecc t
  | modeRequest v => exact kept_execModeRequest hk v
  | scatgo who frame nent t => exact kept_execScatgo hk who frame nent t
  | scatterDone ecc t => exact kept_execScatterDone hk ecc t
  | scatterDeadline t => exact kept_execScatterDeadline hk t
  | trkgo who frame ndet t => exact kept_execTrkgo hk who frame ndet t
  | mainRunStart updated ecc t => exact kept_execMainRunStart hk updated ecc t
  | mainRunDeadline updated ecc t => exact kept_execMainRunDeadline hk updated ecc t
  | mainRunDone bad ecc t => exact kept_execMainRunDone hk bad ecc t
  | fallbackRunDone bad ecc t => exact kept_execFallbackRunDone hk bad ecc t
  | plausibilityEval t => exact kept_execPlausibilityEval hk t
  | marverEvlogRead => exact kept_execMarverEvlogRead hk
  | sqTailDoorbell fn ring place v => exact kept_execSqTailDoorbell hk fn ring place v
  | cqHeadDoorbell fn ring place v => exact kept_execCqHeadDoorbell hk fn ring place v
  | entryConsume ring entry ecc t => exact kept_execEntryConsume hk ring entry ecc t
  | entryReadError ring => exact kept_execEntryReadError hk ring
  | recordWriteRefused ring => exact kept_execRecordWriteRefused hk ring
  | ringEnable who ring => exact kept_execRingEnable hk who ring
  | ringDisable who ring => exact kept_execRingDisable hk who ring
  | bar4Read fn off lenm1 ecc => exact kept_execBar4Read hk fn off lenm1 ecc
  | bar4Write fn off bytes => exact kept_execBar4Write hk fn off bytes
  | functionLevelReset fn t => exact kept_execFunctionLevelReset hk fn t
  | runLayer part seq ecc t => exact kept_execRunLayer hk part seq ecc t
  | runKernel part seq ecc t => exact kept_execRunKernel hk part seq ecc t
  | registerLayer part seq ecc t => exact kept_execRegisterLayer hk part seq ecc t
  | unregisterLayer part seq t => exact kept_execUnregisterLayer hk part seq t
  | copyBlock part seq hostData hostOk ecc t => exact kept_execCopyBlock hk part seq hostData hostOk ecc t
  | fillBlock part seq t => exact kept_execFillBlock hk part seq t
  | seqOp part seq ecc t => exact kept_execSeqOp hk part seq ecc t
  | frameResult part seq t => exact kept_execFrameResult hk part seq t
  | sensorMgmt part seq ack data ecc t => exact kept_execSensorMgmt hk part seq ack data ecc t
  | configPropose part seq ecc t => exact kept_execConfigPropose hk part seq ecc t
  | configCommit part seq ecc reached t => exact kept_execConfigCommit hk part seq ecc reached t
  | nopCommand part seq t => exact kept_execNopCommand hk part seq t
  | abort part seq t => exact kept_execAbort hk part seq t
  | commandReady part seq t => exact kept_execCommandReady hk part seq t
  | commandStart part seq ecc t => exact kept_execCommandStart hk part seq ecc t
  | runEnd core t => exact kept_execRunEnd hk core t
  | runFault core t => exact kept_execRunFault hk core t
  | runLimitExpired core t => exact kept_execRunLimitExpired hk core t
  | commitCommand part seq flip => exact kept_execCommitCommand hk part seq flip
  | marverTriggerFire ecc t => exact kept_execMarverTriggerFire hk ecc t
  | spillCopyDone cruc => exact kept_execSpillCopyDone hk cruc
  | preempt staging t => exact kept_execPreempt hk staging t
  | preemptQuantum part seq t => exact kept_execPreemptQuantum hk part seq t
  | checkpointWaitTimeout core t => exact kept_execCheckpointWaitTimeout hk core t
  | cancellationClosure part seq t => exact kept_execCancellationClosure hk part seq t
  | closureDone part t => exact kept_execClosureDone hk part t
  | accountingTick core t => exact kept_execAccountingTick hk core t
  | reheatSliceStart die t => exact kept_execReheatSliceStart hk die t
  | reheatPatternDone core pass t => exact kept_execReheatPatternDone hk core pass t
  | reheatSliceEnd core => exact kept_execReheatSliceEnd hk core
  | reheatAbort core ended t => exact kept_execReheatAbort hk core ended t
  | reheatOverdue core t => exact kept_execReheatOverdue hk core t
  | sig crcOk t => exact kept_execSig hk crcOk t
  | decisionTime t => exact kept_execDecisionTime hk t
  | fallbackBlock buf t => exact kept_execFallbackBlock hk buf t
  | radarPacket port payload t => exact kept_execRadarPacket hk port payload t
  | planCheckRequest frame t => exact kept_execPlanCheckRequest hk frame t
  | envelopeVerdict ecc t => exact kept_execEnvelopeVerdict hk ecc t
  | fallbackPlanLate t => exact kept_execFallbackPlanLate hk t
  | fallbackPlanDone t => exact kept_execFallbackPlanDone hk t
  | watchdogKick who stage frame t => exact kept_execWatchdogKick hk who stage frame t
  | watchdogClose stage t => exact kept_execWatchdogClose hk stage t
  | comparatorTest pass => exact kept_execComparatorTest hk pass
  | dieHeartbeatTimeout die t => exact kept_execDieHeartbeatTimeout hk die t
  | ringTokenTimeout seg t => exact kept_execRingTokenTimeout hk seg t
  | gafhbWrite who t => exact kept_execGafhbWrite hk who t
  | gafferHeartbeatTimeout t => exact kept_execGafferHeartbeatTimeout hk t
  | lehrHeartbeatTimeout lostB t => exact kept_execLehrHeartbeatTimeout hk lostB t
  | lockstepMismatch lehrB t => exact kept_execLockstepMismatch hk lehrB t
  | lehraTakeover t => exact kept_execLehraTakeover hk t
  | deviceTimeHandover t => exact kept_execDeviceTimeHandover hk t
  | lehraEvlogRead => exact kept_execLehraEvlogRead hk
  | rd node who tag cls addr want ecc cache t => exact kept_execRd hk node who tag cls addr want ecc cache t
  | wr node who tag cls addr want data t => exact kept_execWr hk node who tag cls addr want data t
  | recPacket node who tag cls addr sq tile base rowsM1 data t => exact kept_execRecPacket hk node who tag cls addr sq tile base rowsM1 data t
  | rdrsp node tag => exact kept_execRdrsp hk node tag
  | wrack node tag => exact kept_execWrack hk node tag
  | csrrd node who tag cls off want t => exact kept_execCsrrd hk node who tag cls off want t
  | csrwr node who tag cls off want v t => exact kept_execCsrwr hk node who tag cls off want v t
  | csrrsp node tag => exact kept_execCsrrsp hk node tag
  | ack link up sq crc => exact kept_execAck hk link up sq crc
  | nak link up sq crc t => exact kept_execNak hk link up sq crc t
  | credit link up vc total crc => exact kept_execCredit hk link up vc total crc
  | idle link up => exact kept_execIdle hk link up
  | packetReceive link up sq head extOk crcOk t => exact kept_execPacketReceive hk link up sq head extOk crcOk t
  | replayTimeout link up sideband t => exact kept_execReplayTimeout hk link up sideband t
  | laneMonitorFlag m t => exact kept_execLaneMonitorFlag hk m t
  | moduleTrainingDone m res lanes => exact kept_execModuleTrainingDone hk m res lanes
  | moduleRetrainDone m res lanes => exact kept_execModuleRetrainDone hk m res lanes
  | recoverTimeout m t => exact kept_execRecoverTimeout hk m t
  | sidebandTimeout m lost t => exact kept_execSidebandTimeout hk m lost t
  | vportRecoverDone core res spup spdn badgrp => exact kept_execVportRecoverDone hk core res spup spdn badgrp
  | fenceTarget g => exact kept_execFenceTarget hk g
  | targetRelease g => exact kept_execTargetRelease hk g
  | clean who k => exact kept_execClean hk who k
  | cleanInv who k => exact kept_execCleanInv hk who k
  | cacheMaintDone k => exact kept_execCacheMaintDone hk k
  | crucEvlogRead k => exact kept_execCrucEvlogRead hk k
  | regulationWindow t => exact kept_execRegulationWindow hk t
  | regbudWrite who k m v => exact kept_execRegbudWrite hk who k m v
  | regctlWrite who v => exact kept_execRegctlWrite hk who v
  | refreshPoint t => exact kept_execRefreshPoint hk t
  | stallWindowEnd t => exact kept_execStallWindowEnd hk t
  | stackTempReport site temp t => exact kept_execStackTempReport hk site temp t
  | memrefWrite who v => exact kept_execMemrefWrite hk who v
  | caParityError ch info t => exact kept_execCaParityError hk ch info t
  | phyLockLoss ch info t => exact kept_execPhyLockLoss hk ch info t
  | frzack who ch t => exact kept_execFrzack hk who ch t
  | frzholdTimeout ch t => exact kept_execFrzholdTimeout hk ch t
  | goservice who ch t => exact kept_execGoservice hk who ch t
  | retire who ch => exact kept_execRetire hk who ch
  | recoveryTimeout ch t => exact kept_execRecoveryTimeout hk ch t
  | trainingTimeout ch t => exact kept_execTrainingTimeout hk ch t
  | mapApply who => exact kept_execMapApply hk who
  | mapApplyDone => exact kept_execMapApplyDone hk
  | scrubLine ch ecc => exact kept_execScrubLine hk ch ecc
  | park who mask => exact kept_execPark hk who mask
  | parkDone => exact kept_execParkDone hk
  | wake => exact kept_execWake hk
  | trainWrite who ch line countm1 => exact kept_execTrainWrite hk who ch line countm1
  | trainReadCompare who ch line countm1 => exact kept_execTrainReadCompare hk who ch line countm1
  | trainCaLoop who ch line countm1 => exact kept_execTrainCaLoop hk who ch line countm1
  | trainWriteRead who ch line countm1 => exact kept_execTrainWriteRead hk who ch line countm1
  | trainCmdDone ch dqFail caFail errs => exact kept_execTrainCmdDone hk ch dqFail caFail errs
  | zqCalibrationDone ch => exact kept_execZqCalibrationDone hk ch
  | memoryFillDone ch => exact kept_execMemoryFillDone hk ch
  | memcEvlogRead site => exact kept_execMemcEvlogRead hk site
  | resetReq who kind index t => exact kept_execResetReq hk who kind index t
  | idleAck b t => exact kept_execIdleAck hk b t
  | idleTimeout b t => exact kept_execIdleTimeout hk b t
  | orphanDrainDone b t => exact kept_execOrphanDrainDone hk b t
  | resetLineEnd b t => exact kept_execResetLineEnd hk b t
  | blockRestartDone b pass t => exact kept_execBlockRestartDone hk b pass t
  | restartTimeout kind index t => exact kept_execRestartTimeout hk kind index t
  | deviceWarmReset t => exact kept_execDeviceWarmReset hk t
  | deviceColdReset t => exact kept_execDeviceColdReset hk t
  | powerGood t => exact kept_execPowerGood hk t
  | mainRailFail t => exact kept_execMainRailFail hk t
  | lehrRailFail isB t => exact kept_execLehrRailFail hk isB t
  | railFall lehrA lehrB main t => exact kept_execRailFall hk lehrA lehrB main t
  | sysRstn level us acted t => exact kept_execSysRstn hk level us acted t
  | lehraRstn us acted t => exact kept_execLehraRstn hk us acted t
  | lehrbRstn us acted t => exact kept_execLehrbRstn hk us acted t
  | pciePerstn us acted t => exact kept_execPciePerstn hk us acted t
  | pcieHotReset t => exact kept_execPcieHotReset hk t
  | optionReadStep => exact kept_execOptionReadStep hk
  | flashCmdTimeout entries => exact kept_execFlashCmdTimeout hk entries
  | optionRetryPause => exact kept_execOptionRetryPause hk
  | repairLogAppend core column residue => exact kept_execRepairLogAppend hk core column residue
  | resetEvlogRead => exact kept_execResetEvlogRead hk
  | loadBatch who ecc => exact kept_execLoadBatch hk who ecc
  | loadFrit who frit ecc => exact kept_execLoadFrit hk who frit ecc
  | fritSwitchRequest who v => exact kept_execFritSwitchRequest hk who v
  | fritSwitch t => exact kept_execFritSwitch hk t
  | debugRequest who scope t => exact kept_execDebugRequest hk who scope t
  | debugLock who => exact kept_execDebugLock hk who
  | debugResponse who addr ecc t => exact kept_execDebugResponse hk who addr ecc t
  | cfgEvlogRead => exact kept_execCfgEvlogRead hk
  | blowpipeTopoWrite who v t => exact kept_execBlowpipeTopoWrite hk who v t
  | bpPortTrainingDone port lanes nbr => exact kept_execBpPortTrainingDone hk port lanes nbr
  | bpTrainingTimeout port t => exact kept_execBpTrainingTimeout hk port t
  | bpReplayLimit port lockLost t => exact kept_execBpReplayLimit hk port lockLost t
  | bpFlit port fseq ackseq cls words crcOk packets t => exact kept_execBpFlit hk port fseq ackseq cls words crcOk packets t
  | bpFlitReplayTimeout port t => exact kept_execBpFlitReplayTimeout hk port t
  | bpDeliveryStart chan waited t => exact kept_execBpDeliveryStart hk chan waited t
  | bpBegin src chan gen t => exact kept_execBpBegin hk src chan gen t
  | bpData src chan gen packet t => exact kept_execBpData hk src chan gen packet t
  | bpEnd src chan gen count crc t => exact kept_execBpEnd hk src chan gen count crc t
  | bpAck src chan gen t => exact kept_execBpAck hk src chan gen t
  | bpNak src chan gen code instat t => exact kept_execBpNak hk src chan gen code instat t
  | bpWait src chan gen t => exact kept_execBpWait hk src chan gen t
  | bpBeginRepeat chan waited t => exact kept_execBpBeginRepeat hk chan waited t
  | bpFwdTimeout chan t => exact kept_execBpFwdTimeout hk chan t
  | bpGenTimeout chan t => exact kept_execBpGenTimeout hk chan t
  | inboundCommit chan flip => exact kept_execInboundCommit hk chan flip
  | fwdChannelEnable who chan => exact kept_execFwdChannelEnable hk who chan
  | inChannelEnable who chan => exact kept_execInChannelEnable hk who chan
  | blowpipeEvlogRead => exact kept_execBlowpipeEvlogRead hk
  | powerSample power t => exact kept_execPowerSample hk power t
  | powerUpdate t => exact kept_execPowerUpdate hk t
  | sensorRead sensor reading t => exact kept_execSensorRead hk sensor reading t
  | coolantWrite who temp t => exact kept_execCoolantWrite hk who temp t
  | coolantStale t => exact kept_execCoolantStale hk t
  | corePark core => exact kept_execCorePark hk core
  | coreUnpark core => exact kept_execCoreUnpark hk core
  | ageSample t => exact kept_execAgeSample hk t
  | thermEvlogRead => exact kept_execThermEvlogRead hk
  | jtagInstruction ir => exact kept_execJtagInstruction hk ir
  | lehrHeartbeat fromB t => exact kept_execLehrHeartbeat hk fromB t
  | pciePerstnRise rate width flit t => exact kept_execPciePerstnRise hk rate width flit t
  | virtualFunctionEnable fn on => exact kept_execVirtualFunctionEnable hk fn on

end Sys2Proof.Machine
end

