-- ==== Sys2Proof/Laws/Memory.lean ====
section
/-! SUPPORT. When a read or a write of DRAM succeeds, and what it leaves: only counters, the regulators' counts and the bytes written. -/

namespace Sys2Proof.Machine

/-- The registers that an admitted DRAM request counts in: DEV_REGBYT, DEV_REGSUR and the hit and miss counters of a crucible (R483, R514). -/
def countReg (off : Nat) : Bool :=
  (decide (0x3600 ≤ off) && decide (off < 0x4000)) ||
    (decide (0x500000 ≤ off) && decide (off < 0x600000) && (decide (off % 0x40000 = 0x110) || decide (off % 0x40000 = 0x118)))

/-- A state as a requester sees it through checks, routes and the memory map: the states differ in counts and in the bytes of DRAM at most. -/
def View (s t : State) : Prop :=
  (∃ r g f b m c, t = { s with regs := r, regul := g, fresh := f, mem := { s.mem with bytes := b, marks := m }, cache := c }) ∧
    ∀ off, countReg off = false → t.reg off = s.reg off

theorem countReg_false {off : Nat} (h : off < 0x3600 ∨ 0x600000 ≤ off ∨ 0x500000 ≤ off ∧ off % 0x40000 ≠ 0x110 ∧ off % 0x40000 ≠ 0x118) :
    countReg off = false := by
  refine Bool.eq_false_iff.mpr fun e => ?_
  simp only [countReg, Bool.or_eq_true, Bool.and_eq_true, decide_eq_true_eq] at e
  omega

theorem countReg_true {off : Nat} (h : 0x3600 ≤ off ∧ off < 0x4000 ∨ 0x500000 ≤ off ∧ off < 0x600000 ∧ (off % 0x40000 = 0x110 ∨ off % 0x40000 = 0x118)) :
    countReg off = true := by
  simp only [countReg, Bool.or_eq_true, Bool.and_eq_true, decide_eq_true_eq]
  omega

theorem view_refl (s : State) : View s s := ⟨⟨_, _, _, _, _, _, rfl⟩, fun _ _ => rfl⟩

theorem view_trans {s t u : State} (h : View s t) (g : View t u) : View s u := by
  obtain ⟨⟨_, _, _, _, _, _, rfl⟩, hr⟩ := h
  obtain ⟨⟨_, _, _, _, _, _, rfl⟩, gr⟩ := g
  exact ⟨⟨_, _, _, _, _, _, rfl⟩, fun o e => (gr o e).trans (hr o e)⟩

theorem view_bump {s t : State} (h : View s t) {off : Nat} (k : Nat) (ho : countReg off = true) : View s (t.bump off k) := by
  obtain ⟨⟨_, _, _, _, _, _, rfl⟩, hr⟩ := h
  refine ⟨⟨_, _, _, _, _, _, rfl⟩, fun o e => ?_⟩
  rw [reg_bump_other _ k (fun x => by simp_all)]
  exact hr o e

variable {s t : State}

theorem view_regFld (v : View s t) {off : Nat} (h : countReg off = false) (a b : Nat) : t.regFld off a b = s.regFld off a b := by
  rw [State.regFld, v.2 off h, State.regFld]
theorem view_regBit (v : View s t) {off : Nat} (h : countReg off = false) (a : Nat) : t.regBit off a = s.regBit off a := by
  rw [State.regBit, v.2 off h, State.regBit]
theorem view_cores (v : View s t) : t.cores = s.cores := by obtain ⟨⟨_, _, _, _, _, _, rfl⟩, _⟩ := v; rfl
theorem view_core (v : View s t) (c : Nat) : t.core c = s.core c := by rw [State.core, view_cores v, State.core]
theorem view_rst (v : View s t) : t.rst = s.rst := by obtain ⟨⟨_, _, _, _, _, _, rfl⟩, _⟩ := v; rfl
theorem view_fab (v : View s t) : t.fab = s.fab := by obtain ⟨⟨_, _, _, _, _, _, rfl⟩, _⟩ := v; rfl
theorem view_cull (v : View s t) (k : Nat) : t.cull k = s.cull k := by obtain ⟨⟨_, _, _, _, _, _, rfl⟩, _⟩ := v; rfl
theorem view_staged (v : View s t) : t.mem.staged = s.mem.staged := by obtain ⟨⟨_, _, _, _, _, _, rfl⟩, _⟩ := v; rfl
theorem view_segBase (v : View s t) : t.mem.segBase = s.mem.segBase := by obtain ⟨⟨_, _, _, _, _, _, rfl⟩, _⟩ := v; rfl
theorem view_mapAddr (v : View s t) (a : Nat) : mapAddr t a = mapAddr s a := by obtain ⟨⟨_, _, _, _, _, _, rfl⟩, _⟩ := v; rfl

theorem view_chSt (v : View s t) (h : Nat) : t.chSt h = s.chSt h := view_regFld v (countReg_false (by simp only [chstat, Reg.memcChstat]; omega)) _ _

theorem view_epoch (v : View s t) (h k : Nat) : t.epoch h k = s.epoch h k := view_regFld v (countReg_false (by simp only [Reg.memcEpoch]; omega)) _ _

theorem view_crucDown (v : View s t) (k : Nat) : crucDown t k = crucDown s k := by simp [crucDown, inReset, view_rst v]

theorem view_moduleUp (v : View s t) (m : Nat) : moduleUp t m = moduleUp s m := by
  rw [moduleUp, view_regFld v (countReg_false (by simp only [Reg.puntyMstat]; omega)), moduleUp]

theorem view_attachUp (v : View s t) (m : Nat) : attachUp t m = attachUp s m := by simp [attachUp, view_moduleUp v]

theorem view_pathTargets (v : View s t) : ∀ l, pathTargets t l = pathTargets s l
  | [] => rfl
  | [_] => rfl
  | a :: b :: rest => by rw [pathTargets, pathTargets, view_pathTargets v (b :: rest)]; simp [pairUp', view_attachUp v, view_crucDown v]

theorem view_routeOf (v : View s t) (a b x : Nat) : routeOf t a b x = routeOf s a b x := by
  simp [routeOf, firstPath, funext (view_pathTargets v)]

theorem view_ingressOf (v : View s t) (n h : Nat) : ingressOf t n h = ingressOf s n h := by
  simp [ingressOf, hostIngress, sensorIngress, view_crucDown v, view_attachUp v]

theorem view_homeOf (v : View s t) {a : Nat} (ha : addrKind a = .dram) : homeOf t a = homeOf s a := by simp [homeOf, ha, view_mapAddr v]

theorem view_reachable (v : View s t) (r : Req) {a : Nat} (ha : addrKind a = .dram) : reachable t r a = reachable s r a := by
  simp [reachable, pathOf, view_homeOf v ha, view_ingressOf v, view_routeOf v, view_crucDown v, addrTargets, ha, view_mapAddr v, view_fab v, idleAsked,
    view_rst v]

theorem view_poolPage (v : View s t) (a : Nat) : poolPage t a = poolPage s a := by
  have h : ∀ k i n, t.regFld (Reg.culletPoolbase k) i n = s.regFld (Reg.culletPoolbase k) i n := fun k i n =>
    view_regFld v (countReg_false (by simp only [Reg.culletPoolbase]; omega)) _ _
  have g : ∀ k i n, t.regFld (Reg.culletPoolcfg k) i n = s.regFld (Reg.culletPoolcfg k) i n := fun k i n =>
    view_regFld v (countReg_false (by simp only [Reg.culletPoolcfg]; omega)) _ _
  simp [poolPage, h, g]

theorem countReg_rgna {k n : Nat} (hn : n < 256) : countReg (Reg.crucRgna k n) = false := countReg_false (by simp only [Reg.crucRgna]; omega)

theorem countReg_rgnb {k n : Nat} (hn : n < 256) : countReg (Reg.crucRgnb k n) = false := countReg_false (by simp only [Reg.crucRgnb]; omega)

theorem find?_congr_mem {α : Type} {p q : α → Bool} : ∀ l : List α, (∀ x ∈ l, p x = q x) → l.find? p = l.find? q
  | [], _ => rfl
  | a :: l, h => by
    rw [List.find?_cons, List.find?_cons, h a (by simp), find?_congr_mem l fun x hx => h x (by simp [hx])]

theorem view_regionFor (v : View s t) (k a : Nat) : regionFor t k a = regionFor s k a :=
  find?_congr_mem _ fun n hn => by
    have hn := List.mem_range.mp hn
    simp only [v.2 _ (countReg_rgna hn), view_regFld v (countReg_rgnb hn)]

/-- A request of DRAM that passes its checks changes nothing in them, and passes them in every state that differs in counts and bytes only. -/
theorem view_checkReq (v : View s t) {r : Req} {a c : Nat} {w : Bool} (ha : addrKind a = .dram) (h : checkReq s r a w = (s, .ok c)) :
    checkReq t r a w = (t, .ok c) := by
  have e : ingressOf t r.node (homeOf t a) = ingressOf s r.node (homeOf s a) := by rw [view_homeOf v ha, view_ingressOf v]
  unfold checkReq at h ⊢
  simp only [ha, e] at h ⊢
  by_cases hi : 18 ≤ r.ident
  · simp_all
  · simp only [hi, if_false, ne_eq, not_true_eq_false, decide_false, Bool.and_false, Bool.false_eq_true] at h ⊢
    rw [view_regionFor v]
    cases hr : regionFor s (ingressOf s r.node (homeOf s a)) a with
    | none => simp [hr, refuse] at h
    | some n =>
      have hn : n < 256 := List.mem_range.mp (List.mem_of_find?_eq_some hr)
      have hp : regionPermits t (ingressOf s r.node (homeOf s a)) n r.ident w = regionPermits s (ingressOf s r.node (homeOf s a)) n r.ident w := by
        simp [regionPermits, view_regBit v (countReg_rgna hn), view_regBit v (countReg_rgnb hn)]
      have hc : regionClass t (ingressOf s r.node (homeOf s a)) n = regionClass s (ingressOf s r.node (homeOf s a)) n :=
        view_regFld v (countReg_rgna hn) _ _
      simp only [hr, hp, hc, view_poolPage v, pageOwned, view_cull v] at h ⊢
      repeat' (first | split at h | split)
      all_goals simp_all
      all_goals (split at h <;> simp_all)

/-- An allocation changes the cache alone. -/
theorem view_alloc (s : State) (k line mask : Nat) : View s (allocLine s k line mask) := by
  unfold allocLine
  repeat' split
  all_goals exact ⟨⟨_, _, _, _, _, _, rfl⟩, fun _ _ => rfl⟩
theorem alloc_mem (s : State) (k line mask : Nat) : (allocLine s k line mask).mem = s.mem := by
  unfold allocLine
  repeat' split
  all_goals rfl

/-- An admitted request leaves a state that differs in counts only. -/
theorem view_admit (s : State) {k : Nat} (m cls n : Nat) (hk : k < 4) (hm : m < 32) : View s (admitRequest s k m cls n) := by
  have h1 : countReg (Reg.devRegbyt k (min cls 2)) = true := countReg_true (by simp only [Reg.devRegbyt]; omega)
  have h2 : countReg (Reg.devRegsur k m) = true := countReg_true (by simp only [Reg.devRegsur]; omega)
  have v1 : View s { s with regul := { s.regul with counts := sput 0 s.regul.counts (32 * k + m) (s.regCount k m + n) } } :=
    ⟨⟨_, _, _, _, _, _, rfl⟩, fun _ _ => rfl⟩
  unfold admitRequest
  dsimp only
  split
  · exact view_bump (view_bump v1 _ h1) _ h2
  · exact view_bump v1 _ h1

/-- A cache access leaves a state that differs in counts and in the cache only. -/
theorem view_countCache (s : State) {k : Nat} (line mask : Nat) (hk : k < 4) : View s (countCache s k line mask) := by
  have h3 : countReg (Reg.crucChit k) = true := countReg_true (by simp only [Reg.crucChit]; omega)
  have h4 : countReg (Reg.crucCmiss k) = true := countReg_true (by simp only [Reg.crucCmiss]; omega)
  have next : ∀ u, View s u → View s u.nextFresh := fun u v => view_trans v ⟨⟨_, _, _, _, _, _, rfl⟩, fun _ _ => rfl⟩
  unfold countCache
  split
  · exact view_bump (view_refl s) _ h3
  · exact next _ (view_bump (view_alloc _ _ _ _) _ h4)

theorem countCache_mem (s : State) (k line mask : Nat) : (countCache s k line mask).mem = s.mem := by
  unfold countCache
  split
  · rfl
  · exact alloc_mem s k line mask
theorem admitRequest_mem (s : State) (k m cls n : Nat) : (admitRequest s k m cls n).mem = s.mem := by
  unfold admitRequest
  dsimp only
  split <;> rfl

theorem view_readCell (v : View s t) (hm : t.mem = s.mem) (a : Nat) : readCell t a = readCell s a := by
  have hr : ∀ l, resolveLine t l = resolveLine s l := fun l => by
    simp only [resolveLine, State.mark, segMark, hm, view_epoch v]
    rfl
  simp [readCell, view_mapAddr v, view_chSt v, hr, hm, State.cell]

theorem view_dramBytes (v : View s t) (hm : t.mem = s.mem) (o : Option Nat) (a n : Nat) : dramBytes t o a n = dramBytes s o a n := by
  simp [dramBytes, ownByte, view_readCell v hm, combByte, stagedByte, stagedOf, view_fab v, hm]

/-- The channel of an address is in SERVICE (R533). -/
def chanServes (s : State) (a : Nat) : Bool := (mapAddr s a).any (fun p => decide (s.chSt p.1 = 2))

theorem view_chanServes (v : View s t) (a : Nat) : chanServes t a = chanServes s a := by simp [chanServes, view_mapAddr v, view_chSt v]

/-- A request that the home of its address serves is metered there and meets no error (R504, R523, R533). -/
theorem atHome_ok {s : State} {r : Req} {a n : Nat} (hc : chanServes s a = true) (hh : homeOf s a < 4) (hi : r.ident < 32) :
    ∃ h, atHome s r a n = (admitRequest s (homeOf s a) r.ident r.cls n, .ok h) ∧ (admitRequest s (homeOf s a) r.ident r.cls n).chSt h = 2 := by
  simp only [chanServes, Option.any_eq_true, decide_eq_true_eq] at hc
  obtain ⟨p, hp, hs⟩ := hc
  have v := view_admit s r.ident r.cls n hh hi
  refine ⟨p.1, ?_, by rw [view_chSt v, hs]⟩
  simp only [atHome, hp, view_chSt v]
  rw [if_neg (by omega)]

theorem awake_serves {s : State} {h : Nat} (e : s.chSt h = 2) : awake s h = s := by simp [awake, e]

theorem cacheError_clean (s : State) (r : Req) (a : Nat) : cacheError s r a .clean = s := by simp [cacheError]

/-- A requester may read the DRAM bytes of one transaction, and none of them is lost or poisoned. -/
def readOk (s : State) (r : Req) (a n : Nat) : Bool :=
  decide (addrKind a = .dram) && decide (homeOf s a < 4) && decide (r.ident < 32) && (checkReq s r a false).2.toOption.isSome &&
    reachable s r a && chanServes s a && !(r.owner.any (fun o => s.fab.badStaged.contains (o, a / 128))) &&
    (match dramBytes s r.owner a n with
      | .data _ => true
      | .poisoned _ => false)

theorem checkReq_ok {s : State} {r : Req} {a c : Nat} {w : Bool} (h : (checkReq s r a w).2 = .ok c) : checkReq s r a w = (s, .ok c) := by
  refine Prod.ext ?_ h
  revert h
  unfold checkReq
  simp only
  repeat' split
  all_goals simp [refuse]

/-- A read that may be served answers the bytes, and leaves a state that differs in counts only. -/
theorem readReq_ok {s : State} {r : Req} {a n : Nat} {bs : List Byte} (h : readOk s r a n = true) (hd : dramBytes s r.owner a n = .data bs) :
    ∃ t, readReq s r .clean a n = (t, .ok bs) ∧ View s t ∧ t.mem = s.mem := by
  simp only [readOk, Bool.and_eq_true, decide_eq_true_eq, Bool.not_eq_true'] at h
  obtain ⟨⟨⟨⟨⟨⟨⟨hk, hh⟩, hi⟩, hc⟩, hr⟩, hp⟩, hs⟩, _⟩ := h
  have hc' : ∃ c, (checkReq s r a false).2 = .ok c := by
    cases e : (checkReq s r a false).2 with
    | error p => simp [e, Except.toOption] at hc
    | ok c => exact ⟨c, rfl⟩
  obtain ⟨c, hc'⟩ := hc'
  have ht := checkReq_ok hc'
  have v := view_admit s r.ident r.cls n hh hi
  have hm := admitRequest_mem s (homeOf s a) r.ident r.cls n
  obtain ⟨h, ha, hx⟩ := atHome_ok (n := n) hp hh hi
  have hd' := (view_dramBytes v hm r.owner a n).trans hd
  have hr' : ∀ h, resolveRead (admitRequest s (homeOf s a) r.ident r.cls n) r h a n = (countCache (admitRequest s (homeOf s a) r.ident r.cls n)
      (homeOf s a) (a / 128) (wayMask (admitRequest s (homeOf s a) r.ident r.cls n) (homeOf s a) r.ident false), .ok bs) := fun h => by
    simp only [resolveRead, hd', view_homeOf v hk]
  refine ⟨_, ?_, view_trans v (view_countCache _ (a / 128) (wayMask (admitRequest s (homeOf s a) r.ident r.cls n) (homeOf s a) r.ident false) hh),
    (countCache_mem ..).trans hm⟩
  simp only [readReq, ht, hr, hk, readTxn, ha, Bool.not_true, Bool.and_false, Bool.false_eq_true, if_false, if_true, cacheMet, cacheError_clean]
  simp only [view_fab v, hs, Bool.false_eq_true, if_false, readDramLine, lineFails, lineCorrected, hr', Bool.and_false, ite_self, awake_serves hx]

theorem view_readOk (v : View s t) (hm : t.mem = s.mem) {r : Req} {a n : Nat} (h : readOk s r a n = true) : readOk t r a n = true := by
  simp only [readOk, Bool.and_eq_true, decide_eq_true_eq, Bool.not_eq_true'] at h ⊢
  obtain ⟨⟨⟨⟨⟨⟨⟨hk, hh⟩, hi⟩, hc⟩, hr⟩, hp⟩, hs⟩, hd⟩ := h
  refine ⟨⟨⟨⟨⟨⟨⟨hk, by rwa [view_homeOf v hk]⟩, hi⟩, ?_⟩, by rwa [view_reachable v r hk]⟩, by rwa [view_chanServes v]⟩, by rwa [view_fab v]⟩,
    by rwa [view_dramBytes v hm]⟩
  cases e : (checkReq s r a false).2 with
  | error p => simp [e, Except.toOption] at hc
  | ok c => rw [view_checkReq v hk (checkReq_ok e)]; rfl

/-- Every transaction of a device read may be served. -/
def readsOk : Nat → State → Req → Nat → Nat → Bool
  | 0, _, _, _, _ => true
  | f + 1, s, r, a, n => if n = 0 then true else
      readOk s r a (min n (128 - a % 128)) && readsOk f s r (a + min n (128 - a % 128)) (n - min n (128 - a % 128))

/-- The bytes that a device read collects. -/
def bytesRead : Nat → State → Req → Nat → Nat → List Byte
  | 0, _, _, _, _ => []
  | f + 1, s, r, a, n => if n = 0 then [] else
      (match dramBytes s r.owner a (min n (128 - a % 128)) with
        | .data bs => bs
        | .poisoned _ => []) ++ bytesRead f s r (a + min n (128 - a % 128)) (n - min n (128 - a % 128))

theorem devReadGo_ok {s : State} {r : Req} : ∀ (f : Nat) {t : State} {a n : Nat}, View s t → t.mem = s.mem → readsOk f s r a n = true →
    ∃ u, devReadGo f t r .clean a n = (u, .ok (bytesRead f s r a n)) ∧ View s u ∧ u.mem = s.mem
  | 0, t, _, _, v, hm, _ => ⟨t, rfl, v, hm⟩
  | f + 1, t, a, n, v, hm, h => by
    unfold readsOk at h
    unfold devReadGo bytesRead
    by_cases hn : n = 0
    · exact ⟨t, by simp [hn], v, hm⟩
    · simp only [hn, if_false, Bool.and_eq_true] at h ⊢
      obtain ⟨h1, h2⟩ := h
      cases hd : dramBytes s r.owner a (min n (128 - a % 128)) with
      | poisoned c => simp [readOk, hd] at h1
      | data bs =>
        obtain ⟨w, e, vw, mw⟩ := readReq_ok (view_readOk v hm h1) ((view_dramBytes v hm _ _ _).trans hd)
        obtain ⟨u, e', vu, mu⟩ := devReadGo_ok f (view_trans v vw) (mw.trans hm) h2
        exact ⟨u, by simp [e, e'], vu, mu⟩

/-- A device read that may be served answers its bytes and changes nothing but counts. -/
theorem devRead_ok {s : State} {r : Req} {a n : Nat} (h : readsOk (n + a % 128) s r a n = true) :
    ∃ u, devRead s r .clean a n = (u, .ok (bytesRead (n + a % 128) s r a n)) ∧ View s u ∧ u.mem = s.mem :=
  devReadGo_ok _ (view_refl s) rfl h

/-- A requester with no staging owner may write the DRAM bytes of one transaction. -/
def writeOk (s : State) (r : Req) (a : Nat) : Bool :=
  decide (addrKind a = .dram) && decide (homeOf s a < 4) && decide (r.ident < 32) && decide (r.owner = none) &&
    (match (checkReq s r a true).2 with
      | .ok c => decide (c ≠ 2)
      | .error _ => false) &&
    reachable s r a && (mapAddr s a).any (fun p => decide (s.chSt p.1 = 2))

theorem view_mem (s : State) (b : List (Nat × Byte)) (m : List (Nat × LineMark)) : View s { s with mem := { s.mem with bytes := b, marks := m } } :=
  ⟨⟨_, _, _, _, _, _, rfl⟩, fun _ _ => rfl⟩

theorem view_putBytes : ∀ (bs : List (Option Byte)) {s t : State} (k : Nat), View s t → View s (putBytes t k bs)
  | [], _, _, _, v => v
  | none :: bs, _, _, k, v => view_putBytes bs (k + 1) v
  | some b :: bs, _, _, k, v => view_putBytes bs (k + 1) (view_trans v (view_mem _ _ _))

theorem view_writeLine (v : View s t) (l : Nat) (bs : List (Option Byte)) : View s (writeLine t l bs) := by
  unfold writeLine
  repeat' (first | split | intro _ | exact v | exact view_putBytes _ _ v | exact view_trans v (view_mem _ _ _) |
    exact view_trans (view_putBytes _ _ v) (view_mem _ _ _))

theorem view_writeDramLine (v : View s t) {a : Nat} {p : Nat × Nat} (hp : mapAddr s a = some p) (hs : s.chSt p.1 = 2) (bs : List (Option Byte)) :
    View s (writeDramLine t a bs) := by
  simp only [writeDramLine, view_mapAddr v, hp, view_chSt v, hs, if_true]
  exact view_writeLine v _ _

/-- Every line from an address on maps to a channel in SERVICE, until the bytes are spent. -/
def linesOk : Nat → State → Nat → Nat → Bool
  | 0, _, _, _ => true
  | f + 1, s, a, n => if n = 0 then true else
      (mapAddr s (a - a % 128)).any (fun p => decide (s.chSt p.1 = 2)) &&
        linesOk f s (a + min (128 - a % 128) n) (n - min (128 - a % 128) n)

theorem view_writeDramGo {s : State} : ∀ (f : Nat) {t : State} {a : Nat} {bs : List Byte}, View s t → linesOk f s a bs.length = true →
    View s (writeDramGo f t a bs)
  | 0, _, _, _, v, _ => v
  | f + 1, t, a, [], v, _ => v
  | f + 1, t, a, _ :: bs, v, h => by
    unfold linesOk at h
    simp only [List.length_cons, Nat.succ_ne_zero, if_false, Bool.and_eq_true, Option.any_eq_true, decide_eq_true_eq] at h
    obtain ⟨⟨p, hp, hs⟩, h⟩ := h
    unfold writeDramGo
    refine view_writeDramGo f (view_writeDramLine v hp hs _) ?_
    simpa using h

/-- Every transaction of a device write may be done. -/
def writesOk : Nat → State → Req → Nat → Nat → Bool
  | 0, _, _, _, _ => true
  | f + 1, s, r, a, n => if n = 0 then true else
      writeOk s r a && linesOk (min n (128 - a % 128) + a % 128) s a (min n (128 - a % 128)) &&
        writesOk f s r (a + min n (128 - a % 128)) (n - min n (128 - a % 128))

theorem view_writeOk (v : View s t) {r : Req} {a : Nat} (h : writeOk s r a = true) : writeOk t r a = true := by
  simp only [writeOk, Bool.and_eq_true, decide_eq_true_eq] at h ⊢
  obtain ⟨⟨⟨⟨⟨⟨hk, hh⟩, hi⟩, ho⟩, hc⟩, hr⟩, hp⟩ := h
  refine ⟨⟨⟨⟨⟨⟨hk, by rwa [view_homeOf v hk]⟩, hi⟩, ho⟩, ?_⟩, by rwa [view_reachable v r hk]⟩, by simpa [view_mapAddr v, view_chSt v] using hp⟩
  cases e : (checkReq s r a true).2 with
  | error p => simp [e] at hc
  | ok c =>
    rw [view_checkReq v hk (checkReq_ok e)]
    simpa [e] using hc

theorem writeReq_ok {s t : State} {r : Req} {a : Nat} {bs : List Byte} (v : View s t) (h : writeOk s r a = true)
    (hl : linesOk (bs.length + a % 128) s a bs.length = true) : ∃ u, writeReq t r .clean a bs = (u, none) ∧ View s u := by
  have h := view_writeOk v h
  simp only [writeOk, Bool.and_eq_true, decide_eq_true_eq, Option.any_eq_true] at h
  obtain ⟨⟨⟨⟨⟨⟨hk, hh⟩, hi⟩, ho⟩, hc⟩, hr⟩, p, hp, hs⟩ := h
  cases e : (checkReq t r a true).2 with
  | error p => simp [e] at hc
  | ok c =>
    have hc : c ≠ 2 := by simpa [e] using hc
    have vt := view_admit t r.ident r.cls bs.length hh hi
    have vc := view_countCache (admitRequest t (homeOf t a) r.ident r.cls bs.length) (a / 128)
      (wayMask (admitRequest t (homeOf t a) r.ident r.cls bs.length) (homeOf t a) r.ident false) hh
    obtain ⟨h, ha, hx⟩ := atHome_ok (s := t) (r := r) (a := a) (n := bs.length) (by simp [chanServes, hp, hs]) hh hi
    refine ⟨_, ?_, view_writeDramGo _ (view_trans v (view_trans vt vc)) hl⟩
    simp [writeReq, checkReq_ok e, hr, hk, hc, writeTxn, ha, stagesFor, ho, commitTxn, lineFails, lineCorrected, view_homeOf vt hk, writeDram, awake_serves hx]

theorem devWriteGo_ok {s : State} {r : Req} : ∀ (f : Nat) {t : State} {a : Nat} {bs : List Byte}, View s t → writesOk f s r a bs.length = true →
    ∃ u, devWriteGo f t r .clean a bs = (u, none) ∧ View s u
  | 0, t, _, _, v, _ => ⟨t, rfl, v⟩
  | f + 1, t, _, [], v, _ => ⟨t, rfl, v⟩
  | f + 1, t, a, b :: bs, v, h => by
    unfold writesOk at h
    simp only [List.length_cons, Nat.succ_ne_zero, if_false, Bool.and_eq_true] at h
    obtain ⟨⟨h1, h2⟩, h3⟩ := h
    have hl : ((b :: bs).take (min (b :: bs).length (128 - a % 128))).length = min (bs.length + 1) (128 - a % 128) := by simp
    obtain ⟨w, e, vw⟩ := writeReq_ok (bs := (b :: bs).take (min (b :: bs).length (128 - a % 128))) v h1 (by rw [hl]; exact h2)
    obtain ⟨u, e', vu⟩ := devWriteGo_ok f (a := a + min (b :: bs).length (128 - a % 128))
      (bs := (b :: bs).drop (min (b :: bs).length (128 - a % 128))) vw (by simpa using h3)
    exact ⟨u, by unfold devWriteGo; simp only [e, e'], vu⟩

/-- A device write that may be done changes nothing but counts and the bytes of DRAM. -/
theorem devWrite_ok {s : State} {r : Req} {a : Nat} {bs : List Byte} (h : writesOk (bs.length + a % 128) s r a bs.length = true) :
    ∃ u, devWrite s r .clean a bs = (u, none) ∧ View s u := devWriteGo_ok _ (view_refl s) h

theorem gather_ok (l : List Byte) : gather (l.map .ok) = .data l := by
  induction l with
  | nil => rfl
  | cons b l ih => simp [gather, ih]

/-- Cells that can be read, with nothing staged for the requester, are what a transaction reads. -/
theorem dramBytes_ok {s : State} {o : Option Nat} {a n : Nat} (g : Nat → Byte)
    (h : ∀ i, i < n → readCell s (a + i) = .ok (g (a + i)) ∧ combByte s o (a + i) = none ∧ stagedByte s o (a + i) = none) :
    dramBytes s o a n = .data ((List.range n).map fun i => g (a + i)) := by
  rw [dramBytes, ← gather_ok, List.map_map]
  refine congrArg _ (List.map_congr_left fun i hi => ?_)
  obtain ⟨h1, h2, h3⟩ := h i (List.mem_range.mp hi)
  simp [ownByte, h1, h2, h3]

/-- Cells that can be read, with nothing staged for the requester, are what a device read collects. -/
theorem bytesRead_ok {s : State} {r : Req} (g : Nat → Byte) : ∀ (f : Nat) {a n : Nat}, n ≤ f →
    (∀ i, i < n → readCell s (a + i) = .ok (g (a + i)) ∧ combByte s r.owner (a + i) = none ∧ stagedByte s r.owner (a + i) = none) →
    bytesRead f s r a n = (List.range n).map fun i => g (a + i)
  | 0, a, n, hn, _ => by simp [bytesRead, Nat.le_zero.mp hn]
  | f + 1, a, n, hn, h => by
    unfold bytesRead
    by_cases h0 : n = 0
    · simp [h0]
    · have hk : min n (128 - a % 128) ≤ n := Nat.min_le_left _ _
      have hp : 0 < min n (128 - a % 128) := by omega
      rw [if_neg h0, dramBytes_ok g fun i hi => h i (by omega), bytesRead_ok g f (by omega) fun i hi => by
        have := h (min n (128 - a % 128) + i) (by omega)
        rwa [← Nat.add_assoc] at this]
      generalize min n (128 - a % 128) = k at hk hp
      conv => rhs; rw [show n = k + (n - k) by omega, List.range_add, List.map_append, List.map_map]
      simp [Function.comp_def, Nat.add_assoc]

/-- A requester may send the read of one transaction (what `readOk` asks beside the bytes themselves). -/
def sendOk (s : State) (r : Req) (a : Nat) : Bool :=
  decide (addrKind a = .dram) && decide (homeOf s a < 4) && decide (r.ident < 32) && (checkReq s r a false).2.toOption.isSome &&
    reachable s r a && chanServes s a && !(r.owner.any (fun o => s.fab.badStaged.contains (o, a / 128)))

theorem readOk_of {s : State} {r : Req} {a n : Nat} {bs : List Byte} (h : sendOk s r a = true) (hd : dramBytes s r.owner a n = .data bs) :
    readOk s r a n = true := by
  simp only [sendOk, Bool.and_eq_true] at h
  simp only [readOk, hd, Bool.and_eq_true, and_true]
  exact h

theorem readsOk_of {s : State} {r : Req} (g : Nat → Byte) : ∀ (f : Nat) {a n : Nat},
    (∀ i, i < n → readCell s (a + i) = .ok (g (a + i)) ∧ combByte s r.owner (a + i) = none ∧ stagedByte s r.owner (a + i) = none) →
    (∀ i, i < n → i = 0 ∨ (a + i) % 128 = 0 → sendOk s r (a + i) = true) → readsOk f s r a n = true
  | 0, _, _, _, _ => rfl
  | f + 1, a, n, h, hs => by
    unfold readsOk
    by_cases h0 : n = 0
    · simp [h0]
    · have hp : 0 < min n (128 - a % 128) := by omega
      rw [if_neg h0, Bool.and_eq_true]
      refine ⟨readOk_of (hs 0 (by omega) (.inl rfl)) (dramBytes_ok g fun i hi => h i (by omega)), readsOk_of g f (fun i hi => ?_) fun i hi hz => ?_⟩
      · have := h (min n (128 - a % 128) + i) (by omega)
        rwa [← Nat.add_assoc] at this
      · have := hs (min n (128 - a % 128) + i) (by omega) (by omega)
        rwa [← Nat.add_assoc] at this

/-! ### The tracker -/

@[simp] theorem syncTrk_mem (s : State) (k : Nat) : (syncTrk s k).mem = s.mem := by
  unfold syncTrk
  dsimp only
  rw [State.setRegBit_mem, State.setReg_mem]

@[simp] theorem syncTrk_fab (s : State) (k : Nat) : (syncTrk s k).fab = s.fab := by
  unfold syncTrk
  dsimp only
  rw [State.setRegBit_fab, State.setReg_fab]

/-- A new entry changes no memory, and in the fabric the entries alone. -/
theorem pushTrack_keeps (s : State) (e : TrackEntry) : (pushTrack s e).mem = s.mem ∧ (pushTrack s e).fab = { s.fab with track := s.fab.track ++ [e] } := by
  unfold pushTrack
  rw [syncTrk_mem, syncTrk_fab]
  exact ⟨rfl, rfl⟩

end Sys2Proof.Machine
end

