-- ==== Sys2Proof/Tests/Slice0.lean ====
section
/-! SUPPORT. Tests: ill-formed commands refused, single steps, and witnesses of the statements' hypotheses. -/

namespace Sys2Proof.Tests

set_option Elab.async false

open Sys2Proof Sys2Proof.Machine

/-- The machine after reset with registers set, offset by offset. -/
def withRegs (l : List (Nat × Nat)) (s : State := State.reset) : State := l.foldl (fun s p => s.setReg p.1 (BitVec.ofNat 64 p.2)) s

/-- Core 5 in a state. -/
def coreIn (x : CoreSt) (s : State := State.reset) : State := s.setCoreSt 5 x

/-- Channel 9 in a state. -/
def chanIn (x : Nat) (l : List (Nat × Nat) := []) : State := (withRegs l).setRegFld (chstat 9) 0 3 x

/-- An instruction word from its fields' places and values. -/
def wd (l : List (Nat × Nat)) : BitVec 128 := BitVec.ofNat 128 (l.foldl (fun a p => a + p.2 * 2 ^ p.1) 0)

/-- Core 5 in a program, a word at the head of one of its streams. -/
def exe (k : Nat) (b : BitVec 128) (x : Core := Core.reset) (s : State := State.reset) : State :=
  (coreIn .run s).setCore 5 { x with streams := List.replicate 5 ⟨0, 9, 0, false, false⟩, buf := [(k * 2 ^ 24, some b)] }

theorem headReady_of {s : State} {c k w : Nat} {checks : State → Nat → List TFault} (b : BitVec 128)
    (h : k < 5 ∧ (s.core c).debugLog = [] ∧ running s c = true ∧ headWord s c k = some (some b) ∧ b.toNat = w ∧
      firstFault (wordChecks k (hasMarkers s c) w) = none ∧ atTarget s c k = false ∧ waitBlocked (atWait s c w) c w = false ∧
      unitBusy (atWait s c w) c (wEng w) (wOp w) w = false ∧ firstFault (checks (afterWait s c w) w) = none ∧
      (wordTile w).all (fun t => !tileConflict (afterWait s c w) c (wEng w) t) = true) : HeadReady s c k w checks :=
  ⟨h.1, h.2.1, h.2.2.1, ⟨b, h.2.2.2.1, h.2.2.2.2.1⟩, h.2.2.2.2.2.1, h.2.2.2.2.2.2.1, h.2.2.2.2.2.2.2.1, h.2.2.2.2.2.2.2.2.1,
    h.2.2.2.2.2.2.2.2.2.1, fun t e => by have := h.2.2.2.2.2.2.2.2.2.2; simpa [e] using this⟩

theorem accs_zero {x : Core} (h : x.accs = []) (t r j : Nat) (f : Bool) : (x.acc t r j).resOk f = true := by
  cases f <;> simp [Core.acc, h, sget, Acc.resOk, Acc.zero] <;> decide

/-- A device whose memory serves every requester: every channel in SERVICE, every module ACTIVE, one region over all of DRAM at each crucible. -/
def live : State :=
  { State.reset with regs := (List.range 4).flatMap (fun k => [(Reg.crucRgna k 0, 7#64), (Reg.crucRgnb k 0, BitVec.ofNat 64 (0x1000000 + (2 ^ 18 - 1) * 2 ^ 46))]) ++
    (List.range 64).map (fun h => (chstat h, 2#64)) ++ (List.range 26).map (fun m => (Reg.puntyMstat m, 1#64)) }

theorem live_wf : RegsWf live := by
  unfold RegsWf
  decide +kernel

/-- A command of partition 0 from its entry's bytes, in a state. -/
def cmdOf (l : List (Nat × Nat)) (x : CmdSt) (runs : List ProgRun := []) : Cmd :=
  ⟨0, 0, 0, 0, (List.range 64).map (fun i => BitVec.ofNat 8 (sget 0 l i)), x, 0, false, false, none, none, none, [], runs, false, none, none,
    false, false, [], false, [], [], 0, 0, none, [], none⟩

/-- A run of a command's program 0. -/
def runIn (x : RunSt) : ProgRun := ⟨0, .main, x, false, false, false, 0, 0, 0, []⟩

/-- Bench with commands on its scoreboard. -/
def inCmds (l : List Cmd) (s : State := State.reset) : State := { s with bench := { s.bench with cmds := l } }

/-- DRAM under the map of reset, every channel in SERVICE, no line lost and nothing staged. -/
def plain (s : State) : Bool :=
  s.mem.mapA.isEmpty && s.mem.mapM.isEmpty && s.mem.marks.isEmpty && s.mem.segBase.isEmpty && s.mem.staged.isEmpty && s.fab.comb.isEmpty &&
    (List.range 64).all (fun h => decide (s.chSt h = 2) && decide (s.epoch h 0 = 0))

/-- The byte of DRAM at an address under the map of reset. -/
def plainByte (s : State) (a : Nat) : Byte := s.cell (cellKey (a / 4096 % 64, a / 262144 * 4096 + a % 4096))

theorem plain_map {s : State} (h : plain s = true) {a : Nat} (ha : a < 2 ^ 34) : mapAddr s a = some (a / 4096 % 64, a / 262144 * 4096 + a % 4096) := by
  simp only [plain, Bool.and_eq_true, List.isEmpty_iff] at h
  obtain ⟨⟨⟨⟨⟨⟨h1, h2⟩, h3⟩, h4⟩, h5⟩, h6⟩, h7⟩ := h
  have ea : rangeA s 0 = regReset (Reg.devMemmapa 0) := by simp [rangeA, h1, sget]
  have em : rangeM s 0 = regReset (Reg.devMemmapm 0) := by simp [rangeM, h2, sget]
  have g1 : bitAt (regReset (Reg.devMemmapa 0)) 47 = true := by decide +kernel
  have g2 : fld (regReset (Reg.devMemmapa 0)) 0 15 = 0 := by decide +kernel
  have g3 : fld (regReset (Reg.devMemmapa 0)) 16 16 = 32768 := by decide +kernel
  have g4 : fld (regReset (Reg.devMemmapa 0)) 41 4 = 4 := by decide +kernel
  have g5 : fld (regReset (Reg.devMemmapa 0)) 32 9 = 0 := by decide +kernel
  have g6 : maskChannels (regReset (Reg.devMemmapm 0)) = List.range 64 := by decide +kernel
  have hr : rangeHolds (rangeA s 0) a = true := by
    simp [rangeHolds, ea, g1, g2, g3]
    omega
  have hl : (List.range 16).find? (fun n => rangeHolds (rangeA s n) a) = some 0 := by
    rw [show List.range 16 = 0 :: (List.range 15).map (· + 1) by decide, List.find?_cons, hr]
  have hm : a / 4096 % 64 < 64 := by omega
  simp only [mapAddr, hl, rangeMap, ea, em, g2, g4, g5, g6, List.length_range, Nat.reducePow, Nat.reduceMul, Nat.zero_mul, Nat.sub_zero, Nat.zero_add,
    List.getD_eq_getElem?_getD, List.getElem?_range hm, Option.getD_some]

theorem plain_cell {s : State} (h : plain s = true) {a : Nat} (ha : a < 2 ^ 34) (o : Option Nat) :
    readCell s a = .ok (plainByte s a) ∧ combByte s o a = none ∧ stagedByte s o a = none := by
  have hm := plain_map h ha
  simp only [plain, Bool.and_eq_true, List.isEmpty_iff] at h
  obtain ⟨⟨⟨⟨⟨⟨h1, h2⟩, h3⟩, h4⟩, h5⟩, h6⟩, h7⟩ := h
  have h7 := List.all_eq_true.mp h7 (a / 4096 % 64) (List.mem_range.mpr (by omega))
  simp only [Bool.and_eq_true, decide_eq_true_eq] at h7
  refine ⟨?_, ?_, ?_⟩
  · have e1 : cellKey (a / 4096 % 64, a / 262144 * 4096 + a % 4096) / 128 / 2 ^ 24 = a / 4096 % 64 := by simp only [cellKey]; omega
    have e2 : cellKey (a / 4096 % 64, a / 262144 * 4096 + a % 4096) / 128 / 2 ^ 21 % 8 = 0 := by
      have h : a / 262144 * 4096 + a % 4096 < 2 ^ 28 := by omega
      have : cellKey (a / 4096 % 64, a / 262144 * 4096 + a % 4096) / 128 / 2 ^ 21 = 8 * (a / 4096 % 64) := by simp only [cellKey]; omega
      omega
    have hl : resolveLine s (cellKey (a / 4096 % 64, a / 262144 * 4096 + a % 4096) / 128) = .data := by
      have hm : s.mark (cellKey (a / 4096 % 64, a / 262144 * 4096 + a % 4096) / 128) = ⟨.valid, 0⟩ := by
        rw [State.mark, segMark, h3, h4]
        rfl
      simp only [resolveLine, hm, e1, e2, h7.2, ne_eq, not_true_eq_false, if_false]
    simp only [readCell, hm, h7.1, hl]
    simp [plainByte]
  · cases o <;> simp [combByte, h6]
  · cases o <;> simp [stagedByte, stagedOf, h5, sget]

/-- A device read of plain DRAM whose lines may all be sent. -/
theorem plain_read' {s t : State} {r : Req} {a n : Nat} (v : View s t) (hm : t.mem = s.mem) (h : plain s = true) (hn : a + n ≤ 2 ^ 34)
    (hs : (List.range (n / 128 + 2)).all (fun k => decide (a + n ≤ 128 * (a / 128 + k)) || sendOk s r (max a (128 * (a / 128 + k)))) = true) :
    ∃ u, devRead t r .clean a n = (u, .ok ((List.range n).map fun i => plainByte s (a + i))) ∧ View s u ∧ u.mem = s.mem := by
  have hc : ∀ i, i < n → readCell s (a + i) = .ok (plainByte s (a + i)) ∧ combByte s r.owner (a + i) = none ∧ stagedByte s r.owner (a + i) = none :=
    fun i hi => plain_cell h (by omega) r.owner
  obtain ⟨u, e, v⟩ := devReadGo_ok _ v hm (readsOk_of (s := s) (r := r) (plainByte s) (n + a % 128) hc fun i hi hz => by
    have := List.all_eq_true.mp hs ((a + i) / 128 - a / 128) (List.mem_range.mpr (by omega))
    simp only [Bool.or_eq_true, decide_eq_true_eq] at this
    obtain x | x := this
    · omega
    · rwa [show max a (128 * (a / 128 + ((a + i) / 128 - a / 128))) = a + i by omega] at x)
  rw [bytesRead_ok (plainByte s) _ (by omega) hc] at e
  exact ⟨u, e, v⟩

theorem plain_read {s : State} {r : Req} {a n : Nat} (h : plain s = true) (hn : a + n ≤ 2 ^ 34)
    (hs : (List.range (n / 128 + 2)).all (fun k => decide (a + n ≤ 128 * (a / 128 + k)) || sendOk s r (max a (128 * (a / 128 + k)))) = true) :
    ∃ u, devRead s r .clean a n = (u, .ok ((List.range n).map fun i => plainByte s (a + i))) ∧ View s u ∧ u.mem = s.mem :=
  plain_read' (view_refl s) rfl h hn hs

/-- Bytes put in DRAM from an address on (in the first 4 KiB block of a stripe). -/
def dram (a : Nat) (l : List Byte) (s : State := live) : State :=
  { s with mem := { s.mem with bytes := (l.zipIdx.filter (fun p => decide (p.1 ≠ 0#8))).map fun p =>
    (cellKey ((a + p.2) / 4096 % 64, (a + p.2) / 262144 * 4096 + (a + p.2) % 4096), p.1) } }

theorem plain_zeros {s : State} (h : s.mem.bytes = []) (a n : Nat) : ((List.range n).map fun i => plainByte s (a + i)) = List.replicate n 0#8 := by
  refine List.eq_replicate_iff.mpr ⟨by simp, fun b hb => ?_⟩
  obtain ⟨i, _, rfl⟩ := List.mem_map.mp hb
  simp [plainByte, State.cell, h, sget]

theorem leAt_zeros (n i k : Nat) : leAt (List.replicate n 0#8) i k = 0 := by
  have h : ∀ m, leNat (List.replicate m 0#8) = 0 := fun m => by
    induction m with
    | zero => rfl
    | succ m ih => simp [List.replicate_succ, leNat, ih]
  rw [leAt, sliceBytes, List.drop_replicate, List.take_replicate]
  exact h _

/-- A block of 64 bytes for Lehr B's window, of a frame, with no records (R433). -/
def fbHead : List Byte := leBytes 4 1 ++ leBytes 4 7 ++ List.replicate 52 0#8

def fbBytes : List Byte := fbHead ++ leBytes 4 (crc32c fbHead)

/-- Requests of Lehr A's node. -/
def lehrANode (s : State) : Req := packetReq (s.at 0) 0x66 18 0 none

/-- A request of Lehr A's node that names an owner. -/
def ownedReq : Req := packetReq (live.at 0) 0x66 18 0 (some (cmdKey (18 : Ident).val (1#32).toNat))

def recWrite : State × Option Poison := recReq (live.at 0) ownedReq 0x2000000000 (leBytes 11 0) 0 1 (List.replicate 16 0#8)

/-- An entry of an opcode, its other bytes given one by one. -/
def entryOf (l : List (Nat × Nat)) : BitVec 512 := BitVec.ofNat 512 (l.foldl (fun a p => a + p.2 * 256 ^ p.1) 0)

theorem pair_of {α β : Type} {x : α × β} {b : β} (h : x.2 = b) : x = (x.1, b) := by
  cases h
  rfl

theorem leBytes_len : ∀ n v, (leBytes n v).length = n
  | 0, _ => rfl
  | n + 1, v => by simp [leBytes, leBytes_len n]

/-- Bench with a core idle and a command of class B with a run that waits. -/
def oneRun : State := inCmds [cmdOf [(0, 16), (2, 2)] .ready [runIn .queued]] (coreIn .idle)

def oneCand : Cand := ⟨cmdOf [(0, 16), (2, 2)] .ready [runIn .queued], 0, .main, [3, 0, 0, 2, 2 ^ 80, 0, 0], none⟩

/-- A class S command that no core takes while core 5 runs a command of class B. -/
def twoRuns : State :=
  inCmds [cmdOf [(0, 16), (2, 2)] .running [runIn (.active 5)], { cmdOf [(0, 16)] .ready [runIn .queued] with seq := 1 }] ((coreIn .run).setRegBit (Reg.coreState 5) 4 true)

/-- A period of Marver open in a mode, and Marver with one period. -/
def periodIn (mode : Nat) : MPeriod := ⟨0, 0, none, mode, false, [], 0, 0, [], none, false, [], false, [], [], none, false, [], false⟩

def inPeriod (p : MPeriod) (s : State := State.reset) : State := { s with marver := { s.marver with periods := [p] } }

def injHead : List Byte := leBytes 16 5 ++ leBytes 4 1 ++ [1#8] ++ List.replicate 7 0#8

def injBytes : List Byte := injHead ++ leBytes 4 (crc32c injHead)

def gp0 : Gptp := State.reset.marver.gp

def withGp (g : Gptp) (s : State := State.reset) : State := { s with marver := { s.marver with gp := g } }

def oneTrig : State := { live with bench := { live.bench with triggers := [⟨0, 0, 0, 1, 0, 0⟩] } }

def noTrig : State := { (oneTrig.at 0) with bench := { (oneTrig.at 0).bench with triggers := [] } }

theorem logs_reset : LogsWf State.reset := by
  unfold LogsWf EvLog.within
  decide


/-- A pool page of crucible 2 being scrubbed. -/
def scrubS (s : State := State.reset) : State := { s with cullet := [(2, { Cullet.empty with pages := [(0xFFFFF, .scrub)] })] }

def scrubP : State := scrubS (withRegs [(Reg.culletPoolcfg 2, 2 ^ 24)])

def live2 : State := withRegs [(Reg.culletPoolcfg 2, 2 ^ 24)] live

/-! ## What WellFormed refuses -/

theorem test_wf_csi2_long (l : List Byte) (h : l.length = 65536) : Instr.wf (.csi2Packet 0 0 0 l false false false 0) = false := by
  rw [Instr.wf, h]
  decide
theorem test_wf_eth_long (l : List Byte) (h : l.length = 65536) : Instr.wf (.ethFrameReceive 0 l true false 0) = false := by
  rw [Instr.wf, h]
  decide
theorem test_wf_bar4_empty : Instr.wf (.bar4Write 0 0 []) = false := by decide
theorem test_wf_bar4_long (l : List Byte) (h : l.length = 513) : Instr.wf (.bar4Write 0 0 l) = false := by
  rw [Instr.wf, h]
  decide
theorem test_wf_copy_long (l : List Byte) (h : l.length = 2 ^ 32) : Instr.wf (.copyBlock 0 0 l true ⟨.clean, .clean⟩ 0) = false := by
  rw [Instr.wf, h]
  decide
theorem test_wf_sensor_long (l : List Byte) (h : l.length = 257) : Instr.wf (.sensorMgmt 0 0 true l .clean 0) = false := by
  rw [Instr.wf, h]
  decide
theorem test_wf_commit_twice : Instr.wf (.configCommit 0 0 .clean [(1, 0), (1, 3)] 0) = false := by decide
theorem test_wf_radar_long (l : List Byte) (h : l.length = 1501) : Instr.wf (.radarPacket 0 l 0) = false := by
  rw [Instr.wf, h]
  decide
theorem test_wf_wr_long (l : List Byte) (h : l.length = 256) : Instr.wf (.wr 0 0 0 0 0 ⟨none, false, .collective, ⟨.clean, .clean⟩⟩ l 0) = false := by
  rw [Instr.wf, h]
  decide
theorem test_wf_rec_long (l : List Byte) (h : l.length = 256) : Instr.wf (.recPacket 0 0 0 0 0 0 0 0 0 l 0) = false := by
  rw [Instr.wf, h]
  decide
theorem test_wf_lost_twice : Instr.wf (.sidebandTimeout 0 [(1, 2), (1, 2)] 0) = false := by decide
theorem test_wf_flit_full : Instr.wf (.bpFlit 0 0 0 0 0 true (List.replicate 16 ⟨0, 0, 0, 0, 0, 0, 0, none⟩) 0) = false := by decide
theorem test_wf_flit_line : Instr.wf (.bpFlit 0 0 0 0 0 true [⟨0, 0, 0, 0, 0, 0, 0, some ⟨false, 0, 0, 0, 0, 0, [none], 0⟩⟩] 0) = false := by decide

/-! ## Single steps; the expected values are the spec's -/

/-- The state after a command. -/
def after (c : Instr) (s : State) : State :=
  match exec c s with
  | .next t => t
  | _ => s

/-- R40: a period in range is taken at once by a stopped timer. -/
theorem test_frmper_taken : (after (.frmperWrite 0 10000000#32) State.reset).frmper = 10000000 := by decide +kernel
/-- R40: one below the range sets BADPER and changes no period. -/
theorem test_frmper_refused : (after (.frmperWrite 0 9999999#32) State.reset).regBit Reg.devFrmctl 1 = true ∧
    (after (.frmperWrite 0 9999999#32) State.reset).frmper = 33333333 := by decide +kernel
/-- R25: a difference of exactly 2^31 is not newer, one less is. -/
theorem test_newer : newer32 0x80000000 0 = false ∧ newer32 0x7FFFFFFF 0 = true ∧ newer32 5 0xFFFFFFF0 = true := by decide
/-- R117: Lehr A's release brings a core from RESET to REPAIR. -/
theorem test_core_released : (after (.coreResetRelease 95) State.reset).coreSt 95 = .repair := by decide +kernel
/-- R326: a doorbell that is not an aligned 32-bit write sets BADDB and moves no index. -/
theorem test_doorbell_unaligned : (after (.sqTailDoorbell 0 7 ⟨0#12, false⟩ (some 1#32)) State.reset).regBit (Reg.bomusRstat 7) 7 = true ∧
    sqTail (after (.sqTailDoorbell 0 7 ⟨0#12, false⟩ (some 1#32)) State.reset) 7 = 0 := by decide +kernel
/-- R510: a WIN of 0 sets WINREF. -/
theorem test_win_zero : (after (.regctlWrite 0 0#32) State.reset).regBit Reg.devRegstat 1 = true := by decide +kernel
/-- R624: CORE_PARK takes an idle core whose park bit is set to OFF. -/
theorem test_core_parked : (after (.corePark 5) (coreIn .idle (withRegs [(Reg.thermPark0, 32)]))).coreSt 5 = .off := by decide +kernel
/-- R86: the residue of minus one is 6. -/
theorem test_residue : residue96 (2 ^ 96 - 1) = 6 ∧ residue96 8 = 1 := by decide
/-- R58: the four modes of 5/2, positive and negative. -/
theorem test_round : (roundShift 0 false 5 1).1 = 2 ∧ (roundShift 1 false 5 1).1 = 2 ∧ (roundShift 2 true 5 1).1 = 3 ∧ (roundShift 3 false 5 1).1 = 3 := by
  decide
/-- R157: 1.5 + 0.5 in lane 0. -/
theorem test_vadd : ((after (.vadd 5) (exe 1 (wd [(0, 2), (3, 8), (48, 3), (53, 1), (58, 2)])
    { Core.reset with vregs := [(512, 0x3FC00000#32), (1024, 0x3F000000#32)] })).core 5).lane 3 0 = 0x40000000 := by decide +kernel
/-- R191: a wait takes its amount, and the instruction's signal is not yet raised. -/
theorem test_wait : (after (.nop 5 0) (exe 0 (wd [(0, 6), (3, 1), (10, 9), (21, 2), (29, 10), (40, 1)]) Core.reset
    (withRegs [(Reg.coreSync 5 9, 3)]))).syncVal 5 9 = 1 := by decide +kernel

/-- R114: the mapping of its example, columns 37 and 90 failed. -/
theorem test_column_map : let s := withRegs [(Reg.coreColmap 5, 0xFFFF5A25)]
    (List.range 128).map (colMap s 5) = List.range 37 ++ (List.range 52).map (· + 38) ++ (List.range 39).map (· + 91) ∧ gatedColumns s 5 = [37, 90, 130, 131] := by
  decide +kernel

/-! ## Witnesses: for each set of hypotheses of a statement, a state and operands that meet it -/

theorem wit_FrameTimerCommands_1 : ∃ (s : State) (who : Ident), mgmt who = true ∧ locked s Reg.devFrmctl = false ∧ s.frame.nextBoundary = none ∧ 0 < s.frmper :=
  ⟨State.reset, 16, by decide +kernel⟩

theorem wit_FrameTimerCommands_2 : ∃ (s : State) (who : Ident), mgmt who = true ∧ locked s Reg.devFrmctl = false :=
  ⟨withRegs [(Reg.devFrmctl, 1)], 0, by decide +kernel⟩

theorem wit_FrameTimerCommands_3a : ∃ (s : State) (who : Ident) (v : BitVec 32), mgmt who = true ∧ locked s Reg.devFrmper = false ∧ s.timerStopped = true ∧ 10000000 ≤ v.toNat ∧ v.toNat ≤ 100000000 :=
  ⟨State.reset, 0, 10000000#32, by decide +kernel⟩

theorem wit_FrameTimerCommands_3b : ∃ (s : State) (who : Ident) (v : BitVec 32), mgmt who = true ∧ locked s Reg.devFrmper = false ∧ s.timerStopped = true ∧ 10000000 ≤ v.toNat ∧ v.toNat ≤ 100000000 :=
  ⟨State.reset, 16, 100000000#32, by decide +kernel⟩

theorem wit_FrameTimerCommands_4 : ∃ (s : State) (who : Ident), mgmt who = true ∧ locked s Reg.devFrmphase = false ∧ s.timerStopped = true :=
  ⟨State.reset, 16, by decide +kernel⟩

theorem wit_FrameTimerCommands_5 : ∃ (s : State) (who : Ident), mgmt who = true ∧ s.timerStopped = true :=
  ⟨State.reset, 0, by decide +kernel⟩

theorem wit_HeatCommands_2 : ∃ (s : State), s.vp = s.vcap ∧ 700 < s.vp ∧ (meanOf s.therm.samples 10).1 ≤ s.plim * (16 * max 1 (meanOf s.therm.samples 10).2) ∧ (s.plim - s.physt) * (16 * max 1 (meanOf s.therm.samples 10).2) ≤ (meanOf s.therm.samples 10).1 ∧ s.pace = 64 :=
  ⟨{ (withRegs [(Reg.thermPwrctl, 450)]).setRegFld Reg.thermPwr 16 10 850 with therm := { State.reset.therm with samples := [7200] } }, by decide +kernel⟩

theorem wit_HeatCommands_3 : ∃ (s : State) (s1 : State) (s2 : State) (i : Fin 512) (v : BitVec 13) (t : Nat), s.regBit (Reg.thermSens i.val) 14 = false ∧ s1 = showReading (s.at t) i.val (some (signedOf v.toNat 13)) ∧ s2 = sensorStreaks s1 i.val (some (signedOf v.toNat 13)) ∧ s2.regBit (Reg.thermSens i.val) 14 = false :=
  ⟨State.reset, _, _, 511, 8191#13, 0, by decide +kernel, rfl, rfl, by decide +kernel⟩

theorem wit_HeatCommands_4 : ∃ (s : State) (who : Ident) (temp : BitVec 12), mgmt who = true ∧ signedOf temp.toNat 12 ≤ ((16 * (s.coolMax - 2) : Nat) : Int) :=
  ⟨State.reset, 0, 608#12, by decide +kernel⟩

theorem wit_HeatCommands_5 : ∃ (s : State) (t : Nat), s.regBit Reg.thermStat 2 = false ∧ s.therm.coolantAt.getD 0 + 2000000000 ≤ t :=
  ⟨State.reset, 2000000000, by decide +kernel⟩

theorem wit_HeatCommands_6 : ∃ (s : State) (c : Fin 96), parkBit s c.val = true ∧ s.coreSt c.val = .idle :=
  ⟨coreIn .idle (withRegs [(Reg.thermPark0, 32)]), 5, by decide +kernel⟩

theorem wit_HeatCommands_7 : ∃ (s : State) (c : Fin 96), parkBit s c.val = false ∧ s.coreSt c.val = .off :=
  ⟨coreIn .off, 5, by decide +kernel⟩

theorem wit_HeatCommands_8 : ∃ (s : State) (c : Fin 96), s.coreSt c.val = .reheat ∧ s.regFld (Reg.thermRh c.val) 0 10 < 1023 :=
  ⟨(coreIn .reheat).setRegFld (Reg.thermRh 5) 0 10 1022, 5, by decide +kernel⟩

theorem wit_HeatCommands_9 : ∃ (s : State) (c : Fin 96), s.coreSt c.val = .reheat :=
  ⟨coreIn .reheat, 5, by decide +kernel⟩

theorem wit_HeatCommands_10 : ∃ (s : State) (c : Fin 96), s.coreSt c.val = .reheat :=
  ⟨coreIn .reheat, 5, by decide +kernel⟩

theorem wit_HeatCommands_11 : ∃ (s : State) (c : Fin 96) (t : Nat), s.regBit (Reg.thermRh c.val) 10 = false ∧ (s.reg (Reg.thermRht c.val)).toNat + s.rhlim * 1000000000 ≤ t :=
  ⟨State.reset, 95, State.reset.rhlim * 1000000000, by decide +kernel⟩

theorem wit_HeatCommands_12 : ∃ (s : State), s.regBit Reg.thermAgectl 0 = true :=
  ⟨withRegs [(Reg.thermAgectl, 1)], by decide +kernel⟩

theorem wit_HeatCommands_14 : ∃ (s : State), 105 * s.plim * (16 * max 1 (meanOf s.therm.samples 10).2) < 100 * (meanOf s.therm.samples 10).1 ∧ 700 < s.vp ∧ s.pace = 64 :=
  ⟨{ (withRegs [(Reg.thermPwrctl, 450)]).setRegFld Reg.thermPwr 16 10 850 with therm := { State.reset.therm with samples := [8000] } }, by decide +kernel⟩

theorem wit_RegulationCommands_1 : ∃ (s : State) (t : Nat), t % (s.win * 1000) = 0 :=
  ⟨State.reset, 0, by decide +kernel⟩

theorem wit_RegulationCommands_2 : ∃ (s : State) (who : Ident) (k : Fin 4) (m : Fin 21) (v : BitVec 64), mgmt who = true ∧ admitted (minSum (s.setReg (Reg.devRegbud k.val m.val) (setFld (setFld 0#64 0 20 (budField v)) 32 20 (minField v))) k.val) (s.regcap k.val) = true :=
  ⟨State.reset, 0, 3, 20, 0#64, by decide +kernel⟩

theorem wit_RegulationCommands_3a : ∃ (s : State) (who : Ident) (v : BitVec 32), mgmt who = true ∧ 1 ≤ bitsOf v.toNat 0 7 ∧ bitsOf v.toNat 0 7 ≤ 64 ∧ (∀ k : Fin 4, admitted (minSum s k.val) (capFormula (bitsOf v.toNat 0 7) s.mem.refForce (liveChannels s k.val)) = true) :=
  ⟨State.reset, 16, 1#32, by decide +kernel⟩

theorem wit_RegulationCommands_3b : ∃ (s : State) (who : Ident) (v : BitVec 32), mgmt who = true ∧ 1 ≤ bitsOf v.toNat 0 7 ∧ bitsOf v.toNat 0 7 ≤ 64 ∧ (∀ k : Fin 4, admitted (minSum s k.val) (capFormula (bitsOf v.toNat 0 7) s.mem.refForce (liveChannels s k.val)) = true) :=
  ⟨State.reset, 16, 64#32, by decide +kernel⟩

theorem wit_MemoryCommands_1 : ∃ (s : State) (t : Nat), onGrid t (fld s.mem.refForce 32 32) (refreshP s) = true ∧ s.regBit Reg.devMemstat 1 = false ∧ s.reg Reg.devMemref = s.mem.refForce :=
  ⟨State.reset, 0, by decide +kernel⟩

theorem wit_MemoryCommands_2 : ∃ (s : State) (t : Nat) (u : Nat), s.mem.stallUntil = some u ∧ u ≤ t :=
  ⟨{ State.reset with mem := { State.reset.mem with stallUntil := some 7 } }, 7, 7, by decide +kernel⟩

theorem wit_MemoryCommands_3a : ∃ (who : Ident) (v : BitVec 64), mgmt who = true ∧ memrefOk v.toNat = true :=
  ⟨0, 15729640#64, by decide +kernel⟩

theorem wit_MemoryCommands_3b : ∃ (who : Ident) (v : BitVec 64), mgmt who = true ∧ memrefOk v.toNat = true :=
  ⟨16, 33493534#64, by decide +kernel⟩

theorem wit_MemoryCommands_4 : ∃ (s : State) (temp : BitVec 8), s.therm.memThrottled = [] ∧ s.mem.memHeld = [] ∧ signedOf temp.toNat 8 < (s.memHot : Int) - 3 ∧ signedOf temp.toNat 8 < (s.memTrip : Int) :=
  ⟨State.reset, 128#8, by decide +kernel⟩

theorem wit_MemoryCommands_5 : ∃ (s : State) (who : Ident), mgmt who = true ∧ pendingMapValid s = true ∧ s.regFld Reg.devSbstat 0 14 = 0 ∧ streamsOff s = true ∧ s.regBit Reg.devMemstat 1 = false ∧ s.regBit Reg.devMemstat 2 = false :=
  ⟨State.reset, 16, by decide +kernel⟩

theorem wit_MemoryCommands_6 : ∃ s : State, s.regBit Reg.devMemstat 2 = true ∧ s.bench.spillCopies = [] ∧ allSegments.filter (fun p => segmentMoved s p.1 p.2) = [] := by
  refine ⟨withRegs [(Reg.devMemstat, 4)], by decide +kernel, rfl, List.filter_eq_nil_iff.mpr fun p _ => ?_⟩
  have h : ∀ off, off ≠ Reg.devMemstat → (withRegs [(Reg.devMemstat, 4)]).reg off = regReset off := fun off e => reg_setReg_other _ _ e
  have ha : pendA (withRegs [(Reg.devMemstat, 4)]) = rangeA (withRegs [(Reg.devMemstat, 4)]) :=
    funext fun n => h _ (by simp [Reg.devMemmapa, Reg.devMemstat]; omega)
  have hm : pendM (withRegs [(Reg.devMemstat, 4)]) = rangeM (withRegs [(Reg.devMemstat, 4)]) :=
    funext fun n => h _ (by simp [Reg.devMemmapm, Reg.devMemstat]; omega)
  simp [segmentMoved, ha, hm]

theorem wit_MemoryCommands_7 : ∃ (s : State) (who : Ident), mgmt who = true ∧ s.regFld Reg.devSbstat 0 14 = 0 ∧ streamsOff s = true ∧ s.regBit Reg.devMemstat 1 = false ∧ s.regBit Reg.devMemstat 2 = false :=
  ⟨State.reset, 0, by decide +kernel⟩

theorem wit_MemoryCommands_8 : ∃ (s : State), s.mem.parking = true ∧ s.bench.spillCopies = [] :=
  ⟨{ State.reset with mem := { State.reset.mem with parking := true } }, by decide +kernel⟩

theorem wit_MemoryCommands_9 : ∃ (s : State), s.regBit Reg.devMemstat 1 = true :=
  ⟨withRegs [(Reg.devMemstat, 2)], by decide +kernel⟩

theorem wit_MemoryCommands_10 : ∃ (s : State) (ch : Fin 64) (k : Nat), s.chSt ch.val = 2 ∧ scrubSegment s ch.val = some k ∧ s.regFld (Reg.memcScrubptr (ch.val / 4) (ch.val % 4)) 0 24 / 2 ^ 21 = k ∧ s.regFld (Reg.memcScrubptr (ch.val / 4) (ch.val % 4)) 0 24 % 2 ^ 21 < 2 ^ 21 - 1 :=
  ⟨chanIn 2 [(chstat 9, 0x10), (Reg.memcScrubptr 2 1, 2 ^ 21 - 2)], 9, 0, by decide +kernel⟩

theorem wit_ChannelCommands_1 : ∃ (s : State) (ch : Fin 64), s.chSt ch.val = 2 :=
  ⟨chanIn 2, 9, by decide +kernel⟩

theorem wit_ChannelCommands_2a : ∃ (s : State) (ch : Fin 64), (s.chSt ch.val = 2 ∨ s.chSt ch.val = 6) :=
  ⟨chanIn 2, 9, by decide +kernel⟩

theorem wit_ChannelCommands_2b : ∃ (s : State) (ch : Fin 64), (s.chSt ch.val = 2 ∨ s.chSt ch.val = 6) :=
  ⟨chanIn 6, 9, by decide +kernel⟩

theorem wit_ChannelCommands_3 : ∃ (s : State) (who : Ident) (ch : Fin 64), who.val = 16 ∧ s.chSt ch.val = 3 ∧ s.regFld (chstat ch.val) 12 4 < s.regFld Reg.devMemctl 16 4 :=
  ⟨chanIn 3 [(Reg.devMemctl, 0x10000)], 16, 9, by decide +kernel⟩

theorem wit_ChannelCommands_4 : ∃ (s : State) (ch : Fin 64) (t : Nat), s.chSt ch.val = 3 ∧ (s.reg (Reg.memcFrztime (ch.val / 4) (ch.val % 4))).toNat + s.frzhold ≤ t ∧ s.regFld (chstat ch.val) 12 4 < s.regFld Reg.devMemctl 16 4 :=
  ⟨chanIn 3 [(Reg.devMemctl, 0x10000)], 9, 0, by decide +kernel⟩

theorem wit_ChannelCommands_5a : ∃ (s : State) (who : Ident) (ch : Fin 64) (t : Nat), who.val = 16 ∧ (s.chSt ch.val = 1 ∧ max s.now t ≤ sget 0 s.mem.entered ch.val + 300000000 ∨ s.chSt ch.val = 4 ∧ max s.now t ≤ sget 0 s.mem.entered ch.val + 20100000) :=
  ⟨chanIn 1, 16, 9, 300000000, by decide +kernel⟩

theorem wit_ChannelCommands_5b : ∃ (s : State) (who : Ident) (ch : Fin 64) (t : Nat), who.val = 16 ∧ (s.chSt ch.val = 1 ∧ max s.now t ≤ sget 0 s.mem.entered ch.val + 300000000 ∨ s.chSt ch.val = 4 ∧ max s.now t ≤ sget 0 s.mem.entered ch.val + 20100000) :=
  ⟨chanIn 4, 16, 9, 20100000, by decide +kernel⟩

theorem wit_ChannelCommands_6 : ∃ (who : Ident), who.val = 16 :=
  ⟨16, by decide +kernel⟩

theorem wit_ChannelCommands_7 : ∃ (s : State) (ch : Fin 64) (t : Nat), s.chSt ch.val = 4 ∧ sget 0 s.mem.entered ch.val + 20100000 < t :=
  ⟨chanIn 4, 9, 20100001, by decide +kernel⟩

theorem wit_ChannelCommands_8 : ∃ (s : State) (ch : Fin 64) (t : Nat), s.chSt ch.val = 1 ∧ sget 0 s.mem.entered ch.val + 300000000 < t :=
  ⟨chanIn 1, 9, 300000001, by decide +kernel⟩

theorem wit_ChannelCommands_9a : ∃ (s : State) (who : Ident) (ch : Fin 64), who.val = 16 ∧ helperReady s ch.val = true :=
  ⟨chanIn 1, 16, 9, by decide +kernel⟩

theorem wit_ChannelCommands_9b : ∃ (s : State) (who : Ident) (ch : Fin 64), who.val = 16 ∧ helperReady s ch.val = true :=
  ⟨chanIn 4, 16, 9, by decide +kernel⟩

theorem wit_ChannelCommands_10 : ∃ (s : State) (ch : Fin 64), s.regBit (Reg.memcTres (ch.val / 4) (ch.val % 4)) 31 = true :=
  ⟨chanIn 1 [(Reg.memcTres 2 1, 0x80000000)], 9, by decide +kernel⟩

theorem wit_ChannelCommands_12 : ∃ (s : State) (ch : Fin 64), s.chSt ch.val = 1 :=
  ⟨chanIn 1, 9, by decide +kernel⟩

/-- A vector word of an opcode, of type INT32 where the opcode asks for it. -/
def vecWord (op : Nat) : BitVec 128 := wd [(0, 2), (3, op), (48, 3), (68, if (vform op).type = some 1 then 1 else 0), (72, 511)]

theorem wit_VectorInstructions_1 : ∀ op ∈ [0x04, 0x08, 0x09, 0x0A, 0x0B, 0x0C, 0x0D, 0x0E, 0x0F, 0x10, 0x11, 0x12, 0x13, 0x14, 0x15, 0x16, 0x17, 0x18,
      0x19, 0x1A, 0x20, 0x21, 0x22, 0x23, 0x24, 0x25, 0x26, 0x27, 0x30, 0x31, 0x32, 0x33],
    ∃ (s : State) (w : Nat), HeadReady s 5 1 w noChecks ∧ wEng w = 2 ∧ wOp w = op := by
  intro op ho
  have h : ∀ op ∈ [0x04, 0x08, 0x09, 0x0A, 0x0B, 0x0C, 0x0D, 0x0E, 0x0F, 0x10, 0x11, 0x12, 0x13, 0x14, 0x15, 0x16, 0x17, 0x18,
      0x19, 0x1A, 0x20, 0x21, 0x22, 0x23, 0x24, 0x25, 0x26, 0x27, 0x30, 0x31, 0x32, 0x33],
      (firstFault (wordChecks 1 false (vecWord op).toNat) = none ∧ wEng (vecWord op).toNat = 2 ∧ wOp (vecWord op).toNat = op) ∧
      (running (exe 1 (vecWord op)) 5 = true ∧ headWord (exe 1 (vecWord op)) 5 1 = some (some (vecWord op)) ∧
        waitBlocked (atWait (exe 1 (vecWord op)) 5 (vecWord op).toNat) 5 (vecWord op).toNat = false ∧
        unitBusy (atWait (exe 1 (vecWord op)) 5 (vecWord op).toNat) 5 (wEng (vecWord op).toNat) (wOp (vecWord op).toNat) (vecWord op).toNat = false ∧
        (wordTile (vecWord op).toNat).isNone = true ∧ atTarget (exe 1 (vecWord op)) 5 1 = false) := by decide +kernel
  obtain ⟨⟨a, b, c⟩, d, e, f, g, i, j⟩ := h op ho
  exact ⟨exe 1 (vecWord op), (vecWord op).toNat, headReady_of (vecWord op)
    ⟨by decide, rfl, d, e, rfl, a, j, f, g, rfl, by rw [Option.isNone_iff_eq_none.mp i]; rfl⟩, b, c⟩



def vectorInstructions_3W : BitVec 128 := wd [(0, 2), (3, 1), (76, 10), (80, 511)]

def vectorInstructions_3S : State := exe 1 vectorInstructions_3W

theorem wit_VectorInstructions_3 : ∃ (s : State) (core : Fin 96) (w : Nat) (e : _), HeadReady s core.val 1 w noChecks ∧ wEng w = 2 ∧ wOp w = 1 ∧ (s.core core.val).spBadIn (bitsOf w 53 23) (packedBytes (bitsOf w 76 4) (bitsOf w 80 10 + 1)) = none ∧ e = (fun i => laneOfElem (bitsOf w 76 4) (elemAt (bitsOf w 76 4) ((s.core core.val).spRead (bitsOf w 53 23) (packedBytes (bitsOf w 76 4) (bitsOf w 80 10 + 1))) i)) :=
  ⟨vectorInstructions_3S, 5, vectorInstructions_3W.toNat, _, headReady_of vectorInstructions_3W (by decide +kernel), by decide +kernel, by decide +kernel, by decide +kernel, rfl⟩

def vectorInstructions_4W : BitVec 128 := wd [(0, 2), (3, 3), (76, 13)]

def vectorInstructions_4S : State := exe 1 vectorInstructions_4W

theorem wit_VectorInstructions_4 : ∃ (s : State) (core : Fin 96) (w : Nat) (e : _), HeadReady s core.val 1 w noChecks ∧ wEng w = 2 ∧ wOp w = 3 ∧ (s.core core.val).spBadIn (bitsOf w 53 23) ((bitsOf w 80 10 + blockLen (bitsOf w 76 4)) / blockLen (bitsOf w 76 4)) = none ∧ e = (fun i => putF32 0 true (decodeNum (bitsOf w 76 4) ((s.core core.val).spByte (bitsOf w 53 23 + i / blockLen (bitsOf w 76 4))).toNat, false)) :=
  ⟨vectorInstructions_4S, 5, vectorInstructions_4W.toNat, _, headReady_of vectorInstructions_4W (by decide +kernel), by decide +kernel, by decide +kernel, by decide +kernel, rfl⟩

def vectorInstructions_5W : BitVec 128 := wd [(0, 2), (3, 2), (76, 11), (80, 511)]

def vectorInstructions_5S : State := exe 1 vectorInstructions_5W

theorem wit_VectorInstructions_5 : ∃ (s : State) (core : Fin 96) (w : Nat), HeadReady s core.val 1 w noChecks ∧ wEng w = 2 ∧ wOp w = 2 ∧ fmtWidth (bitsOf w 76 4) = 32 ∧ (s.core core.val).spBadPart (bitsOf w 53 23) (4 * (bitsOf w 80 10 + 1)) = none :=
  ⟨vectorInstructions_5S, 5, vectorInstructions_5W.toNat, headReady_of vectorInstructions_5W (by decide +kernel), by decide +kernel⟩

def vectorInstructions_6W : BitVec 128 := wd [(0, 2), (3, 2), (76, 0)]

def vectorInstructions_6S : State := exe 1 vectorInstructions_6W

theorem wit_VectorInstructions_6 : ∃ (s : State) (core : Fin 96) (w : Nat) (rs : _), HeadReady s core.val 1 w noChecks ∧ wEng w = 2 ∧ wOp w = 2 ∧ fmtWidth (bitsOf w 76 4) ≠ 32 ∧ rs = (List.range (bitsOf w 80 10 + 1)).map (fun i => convertNum (bitsOf w 76 4) (bitsOf w 90 2) (decide (bitsOf w 92 1 = 1)) (if isIntFmt (bitsOf w 76 4) then numOfInt (i32 ((s.core core.val).lane (wVd w) i)) else f32 ((s.core core.val).lane (wVd w) i))) ∧ (s.core core.val).spBadPart (bitsOf w 53 23) (packElems (bitsOf w 76 4) (rs.map (·.1))).length = none :=
  ⟨vectorInstructions_6S, 5, vectorInstructions_6W.toNat, _, headReady_of vectorInstructions_6W (by decide +kernel), by decide +kernel, by decide +kernel, by decide +kernel, rfl, by decide +kernel⟩

def arrayInstructions_1W : BitVec 128 := wd [(3, 1), (48, 7), (62, 1), (66, 1)]

def arrayInstructions_1S : State := exe 0 arrayInstructions_1W

theorem wit_ArrayInstructions_1 : ∃ (s : State) (core : Fin 96) (w : Nat), HeadReady s core.val 0 w clrChecks ∧ wEng w = 0 ∧ wOp w = 1 :=
  ⟨arrayInstructions_1S, 5, arrayInstructions_1W.toNat, headReady_of arrayInstructions_1W (by decide +kernel), by decide +kernel⟩

def arrayInstructions_2W : BitVec 128 := wd [(3, 2), (71, 255)]

def arrayInstructions_2S : State := exe 0 arrayInstructions_2W

theorem wit_ArrayInstructions_2 : ∃ (s : State) (core : Fin 96) (ph : Phys) (w : Nat), HeadReady s core.val 0 w wldChecks ∧ wEng w = 0 ∧ wOp w = 2 ∧ ph.sp = .clean ∧ (s.core core.val).spBad = [] ∧ bitsOf w 124 1 = 0 :=
  ⟨arrayInstructions_2S, 5, ⟨.clean, .clean, false⟩, arrayInstructions_2W.toNat, headReady_of arrayInstructions_2W (by decide +kernel), by decide +kernel⟩

def arrayInstructions_3W : BitVec 128 := wd [(3, 2), (120, 5), (124, 1)]

def arrayInstructions_3S : State := exe 0 arrayInstructions_3W

theorem wit_ArrayInstructions_3 : ∃ (s : State) (core : Fin 96) (ph : Phys) (w : Nat), HeadReady s core.val 0 w wldChecks ∧ wEng w = 0 ∧ wOp w = 2 ∧ ph.sp = .clean ∧ (s.core core.val).spBad = [] :=
  ⟨arrayInstructions_3S, 5, ⟨.clean, .clean, false⟩, arrayInstructions_3W.toNat, headReady_of arrayInstructions_3W (by decide +kernel), by decide +kernel⟩

theorem wit_ArrayInstructions_4 : ∃ (s : State) (core : Fin 96), running s core.val = true ∧ headSwaps s core.val = true ∧ (s.core core.val).swapped = false ∧ (s.core core.val).wldFresh = true ∧ (∀ f ∈ (s.core core.val).flight, f.done = true ∨ f.eng ≠ 0) :=
  ⟨exe 0 (wd [(3, 3), (121, 1)]) { Core.reset with wldFresh := true }, 5, by decide +kernel⟩

def arrayInstructions_5W : BitVec 128 := wd [(3, 3)]

def arrayInstructions_5S : State := exe 0 arrayInstructions_5W { Core.reset with active := some ⟨0, false, false, 1, 1, 0, [[1]], [], 0⟩ }

theorem wit_ArrayInstructions_5 : ∃ (s : State) (core : Fin 96) (ph : Phys) (w : Nat), HeadReady s core.val 0 w (mmChecks core.val) ∧ wEng w = 0 ∧ wOp w = 3 ∧ ph.sp = .clean ∧ (s.core core.val).spBad = [] :=
  ⟨arrayInstructions_5S, 5, ⟨.clean, .clean, false⟩, arrayInstructions_5W.toNat, headReady_of arrayInstructions_5W (by decide +kernel), by decide +kernel⟩

def arrayInstructions_6W : BitVec 128 := wd [(0, 1), (3, 1), (88, 1024), (104, 3)]

def arrayInstructions_6S : State := exe 0 arrayInstructions_6W

theorem wit_ArrayInstructions_6 : ∃ (s : State) (core : Fin 96) (ph : Phys) (w : Nat), HeadReady s core.val 0 w noChecks ∧ wEng w = 1 ∧ wOp w = 1 ∧ ph.sp = .clean ∧ ph.upset = false ∧ (s.core core.val).spBad = [] ∧ (∀ r j, bitsOf w 51 7 ≤ r → r ≤ bitsOf w 51 7 + bitsOf w 58 7 → j < 128 → ((s.core core.val).acc (physTile s core.val (bitsOf w 48 3)) r j).resOk ((s.core core.val).tileSt (physTile s core.val (bitsOf w 48 3))).fmode = true) :=
  ⟨arrayInstructions_6S, 5, ⟨.clean, .clean, false⟩, arrayInstructions_6W.toNat, headReady_of arrayInstructions_6W (by decide +kernel), by decide +kernel, by decide +kernel, by decide +kernel, by decide +kernel, by decide +kernel, fun r j _ _ _ => accs_zero (by decide +kernel) _ r j _⟩

def moveInstructions_7W : BitVec 128 := wd [(0, 4), (3, 3), (71, 1)]

def moveInstructions_7S : State := exe 3 moveInstructions_7W

theorem wit_MoveInstructions_7 : ∃ (s : State) (core : Fin 96) (ph : Phys) (w : Nat), HeadReady s core.val 3 w noChecks ∧ wEng w = 4 ∧ wOp w = 3 ∧ ph.sp = .clean ∧ (s.core core.val).spBad = [] ∧ bitsOf w 110 1 = 0 :=
  ⟨moveInstructions_7S, 5, ⟨.clean, .clean, false⟩, moveInstructions_7W.toNat, headReady_of moveInstructions_7W (by decide +kernel), by decide +kernel⟩

def moveInstructions_8aW : BitVec 128 := wd [(0, 6), (3, 1)]

def moveInstructions_8aS : State := exe 0 moveInstructions_8aW

theorem wit_MoveInstructions_8a : ∃ (s : State) (core : Fin 96) (k : Fin 5) (w : Nat), HeadReady s core.val k.val w noChecks ∧ wEng w = 6 :=
  ⟨moveInstructions_8aS, 5, 0, moveInstructions_8aW.toNat, headReady_of moveInstructions_8aW (by decide +kernel), by decide +kernel⟩

def moveInstructions_8bW : BitVec 128 := wd [(0, 6), (3, 4)]

def moveInstructions_8bS : State := exe 4 moveInstructions_8bW

theorem wit_MoveInstructions_8b : ∃ (s : State) (core : Fin 96) (k : Fin 5) (w : Nat), HeadReady s core.val k.val w noChecks ∧ wEng w = 6 :=
  ⟨moveInstructions_8bS, 5, 4, moveInstructions_8bW.toNat, headReady_of moveInstructions_8bW (by decide +kernel), by decide +kernel⟩

def moveInstructions_9W : BitVec 128 := wd [(0, 6), (3, 2)]

def moveInstructions_9S : State := exe 4 moveInstructions_9W

theorem wit_MoveInstructions_9 : ∃ (s : State) (core : Fin 96) (k : Fin 5) (w : Nat), HeadReady s core.val k.val w noChecks ∧ wEng w = 6 ∧ wOp w = 2 ∧ k.val < (s.core core.val).streams.length :=
  ⟨moveInstructions_9S, 5, 4, moveInstructions_9W.toNat, headReady_of moveInstructions_9W (by decide +kernel), by decide +kernel⟩

def moveInstructions_10W : BitVec 128 := wd [(0, 6), (3, 3), (48, 1)]

def moveInstructions_10S : State := exe 0 moveInstructions_10W { Core.reset with nckpt := 1 }

theorem wit_MoveInstructions_10 : ∃ (s : State) (core : Fin 96) (k : Fin 5) (w : Nat), HeadReady s core.val k.val w (ckptChecks core.val k.val) ∧ wEng w = 6 ∧ wOp w = 3 ∧ k.val < (s.core core.val).streams.length :=
  ⟨moveInstructions_10S, 5, 0, moveInstructions_10W.toNat, headReady_of moveInstructions_10W (by decide +kernel), by decide +kernel⟩

/-- A stride descriptor of one byte in slot 0, at the start of the scratchpad; the slot is bound to 64 KiB of DRAM. -/
def moveCore : Core := { Core.reset with nslot := 1, sp := [(6, 1), (8, 1), (14, 1), (20, 1)] }

def liveSlot : State := withRegs [(Reg.coreTpslotbase 5 0, 0x100000), (Reg.coreTpslotsize 5 0, 0x10000)] live

def ldW : BitVec 128 := wd [(0, 3), (3, 1), (48, 0x1000)]

def ldS : State := exe 2 ldW moveCore liveSlot

theorem wit_MoveInstructions_1 : ∃ (s u : State) (core : Fin 96) (ph : Phys) (w n : Nat), HeadReady s core.val 2 w (strideChecks core.val ph) ∧
    wEng w = 3 ∧ wOp w = 1 ∧ ldEffect core.val ph (afterWait s core.val w) w = (u, .ok n) := by
  obtain ⟨u, e, v, _⟩ := devRead_ok (s := ldS) (r := coreReq ldS 5) (a := 0x100000) (n := 1) (by decide +kernel)
  have hw : afterWait ldS 5 ldW.toNat = ldS := by decide +kernel
  have hd : descAt ldS 5 (bitsOf ldW.toNat 71 18) = .ok (leNat ((moveCore.spRead 0 32))) := rfl
  have hr : (strideOf (leNat (moveCore.spRead 0 32))).runs = [(0, 0)] ∧ (strideOf (leNat (moveCore.spRead 0 32))).slot = 0 ∧
    (strideOf (leNat (moveCore.spRead 0 32))).run = 1 := by decide +kernel
  have ha : slotAddr ldS 5 0 0 = 0x100000 := by decide +kernel
  have hs : (ldS.core 5).spBadPart 0x1000 (bytesRead (1 + 0x100000 % 128) ldS (coreReq ldS 5) 0x100000 1).length = none := by decide +kernel
  have hp : bitsOf ldW.toNat 48 23 = 0x1000 := by decide +kernel
  have h : ∃ u n, ldEffect 5 ⟨.clean, .clean, false⟩ ldS ldW.toNat = (u, .ok n) := by
    have ec := coreRead_unfenced e (by rw [view_fab v]; decide +kernel)
    have hc : (u.bump (Reg.corePortrd 5) 1).core 5 = ldS.core 5 := view_core v 5
    simp [ldEffect, takeEcc, hd, hr.1, hr.2.1, hr.2.2, loadRuns, ha, ec, spStore, hc, hs, hp]
  obtain ⟨u, n, h⟩ := h
  exact ⟨ldS, u, 5, ⟨.clean, .clean, false⟩, ldW.toNat, n, headReady_of ldW (by decide +kernel), by decide, by decide, hw.symm ▸ h⟩

/-- The answer of an effect that completes. -/
def okOf (e : Effect) : Option Nat := match e.2 with | .ok n => some n | .error _ => none

theorem ok_of {e : Effect} {n : Nat} (h : okOf e = some n) : e = (e.1, .ok n) := by
  obtain ⟨u, _ | m⟩ := e <;> simp_all [okOf]

def clean : Phys := ⟨.clean, .clean, false⟩

/-- The lines of a record block at the slot's start are cached. -/
def cachedSlot (s : State := liveSlot) : State := { s with cache := (List.range 17).map fun i => (cacheKey 0 0 (0x2000 + i), 0x2001 + i) }

/-- A record block of one row of zeros (R79). -/
def blockHead : List Byte :=
  [0xC0#8, 0xAC#8, 0#8, 0#8, 0#8, 1#8] ++ List.replicate 10 0#8 ++ [0x4F#8, 0x83#8, 0x89#8, 0xA4#8] ++ List.replicate 12 0#8

def blockBytes : List Byte := blockHead ++ List.replicate 2048 0#8

def ldaccW : BitVec 128 := wd [(0, 3), (3, 2), (48, 7), (51, 127)]

def ldaccS : State := exe 2 ldaccW { Core.reset with nslot := 1 } (dram 0x100000 blockHead liveSlot)

theorem block_bytes : ((List.range 2080).map fun i => plainByte ldaccS (0x100000 + i)) = blockBytes := by decide +kernel

theorem crc_zeros : crc32c (List.replicate 2048 0#8) = 0xA489834F := by
  have step : ∀ n c d, (List.replicate 64 0#8).foldl crcByte c = d → (List.replicate (64 + n) 0#8).foldl crcByte c = (List.replicate n 0#8).foldl crcByte d :=
    fun n c d h => by rw [← List.replicate_append_replicate, List.foldl_append, h]
  have h : (List.replicate 2048 0#8).foldl crcByte 0xFFFFFFFF = 1534491824 :=
    (step 1984 4294967295 4231468184 (by decide +kernel)).trans <|
    (step 1920 4231468184 4158167844 (by decide +kernel)).trans <|
    (step 1856 4158167844 2345306063 (by decide +kernel)).trans <|
    (step 1792 2345306063 1200442991 (by decide +kernel)).trans <|
    (step 1728 1200442991 64332339 (by decide +kernel)).trans <|
    (step 1664 64332339 1158271177 (by decide +kernel)).trans <|
    (step 1600 1158271177 3425213895 (by decide +kernel)).trans <|
    (step 1536 3425213895 3473084991 (by decide +kernel)).trans <|
    (step 1472 3473084991 968469611 (by decide +kernel)).trans <|
    (step 1408 968469611 534250289 (by decide +kernel)).trans <|
    (step 1344 534250289 2006181900 (by decide +kernel)).trans <|
    (step 1280 2006181900 3318006521 (by decide +kernel)).trans <|
    (step 1216 3318006521 4236110739 (by decide +kernel)).trans <|
    (step 1152 4236110739 225952960 (by decide +kernel)).trans <|
    (step 1088 225952960 3222365018 (by decide +kernel)).trans <|
    (step 1024 3222365018 290529667 (by decide +kernel)).trans <|
    (step 960 290529667 2519867196 (by decide +kernel)).trans <|
    (step 896 2519867196 2823063697 (by decide +kernel)).trans <|
    (step 832 2823063697 1461178209 (by decide +kernel)).trans <|
    (step 768 1461178209 1921003501 (by decide +kernel)).trans <|
    (step 704 1921003501 2339865869 (by decide +kernel)).trans <|
    (step 640 2339865869 1799837726 (by decide +kernel)).trans <|
    (step 576 1799837726 3119513621 (by decide +kernel)).trans <|
    (step 512 3119513621 175100626 (by decide +kernel)).trans <|
    (step 448 175100626 3713578410 (by decide +kernel)).trans <|
    (step 384 3713578410 4225181274 (by decide +kernel)).trans <|
    (step 320 4225181274 2891649990 (by decide +kernel)).trans <|
    (step 256 2891649990 1540069788 (by decide +kernel)).trans <|
    (step 192 1540069788 2016383911 (by decide +kernel)).trans <|
    (step 128 2016383911 1357258748 (by decide +kernel)).trans <|
    (step 64 1357258748 2111644262 (by decide +kernel)).trans <|
    (step 0 2111644262 1534491824 (by decide +kernel)).trans <|
      rfl
  rw [crc32c, h]
  rfl

theorem words_zeros : ∀ n : Nat, words16 n (List.replicate (n * 16) 0#8) = List.replicate n 0
  | 0 => rfl
  | n + 1 => by
    have h : List.replicate ((n + 1) * 16) 0#8 = List.replicate 16 0#8 ++ List.replicate (n * 16) 0#8 := by
      rw [List.replicate_append_replicate]
      congr 1
      omega
    rw [words16, h, if_neg (by simp), List.take_left' (by simp), List.drop_left' (by simp), words_zeros n, List.replicate_succ]
    rfl

theorem block_ok (x : Core) (t : Nat) : ldaccFault x t 127 1 false (blockBytes.take 32) (blockBytes.drop 32) = none := by
  have h0 : blockBytes.take 32 = blockHead := List.take_left' rfl
  have h0' : blockBytes.drop 32 = List.replicate 2048 0#8 := List.drop_left' rfl
  have h1 : headerOk blockHead = true := by decide +kernel
  have h2 : leAt blockHead 14 2 = 0 := by decide +kernel
  have h3 : leAt blockHead 16 4 = 0xA489834F := by decide +kernel
  have h4 : (tileOfHeader blockHead).fmode = false := by decide +kernel
  have h5 : blockRecs 1 (List.replicate 2048 0#8) = [List.replicate 128 (recOf 0)] := by
    simp only [blockRecs, List.range_one, List.map_cons, List.map_nil, sliceBytes, Nat.zero_mul, List.drop_zero]
    rw [List.take_of_length_le (Nat.le_of_eq List.length_replicate), words_zeros 128, List.map_replicate]
  rw [h0, h0']
  simp only [ldaccFault, h1, h2, h3, h4, h5, crc_zeros]
  simp [recOf, Rec.resOk]
  decide

theorem ldacc_read : ∃ u, coreRead ldaccS (coreReq ldaccS 5) .clean 0x100000 2080 = (u, .ok blockBytes) := by
  obtain ⟨u, e, v, _⟩ := plain_read (s := ldaccS) (r := coreReq ldaccS 5) (a := 0x100000) (n := 2080) (by decide +kernel) (by decide) (by decide +kernel)
  exact ⟨u, coreRead_unfenced (e.trans (by rw [block_bytes])) (by rw [view_fab v]; decide +kernel)⟩

theorem ldacc_word : descAt ldaccS 5 (bitsOf ldaccW.toNat 65 18) = .ok 0 ∧ (strideOf 0).slot = 0 ∧ (strideOf 0).offset = 0 ∧ slotAddr ldaccS 5 0 0 = 0x100000 ∧
    bitsOf ldaccW.toNat 58 7 = 0 ∧ bitsOf ldaccW.toNat 51 7 = 127 ∧ decide (bitsOf ldaccW.toNat 83 1 = 1) = false :=
  ⟨rfl, by decide +kernel, by decide +kernel, by decide +kernel, by decide +kernel, by decide +kernel, by decide +kernel⟩

theorem ldacc_ok {s u : State} {c : Fin 96} {w v a : Nat} {bs : List Byte} (hd : descAt s c.val (bitsOf w 65 18) = .ok v)
    (ha : slotAddr s c.val (strideOf v).slot (strideOf v).offset = a) (hr : bitsOf w 58 7 = 0) (hr0 : bitsOf w 51 7 = 127)
    (hc : decide (bitsOf w 83 1 = 1) = false) (e : coreRead s (coreReq s c.val) .clean a 2080 = (u, .ok bs))
    (hk : ∀ x t, ldaccFault x t 127 1 false (bs.take 32) (bs.drop 32) = none) : ∃ u n, ldaccEffect c.val clean s w = (u, .ok n) := by
  simp only [ldaccEffect, clean, takeEcc, hd, ha, hr, hr0, hc, Nat.zero_add, Nat.one_mul, Nat.reduceAdd, e, hk]
  exact ⟨_, _, rfl⟩

theorem wit_MoveInstructions_2 : ∃ (s u : State) (core : Fin 96) (ph : Phys) (w n : Nat), HeadReady s core.val 2 w (blockChecks core.val ph) ∧
    wEng w = 3 ∧ wOp w = 2 ∧ ldaccEffect core.val ph (afterWait s core.val w) w = (u, .ok n) := by
  have hw : afterWait ldaccS (5 : Fin 96).val ldaccW.toNat = ldaccS := by decide +kernel
  obtain ⟨u, e⟩ := ldacc_read
  obtain ⟨hd, h1, h2, ha, h3, h4, h5⟩ := ldacc_word
  obtain ⟨u, n, h⟩ := ldacc_ok (c := 5) hd (by rw [h1, h2]; exact ha) h3 h4 h5 e block_ok
  exact ⟨ldaccS, u, 5, clean, ldaccW.toNat, n, headReady_of ldaccW (by decide +kernel), by decide, by decide, by rw [hw]; exact h⟩

def stW : BitVec 128 := wd [(0, 4), (3, 1), (48, 0x1000)]

def stS : State := exe 3 stW moveCore liveSlot

theorem wit_MoveInstructions_3 : ∃ (s u : State) (core : Fin 96) (ph : Phys) (w n : Nat), HeadReady s core.val 3 w (strideChecks core.val ph) ∧
    wEng w = 4 ∧ wOp w = 1 ∧ stEffect core.val ph (afterWait s core.val w) w = (u, .ok n) ∧ stageWaits s (issueDone u core.val 3 w n (wordSlot (afterWait s core.val w) core.val w)) = false :=
  ⟨stS, _, 5, clean, stW.toNat, 1, headReady_of stW (by decide +kernel), by decide, by decide, ok_of (by decide +kernel), by decide +kernel⟩

def staccW : BitVec 128 := wd [(0, 4), (3, 2), (48, 7), (51, 127)]

def staccS : State := exe 3 staccW { Core.reset with nslot := 1, run := { Core.reset.run with kind := .reblow } } liveSlot

theorem wit_MoveInstructions_4 : ∃ (s u : State) (core : Fin 96) (ph : Phys) (w n : Nat), HeadReady s core.val 3 w (blockChecks core.val ph) ∧
    wEng w = 4 ∧ wOp w = 2 ∧ staccEffect core.val ph (afterWait s core.val w) w = (u, .ok n) ∧ stageWaits s (issueDone u core.val 3 w n (wordSlot (afterWait s core.val w) core.val w)) = false :=
  ⟨staccS, _, 5, clean, staccW.toNat, 17, headReady_of staccW (by decide +kernel), by decide, by decide, ok_of (by decide +kernel), by decide +kernel⟩

/-- A gather descriptor of one row of one byte, its index 0 beside it. -/
def gidxCore : Core := { Core.reset with nslot := 1, sp := [(6, 1), (12, 1), (14, 1), (36, 1)] }

def gidxW : BitVec 128 := wd [(0, 5), (3, 1), (48, 0x1000), (89, 64)]

def gidxS : State := exe 4 gidxW gidxCore liveSlot

theorem wit_MoveInstructions_5 : ∃ (s u : State) (core : Fin 96) (ph : Phys) (w n : Nat), HeadReady s core.val 4 w (gidxChecks core.val ph) ∧
    wEng w = 5 ∧ wOp w = 1 ∧ gidxEffect core.val ph (afterWait s core.val w) w = (u, .ok n) :=
  ⟨gidxS, _, 5, clean, gidxW.toNat, 1, headReady_of gidxW (by decide +kernel), by decide, by decide, ok_of (by decide +kernel)⟩

/-- A page descriptor of one bias row of one key of sequence 0. -/
def gpageCore : Core := { Core.reset with sp := [(1, 12), (6, 1)] }

def gpageW : BitVec 128 := wd [(0, 5), (3, 2), (48, 0x1000)]

def gpageS : State := exe 4 gpageW gpageCore (withRegs [(Reg.culletSeqcfg 0 0, 1), (Reg.culletSeqlen 0 0, 16 * 2 ^ 32 + 16)])

theorem wit_MoveInstructions_6 : ∃ (s u : State) (core : Fin 96) (ph : Phys) (w n : Nat), HeadReady s core.val 4 w (gpageChecks core.val ph) ∧
    wEng w = 5 ∧ wOp w = 2 ∧ gpageEffect core.val ph (afterWait s core.val w) w = (u, .ok n) :=
  ⟨gpageS, _, 5, clean, gpageW.toNat, 0, headReady_of gpageW (by decide +kernel), by decide, by decide, ok_of (by decide +kernel)⟩

/-- Core 5 with a store that no room is left for, of a command of class B that stages a line. -/
def stallS : State :=
  let s := inCmds [cmdOf [(0, 16), (2, 2)] .running [runIn (.active 5)]] ((stS.setRegBit (Reg.coreState 5) 4 true).setReg (Reg.devStagecfg 0) 0)
  { s with mem := { s.mem with staged := [(0, [(0, 1#8)])] } }







theorem wit_CoreStateCommands_1 : ∃ (s : State) (c : Fin 96), s.coreSt c.val = .reset ∧ heldInReset s c.val = false :=
  ⟨coreIn .reset, 5, by decide +kernel⟩

theorem wit_CoreStateCommands_2 : ∃ (s : State) (c : Fin 96), s.coreSt c.val = .repair ∧ (s.failedCols c.val).length ≤ 4 :=
  ⟨let s := coreIn .repair; { s with rst := { s.rst with repairMap := [(5, [1, 2, 3, 131])] } }, 5, by decide +kernel⟩

theorem wit_CoreStateCommands_3 : ∃ (s : State) (c : Fin 96), s.coreSt c.val = .repair ∧ 4 < (s.failedCols c.val).length :=
  ⟨let s := coreIn .repair; { s with rst := { s.rst with repairMap := [(5, [1, 2, 3, 4, 131])] } }, 5, by decide +kernel⟩

theorem wit_CoreStateCommands_4 : ∃ (s : State) (c : Fin 96), s.coreSt c.val = .selftest ∧ s.regBit (Reg.thermRh c.val) 10 = false :=
  ⟨coreIn .selftest, 5, by decide +kernel⟩

theorem wit_CoreStateCommands_5 : ∃ (s : State) (c : Fin 96), s.coreSt c.val = .selftest :=
  ⟨coreIn .selftest, 5, by decide +kernel⟩

theorem wit_CoreStateCommands_6 : ∃ (s : State) (c : Fin 96), s.coreSt c.val = .held ∧ s.regBit Reg.lehraStat 1 = true ∧ s.regBit Reg.resetStat 7 = false ∧ s.lehrB.handover = none :=
  ⟨coreIn .held (withRegs [(Reg.lehraStat, 2)]), 5, by decide +kernel⟩

theorem wit_CoreStateCommands_7 : ∃ (s : State) (c : Fin 96), s.coreSt c.val = .quarantine ∧ (s.core c.val).portLost = false ∧ inReset s (1, c.val) = true ∧ s.blockPhase (.core c) = none :=
  ⟨let s := coreIn .quarantine; { s with rst := { s.rst with domains := [⟨1, 5, 0, 0, false, false, 0, []⟩] } }, 5, by decide +kernel⟩

theorem wit_CoreStateCommands_8 : ∃ (s : State) (c : Fin 96), (s.core c.val).clearing = true ∧ s.coreSt c.val = .run :=
  ⟨(coreIn .run).setCore 5 { Core.reset with clearing := true }, 5, by decide +kernel⟩



theorem wit_CoreStateCommands_10 : ∃ (s : State) (c : Fin 96), running s c.val = true ∧ allEnded s c.val = true ∧ (s.core c.val).debugLog = [] :=
  ⟨(coreIn .run).setCore 5 { Core.reset with streams := List.replicate 5 ⟨0, 9, 0, true, false⟩ }, 5, by decide +kernel⟩

theorem wit_CoreStateCommands_11 : ∃ (s : State) (c : Fin 96), s.coreSt c.val = .faulted ∧ reportTaken s c.val = true :=
  ⟨coreIn .faulted, 5, by decide +kernel⟩

theorem wit_CoreStateCommands_12 : ∃ (s : State) (c : Fin 96), s.coreSt c.val = .kill :=
  ⟨coreIn .kill, 5, by decide +kernel⟩

theorem wit_CoreStateCommands_13 : ∃ (s : State) (c : Fin 96), s.coreSt c.val = .run ∧ runOn s c.val = none ∧ tieOn s c.val = none :=
  ⟨coreIn .run, 5, by decide +kernel⟩

theorem wit_CoreStateCommands_14a : ∃ (s : State) (c : Fin 96) (x : Cmd) (r : ProgRun), (s.coreSt c.val = .run ∨ s.coreSt c.val = .ckpt ∨ s.coreSt c.val = .halt) ∧ runOn s c.val = some (x, r) :=
  ⟨inCmds [cmdOf [] .running [runIn (.active 5)]] (coreIn .run), 5, cmdOf [] .running [runIn (.active 5)], runIn (.active 5), by decide +kernel⟩

theorem wit_CoreStateCommands_14b : ∃ (s : State) (c : Fin 96) (x : Cmd) (r : ProgRun), (s.coreSt c.val = .run ∨ s.coreSt c.val = .ckpt ∨ s.coreSt c.val = .halt) ∧ runOn s c.val = some (x, r) :=
  ⟨inCmds [cmdOf [] .running [runIn (.active 5)]] (coreIn .halt), 5, cmdOf [] .running [runIn (.active 5)], runIn (.active 5), by decide +kernel⟩

theorem wit_CoreStateCommands_15 : ∃ (s : State) (c : Fin 96), s.coreSt c.val = .run ∧ (s.core c.val).nckpt ≠ 0 ∧ s.cmdSpec c.val = false ∧ s.ckptTarget c.val < 2 ^ 24 - 1 :=
  ⟨(coreIn .run).setCore 5 { Core.reset with nckpt := 1 }, 5, by decide +kernel⟩

theorem wit_CoreStateCommands_16 : ∃ (s : State) (c : Fin 96), atBoundary s c.val = true ∧ s.cmdSpec c.val = false :=
  ⟨((exe 0 (wd [])).setReg (Reg.coreTpckpt 5) (BitVec.ofNat 64 (2 ^ 48 + 2 ^ 24))).setCore 5 { Core.reset with streams := List.replicate 5 ⟨0, 9, 1, false, false⟩, nckpt := 1 }, 5, by decide +kernel⟩

theorem wit_CoreStateCommands_18 : ∃ (s : State) (c : Fin 96), s.coreSt c.val = .run ∧ (s.core c.val).clearing = false ∧ (s.core c.val).resuming = true :=
  ⟨(coreIn .run).setCore 5 { Core.reset with resuming := true }, 5, by decide +kernel⟩

theorem wit_DebugCommands_1 : ∃ (s : State) (acc : Accessor) (c : Fin 96), debugWriter acc = true ∧ mayHalt s c.val = true :=
  ⟨coreIn .run (withRegs [(Reg.devDbgstat, 1)]), .debugPort, 5, by decide +kernel⟩

theorem wit_DebugCommands_2 : ∃ (s : State) (acc : Accessor) (c : Fin 96), debugWriter acc = true ∧ s.coreSt c.val = .halt :=
  ⟨coreIn .halt, .ident 16, 5, by decide +kernel⟩

theorem wit_DebugCommands_3 : ∃ (s : State) (acc : Accessor) (c : Fin 96), debugWriter acc = true ∧ restartAbsorbed s c.val = false :=
  ⟨coreIn .run, .debugPort, 5, by decide +kernel⟩

theorem wit_DebugCommands_4 : ∃ (s : State) (c : Fin 96) (k : Fin 5), mayHalt s c.val = true ∧ s.regBit (Reg.coreTpbrk c.val) 27 = true ∧ s.regFld (Reg.coreTpbrk c.val) 24 3 = k.val ∧ ((s.core c.val).stream k.val).ended = false ∧ s.nextWord c.val k.val = s.regFld (Reg.coreTpbrk c.val) 0 24 :=
  ⟨(coreIn .run (withRegs [(Reg.devDbgstat, 1), (Reg.coreTpbrk 5, 2 ^ 27 + 2 * 2 ^ 24 + 7), (tpword 5 2, 7)])).setCore 5 { Core.reset with streams := List.replicate 5 ⟨0, 9, 0, false, false⟩ }, 5, 2, by decide +kernel⟩

theorem wit_DebugCommands_5 : ∃ (s : State) (acc : Accessor) (c : Fin 96) (k : BitVec 3) (b : BitVec 128), debugWriter acc = true ∧ s.coreSt c.val = .halt ∧ unlocked s 0 = true ∧ k.toNat < 5 ∧ headWord s c.val k.toNat = some (some b) :=
  ⟨((exe 4 (wd [(0, 6), (3, 1)])).setReg Reg.devDbgstat 1).setCoreSt 5 .halt, .debugPort, 5, 4#3, wd [(0, 6), (3, 1)], by decide +kernel⟩

theorem wit_DebugCommands_6 : ∃ (s : State) (c : Fin 96), s.coreSt c.val = .halt ∧ shadowRun s c.val = false ∧ (s.core c.val).flight = [] :=
  ⟨coreIn .halt, 5, by decide +kernel⟩

theorem wit_DebugCommands_7a : ∃ (s : State) (acc : Accessor) (c : Fin 96) (word : BitVec 18), windowServes s acc c.val false = true ∧ 64 * word.toNat < 0x600000 ∧ (s.core c.val).spBadIn (64 * word.toNat) 64 = none :=
  ⟨coreIn .halt (withRegs [(Reg.devDbgstat, 2)]), .debugPort, 5, 0#18, by decide +kernel⟩

theorem wit_DebugCommands_7b : ∃ (s : State) (acc : Accessor) (c : Fin 96) (word : BitVec 18), windowServes s acc c.val false = true ∧ 64 * word.toNat < 0x600000 ∧ (s.core c.val).spBadIn (64 * word.toNat) 64 = none :=
  ⟨coreIn .run, .ident 16, 5, 98303#18, by decide +kernel⟩

theorem wit_DebugCommands_8 : ∃ (s : State) (who : Ident) (c : Fin 96) (n : Fin 2048), who.val = 16 ∧ s.coreSt c.val = .idle ∧ n.val < 1920 :=
  ⟨coreIn .idle, 16, 5, 1919, by decide +kernel⟩

theorem wit_DebugCommands_10 : ∃ (s : State) (c : Fin 96), s.coreSt c.val ≠ .off ∧ s.coreSt c.val ≠ .reset ∧ s.coreSt c.val ≠ .disabled :=
  ⟨coreIn .idle, 5, by decide +kernel⟩

theorem wit_DebugCommands_13 : ∃ (s : State) (c : Fin 96), s.coreSt c.val = .run :=
  ⟨coreIn .run, 5, by decide +kernel⟩

theorem wit_DebugCommands_15 : ∃ (s : State) (c : Fin 96) (p : Nat × Nat), (s.core c.val).debugLog = [] ∧ starved s c.val = true ∧ (blockedStreams s c.val).find? (fun p => (blockedStreams s c.val).all (fun q => decide (wEng p.2 ≤ wEng q.2))) = some p :=
  ⟨(coreIn .run).setCore 5 { Core.reset with streams := [⟨0, 9, 0, false, false⟩] ++ List.replicate 4 ⟨0, 9, 0, true, false⟩, buf := [(0, some (wd [(0, 6), (3, 1), (21, 1)]))] }, 5, (0, 6 + 8 + 2 ^ 21), by decide +kernel⟩

theorem wit_CulletCommands_1 : ∃ (s : State) (c : Fin 96) (tag : BitVec 12) (h : BitVec 10) (pos : BitVec 16) (npos : BitVec 9) (pad : Bool) (bs : List Byte) (ts : List Target), trackRoom s (c.val / 24) c.val 0 tag.toNat = true ∧ portPauses s c.val = false ∧ walkPath s c.val (h.toNat / 256) = some ts ∧ (∀ x ∈ ts, s.fab.fences.contains x = false) ∧ (walkAt s h.toNat (s.cmdPart c.val) (s.cmdOwner c.val) pos.toNat npos.toNat pad).2 = .ok bs :=
  ⟨withRegs [(Reg.culletSeqcfg 0 0, 1), (Reg.culletSeqlen 0 0, 16 * 2 ^ 32 + 16)] live, 5, 0#12, 0#10, 0#16, 16#9, false, [0#8, 0#8, 0#8, 0#8], [Target.crucible 0, Target.crucible 0], by decide +kernel, by decide +kernel, rfl, by decide +kernel, rfl⟩

theorem wit_CulletCommands_4 : ∃ (s : State) (s1 : State) (k : Fin 4) (page : BitVec 20), sget PageSt.free (s.cull k.val).pages page.toNat = .scrub ∧ mapHolds s = false ∧ scrubPage s k.val page.toNat = (s1, none) := by
  obtain ⟨u, e, _⟩ := devWrite_ok (s := (scrubS live2)) (r := ⟨0x60 + (2 : Fin 4).val, 20, false, 2, none⟩) (a := poolAddr ((scrubS live2)) (2 : Fin 4).val (0xFFFFF#20).toNat) (bs := List.replicate (poolPageSize ((scrubS live2)) (2 : Fin 4).val) 0#8) (by decide +kernel)
  exact ⟨(scrubS live2), u, 2, 0xFFFFF#20, by decide +kernel, by decide +kernel, e⟩

theorem wit_CulletCommands_7 : ∃ (s : State) (k : Fin 4) (q : Fin 256), seqLive s k.val q.val = true :=
  ⟨withRegs [(Reg.culletSeqcfg 3 255, 1)], 3, 255, by decide +kernel⟩

theorem wit_CulletCommands_8 : ∃ (s : State) (who : Ident) (k : Fin 4) (i : Nat), who.val = 16 ∧ opBusy s k.val = false ∧ (List.range 256).find? (fun i => !seqLive s k.val i) = some i ∧ (geometryOf (s.reg (Reg.culletOparg k.val))).ok = true ∧ (geometryOf (s.reg (Reg.culletOparg k.val))).pageBytes ≤ poolPageSize s k.val :=
  ⟨withRegs [(Reg.culletOparg 0, 2 ^ 26), (Reg.culletPoolcfg 0, 16 * 2 ^ 24)], 16, 0, 0, by decide +kernel⟩

theorem wit_CulletCommands_9 : ∃ (s : State) (who : Ident) (k : Fin 4) (part : Fin 16) (q : Fin 256), who.val = 16 ∧ opBusy s k.val = false ∧ seqLive s k.val q.val = true ∧ seqPart s k.val q.val = part.val ∧ seqRecs s k.val q.val = [] :=
  ⟨withRegs [(Reg.culletSeqcfg 3 255, 1)], 16, 3, 0, 255, by decide +kernel⟩

theorem wit_CulletCommands_10 : ∃ (s : State) (who : Ident) (k : Fin 4) (part : Fin 16) (q : Fin 256) (arg : BitVec 32), who.val = 16 ∧ opBusy s k.val = false ∧ seqCheck s k.val q.val part.val = none ∧ seqRecs s k.val q.val = [] ∧ arg.toNat ≤ seqLc s k.val q.val :=
  ⟨withRegs [(Reg.culletSeqcfg 3 255, 1)], 16, 3, 0, 255, 0#32, by decide +kernel⟩

theorem wit_CulletCommands_11 : ∃ (s : State) (who : Ident) (k : Fin 4) (part : Fin 16) (q : Fin 256), who.val = 16 ∧ opBusy s k.val = false ∧ seqCheck s k.val q.val part.val = none ∧ seqRecs s k.val q.val = [] ∧ segsOk 0 ((List.range 4).map (fun j => s.regFld (Reg.culletOparg k.val) (16 * j) 16)) = true :=
  ⟨withRegs [(Reg.culletSeqcfg 0 0, 1), (Reg.culletOparg 0, 2 ^ 48 * 0 + 2 ^ 16 * 9 + 5)], 16, 0, 0, 0, by decide +kernel⟩

def culletCommands_12S : State := live

theorem wit_CulletCommands_12 : ∃ (s : State) (s1 : State) (who : Ident) (k : Fin 4) (arg : BitVec 32) (ecc : MemEcc) (bs : List Byte), who.val = 16 ∧ opBusy s k.val = false ∧ (∀ i, i < 256 → seqLive s k.val i = true → bitsOf arg.toNat 0 6 < (geom s k.val i).tbase ∨ (geom s k.val i).tbase + (geom s k.val i).nkv ≤ bitsOf arg.toNat 0 6) ∧ s.regFld (Reg.culletOparg k.val) 0 48 % 64 = 0 ∧ s.regFld (Reg.culletOparg k.val) 0 48 + 4096 ≤ 0x2000000000 ∧ devRead s ⟨0x60 + k.val, 20, false, 2, none⟩ ecc (s.regFld (Reg.culletOparg k.val) 0 48) 4096 = (s1, .ok bs) ∧ (∀ j, j < 2048 → badBias (leAt bs (2 * j) 2) = false) := by
  obtain ⟨u, e, v, hm⟩ := plain_read (s := (culletCommands_12S)) (r := ⟨0x60 + (0 : Fin 4).val, 20, false, 2, none⟩) (a := 0) (n := 4096) (by decide +kernel) (by decide +kernel) (by decide +kernel)
  exact ⟨culletCommands_12S, u, 16, 0, 0#32, .clean, List.replicate 4096 0#8, rfl, by decide +kernel, by decide +kernel, by decide +kernel, by decide +kernel, (by rw [plain_zeros rfl] at e; rw [show State.regFld culletCommands_12S (Reg.culletOparg (0 : Fin 4).val) 0 48 = 0 by decide +kernel]; exact e), fun j _ => (by rw [leAt_zeros]; rfl)⟩

theorem wit_CulletCommands_13a : ∃ (s : State) (who : Ident) (k : Fin 4) (cfg : Bool) (v : BitVec 64), mgmt who = true ∧ locked s (if cfg then Reg.culletPoolcfg k.val else Reg.culletPoolbase k.val) = false ∧ (∀ i, i < 256 → seqLive s k.val i = false) ∧ (if cfg then poolOk (s.reg (Reg.culletPoolbase k.val)).toNat (poolFields cfg v.toNat).toNat else poolOk (poolFields cfg v.toNat).toNat (s.reg (Reg.culletPoolcfg k.val)).toNat) = true ∧ unscrubbed s k.val = [] :=
  ⟨State.reset, 16, 0, true, 0#64, by decide +kernel⟩

theorem wit_CulletCommands_13b : ∃ (s : State) (who : Ident) (k : Fin 4) (cfg : Bool) (v : BitVec 64), mgmt who = true ∧ locked s (if cfg then Reg.culletPoolcfg k.val else Reg.culletPoolbase k.val) = false ∧ (∀ i, i < 256 → seqLive s k.val i = false) ∧ (if cfg then poolOk (s.reg (Reg.culletPoolbase k.val)).toNat (poolFields cfg v.toNat).toNat else poolOk (poolFields cfg v.toNat).toNat (s.reg (Reg.culletPoolcfg k.val)).toNat) = true ∧ unscrubbed s k.val = [] :=
  ⟨State.reset, 0, 3, false, 0x1000000000#64, by decide +kernel⟩

theorem wit_LehrACommands_1 : ∃ (s : State) (m : SigMsg) (ms : List SigMsg), s.sigOut = m :: ms ∧ crucDown s 0 = false ∧ s.lehrB.lehrARuns = true ∧ unmatched s < 16384 :=
  ⟨{ State.reset with sigOut := [⟨1, 0, .main, 0, 1, 2, 1, 7, 5⟩] }, ⟨1, 0, .main, 0, 1, 2, 1, 7, 5⟩, [], by decide +kernel⟩

theorem wit_LehrACommands_2 : ∃ (s : State) (s1 : State) (t : Nat) (m : SigMsg) (ms : List SigMsg), s.sigOut = m :: ms ∧ crucDown s 0 = false ∧ s.lehrB.lehrARuns = true ∧ s1 = { s with now := max s.now t, sigOut := ms, lehrA := { s.lehrA with lost := s.lehrA.lost ++ [⟨cmdKey m.part m.seq, m.prog, m.kind, 0x0602⟩] } } :=
  ⟨{ State.reset with sigOut := [⟨1, 0, .main, 0, 1, 2, 1, 7, 5⟩] }, _, 0, ⟨1, 0, .main, 0, 1, 2, 1, 7, 5⟩, [], rfl, by decide +kernel, by decide +kernel, rfl⟩

theorem wit_LehrACommands_3 : ∃ (s : State) (r : RunReport) (rs : List RunReport), s.bench.reports = r :: rs ∧ s.lehrB.lehrARuns = true :=
  ⟨{ State.reset with bench := { State.reset.bench with reports := [⟨1, 0, 0, .main, 5, 1, 0, some 7⟩] } }, ⟨1, 0, 0, .main, 5, 1, 0, some 7⟩, [], by decide +kernel⟩

theorem wit_LehrACommands_4 : ∃ (s : State) (t : Nat), s.regFld Reg.devFrmstart 0 64 + s.regFld Reg.lehraSelcfg 32 27 ≤ t :=
  ⟨State.reset, 33333333, by decide +kernel⟩

theorem wit_LehrACommands_5a : ∃ (s : State) (who : Ident) (stage : BitVec 6), (who.val = 0 ∨ who.val = s.regFld (Reg.lehraWdsrc stage.toNat) 0 4) ∧ wdSrc s stage.toNat = 0 ∧ s.lehrB.lehrARuns = true :=
  ⟨State.reset, 0, 0#6, by decide +kernel⟩

theorem wit_LehrACommands_5b : ∃ (s : State) (who : Ident) (stage : BitVec 6), (who.val = 0 ∨ who.val = s.regFld (Reg.lehraWdsrc stage.toNat) 0 4) ∧ wdSrc s stage.toNat = 0 ∧ s.lehrB.lehrARuns = true :=
  ⟨withRegs [(Reg.lehraWdsrc 63, 3)], 3, 63#6, by decide +kernel⟩

theorem wit_LehrACommands_6 : ∃ (s : State) (frame : BitVec 32), frame.toNat ≠ s.frmcnt ∧ s.lehrB.lehrARuns = true :=
  ⟨State.reset, 1#32, by decide +kernel⟩

theorem wit_LehrACommands_7 : ∃ (s : State) (stage : BitVec 6) (t : Nat), s.regFld Reg.devFrmstart 0 64 + fld (wdCfg s stage.toNat) 27 27 ≤ t ∧ s.lehrB.lehrARuns = true :=
  ⟨State.reset, 63#6, 0, by decide +kernel⟩

theorem wit_LehrACommands_8 : ∃ (s : State), s.regBit Reg.lehraStat 1 = false ∧ s.regBit Reg.lehraStat 2 = false ∧ s.lehrB.lehrARuns = true :=
  ⟨State.reset, by decide +kernel⟩

theorem wit_LehrACommands_9 : ∃ (s : State), s.regBit Reg.lehraStat 1 = false ∧ s.regBit Reg.lehraStat 2 = false ∧ s.lehrB.lehrARuns = true :=
  ⟨State.reset, by decide +kernel⟩

theorem wit_LehrACommands_10 : ∃ (s : State) (d : Fin 12), s.lehrB.lehrARuns = true ∧ s.lehrA.silent.contains (.die d) = false ∧ inReset s (2, d.val) = false :=
  ⟨State.reset, 11, by decide +kernel⟩

theorem wit_LehrACommands_11 : ∃ (s : State) (k : Fin 4), s.lehrB.lehrARuns = true ∧ s.lehrA.silent.contains (.crucible k) = false ∧ inReset s (3, k.val) = false :=
  ⟨State.reset, 3, by decide +kernel⟩

theorem wit_LehrACommands_12 : ∃ (s : State), s.lehrB.lehrARuns = true :=
  ⟨State.reset, by decide +kernel⟩

theorem wit_LehrACommands_13 : ∃ (s : State), s.regBit Reg.lehraStat 5 = false ∧ s.lehrB.lehrARuns = true :=
  ⟨State.reset, by decide +kernel⟩

theorem wit_LehrACommands_14 : ∃ (s : State) (who : Ident), who.val = 16 ∧ s.lehrB.lehrARuns = true :=
  ⟨State.reset, 16, by decide +kernel⟩

theorem wit_LehrACommands_15 : ∃ (s : State) (t : Nat), watchesHost s = true ∧ s.lehrA.gafhb + 2000000 ≤ t :=
  ⟨withRegs [(Reg.resetStat, 1)], 2000000, by decide +kernel⟩

theorem wit_LehrBCommands_1 : ∃ (s : State) (buf : Fin 2) (b : FbBlock), s.lehrB.stoppedB = false ∧ acceptBlock s (sget [] s.lehrB.window buf.val) = some b :=
  ⟨{ State.reset with lehrB := { State.reset.lehrB with window := [(1, fbBytes)] } }, 1, ⟨7, 0, []⟩, by decide +kernel⟩

theorem wit_LehrBCommands_2 : ∃ (s : State) (buf : Fin 2), s.lehrB.stoppedB = false ∧ sget [] s.lehrB.window buf.val ≠ [] ∧ acceptBlock s (sget [] s.lehrB.window buf.val) = none :=
  ⟨{ State.reset with lehrB := { State.reset.lehrB with window := [(1, [1#8])] } }, 1, by decide +kernel⟩

theorem wit_LehrBCommands_3 : ∃ (s : State) (port : Fin 2), s.lehrB.stoppedB = false ∧ sget [] s.lehrB.radcal port.val ≠ [] :=
  ⟨{ State.reset with lehrB := { State.reset.lehrB with radcal := [(1, [1#8])] } }, 1, by decide +kernel⟩

theorem wit_LehrBCommands_4 : ∃ (s : State) (frame : BitVec 32) (q : List Nat × Nat), (s.frameSel frame.toNat).plan = some q ∧ (s.frameSel frame.toNat).verdict = none ∧ s.lehrB.stoppedB = false ∧ s.lehrB.lehrARuns = true :=
  ⟨{ State.reset with lehrA := { State.reset.lehrA with frames := [{ FrameSel.new 3 with plan := some ([1], 0x1000) }] } }, 3#32, ([1], 0x1000), by decide +kernel⟩

theorem wit_LehrBCommands_5 : ∃ (s s1 s3 : State) (ecc : MemEcc) (t k addr : Nat) (v : VerdictRes), s.lehrB.check = some (k, addr) ∧ s.lehrB.stoppedB = false ∧ mapHolds s = false ∧ unprogrammed s = false ∧
    (devRead (s.at t) lehrBReq ecc addr 512).1 = s1 ∧ judge s1 k (devRead (s.at t) lehrBReq ecc addr 512).2.toOption = v ∧ s3 = showVerdict s1 k v :=
  ⟨withRegs [(Reg.lehrbEnv0, 1), (Reg.lehrbEnv1, 1), (Reg.lehrbEnv2, 1), (Reg.lehrbEnv3, 1)]
    { State.reset with lehrB := { State.reset.lehrB with check := some (1, 0) } }, _, _, .clean, 0, 1, 0, _, rfl, rfl, by decide +kernel, by decide +kernel,
    Eq.refl _, Eq.refl _, Eq.refl _⟩

theorem wit_LehrBCommands_6 : ∃ (s : State) (t : Nat) (k : Nat), lateFrame (s.at t) = some k ∧ s.lehrB.planned.contains k = false ∧ s.lehrB.planFor = none ∧ s.lehrB.stoppedB = false :=
  ⟨{ withRegs [(Reg.devFrmcnt, 5)] with frame := { State.reset.frame with latest := some 0 } }, 33333333, 4, by decide +kernel⟩

theorem wit_LehrBCommands_8 : ∃ (s : State), s.lehrB.lehrARuns = true ∧ s.regBit Reg.lehraStat 13 = false :=
  ⟨State.reset, by decide +kernel⟩

theorem wit_LehrBCommands_9 : ∃ (s : State), s.lehrB.lehrARuns = true ∧ s.lehrB.stoppedB = false :=
  ⟨State.reset, by decide +kernel⟩

theorem wit_LehrBCommands_10 : ∃ (s : State), s.lehrB.lehrARuns = true :=
  ⟨State.reset, by decide +kernel⟩

theorem wit_LehrBCommands_11 : ∃ (s : State), s.lehrB.lehrARuns = false ∧ s.lehrB.stoppedB = false ∧ s.lehrB.handover = none :=
  ⟨{ State.reset with lehrB := { State.reset.lehrB with lehrARuns := false } }, by decide +kernel⟩

theorem wit_LehrBCommands_12 : ∃ (s : State) (t : Nat) (since : Nat) (x : Nat), s.lehrB.handover = some (since, x) ∧ s.lehrB.lehrARuns = true ∧ since + 100000 ≤ max s.now t :=
  ⟨{ State.reset with lehrB := { State.reset.lehrB with handover := some (7, 1) } }, 100007, 7, 1, by decide +kernel⟩

theorem wit_LehrBCommands_13 : ∃ (s : State), s.lehrB.stoppedB = false ∧ s.lehrB.lehrARuns = true :=
  ⟨State.reset, by decide +kernel⟩

theorem wit_LehrBCommands_14 : ∃ (s : State), s.lehrB.stoppedA = false ∧ s.lehrB.stoppedB = false :=
  ⟨State.reset, by decide +kernel⟩

/-- One region over all of DRAM at each crucible, and no pages in the pools. -/
def wide (s : State) : Bool :=
  (List.range 4).all (fun k => bitAt (s.reg (Reg.crucRgna k 0)) 0 && decide (fld (s.reg (Reg.crucRgna k 0)) 12 36 = 0) &&
    decide (2 ^ 34 ≤ s.regFld (Reg.crucRgnb k 0) 0 37 * 4096) && decide (s.regFld (Reg.culletPoolcfg k) 0 21 = 0))

theorem wide_region {s : State} (h : wide s = true) {k a : Nat} (hk : k < 4) (ha : a < 2 ^ 34) : regionFor s k a = some 0 := by
  have h := List.all_eq_true.mp h k (List.mem_range.mpr hk)
  simp only [Bool.and_eq_true, decide_eq_true_eq] at h
  rw [regionFor, List.range_succ_eq_map, List.find?_cons_of_pos]
  simp only [h.1.1.1, h.1.1.2, Nat.zero_mul, Nat.zero_le, decide_true, Bool.and_self, Nat.zero_add, Bool.true_and, decide_eq_true_eq]
  omega

theorem wide_pool {s : State} (h : wide s = true) (a : Nat) : poolPage s a = none := by
  rw [poolPage, List.findSome?_eq_none_iff]
  intro x hx
  obtain ⟨k, hk, rfl⟩ := List.mem_map.mp hx
  have h := List.all_eq_true.mp h k hk
  simp only [Bool.and_eq_true, decide_eq_true_eq] at h
  simp only [h.2, Nat.zero_mul, Nat.add_zero, id]
  split
  · omega
  · rfl

/-- What a write of a line depends on: its channel and its half of a pair of lines. -/
theorem wide_write {s : State} {r : Req} (h : plain s = true) (g : wide s = true) (hn : r.node < 96) 
    (hr : (List.range 64).all (fun c => writeOk s r (4096 * c) && writeOk s r (4096 * c + 128)) = true) {a : Nat} (ha : a < 2 ^ 34) :
    writeOk s r a = true := by
  have hb : a / 4096 % 64 < 64 := by omega
  have key : ∀ b, b < 2 ^ 34 → b / 4096 % 64 = a / 4096 % 64 → b / 128 % 2 = a / 128 % 2 → writeOk s r b = true → writeOk s r a = true := by
    intro b hb e1 e2 w
    have ka : ∀ x, x < 2 ^ 34 → addrKind x = .dram := fun x hx => if_pos (by omega)
    have hh : homeOf s a = homeOf s b := by simp [homeOf, ka a ha, ka b hb, plain_map h ha, plain_map h hb, e1]
    have hin : ingressOf s r.node (homeOf s b) < 4 := by
      rw [ingressOf, if_pos hn]
      omega
    have hc : checkReq s r a true = checkReq s r b true ∨ ∃ p q, (checkReq s r a true).2 = .error p ∧ (checkReq s r b true).2 = .error q := by
      unfold checkReq
      simp only [hh, ka a ha, ka b hb, wide_region g hin ha, wide_region g hin hb, wide_pool g]
      repeat' split
      all_goals simp [refuse]
    have ht : reachable s r a = reachable s r b := by
      simp [reachable, pathOf, hh, routeOf, e2, addrTargets, ka a ha, ka b hb, plain_map h ha, plain_map h hb, e1]
    simp only [writeOk, ka a ha, ka b hb, hh, ht, plain_map h ha, plain_map h hb, e1, Option.any_some] at w ⊢
    obtain e | ⟨p, q, ep, eq⟩ := hc
    · rw [e]; exact w
    · rw [eq] at w
      simp at w
  have hr := List.all_eq_true.mp hr (a / 4096 % 64) (List.mem_range.mpr hb)
  rw [Bool.and_eq_true] at hr
  by_cases e : a / 128 % 2 = 0
  · exact key (4096 * (a / 4096 % 64)) (by omega) (by omega) (by omega) hr.1
  · exact key (4096 * (a / 4096 % 64) + 128) (by omega) (by omega) (by omega) hr.2

theorem plain_lines {s : State} (h : plain s = true) : ∀ f a n, a + n ≤ 2 ^ 34 → linesOk f s a n = true
  | 0, _, _, _ => rfl
  | f + 1, a, n, hn => by
    unfold linesOk
    by_cases h0 : n = 0
    · simp [h0]
    · rw [if_neg h0, plain_lines h f _ _ (by omega), plain_map h (by omega)]
      simp only [plain, Bool.and_eq_true] at h
      have h7 := List.all_eq_true.mp h.2 ((a - a % 128) / 4096 % 64) (List.mem_range.mpr (by omega))
      simp only [Bool.and_eq_true, decide_eq_true_eq] at h7
      simp [h7.1]

theorem plain_writes {s : State} {r : Req} (h : plain s = true) (hw : ∀ a, a < 2 ^ 34 → writeOk s r a = true) :
    ∀ f a n, a + n ≤ 2 ^ 34 → writesOk f s r a n = true
  | 0, _, _, _ => rfl
  | f + 1, a, n, hn => by
    unfold writesOk
    by_cases h0 : n = 0
    · simp [h0]
    · rw [if_neg h0, hw a (by omega), plain_lines h _ _ _ (by omega), plain_writes h hw f _ _ (by omega)]
      rfl

def ckptS : State := live.setCoreSt 5 .ckpt

theorem ckptImage_length (s : State) (c : Nat) : (ckptImage s c).length = 8012288 := by
  have h : ∀ l : List Nat, (l.flatMap (leBytes 4)).length = 4 * l.length := fun l => by
    induction l with
    | nil => rfl
    | cons a l ih => rw [List.flatMap_cons, List.length_append, ih, leBytes_len, List.length_cons]; omega
  simp only [ckptImage, ckptHeader, List.length_append, leBytes_len, nextWords, h, List.length_map, List.length_range]

theorem saveAs_ok {s u : State} {c : Nat} {img : List Byte}
    (e : devWrite (s.bump (Reg.corePortwr c) ckptSize) { coreReq s c with owner := none } .clean (s.core c).ckptAddr img = (u, none)) :
    ∃ v, saveAs s c img = (v, none) := by
  unfold saveAs saveImage
  simp only [e]
  exact ⟨_, rfl⟩

theorem saveCkpt_ok {s : State} {c : Nat} (h1 : (s.core c).spBad.min? = none) (h2 : (s.core c).accs = [])
    (h : plain (s.bump (Reg.corePortwr c) ckptSize) = true) (hn : (s.core c).ckptAddr + 8012288 ≤ 2 ^ 34)
    (hw : ∀ a, a < 2 ^ 34 → writeOk (s.bump (Reg.corePortwr c) ckptSize) { coreReq s c with owner := none } a = true) :
    ∃ u, saveCkpt s c false .clean = (u, none) := by
  obtain ⟨u, e, _⟩ := devWrite_ok (s := s.bump (Reg.corePortwr c) ckptSize) (r := { coreReq s c with owner := none })
    (a := (s.core c).ckptAddr) (bs := ckptImage s c) (by rw [ckptImage_length]; exact plain_writes h hw _ _ _ hn)
  have hb : (false || (s.core c).accs.any (fun p => !p.2.resOk ((s.core c).tileSt (p.1 / 16384)).fmode)) = false := by rw [h2]; rfl
  have ht : takeEcc s c .clean = s := rfl
  unfold saveCkpt
  rw [ht]
  dsimp only
  generalize ckptImage s c = img at e ⊢
  rw [h1]
  dsimp only
  rw [if_neg (by rw [hb]; decide)]
  exact saveAs_ok e

theorem wit_CoreStateCommands_17 : ∃ (s s1 s2 : State) (c : Fin 96) (ecc : SpEcc) (t : Nat), s.coreSt c.val = .ckpt ∧
    saveCkpt (accrue (s.at t) c.val) c.val false ecc = (s1, none) ∧
    s2 = (settleTime s1 (s.cmdPart c.val) c.val false).bump (Reg.benchCkptcnt (c.val / 8)) 1 := by
  have h : plain ((accrue (ckptS.at 0) 5).bump (Reg.corePortwr 5) ckptSize) = true := by decide +kernel
  have ha : ((accrue (ckptS.at 0) 5).core 5).ckptAddr = 0 := by decide +kernel
  have hs : ∃ u, saveCkpt (accrue (ckptS.at 0) 5) 5 false .clean = (u, none) := saveCkpt_ok (by decide +kernel) (by decide +kernel) h (by rw [ha]; decide)
    (fun a hl => wide_write h (by decide +kernel) (by decide +kernel) (by decide +kernel) hl)
  obtain ⟨u, hs⟩ := hs
  exact ⟨ckptS, u, _, 5, .clean, 0, by decide +kernel, hs, rfl⟩

theorem wit_FabricCommands_1 : ∃ (s : State) (node : BitVec 8) (who : Ident) (tag : BitVec 12) (cls : BitVec 2) (addr : BitVec 48) (want : ReadFor) (ecc : CopyEcc) (cache : CacheEcc) (t : Nat) (o : Option Nat) (r : Req) (x : State × Bool × List Byte), 0 < want.len.toNat ∧ want.len.toNat ≤ 128 ∧ canIssue (s.at t) node.toNat tag.toNat addr.toNat want.len.toNat false want.agent = true ∧ forCmd (s.at t) node.toNat who.val want.cmd = o ∧ packetReq (s.at t) node.toNat who.val cls.toNat o = r ∧ packetRead (s.at t) r (lineMeets addr ecc cache) addr.toNat want.len.toNat = x :=
  ⟨live, 0x66#8, 18, 5#12, 0#2, 0#48, ⟨128#8, none, .collective⟩, ⟨.clean, .clean⟩, .clean, 0, none, lehrANode live, packetRead (live.at 0) (lehrANode live) (lineMeets (0#48) ⟨.clean, .clean⟩ .clean) (0#48).toNat (128#8).toNat, by decide +kernel, by decide +kernel, by decide +kernel, rfl, rfl, rfl⟩

theorem stageWaits_none {s s' : State} (h : s'.mem.staged = []) (g : s'.fab.comb = []) : stageWaits s s' = false := by
  have h0 : ∀ k, stagedLines s' k = 0 := fun k => by rw [stagedLines, h, g]; rfl
  simp [stageWaits, stageWaitsAt, h0]

theorem trackReq_keeps (s0 s : State) (r : Req) (tag a k : Nat) (g : Agent) (o : Option Nat) (p : Bool) (d : List Byte) :
    (trackReq s0 s r tag a k g o p d).mem = s.mem ∧ (trackReq s0 s r tag a k g o p d).fab.comb = s.fab.comb := by
  unfold trackReq
  rw [(pushTrack_keeps _ _).1, (pushTrack_keeps _ _).2]
  exact ⟨rfl, rfl⟩

theorem trackReq_unfenced {s0 s : State} {r : Req} {tag a k : Nat} {g : Agent} {o : Option Nat} {p : Bool} {d : List Byte} (h : s.fab.track = []) :
    ∀ e ∈ (trackReq s0 s r tag a k g o p d).fab.track, e.fenced = false := by
  intro e he
  unfold trackReq at he
  rw [(pushTrack_keeps _ _).2, h, List.nil_append, List.mem_singleton] at he
  rw [he]

theorem packetWrite_of {s u : State} {r : Req} {a : Nat} {bs : List Byte} (hk : addrKind a = .dram)
    (e : writeReq s r .clean a bs = (u, none)) : packetWrite s r ⟨.clean, .clean⟩ a bs = (u, false) := by
  simp only [packetWrite, hk, e, Option.isSome_none]

theorem wit_FabricCommands_2 : ∃ (s : State) (node : BitVec 8) (who : Ident) (tag : BitVec 12) (cls : BitVec 2) (addr : BitVec 48)
    (want : WriteFor) (data : List Byte) (t : Nat) (o : Option Nat) (r0 r : Req) (x : State × Bool), 0 < data.length ∧ data.length ≤ 128 ∧
    canIssue (s.at t) node.toNat tag.toNat addr.toNat data.length false want.agent = true ∧ forCmd (s.at t) node.toNat who.val want.cmd = o ∧
    packetReq (s.at t) node.toNat who.val cls.toNat o = r0 ∧ (if want.staged then r0 else { r0 with owner := none }) = r ∧
    packetWrite (s.at t) r want.ecc addr.toNat data = x ∧
    stageWaits (s.at t) (poisonRuns (s.at t) (trackReq (s.at t) x.1 r tag.toNat addr.toNat 1 want.agent o x.2 [])) = false := by
  obtain ⟨u, e, v⟩ := writeReq_ok (s := live.at 0) (r := { lehrANode live with owner := none }) (a := 0) (bs := [1#8]) (view_refl _) (by decide +kernel) (by decide +kernel)
  have hp : packetWrite (live.at 0) { lehrANode live with owner := none } ⟨.clean, .clean⟩ 0 [1#8] = (u, false) := packetWrite_of (by decide) e
  have hs : u.mem.staged = [] := (view_staged v).trans (by decide +kernel)
  have hc : u.fab.comb = [] := by rw [view_fab v]; decide +kernel
  have ht : u.fab.track = [] := by rw [view_fab v]; decide +kernel
  refine ⟨live, 0x66#8, 18, 5#12, 0#2, 0#48, ⟨none, false, .collective, ⟨.clean, .clean⟩⟩, [1#8], 0, none, lehrANode live,
    { lehrANode live with owner := none }, (u, false), by decide, by decide, by decide +kernel, rfl, rfl, rfl, hp, ?_⟩
  rw [poisonRuns_unfenced _ (trackReq_unfenced ht)]
  exact stageWaits_none ((congrArg MemState.staged (trackReq_keeps ..).1).trans hs) ((trackReq_keeps ..).2.trans hc)

theorem wit_FabricCommands_3 : ∃ (s : State) (node : BitVec 8) (who : Ident) (tag : BitVec 12) (cls : BitVec 2) (addr : BitVec 48) (sq : BitVec 32) (tile : BitVec 88) (base : BitVec 48) (rows : BitVec 16) (data : List Byte) (t : Nat) (o : Option Nat) (r : Req) (x : State × Option Poison), 16 ≤ data.length ∧ data.length ≤ 128 ∧ data.length % 16 = 0 ∧ canIssue (s.at t) node.toNat tag.toNat addr.toNat data.length false .collective = true ∧ forCmd (s.at t) node.toNat who.val (some sq) = o ∧ packetReq (s.at t) node.toNat who.val cls.toNat o = r ∧ recReq (s.at t) r addr.toNat (leBytes 11 tile.toNat) base.toNat (rows.toNat + 1) data = x ∧ stageWaits (s.at t) (trackReq (s.at t) x.1 r tag.toNat addr.toNat 1 .collective o x.2.isSome []) = false :=
  ⟨live, 0x66#8, 18, 5#12, 0#2, 0x2000000000#48, 1#32, 0#88, 0#48, 0#16, List.replicate 16 0#8, 0, some (cmdKey (18 : Ident).val (1#32).toNat), ownedReq, recWrite, by decide +kernel, by decide +kernel, by decide +kernel, by decide +kernel, rfl, rfl, rfl, by decide +kernel⟩

theorem wit_FabricCommands_4a : ∃ (s : State) (node : BitVec 8) (tag : BitVec 12) (e : TrackEntry) (c : Instr), s.fab.track.find? (fun e => decide (e.node = node.toNat) && decide (e.tag = tag.toNat)) = some e ∧ e.fenced = false ∧ e.orphan = false ∧ (c, e.kind) ∈ [(Instr.rdrsp node tag, 0), (Instr.wrack node tag, 1), (Instr.csrrsp node tag, 2)] :=
  ⟨{ State.reset with fab := { State.reset.fab with track := [⟨5, 0xFFF, 0, [], 0, 0, false, [1#8], false, false, 0#32, 0, 0, 0⟩] } }, 5#8, 0xFFF#12, ⟨5, 0xFFF, 0, [], 0, 0, false, [1#8], false, false, 0#32, 0, 0, 0⟩, .rdrsp 5#8 0xFFF#12, by decide +kernel⟩

theorem wit_FabricCommands_4b : ∃ (s : State) (node : BitVec 8) (tag : BitVec 12) (e : TrackEntry) (c : Instr), s.fab.track.find? (fun e => decide (e.node = node.toNat) && decide (e.tag = tag.toNat)) = some e ∧ e.fenced = false ∧ e.orphan = false ∧ (c, e.kind) ∈ [(Instr.rdrsp node tag, 0), (Instr.wrack node tag, 1), (Instr.csrrsp node tag, 2)] :=
  ⟨{ State.reset with fab := { State.reset.fab with track := [⟨5, 0, 0, [], 2, 0, false, [], false, false, 0#32, 0, 0, 0⟩] } }, 5#8, 0#12, ⟨5, 0, 0, [], 2, 0, false, [], false, false, 0#32, 0, 0, 0⟩, .csrrsp 5#8 0#12, by decide +kernel⟩

theorem wit_FabricCommands_5 : ∃ (s : State) (node : BitVec 8) (who : Ident) (tag : BitVec 12) (cls : BitVec 2) (off : BitVec 28) (t : Nat) (r : Req) (j : State), (node.toNat = 0x64 → hostDieDown s = false) ∧ canIssue (s.at t) node.toNat tag.toNat (csrAddr off.toNat) 1 true .collective = true ∧ packetReq (s.at t) node.toNat who.val cls.toNat none = r ∧ csrJudge (s.at t) r off.toNat false = (j, none) :=
  ⟨live, 0x66#8, 18, 5#12, 0#2, 0x1000#28, 0, lehrANode live, (csrJudge (live.at 0) (lehrANode live) (0x1000#28).toNat false).1, by decide +kernel, by decide +kernel, rfl, (pair_of (by decide +kernel))⟩

theorem wit_FabricCommands_6 : ∃ (s : State) (node : BitVec 8) (who : Ident) (tag : BitVec 12) (cls : BitVec 2) (off : BitVec 28) (t : Nat) (r : Req) (j : State), (node.toNat = 0x64 → hostDieDown s = false) ∧ canIssue (s.at t) node.toNat tag.toNat (csrAddr off.toNat) 1 true .collective = true ∧ packetReq (s.at t) node.toNat who.val cls.toNat none = r ∧ csrJudge (s.at t) r off.toNat true = (j, none) :=
  ⟨live, 0x66#8, 18, 5#12, 0#2, 0x1000#28, 0, lehrANode live, (csrJudge (live.at 0) (lehrANode live) (0x1000#28).toNat true).1, by decide +kernel, by decide +kernel, rfl, (pair_of (by decide +kernel))⟩

theorem wit_FabricCommands_10 : ∃ (s : State) (who : Ident) (k : Fin 4), who.val = 16 ∧ s.regBit (Reg.crucCmstat k.val) 0 = false :=
  ⟨State.reset, 16, 3, by decide +kernel⟩

theorem wit_LinkCommands_1a : ∃ (s : State) (l : Fin 122) (up : Bool) (h : PacketHead) (extOk : Bool), linkUp s l.val = true ∧ (s.link (linkKey l.val up)).next < 256 ∧ (s.link (linkKey l.val up)).expect = (s.link (linkKey l.val up)).next ∧ mayPush s l.val up h = true ∧ (receiver l.val up = none ∨ packetOk h extOk = true) :=
  ⟨live, 0, true, ⟨0x01#8, 0#8, 0#8, 128#8, 0x66#8, 18#8, 5#16, 0#48, 0#8, 0#32, 0#64⟩, true, by decide +kernel, by decide +kernel, by decide +kernel, by decide +kernel, .inr (by decide +kernel)⟩

theorem wit_LinkCommands_1b : ∃ (s : State) (l : Fin 122) (up : Bool) (h : PacketHead) (extOk : Bool), linkUp s l.val = true ∧ (s.link (linkKey l.val up)).next < 256 ∧ (s.link (linkKey l.val up)).expect = (s.link (linkKey l.val up)).next ∧ mayPush s l.val up h = true ∧ (receiver l.val up = none ∨ packetOk h extOk = true) :=
  ⟨live, 25, false, ⟨0x01#8, 0#8, 0#8, 128#8, 0x66#8, 18#8, 5#16, 0#48, 0#8, 0#32, 0#64⟩, true, by decide +kernel, by decide +kernel, by decide +kernel, by decide +kernel, .inl rfl⟩

theorem wit_LinkCommands_2 : ∃ (s : State) (l : Fin 122) (up : Bool) (sq : BitVec 8) (crc : BitVec 16), wordOk 0x81 sq.toNat 0 crc = true ∧ (∃ p ∈ (s.link (linkKey l.val up)).unacked, p.sq = sq.toNat) ∧ (∀ p ∈ undelivered (s.link (linkKey l.val up)), p.sq ≠ sq.toNat) :=
  ⟨{ State.reset with fab := { State.reset.fab with links := [(243, ⟨1, [⟨0, 1, 0, 0, 0, 0⟩], 1, [], [], none, 0, false⟩)] } }, 121, true, 0#8, 40848#16, by decide +kernel, ⟨⟨0, 1, 0, 0, 0, 0⟩, by decide +kernel⟩, by decide +kernel⟩

theorem wit_LinkCommands_6a : ∃ (s : State) (s1 : State) (l : Fin 122) (up : Bool) (t : Nat), (s.link (linkKey l.val up)).unacked ≠ [] ∧ linkUp s l.val = true ∧ (s.link (linkKey l.val up)).wait + 2000 ≤ max s.now t ∧ s1 = startReplay (s.at t) l.val (linkKey l.val up) :=
  ⟨{ live with fab := { live.fab with links := [(51, ⟨1, [⟨0, 1, 0, 0, 0, 0⟩], 0, [], [], none, 0, false⟩)] } }, _, 25, true, 2000, by decide +kernel, by decide +kernel, by decide +kernel, rfl⟩

theorem wit_LinkCommands_6b : ∃ (s : State) (s1 : State) (l : Fin 122) (up : Bool) (t : Nat), (s.link (linkKey l.val up)).unacked ≠ [] ∧ linkUp s l.val = true ∧ (s.link (linkKey l.val up)).wait + 2000 ≤ max s.now t ∧ s1 = startReplay (s.at t) l.val (linkKey l.val up) :=
  ⟨{ live with fab := { live.fab with replayFails := [(51, 15)], links := [(51, ⟨1, [⟨0, 1, 0, 0, 0, 0⟩], 0, [], [], none, 0, true⟩)] } }, _, 25, true, 2000, by decide +kernel, by decide +kernel, by decide +kernel, rfl⟩

theorem wit_LinkCommands_7 : ∃ (s : State) (m : Fin 26), mstate s m.val = 1 :=
  ⟨live, 25, by decide +kernel⟩

theorem wit_LinkCommands_8 : ∃ (s : State) (m : Fin 26), mstate s m.val = 0 :=
  ⟨State.reset, 25, by decide +kernel⟩

theorem wit_LinkCommands_9 : ∃ (s : State) (s1 : State) (m : Fin 26) (lanes : LaneReport), mstate s m.val = 2 ∧ s1 = clearLink (setLanes s m.val lanes) m.val :=
  ⟨withRegs [(Reg.puntyMstat 25, 2)], _, 25, ⟨0, 0, 0, 0, 0, 0⟩, by decide +kernel, rfl⟩

theorem wit_LinkCommands_10 : ∃ (s : State) (m : Fin 26) (t : Nat), mstate s m.val = 2 ∧ sget 0 s.fab.since m.val + 50000 ≤ t :=
  ⟨withRegs [(Reg.puntyMstat 25, 2)], 25, 50000, by decide +kernel⟩

theorem wit_LinkCommands_11 : ∃ (s : State) (m : Fin 26) (t : Nat), mstate s m.val = 2 ∧ sget 0 s.fab.since m.val + 2000 ≤ t :=
  ⟨withRegs [(Reg.puntyMstat 25, 2)], 25, 2000, by decide +kernel⟩

theorem wit_LinkCommands_12a : ∃ (s : State) (c : Fin 96), (s.regFld (Reg.puntyVstat c.val) 0 2 = 2 ∨ s.regFld (Reg.puntyVstat c.val) 0 2 = 0) :=
  ⟨withRegs [(Reg.puntyVstat 95, 2)], 95, .inl (by decide +kernel)⟩

theorem wit_LinkCommands_12b : ∃ (s : State) (c : Fin 96), (s.regFld (Reg.puntyVstat c.val) 0 2 = 2 ∨ s.regFld (Reg.puntyVstat c.val) 0 2 = 0) :=
  ⟨State.reset, 0, .inr (by decide +kernel)⟩

theorem wit_HostCommands_1 : ∃ (s : State) (fn : Fin 16) (ring : Fin 256), hostDieDown s = false ∧ fn.val = ringOwner s ring.val :=
  ⟨State.reset, 0, 255, by decide +kernel⟩

theorem wit_HostCommands_2 : ∃ (s : State) (who : Ident) (ring : Fin 256), ringWriter s who ring.val = true ∧ ringSt s ring.val = 0 ∧ hostDieDown s = false ∧ (∀ i ∈ [6, 11], 4 ≤ s.regFld (Reg.bomusRcfg ring.val) i 5 ∧ s.regFld (Reg.bomusRcfg ring.val) i 5 ≤ 16) ∧ fnEnabled s (ringOwner s ring.val) = true :=
  ⟨withRegs [(Reg.bomusRcfg 255, 4 * 2 ^ 6 + 16 * 2 ^ 11), (Reg.pcieFnstat 0, 1)], 0, 255, by decide +kernel⟩

theorem wit_HostCommands_3 : ∃ (s : State) (who : Ident) (ring : Fin 256), ringWriter s who ring.val = true ∧ ringSt s ring.val = 1 ∧ hostDieDown s = false :=
  ⟨withRegs [(Reg.bomusRstat 255, 1)], 16, 255, by decide +kernel⟩

theorem wit_HostCommands_4 : ∃ (s : State) (ring : Fin 256), ringSt s ring.val = 1 ∧ sqHead s ring.val ≠ sqTail s ring.val :=
  ⟨withRegs [(Reg.bomusRstat 255, 1), (Reg.bomusSqtail 255, 1)], 255, by decide +kernel⟩

theorem wit_HostCommands_5a : ∃ (s : State) (ring : Fin 256), (ringSt s ring.val = 1 ∨ ringSt s ring.val = 2) :=
  ⟨withRegs [(Reg.bomusRstat 255, 1)], 255, by decide +kernel⟩

theorem wit_HostCommands_5b : ∃ (s : State) (ring : Fin 256), (ringSt s ring.val = 1 ∨ ringSt s ring.val = 2) :=
  ⟨withRegs [(Reg.bomusRstat 0, 2)], 0, by decide +kernel⟩

theorem wit_HostCommands_6 : ∃ (s : State) (s1 : State) (ring : Fin 256) (entry : BitVec 512) (t : Nat), mayConsume (s.at t) ring.val = true ∧ turnOf (s.at t) ring.val = true ∧ s1 = fetchEntry (s.at t) ring.val ∧ earlyChecks s1 ring.val (leBytes 64 entry.toNat) = none :=
  ⟨withRegs [(Reg.bomusRcfg 255, 4 * 2 ^ 6 + 4 * 2 ^ 11), (Reg.bomusRstat 255, 1), (Reg.bomusSqtail 255, 1)], _, 255, entryOf [(0, 1), (2, 1), (4, 7)], 0, by decide +kernel, by decide +kernel, rfl, by decide +kernel⟩

def hostCommands_7S : State := live

theorem wit_HostCommands_7 : ∃ (s : State) (s1 : State) (fn : Fin 16) (off : BitVec 36) (len : BitVec 12) (ecc : MemEcc) (bs : List Byte), hostDieDown s = false ∧ mapHolds s = false ∧ devRead s (hostReq fn.val 2 none) ecc (bar4Addr s fn.val off.toNat) (len.toNat + 1) = (s1, .ok bs) := by
  obtain ⟨u, e, v, hm⟩ := plain_read (s := (hostCommands_7S)) (r := hostReq (0 : Fin 16).val 2 none) (a := bar4Addr hostCommands_7S (0 : Fin 16).val (0#36).toNat) (n := (63#12).toNat + 1) (by decide +kernel) (by decide +kernel) (by decide +kernel)
  exact ⟨hostCommands_7S, u, 0, 0#36, 63#12, .clean, ((List.range ((63#12).toNat + 1)).map fun i => plainByte (hostCommands_7S) (bar4Addr hostCommands_7S (0 : Fin 16).val (0#36).toNat + i)), by decide +kernel, by decide +kernel, e⟩

theorem wit_HostCommands_10 : ∃ (fn : Fin 16), fn.val ≠ 0 :=
  ⟨15, by decide +kernel⟩

theorem wit_BomusOperations_1 : ∃ (s : State) (s1 : State) (part : Fin 16) (seq : BitVec 32) (t : Nat) (c : Cmd) (d : Cmd), opCmd (s.at t) part.val seq.toNat 0x01 = some c ∧ s1 = endOp (s.at t) c 0 0 ∧ s1.cmd c.key = some d :=
  ⟨inCmds [cmdOf [(0, 1)] .ready], _, 0, 0#32, 0, cmdOf [(0, 1)] .ready, { cmdOf [(0, 1)] .ended with status := 0 }, by decide +kernel, rfl, by decide +kernel⟩

theorem wit_BomusOperations_2 : ∃ (s : State) (part : Fin 16) (seq : BitVec 32) (t : Nat) (c : Cmd) (d : Cmd), opCmd (s.at t) part.val seq.toNat 0x02 = some c ∧ ringOwner s (leAt c.entry 20 1) = c.part ∧ (leAt c.entry 20 1 ≠ c.ring ∨ leAt c.entry 16 4 ≠ c.seq) ∧ s.cmd (cmdKey c.part (leAt c.entry 16 4)) = some d ∧ d.ring = leAt c.entry 20 1 ∧ d.st ≠ .cancelling ∧ abortable d = true :=
  ⟨inCmds [cmdOf [(0, 2), (16, 5)] .ready, { cmdOf [(0, 16)] .ready with seq := 5 }], 0, 0#32, 0, cmdOf [(0, 2), (16, 5)] .ready, { cmdOf [(0, 16)] .ready with seq := 5 }, by decide +kernel⟩

theorem wit_BomusOperations_4 : ∃ (s : State) (part : Fin 16) (seq : BitVec 32) (t : Nat) (c : Cmd), opCmd (s.at t) part.val seq.toNat 0x13 = some c ∧ s.bench.layers.lookup (layerKey c.part c.layer) ≠ none ∧ layerNamed (s.at t) c = false :=
  ⟨let s := inCmds [cmdOf [(0, 0x13)] .ready]; { s with bench := { s.bench with layers := [(0, (0, ⟨0, 0, 0, [], []⟩))] } }, 0, 0#32, 0, cmdOf [(0, 0x13)] .ready, by decide +kernel⟩

theorem wit_BomusOperations_5 : ∃ (s : State) (part : Fin 16) (seq : BitVec 32) (t : Nat) (c : Cmd), opCmd (s.at t) part.val seq.toNat 0x20 = some c :=
  ⟨inCmds [cmdOf [(0, 0x20)] .ready], 0, 0#32, 0, cmdOf [(0, 0x20)] .ready, by decide +kernel⟩

theorem wit_BomusOperations_7 : ∃ (s : State) (s1 : State) (part : Fin 16) (seq : BitVec 32) (ecc : MemEcc) (t : Nat) (k : Nat) (result : Nat) (c : Cmd), opCmd (s.at t) part.val seq.toNat 0x30 = some c ∧ seqOperation (s.at t) c ecc = (s1, k, 0, result) :=
  ⟨inCmds [cmdOf [(0, 0x30), (16, 1), (27, 4)] .ready] (withRegs [(Reg.culletPoolcfg 0, 16 * 2 ^ 24)]), (seqOperation ((inCmds [cmdOf [(0, 0x30), (16, 1), (27, 4)] .ready] (withRegs [(Reg.culletPoolcfg 0, 16 * 2 ^ 24)])).at 0) (cmdOf [(0, 0x30), (16, 1), (27, 4)] .ready) .clean).1, 0, 0#32, .clean, 0, 0, 0, cmdOf [(0, 0x30), (16, 1), (27, 4)] .ready, by decide +kernel, pair_of (by decide +kernel)⟩

theorem wit_BomusOperations_8 : ∃ (s : State) (part : Fin 16) (seq : BitVec 32) (t : Nat) (c : Cmd) (x : Selection), opCmd (s.at t) part.val seq.toNat 0x40 = some c ∧ (s.frameSel c.frame).sel = some x ∧ x.source ≠ .none :=
  ⟨let s := inCmds [cmdOf [(0, 0x40)] .ready]; { s with lehrA := { s.lehrA with frames := [{ FrameSel.new 0 with sel := some ⟨.main, 0, 0x1000, 0⟩ }] } }, 0, 0#32, 0, cmdOf [(0, 0x40)] .ready, ⟨.main, 0, 0x1000, 0⟩, by decide +kernel⟩

theorem wit_BomusOperations_9 : ∃ (s : State) (part : Fin 16) (seq : BitVec 32) (t : Nat) (c : Cmd), opCmd (s.at t) part.val seq.toNat 0x50 = some c ∧ sensorPortUp (s.at t) (leAt c.entry 16 1) (leAt c.entry 17 1) = true :=
  ⟨inCmds [cmdOf [(0, 0x50), (16, 3)] .ready] (withRegs [(Reg.marverEthst 0, 2)]), 0, 0#32, 0, cmdOf [(0, 0x50), (16, 3)] .ready, by decide +kernel⟩

theorem wit_BomusOperations_10 : ∃ (s : State) (part : Fin 16) (seq : BitVec 32) (t : Nat) (c : Cmd), opCmd (s.at t) part.val seq.toNat 0x60 = some c :=
  ⟨inCmds [cmdOf [(0, 0x60)] .ready], 0, 0#32, 0, cmdOf [(0, 0x60)] .ready, by decide +kernel⟩

theorem wit_BomusOperations_11 : ∃ (s : State) (part : Fin 16) (seq : BitVec 32) (t : Nat) (c : Cmd), opCmd (s.at t) part.val seq.toNat 0x61 = some c :=
  ⟨inCmds [cmdOf [(0, 0x61)] .ready], 0, 0#32, 0, cmdOf [(0, 0x61)] .ready, by decide +kernel⟩

theorem readDesc_ok {s u1 u2 u3 : State} {r : Req} {a np ns : Nat} {h b : List Byte} (ha : inDram a 64 = true) (e1 : devRead s r .clean a 64 = (u1, .ok h))
    (hn : leAt h 6 1 = np) (hs : leAt h 7 1 = ns)
    (hc : ¬(leAt h 0 4 ≠ 0x4B44394A ∨ leAt h 4 2 ≠ 1 ∨ np = 0 ∨ 96 < np ∨ 32 < ns ∨ (!inDram a (64 + (8 * np + 16 * np * ns))) = true))
    (e2 : devRead u1 r .clean (a + 64) (8 * np + 16 * np * ns) = (u2, .ok b))
    (hk : ¬(crc32c (h.take 60 ++ b) ≠ leAt h 60 4 ∨
      (((List.range (np * ns)).map (fun i => (leAt b (8 * np + 16 * i) 8, leAt b (8 * np + 16 * i + 8) 8))).any (fun q => !slotIsArg q && !inDram q.1 q.2)) = true))
    (e3 : checkImages r .clean ns ((List.range np).map (fun i => leAt b (8 * i) 8)) u2 = (u3, .ok ())) :
    ∃ d, readDesc s r .clean a = (u3, .ok d) := by
  subst hn hs
  unfold readDesc
  rw [ha, e1]
  simp only [Bool.not_true, Bool.false_eq_true, if_false]
  rw [if_neg hc, e2]
  simp only
  rw [if_neg hk, e3]
  exact ⟨_, rfl⟩

theorem checkImages_one {s u : State} {r : Req} {ns a : Nat} {h : List Byte} (ha : ¬(2 ^ 48 ≤ a ∨ a % 64 ≠ 0 ∨ (!inDram a 64) = true))
    (e : devRead s r .clean a 64 = (u, .ok h)) (hh : imageHeadOk h = true ∧ leAt h 6 1 ≤ ns) : checkImages r .clean ns [a] s = (u, .ok ()) := by
  unfold checkImages
  rw [if_neg ha, e]
  simp only
  rw [if_pos hh, checkImages]

/-- A kernel descriptor of one program with no slots, and its program image's header (R342, R132). -/
def descHead : List Byte := leBytes 4 0x4B44394A ++ leBytes 2 1 ++ [1#8, 0#8] ++ List.replicate 52 0#8

def descBytes : List Byte :=
  descHead ++ leBytes 4 (crc32c (descHead ++ leBytes 8 0x100)) ++ leBytes 8 0x100 ++ List.replicate 184 0#8 ++
    leBytes 4 0x5054394A ++ leBytes 2 1 ++ List.replicate 10 0#8 ++ (List.replicate 5 (leBytes 8 (2 ^ 32))).flatten ++ List.replicate 8 0#8

def descS : State := inCmds [cmdOf [(0, 0x12)] .ready] (dram 0 descBytes)

theorem wit_BomusOperations_3 : ∃ (s s1 : State) (part : Fin 16) (seq : BitVec 32) (ecc : MemEcc) (t : Nat) (c : Cmd) (d : KDesc),
    opCmd (s.at t) part.val seq.toNat 0x12 = some c ∧ s.bench.layers.lookup (layerKey c.part c.layer) = none ∧ s.bench.layers.length < 8192 ∧
    readDesc (s.at t) (hostReq c.part c.cls none) ecc c.kdesc = (s1, .ok d) := by
  have hp : plain (descS.at 0) = true := by decide +kernel
  obtain ⟨u1, e1, v1, m1⟩ := plain_read (r := hostReq 0 0 none) (a := 0) (n := 64) hp (by decide) (by decide +kernel)
  obtain ⟨u2, e2, v2, m2⟩ := plain_read' (r := hostReq 0 0 none) (a := 0 + 64) (n := 8 * 1 + 16 * 1 * 0) v1 m1 hp (by decide) (by decide +kernel)
  obtain ⟨u3, e3, v3, m3⟩ := plain_read' (r := hostReq 0 0 none) (a := 0x100) (n := 64) v2 m2 hp (by decide) (by decide +kernel)
  have h3 := checkImages_one (ns := 0) (by decide) e3 (by decide +kernel)
  obtain ⟨d, hd⟩ := readDesc_ok (np := 1) (ns := 0) (by decide) e1 (by decide +kernel) (by decide +kernel) (by decide +kernel) e2 (by decide +kernel)
    (by rw [show ((List.range 1).map fun i => leAt ((List.range (8 * 1 + 16 * 1 * 0)).map fun i => plainByte (descS.at 0) (0 + 64 + i)) (8 * i) 8) = [0x100] by decide +kernel]
        exact h3)
  have hk : (cmdOf [(0, 0x12)] .ready).kdesc = 0 := by decide +kernel
  exact ⟨descS, u3, 0, 0#32, .clean, 0, cmdOf [(0, 0x12)] .ready, d, by decide +kernel, by decide +kernel, by decide +kernel,
    by rw [hk]; exact hd⟩

theorem planRecord_length (k tval flags : Nat) (pts : List PlanPt) : (planRecord k tval flags pts).length = 32 + 16 * pts.length := by
  have h : ∀ l : List PlanPt, (l.flatMap (fun p => leBytes 4 p.dt ++ leBytes 4 p.x ++ leBytes 4 p.y ++ leBytes 4 p.v)).length = 16 * l.length := fun l => by
    induction l with
    | nil => rfl
    | cons a l ih => rw [List.flatMap_cons, List.length_append, ih, List.length_cons]; simp only [List.length_append, leBytes_len]; omega
  unfold planRecord
  simp only [List.length_append, leBytes_len, h]

theorem fallback_length (s : State) (k : Nat) : (makeFallback s k).bytes.length = 512 := by
  unfold makeFallback
  dsimp only
  repeat' split
  all_goals simp only [planRecord_length, List.length_map, List.length_range]

def planS : State := { live with lehrB := { live.lehrB with planFor := some 1 } }

def planT : State := { (planS.at 0).nextFresh with lehrB := { planS.lehrB with planFor := none } }

theorem wit_LehrBCommands_7 : ∃ (s s1 s2 : State) (t k : Nat) (q : FbPlan), s.lehrB.planFor = some k ∧ s.lehrB.stoppedB = false ∧ mapHolds s = false ∧
    q = { makeFallback (s.at t) k with vnet := false } ∧
    devWrite { (s.at t).nextFresh with lehrB := { s.lehrB with planFor := none } } lehrBReq .clean (fbAddr s k) q.bytes = (s1, none) ∧
    s2 = { s1 with lehrB := { s1.lehrB with plans := q :: (s1.lehrB.plans.filter (fun x => decide (x.frame ≠ q.frame))).take 1 } } := by
  obtain ⟨u, e, _⟩ := devWrite_ok (s := planT) (r := lehrBReq) (a := fbAddr planS 1) (bs := (makeFallback (planS.at 0) 1).bytes)
    (by rw [fallback_length]; decide +kernel)
  exact ⟨planS, u, _, 0, 1, { makeFallback (planS.at 0) 1 with vnet := false }, rfl, rfl, by decide +kernel, rfl, e, rfl⟩

theorem wit_HostCommands_8 : ∃ (s : State) (s1 : State) (fn : Fin 16) (off : BitVec 36) (bytes : List Byte), hostDieDown s = false ∧ mapHolds s = false ∧ devWrite s (hostReq fn.val 2 none) .clean (bar4Addr s fn.val off.toNat) bytes = (s1, none) := by
  obtain ⟨u, e, _⟩ := devWrite_ok (s := live) (r := hostReq (0 : Fin 16).val 2 none) (a := bar4Addr live (0 : Fin 16).val (0#36).toNat) (bs := [1#8]) (by decide +kernel)
  exact ⟨live, u, 0, 0#36, [1#8], by decide +kernel, by decide +kernel, e⟩

theorem wit_BomusOperations_6 : ∃ (s : State) (s1 : State) (part : Fin 16) (seq : BitVec 32) (t : Nat) (c : Cmd), opCmd (s.at t) part.val seq.toNat 0x21 = some c ∧ copyWrite (s.at t) c (leAt c.entry 24 8) ((List.range (leAt c.entry 32 4)).map (fun i => (sliceBytes c.entry 40 8).getD (i % 8) 0#8)) = (s1, none) ∧ stageWaits (s.at t) (endOp s1 c 0 0) = false :=
  ⟨inCmds [cmdOf [(0, 0x21), (27, 5), (29, 0x80), (32, 64)] .ready] (coreIn .idle), (copyWrite ((inCmds [cmdOf [(0, 0x21), (27, 5), (29, 0x80), (32, 64)] .ready] (coreIn .idle)).at 0) (cmdOf [(0, 0x21), (27, 5), (29, 0x80), (32, 64)] .ready) 0x800005000000 (List.replicate 64 0#8)).1, 0, 0#32, 0, cmdOf [(0, 0x21), (27, 5), (29, 0x80), (32, 64)] .ready, by decide +kernel, pair_of (by decide +kernel), by decide +kernel⟩

theorem wit_BenchCommands_1 : ∃ (s : State) (part : Fin 16) (seq : BitVec 32) (t : Nat) (c : Cmd), s.cmd (cmdKey part.val seq.toNat) = some c ∧ c.st = .waiting ∧ frameTooLate (s.at t) c = false ∧ eventTooLate (s.at t) c = false ∧ firmConditions (s.at t) c = true ∧ frameBegun (s.at t) c = true ∧ c.dep = none :=
  ⟨inCmds [cmdOf [(0, 1)] .waiting], 0, 0#32, 0, cmdOf [(0, 1)] .waiting, by decide +kernel⟩

theorem wit_BenchCommands_2 : ∃ (s : State) (part : Fin 16) (seq : BitVec 32) (c : Cmd), s.cmd (cmdKey part.val seq.toNat) = some c ∧ c.st = .ready :=
  ⟨inCmds [cmdOf [(0, 1)] .ready], 0, 0#32, cmdOf [(0, 1)] .ready, by decide +kernel⟩

theorem wit_BenchCommands_3 : ∃ (s : State) (s1 : State) (part : Fin 16) (seq : BitVec 32) (ecc : MemEcc) (t : Nat) (x : Cand) (k : Nat) (c : Cmd) (d : Cmd) (i : Instr), (i, c.op) ∈ [(Instr.runLayer part seq ecc t, 0x10), (Instr.runKernel part seq ecc t, 0x11)] ∧ nextRun (s.at t) = some (x, k) ∧ x.cmd = c ∧ c.key = cmdKey part.val seq.toNat ∧ c.st = .ready ∧ x.tie = none ∧ s.cfg.switching = none ∧ s1 = startCmd (s.at t) c ∧ s1.cmd c.key = some d ∧ d.st = .running :=
  ⟨oneRun, _, 0, 0#32, .clean, 0, oneCand, 5, oneCand.cmd, { oneCand.cmd with st := .running }, .runLayer 0 0#32 .clean 0, by decide +kernel, by decide +kernel, rfl, by decide +kernel, by decide +kernel, rfl, rfl, rfl, by decide +kernel, rfl⟩

theorem wit_BenchCommands_4 : ∃ (s : State) (core : Fin 96) (c : Cmd) (r : ProgRun), endStands s core.val = true ∧ runOn s core.val = some (c, r) ∧ c.st = .running ∧ reportFits s c r core.val = true :=
  ⟨inCmds [cmdOf [(0, 16)] .running [runIn (.active 5)]] ((coreIn .idle).setCore 5 { Core.reset with streams := List.replicate 5 ⟨0, 9, 0, true, false⟩ }), 5, cmdOf [(0, 16)] .running [runIn (.active 5)], runIn (.active 5), by decide +kernel⟩

theorem wit_BenchCommands_5 : ∃ (s : State) (core : Fin 96) (c : Cmd) (r : ProgRun), s.coreSt core.val = .faulted ∧ runOn s core.val = some (c, r) :=
  ⟨inCmds [cmdOf [(0, 16)] .running [runIn (.active 5)]] (coreIn .faulted), 5, cmdOf [(0, 16)] .running [runIn (.active 5)], runIn (.active 5), by decide +kernel⟩

theorem wit_BenchCommands_6 : ∃ (s : State) (s1 : State) (core : Fin 96) (t : Nat) (c : Cmd) (r : ProgRun), s1 = accrue (s.at t) core.val ∧ (s1.core core.val).limit < (s1.core core.val).runTime ∧ killReaches s1 core.val = true ∧ runOn s1 core.val = some (c, r) :=
  ⟨(inCmds [cmdOf [(0, 16)] .running [runIn (.active 5)]] (coreIn .run)).setCore 5 { Core.reset with runTime := 1 }, accrue (State.at ((inCmds [cmdOf [(0, 16)] .running [runIn (.active 5)]] (coreIn .run)).setCore 5 { Core.reset with runTime := 1 }) 0) 5, 5, 0, cmdOf [(0, 16)] .running [runIn (.active 5)], runIn (.active 5), rfl, by decide +kernel, by decide +kernel, by decide +kernel⟩

theorem wit_BenchCommands_7 : ∃ (s : State) (part : Fin 16) (seq : BitVec 32) (flip : FlipAt) (c : Cmd), s.cmd (cmdKey part.val seq.toNat) = some c ∧ nextCommit (s.at flip.t) c.key = true :=
  ⟨inCmds [cmdOf [(0, 1)] .ended], 0, 0#32, ⟨0, .clean⟩, cmdOf [(0, 1)] .ended, by decide +kernel⟩

theorem wit_BenchCommands_8 : ∃ (s : State) (k : Fin 4) (p : Nat × Nat), s.bench.spillCopies.find? (fun p => decide (p.1 = k.val)) = some p :=
  ⟨{ State.reset with bench := { State.reset.bench with spillCopies := [(0, 4), (3, 7)] } }, 3, (3, 7), by decide +kernel⟩

theorem wit_BenchCommands_9 : ∃ (s : State) (t : Nat) (x : Cand) (v : Victim), unserved (s.at t) (preemptors (s.at t)) (freeing (s.at t)) = some x ∧ firstVictim (s.at t) ((victims (s.at t)).filter (victimFor (s.at t) x)) = some v :=
  ⟨twoRuns, 0, ⟨{ cmdOf [(0, 16)] .ready [runIn .queued] with seq := 1 }, 0, .main, [1, 2 ^ 80, 0, 0], none⟩, ⟨cmdOf [(0, 16), (2, 2)] .running [runIn (.active 5)], runIn (.active 5), 5⟩, by decide +kernel⟩

theorem wit_BenchCommands_10 : ∃ (s : State) (k : Fin 4) (t : Nat) (v : Victim), allStalled (s.at t) k.val = true ∧ firstVictim (s.at t) ((victims (s.at t)).filter (fun v => decide (3 ≤ tierOf (s.at t) v.cmd) && stagesAt (s.at t) v.cmd.key v.run.prog k.val)) = some v :=
  ⟨stallS, 0, 0, ⟨cmdOf [(0, 16), (2, 2)] .running [runIn (.active 5)], runIn (.active 5), 5⟩, by decide +kernel⟩

theorem wit_BenchCommands_11 : ∃ (s : State) (part : Fin 16) (seq : BitVec 32) (t : Nat) (c : Cmd), s.cmd (cmdKey part.val seq.toNat) = some c ∧ (c.st = .ready ∨ c.st = .running) ∧ (∃ r ∈ c.runs, r.st = .queued ∧ r.queuedAt + s.quantum ≤ t) ∧ tierOf (s.at t) c = 3 ∧ s.bench.quantum.contains (cmdKey part.val seq.toNat) = false :=
  ⟨(inCmds [cmdOf [(0, 16), (2, 2)] .ready [runIn .queued]]).setReg (Reg.devShare 0) 1, 0, 0#32, 2000000000, cmdOf [(0, 16), (2, 2)] .ready [runIn .queued], by decide +kernel⟩

theorem wit_BenchCommands_12 : ∃ (s : State) (core : Fin 96) (t : Nat), s.coreSt core.val = .run ∧ (s.regBit (Reg.coreTpckpt core.val) 50 = true ∨ s.regBit (Reg.coreTpckpt core.val) 48 = true ∧ (s.core core.val).ckptSince + s.ckptWait ≤ t) :=
  ⟨(coreIn .run).setRegBit (Reg.coreTpckpt 5) 50 true, 5, 0, by decide +kernel⟩

theorem wit_BenchCommands_13 : ∃ (s : State) (part : Fin 16) (seq : BitVec 32) (t : Nat) (c : Cmd) (ms : List (Nat × Nat)), s.cmd (cmdKey part.val seq.toNat) = some c ∧ c.st = .cancelling ∧ c.member = false ∧ ms = closureOf (8192 + s.bench.cmds.length) (s.at t) [c.key] [(c.key, c.reason)] ∧ c.key = cmdKey part.val seq.toNat :=
  ⟨inCmds [cmdOf [(0, 16)] .cancelling], 0, 0#32, 0, cmdOf [(0, 16)] .cancelling, _, by decide +kernel, by decide +kernel, by decide +kernel, rfl, by decide +kernel⟩

theorem wit_BenchCommands_14 : ∃ (s : State) (part : Fin 16) (t : Nat), (∀ c ∈ s.bench.cmds, c.part = part.val → c.st = .cancelling → c.member = true) ∧ (∀ c ∈ members (s.at t) part.val, settled (s.at t) c.key = true) :=
  ⟨inCmds [{ cmdOf [(0, 16)] .cancelling with member := true }], 0, 0, by decide +kernel⟩

theorem wit_BenchCommands_15 : ∃ (s : State) (core : Fin 96), (s.coreSt core.val = .run ∨ s.coreSt core.val = .ckpt) :=
  ⟨coreIn .run, 5, by decide +kernel⟩

theorem wit_BenchCommands_16 : ∃ (s : State) (d : Fin 12) (t : Nat) (k : Nat), (List.range 16).any (sresBlocks (s.at t) d.val) = false ∧ bestCore (fun k => [(s.reg (Reg.thermRht k)).toNat, k]) (reheatCores (s.at t) d.val) = some k ∧ (∀ e, windowEnd (s.at t) d.val = some e → max s.now t + s.rhNeed ≤ e) ∧ k < 96 :=
  ⟨coreIn .idle, 0, 0, 5, by decide +kernel, by decide +kernel, fun e h => (by rw [show windowEnd ((coreIn .idle).at 0) (0 : Fin 12).val = none by decide +kernel] at h; cases h), by decide +kernel⟩

theorem wit_BenchCommands_17 : ∃ (s : State) (s1 : State) (t : Nat) (a : TrigArmed) (rest : List TrigArmed), s.bench.triggers = a :: rest ∧ s1 = { (s.at t) with bench := { (s.at t).bench with triggers := rest } } :=
  ⟨oneTrig, _, 0, ⟨0, 0, 0, 1, 0, 0⟩, [], rfl, rfl⟩

theorem wit_IngestCommands_2 : ∃ (s : State) (port : Fin 16) (vc : Fin 32) (is : List Nat) (img : List Nat), s.regBit (Reg.marverCamcfg port.val) 0 = true ∧ s.regFld (Reg.marverCamst port.val) 0 2 = 2 ∧ is = cameraStreams s port.val vc.val ∧ img = is.filter (fun i => decide (streamPayload s i = 0)) :=
  ⟨withRegs [(Reg.marverCamcfg 15, 1), (Reg.marverCamst 15, 2)], 15, 31, _, _, by decide +kernel, by decide +kernel, rfl, rfl⟩

theorem wit_IngestCommands_3 : ∃ (s : State) (port : Fin 8), s.regFld (Reg.marverEthst port.val) 0 2 = 2 :=
  ⟨withRegs [(Reg.marverEthst 7, 2)], 7, by decide +kernel⟩

def ingestCommands_4S : State := let s := dram 0 injBytes; withRegs [(Reg.marverScfg 63, 7), (Reg.marverSslot 63, 2 ^ 32)] s

theorem wit_IngestCommands_4 : ∃ (s : State) (s1 : State) (stream : Fin 64) (ecc : MemEcc) (t : Nat) (e : List Byte), streamOn s stream.val = true ∧ streamKind s stream.val = 3 ∧ s.regFld (Reg.marverSslot stream.val) 32 32 ≠ s.regFld (Reg.marverInjrd stream.val) 0 32 ∧ devRead (s.at t) marverReq ecc (s.regFld (Reg.marverSmatch stream.val) 6 42 * 64 + s.regFld (Reg.marverInjrd stream.val) 0 32 % 2 ^ s.regFld (Reg.marverSmatch stream.val) 48 4 * 32) 32 = (s1, .ok e) ∧ leAt e 28 4 = crc32c (e.take 28) ∧ (leAt e 20 1 = 1 ∨ leAt e 20 1 = 2) ∧ 1 ≤ leAt e 16 4 ∧ leAt e 16 4 ≤ 16777216 := by
  obtain ⟨u, e, v, hm⟩ := plain_read (s := (ingestCommands_4S.at 0)) (r := marverReq) (a := ingestCommands_4S.regFld (Reg.marverSmatch (63 : Fin 64).val) 6 42 * 64 + ingestCommands_4S.regFld (Reg.marverInjrd (63 : Fin 64).val) 0 32 % 2 ^ ingestCommands_4S.regFld (Reg.marverSmatch (63 : Fin 64).val) 48 4 * 32) (n := 32) (by decide +kernel) (by decide +kernel) (by decide +kernel)
  exact ⟨ingestCommands_4S, u, 63, .clean, 0, ((List.range (32)).map fun i => plainByte (ingestCommands_4S.at 0) (ingestCommands_4S.regFld (Reg.marverSmatch (63 : Fin 64).val) 6 42 * 64 + ingestCommands_4S.regFld (Reg.marverInjrd (63 : Fin 64).val) 0 32 % 2 ^ ingestCommands_4S.regFld (Reg.marverSmatch (63 : Fin 64).val) 48 4 * 32 + i)), by decide +kernel, by decide +kernel, by decide +kernel, e, by decide +kernel, by decide +kernel, by decide +kernel⟩

theorem wit_IngestCommands_5 : ∃ (s : State) (stream : Fin 64), streamKind s stream.val ≠ 0 ∧ streamOn s stream.val = false :=
  ⟨withRegs [(Reg.marverScfg 63, 2)], 63, by decide +kernel⟩

theorem wit_IngestCommands_7a : ∃ (s : State) (stream : Fin 64) (v : BitVec 32), countDiff v.toNat (s.regFld (Reg.marverInjrd stream.val) 0 32) ≤ 2 ^ s.regFld (Reg.marverSmatch stream.val) 48 4 ∧ newer32 (s.regFld (Reg.marverSslot stream.val) 32 32) v.toNat = false :=
  ⟨State.reset, 63, 1#32, by decide +kernel⟩

theorem wit_IngestCommands_7b : ∃ (s : State) (stream : Fin 64) (v : BitVec 32), countDiff v.toNat (s.regFld (Reg.marverInjrd stream.val) 0 32) ≤ 2 ^ s.regFld (Reg.marverSmatch stream.val) 48 4 ∧ newer32 (s.regFld (Reg.marverSslot stream.val) 32 32) v.toNat = false :=
  ⟨withRegs [(Reg.marverScfg 0, 7), (Reg.marverSmatch 0, 15 * 2 ^ 48)], 0, 32768#32, by decide +kernel⟩

theorem wit_IngestCommands_8a : ∃ (s : State) (stream : Fin 64) (v : BitVec 32), (2 ^ s.regFld (Reg.marverSmatch stream.val) 48 4 < countDiff v.toNat (s.regFld (Reg.marverInjrd stream.val) 0 32) ∨ newer32 (s.regFld (Reg.marverSslot stream.val) 32 32) v.toNat = true) :=
  ⟨State.reset, 63, 2#32, by decide +kernel⟩

theorem wit_IngestCommands_8b : ∃ (s : State) (stream : Fin 64) (v : BitVec 32), (2 ^ s.regFld (Reg.marverSmatch stream.val) 48 4 < countDiff v.toNat (s.regFld (Reg.marverInjrd stream.val) 0 32) ∨ newer32 (s.regFld (Reg.marverSslot stream.val) 32 32) v.toNat = true) :=
  ⟨withRegs [(Reg.marverSslot 0, 5 * 2 ^ 32)], 0, 4#32, by decide +kernel⟩

theorem wit_IngestCommands_9 : ∃ (s : State) (v : BitVec 32), newer32 v.toNat (s.regFld Reg.marverPosewr 0 32) = false :=
  ⟨State.reset, 0#32, by decide +kernel⟩

theorem wit_IngestCommands_10 : ∃ (s : State) (v : BitVec 32) (k : Nat) (new : List Nat), newer32 v.toNat (s.regFld Reg.marverPosewr 0 32) = true ∧ countDiff v.toNat (s.regFld Reg.marverPoserd 0 32) ≤ poseRing s ∧ k = min (poseRing s) (countDiff v.toNat (s.regFld Reg.marverPosewr 0 32)) ∧ new = (List.range k).map (fun j => (v.toNat + 2 ^ 32 - k + j) % 2 ^ 32) :=
  ⟨State.reset, 1#32, _, _, by decide +kernel, by decide +kernel, rfl, rfl⟩

theorem wit_MarverTimeCommands_1 : ∃ (s : State) (stream : Fin 64) (t : Nat), srcMode s stream.val ≠ 0 ∧ servoSt s stream.val = 2 ∧ (s.mstream stream.val).servo.accTime + s.regFld (Reg.marverShold stream.val) 0 32 ≤ max s.now t :=
  ⟨withRegs [(Reg.marverScfg 63, 2 ^ 9), (Reg.marverSstat 63, 2)], 63, 2 ^ 32, by decide +kernel⟩

theorem wit_MarverTimeCommands_2 : ∃ (s : State) (stream : Fin 64) (t : Nat), servoSt s stream.val = 3 ∧ (s.mstream stream.val).servo.accTime + s.regFld (Reg.marverShold stream.val) 32 32 ≤ max s.now t :=
  ⟨withRegs [(Reg.marverSstat 63, 3)], 63, 2 ^ 32, by decide +kernel⟩

theorem wit_MarverTimeCommands_3 : ∃ (s : State) (domain : BitVec 7), gptpTakes s domain.toNat = true ∧ gpState s ≠ 0 :=
  ⟨withRegs [(Reg.marverGpctl, 1), (Reg.marverGpstat, 1)], 0#7, by decide +kernel⟩

theorem wit_MarverTimeCommands_4 : ∃ (s : State) (domain : BitVec 7) (sq : BitVec 16) (tin : Nat) (c : Int), gptpTakes s domain.toNat = true ∧ s.marver.gp.sync = some (sq.toNat, tin, c) :=
  ⟨withGp { gp0 with sync := some (5, 7, 0) } (withRegs [(Reg.marverGpctl, 1), (Reg.marverGpstat, 1)]), 0#7, 5#16, 7, 0, by decide +kernel⟩

theorem wit_MarverTimeCommands_5 : ∃ (s : State) (domain : BitVec 7), gptpTakes s domain.toNat = true ∧ gpState s ≠ 0 :=
  ⟨withRegs [(Reg.marverGpctl, 1), (Reg.marverGpstat, 1)], 0#7, by decide +kernel⟩

theorem wit_MarverTimeCommands_6 : ∃ (s : State) (t : Nat) (tx : Nat), s.regBit Reg.marverGpctl 0 = true ∧ pdelayDue (s.at t) = true ∧ tx = t + s.regFld (Reg.marverEthcfg (s.regFld Reg.marverGpctl 1 3)) 20 12 :=
  ⟨withRegs [(Reg.marverGpctl, 1)], 0, _, by decide +kernel, by decide +kernel, rfl⟩

theorem wit_MarverTimeCommands_7 : ∃ (s : State) (sq : BitVec 16) (t3 : BitVec 64) (t : Nat) (t1 : Nat) (t4 : Nat) (x : Int), s.regBit Reg.marverGpctl 0 = true ∧ s.marver.gp.pdelay = some (sq.toNat, t1) ∧ t4 = t - s.regFld (Reg.marverEthcfg (s.regFld Reg.marverGpctl 1 3)) 8 12 ∧ x = Config.neighbourRatio s.marver.gp.ratio t3.toNat t4 :=
  ⟨withGp { gp0 with pdelay := some (5, 100) } (withRegs [(Reg.marverGpctl, 1)]), 5#16, 0#64, 200, 100, _, _, by decide +kernel, by decide +kernel, rfl, rfl⟩

theorem wit_MarverTimeCommands_8 : ∃ (s : State) (t : Nat), gpState s = 2 ∧ s.marver.gp.sampleAt + 3 * syncInterval s ≤ max s.now t :=
  ⟨withRegs [(Reg.marverGpstat, 2)], 2 ^ 40, by decide +kernel⟩

theorem wit_MarverTimeCommands_9 : ∃ (s : State) (t : Nat), gpState s = 3 ∧ s.marver.gp.holdAt + 10000000000 ≤ max s.now t :=
  ⟨withRegs [(Reg.marverGpstat, 3)], 10000000000, by decide +kernel⟩

theorem wit_MarverTimeCommands_10a : ∃ (s : State) (add : Bool) (t : Nat), s.regBit Reg.marverGpctl 11 = true ∧ s.marver.gp.adjusted + 20000 ≤ max s.now t ∧ adjustDue (settleSteer s.marver.gp (max s.now t)) add = true :=
  ⟨withGp { gp0 with phase := 2 ^ 40 } (withRegs [(Reg.marverGpctl, 2 ^ 11)]), true, 20000, by decide +kernel⟩

theorem wit_MarverTimeCommands_10b : ∃ (s : State) (add : Bool) (t : Nat), s.regBit Reg.marverGpctl 11 = true ∧ s.marver.gp.adjusted + 20000 ≤ max s.now t ∧ adjustDue (settleSteer s.marver.gp (max s.now t)) add = true :=
  ⟨withGp { gp0 with phase := -(2 ^ 40) } (withRegs [(Reg.marverGpctl, 2 ^ 11)]), false, 20000, by decide +kernel⟩

theorem wit_MarverRunCommands_2 : ∃ (s : State) (t : Nat) (e : Nat) (p : MPeriod) (rest : List MPeriod), s.marver.periods = p :: rest ∧ p.closed = false ∧ p.ref = some e ∧ e + s.regFld Reg.marverTsctl 0 24 ≤ max s.now t :=
  ⟨inPeriod { periodIn 1 with ref := some 0 }, 2 ^ 24, 0, { periodIn 1 with ref := some 0 }, [], by decide +kernel⟩

theorem wit_MarverRunCommands_6 : ∃ (s : State) (s1 : State) (ecc : MemEcc) (t : Nat) (n : Nat) (p : MPeriod) (q : MPeriod) (rest : List MPeriod) (ns : List Nat), s.marver.periods = p :: rest ∧ p.projected.isSome = true ∧ p.gridDone = false ∧ p.scatters = n :: ns ∧ s1 = mapPeriod ((List.range n).foldl (scatterEntry ecc p.frame) (s.at t)) p.frame (fun p => { p with scatters := p.scatters.tail }) ∧ s1.mperiod p.frame = some q :=
  ⟨inPeriod { periodIn 1 with projected := some 0, scatters := [0] }, _, .clean, 0, 0, { periodIn 1 with projected := some 0, scatters := [0] }, { periodIn 1 with projected := some 0 }, [], [], by decide +kernel, by decide +kernel, by decide +kernel, by decide +kernel, rfl, rfl⟩

theorem wit_MarverRunCommands_7 : ∃ (s : State) (t : Nat) (e : Nat) (p : MPeriod) (rest : List MPeriod), s.marver.periods = p :: rest ∧ p.gridDone = false ∧ p.projected = some e ∧ e + s.regFld Reg.marverDline 32 32 ≤ max s.now t :=
  ⟨inPeriod { periodIn 1 with projected := some 0 }, 2 ^ 32, 0, { periodIn 1 with projected := some 0 }, [], by decide +kernel⟩

theorem wit_MarverRunCommands_8 : ∃ (s : State) (n : Nat) (p : MPeriod) (rest : List MPeriod), s.marver.periods = p :: rest ∧ p.projected.isSome = true ∧ p.mode = 1 ∧ p.mainStarted = false ∧ p.ndet = some n :=
  ⟨inPeriod { periodIn 1 with projected := some 0, ndet := some 3 }, 3, { periodIn 1 with projected := some 0, ndet := some 3 }, [], by decide +kernel⟩

theorem wit_MarverRunCommands_9 : ∃ (s : State) (t : Nat) (e : Nat) (p : MPeriod) (rest : List MPeriod), s.marver.periods = p :: rest ∧ p.mode = 1 ∧ p.mainStarted = false ∧ p.ndet = none ∧ p.projected = some e ∧ e + s.regFld Reg.marverDline 0 32 ≤ max s.now t :=
  ⟨inPeriod { periodIn 1 with projected := some 0 }, 2 ^ 32, 0, { periodIn 1 with projected := some 0 }, [], by decide +kernel⟩

theorem wit_MarverRunCommands_12 : ∃ (s : State), s.regFld Reg.marverCnfcfg 16 8 ≤ s.marver.plPeriods ∧ s.marver.plPeriods ≠ 0 :=
  ⟨{ State.reset with marver := { State.reset.marver with plPeriods := 255 } }, by decide +kernel⟩

def debugCommands_12S : State := (coreIn .run (live.setRegBit (Reg.coreCmd 5) 39 true)).setCore 5 { Core.reset with streams := List.replicate 5 ⟨0, 9, 0, false, false⟩ }

theorem wit_DebugCommands_12 : ∃ (s : State) (s1 : State) (c : Fin 96) (k : Fin 5) (index : BitVec 24) (ecc : MemEcc) (bs : List Byte), s.coreSt c.val = .run ∧ mayFetch s c.val k.val index.toNat = true ∧ devRead s (coreReq s c.val) ecc (s.regFld (Reg.coreTpimage c.val) 0 48 + (((s.core c.val).stream k.val).offset + index.toNat) * 16) 16 = (s1, .ok bs) := by
  obtain ⟨u, e, v, hm⟩ := plain_read (s := (debugCommands_12S)) (r := coreReq debugCommands_12S (5 : Fin 96).val) (a := debugCommands_12S.regFld (Reg.coreTpimage (5 : Fin 96).val) 0 48 + (((debugCommands_12S.core (5 : Fin 96).val).stream (0 : Fin 5).val).offset + (0#24).toNat) * 16) (n := 16) (by decide +kernel) (by decide +kernel) (by decide +kernel)
  exact ⟨debugCommands_12S, u, 5, 0, 0#24, .clean, ((List.range (16)).map fun i => plainByte (debugCommands_12S) (debugCommands_12S.regFld (Reg.coreTpimage (5 : Fin 96).val) 0 48 + (((debugCommands_12S.core (5 : Fin 96).val).stream (0 : Fin 5).val).offset + (0#24).toNat) * 16 + i)), by decide +kernel, by decide +kernel, e⟩

theorem wit_CoreStateCommands_19a : ∃ (s : State) (s1 : State) (t : Nat) (x : Cand) (k : Nat), nextRun (s.at t) = some (x, k) ∧ s.cfg.switching = none ∧ s1 = (if x.cmd.st = .ready ∧ x.tie = none then startCmd (s.at t) x.cmd else s.at t) ∧ (x.tie ≠ none ∨ ∃ c, s1.cmd x.cmd.key = some c ∧ c.st = .running) :=
  ⟨oneRun, startCmd (oneRun.at 0) oneCand.cmd, 0, oneCand, 5, by decide +kernel, by decide +kernel, (if_pos ⟨rfl, rfl⟩).symm, .inr ⟨{ oneCand.cmd with st := .running }, by decide +kernel, rfl⟩⟩

theorem wit_BlowpipePorts_1 : ∃ (who : Ident), mgmt who = true :=
  ⟨16, by decide +kernel⟩

theorem wit_BlowpipePorts_2 : ∃ (who : Ident), mgmt who = false :=
  ⟨3, by decide +kernel⟩

theorem wit_BlowpipePorts_3 : ∃ (s : State) (port : Fin 6), portSt s port.val = 1 :=
  ⟨withRegs [(Reg.blowpipePstat 5, 1)], 5, by decide +kernel⟩

theorem wit_BlowpipePorts_4 : ∃ (s : State) (port : Fin 6) (t : Nat), portSt s port.val = 1 ∧ sget 0 s.fab.since (200 + port.val) + 100000000 ≤ max s.now t :=
  ⟨withRegs [(Reg.blowpipePstat 5, 1)], 5, 100000000, by decide +kernel⟩

theorem wit_BlowpipePorts_5 : ∃ (s : State) (port : Fin 6), portWeight s port.val ≠ 0 :=
  ⟨withRegs [(Reg.blowpipePstat 5, 2)], 5, by decide +kernel⟩

theorem wit_BlowpipePorts_6 : ∃ (s : State) (port : Fin 6) (t : Nat), portWeight s port.val ≠ 0 ∧ (recentReplays (s.at t) port.val).length < 16 :=
  ⟨withRegs [(Reg.blowpipePstat 5, 3)], 5, 0, by decide +kernel⟩

theorem wit_BlowpipePorts_7 : ∃ (s : State) (port : Fin 6), portWeight s port.val ≠ 0 :=
  ⟨{ (withRegs [(Reg.blowpipePstat 0, 3)]) with blow := { State.reset.blow with ports := [(0, ⟨1, [(0, ⟨0, 4, 0, 1, 0, 1, 0, 0, none, none⟩)], 0, [], 0⟩)] } }, 0, by decide +kernel⟩

theorem wit_BlowpipePorts_8 : ∃ (s : State) (port : Fin 6) (ackseq : BitVec 16) (t : Nat) (x : BpPort) (y : BpPort), portWeight s port.val ≠ 0 ∧ x = s.bpPort port.val ∧ y = ackFlits x ackseq.toNat (max s.now t) :=
  ⟨withRegs [(Reg.blowpipePstat 5, 2)], 5, 1#16, 0, _, _, by decide +kernel, rfl, rfl⟩

theorem wit_BlowpipePorts_9 : ∃ (who : Ident), mgmt who = true :=
  ⟨0, by decide +kernel⟩

theorem wit_BlowpipeDeliveries_1 : ∃ (s : State) (chan : Fin 32) (d : BpOut), s.blow.out.find? (fun d => decide (d.chan = chan.val) && d.begun.isNone) = some d :=
  ⟨{ State.reset with blow := { State.reset.blow with out := [⟨31, 1, 0, [], none, false, none, 0, 0⟩] } }, 31, ⟨31, 1, 0, [], none, false, none, 0, 0⟩, by decide +kernel⟩

theorem wit_BlowpipeDeliveries_2 : ∃ (s : State) (chan : Fin 32) (d : BpOut), s.blow.out.find? (fun d => decide (d.chan = chan.val) && d.held) = some d :=
  ⟨{ State.reset with blow := { State.reset.blow with out := [⟨31, 1, 0, [], some 0, true, none, 0, 0⟩] } }, 31, ⟨31, 1, 0, [], some 0, true, none, 0, 0⟩, by decide +kernel⟩

theorem wit_BlowpipeDeliveries_3 : ∃ (s : State) (src : Fin 64) (chan : Fin 32) (gen : BitVec 32) (d : BpOut), answered s src.val chan.val gen.toNat = some d :=
  ⟨{ State.reset with blow := { State.reset.blow with out := [⟨31, 1, 0, [], some 0, false, none, 0, 0⟩] } }, 0, 0, 1#32, ⟨31, 1, 0, [], some 0, false, none, 0, 0⟩, by decide +kernel⟩

theorem wit_BlowpipeDeliveries_4 : ∃ (s : State) (src : Fin 64) (chan : Fin 32) (gen : BitVec 32), answered s src.val chan.val gen.toNat = none :=
  ⟨State.reset, 63, 31, 1#32, by decide +kernel⟩

theorem wit_BlowpipeDeliveries_5 : ∃ (s : State) (chan : Fin 32) (t : Nat) (e : Nat) (d : BpOut) (rest : List BpOut), s.blow.out = d :: rest ∧ d.chan = chan.val ∧ d.ended = some e ∧ e + fwdTmo s chan.val ≤ max s.now t :=
  ⟨{ State.reset with blow := { State.reset.blow with out := [⟨31, 1, 0, [], some 0, false, some 5, 0, 0⟩] } }, 31, 2 ^ 40, 5, ⟨31, 1, 0, [], some 0, false, some 5, 0, 0⟩, [], by decide +kernel⟩

theorem wit_BlowpipeDeliveries_6 : ∃ (s : State) (chan : Fin 32), s.regBit (Reg.blowpipeIna chan.val) 0 = false :=
  ⟨State.reset, 31, by decide +kernel⟩

theorem wit_BlowpipeDeliveries_7 : ∃ (s : State) (src : Fin 64) (chan : Fin 32) (gen : BitVec 32), s.regBit (Reg.blowpipeIna chan.val) 0 = true ∧ s.regBit (Reg.blowpipeInstat chan.val) 40 = true ∧ gen.toNat = nextGen s chan.val ∧ (∀ x ∈ inb s chan.val, x.src ≠ src.val) :=
  ⟨withRegs [(Reg.blowpipeIna 31, 1), (Reg.blowpipeInstat 31, 2 ^ 40)], 63, 31, 1#32, by decide +kernel⟩

theorem writeReq_owned {s : State} {r : Req} {a : Nat} {bs : List Byte} (h : writeOk s { r with owner := none } a = true) : (writeReq s r .clean a bs).2 = none := by
  simp only [writeOk, Bool.and_eq_true, decide_eq_true_eq, Option.any_eq_true] at h
  obtain ⟨⟨⟨⟨⟨⟨hk, hh⟩, hi⟩, ho⟩, hc⟩, hr⟩, p, hp, hs⟩ := h
  change (match (checkReq s r a true).2 with | .ok c => decide (c ≠ 2) | .error _ => false) = true at hc
  change reachable s r a = true at hr
  cases e : (checkReq s r a true).2 with
  | error p => simp [e] at hc
  | ok c =>
    have hc : c ≠ 2 := by simpa [e] using hc
    obtain ⟨h, ha, hx⟩ := atHome_ok (s := s) (r := r) (a := a) (n := bs.length) (by simp [chanServes, hp, hs]) hh hi
    unfold writeReq
    rw [checkReq_ok e]
    simp only [hr, hk, hc, writeTxn, ha]
    cases stagesFor (admitRequest s (homeOf s a) r.ident r.cls bs.length) r a <;> simp [commitTxn, lineFails, lineCorrected, awake_serves hx]

/-- Input channel 3 enabled over the first pages of DRAM, a source's first packet awaited. -/
def inS : State :=
  let s := withRegs [(Reg.blowpipeIna 3, 1), (Reg.blowpipeInb 3, 1)] live
  { s with blow := { s.blow with inb := [(3, [⟨7, some 0, [], none, false⟩])] } }

def inD : BpData := ⟨false, 0, 0#48, 0, 0, 0, [some 9#8], 0⟩

theorem stage_one (s : State) (n a : Nat) : stagePacket s n inD a = writeReq s ⟨0x64, inPart s n, false, 0, some (inOwner n)⟩ .clean a [9#8] := rfl

theorem wit_BlowpipeDeliveries_8 : ∃ (s s1 : State) (src : Fin 64) (chan : Fin 32) (gen : BitVec 32) (packet : BpData) (t lo : Nat),
    s.regBit (Reg.blowpipeIna chan.val) 0 = true ∧ gen.toNat = nextGen s chan.val ∧ (∃ x ∈ inb s chan.val, x.src = src.val ∧ x.done = false) ∧
    lo = s.regFld (Reg.blowpipeIna chan.val) 12 36 * 4096 ∧ lo ≤ packet.addr.toNat ∧
    packet.addr.toNat + packet.bytes.length ≤ lo + s.regFld (Reg.blowpipeInb chan.val) 0 24 * 4096 ∧
    packet.addr.toNat % 128 + packet.bytes.length ≤ 128 ∧ stagePacket (s.at t) chan.val packet packet.addr.toNat = (s1, none) := by
  have h : (writeReq (inS.at 0) ⟨0x64, inPart (inS.at 0) 3, false, 0, some (inOwner 3)⟩ .clean 0 [9#8]).2 = none := writeReq_owned (by decide +kernel)
  have hs : (stagePacket (inS.at 0) 3 inD 0).2 = none := by rw [stage_one]; exact h
  exact ⟨inS, _, 7, 3, 1#32, inD, 0, 0, by decide +kernel, by decide +kernel, by decide +kernel, by decide +kernel, by decide, by decide +kernel,
    by decide, pair_of hs⟩

theorem wit_BlowpipeDeliveries_9 : ∃ (s : State) (src : Fin 64) (chan : Fin 32) (gen : BitVec 32) (count : BitVec 32) (crc : BitVec 32) (x : BpIn) (f : BpIn → BpIn), s.regBit (Reg.blowpipeIna chan.val) 0 = true ∧ gen.toNat = nextGen s chan.val ∧ (inb s chan.val).find? (fun x => decide (x.src = src.val) && !x.done) = some x ∧ f = (fun y => { y with fin := some (count.toNat, crc.toNat) }) :=
  ⟨let s := withRegs [(Reg.blowpipeIna 3, 1)]; { s with blow := { s.blow with inb := [(3, [⟨7, some 0, [(0, 4)], none, false⟩])] } }, 7, 3, 1#32, 1#32, 0#32, ⟨7, some 0, [(0, 4)], none, false⟩, _, by decide +kernel, by decide +kernel, by decide +kernel, rfl⟩

theorem wit_BlowpipeDeliveries_10 : ∃ (s : State) (s1 : State) (s2 : State) (chan : Fin 32) (flip : FlipAt), s.regBit (Reg.blowpipeIna chan.val) 0 = true ∧ inNsrc s chan.val ≤ ((inb s chan.val).filter (fun (x : BpIn) => x.done)).length ∧ closing s (inPart s chan.val) = false ∧ s1 = setInb (poisonRuns (s.at flip.t) (flipStaged ((s.at flip.t).bump Reg.devCommitidx 1) flip.ecc (inOwner chan.val))) chan.val [] ∧ s2 = s1.setRegFld (Reg.blowpipeInstat chan.val) 0 32 (nextGen s chan.val) ∧ s2.regBit (Reg.blowpipeIna chan.val) 1 = false :=
  ⟨let s := withRegs [(Reg.blowpipeIna 3, 1)]; { s with blow := { s.blow with inb := [(3, [⟨7, some 0, [], none, true⟩])] } }, _, _, 3, ⟨0, .clean⟩, by decide +kernel, by decide +kernel, by decide +kernel, rfl, rfl, by decide +kernel⟩

theorem wit_BlowpipeDeliveries_11 : ∃ (s : State) (chan : Fin 32) (t : Nat), s.regBit (Reg.blowpipeIna chan.val) 0 = true ∧ ((inb s chan.val).filter (fun (x : BpIn) => x.done)).length < inNsrc s chan.val ∧ (∃ x ∈ inb s chan.val, ∃ b, x.began = some b ∧ b + inTmo s chan.val ≤ max s.now t) :=
  ⟨let s := withRegs [(Reg.blowpipeIna 3, 1), (Reg.blowpipeInb 3, 5 * 2 ^ 32)]; { s with blow := { s.blow with inb := [(3, [⟨7, some 0, [], none, false⟩])] } }, 3, 5000, by decide +kernel⟩

theorem readList_ok {s u1 u2 : State} {addr magic most n : Nat} {hd bs : List Byte} (e1 : devRead s gafferReq .clean addr 32 = (u1, .ok hd)) (hn : leAt hd 4 2 = n)
    (hc : ¬(leAt hd 0 4 ≠ magic ∨ n = 0 ∨ most < n ∨ (!allZero (sliceBytes hd 6 22)) = true))
    (e2 : devRead u1 gafferReq .clean (addr + 32) (16 * n) = (u2, .ok bs))
    (hk : ¬(crc32c (hd.take 28 ++ bs) ≠ leAt hd 28 4 ∨ (!entriesOk n bs) = true)) (ht : (!(parseEntries n bs).all (fun e => fritTarget e.off)) = false) :
    readList s .clean addr magic most = (u2, .ok (parseEntries n bs)) := by
  subst hn
  unfold readList
  rw [e1]
  simp only
  rw [if_neg hc, e2]
  simp only
  rw [if_neg hk, ht]
  rfl

theorem readList_bad {s u1 : State} {addr magic most : Nat} {hd : List Byte} (e1 : devRead s gafferReq .clean addr 32 = (u1, .ok hd))
    (hc : leAt hd 0 4 ≠ magic) : readList s .clean addr magic most = (u1, .error 0x094F) := by
  unfold readList
  rw [e1]
  simp only
  rw [if_pos (.inl hc)]

/-- A list of one entry, for DEV_SCHEDCTL (R579). -/
def listHead (magic : Nat) : List Byte := leBytes 4 magic ++ leBytes 2 1 ++ List.replicate 22 0#8

def listEntry : List Byte := leBytes 4 Reg.devSchedctl ++ [8#8] ++ List.replicate 3 0#8 ++ leBytes 8 5

def listS (magic : Nat) : State := dram 0 (listHead magic ++ leBytes 4 (crc32c (listHead magic ++ listEntry)) ++ listEntry)

theorem list_read {s : State} {addr magic most : Nat} (ha : addr = 0) (hp : plain s = true)
    (hs : sendOk s gafferReq 0 = true ∧ sendOk s gafferReq 32 = true)
    (hc : ∀ hd bs, hd = (List.range 32).map (fun i => plainByte s (0 + i)) → bs = (List.range 16).map (fun i => plainByte s (0 + 32 + i)) →
      leAt hd 4 2 = 1 ∧ ¬(leAt hd 0 4 ≠ magic ∨ 1 = 0 ∨ most < 1 ∨ (!allZero (sliceBytes hd 6 22)) = true) ∧
      ¬(crc32c (hd.take 28 ++ bs) ≠ leAt hd 28 4 ∨ (!entriesOk 1 bs) = true) ∧ (!(parseEntries 1 bs).all (fun e => fritTarget e.off)) = false) :
    ∃ u l, readList s .clean addr magic most = (u, .ok l) := by
  subst ha
  obtain ⟨u1, e1, v1, m1⟩ := plain_read (r := gafferReq) (a := 0) (n := 32) hp (by decide) (by
    rw [show List.range (32 / 128 + 2) = [0, 1] by decide]; simp [hs.1])
  obtain ⟨u2, e2, v2, m2⟩ := plain_read' (r := gafferReq) (a := 0 + 32) (n := 16 * 1) v1 m1 hp (by decide) (by
    rw [show List.range (16 * 1 / 128 + 2) = [0, 1] by decide]; simp [hs.2])
  obtain ⟨h1, h2, h3, h4⟩ := hc _ _ rfl rfl
  exact ⟨u2, _, readList_ok e1 h1 h2 e2 h3 h4⟩

theorem wit_ConfigurationCommands_1 : ∃ (s s1 : State) (who : Ident) (ecc : MemEcc) (l : List CfgEntry), mgmt who = true ∧
    readList s ecc (s.regFld Reg.devBatchaddr 6 42 * 64) 0x4254394A 8192 = (s1, .ok l) := by
  obtain ⟨u, l, e⟩ := list_read (s := listS 0x4254394A) (addr := (listS 0x4254394A).regFld Reg.devBatchaddr 6 42 * 64) (magic := 0x4254394A) (most := 8192)
    (by decide +kernel) (by decide +kernel) (by decide +kernel) (by rintro _ _ rfl rfl; decide +kernel)
  exact ⟨listS 0x4254394A, u, 16, .clean, l, by decide, e⟩

theorem wit_ConfigurationCommands_3 : ∃ (s s1 : State) (who : Ident) (ecc : MemEcc) (l : List CfgEntry), mgmt who = true ∧ s.cfg.switching = none ∧
    readList s ecc (s.regFld Reg.devFritaddr 6 42 * 64) 0x5446394A 254 = (s1, .ok l) := by
  obtain ⟨u, l, e⟩ := list_read (s := listS 0x5446394A) (addr := (listS 0x5446394A).regFld Reg.devFritaddr 6 42 * 64) (magic := 0x5446394A) (most := 254)
    (by decide +kernel) (by decide +kernel) (by decide +kernel) (by rintro _ _ rfl rfl; decide +kernel)
  exact ⟨listS 0x5446394A, u, 16, .clean, l, by decide, by decide +kernel, e⟩

theorem wit_ConfigurationCommands_2 : ∃ (s s1 : State) (who : Ident) (ecc : MemEcc) (code : Nat), mgmt who = true ∧
    readList s ecc (s.regFld Reg.devBatchaddr 6 42 * 64) 0x4254394A 8192 = (s1, .error code) := by
  obtain ⟨u, e, _⟩ := plain_read (s := live) (r := gafferReq) (a := live.regFld Reg.devBatchaddr 6 42 * 64) (n := 32) (by decide +kernel) (by decide +kernel)
    (by decide +kernel)
  exact ⟨live, u, 0, .clean, _, by decide, readList_bad e (by rw [plain_zeros (by decide +kernel), leAt_zeros]; decide)⟩

theorem wit_ConfigurationCommands_4 : ∃ (s s1 : State) (who : Ident) (ecc : MemEcc) (code : Nat), mgmt who = true ∧ s.cfg.switching = none ∧
    readList s ecc (s.regFld Reg.devFritaddr 6 42 * 64) 0x5446394A 254 = (s1, .error code) := by
  obtain ⟨u, e, _⟩ := plain_read (s := live) (r := gafferReq) (a := live.regFld Reg.devFritaddr 6 42 * 64) (n := 32) (by decide +kernel) (by decide +kernel)
    (by decide +kernel)
  exact ⟨live, u, 0, .clean, _, by decide, by decide +kernel, readList_bad e (by rw [plain_zeros (by decide +kernel), leAt_zeros]; decide)⟩







theorem wit_ConfigurationCommands_5 : ∃ (who : Ident), mgmt who = true :=
  ⟨16, by decide +kernel⟩

theorem wit_ConfigurationCommands_7 : ∃ (s : State) (s1 : State) (who : Ident) (scope : BitVec 4) (t : Nat) (bs : List Byte), mgmt who = true ∧ s.cfg.dbgDisFuse = false ∧ s.regFld Reg.devDbgstat 8 2 ≠ 3 ∧ bs = challengeBytes (s.at t) scope.toNat ∧ s1 = (showChallenge (s.at t) bs).setRegBit Reg.devDbgstat 4 true :=
  ⟨State.reset, _, 16, 1#4, 0, _, by decide +kernel, by decide +kernel, by decide +kernel, rfl, rfl⟩

theorem wit_ConfigurationCommands_8a : ∃ (s : State) (who : Ident), (s.cfg.dbgDisFuse = true ∨ s.regFld Reg.devDbgstat 8 2 = 3 ∨ mgmt who = false) :=
  ⟨{ State.reset with cfg := { State.reset.cfg with dbgDisFuse := true } }, 0, by decide +kernel⟩

theorem wit_ConfigurationCommands_8b : ∃ (s : State) (who : Ident), (s.cfg.dbgDisFuse = true ∨ s.regFld Reg.devDbgstat 8 2 = 3 ∨ mgmt who = false) :=
  ⟨withRegs [(Reg.devDbgstat, 3 * 2 ^ 8)], 0, by decide +kernel⟩

theorem wit_ConfigurationCommands_8c : ∃ (s : State) (who : Ident), (s.cfg.dbgDisFuse = true ∨ s.regFld Reg.devDbgstat 8 2 = 3 ∨ mgmt who = false) :=
  ⟨State.reset, 3, by decide +kernel⟩

def configurationCommands_10S : State := { live with cfg := { live.cfg with challenge := some ⟨[], 1, 0⟩ } }

theorem wit_ConfigurationCommands_10 : ∃ (s : State) (s1 : State) (s2 : State) (who : Ident) (addr : BitVec 64) (ecc : MemEcc) (t : Nat) (c : Challenge) (bs : List Byte), mgmt who = true ∧ s.cfg.challenge = some c ∧ devRead (s.at t) lehrAReq ecc (bitsOf addr.toNat 6 42 * 64) 192 = (s1, .ok bs) ∧ s2 = ({ s1 with cfg := { s1.cfg with challenge := none } }).setRegBit Reg.devDbgstat 4 false := by
  obtain ⟨u, e, v, hm⟩ := plain_read (s := (configurationCommands_10S.at 0)) (r := lehrAReq) (a := bitsOf (0#64).toNat 6 42 * 64) (n := 192) (by decide +kernel) (by decide +kernel) (by decide +kernel)
  exact ⟨configurationCommands_10S, u, _, 0, 0#64, .clean, 0, ⟨[], 1, 0⟩, ((List.range (192)).map fun i => plainByte (configurationCommands_10S.at 0) (bitsOf (0#64).toNat 6 42 * 64 + i)), by decide +kernel, rfl, e, rfl⟩

theorem wit_ConfigurationCommands_11 : ∃ (s : State), s.cfg.challenge = none :=
  ⟨State.reset, by decide +kernel⟩

theorem wit_ConfigurationCommands_13 : ∃ (s : State) (who : Ident), mgmt who = true ∧ s.cfg.switching.isSome = true :=
  ⟨{ State.reset with cfg := { State.reset.cfg with switching := some none } }, 16, by decide +kernel⟩

theorem wit_ResetCommands_2 : ∃ (s : State) (b : Block), inPhase s b .idlereq = true :=
  ⟨{ State.reset with rst := { State.reset.rst with blocks := [⟨.core 5, .idlereq, false⟩] } }, .core 5, by decide +kernel⟩

theorem wit_ResetCommands_4 : ∃ (s : State) (b : Block) (x : BlockReset), s.blockPhase b = some x :=
  ⟨{ State.reset with rst := { State.reset.rst with blocks := [⟨.channel 63, .fenced, true⟩] } }, .channel 63, ⟨.channel 63, .fenced, true⟩, by decide +kernel⟩

theorem wit_ResetCommands_5 : ∃ (s : State) (b : Block), inPhase s b .release = true :=
  ⟨{ State.reset with rst := { State.reset.rst with blocks := [⟨.crucible 3, .release, false⟩] } }, .crucible 3, by decide +kernel⟩

theorem wit_ResetCommands_6 : ∃ (s : State) (kind : BitVec 4) (index : BitVec 8) (d : DomainReset), s.rst.domains.find? (fun d => decide (d.kind = kind.toNat) && decide (d.index = index.toNat)) = some d :=
  ⟨{ State.reset with rst := { State.reset.rst with domains := [⟨1, 5, 0, 0, false, false, 0, []⟩] } }, 1#4, 5#8, ⟨1, 5, 0, 0, false, false, 0, []⟩, by decide +kernel⟩

theorem wit_DeviceResetCommands_1a : ∃ (s : State) (d : DomainReset), warmDomain s = some d ∧ s.pins.mainRails = true ∧ d.hold = false ∧ warmReady s d (resetStep s) = true :=
  ⟨{ State.reset with rst := { State.reset.rst with domains := [⟨7, 0, 5, 0, false, false, 0, []⟩] } }, ⟨7, 0, 5, 0, false, false, 0, []⟩, by decide +kernel⟩

theorem wit_DeviceResetCommands_1b : ∃ (s : State) (d : DomainReset), warmDomain s = some d ∧ s.pins.mainRails = true ∧ d.hold = false ∧ warmReady s d (resetStep s) = true :=
  ⟨(let s := State.reset; { s with rst := { s.rst with domains := [⟨7, 0, 5, 0, false, false, 0, []⟩], perstn := true } }).setRegFld Reg.resetStat 3 4 10, ⟨7, 0, 5, 0, false, false, 0, []⟩, by decide +kernel⟩

theorem wit_DeviceResetCommands_2 : ∃ (s : State), s.pins.mainRails = true :=
  ⟨State.reset, by decide +kernel⟩

theorem wit_DeviceResetCommands_6 : ∃ (s : State) (s1 : State) (rate : BitVec 3) (width : BitVec 5) (flit : Bool) (t : Nat) (cap : Nat), cap = rate.toNat + width.toNat * 8 + (if flit then 256 else 0) ∧ s1 = { (s.at t) with rst := { (s.at t).rst with perstn := true, linkCap := cap } } :=
  ⟨State.reset, _, 4#3, 16#5, true, 0, _, rfl, rfl⟩

theorem wit_DeviceResetCommands_9a : ∃ (s : State) (s1 : State) (t : Nat), s.pins.powerGood = false ∧ s1 = { (s.at t) with pins := { (s.at t).pins with mainRails := true, lehrARails := true, lehrBRails := true, powerGood := true } } :=
  ⟨{ State.reset with pins := { State.reset.pins with powerGood := false } }, _, 0, rfl, rfl⟩

theorem wit_DeviceResetCommands_9b : ∃ (s : State) (s1 : State) (t : Nat), s.pins.powerGood = false ∧ s1 = { (s.at t) with pins := { (s.at t).pins with mainRails := true, lehrARails := true, lehrBRails := true, powerGood := true } } :=
  ⟨{ State.reset with pins := { State.reset.pins with powerGood := false, lehrBRails := false } }, _, 0, rfl, rfl⟩

theorem wit_DeviceResetCommands_11 : ∃ (s : State), s.rst.reader = .select ∧ s.rst.retryPause = true :=
  ⟨{ State.reset with rst := { State.reset.rst with reader := .select, retryPause := true } }, by decide +kernel⟩

theorem wit_DeviceResetCommands_12 : ∃ (s : State) (s1 : State) (core : Fin 96) (column : Fin 132) (residue : Bool) (b : List Byte), s1 = (if residue then columnFound s core.val column.val else s) ∧ usedBlock s1 = some b ∧ leAt b 16 1 % 2 = 1 ∧ s1.rst.reader = .done :=
  ⟨{ State.reset with rst := { State.reset.rst with reader := .done, blockA := some (List.replicate 64 1#8) } }, _, 5, 131, false, List.replicate 64 1#8, rfl, by decide +kernel, by decide +kernel, by decide +kernel⟩

theorem wit_NewerCounter_2 : ∃ (a : BitVec 32) (b : BitVec 32), (b - a).toNat = 2 ^ 31 :=
  ⟨5#32, 0x80000005#32, by decide +kernel⟩

theorem wit_FramePeriodAndNumberWrites_1a : ∃ (s : State) (who : Ident) (v : BitVec 32), mgmt who = true ∧ locked s Reg.devFrmper = false ∧ 10000000 ≤ v.toNat ∧ v.toNat ≤ 100000000 :=
  ⟨State.reset, 16, 10000000#32, by decide +kernel⟩

theorem wit_FramePeriodAndNumberWrites_1b : ∃ (s : State) (who : Ident) (v : BitVec 32), mgmt who = true ∧ locked s Reg.devFrmper = false ∧ 10000000 ≤ v.toNat ∧ v.toNat ≤ 100000000 :=
  ⟨withRegs [(Reg.devFrmctl, 1)], 0, 100000000#32, by decide +kernel⟩

theorem wit_FramePeriodAndNumberWrites_2a : ∃ (s : State) (who : Ident) (v : BitVec 32), mgmt who = true ∧ locked s Reg.devFrmper = false ∧ (v.toNat < 10000000 ∨ 100000000 < v.toNat) :=
  ⟨State.reset, 16, 9999999#32, by decide +kernel⟩

theorem wit_FramePeriodAndNumberWrites_2b : ∃ (s : State) (who : Ident) (v : BitVec 32), mgmt who = true ∧ locked s Reg.devFrmper = false ∧ (v.toNat < 10000000 ∨ 100000000 < v.toNat) :=
  ⟨State.reset, 0, 100000001#32, by decide +kernel⟩

theorem wit_FramePeriodAndNumberWrites_3a : ∃ (s : State) (who : Ident), mgmt who = true ∧ (s.regBit Reg.devFrmctl 0 = true ∨ s.frame.nextBoundary ≠ none) :=
  ⟨withRegs [(Reg.devFrmctl, 1)], 0, by decide +kernel⟩

theorem wit_FramePeriodAndNumberWrites_3b : ∃ (s : State) (who : Ident), mgmt who = true ∧ (s.regBit Reg.devFrmctl 0 = true ∨ s.frame.nextBoundary ≠ none) :=
  ⟨{ State.reset with frame := { State.reset.frame with nextBoundary := some 9 } }, 0, by decide +kernel⟩

theorem wit_MapIsOneToOne_1 : ∃ (a : Word) (m : Word) (x : Nat) (y : Nat), m ≠ 0#64 ∧ rangeHolds a x = true ∧ rangeHolds a y = true ∧ rangeMap a m x = rangeMap a m y :=
  ⟨regReset (Reg.devMemmapa 0), regReset (Reg.devMemmapm 0), 4096, 4096, by decide +kernel⟩

theorem wit_MapIsOneToOne_2 : ∃ (a : Word) (m : Word) (x : Nat), m ≠ 0#64 ∧ rangeHolds a x = true :=
  ⟨regReset (Reg.devMemmapa 0), regReset (Reg.devMemmapm 0), 32768 * 2 ^ 22 - 1, by decide +kernel⟩

theorem wit_DramLineWrites_1 : ∃ (s : State) (a : Nat) (p : Nat × Nat) (bs : List Byte), mapAddr s a = some p ∧ (s.chSt p.1 = 2 ∨ s.chSt p.1 = 6) ∧ bs.length = 128 ∧ p.2 % 128 = 0 :=
  ⟨live, 0, (0, 0), List.replicate 128 1#8, by decide +kernel⟩

theorem wit_DramLineWrites_2 : ∃ (s : State) (a : Nat) (p : Nat × Nat), mapAddr s a = some p ∧ (s.chSt p.1 = 3 ∨ s.chSt p.1 = 4) :=
  ⟨live.setRegFld (chstat 0) 0 3 3, 0, (0, 0), by decide +kernel⟩

theorem wit_DramLineWrites_3 : ∃ (s : State) (a : Nat) (p : Nat × Nat), mapAddr s a = some p ∧ (s.chSt p.1 = 5 ∨ s.chSt p.1 = 0 ∨ s.chSt p.1 = 1) :=
  ⟨State.reset, 0, (0, 0), by decide +kernel⟩

theorem wit_RequestsTurnedAway_1 : ∃ (s : State) (r : Req) (a : Nat) (k : Nat), addrKind a = .unmapped ∧ k = ingressOf s r.node (homeOf s a) :=
  ⟨State.reset, coreReq State.reset 95, 0x2000000000, 3, by decide +kernel⟩

theorem wit_RequestsTurnedAway_2 : ∃ (s : State) (r : Req) (a : Nat) (k : Nat), addrKind a = .dram ∧ r.ident < 18 ∧ k = ingressOf s r.node (homeOf s a) ∧ regionFor s k a = none :=
  ⟨State.reset, hostReq 3 0 none, 0x1FFFFFFFFF, _, by decide +kernel, by decide +kernel, rfl, by decide +kernel⟩

theorem wit_RequestsTurnedAway_3 : ∃ (s : State) (r : Req) (a : Nat), addrKind a = .dram ∧ mapAddr s a = none ∧ 18 ≤ r.ident :=
  ⟨{ live with mem := { live.mem with mapA := (List.range 16).map (fun n => (n, 0#64)) } }, lehrAReq, 0, by decide +kernel⟩

theorem wit_SyncCounterSignals_1 : ∃ (s : State) (c : Fin 96) (n : Fin 1920) (amt : Nat), s.syncVal c.val n.val + amt < 2 ^ 32 :=
  ⟨State.reset, 95, 1919, 2 ^ 32 - 1, by decide +kernel⟩

theorem wit_SyncCounterSignals_2 : ∃ (s : State) (c : Fin 96) (n : Fin 1920) (f : InFlight), f.sctr.toNat = n.val ∧ 2 ^ 32 ≤ s.syncVal c.val n.val + f.samt ∧ s.coreSt c.val ≠ .quarantine :=
  ⟨coreIn .run, 5, 1919, ⟨0, 0, 0, 0, none, 1919, 2 ^ 32, 0, true, 0⟩, by decide +kernel⟩

theorem wit_SyncCounterSignals_3 : ∃ (s : State) (c : Fin 96) (n : Fin 1920) (amt : Nat), amt ≤ s.syncVal c.val n.val :=
  ⟨(State.reset).setRegFld (Reg.coreSync 5 0) 0 32 7, 5, 0, 7, by decide +kernel⟩

theorem wit_SyncCounterSignals_4 : ∃ (s : State) (c : Fin 96) (n : Fin 2048), recorded s c.val n.val = true :=
  ⟨State.reset, 5, 2047, by decide +kernel⟩

theorem wit_CarriedCommit_1 : ∃ (s : State) (c : Nat) (owner : Nat) (r : PendRec), (s.core c).records.find? (fun r => decide (r.owner = owner)) = some r :=
  ⟨State.reset.setCore 5 { Core.reset with records := [⟨9, [(0, 2)], [(0, 3)]⟩] }, 5, 9, ⟨9, [(0, 2)], [(0, 3)]⟩, by decide +kernel⟩

theorem wit_CarriedCommit_2 : ∃ (s : State) (c : Nat) (owner : Nat) (r : PendRec), (s.core c).records.find? (fun r => decide (r.owner = owner)) = some r :=
  ⟨State.reset.setCore 95 { Core.reset with records := [⟨9, [(0, 2)], [(0, 3)]⟩] }, 95, 9, ⟨9, [(0, 2)], [(0, 3)]⟩, by decide +kernel⟩

theorem wit_CarriedCommit_3 : ∃ (s : State) (c : Nat) (owner : Nat), (∀ r ∈ (s.core c).records, r.owner ≠ owner) :=
  ⟨State.reset, 5, 9, by decide +kernel⟩

theorem wit_ManagementOnly_1 : ∃ (c : Instr) (who : Ident) (s : State) (t : State), managedBy c = some who ∧ mgmt who = false ∧ exec c s = .next t :=
  ⟨.frameTimerDisable 3, 3, State.reset, _, rfl, rfl, rfl⟩

theorem wit_ManagementOnly_2 : ∃ (c : Instr) (who : Ident) (s : State) (t : State), firmwareOnly c = some who ∧ who.val ≠ 16 ∧ exec c s = .next t :=
  ⟨.gafhbWrite 3 0, 3, State.reset, _, rfl, by decide +kernel, rfl⟩

theorem wit_OwnRingsOnly_1a : ∃ (s : State) (fn : Fin 16) (ring : Fin 256) (aligned : Bool), hostDieDown s = false ∧ (fn.val ≠ ringOwner s ring.val ∨ aligned = false) :=
  ⟨State.reset, 3, 255, true, by decide +kernel⟩

theorem wit_OwnRingsOnly_1b : ∃ (s : State) (fn : Fin 16) (ring : Fin 256) (aligned : Bool), hostDieDown s = false ∧ (fn.val ≠ ringOwner s ring.val ∨ aligned = false) :=
  ⟨State.reset, 0, 0, false, by decide +kernel⟩

theorem wit_BudgetAdmission_2 : ∃ (s : State) (who : Ident) (k : Fin 4) (m : Fin 21) (v : BitVec 64), mgmt who = true ∧ admitted (minSum (s.setReg (Reg.devRegbud k.val m.val) (setFld (setFld 0#64 0 20 (budField v)) 32 20 (minField v))) k.val) (s.regcap k.val) = false :=
  ⟨State.reset, 16, 3, 20, BitVec.ofNat 64 (0xFFFFF * 2 ^ 32), by decide +kernel⟩

theorem wit_BudgetAdmission_3a : ∃ (s : State) (who : Ident) (v : BitVec 32), mgmt who = true ∧ (bitsOf v.toNat 0 7 = 0 ∨ 64 < bitsOf v.toNat 0 7 ∨ (∃ k : Fin 4, admitted (minSum s k.val) (capFormula (bitsOf v.toNat 0 7) s.mem.refForce (liveChannels s k.val)) = false)) :=
  ⟨State.reset, 0, 0#32, by decide +kernel, .inl (by decide)⟩

theorem wit_BudgetAdmission_3b : ∃ (s : State) (who : Ident) (v : BitVec 32), mgmt who = true ∧ (bitsOf v.toNat 0 7 = 0 ∨ 64 < bitsOf v.toNat 0 7 ∨ (∃ k : Fin 4, admitted (minSum s k.val) (capFormula (bitsOf v.toNat 0 7) s.mem.refForce (liveChannels s k.val)) = false)) :=
  ⟨State.reset, 0, 65#32, by decide +kernel, .inr (.inl (by decide))⟩

theorem wit_StepTakesTheFront_2 : ∃ (s : State), s.pending = [] :=
  ⟨State.reset, by decide +kernel⟩

theorem wit_StepKeepsTheInvariant_1 : ∃ (s : State) (t : State), Inv s ∧ step s = .next t :=
  ⟨State.reset, State.reset, ⟨rfl, rfl, logs_reset, rfl⟩, rfl⟩

theorem wit_EveryCommandAnswers_1 : ∃ (s : State), RegsWf s ∧ Memory.wf s.mem ∧ LogsWf s :=
  ⟨State.reset, rfl, rfl, logs_reset⟩

theorem wit_EveryCommandAnswers_2 : ∃ (s : State), RegsWf s ∧ Memory.wf s.mem ∧ LogsWf s :=
  ⟨State.reset, rfl, rfl, logs_reset⟩

theorem wit_WhatLeftTheDeviceStays_1 : ∃ (n : Nat) (s : State) (t : State), RegsWf s ∧ Memory.wf s.mem ∧ LogsWf s ∧ stepsTo n s = some t :=
  ⟨3, State.reset, State.reset, rfl, rfl, logs_reset, rfl⟩

theorem wit_FusesNeverCleared_1 : ∃ (n : Nat) (s : State) (t : State), RegsWf s ∧ Memory.wf s.mem ∧ LogsWf s ∧ stepsTo n s = some t :=
  ⟨3, State.reset, State.reset, rfl, rfl, logs_reset, rfl⟩

theorem wit_CulletCommands_5 : ∃ (s : State) (s1 : State) (k : Fin 4) (page : BitVec 20) (p : Poison), sget PageSt.free (s.cull k.val).pages page.toNat = .scrub ∧ mapHolds s = false ∧ scrubPage s k.val page.toNat = (s1, some p) :=
  ⟨scrubP, (scrubPage scrubP 2 0xFFFFF).1, 2, 0xFFFFF#20, .fenced, by decide +kernel, by decide +kernel, pair_of (by decide +kernel)⟩

theorem wit_CulletCommands_6 : ∃ (s : State) (k : Fin 4) (page : BitVec 20), sget PageSt.free (s.cull k.val).pages page.toNat ≠ .scrub :=
  ⟨State.reset, 3, 0xFFFFF#20, by decide +kernel⟩

theorem wit_CulletCommands_14 : ∃ (s : State) (who : Ident) (k : Fin 4) (cfg : Bool) (v : BitVec 64) (p : Nat), mgmt who = true ∧ locked s (if cfg then Reg.culletPoolcfg k.val else Reg.culletPoolbase k.val) = false ∧ (∀ i, i < 256 → seqLive s k.val i = false) ∧ (if cfg then poolOk (s.reg (Reg.culletPoolbase k.val)).toNat (poolFields cfg v.toNat).toNat else poolOk (poolFields cfg v.toNat).toNat (s.reg (Reg.culletPoolcfg k.val)).toNat) = true ∧ unscrubbed s k.val = [p] :=
  ⟨scrubS, 16, 2, true, 0#64, 0xFFFFF, by decide +kernel⟩

theorem wit_CulletCommands_15 : ∃ (s : State) (who : Ident) (k : Fin 4), who.val = 16 ∧ opBusy s k.val = true :=
  ⟨{ State.reset with cullet := [(3, { Cullet.empty with busyUntil := 1 })] }, 16, 3, by decide +kernel⟩

theorem wit_DebugCommands_9 : ∃ (s : State) (c : Fin 96), windowServes s .debugPort c.val false = true :=
  ⟨coreIn .idle (withRegs [(Reg.devDbgstat, 2)]), 5, by decide +kernel⟩



theorem wit_SensorPortsComplete_1 : ∃ (s : State) (port : Fin 16), s.regBit (Reg.marverCamcfg port.val) 0 = true ∧ 1 ≤ s.regFld (Reg.marverCamcfg port.val) 1 3 ∧ s.regFld (Reg.marverCamcfg port.val) 1 3 ≤ 5 ∧ s.regFld (Reg.marverCamst port.val) 0 2 ≠ 2 ∧ (sget (0, 0) s.marver.cams port.val).2 < 3 :=
  ⟨withRegs [(Reg.marverCamcfg 15, 11)], 15, by decide +kernel⟩

theorem wit_SensorPortsComplete_2 : ∃ (s : State) (port : Fin 16) (vc : Fin 32) (dt : BitVec 6) (is : List Nat) (img : List Nat), s.regBit (Reg.marverCamcfg port.val) 0 = true ∧ s.regFld (Reg.marverCamst port.val) 0 2 = 2 ∧ is = cameraStreams s port.val vc.val ∧ img = is.filter (fun i => decide (streamPayload s i = 0)) ∧ dt = 0#6 :=
  ⟨withRegs [(Reg.marverCamcfg 15, 1), (Reg.marverCamst 15, 2)], 15, 31, 0#6, _, _, by decide +kernel, by decide +kernel, rfl, rfl, rfl⟩

theorem wit_SensorPortsComplete_3 : ∃ (s : State) (port : Fin 16) (vc : Fin 32) (dt : BitVec 6) (is : List Nat) (img : List Nat), s.regBit (Reg.marverCamcfg port.val) 0 = true ∧ s.regFld (Reg.marverCamst port.val) 0 2 = 2 ∧ is = cameraStreams s port.val vc.val ∧ img = is.filter (fun i => decide (streamPayload s i = 0)) ∧ dt = 1#6 :=
  ⟨withRegs [(Reg.marverCamcfg 0, 1), (Reg.marverCamst 0, 2)], 0, 0, 1#6, _, _, by decide +kernel, by decide +kernel, rfl, rfl, rfl⟩

theorem wit_SensorPortsComplete_4 : ∃ (s : State) (port : Fin 16) (vc : Fin 32) (dt : BitVec 6) (data : List Byte) (t : Nat) (is : List Nat) (img : List Nat) (b : Nat), s.regBit (Reg.marverCamcfg port.val) 0 = true ∧ s.regFld (Reg.marverCamst port.val) 0 2 = 2 ∧ is = cameraStreams s port.val vc.val ∧ img = is.filter (fun i => decide (streamPayload s i = 0)) ∧ 4 ≤ dt.toNat ∧ csiBits dt.toNat = some b ∧ tooLarge (s.at t) img dt.toNat b data = false :=
  ⟨withRegs [(Reg.marverCamcfg 15, 1), (Reg.marverCamst 15, 2)], 15, 31, 0x1E#6, [], 0, _, _, 16, by decide +kernel, by decide +kernel, rfl, rfl, by decide +kernel, by decide +kernel, by decide +kernel⟩

theorem wit_SensorPortsComplete_5 : ∃ (s : State) (port : Fin 8) (frame : List Byte) (i : Nat), s.regFld (Reg.marverEthst port.val) 0 2 = 2 ∧ 60 ≤ frame.length ∧ frame.length ≤ 9212 ∧ (ethInfo frame).etype ≠ 0x8808 ∧ (ethInfo frame).etype ≠ 0x88F7 ∧ (List.range 64).find? (ethMatches s port.val (ethInfo frame)) = some i :=
  ⟨withRegs [(Reg.marverEthst 7, 2), (Reg.marverScfg 63, 5 + 7 * 8), (Reg.marverSmatch 63, 0xFFF * 2 ^ 16 + 0x88B5 * 2 ^ 28)], 7, List.replicate 12 0#8 ++ [0x88#8, 0xB5#8] ++ List.replicate 46 0#8, 63, by decide +kernel⟩

def injS : State := withRegs [(Reg.marverScfg 63, 7), (Reg.marverSslot 63, 2 ^ 32)] (dram 0 injBytes)

theorem wit_SensorPortsComplete_6 : ∃ (s : State) (s1 : State) (s2 : State) (stream : Fin 64) (ecc : MemEcc) (t : Nat) (e : List Byte) (bs : List Byte), streamOn s stream.val = true ∧ streamKind s stream.val = 3 ∧ s.regFld (Reg.marverSslot stream.val) 32 32 ≠ s.regFld (Reg.marverInjrd stream.val) 0 32 ∧ devRead (s.at t) marverReq ecc (s.regFld (Reg.marverSmatch stream.val) 6 42 * 64 + s.regFld (Reg.marverInjrd stream.val) 0 32 % 2 ^ s.regFld (Reg.marverSmatch stream.val) 48 4 * 32) 32 = (s1, .ok e) ∧ leAt e 28 4 = crc32c (e.take 28) ∧ (leAt e 20 1 = 1 ∨ leAt e 20 1 = 2) ∧ 1 ≤ leAt e 16 4 ∧ leAt e 16 4 ≤ 16777216 ∧ leAt e 0 8 ≤ max s.now t ∧ devRead s1 marverReq .clean (leAt e 8 8) (leAt e 16 4) = (s2, .ok bs) := by
  have hp : plain (injS.at 5) = true := by decide +kernel
  obtain ⟨u1, e1, v1, m1⟩ := plain_read (r := marverReq) (a := 0) (n := 32) hp (by decide) (by decide +kernel)
  obtain ⟨u2, e2, _⟩ := plain_read' (r := marverReq) (a := 0) (n := 1) v1 m1 hp (by decide) (by decide +kernel)
  have ha : injS.regFld (Reg.marverSmatch (63 : Fin 64).val) 6 42 * 64 + injS.regFld (Reg.marverInjrd (63 : Fin 64).val) 0 32 %
      2 ^ injS.regFld (Reg.marverSmatch (63 : Fin 64).val) 48 4 * 32 = 0 := by decide +kernel
  have hb : leAt ((List.range 32).map fun i => plainByte (injS.at 5) (0 + i)) 8 8 = 0 ∧
      leAt ((List.range 32).map fun i => plainByte (injS.at 5) (0 + i)) 16 4 = 1 := by decide +kernel
  exact ⟨injS, u1, u2, 63, .clean, 5, (List.range 32).map fun i => plainByte (injS.at 5) (0 + i), _, by decide +kernel, by decide +kernel,
    by decide +kernel, by rw [ha]; exact e1, by decide +kernel, by decide +kernel, by decide +kernel, by decide +kernel, by decide +kernel, by rw [hb.1, hb.2]; exact e2⟩

theorem wit_SensorPortsComplete_7a : ∃ (s : State) (stream : Fin 64) (v : BitVec 32), countDiff v.toNat (s.regFld (Reg.marverInjrd stream.val) 0 32) ≤ 2 ^ s.regFld (Reg.marverSmatch stream.val) 48 4 ∧ newer32 (s.regFld (Reg.marverSslot stream.val) 32 32) v.toNat = false :=
  ⟨State.reset, 63, 1#32, by decide +kernel⟩

theorem wit_SensorPortsComplete_7b : ∃ (s : State) (stream : Fin 64) (v : BitVec 32), countDiff v.toNat (s.regFld (Reg.marverInjrd stream.val) 0 32) ≤ 2 ^ s.regFld (Reg.marverSmatch stream.val) 48 4 ∧ newer32 (s.regFld (Reg.marverSslot stream.val) 32 32) v.toNat = false :=
  ⟨withRegs [(Reg.marverScfg 0, 7), (Reg.marverSmatch 0, 15 * 2 ^ 48)], 0, 32768#32, by decide +kernel⟩

theorem wit_SensorPortsComplete_8 : ∃ (s : State) (v : BitVec 32), newer32 v.toNat (s.regFld Reg.marverPosewr 0 32) = false :=
  ⟨State.reset, 0#32, by decide +kernel⟩

theorem wit_StreamTimeCompletes_1 : ∃ (s : State) (stream : Fin 64), streamKind s stream.val ≠ 0 ∧ streamOn s stream.val = false :=
  ⟨withRegs [(Reg.marverScfg 63, 2)], 63, by decide +kernel⟩

theorem wit_StreamTimeCompletes_3 : ∃ (s : State) (stream : Fin 64) (t : Nat), srcMode s stream.val ≠ 0 ∧ servoSt s stream.val = 2 ∧ (s.mstream stream.val).servo.accTime + s.regFld (Reg.marverShold stream.val) 0 32 ≤ max s.now t :=
  ⟨withRegs [(Reg.marverScfg 63, 2 ^ 9), (Reg.marverSstat 63, 2)], 63, 2 ^ 32, by decide +kernel⟩

theorem wit_StreamTimeCompletes_4 : ∃ (s : State) (stream : Fin 64) (t : Nat), servoSt s stream.val = 3 ∧ (s.mstream stream.val).servo.accTime + s.regFld (Reg.marverShold stream.val) 32 32 ≤ max s.now t :=
  ⟨withRegs [(Reg.marverSstat 63, 3)], 63, 2 ^ 32, by decide +kernel⟩

theorem wit_StreamTimeCompletes_5 : ∃ (s : State) (domain : BitVec 7), gptpTakes s domain.toNat = true ∧ gpState s ≠ 0 :=
  ⟨withRegs [(Reg.marverGpctl, 1), (Reg.marverGpstat, 1)], 0#7, by decide +kernel⟩

theorem wit_StreamTimeCompletes_6 : ∃ (s : State) (domain : BitVec 7) (sq : BitVec 16) (tin : Nat) (c : Int), gptpTakes s domain.toNat = true ∧ gpState s ≠ 0 ∧ s.marver.gp.sync = some (sq.toNat, tin, c) :=
  ⟨withGp { gp0 with sync := some (5, 7, 0) } (withRegs [(Reg.marverGpctl, 1), (Reg.marverGpstat, 1)]), 0#7, 5#16, 7, 0, by decide +kernel⟩

theorem wit_StreamTimeCompletes_7 : ∃ (s : State) (domain : BitVec 7) (gm : BitVec 64), gptpTakes s domain.toNat = true ∧ gpState s ≠ 0 ∧ s.reg Reg.marverGpgm ≠ gm ∧ s.reg Reg.marverGpgm ≠ 0#64 :=
  ⟨withRegs [(Reg.marverGpctl, 1), (Reg.marverGpstat, 1), (Reg.marverGpgm, 5)], 0#7, 9#64, by decide +kernel⟩

theorem wit_StreamTimeCompletes_8 : ∃ (s : State) (t : Nat), s.regBit Reg.marverGpctl 0 = true ∧ pdelayDue (s.at t) = true :=
  ⟨withRegs [(Reg.marverGpctl, 1)], 0, by decide +kernel⟩

theorem wit_StreamTimeCompletes_9 : ∃ (s : State) (sq : BitVec 16) (t1 : Nat), s.regBit Reg.marverGpctl 0 = true ∧ s.marver.gp.pdelay = some (sq.toNat, t1) :=
  ⟨withGp { gp0 with pdelay := some (5, 100) } (withRegs [(Reg.marverGpctl, 1)]), 5#16, 100, by decide +kernel⟩

theorem wit_StreamTimeCompletes_10 : ∃ (s : State) (t : Nat), gpState s = 2 ∧ s.marver.gp.sampleAt + 3 * syncInterval s ≤ max s.now t :=
  ⟨withRegs [(Reg.marverGpstat, 2)], 2 ^ 40, by decide +kernel⟩

theorem wit_StreamTimeCompletes_11 : ∃ (s : State) (t : Nat), gpState s = 3 ∧ s.marver.gp.holdAt + 10000000000 ≤ max s.now t :=
  ⟨withRegs [(Reg.marverGpstat, 3)], 10000000000, by decide +kernel⟩

theorem wit_StreamTimeCompletes_12a : ∃ (s : State) (add : Bool) (t : Nat), s.regBit Reg.marverGpctl 11 = true ∧ s.marver.gp.adjusted + 20000 ≤ max s.now t ∧ adjustDue (settleSteer s.marver.gp (max s.now t)) add = true :=
  ⟨withGp { gp0 with phase := 2 ^ 40 } (withRegs [(Reg.marverGpctl, 2 ^ 11)]), true, 20000, by decide +kernel⟩

theorem wit_StreamTimeCompletes_12b : ∃ (s : State) (add : Bool) (t : Nat), s.regBit Reg.marverGpctl 11 = true ∧ s.marver.gp.adjusted + 20000 ≤ max s.now t ∧ adjustDue (settleSteer s.marver.gp (max s.now t)) add = true :=
  ⟨withGp { gp0 with phase := -(2 ^ 40) } (withRegs [(Reg.marverGpctl, 2 ^ 11)]), false, 20000, by decide +kernel⟩

theorem wit_StreamTimeCompletes_15 : ∃ (s : State), s.regFld Reg.marverCnfcfg 16 8 ≤ s.marver.plPeriods ∧ s.marver.plPeriods ≠ 0 :=
  ⟨{ State.reset with marver := { State.reset.marver with plPeriods := 255 } }, by decide +kernel⟩

theorem wit_PeriodWorkCompletes_1 : ∃ (s : State) (frame : BitVec 32) (p : MPeriod), s.mperiod frame.toNat = some p ∧ p.closed = false :=
  ⟨inPeriod (periodIn 1), 0#32, periodIn 1, by decide +kernel⟩

theorem wit_PeriodWorkCompletes_2 : ∃ (s : State) (t : Nat) (e : Nat) (p : MPeriod) (rest : List MPeriod), s.marver.periods = p :: rest ∧ p.closed = false ∧ p.ref = some e ∧ e + s.regFld Reg.marverTsctl 0 24 ≤ max s.now t :=
  ⟨inPeriod { periodIn 1 with ref := some 0 }, 2 ^ 24, 0, { periodIn 1 with ref := some 0 }, [], by decide +kernel⟩

theorem wit_PeriodWorkCompletes_6 : ∃ (s : State) (frame : BitVec 32) (nent : BitVec 20) (p : MPeriod), s.mperiod frame.toNat = some p ∧ p.closed = true ∧ p.gridDone = false ∧ nent ≠ 0#20 :=
  ⟨inPeriod { periodIn 1 with closed := true }, 0#32, 0xFFFFF#20, { periodIn 1 with closed := true }, by decide +kernel⟩

theorem wit_PeriodWorkCompletes_7 : ∃ (s : State) (frame : BitVec 32) (ndet : BitVec 13) (p : MPeriod), s.mperiod frame.toNat = some p ∧ p.mode = 1 ∧ p.mainStarted = false ∧ ndet.toNat ≤ 4096 :=
  ⟨inPeriod (periodIn 1), 0#32, 4096#13, periodIn 1, by decide +kernel⟩

theorem wit_PeriodWorkCompletes_8 : ∃ (s : State) (s1 : State) (ecc : MemEcc) (t : Nat) (n : Nat) (e : Nat) (p : MPeriod) (q : MPeriod) (rest : List MPeriod) (ns : List Nat), s.marver.periods = p :: rest ∧ p.gridDone = false ∧ p.projected = some e ∧ p.scatters = n :: ns ∧ s1 = mapPeriod ((List.range n).foldl (scatterEntry ecc p.frame) (s.at t)) p.frame (fun p => { p with scatters := p.scatters.tail }) ∧ s1.mperiod p.frame = some q :=
  ⟨inPeriod { periodIn 1 with projected := some 0, scatters := [0] }, _, .clean, 0, 0, 0, { periodIn 1 with projected := some 0, scatters := [0] }, { periodIn 1 with projected := some 0 }, [], [], by decide +kernel, by decide +kernel, by decide +kernel, by decide +kernel, rfl, rfl⟩

theorem wit_PeriodWorkCompletes_9 : ∃ (s : State) (t : Nat) (e : Nat) (p : MPeriod) (rest : List MPeriod), s.marver.periods = p :: rest ∧ p.gridDone = false ∧ p.projected = some e ∧ e + s.regFld Reg.marverDline 32 32 ≤ max s.now t :=
  ⟨inPeriod { periodIn 1 with projected := some 0 }, 2 ^ 32, 0, { periodIn 1 with projected := some 0 }, [], by decide +kernel⟩

theorem wit_PeriodWorkCompletes_10 : ∃ (s : State) (e : Nat) (p : MPeriod) (rest : List MPeriod) (n : Nat), s.marver.periods = p :: rest ∧ p.projected = some e ∧ p.mode = 1 ∧ p.mainStarted = false ∧ p.ndet = some n :=
  ⟨inPeriod { periodIn 1 with projected := some 0, ndet := some 3 }, 0, { periodIn 1 with projected := some 0, ndet := some 3 }, [], 3, by decide +kernel⟩

theorem wit_PeriodWorkCompletes_11 : ∃ (s : State) (t : Nat) (e : Nat) (p : MPeriod) (rest : List MPeriod), s.marver.periods = p :: rest ∧ p.projected = some e ∧ p.mode = 1 ∧ p.mainStarted = false ∧ p.ndet = none ∧ e + s.regFld Reg.marverDline 0 32 ≤ max s.now t :=
  ⟨inPeriod { periodIn 1 with projected := some 0 }, 2 ^ 32, 0, { periodIn 1 with projected := some 0 }, [], by decide +kernel⟩

theorem wit_BlowpipePortsComplete_1 : ∃ (who : Ident), mgmt who = true :=
  ⟨16, by decide +kernel⟩

theorem wit_BlowpipePortsComplete_2 : ∃ (s : State) (port : Fin 6) (nbr : BitVec 6), portSt s port.val = 1 ∧ expected s port.val = some nbr.toNat :=
  ⟨withRegs [(Reg.blowpipePstat 5, 1), (Reg.blowpipeTopo, 2)], 5, 1#6, by decide +kernel⟩

theorem wit_BlowpipePortsComplete_3 : ∃ (s : State) (port : Fin 6) (t : Nat), portSt s port.val = 1 ∧ sget 0 s.fab.since (200 + port.val) + 100000000 ≤ max s.now t :=
  ⟨withRegs [(Reg.blowpipePstat 5, 1)], 5, 100000000, by decide +kernel⟩

theorem wit_BlowpipePortsComplete_4 : ∃ (s : State) (port : Fin 6), portWeight s port.val ≠ 0 :=
  ⟨withRegs [(Reg.blowpipePstat 5, 2)], 5, by decide +kernel⟩

theorem wit_BlowpipePortsComplete_5 : ∃ (s : State) (port : Fin 6) (t : Nat), portWeight s port.val ≠ 0 ∧ (s.bpPort port.val).unacked ≠ [] ∧ (s.bpPort port.val).wait + 4000 ≤ max s.now t :=
  ⟨{ (withRegs [(Reg.blowpipePstat 0, 3)]) with blow := { State.reset.blow with ports := [(0, ⟨1, [(0, ⟨0, 4, 0, 1, 0, 1, 0, 0, none, none⟩)], 0, [], 0⟩)] } }, 0, 4000, by decide +kernel⟩

theorem wit_BlowpipePortsComplete_6 : ∃ (s : State) (port : Fin 6) (fseq : BitVec 16) (ackseq : BitVec 16) (t : Nat) (x : BpPort) (y : BpPort), portWeight s port.val ≠ 0 ∧ x = s.bpPort port.val ∧ y = ackFlits x ackseq.toNat (max s.now t) ∧ fseq.toNat = x.expect :=
  ⟨withRegs [(Reg.blowpipePstat 5, 2)], 5, 0#16, 1#16, 0, _, _, by decide +kernel, rfl, rfl, by decide +kernel⟩

theorem wit_BlowpipePortsComplete_7 : ∃ (s : State) (who : Ident) (chan : Fin 32), mgmt who = true ∧ s.regBit (Reg.blowpipeFwda chan.val) 0 = false :=
  ⟨State.reset, 0, 31, by decide +kernel⟩

theorem wit_BlowpipePortsComplete_8 : ∃ (s : State) (who : Ident) (chan : Fin 32), mgmt who = true ∧ s.regBit (Reg.blowpipeIna chan.val) 0 = false :=
  ⟨State.reset, 16, 31, by decide +kernel⟩

theorem wit_GenerationsComplete_1 : ∃ (s : State) (chan : Fin 32) (d : BpOut), s.blow.out.find? (fun d => decide (d.chan = chan.val) && d.begun.isNone) = some d :=
  ⟨{ State.reset with blow := { State.reset.blow with out := [⟨31, 1, 0, [], none, false, none, 0, 0⟩] } }, 31, ⟨31, 1, 0, [], none, false, none, 0, 0⟩, by decide +kernel⟩

theorem wit_GenerationsComplete_2 : ∃ (s : State) (chan : Fin 32) (d : BpOut), s.blow.out.find? (fun d => decide (d.chan = chan.val) && d.held) = some d :=
  ⟨{ State.reset with blow := { State.reset.blow with out := [⟨31, 1, 0, [], some 0, true, none, 0, 0⟩] } }, 31, ⟨31, 1, 0, [], some 0, true, none, 0, 0⟩, by decide +kernel⟩

theorem wit_GenerationsComplete_3 : ∃ (s : State) (src : Fin 64) (chan : Fin 32) (gen : BitVec 32) (d : BpOut), answered s src.val chan.val gen.toNat = some d :=
  ⟨{ State.reset with blow := { State.reset.blow with out := [⟨31, 1, 0, [], some 0, false, none, 0, 0⟩] } }, 0, 0, 1#32, ⟨31, 1, 0, [], some 0, false, none, 0, 0⟩, by decide +kernel⟩

theorem wit_GenerationsComplete_4 : ∃ (s : State) (src : Fin 64) (chan : Fin 32) (gen : BitVec 32) (code : BitVec 16) (d : BpOut), answered s src.val chan.val gen.toNat = some d ∧ code ≠ 0x0545#16 :=
  ⟨{ State.reset with blow := { State.reset.blow with out := [⟨31, 1, 0, [], some 0, false, none, 0, 0⟩] } }, 0, 0, 1#32, 0#16, ⟨31, 1, 0, [], some 0, false, none, 0, 0⟩, by decide +kernel⟩

theorem wit_GenerationsComplete_5 : ∃ (s : State) (src : Fin 64) (chan : Fin 32) (gen : BitVec 32) (d : BpOut), answered s src.val chan.val gen.toNat = some d :=
  ⟨{ State.reset with blow := { State.reset.blow with out := [⟨31, 1, 0, [], some 0, false, none, 0, 0⟩] } }, 0, 0, 1#32, ⟨31, 1, 0, [], some 0, false, none, 0, 0⟩, by decide +kernel⟩

theorem wit_GenerationsComplete_6 : ∃ (s : State) (chan : Fin 32) (t : Nat) (e : Nat) (d : BpOut) (rest : List BpOut), s.blow.out = d :: rest ∧ d.chan = chan.val ∧ d.ended = some e ∧ e + fwdTmo s chan.val ≤ max s.now t :=
  ⟨{ State.reset with blow := { State.reset.blow with out := [⟨31, 1, 0, [], some 0, false, some 5, 0, 0⟩] } }, 31, 2 ^ 40, 5, ⟨31, 1, 0, [], some 0, false, some 5, 0, 0⟩, [], by decide +kernel⟩

theorem wit_GenerationsComplete_7 : ∃ (s : State) (src : Fin 64) (chan : Fin 32) (gen : BitVec 32), s.regBit (Reg.blowpipeIna chan.val) 0 = true ∧ s.regBit (Reg.blowpipeInstat chan.val) 40 = true ∧ gen.toNat = nextGen s chan.val ∧ (∀ x ∈ inb s chan.val, x.src ≠ src.val) :=
  ⟨withRegs [(Reg.blowpipeIna 31, 1), (Reg.blowpipeInstat 31, 2 ^ 40)], 63, 31, 1#32, by decide +kernel⟩

theorem wit_GenerationsComplete_8 : ∃ (s : State) (s1 : State) (src : Fin 64) (chan : Fin 32) (gen : BitVec 32) (packet : BpData) (t : Nat) (lo : Nat), s.regBit (Reg.blowpipeIna chan.val) 0 = true ∧ gen.toNat = nextGen s chan.val ∧ (∃ x ∈ inb s chan.val, x.src = src.val ∧ x.done = false) ∧ lo = s.regFld (Reg.blowpipeIna chan.val) 12 36 * 4096 ∧ lo ≤ packet.addr.toNat ∧ packet.addr.toNat + packet.bytes.length ≤ lo + s.regFld (Reg.blowpipeInb chan.val) 0 24 * 4096 ∧ packet.addr.toNat % 128 + packet.bytes.length ≤ 128 ∧ stagePacket (s.at t) chan.val packet packet.addr.toNat = (s1, none) :=
  wit_BlowpipeDeliveries_8

theorem wit_GenerationsComplete_9 : ∃ (s : State) (src : Fin 64) (chan : Fin 32) (gen : BitVec 32) (count : BitVec 32) (crc : BitVec 32) (x : BpIn), s.regBit (Reg.blowpipeIna chan.val) 0 = true ∧ gen.toNat = nextGen s chan.val ∧ (inb s chan.val).find? (fun x => decide (x.src = src.val) && !x.done) = some x ∧ x.began.isSome = true ∧ x.data.length = count.toNat ∧ dataCrc x = crc.toNat :=
  ⟨let s := withRegs [(Reg.blowpipeIna 3, 1)]; { s with blow := { s.blow with inb := [(3, [⟨7, some 0, [(0, 4)], none, false⟩])] } }, 7, 3, 1#32, 1#32, BitVec.ofNat 32 (crc32c (leBytes 4 4)), ⟨7, some 0, [(0, 4)], none, false⟩, by decide +kernel⟩

theorem wit_GenerationsComplete_10 : ∃ (s : State) (s1 : State) (s2 : State) (chan : Fin 32) (flip : FlipAt), s.regBit (Reg.blowpipeIna chan.val) 0 = true ∧ inNsrc s chan.val ≤ ((inb s chan.val).filter (fun (x : BpIn) => x.done)).length ∧ closing s (inPart s chan.val) = false ∧ s1 = setInb (poisonRuns (s.at flip.t) (flipStaged ((s.at flip.t).bump Reg.devCommitidx 1) flip.ecc (inOwner chan.val))) chan.val [] ∧ s2 = s1.setRegFld (Reg.blowpipeInstat chan.val) 0 32 (nextGen s chan.val) ∧ s2.regBit (Reg.blowpipeIna chan.val) 1 = false :=
  ⟨let s := withRegs [(Reg.blowpipeIna 3, 1)]; { s with blow := { s.blow with inb := [(3, [⟨7, some 0, [], none, true⟩])] } }, _, _, 3, ⟨0, .clean⟩, by decide +kernel, by decide +kernel, by decide +kernel, rfl, rfl, by decide +kernel⟩

theorem wit_GenerationsComplete_11 : ∃ (s : State) (chan : Fin 32) (t : Nat), s.regBit (Reg.blowpipeIna chan.val) 0 = true ∧ ((inb s chan.val).filter (fun (x : BpIn) => x.done)).length < inNsrc s chan.val ∧ (∃ x ∈ inb s chan.val, ∃ b, x.began = some b ∧ b + inTmo s chan.val ≤ max s.now t) :=
  ⟨let s := withRegs [(Reg.blowpipeIna 3, 1), (Reg.blowpipeInb 3, 5 * 2 ^ 32)]; { s with blow := { s.blow with inb := [(3, [⟨7, some 0, [], none, false⟩])] } }, 3, 5000, by decide +kernel⟩

theorem wit_ConfigurationCompletes_1 : ∃ (s : State) (s1 : State) (who : Ident) (ecc : MemEcc) (l : List CfgEntry), mgmt who = true ∧ readList s ecc (s.regFld Reg.devBatchaddr 6 42 * 64) 0x4254394A 8192 = (s1, .ok l) :=
  wit_ConfigurationCommands_1

theorem wit_ConfigurationCompletes_2 : ∃ (s : State) (s1 : State) (who : Ident) (ecc : MemEcc) (l : List CfgEntry), mgmt who = true ∧ s.cfg.switching = none ∧ readList s ecc (s.regFld Reg.devFritaddr 6 42 * 64) 0x5446394A 254 = (s1, .ok l) :=
  wit_ConfigurationCommands_3

theorem wit_ConfigurationCompletes_8 : ∃ (s : State) (s1 : State) (s2 : State) (who : Ident) (addr : BitVec 64) (ecc : MemEcc) (t : Nat) (c : Challenge) (bs : List Byte), mgmt who = true ∧ s.cfg.challenge = some c ∧ devRead (s.at t) lehrAReq ecc (bitsOf addr.toNat 6 42 * 64) 192 = (s1, .ok bs) ∧ s2 = ({ s1 with cfg := { s1.cfg with challenge := none } }).setRegBit Reg.devDbgstat 4 false :=
  wit_ConfigurationCommands_10



theorem wit_ConfigurationCompletes_3 : ∃ (s : State) (who : Ident) (v : BitVec 32), mgmt who = true ∧ s.regBit Reg.devFritstat (16 + bitsOf v.toNat 0 4) = true :=
  ⟨withRegs [(Reg.devFritstat, 2 ^ 16)], 16, 0#32, by decide +kernel⟩

theorem wit_ConfigurationCompletes_4 : ∃ (s : State) (who : Ident) (target : Option Nat), mgmt who = true ∧ s.cfg.switching = some target :=
  ⟨{ State.reset with cfg := { State.reset.cfg with switching := some (some 3) } }, 16, some 3, by decide +kernel⟩

theorem wit_ConfigurationCompletes_5 : ∃ (who : Ident), mgmt who = true :=
  ⟨0, by decide +kernel⟩

theorem wit_ConfigurationCompletes_6 : ∃ (who : Ident), mgmt who = true :=
  ⟨16, by decide +kernel⟩

theorem wit_ConfigurationCompletes_7 : ∃ (s : State) (who : Ident), mgmt who = true ∧ s.cfg.dbgDisFuse = false ∧ s.regFld Reg.devDbgstat 8 2 ≠ 3 :=
  ⟨State.reset, 16, by decide +kernel⟩



theorem wit_BlockResetsComplete_1 : ∃ (s : State) (who : Ident) (kind : BitVec 4) (index : BitVec 8), mgmt who = true ∧ domainIndexOk kind.toNat index.toNat = true ∧ kind ≠ 8#4 ∧ kind ≠ 1#4 ∧ inReset s (kind.toNat, index.toNat) = false :=
  ⟨State.reset, 16, 5#4, 63#8, by decide +kernel⟩

theorem wit_BlockResetsComplete_2 : ∃ (s : State) (b : Block), inPhase s b .idlereq = true :=
  ⟨{ State.reset with rst := { State.reset.rst with blocks := [⟨.core 5, .idlereq, false⟩] } }, .core 5, by decide +kernel⟩

theorem wit_BlockResetsComplete_3 : ∃ (s : State) (b : Block) (t : Nat), inPhase s b .idlereq = true ∧ idleWaited (s.at t) b = true :=
  ⟨{ State.reset with rst := { State.reset.rst with blocks := [⟨.core 5, .idlereq, false⟩] }, lehrA := { State.reset.lehrA with silent := [.core 5] } }, .core 5, 0, by decide +kernel⟩

theorem wit_BlockResetsComplete_4 : ∃ (s : State) (b : Block), inPhase s b .fenced = true :=
  ⟨{ State.reset with rst := { State.reset.rst with blocks := [⟨.channel 63, .fenced, true⟩] } }, .channel 63, by decide +kernel⟩

theorem wit_BlockResetsComplete_5 : ∃ (s : State) (b : Block), inPhase s b .release = true :=
  ⟨{ State.reset with rst := { State.reset.rst with blocks := [⟨.crucible 3, .release, false⟩] } }, .crucible 3, by decide +kernel⟩

theorem wit_BlockResetsComplete_6 : ∃ (s : State) (b : Block) (x : BlockReset), s.blockPhase b = some x ∧ x.phase = .reset ∧ x.drained = true ∧ lineHeld s b = false :=
  ⟨{ State.reset with rst := { State.reset.rst with blocks := [⟨.channel 63, .reset, true⟩] } }, .channel 63, ⟨.channel 63, .reset, true⟩, by decide +kernel⟩

theorem wit_BlockResetsComplete_7 : ∃ (s : State) (kind : BitVec 4) (index : BitVec 8) (t : Nat) (d : DomainReset), s.rst.domains.find? (fun d => decide (d.kind = kind.toNat) && decide (d.index = index.toNat)) = some d ∧ d.hold = false ∧ d.since + domainBound d.kind ≤ max s.now t :=
  ⟨{ State.reset with rst := { State.reset.rst with domains := [⟨1, 5, 0, 0, false, false, 0, []⟩] } }, 1#4, 5#8, 2 ^ 40, ⟨1, 5, 0, 0, false, false, 0, []⟩, by decide +kernel⟩

theorem wit_DeviceResetsComplete_1 : ∃ (s : State) (d : DomainReset), s.pins.mainRails = true ∧ warmDomain s = some d ∧ d.hold = false ∧ warmReady s d (resetStep s) = true ∧ resetStep s < 10 :=
  ⟨{ State.reset with rst := { State.reset.rst with domains := [⟨7, 0, 5, 0, false, false, 0, []⟩] } }, ⟨7, 0, 5, 0, false, false, 0, []⟩, by decide +kernel⟩

theorem wit_DeviceResetsComplete_2 : ∃ (s : State), s.pins.mainRails = true ∧ s.regBit Reg.resetStat 2 = true ∧ coldReady s (resetStep s) = true ∧ resetStep s < 6 :=
  ⟨withRegs [(Reg.resetStat, 4)], by decide +kernel⟩

theorem wit_DeviceResetsComplete_3 : ∃ (us : Nat), 10 ≤ us :=
  ⟨10, by decide +kernel⟩

theorem wit_DeviceResetsComplete_4 : ∃ (us : Nat), 10 ≤ us :=
  ⟨10, by decide +kernel⟩

theorem wit_DeviceResetsComplete_5 : ∃ (us : Nat), 10 ≤ us :=
  ⟨10, by decide +kernel⟩

theorem wit_DeviceResetsComplete_6 : ∃ (s : State) (us : Nat), 10 ≤ us ∧ s.pins.sysRstn = false :=
  ⟨{ State.reset with pins := { State.reset.pins with sysRstn := false } }, 10, by decide +kernel⟩

theorem wit_DeviceResetsComplete_7 : ∃ (s : State), inReset s (7, 0) = false :=
  ⟨State.reset, by decide +kernel⟩

theorem wit_DeviceResetsComplete_8 : ∃ (s : State) (s1 : State) (rate : BitVec 3) (width : BitVec 5) (flit : Bool) (t : Nat) (cap : Nat), cap = rate.toNat + width.toNat * 8 + (if flit then 256 else 0) ∧ s1 = { (s.at t) with rst := { (s.at t).rst with perstn := true, linkCap := cap } } ∧ s.regBit Reg.resetStat 2 = false ∧ warmDomain s = none ∧ s.regBit Reg.resetStat 0 = true :=
  ⟨withRegs [(Reg.resetStat, 1)], _, 4#3, 16#5, true, 0, _, rfl, rfl, by decide +kernel, by decide +kernel, by decide +kernel⟩

theorem wit_DeviceResetsComplete_9 : ∃ (s : State), s.pins.mainRails = true :=
  ⟨State.reset, by decide +kernel⟩

theorem wit_DeviceResetsComplete_13 : ∃ (s : State) (s1 : State) (t : Nat), s.pins.powerGood = false ∧ s1 = { (s.at t) with pins := { (s.at t).pins with mainRails := true, lehrARails := true, lehrBRails := true, powerGood := true } } ∧ (s.pins.lehrARails = false ∨ s.pins.lehrBRails = false) :=
  ⟨{ State.reset with pins := { State.reset.pins with powerGood := false, lehrBRails := false } }, _, 0, rfl, rfl, by decide +kernel⟩

theorem wit_OptionFlashCompletes_1 : ∃ (s : State), s.rst.reader = .readA :=
  ⟨{ State.reset with rst := { State.reset.rst with reader := .readA } }, by decide +kernel⟩

theorem wit_OptionFlashCompletes_2 : ∃ (s : State), s.rst.reader = .readA :=
  ⟨{ State.reset with rst := { State.reset.rst with reader := .readA } }, by decide +kernel⟩

theorem wit_OptionFlashCompletes_3 : ∃ (s : State), s.rst.reader = .apply :=
  ⟨{ State.reset with rst := { State.reset.rst with reader := .apply } }, by decide +kernel⟩

theorem wit_OptionFlashCompletes_4 : ∃ (s : State), s.rst.reader = .select ∧ s.rst.retryPause = true :=
  ⟨{ State.reset with rst := { State.reset.rst with reader := .select, retryPause := true } }, by decide +kernel⟩

theorem wit_OptionFlashCompletes_5 : ∃ (s : State) (b : List Byte), usedBlock s = some b ∧ leAt b 16 1 % 2 = 1 ∧ s.rst.reader = .done ∧ s.rst.logNext < leAt b 24 4 / 16 :=
  ⟨{ State.reset with rst := { State.reset.rst with reader := .done, blockA := some (List.replicate 64 1#8) } }, List.replicate 64 1#8, by decide +kernel⟩

theorem wit_OptionFlashCompletes_7 : ∃ (s : State) (t : Nat), s.frame.nextBoundary = some t ∧ (s.lehrB.lehrARuns = true ∨ s.lehrB.handover.isSome = true) :=
  ⟨{ State.reset with frame := { State.reset.frame with nextBoundary := some 9 } }, 9, by decide +kernel⟩

theorem wit_RegisterWritesComplete_1 : ∃ (who : Ident) (off : BitVec 28) (r : RegRow), mgmt who = true ∧ (blockNo off.toNat = 8 ∨ blockNo off.toNat = 5) ∧ off.toNat % 8 = 0 ∧ row64 off.toNat = some r := by
  obtain ⟨r, hr⟩ := Option.isSome_iff_exists.mp (by decide +kernel : (row64 (0x480010#28).toNat).isSome = true)
  exact ⟨16, 0x480010#28, r, by decide +kernel, by decide +kernel, by decide +kernel, hr⟩

theorem wit_RegisterWritesComplete_2 : ∃ (off : BitVec 28) (r : RegRow), off.toNat % 8 = 0 ∧ row64 off.toNat = some r ∧ blockNo off.toNat = 13 := by
  obtain ⟨r, hr⟩ := Option.isSome_iff_exists.mp (by decide +kernel : (row64 (BitVec.ofNat 28 (Reg.coreTpslotbase 5 0)).toNat).isSome = true)
  exact ⟨BitVec.ofNat 28 (Reg.coreTpslotbase 5 0), r, by decide +kernel, hr, by decide +kernel⟩

theorem wit_RegisterWritesComplete_3 : ∃ (off : BitVec 28) (r : RegRow), off.toNat % 8 = 0 ∧ row64 off.toNat = some r ∧ blockNo off.toNat ≠ 13 := by
  obtain ⟨r, hr⟩ := Option.isSome_iff_exists.mp (by decide +kernel : (row64 (0x480010#28).toNat).isSome = true)
  exact ⟨0x480010#28, r, by decide +kernel, hr, by decide +kernel⟩

theorem wit_LinkCommands_3 : ∃ (s : State) (l : Fin 122) (up : Bool) (sq : BitVec 8) (crc : BitVec 16), wordOk 0x82 sq.toNat 0 crc = true ∧ (s.link (linkKey l.val up)).nak = some sq.toNat :=
  ⟨{ State.reset with fab := { State.reset.fab with links := [(243, ⟨1, [⟨0, 1, 0, 0, 0, 0⟩], 0, [], [], some 0, 0, false⟩)] } }, 121, true, 0#8, 20848#16, by decide +kernel⟩

theorem wit_LinkCommands_4 : ∃ (vc : Fin 6) (total : BitVec 16) (crc : BitVec 16), wordOk 0x83 vc.val total.toNat crc = true :=
  ⟨5, 0xFFFF#16, 45895#16, by decide +kernel⟩

theorem wit_LinkCommands_13 : ∃ (s : State) (l : Fin 122) (up : Bool) (k : Nat) (h : PacketHead) (extOk : Bool), linkUp s l.val = true ∧ (s.link (linkKey l.val up)).next < 256 ∧ (s.link (linkKey l.val up)).expect = (s.link (linkKey l.val up)).next ∧ mayPush s l.val up h = true ∧ receiver l.val up = some k ∧ packetOk h extOk = false ∧ packetResponds h = false :=
  ⟨live, 0, true, 1, ⟨0x00#8, 0#8, 0#8, 128#8, 0x60#8, 18#8, 5#16, 0#48, 0#8, 0#32, 0#64⟩, true, by decide +kernel⟩

theorem wit_HeatCommandsComplete_3 : ∃ (s : State) (s1 : State) (i : Fin 512) (v : BitVec 13) (r : Int) (t : Nat), s.regBit (Reg.thermSens i.val) 14 = false ∧ r = signedOf v.toNat 13 ∧ s1 = sensorStreaks (showReading (s.at t) i.val (some r)) i.val (some r) :=
  ⟨State.reset, _, 511, 8191#13, _, 0, by decide +kernel, rfl, rfl⟩

theorem wit_HeatCommandsComplete_4 : ∃ (who : Ident), mgmt who = true :=
  ⟨16, by decide +kernel⟩

theorem wit_HeatCommandsComplete_5 : ∃ (s : State) (t : Nat), s.therm.coolantAt.getD 0 + 2000000000 ≤ t :=
  ⟨State.reset, 2000000000, by decide +kernel⟩

theorem wit_HeatCommandsComplete_6 : ∃ (s : State) (c : Fin 96), parkBit s c.val = true ∧ s.coreSt c.val = .idle :=
  ⟨coreIn .idle (withRegs [(Reg.thermPark0, 32)]), 5, by decide +kernel⟩

theorem wit_HeatCommandsComplete_7 : ∃ (s : State) (c : Fin 96), parkBit s c.val = false ∧ s.coreSt c.val = .off :=
  ⟨coreIn .off, 5, by decide +kernel⟩

theorem wit_HeatCommandsComplete_8 : ∃ (s : State) (c : Fin 96), s.coreSt c.val = .reheat :=
  ⟨coreIn .reheat, 5, by decide +kernel⟩

theorem wit_HeatCommandsComplete_9 : ∃ (s : State) (c : Fin 96), s.coreSt c.val = .reheat :=
  ⟨coreIn .reheat, 5, by decide +kernel⟩

theorem wit_HeatCommandsComplete_10 : ∃ (s : State) (c : Fin 96), s.coreSt c.val = .reheat :=
  ⟨coreIn .reheat, 5, by decide +kernel⟩

theorem wit_HeatCommandsComplete_11 : ∃ (s : State) (c : Fin 96) (t : Nat), s.regBit (Reg.thermRh c.val) 10 = false ∧ (s.reg (Reg.thermRht c.val)).toNat + s.rhlim * 1000000000 ≤ t :=
  ⟨State.reset, 95, State.reset.rhlim * 1000000000, by decide +kernel⟩

theorem wit_HeatCommandsComplete_12 : ∃ (s : State), s.regBit Reg.thermAgectl 0 = true :=
  ⟨withRegs [(Reg.thermAgectl, 1)], by decide +kernel⟩

theorem wit_LehrBCommandsComplete_1 : ∃ (s : State) (buf : Fin 2) (b : FbBlock), s.lehrB.stoppedB = false ∧ sget [] s.lehrB.window buf.val ≠ [] ∧ acceptBlock s (sget [] s.lehrB.window buf.val) = some b :=
  ⟨{ State.reset with lehrB := { State.reset.lehrB with window := [(1, fbBytes)] } }, 1, ⟨7, 0, []⟩, by decide +kernel⟩

theorem wit_LehrBCommandsComplete_2 : ∃ (s : State) (buf : Fin 2), s.lehrB.stoppedB = false ∧ sget [] s.lehrB.window buf.val ≠ [] ∧ acceptBlock s (sget [] s.lehrB.window buf.val) = none :=
  ⟨{ State.reset with lehrB := { State.reset.lehrB with window := [(1, [1#8])] } }, 1, by decide +kernel⟩

theorem wit_LehrBCommandsComplete_3 : ∃ (s : State) (port : Fin 2), s.lehrB.stoppedB = false ∧ sget [] s.lehrB.radcal port.val ≠ [] :=
  ⟨{ State.reset with lehrB := { State.reset.lehrB with radcal := [(1, [1#8])] } }, 1, by decide +kernel⟩

theorem wit_LehrBCommandsComplete_4 : ∃ (s : State) (frame : BitVec 32) (q : List Nat × Nat), (s.frameSel frame.toNat).plan = some q ∧ (s.frameSel frame.toNat).verdict = none ∧ s.lehrB.stoppedB = false ∧ s.lehrB.lehrARuns = true :=
  ⟨{ State.reset with lehrA := { State.reset.lehrA with frames := [{ FrameSel.new 3 with plan := some ([1], 0x1000) }] } }, 3#32, ([1], 0x1000), by decide +kernel⟩

theorem wit_LehrBCommandsComplete_5 : ∃ (s : State) (k : Nat) (addr : Nat), s.lehrB.check = some (k, addr) ∧ s.lehrB.stoppedB = false ∧ mapHolds s = false ∧ unprogrammed s = true :=
  ⟨{ State.reset with lehrB := { State.reset.lehrB with check := some (1, 0) } }, 1, 0, by decide +kernel⟩

theorem wit_LehrBCommandsComplete_6 : ∃ (s : State) (s1 : State) (ecc : MemEcc) (t : Nat) (k : Nat) (addr : Nat) (bs : Except Poison (List Byte)), s.lehrB.check = some (k, addr) ∧ s.lehrB.stoppedB = false ∧ mapHolds s = false ∧ unprogrammed s = false ∧ devRead (s.at t) lehrBReq ecc addr 512 = (s1, bs) :=
  ⟨withRegs [(Reg.lehrbEnv0, 1), (Reg.lehrbEnv1, 1), (Reg.lehrbEnv2, 1), (Reg.lehrbEnv3, 1)] { State.reset with lehrB := { State.reset.lehrB with check := some (1, 0) } }, _, .clean, 0, 1, 0, _, rfl, rfl, by decide +kernel, by decide +kernel, (Prod.eta _).symm⟩

theorem wit_LehrBCommandsComplete_7 : ∃ (s : State) (t : Nat) (k : Nat), lateFrame (s.at t) = some k ∧ k ∉ s.lehrB.planned ∧ s.lehrB.planFor = none ∧ s.lehrB.stoppedB = false :=
  ⟨{ withRegs [(Reg.devFrmcnt, 5)] with frame := { State.reset.frame with latest := some 0 } }, 33333333, 4, by decide +kernel⟩

theorem wit_LehrBCommandsComplete_8 : ∃ (s : State) (s1 : State) (t : Nat) (k : Nat) (lost : Bool), s.lehrB.planFor = some k ∧ s.lehrB.stoppedB = false ∧ mapHolds s = false ∧ writePlan { (s.at t).nextFresh with lehrB := { s.lehrB with planFor := none } } (fbAddr s k) (makeFallback (s.at t) k).bytes = (s1, lost) :=
  ⟨planS, _, 0, 1, _, rfl, rfl, by decide +kernel, (Prod.eta _).symm⟩

theorem wit_LehrBCommandsComplete_9 : ∃ (s : State), s.lehrB.lehrARuns = true :=
  ⟨State.reset, by decide +kernel⟩

theorem wit_LehrBCommandsComplete_10 : ∃ (s : State), s.lehrB.lehrARuns = true ∧ s.lehrB.stoppedB = false :=
  ⟨State.reset, by decide +kernel⟩

theorem wit_LehrBCommandsComplete_11 : ∃ (s : State), s.lehrB.lehrARuns = true ∧ s.lehrB.stoppedA = false :=
  ⟨State.reset, by decide +kernel⟩

theorem wit_LehrBCommandsComplete_12 : ∃ (s : State), s.lehrB.lehrARuns = false ∧ s.lehrB.stoppedB = false ∧ s.lehrB.handover = none :=
  ⟨{ State.reset with lehrB := { State.reset.lehrB with lehrARuns := false } }, by decide +kernel⟩

theorem wit_LehrBCommandsComplete_13 : ∃ (s : State) (t : Nat) (since : Nat) (f : Nat), s.lehrB.handover = some (since, f) ∧ s.lehrB.lehrARuns = true ∧ since + 100000 ≤ t :=
  ⟨{ State.reset with lehrB := { State.reset.lehrB with handover := some (7, 1) } }, 100007, 7, 1, by decide +kernel⟩

theorem wit_LehrBCommandsComplete_14 : ∃ (s : State), s.lehrB.stoppedB = false ∧ s.lehrB.lehrARuns = true :=
  ⟨State.reset, by decide +kernel⟩

theorem wit_LehrBCommandsComplete_15 : ∃ (s : State), s.lehrB.stoppedA = false ∧ s.lehrB.stoppedB = false :=
  ⟨State.reset, by decide +kernel⟩

theorem wit_MemoryCommandsComplete_1 : ∃ (s : State) (t : Nat), onGrid t (fld s.mem.refForce 32 32) (refreshP s) = true ∧ s.regBit Reg.devMemstat 1 = false :=
  ⟨State.reset, 0, by decide +kernel⟩

theorem wit_MemoryCommandsComplete_2 : ∃ (s : State) (t : Nat) (u : Nat), s.mem.stallUntil = some u ∧ u ≤ t :=
  ⟨{ State.reset with mem := { State.reset.mem with stallUntil := some 7 } }, 7, 7, by decide +kernel⟩

theorem wit_MemoryCommandsComplete_3a : ∃ (who : Ident) (v : BitVec 64), mgmt who = true ∧ memrefOk v.toNat = true :=
  ⟨0, 15729640#64, by decide +kernel⟩

theorem wit_MemoryCommandsComplete_3b : ∃ (who : Ident) (v : BitVec 64), mgmt who = true ∧ memrefOk v.toNat = true :=
  ⟨16, 33493534#64, by decide +kernel⟩

theorem wit_MemoryCommandsComplete_5 : ∃ (s : State) (who : Ident), mgmt who = true ∧ pendingMapValid s = true ∧ s.regFld Reg.devSbstat 0 14 = 0 ∧ streamsOff s = true ∧ s.regBit Reg.devMemstat 1 = false ∧ s.regBit Reg.devMemstat 2 = false :=
  ⟨State.reset, 16, by decide +kernel⟩

theorem wit_MemoryCommandsComplete_6 : ∃ (s : State), s.regBit Reg.devMemstat 2 = true ∧ s.bench.spillCopies = [] :=
  ⟨withRegs [(Reg.devMemstat, 4)], by decide +kernel⟩

theorem wit_MemoryCommandsComplete_7 : ∃ (s : State) (who : Ident), mgmt who = true ∧ s.regFld Reg.devSbstat 0 14 = 0 ∧ streamsOff s = true ∧ s.regBit Reg.devMemstat 1 = false ∧ s.regBit Reg.devMemstat 2 = false :=
  ⟨State.reset, 0, by decide +kernel⟩

theorem wit_MemoryCommandsComplete_8 : ∃ (s : State), s.mem.parking = true ∧ s.bench.spillCopies = [] :=
  ⟨{ State.reset with mem := { State.reset.mem with parking := true } }, by decide +kernel⟩

theorem wit_MemoryCommandsComplete_9 : ∃ (s : State), s.regBit Reg.devMemstat 1 = true :=
  ⟨withRegs [(Reg.devMemstat, 2)], by decide +kernel⟩

theorem wit_MemoryCommandsComplete_10 : ∃ (s : State) (ch : Fin 64) (k : Nat) (p : Nat), s.chSt ch.val = 2 ∧ scrubSegment s ch.val = some k ∧ p = s.regFld (Reg.memcScrubptr (ch.val / 4) (ch.val % 4)) 0 24 ∧ p / 2 ^ 21 = k :=
  ⟨chanIn 2 [(chstat 9, 0x10), (Reg.memcScrubptr 2 1, 2 ^ 21 - 1)], 9, 0, 2097151, by decide +kernel⟩

end Sys2Proof.Tests
end

section
/-! SUPPORT. The statements about the machine as a whole (00_scope.md): the invariant at reset and over a step, what every command answers, which
commands only management and Gaffer firmware may give, requests that are turned away, and the comparison of counters. -/

namespace Sys2Proof.Machine

/-! ### The invariant -/

/-- A state in order has kept everything that a command keeps. -/
theorem Kept.refl {s : State} (hr : RegsWf s) (hm : Memory.wf s.mem) (hl : LogsWf s) : Kept s s :=
  ⟨rfl, Nat.le_refl _, hr, hm, hl, List.prefix_rfl, List.prefix_rfl, List.prefix_rfl, fun _ => Nat.le_refl _, rfl⟩

/-- Settles O44: every command keeps what a state in order holds (`kept_exec`), its queue among it. -/
theorem everyCommandAnswers : Obligations.EveryCommandAnswers := by
  have answers : ∀ (c : Instr) (s : State), RegsWf s → Memory.wf s.mem → LogsWf s → ∃ t, exec c s = .next t ∧ t.pending = s.pending := by
    intro c s hr hm hl
    obtain ⟨t, ht, hk⟩ := kept_exec (Kept.refl hr hm hl) c
    exact ⟨t, ht, hk.pending⟩
  refine ⟨answers, fun c s hr hm hl => ?_⟩
  obtain ⟨t, ht, -⟩ := answers c s hr hm hl
  exact ⟨fun f => by simp [ht], fun r => by simp [ht]⟩

/-- Every command keeps the invariant. -/
theorem exec_keeps_inv {c : Instr} {s t : State} (h : Inv s) (e : exec c s = .next t) : Inv t := by
  obtain ⟨hr, hm, hl, hp⟩ := h
  obtain ⟨u, hu, hk⟩ := kept_exec (Kept.refl hr hm hl) c
  obtain rfl : u = t := Host.Outcome.next.inj (hu.symm.trans e)
  exact ⟨hk.regs, hk.dram, hk.logs, by rw [hk.pending]; exact hp⟩

/-- Settles O43: an idle step changes nothing, any other runs a command on the state with the rest of the queue. -/
theorem stepKeepsTheInvariant : Obligations.StepKeepsTheInvariant := by
  intro s t hs e
  unfold step at e
  split at e
  · next => exact Host.Outcome.next.inj e ▸ hs
  · next c rest hq =>
    obtain ⟨hr, hm, hl, hp⟩ := hs
    rw [hq, List.all_cons, Bool.and_eq_true] at hp
    exact exec_keeps_inv (s := { s with pending := rest }) ⟨hr, hm, hl, hp.2⟩ e

/-- Settles O42: the register file, DRAM, the queue and every event log are empty. -/
theorem resetKeepsTheInvariant : Obligations.ResetKeepsTheInvariant := by
  have empty : ∀ cap, EvLog.empty.within cap := EvLog.within_empty
  refine ⟨rfl, rfl, ⟨empty 64, empty 64, empty 64, empty 64, empty 256, empty 256, ?_, ?_⟩, rfl⟩
  · exact fun q hq => nomatch hq
  · exact fun q hq => nomatch hq

/-! ### Reset -/

/-- The register file lists nothing after reset. -/
theorem reg_reset (off : Nat) : State.reset.reg off = regReset off := rfl

/-- What CORE_STATE, CORE_STEPMIN and CORE_COLMAP show of every core after reset. -/
theorem coreRegs_reset (c : Fin 96) : State.reset.coreSt c.val = .reset ∧ State.reset.reg (Reg.coreState c.val) = 0x7F01#64 ∧
    State.reset.reg (Reg.coreStepmin c.val) = 0xFFFF#64 ∧ State.reset.reg (Reg.coreColmap c.val) = 0xFFFFFFFF#64 := by
  revert c
  decide

/-- Settles O41: the lists of the state are empty after reset, and its registers show their tables' values. -/
theorem resetLeaves : Obligations.ResetLeaves := by
  have timer : State.reset.timerStopped = true ∧ State.reset.frmcnt = 0 := by decide
  have period : State.reset.frmper = 33333333 := by decide
  exact ⟨reg_reset, ⟨rfl, rfl, rfl, rfl, rfl, rfl, rfl, rfl, rfl, timer⟩, period, coreRegs_reset⟩

/-! ### Commands of management and of Gaffer firmware -/

/-- The command changes nothing but device time. -/
def MovesTimeOnly (c : Instr) (s : State) : Prop := ∃ n, exec c s = .next { s with now := n }

/-- A debug response without management's identity, or with no challenge to answer, moves device time at most. -/
theorem debugResponse_movesTimeOnly {who : Ident} (s : State) (addr : BitVec 64) (ecc : MemEcc) (t : Nat) (hw : (!mgmt who) = true) :
    MovesTimeOnly (.debugResponse who addr ecc t) s := by
  refine ⟨max s.now t, ?_⟩
  change execDebugResponse who addr ecc t s = _
  unfold execDebugResponse
  simp only
  split
  · rfl
  · exact if_pos hw

/-- Every command of management begins by asking for its identity. -/
theorem managed_movesTimeOnly {c : Instr} {who : Ident} (s : State) (h : managedBy c = some who) (hw : mgmt who = false) :
    MovesTimeOnly c s := by
  have not_mgmt : (!mgmt who) = true := by rw [hw]; rfl
  have ne_mgmt : ¬ mgmt who = true := by rw [hw]; exact Bool.false_ne_true
  cases c with
  | frameTimerEnable | frameTimerDisable | frmperWrite | frmphaseWrite | frmcntWrite | poolConfigWrite | regbudWrite | regctlWrite | memrefWrite
  | mapApply | park | loadBatch | loadFrit | fritSwitchRequest | coolantWrite =>
    cases h
    exact ⟨_, if_pos not_mgmt⟩
  | blowpipeTopoWrite | fwdChannelEnable | inChannelEnable =>
    cases h
    exact ⟨_, if_neg ne_mgmt⟩
  | debugRequest =>
    cases h
    exact ⟨_, if_pos (.inl not_mgmt)⟩
  | debugLock =>
    cases h
    exact ⟨s.now, congrArg _ (if_neg ne_mgmt)⟩
  | debugResponse _ addr ecc t =>
    cases h
    exact debugResponse_movesTimeOnly s addr ecc t not_mgmt
  | _ => cases h

/-- Every command of Gaffer firmware begins by asking for its identity. -/
theorem firmware_movesTimeOnly {c : Instr} {who : Ident} (s : State) (h : firmwareOnly c = some who) (hw : who.val ≠ 16) :
    MovesTimeOnly c s := by
  cases c with
  | createSeq | freeSeq | truncateSeq | setseg | loadbias | scatgo | trkgo | frzack | goservice | retire =>
    cases h
    exact ⟨_, if_pos hw⟩
  | gafhbWrite =>
    cases h
    exact ⟨_, if_pos (.inl hw)⟩
  | clean | cleanInv | trainWrite | trainReadCompare | trainCaLoop | trainWriteRead =>
    cases h
    exact ⟨s.now, congrArg _ (if_pos hw)⟩
  | _ => cases h

theorem MovesTimeOnly.eq_of_next {c : Instr} {s t : State} (h : MovesTimeOnly c s) (e : exec c s = .next t) : t = { s with now := t.now } := by
  obtain ⟨n, hn⟩ := h
  obtain rfl : { s with now := n } = t := Host.Outcome.next.inj (hn.symm.trans e)
  rfl

/-- Settles O37: a command of another identity ends at the test of its identity, device time moved at most. -/
theorem managementOnly : Obligations.ManagementOnly :=
  ⟨fun _ _ s _ h hw e => (managed_movesTimeOnly s h hw).eq_of_next e, fun _ _ s _ h hw e => (firmware_movesTimeOnly s h hw).eq_of_next e⟩

/-! ### Counters of 32 bits -/

/-- On numbers below 2^32 the difference that `newer32` judges is the one of the words. -/
theorem newer32_toNat (a b : BitVec 32) : newer32 b.toNat a.toNat = (decide (1 ≤ (b - a).toNat) && decide ((b - a).toNat < 2 ^ 31)) := by
  have hd : (b.toNat + 2 ^ 32 - a.toNat % 2 ^ 32) % 2 ^ 32 = (b - a).toNat := by
    rw [BitVec.toNat_sub]
    omega
  rw [← hd]
  rfl

theorem frmcnt_setReg_other (s : State) {off : Nat} (v : Word) (ho : Reg.devFrmcnt ≠ off) : (s.setReg off v).frmcnt = s.frmcnt :=
  regFld_setReg_other s v 0 32 ho

@[simp] theorem frmcnt_syncPend (s : State) : s.syncPend.frmcnt = s.frmcnt := regFld_setRegBit_off s 3 _ 0 32 (by decide)

/-- A pending grid that takes effect leaves the frame number. -/
theorem frmcnt_applyPending (s : State) : (applyPending s).frmcnt = s.frmcnt := by
  have period (u : State) (v : Word) : (u.setReg Reg.devFrmper v).frmcnt = u.frmcnt := frmcnt_setReg_other u v (by decide)
  have phase (u : State) (v : Word) : (u.setReg Reg.devFrmphase v).frmcnt = u.frmcnt := frmcnt_setReg_other u v (by decide)
  unfold applyPending
  rw [frmcnt_syncPend]
  cases s.frame.pendPeriod <;> cases s.frame.pendPhase
  · rfl
  · exact phase s _
  · exact period s _
  · exact (phase _ _).trans (period s _)

/-- A boundary counts the frame (R38). -/
theorem frmcnt_timerBoundary (s : State) (b : Nat) : (timerBoundary s b).frmcnt = (s.frmcnt + 1) % 2 ^ 32 := by
  have count : ((s.at b).setReg Reg.devFrmcnt (BitVec.ofNat 64 ((s.frmcnt + 1) % 2 ^ 32))).frmcnt = (s.frmcnt + 1) % 2 ^ 32 := by
    simp only [State.frmcnt, State.regFld, reg_setReg_same, fld, bitsOf, BitVec.toNat_ofNat]
    omega
  have start (u : State) : (u.setReg Reg.devFrmstart (BitVec.ofNat 64 b)).frmcnt = u.frmcnt := frmcnt_setReg_other u _ (by decide)
  change (if gridPending s then applyPending (((s.at b).setReg Reg.devFrmcnt _).setReg Reg.devFrmstart _)
    else ((s.at b).setReg Reg.devFrmcnt _).setReg Reg.devFrmstart _ : State).frmcnt = _
  split
  · rw [frmcnt_applyPending, start]
    exact count
  · rw [start]
    exact count

/-- Settles O28: the wrapped difference is the difference of the words; the frame number is a field of 32 bits. -/
theorem newerCounter : Obligations.NewerCounter := by
  refine ⟨fun a b => ?_, fun a b h => ?_, fun s b => ⟨fld_lt _ 0 32, frmcnt_timerBoundary s b⟩⟩
  · rw [newer32_toNat, ← Bool.decide_and]
    congr 1
    exact propext (by omega)
  · rw [newer32_toNat, h]
    rfl

/-! ### Requests turned away -/

/-- An event in CRUC_EVLOG leaves every register but CRUC_EVADDR and CRUC_STAT. -/
theorem reg_logCruc_other (s : State) (k code node ident addr : Nat) {o : Nat} (he : o ≠ Reg.crucEvaddr k) (hs : o ≠ Reg.crucStat k) :
    (s.logCruc k code node ident addr).reg o = s.reg o := by
  unfold State.logCruc
  simp only
  split <;> split <;> simp [reg_setReg_other, reg_setRegBit_other, he, hs]

@[simp] theorem mem_logCruc (s : State) (k code node ident addr : Nat) : (s.logCruc k code node ident addr).mem = s.mem := by
  unfold State.logCruc
  simp only
  split <;> split <;> rfl

@[simp] theorem cores_logCruc (s : State) (k code node ident addr : Nat) : (s.logCruc k code node ident addr).cores = s.cores := by
  unfold State.logCruc
  simp only
  split <;> split <;> rfl

/-- The state in which crucible `k` has answered a request poisoned: a count, an entry of its event log, and CRUC_POISON. -/
def turnedAway (s : State) (k off code : Nat) (r : Req) (a : Nat) : State := poisonAt ((s.bump off 1).logCruc k code r.node r.ident a) k

section
variable (s : State) (k off code : Nat) (r : Req) (a : Nat)

@[simp] theorem mem_turnedAway : (turnedAway s k off code r a).mem = s.mem := by simp [turnedAway, poisonAt]

@[simp] theorem cores_turnedAway : (turnedAway s k off code r a).cores = s.cores := by simp [turnedAway, poisonAt]

/-- The count rises by one. -/
theorem reg_turnedAway (he : off ≠ Reg.crucEvaddr k) (hs : off ≠ Reg.crucStat k) (hp : off ≠ Reg.crucPoison k) :
    (turnedAway s k off code r a).reg off = s.reg off + 1#64 := by
  unfold turnedAway poisonAt
  rw [reg_bump_other _ 1 hp, reg_logCruc_other _ k code _ _ _ he hs, reg_bump_same]
end

section
variable {s u : State} {r : Req} {a k : Nat}

/-- An unmapped address is refused at the ingress crucible, whatever the access (R19, R493). -/
theorem checkReq_unmapped (h : addrKind a = .unmapped) (hk : k = ingressOf s r.node (homeOf s a)) (write : Bool) :
    checkReq s r a write = (turnedAway s k (Reg.crucUnmap k) 0x0510 r a, .error .unmapped) := by
  subst hk
  simp only [checkReq, h, turnedAway]

/-- A DRAM address in no region of the ingress crucible is refused there, whatever the access (R494, R495). -/
theorem checkReq_noRegion (h : addrKind a = .dram) (hi : r.ident < 18) (hk : k = ingressOf s r.node (homeOf s a)) (hn : regionFor s k a = none)
    (write : Bool) : checkReq s r a write = (turnedAway s k (Reg.crucRgnref k) 0x0501 r a, .error .refused) := by
  subst hk
  simp [checkReq, h, hn, Nat.not_le.mpr hi, refuse, turnedAway]

/-- The region checker judges no DRAM request of an identity from 18 on (R492). -/
theorem checkReq_exempt (h : addrKind a = .dram) (hi : 18 ≤ r.ident) (write : Bool) : checkReq s r a write = (s, .ok 0) := by
  simp [checkReq, h, hi]

/-- A read that fails its checks ends there. -/
theorem readReq_refused {p : Poison} (h : checkReq s r a false = (u, .error p)) (ecc : MemEcc) (n : Nat) :
    readReq s r ecc a n = (u, .error p) := by
  simp [readReq, h]

/-- A write that fails its checks ends there. -/
theorem writeReq_refused {p : Poison} (h : checkReq s r a true = (u, .error p)) (ecc : MemEcc) (bs : List Byte) :
    writeReq s r ecc a bs = (u, some p) := by
  simp [writeReq, h]

/-- The ingress crucible's answer for an address in no valid range (R523). -/
def unbackedAnswer (s : State) (r : Req) (a : Nat) : State := poisonAt (s.bump Reg.devMemunbk 1) (ingressOf s r.node (homeOf s a))

theorem reg_unbackedAnswer (s : State) (r : Req) (a : Nat) : (unbackedAnswer s r a).reg Reg.devMemunbk = s.reg Reg.devMemunbk + 1#64 := by
  unfold unbackedAnswer poisonAt
  rw [reg_bump_other _ 1 (by simp only [Reg.devMemunbk, Reg.crucPoison]; omega), reg_bump_same]

theorem atHome_unbacked (h : mapAddr s a = none) (len : Nat) : atHome s r a len = (unbackedAnswer s r a, .error (.mem 0x0406)) := by
  simp only [atHome, h, unbackedAnswer]

theorem readReq_unbacked (h : addrKind a = .dram) (hm : mapAddr s a = none) (hi : 18 ≤ r.ident) (ecc : MemEcc) (n : Nat) :
    readReq s r ecc a n = (unbackedAnswer s r a, .error (.mem 0x0406)) := by
  simp [readReq, checkReq_exempt h hi, unbacked, h, hm, readTxn, atHome_unbacked hm]

theorem writeReq_unbacked (h : addrKind a = .dram) (hm : mapAddr s a = none) (hi : 18 ≤ r.ident) (ecc : MemEcc) (bs : List Byte) :
    writeReq s r ecc a bs = (unbackedAnswer s r a, some (.mem 0x0406)) := by
  simp [writeReq, checkReq_exempt h hi, unbacked, h, hm, writeTxn, atHome_unbacked hm]

end

/-- Settles O34: reads and writes fail the same check with the same answer, which changes counters and an event log only. -/
theorem requestsTurnedAway : Obligations.RequestsTurnedAway := by
  refine ⟨fun s r ecc a n bs k h hk => ?_, fun s r ecc a n bs k h hi hk hn => ?_, fun s r ecc a n bs h hm hi => ?_⟩
  · rw [readReq_refused (checkReq_unmapped h hk false), writeReq_refused (checkReq_unmapped h hk true)]
    refine ⟨rfl, mem_turnedAway .., cores_turnedAway .., reg_turnedAway _ _ _ _ _ _ ?_ ?_ ?_, rfl, rfl⟩ <;>
      simp only [Reg.crucUnmap, Reg.crucEvaddr, Reg.crucStat, Reg.crucPoison] <;> omega
  · rw [readReq_refused (checkReq_noRegion h hi hk hn false), writeReq_refused (checkReq_noRegion h hi hk hn true)]
    refine ⟨rfl, mem_turnedAway .., cores_turnedAway .., reg_turnedAway _ _ _ _ _ _ ?_ ?_ ?_, rfl, rfl⟩ <;>
      simp only [Reg.crucRgnref, Reg.crucEvaddr, Reg.crucStat, Reg.crucPoison] <;> omega
  · rw [readReq_unbacked h hm hi, writeReq_unbacked h hm hi]
    exact ⟨rfl, rfl, rfl, reg_unbackedAnswer s r a, rfl, rfl⟩

end Sys2Proof.Machine
end

section
/-! SUPPORT. The frame timer (01_frame_through_the_package.md): what the commands of its registers answer, and its enable once device time is lost. -/

namespace Sys2Proof.Machine

section
variable {s : State} {who : Ident}

/-! ### Writes of the period and of the frame number -/

/-- Management's write of a period that is not locked comes to the range check. -/
theorem exec_frmperWrite (v : BitVec 32) (hw : mgmt who = true) (hl : locked s Reg.devFrmper = false) :
    exec (.frmperWrite who v) s = .next (writePeriod s v.toNat) := by
  change execFrmperWrite who v s = _
  simp [execFrmperWrite, hw, hl]

/-- R40: a period out of range sets BADPER and nothing else. -/
theorem writePeriod_outOfRange {v : Nat} (hv : v < 10000000 ∨ 100000000 < v) : writePeriod s v = s.setRegBit Reg.devFrmctl 1 true := if_pos hv

/-- R41: on a stopped timer a period in range is in force at once, and a pending one is dropped. -/
theorem writePeriod_stopped {v : Nat} (hv : ¬(v < 10000000 ∨ 100000000 < v)) (ht : s.timerStopped = true) :
    writePeriod s v = ({ s.setReg Reg.devFrmper (BitVec.ofNat 64 v) with frame := { s.frame with pendPeriod := none } }).syncPend := by
  rw [writePeriod, if_neg hv, if_pos ht]

/-- R39: on a running timer a period in range is pending. -/
theorem writePeriod_running {v : Nat} (hv : ¬(v < 10000000 ∨ 100000000 < v)) (ht : s.timerStopped = false) :
    writePeriod s v = ({ s with frame := { s.frame with pendPeriod := some v } }).syncPend := by
  rw [writePeriod, if_neg hv, if_neg (by simp [ht])]

@[simp] theorem frame_syncPend (s : State) : s.syncPend.frame = s.frame := rfl

/-- PEND shows whether a value is pending. -/
@[simp] theorem regBit_syncPend_pend (s : State) :
    s.syncPend.regBit Reg.devFrmctl 3 = (s.frame.pendPeriod.isSome || s.frame.pendPhase.isSome) :=
  regBit_setRegBit_same s Reg.devFrmctl _ (by decide)

/-- PEND is brought up to date beside BADPER. -/
@[simp] theorem regBit_syncPend_badper (s : State) : s.syncPend.regBit Reg.devFrmctl 1 = s.regBit Reg.devFrmctl 1 :=
  regBit_setRegBit_other s Reg.devFrmctl _ (by decide) (by decide)

@[simp] theorem frmper_syncPend (s : State) : s.syncPend.frmper = s.frmper := regFld_setRegBit_off s 3 _ 0 32 (by decide)

/-- DEV_FRMPER shows a period of 32 bits as it was written. -/
theorem frmper_setReg (s : State) (v : BitVec 32) : (s.setReg Reg.devFrmper (BitVec.ofNat 64 v.toNat)).frmper = v.toNat := by
  simp only [State.frmper, State.regFld, reg_setReg_same, fld, bitsOf, BitVec.toNat_ofNat]
  omega

/-- The period written to a stopped timer is the one in force. -/
theorem frmper_writePeriod_stopped {v : BitVec 32} (hv : ¬(v.toNat < 10000000 ∨ 100000000 < v.toNat)) (ht : s.timerStopped = true) :
    (writePeriod s v.toNat).frmper = v.toNat := by
  rw [writePeriod_stopped hv ht, frmper_syncPend]
  exact frmper_setReg s v

/-- A period in range leaves BADPER. -/
theorem badper_writePeriod {v : Nat} (hv : ¬(v < 10000000 ∨ 100000000 < v)) :
    (writePeriod s v).regBit Reg.devFrmctl 1 = s.regBit Reg.devFrmctl 1 := by
  cases ht : s.timerStopped with
  | true =>
    rw [writePeriod_stopped hv ht, regBit_syncPend_badper]
    exact regBit_setReg_other s _ 1 (by decide)
  | false =>
    rw [writePeriod_running hv ht, regBit_syncPend_badper]
    rfl

/-- R41: the timer runs while EN is 1 or a boundary remains. -/
theorem timerStopped_eq_false (h : s.regBit Reg.devFrmctl 0 = true ∨ s.frame.nextBoundary ≠ none) : s.timerStopped = false := by
  rcases h with en | remains
  · simp [State.timerStopped, State.frmEn, en]
  · simp [State.timerStopped, Option.isNone_eq_false_iff, Option.isSome_iff_ne_none, remains]

/-- R40: management's write of the frame number of a running timer sets BADCNT and nothing else. -/
theorem exec_frmcntWrite_running (v : BitVec 32) (hw : mgmt who = true) (ht : s.timerStopped = false) :
    exec (.frmcntWrite who v) s = .next (s.setRegBit Reg.devFrmctl 2 true) := by
  change execFrmcntWrite who v s = _
  simp [execFrmcntWrite, hw, ht]

/-! ### The enable once device time is lost -/

/-- R449: once device time is lost, an enable generates no boundary. -/
theorem enableTimer_alone (ha : s.lehrA.alone = true) : enableTimer s = s.setRegBit Reg.devFrmctl 0 true := by
  simp only [enableTimer, State.setRegBit_lehrA, ha, if_true]
  split <;> rfl

/-- Management's enable, while DEV_FRMCTL is not locked. -/
theorem exec_frameTimerEnable (t : Nat) (hw : mgmt who = true) (hl : locked s Reg.devFrmctl = false) :
    exec (.frameTimerEnable who t) s = .next (enableTimer (s.at t)) := by
  have hl' : locked (s.at t) Reg.devFrmctl = false := hl
  change execFrameTimerEnable who t s = _
  simp [execFrameTimerEnable, hw, hl']

end

/-- Refutes O1: its clause of an enable supposes nothing of `lehrA.alone`. After reset the rails of Lehr B fall for good, and Lehr A is reset by its ball
for 10 microseconds: it restarts with device time lost and generates no boundary (R449), so the enable of partition 0 sets EN and no next boundary. -/
theorem not_frameTimerCommands : ¬ Obligations.FrameTimerCommands := by
  rintro ⟨enable, -⟩
  obtain ⟨s, -, lost, unlocked, noBoundary, period⟩ :
      ∃ s, stepsTo 2 { State.reset with pending := [.railFall false true false 0, .lehraRstn 10 true 0] } = some s ∧ s.lehrA.alone = true ∧
        locked s Reg.devFrmctl = false ∧ s.frame.nextBoundary = none ∧ 0 < s.frmper := ⟨_, rfl, by decide +kernel⟩
  obtain ⟨u, answer, -, ⟨b, boundary, -⟩, -⟩ := enable s 0 0 rfl unlocked noBoundary period
  rw [exec_frameTimerEnable 0 rfl unlocked, enableTimer_alone (s := s.at 0) lost] at answer
  obtain rfl := Host.Outcome.next.inj answer
  rw [State.setRegBit_frame, State.at_frame, noBoundary] at boundary
  exact nomatch boundary

/-- Settles O31: the range check decides the period, the running timer the frame number. -/
theorem framePeriodAndNumberWrites : Obligations.FramePeriodAndNumberWrites := by
  refine ⟨fun s who v hw hl hlo hhi => ?_, fun s who v hw hl hv => ?_, fun s who v hw h => exec_frmcntWrite_running v hw (timerStopped_eq_false h)⟩
  · have inRange : ¬(v.toNat < 10000000 ∨ 100000000 < v.toNat) := by omega
    refine ⟨_, exec_frmperWrite v hw hl, frmper_writePeriod_stopped inRange, fun running => ?_, badper_writePeriod inRange⟩
    rw [writePeriod_running inRange running]
    exact ⟨rfl, regBit_syncPend_pend _⟩
  · rw [exec_frmperWrite v hw hl, writePeriod_outOfRange hv]

end Sys2Proof.Machine
end

section
/-! SUPPORT. Residues and rounding (02_number_formats_and_exact_arithmetic.md): what the sum of octal digits is modulo 7, and what a rounded quotient is. -/

namespace Sys2Proof.Machine

/-! ### Residues -/

/-- R86: as 8 ≡ 1 modulo 7, a number is congruent to the sum of its octal digits and of what is above them. -/
theorem octalSum_add_div_mod (v n : Nat) : (((List.range n).map (fun g => v / 8 ^ g % 8)).sum + v / 8 ^ n) % 7 = v % 7 := by
  induction n with
  | zero => simp only [List.range_zero, List.map_nil, List.sum_nil, Nat.pow_zero, Nat.div_one, Nat.zero_add]
  | succ n ih =>
    have shift : v / 8 ^ (n + 1) = v / 8 ^ n / 8 := by rw [Nat.div_div_eq_div_mul, Nat.pow_succ]
    rw [List.range_succ, List.map_append, List.sum_append, shift, ← ih]
    simp only [List.map_cons, List.map_nil, List.sum_cons, List.sum_nil]
    omega

/-- Thirty-two octal digits are the whole of a 96-bit pattern. -/
theorem octalSum_mod (v : BitVec 96) : ((List.range 32).map (fun g => v.toNat / 8 ^ g % 8)).sum % 7 = v.toNat % 7 := by
  have within : v.toNat < 8 ^ 32 := v.isLt
  rw [← octalSum_add_div_mod v.toNat 32, Nat.div_eq_of_lt within, Nat.add_zero]

/-- The residue is that of the pattern less its top bit. -/
theorem residue96_eq (v : BitVec 96) : residue96 v.toNat = (v.toNat + 7 - v.toNat / 2 ^ 95) % 7 := by
  have octal := octalSum_mod v
  have top : v.toNat / 2 ^ 95 % 2 = v.toNat / 2 ^ 95 := by omega
  rw [residue96, ← List.sum_eq_foldl, top]
  omega

/-- Settles O29: a set top bit takes 2^96 ≡ 1 (mod 7) from the pattern's value. -/
theorem residueExact : Obligations.ResidueExact := by
  intro v
  have octal := octalSum_mod v
  rw [residue96_eq, BitVec.toInt_eq_toNat_cond, octal]
  refine ⟨?_, by omega, by omega⟩
  split <;> omega

/-! ### Rounding -/

/-- Whether a quotient `q` with the remainder `r` by `d` goes up to the next integer (R58). -/
def goesUp (mode : Nat) (neg : Bool) (q r d : Nat) : Bool :=
  match mode with
  | 0 => decide (d < 2 * r) || (decide (2 * r = d) && decide (q % 2 = 1))
  | 1 => false
  | 2 => neg && decide (r ≠ 0)
  | _ => !neg && decide (r ≠ 0)

/-- Mode 0 goes up beyond one half, and at one half from an odd integer. -/
theorem goesUp_nearest (neg : Bool) (q r d : Nat) : goesUp 0 neg q r d = decide (d < 2 * r ∨ 2 * r = d ∧ q % 2 = 1) := by
  simp only [goesUp, Bool.decide_or, Bool.decide_and]

/-- m / d rounded to an integer, and whether that changed the value: `roundShift` without the cut of its shift (`roundShift_eq`). -/
def roundQuot (mode : Nat) (neg : Bool) (m d : Nat) : Nat × Bool :=
  (m / d + (goesUp mode neg (m / d) (m % d) d).toNat, decide (m % d ≠ 0))

theorem ite_succ_eq_add_toNat (b : Bool) (q : Nat) : (if b then q + 1 else q) = q + b.toNat := by cases b <;> rfl

/-- `roundShift` shifts by the magnitude's length and two more places at most. -/
theorem roundShift_eq_cut (mode : Nat) (neg : Bool) (m k : Nat) : roundShift mode neg m k = roundQuot mode neg m (2 ^ min k (m.log2 + 2)) :=
  Prod.ext (ite_succ_eq_add_toNat (goesUp mode neg _ _ _) _) rfl

/-- Below one half a magnitude rounds alike by every divisor. -/
theorem roundQuot_below_half {m d e : Nat} (mode : Nat) (neg : Bool) (hd : 2 * m < d) (he : 2 * m < e) :
    roundQuot mode neg m d = roundQuot mode neg m e := by
  have up : goesUp mode neg 0 m d = goesUp mode neg 0 m e := by
    match mode with
    | 0 =>
      have below {b : Nat} (h : 2 * m < b) : ¬(b < 2 * m ∨ 2 * m = b ∧ 0 % 2 = 1) := by omega
      rw [goesUp_nearest, goesUp_nearest, decide_eq_false (below hd), decide_eq_false (below he)]
    | 1 | 2 | _ + 3 => rfl
  have small {b : Nat} (h : 2 * m < b) : m < b := by omega
  simp only [roundQuot, Nat.div_eq_of_lt (small hd), Nat.mod_eq_of_lt (small hd), Nat.div_eq_of_lt (small he), Nat.mod_eq_of_lt (small he), up]

/-- R58: the cut of the shift changes no rounding, as what it cuts off is below one half. -/
theorem roundShift_eq (mode : Nat) (neg : Bool) (m k : Nat) : roundShift mode neg m k = roundQuot mode neg m (2 ^ k) := by
  rw [roundShift_eq_cut]
  rcases Nat.le_total k (m.log2 + 2) with short | long
  · rw [Nat.min_eq_left short]
  · have half : 2 * m < 2 ^ (m.log2 + 2) := by
      have := Nat.lt_log2_self (n := m)
      rw [Nat.pow_succ]
      omega
    rw [Nat.min_eq_right long]
    exact roundQuot_below_half mode neg half (Nat.lt_of_lt_of_le half (Nat.pow_le_pow_right (by decide) long))

/-- Mode 0 leaves an error of one half at most, and of one half only where the integer is even. -/
theorem roundQuot_nearest (neg : Bool) (m : Nat) {d : Nat} (hd : 0 < d) :
    2 * (roundQuot 0 neg m d).1 * d ≤ 2 * m + d ∧ 2 * m ≤ 2 * (roundQuot 0 neg m d).1 * d + d ∧
    (2 * (roundQuot 0 neg m d).1 * d = 2 * m + d ∨ 2 * m = 2 * (roundQuot 0 neg m d).1 * d + d → (roundQuot 0 neg m d).1 % 2 = 0) := by
  have whole := Nat.div_add_mod m d
  have small := Nat.mod_lt m hd
  have expand (u : Nat) : 2 * (m / d + u) * d = 2 * (d * (m / d)) + 2 * (u * d) := by
    rw [Nat.mul_assoc, Nat.add_mul, Nat.mul_add, Nat.mul_comm (m / d) d]
  rw [roundQuot, expand, goesUp_nearest]
  by_cases up : d < 2 * (m % d) ∨ 2 * (m % d) = d ∧ m / d % 2 = 1
  · rw [decide_eq_true up, Bool.toNat_true]
    omega
  · rw [decide_eq_false up, Bool.toNat_false]
    omega

/-- A quotient rounded up is the quotient, or one more where something remains. -/
theorem add_pred_div (m : Nat) {d : Nat} (hd : 0 < d) : (m + d - 1) / d = m / d + (decide (m % d ≠ 0)).toNat := by
  have parts := Nat.div_add_mod m d
  rcases Nat.eq_zero_or_pos (m % d) with exactly | rest
  · rw [show m + d - 1 = d - 1 + d * (m / d) by omega, Nat.add_mul_div_left _ _ hd, Nat.div_eq_of_lt (by omega)]
    simp only [exactly, ne_eq, not_true_eq_false, decide_false, Bool.toNat_false, Nat.add_zero, Nat.zero_add]
  · have small := Nat.mod_lt m hd
    rw [show m + d - 1 = m % d - 1 + d * (m / d + 1) by rw [Nat.mul_add]; omega, Nat.add_mul_div_left _ _ hd, Nat.div_eq_of_lt (by omega)]
    rw [decide_eq_true (Nat.ne_of_gt rest), Bool.toNat_true, Nat.zero_add]

/-- Settles O30: each mode's rounding of m / 2^k, read off `goesUp`. -/
theorem roundingModes : Obligations.RoundingModes := by
  refine ⟨fun neg m k => ?_, fun neg m k => ?_, fun mode neg m k => by rw [roundShift_eq, roundQuot]⟩
  · rw [roundShift_eq]
    exact roundQuot_nearest neg m (Nat.two_pow_pos k)
  · simp only [roundShift_eq, roundQuot, add_pred_div m (Nat.two_pow_pos k)]
    cases neg <;> simp only [goesUp, Bool.true_and, Bool.false_and, Bool.not_true, Bool.not_false, Bool.toNat_false, Nat.add_zero, if_true,
      Bool.false_eq_true, if_false, and_self]

end Sys2Proof.Machine
end

section
/-! SUPPORT. The array stream (04_tile_programs.md): a program whose MM needs weight scales that its WLD could not read. -/

namespace Sys2Proof.Machine

/-! ### The program -/

/-- An instruction word from its fields, each its lowest bit and its value. -/
def fieldsWord (fields : List (Nat × Nat)) : BitVec 128 := BitVec.ofNat 128 (fields.map (fun p => p.2 * 2 ^ p.1)).sum

/-- CLR of tile 0 for FP4 pairs from K index 16 on, A scaled by blocks of 16 and B by blocks of 32: the segment length is 16 (R151). -/
def mixedClr : BitVec 128 := fieldsWord [(3, 1), (62, 7), (66, 7), (70, 0xD), (74, 1), (75, 0xC), (79, 1), (80, 16)]

/-- WLD of 32 FP4 weight rows with a row of scales at byte 0. An MM whose K range begins inside a block needs a second one, at byte 128 (R152). -/
def mixedWld : BitVec 128 := fieldsWord [(3, 2), (48, 8), (71, 31), (120, 7), (124, 1)]

/-- VST of two FP32 lanes to byte 128, which covers scratchpad word 16 whole. -/
def healingVst : BitVec 128 := fieldsWord [(0, 2), (3, 2), (53, 128), (76, 0xB), (80, 1)]

/-- MM of one row into tile 0 that swaps to the weights just loaded. -/
def mixedMm : BitVec 128 := fieldsWord [(3, 3), (121, 1)]

/-- Core 5 in a program that begins with these words. The WLD meets word 16 uncorrectable, and the VST then gives that word a fresh code (R94). -/
def lackingStart : State :=
  { (State.reset.setCoreSt 5 .run).setCore 5 { Core.reset with
      streams := List.replicate 5 ⟨0, 9, 0, false, false⟩
      buf := [(0, some mixedClr), (1, some mixedWld), (2, some mixedMm), (2 ^ 24, some healingVst)] } with
    pending := [.clr 5, .instrComplete 5 0 0, .wld 5 ⟨.uncorrectable 16, .clean, false⟩, .instrComplete 5 0 1, .vst 5 .clean] }

/-- The state after the five commands, the MM at the head of the array stream. -/
def lackingScales : State := (stepsTo 5 lackingStart).get (by decide +kernel)

/-! ### The MM -/

/-- The MM passes all its checks: K index 16 begins a segment, and the row of scales that it lacks is within scratchpad. -/
theorem headReady_lackingScales : HeadReady lackingScales 5 0 mixedMm.toNat (mmChecks 5) where
  stream := by decide
  live := by decide +kernel
  runs := by decide +kernel
  head := ⟨mixedMm, by decide +kernel, rfl⟩
  passes := by decide +kernel
  goes := by decide +kernel
  waited := by decide +kernel
  free := by decide +kernel
  checked := by decide +kernel
  apart := by
    have alone : (wordTile mixedMm.toNat).all (fun t => !tileConflict (afterWait lackingScales 5 mixedMm.toNat) 5 (wEng mixedMm.toNat) t) = true := by
      decide +kernel
    simpa only [Option.all_eq_true, Bool.not_eq_true'] using alone

/-- R94, R152: the 32 K indices from 16 on lie in two blocks of 32, and the scales of the second were unreadable when the WLD issued: MM records
SP_DATA. -/
theorem fault_mm_lackingScales :
    (issueIf lackingScales 5 0 0 3 (mmChecks 5) (mmEffect 5 ⟨.clean, .clean, false⟩)).regFld (Reg.coreFault 5) 0 16 = 0x0209 := by decide +kernel

/-- An MM that issues there records no fault. -/
theorem noFault_issueDone_lackingScales :
    (issueDone (mmEffect 5 ⟨.clean, .clean, false⟩ (afterWait lackingScales 5 mixedMm.toNat) mixedMm.toNat).1 5 0 mixedMm.toNat 0
      (wordSlot (afterWait lackingScales 5 mixedMm.toNat) 5 mixedMm.toNat)).regFld (Reg.coreFault 5) 0 16 = 0 := by decide +kernel

/-- Refutes O7: its clause of MM asks that no scratchpad word is uncorrectable as the MM issues, not that its WLD could read every row of weight scales
that the MM needs. The MM of `lackingScales`, whose uncorrectable word was written whole after the WLD, faults with SP_DATA. -/
theorem not_arrayInstructions : ¬ Obligations.ArrayInstructions := by
  rintro ⟨-, -, -, -, mm, -⟩
  have answer := mm lackingScales 5 ⟨.clean, .clean, false⟩ mixedMm.toNat headReady_lackingScales (by decide) (by decide) rfl (by decide +kernel)
  change Host.Outcome.next (issueIf lackingScales 5 0 0 3 (mmChecks 5) (mmEffect 5 ⟨.clean, .clean, false⟩)) = _ at answer
  have fault := fault_mm_lackingScales
  rw [Host.Outcome.next.inj answer] at fault
  exact absurd (noFault_issueDone_lackingScales.symm.trans fault) (by decide)

end Sys2Proof.Machine
end

section
/-! SUPPORT. The vector stream (04_tile_programs.md): what a lane reads after lanes were written, and what an issued instruction of it leaves. -/

namespace Sys2Proof.Machine

/-! ### The run that a core executes -/

section
variable {c : Nat} (s : State)

/-- Registers are no part of a core's memories. -/
theorem core_of_cores {s t : State} (h : t.cores = s.cores) : t.core c = s.core c := by rw [State.core, h, State.core]

@[simp] theorem core_setReg (off : Nat) (v : Word) : (s.setReg off v).core c = s.core c := core_of_cores rfl
@[simp] theorem core_setRegFld (off lo n v : Nat) : (s.setRegFld off lo n v).core c = s.core c := core_of_cores rfl
@[simp] theorem core_setRegBit (off i : Nat) (b : Bool) : (s.setRegBit off i b).core c = s.core c := core_of_cores rfl
@[simp] theorem core_bump (off k : Nat) : (s.bump off k).core c = s.core c := core_of_cores rfl
@[simp] theorem core_setCoreSt (d : Nat) (x : CoreSt) : (s.setCoreSt d x).core c = s.core c := core_of_cores rfl
@[simp] theorem core_syncTpstat : (syncTpstat s c).core c = s.core c := by
  rw [syncTpstat, core_setReg, core_setReg]

@[simp] theorem run_accrue : ((accrue s c).core c).run = (s.core c).run := by
  unfold accrue
  dsimp only
  split
  · rw [core_bump, core_setCore_same]
  · rfl

@[simp] theorem run_stopStreams : ((stopStreams s c).core c).run = (s.core c).run := by
  rw [stopStreams, core_setReg, core_setReg, core_setCore_same]
  exact run_accrue s

theorem run_ite {p : Prop} [Decidable p] {s t : State} {r : RunCtx} (h : (s.core c).run = r) (g : (t.core c).run = r) :
    ((if p then s else t).core c).run = r := by
  split
  · exact h
  · exact g

/-- A fault that charges no core leaves the core its run. -/
theorem run_tileFault (eng word : Nat) {f : TFault} (h : f.quiet = true) : ((tileFault s c eng word f).core c).run = (s.core c).run := by
  simp only [TFault.quiet, Bool.and_eq_true, decide_eq_true_eq] at h
  unfold tileFault
  extract_lets aux s1 s2 s3 held s4
  have uncharged : s2 = s1 := (if_neg h.1).trans (if_neg h.2)
  have stopped : (s3.core c).run = (s.core c).run := by
    rw [core_setRegBit, run_stopStreams, uncharged, core_setReg, core_setReg]
  have recorded : (s4.core c).run = (s.core c).run := (congrArg Core.run (core_setCore_same ..)).trans stopped
  rw [core_syncTpstat]
  exact run_ite recorded ((congrArg Core.run (core_setCoreSt ..)).trans recorded)

theorem run_stepFaults {l : List (Nat × Nat × TFault)} (h : ∀ p ∈ l, p.2.2.quiet = true) :
    ((stepFaults s c l).core c).run = (s.core c).run := by
  unfold stepFaults
  split
  · rfl
  · next e =>
    rw [countFaults, core_setRegFld]
    exact run_tileFault s _ _ (h _ (List.mem_of_find?_eq_some e))

theorem run_headCheck (k : Nat) : ((headCheck s c k).core c).run = (s.core c).run := by
  unfold headCheck
  split
  · rfl
  · next e => exact run_tileFault s _ _ (headFault_quiet e)

@[simp] theorem run_giveRecord : ((giveRecord s c).core c).run = (s.core c).run := by
  unfold giveRecord
  dsimp only
  repeat' split
  all_goals simp

@[simp] theorem run_mapRecord (f : PendRec → PendRec) : ((mapRecord s c f).core c).run = (s.core c).run := by simp [mapRecord]

@[simp] theorem run_setSync (n v : Nat) : ((s.setSync c n v).core c).run = (s.core c).run := by
  unfold State.setSync
  split <;> simp

@[simp] theorem run_takeWait (n amt : Nat) : ((takeWait s c n amt).core c).run = (s.core c).run := by
  unfold takeWait
  split <;> simp [syncV]

@[simp] theorem run_applySignal (n amt : Nat) : ((applySignal s c n amt).core c).run = (s.core c).run := by
  unfold applySignal
  split <;> simp

@[simp] theorem run_afterWait (w : Nat) : ((afterWait s c w).core c).run = (s.core c).run := by
  have h : ((atWait s c w).core c).run = (s.core c).run := by
    unfold atWait
    split <;> simp
  unfold afterWait
  split <;> simp [h]

theorem run_raiseAll (l : List InFlight) : ((raiseAll s c l).core c).run = (s.core c).run := by
  induction l generalizing s with
  | nil => rfl
  | cons e es ih =>
    simp only [raiseAll]
    split
    · simp
    · split
      · refine run_stepFaults s fun p hp => ?_
        obtain ⟨_, _, rfl⟩ := List.mem_map.mp hp
        rfl
      · rw [ih, run_applySignal]

/-- The issue of an instruction, beside its own effect, leaves the core its run. -/
theorem run_issueDone (k w txns slot : Nat) : ((issueDone s c k w txns slot).core c).run = (s.core c).run := by
  have flushed : ∀ t : State, ((flush t c k).core c).run = (t.core c).run := fun t => by
    rw [flush, run_raiseAll, core_setCore_same]
  unfold issueDone
  extract_lets eng idx s1 x0 st x entry s2
  have kept : x.run = (s.core c).run := by
    refine (apply_ite Core.run _ _ _).trans ?_
    rw [show (x0.setStream k { x0.stream k with past := true }).run = x0.run from rfl, ite_self]
    exact congrArg Core.run (core_setRegFld s _ _ _ _)
  have entered : (s2.core c).run = (s.core c).run := by
    refine (flushed _).trans ?_
    rw [core_setCore_same]
    exact kept
  rw [core_syncTpstat]
  exact run_ite entered ((run_headCheck _ k).trans entered)

end

/-! ### What a lane reads (R157, R407) -/

section
variable (x : Core) {i j : Nat}

theorem physLane_lt (h : i < 512) : x.physLane i < 512 := by
  unfold Core.physLane
  split <;> omega

theorem physLane_inj (hi : i < 512) (hj : j < 512) (h : x.physLane j = x.physLane i) : j = i := by
  unfold Core.physLane at h
  split at h <;> omega

/-- A lane just written, cut to 32 bits, and every other lane. -/
theorem lane_setLane (v n v' : Nat) (hi : i < 512) (hj : j < 512) :
    (x.setLane v i n).lane v' j = if v' = v ∧ j = i then n % 2 ^ 32 else x.lane v' j := by
  have hpi := physLane_lt x hi
  have hpj := physLane_lt x hj
  change (sget 0#32 (sput 0#32 x.vregs (512 * v + x.physLane i) _) (512 * v' + x.physLane j)).toNat = _
  split
  · next e =>
    obtain ⟨rfl, rfl⟩ := e
    rw [sget_sput_same, BitVec.toNat_ofNat]
  · next e =>
    have apart : 512 * v' + x.physLane j ≠ 512 * v + x.physLane i := fun he =>
      e ⟨by omega, physLane_inj x hi hj (by omega)⟩
    rw [sget_sput_other _ _ _ _ apart]
    rfl

/-- Lanes written from lane `i` on: each takes its value, cut to 32 bits, and every other lane stays. -/
theorem lane_setLanes (v v' : Nat) (ns : List Nat) (hn : i + ns.length ≤ 512) (hj : j < 512) :
    (x.setLanes v i ns).lane v' j =
      if v' = v ∧ i ≤ j then (ns[j - i]?.map (· % 2 ^ 32)).getD (x.lane v' j) else x.lane v' j := by
  induction ns generalizing x i with
  | nil => simp [Core.setLanes]
  | cons n ns ih =>
    rw [List.length_cons] at hn
    rw [Core.setLanes, ih (x.setLane v i n) (by omega), lane_setLane x v n v' (by omega) hj]
    by_cases hv : v' = v
    · rcases Nat.lt_trichotomy j i with hlt | rfl | hgt
      · rw [if_neg (by omega), if_neg (by omega), if_neg (by omega)]
      · rw [if_neg (by omega), if_pos ⟨hv, rfl⟩, if_pos ⟨hv, Nat.le_refl j⟩, Nat.sub_self]
        rfl
      · have next : j - i = j - (i + 1) + 1 := by omega
        rw [if_pos ⟨hv, hgt⟩, if_neg (by omega), if_pos ⟨hv, Nat.le_of_lt hgt⟩, next, List.getElem?_cons_succ]
    · rw [if_neg fun e => hv e.1, if_neg fun e => hv e.1, if_neg fun e => hv e.1]

/-- Writing lanes changes the vector registers alone. -/
theorem setLanes_eq (v : Nat) (ns : List Nat) : x.setLanes v i ns = { x with vregs := (x.setLanes v i ns).vregs } := by
  induction ns generalizing x i with
  | nil => rfl
  | cons n ns ih => rw [Core.setLanes, ih]; rfl

end

/-! ### What a core's memories determine -/

section
variable {x y : Core}

theorem memory_parts (h : x.memory = y.memory) : x.sp = y.sp ∧ x.spBad = y.spBad ∧ x.vregs = y.vregs := by
  simp only [Core.memory, Prod.mk.injEq] at h
  obtain ⟨hsp, hbad, -, -, -, -, -, hv, -⟩ := h
  exact ⟨hsp, hbad, hv⟩

theorem memory_withVregs (h : x.memory = y.memory) (v : List (Nat × BitVec 32)) : { x with vregs := v }.memory = { y with vregs := v }.memory := by
  simp only [Core.memory, Prod.mk.injEq] at h ⊢
  simp [h]

theorem memory_withSp (h : x.memory = y.memory) (sp : List (Nat × Byte)) (bad : List Nat) :
    { x with sp := sp, spBad := bad }.memory = { y with sp := sp, spBad := bad }.memory := by
  simp only [Core.memory, Prod.mk.injEq] at h ⊢
  simp [h]

theorem spRead_of_memory (h : x.memory = y.memory) (a n : Nat) : x.spRead a n = y.spRead a n := by
  simp only [Core.spRead, Core.spByte, (memory_parts h).1]

theorem spBadIn_of_memory (h : x.memory = y.memory) (a n : Nat) : x.spBadIn a n = y.spBadIn a n := by
  simp only [Core.spBadIn, (memory_parts h).2.1]

theorem spBadPart_of_memory (h : x.memory = y.memory) (a n : Nat) : x.spBadPart a n = y.spBadPart a n := by
  simp only [Core.spBadPart, (memory_parts h).2.1]

theorem memory_spPut (h : x.memory = y.memory) (a : Nat) (bs : List Byte) : (x.spPut a bs).memory = (y.spPut a bs).memory := by
  induction bs generalizing x y a with
  | nil => exact h
  | cons b bs ih =>
    refine ih ?_ (a + 1)
    rw [(memory_parts h).1]
    exact (memory_withSp h _ x.spBad).trans (by rw [(memory_parts h).2.1])

/-- What a write leaves in the memories depends on what they held. -/
theorem memory_spWrite (h : x.memory = y.memory) (a : Nat) (bs : List Byte) : (x.spWrite a bs).memory = (y.spWrite a bs).memory := by
  have hp := memory_spPut h a bs
  unfold Core.spWrite Core.spClean
  rw [(memory_parts hp).2.1]
  exact (memory_withSp hp (x.spPut a bs).sp _).trans (by rw [(memory_parts hp).1])

/-- What a core's lanes depend on: the vector registers, and whether its run rotates them (R407). -/
def Core.onlyLanes (x : Core) : Core := { Core.reset with vregs := x.vregs, run := x.run }

theorem lane_onlyLanes (x : Core) : x.onlyLanes.lane = x.lane := rfl

theorem onlyLanes_eq (h : x.memory = y.memory) (hr : x.run = y.run) : x.onlyLanes = y.onlyLanes := by
  simp only [Core.onlyLanes, (memory_parts h).2.2, hr]

theorem lane_eq (h : x.memory = y.memory) (hr : x.run = y.run) : x.lane = y.lane := by
  rw [← lane_onlyLanes, onlyLanes_eq h hr, lane_onlyLanes]

end

/-! ### What an issued instruction leaves -/

section
variable {s u v : State} {c w : Nat} {fl : AFlags}

theorem AFlags.word_lt (f : AFlags) : f.word < 2 ^ 64 := by
  have one : ∀ b : Bool, b.toNat ≤ 1 := Bool.toNat_le
  have h1 := one f.inexact
  have h2 := one f.sat
  have h3 := one f.nan
  have h4 := one f.invalid
  have h5 := one f.ainex
  have h6 := one f.tsat
  unfold AFlags.word
  omega

/-- A core replaced and flags joined to CORE_AFLAGS (R125). -/
theorem coreFlags_addFlags (s : State) (c : Nat) (x : Core) (fl : AFlags) : CoreFlags s c fl (addFlags (s.setCore c x) c fl) := by
  refine ⟨?_, fun o ho => reg_setReg_other _ _ fun e => ho ?_, fun d hd => core_setCore_other s x hd, rfl⟩
  · change (((s.setCore c x).setReg (Reg.coreAflags c) _).reg (Reg.coreAflags c)).toNat = _
    rw [reg_setReg_same, BitVec.toNat_ofNat]
    exact Nat.mod_eq_of_lt (Nat.or_lt_two_pow (BitVec.isLt _) fl.word_lt)
  · rw [e, Reg.coreAflags]
    omega

theorem coreOnly_trans (h : CoreOnly s u c) (g : CoreOnly u v c) : CoreOnly s v c := by
  obtain ⟨hreg, hcore, hu⟩ := h
  obtain ⟨greg, gcore, hv⟩ := g
  exact ⟨fun o ho => (greg o ho).trans (hreg o ho), fun d hd => (gcore d hd).trans (hcore d hd), by rw [hv, hu]⟩

/-- An issued instruction that replaced its core by `x` and raised flags leaves the memories and the run of `x`. -/
theorem issueDone_leaves (s : State) (c w : Nat) (x : Core) (fl : AFlags) {k : Nat} (hk : k < 5) (txns slot : Nat)
    (hu : u = issueDone (addFlags ((afterWait s c w).setCore c x) c fl) c k w txns slot) :
    CoreFlags s c fl u ∧ (u.core c).memory = x.memory ∧ (u.core c).run = x.run := by
  subst hu
  have before := courseOnly_afterWait s (c := c) w
  have effect := coreFlags_addFlags (afterWait s c w) c x fl
  have after := courseOnly_issueDone (c := c) (addFlags ((afterWait s c w).setCore c x) c fl) hk w txns slot
  have held : (addFlags ((afterWait s c w).setCore c x) c fl).core c = x := core_setCore_same _ c x
  refine ⟨⟨?_, coreOnly_trans before.1 (coreOnly_trans effect.2 after.1)⟩, ?_, ?_⟩
  · rw [after.2.2, effect.1, before.2.2]
  · rw [after.2.1, held]
  · rw [run_issueDone, held]

/-- An issued instruction that wrote the first lanes of VD. -/
theorem lanesSet_issueDone {ns : List Nat} (hn : ns.length ≤ 512) {res : Nat → Option Nat}
    (hres : ∀ i, i < 512 → res i = ns[i]?.map (· % 2 ^ 32)) (txns slot : Nat) :
    LanesSet s c w res fl
      (issueDone (addFlags ((afterWait s c w).setCore c (((afterWait s c w).core c).setLanes (wVd w) 0 ns)) c fl) c 1 w txns slot) := by
  obtain ⟨flags, mem, run⟩ := issueDone_leaves s c w (((afterWait s c w).core c).setLanes (wVd w) 0 ns) fl (k := 1) (by decide) txns slot rfl
  have before := (courseOnly_afterWait s (c := c) w).2.1
  refine ⟨fun r i hi => ?_, ?_, flags⟩
  · rw [lane_eq mem run, lane_setLanes _ _ _ _ (by omega) hi, lane_eq before (run_afterWait s w), hres i hi]
    simp
  · refine (memory_withVregs mem _).trans ?_
    rw [setLanes_eq]
    exact memory_withVregs before _

/-- An issued instruction that loaded lanes 0 to `n - 1` of VD, lane by lane (R158, R159). -/
theorem lanesSet_loadLanes {n : Nat} (hn : n ≤ 512) (g : Nat → FVal) (txns slot : Nat) :
    LanesSet s c w (fun i => if i < n then some ((g i).1 % 2 ^ 32) else none) (AFlags.all ((List.range n).map (fun i => (g i).2)))
      (issueDone (loadLanes (afterWait s c w) c (wVd w) ((List.range n).map g)) c 1 w txns slot) := by
  unfold loadLanes
  simp only [List.map_map]
  refine lanesSet_issueDone (by simpa using hn) (fun i _ => ?_) txns slot
  by_cases h : i < n <;> simp [h]

end

/-! ### What the word checks of a vector instruction leave (R157, R159, R178) -/

section
variable {k w : Nat} {m : Bool}

theorem firstFault_eq_none {l : List TFault} (h : firstFault l = none) : l = [] := by
  cases l with
  | nil => rfl
  | cons f l =>
    simp only [firstFault] at h
    split at h
    · cases h
    · split at h <;> cases h

theorem whenF_eq_nil {b : Bool} {f : TFault} (h : whenF b f = []) : b = false := by
  cases b
  · rfl
  · cases h

/-- The checks of its form are among the word checks of a vector instruction (R159, R661). -/
theorem vectorForm_of_passes (h : firstFault (wordChecks k m w) = none) (he : wEng w = 2) :
    (1 ≤ wOp w ∧ wOp w ≤ 3 → checkVmem w = []) ∧ (4 ≤ wOp w → checkVreg w = []) := by
  have empty := firstFault_eq_none h
  unfold wordChecks at empty
  simp only [he] at empty
  split at empty
  · cases empty
  · rw [List.append_eq_nil_iff, List.append_eq_nil_iff] at empty
    have form := empty.1.2
    clear empty h
    generalize wOp w = op at form ⊢
    rcases op with _ | _ | _ | _ | op
    · exact ⟨fun h => absurd h.1 (by decide), fun h => absurd h (by decide)⟩
    · exact ⟨fun _ => form, fun h => absurd h (by decide)⟩
    · exact ⟨fun _ => form, fun h => absurd h (by decide)⟩
    · exact ⟨fun _ => form, fun h => absurd h (by decide)⟩
    · exact ⟨fun h => by omega, fun _ => form⟩
/-- A word of the register form that passes names at most 512 lanes. -/
theorem wLen_le_of_passes (h : firstFault (wordChecks k m w) = none) (he : wEng w = 2) (ho : 4 ≤ wOp w) : wLen w ≤ 512 := by
  have len := whenF_eq_nil (List.append_eq_nil_iff.mp ((vectorForm_of_passes h he).2 ho)).2
  rw [decide_eq_false_iff_not] at len
  unfold wLen
  omega

/-- A word of the memory form that passes names at most 512 lanes. -/
theorem memLen_le_of_passes (h : firstFault (wordChecks k m w) = none) (he : wEng w = 2) (ho : 1 ≤ wOp w ∧ wOp w ≤ 3) :
    bitsOf w 80 10 + 1 ≤ 512 := by
  have len := whenF_eq_nil (List.append_eq_nil_iff.mp ((vectorForm_of_passes h he).1 ho)).2
  rw [decide_eq_false_iff_not] at len
  omega

/-- A VLDSC that passes names a format of scales. -/
theorem scaleFormat_of_passes (h : firstFault (wordChecks k m w) = none) (he : wEng w = 2) (ho : wOp w = 3) :
    bitsOf w 76 4 = 0xC ∨ bitsOf w 76 4 = 0xD := by
  have checked := (vectorForm_of_passes h he).1 (by omega)
  simp only [checkVmem, List.append_eq_nil_iff] at checked
  obtain ⟨⟨⟨-, format⟩, -⟩, -⟩ := checked
  have hf := whenF_eq_nil format
  simpa only [ho, if_true, Bool.and_eq_false_iff, decide_eq_false_iff_not, ne_eq, Decidable.not_not] using hf

end

/-! ### The instructions (R158-R165) -/

/-- The elementwise instructions and the defined functions: each with its opcode and its lane's value. -/
def elementwiseRows (core : Fin 96) : List (Instr × Nat × (Core → Nat → Nat → FVal)) :=
  [(Instr.vbc core, 0x04, fun _ w _ => (wImm w, AFlags.none)), (Instr.vadd core, 0x08, laneAdd), (Instr.vsub core, 0x09, laneSub),
    (Instr.vmul core, 0x0A, laneMul), (Instr.vfma core, 0x0B, laneFma), (Instr.vdiv core, 0x0C, laneDiv), (Instr.vsqrt core, 0x0D, laneSqrt),
    (Instr.vmin core, 0x0E, laneMin), (Instr.vmax core, 0x0F, laneMax), (Instr.vabs core, 0x10, laneAbs), (Instr.vneg core, 0x11, laneNeg),
    (Instr.vcmp core, 0x12, laneCmp), (Instr.vsel core, 0x13, laneSel), (Instr.vand core, 0x14, laneBits (· &&& ·)),
    (Instr.vor core, 0x15, laneBits (· ||| ·)), (Instr.vxor core, 0x16, laneBits (· ^^^ ·)),
    (Instr.vshl core, 0x17, laneBits (fun a b => a * 2 ^ (b % 32))), (Instr.vshr core, 0x18, laneShr), (Instr.vcvt core, 0x19, laneCvt),
    (Instr.vqnt core, 0x1A, laneQnt), (Instr.vexp2 core, 0x20, laneFn (fun w => exp2F (wSat w))), (Instr.vlog2 core, 0x21, laneFn (fun _ => log2F)),
    (Instr.vrcp core, 0x22, laneFn (fun _ => rcpF)), (Instr.vrsqrt core, 0x23, laneFn (fun _ => rsqrtF)),
    (Instr.vsigm core, 0x24, laneFn (fun _ => sigmF)), (Instr.vtanh core, 0x25, laneFn (fun _ => tanhF)),
    (Instr.vgelu core, 0x26, laneFn (fun _ => geluF)), (Instr.vexpd core, 0x27, laneExpd)]

/-- A row of `elementwiseRows` issues as the register form does, and its lanes depend on the lanes before alone. -/
structure ElementwiseRow (core : Fin 96) (p : Instr × Nat × (Core → Nat → Nat → FVal)) : Prop where
  issues : ∀ s, exec p.1 s = .next (issueVec core p.2.1 p.2.2 s)
  form : 4 ≤ p.2.1
  lanes : ∀ x w i, p.2.2 x w i = p.2.2 x.onlyLanes w i

theorem elementwiseRow {core : Fin 96} : ∀ p ∈ elementwiseRows core, ElementwiseRow core p := by
  unfold elementwiseRows
  iterate 28 refine List.forall_mem_cons.mpr ⟨⟨fun _ => rfl, Nat.le_of_ble_eq_true rfl, fun _ _ _ => rfl⟩, ?_⟩
  exact fun _ h => nomatch h

/-- The reductions: each with its opcode, its leaf, its node and the identities of FP32 and of INT32. -/
def reductionRows (core : Fin 96) : List (Instr × Nat × (Nat → Nat → FVal) × (Nat → Nat → Nat → FVal) × Nat × Nat) :=
  [(Instr.vrsum core, 0x30, leafSelf, nodeSum, 0, 0), (Instr.vrmax core, 0x31, leafSelf, nodeMax, 0xFF800000, 0x80000000),
    (Instr.vrmin core, 0x32, leafSelf, nodeMin, 0x7F800000, 0x7FFFFFFF), (Instr.vrssq core, 0x33, leafSquare, nodeSum, 0, 0)]

theorem exec_reductionRow {core : Fin 96} (s : State) : ∀ p ∈ reductionRows core,
    exec p.1 s = .next (issueRed core p.2.1 p.2.2.1 p.2.2.2.1 p.2.2.2.2.1 p.2.2.2.2.2 s) := by
  simp only [reductionRows, List.forall_mem_cons]
  exact ⟨rfl, rfl, rfl, rfl, fun _ h => nomatch h⟩

section
variable {s : State} {core : Fin 96} {w : Nat}

/-- A ready vector head issues with its effect. -/
theorem issueIf_vector {c op : Nat} (h : HeadReady s c 1 w noChecks) (he : wEng w = 2) (ho : wOp w = op)
    {effect : State → Nat → Effect} {u : State} (hu : effect (afterWait s c w) w = (u, .ok 0)) :
    issueIf s c 1 2 op noChecks effect = issueDone u c 1 w 0 (wordSlot (afterWait s c w) c w) := by
  have issued := issueIf_ready h hu
  rwa [he, ho] at issued

/-- The core's memories, and so its lanes, are those before when the effect begins. -/
theorem memory_afterWait (s : State) (c w : Nat) : ((afterWait s c w).core c).memory = (s.core c).memory := (courseOnly_afterWait s w).2.1

theorem onlyLanes_afterWait (s : State) (c w : Nat) : ((afterWait s c w).core c).onlyLanes = (s.core c).onlyLanes :=
  onlyLanes_eq (memory_afterWait s c w) (run_afterWait s w)

theorem answers_elementwise {p : Instr × Nat × (Core → Nat → Nat → FVal)} (hp : ElementwiseRow core p) (h : HeadReady s core.val 1 w noChecks)
    (he : wEng w = 2) (ho : wOp w = p.2.1) :
    Answers p.1 s (LanesSet s core.val w (fun i => if i < wLen w then some ((p.2.2 (s.core core.val) w i).1 % 2 ^ 32) else none)
      (AFlags.all ((List.range (wLen w)).map (fun i => (p.2.2 (s.core core.val) w i).2)))) := by
  have lanes : p.2.2 ((afterWait s core.val w).core core.val) w = p.2.2 (s.core core.val) w := funext fun i => by
    rw [hp.lanes, onlyLanes_afterWait, ← hp.lanes]
  have effect : lanesEffect core.val p.2.2 (afterWait s core.val w) w =
      (loadLanes (afterWait s core.val w) core.val (wVd w) ((List.range (wLen w)).map (p.2.2 (s.core core.val) w)), .ok 0) := by
    rw [lanesEffect, lanes]
    rfl
  refine ⟨_, hp.issues s, ?_⟩
  rw [issueVec, issueIf_vector h he ho effect]
  exact lanesSet_loadLanes (wLen_le_of_passes h.passes he (ho ▸ hp.form)) _ _ _

theorem answers_reduction {p : Instr × Nat × (Nat → Nat → FVal) × (Nat → Nat → Nat → FVal) × Nat × Nat}
    (hp : exec p.1 s = .next (issueRed core p.2.1 p.2.2.1 p.2.2.2.1 p.2.2.2.2.1 p.2.2.2.2.2 s)) (h : HeadReady s core.val 1 w noChecks)
    (he : wEng w = 2) (ho : wOp w = p.2.1) {r : FVal} (hr : r = reduction (s.core core.val) w p.2.2.1 p.2.2.2.1 p.2.2.2.2.1 p.2.2.2.2.2) :
    Answers p.1 s (LanesSet s core.val w (fun i => some (if i = 0 then r.1 % 2 ^ 32 else 0)) r.2) := by
  have root : reduction ((afterWait s core.val w).core core.val) w p.2.2.1 p.2.2.2.1 p.2.2.2.2.1 p.2.2.2.2.2 = r := by
    have lanes : ∀ x : Core, reduction x = reduction x.onlyLanes := fun _ => rfl
    rw [hr, lanes, onlyLanes_afterWait, ← lanes]
  have effect : reduceEffect core.val p.2.2.1 p.2.2.2.1 (fun w => if wInt w then p.2.2.2.2.2 else p.2.2.2.2.1) (afterWait s core.val w) w =
      (addFlags ((afterWait s core.val w).setCore core.val (((afterWait s core.val w).core core.val).setLanes (wVd w) 0
        (r.1 :: List.replicate 511 0))) core.val r.2, .ok 0) := by
    rw [← root]
    rfl
  refine ⟨_, hp, ?_⟩
  rw [issueRed, issueIf_vector h he ho effect]
  refine lanesSet_issueDone (Nat.le_of_eq (by rw [List.length_cons, List.length_replicate])) (fun i hi => ?_) _ _
  cases i with
  | zero => rfl
  | succ i =>
    rw [List.getElem?_cons_succ, List.getElem?_replicate, if_pos (show i < 511 by omega)]
    rfl

/-- VLD (R159): the elements of scratchpad that its word names, one to a lane. -/
theorem answers_vld (h : HeadReady s core.val 1 w noChecks) (he : wEng w = 2) (ho : wOp w = 1)
    (hb : (s.core core.val).spBadIn (bitsOf w 53 23) (packedBytes (bitsOf w 76 4) (bitsOf w 80 10 + 1)) = none) {e : Nat → FVal}
    (hl : e = (fun i => laneOfElem (bitsOf w 76 4) (elemAt (bitsOf w 76 4) ((s.core core.val).spRead (bitsOf w 53 23)
      (packedBytes (bitsOf w 76 4) (bitsOf w 80 10 + 1))) i))) :
    Answers (.vld core .clean) s (LanesSet s core.val w (fun i => if i ≤ bitsOf w 80 10 then some ((e i).1 % 2 ^ 32) else none)
      (AFlags.all ((List.range (bitsOf w 80 10 + 1)).map (fun i => (e i).2)))) := by
  have mem := memory_afterWait s core.val w
  have effect : vldEffect core.val .clean (afterWait s core.val w) w =
      (loadLanes (afterWait s core.val w) core.val (wVd w) ((List.range (bitsOf w 80 10 + 1)).map e), .ok 0) := by
    simp only [vldEffect, takeEcc, spFetch, spBadIn_of_memory mem, hb, spRead_of_memory mem, unpackElems, List.map_map, hl]
    rfl
  refine ⟨_, rfl, ?_⟩
  rw [issueIf_vector h he ho effect]
  simpa only [Nat.lt_succ_iff] using lanesSet_loadLanes (memLen_le_of_passes h.passes he (by omega)) e 0 _

/-- VLDSC (R159): the scales of scratchpad that its word names, each to the lanes of its block. -/
theorem answers_vldsc (h : HeadReady s core.val 1 w noChecks) (he : wEng w = 2) (ho : wOp w = 3)
    (hb : (s.core core.val).spBadIn (bitsOf w 53 23) ((bitsOf w 80 10 + blockLen (bitsOf w 76 4)) / blockLen (bitsOf w 76 4)) = none)
    {e : Nat → FVal} (hl : e = (fun i => putF32 0 true (decodeNum (bitsOf w 76 4)
      ((s.core core.val).spByte (bitsOf w 53 23 + i / blockLen (bitsOf w 76 4))).toNat, false))) :
    Answers (.vldsc core .clean) s (LanesSet s core.val w (fun i => if i ≤ bitsOf w 80 10 then some ((e i).1 % 2 ^ 32) else none)
      (AFlags.all ((List.range (bitsOf w 80 10 + 1)).map (fun i => (e i).2)))) := by
  have mem := memory_afterWait s core.val w
  have format := scaleFormat_of_passes h.passes he ho
  have block : 0 < blockLen (bitsOf w 76 4) := by unfold blockLen; split <;> decide
  have scale : ∀ x, laneOfElem (bitsOf w 76 4) x = putF32 0 true (decodeNum (bitsOf w 76 4) x, false) := by
    rcases format with hf | hf <;> rw [hf] <;> exact fun _ => rfl
  have bytes : (bitsOf w 80 10 + 1 + blockLen (bitsOf w 76 4) - 1) / blockLen (bitsOf w 76 4) =
      (bitsOf w 80 10 + blockLen (bitsOf w 76 4)) / blockLen (bitsOf w 76 4) := by
    congr 1
    omega
  have effect : vldscEffect core.val .clean (afterWait s core.val w) w =
      (loadLanes (afterWait s core.val w) core.val (wVd w) ((List.range (bitsOf w 80 10 + 1)).map e), .ok 0) := by
    simp only [vldscEffect, takeEcc, spFetch, spBadIn_of_memory mem, bytes, hb, spRead_of_memory mem, hl]
    congr 2
    refine List.map_congr_left fun i hi => ?_
    have inside : i / blockLen (bitsOf w 76 4) < (bitsOf w 80 10 + blockLen (bitsOf w 76 4)) / blockLen (bitsOf w 76 4) := by
      rw [Nat.add_div_right _ block]
      exact Nat.lt_succ_of_le (Nat.div_le_div_right (Nat.lt_succ_iff.mp (List.mem_range.mp hi)))
    simp [scale, Core.spRead, inside]
  refine ⟨_, rfl, ?_⟩
  rw [issueIf_vector h he ho effect]
  simpa only [Nat.lt_succ_iff] using lanesSet_loadLanes (memLen_le_of_passes h.passes he (by omega)) e 0 _

/-- A VST whose elements meet no uncorrectable word that they cover in part leaves them in scratchpad (R94, R159). -/
theorem answers_vst (h : HeadReady s core.val 1 w noChecks) (he : wEng w = 2) (ho : wOp w = 2) {rs : List FVal}
    (hrs : rs = (List.range (bitsOf w 80 10 + 1)).map (fun i => if fmtWidth (bitsOf w 76 4) = 32 then ((s.core core.val).lane (wVd w) i, AFlags.none)
      else convertNum (bitsOf w 76 4) (bitsOf w 90 2) (decide (bitsOf w 92 1 = 1))
        (if isIntFmt (bitsOf w 76 4) then numOfInt (i32 ((s.core core.val).lane (wVd w) i)) else f32 ((s.core core.val).lane (wVd w) i))))
    (hb : (s.core core.val).spBadPart (bitsOf w 53 23) (packElems (bitsOf w 76 4) (rs.map (·.1))).length = none) :
    Answers (.vst core .clean) s (fun u => (u.core core.val).memory = ((s.core core.val).spWrite (bitsOf w 53 23)
      (packElems (bitsOf w 76 4) (rs.map (·.1)))).memory ∧ CoreFlags s core.val (AFlags.all (rs.map (·.2))) u) := by
  have mem := memory_afterWait s core.val w
  have lanes : ((afterWait s core.val w).core core.val).lane = (s.core core.val).lane := lane_eq mem (run_afterWait s w)
  have effect : vstEffect core.val .clean (afterWait s core.val w) w =
      (addFlags ((afterWait s core.val w).setCore core.val (((afterWait s core.val w).core core.val).spWrite (bitsOf w 53 23)
        (packElems (bitsOf w 76 4) (rs.map (·.1))))) core.val (AFlags.all (rs.map (·.2))), .ok 0) := by
    have stored : (if fmtWidth (bitsOf w 76 4) = 32 then
          ((List.range (bitsOf w 80 10 + 1)).map ((s.core core.val).lane (wVd w))).map (fun a => ((a, AFlags.none) : FVal))
        else ((List.range (bitsOf w 80 10 + 1)).map ((s.core core.val).lane (wVd w))).map (fun a => convertNum (bitsOf w 76 4) (bitsOf w 90 2)
          (decide (bitsOf w 92 1 = 1)) (if isIntFmt (bitsOf w 76 4) then numOfInt (i32 a) else f32 a))) = rs := by
      subst hrs
      split <;> simp only [List.map_map] <;> rfl
    simp only [vstEffect, takeEcc, lanes, stored, spStore, spBadPart_of_memory mem, hb]
  obtain ⟨flags, left, -⟩ := issueDone_leaves s core.val w (((afterWait s core.val w).core core.val).spWrite (bitsOf w 53 23)
    (packElems (bitsOf w 76 4) (rs.map (·.1)))) (AFlags.all (rs.map (·.2))) (k := 1) (by decide) 0
    (wordSlot (afterWait s core.val w) core.val w) rfl
  refine ⟨_, rfl, ?_⟩
  rw [issueIf_vector h he ho effect]
  exact ⟨left.trans (memory_spWrite mem _ _), flags⟩

end

theorem AFlags.all_none (n : Nat) : AFlags.all (List.replicate n AFlags.none) = AFlags.none := by
  have step : ∀ l : List AFlags, (∀ f ∈ l, f = AFlags.none) → l.foldl AFlags.or AFlags.none = AFlags.none := by
    intro l hl
    induction l with
    | nil => rfl
    | cons f l ih =>
      rw [List.foldl_cons, hl f List.mem_cons_self]
      exact ih fun g hg => hl g (List.mem_cons_of_mem f hg)
  exact step _ fun f hf => List.eq_of_mem_replicate hf

theorem leBytes_length (n v : Nat) : (leBytes n v).length = n := by
  induction n generalizing v with
  | zero => rfl
  | succ n ih => rw [leBytes, List.length_cons, ih]

/-- Elements of 32 bits are four bytes each (R46). -/
theorem packElems_length_wide {f : Nat} (hf : fmtWidth f = 32) (xs : List Nat) : (packElems f xs).length = 4 * xs.length := by
  rw [packElems, leBytes_length, packedBytes, if_neg (by omega), hf]
  omega

/-- Settles O6: every vector instruction that issues changes beside its own effect the course of its program alone. -/
theorem vectorInstructions : Obligations.VectorInstructions := by
  refine ⟨fun s core w p hp h he ho => answers_elementwise (elementwiseRow p hp) h he ho,
    fun s core w p hp h he ho => answers_reduction (exec_reductionRow s p hp) h he ho rfl,
    fun s core w h he ho hb e hl => answers_vld h he ho hb hl, fun s core w h he ho hb e hl => answers_vldsc h he ho hb hl,
    fun s core w h he ho hf hb => ?_, fun s core w h he ho hf rs hrs hb => answers_vst h he ho (by simp only [hrs, if_neg hf]) hb⟩
  have stored := answers_vst h he ho (rs := (List.range (bitsOf w 80 10 + 1)).map fun i => ((s.core core.val).lane (wVd w) i, AFlags.none))
    (by simp only [if_pos hf])
  simp only [List.map_map, packElems_length_wide hf, List.length_map, List.length_range] at stored
  have none : AFlags.all ((List.range (bitsOf w 80 10 + 1)).map fun _ => AFlags.none) = AFlags.none := by
    rw [List.map_const', AFlags.all_none]
  exact none ▸ stored hb

end Sys2Proof.Machine
end

section
/-! SUPPORT. Register writes (00_scope.md, 03_cores_and_arrays.md): an aligned write of a 64-bit register, as its block takes it. -/

namespace Sys2Proof.Machine

/-- An aligned 64-bit write of a 64-bit register is one write of it (R11, R12). -/
theorem exec_csrWrite_wide (s : State) (acc : Accessor) {off : BitVec 28} (v : BitVec 64) (t : Nat) {r : RegRow} (ha : off.toNat % 8 = 0)
    (hr : row64 off.toNat = some r) :
    exec (.csrWrite acc off true v t) s = .next (writeReg (s.at t) (writerOf acc) r off.toNat v.toNat t) := by
  change Host.Outcome.next (csrWriteAt (s.at t) (writerOf acc) off.toNat true v.toNat t) = _
  simp only [csrWriteAt, if_true, ha, ne_eq, not_true_eq_false, if_false, Bool.not_true, Bool.false_eq_true, hr, Nat.mod_eq_of_lt v.isLt]

/-- Management writes the PUNTY and the LEHRB table under their access codes (R453, R500). -/
theorem writeReg_ident_managed (s : State) {who : Ident} (r : RegRow) {off : Nat} (v t : Nat) (hw : mgmt who = true)
    (hb : blockNo off = 8 ∨ blockNo off = 5) : writeReg s (writerOf (.ident who)) r off v t = writeFields s (writerOf (.ident who)) r off v := by
  have manages : (writerOf (.ident who)).manages = true := by simp [writerOf, Writer.manages, hw]
  have ident : (writerOf (.ident who)).port = false := rfl
  rcases hb with hb | hb <;>
    simp only [writeReg, ident, hb, Bool.false_and, Bool.false_eq_true, if_false, manages, if_true]

/-- A core's register takes the debug access port's write by the core's own rules (R100, R186, R206). -/
theorem writeReg_debugPort_core (s : State) (r : RegRow) {off : Nat} (v t : Nat) (hb : blockNo off = 13) :
    writeReg s (writerOf .debugPort) r off v t = writeCore s (writerOf .debugPort) r off v t := by
  simp only [writeReg, hb, ne_eq, not_true_eq_false, decide_false, Bool.and_false, Bool.false_eq_true, if_false]

/-- No other register takes a write of the debug access port. -/
theorem writeReg_debugPort_other (s : State) (r : RegRow) {off : Nat} (v t : Nat) (hb : blockNo off ≠ 13) :
    writeReg s (writerOf .debugPort) r off v t = s := by
  have port : (writerOf .debugPort).port = true := rfl
  simp only [writeReg, port, ne_eq, hb, not_false_eq_true, decide_true, Bool.and_true, if_true]

/-- Settles O56: the write is one write of its register, which the block takes by the rules of its writer. -/
theorem registerWritesComplete : Obligations.RegisterWritesComplete := by
  refine ⟨fun s who off v t r hw hb ha hr => ?_, fun s off v t r ha hr hb => ?_, fun s off v t r ha hr hb => ?_⟩
  · rw [exec_csrWrite_wide s _ v t ha hr, writeReg_ident_managed _ r _ t hw hb]
  · rw [exec_csrWrite_wide s _ v t ha hr, writeReg_debugPort_core _ r _ t hb]
  · rw [exec_csrWrite_wide s _ v t ha hr, writeReg_debugPort_other _ r _ t hb]

end Sys2Proof.Machine
end

section
/-! SUPPORT. Cores and debug (03_cores_and_arrays.md): a TPSTEP while the core's memories are being
cleared, and a restart while Bench has still to take a fault. -/

namespace Sys2Proof.Machine

/-! ### A step of a core whose memories are being cleared (R110, R186) -/

/-- NOP without wait and signal. -/
def plainNop : BitVec 128 := fieldsWord [(0, 6), (3, 1)]

/-- Core 5 dispatched for another partition: its memories are being cleared, its program begins with a NOP, debug scope 0 is unlocked, and the debug
access port writes HALTREQ. -/
def clearingStart : State :=
  { ((State.reset.setRegBit Reg.devDbgstat 0 true).setCoreSt 5 .run).setCore 5 { Core.reset with
      clearing := true, streams := List.replicate 5 ⟨0, 9, 0, false, false⟩, buf := [(0, some plainNop)] } with
    pending := [.haltreq .debugPort 5 0] }

/-- The state after the halt, the clearing not yet done. -/
def clearingHalt : State := (stepsTo 1 clearingStart).get (by decide +kernel)

/-- R110: a TPSTEP there steps nothing. -/
theorem exec_tpstep_clearingHalt : exec (.tpstep .debugPort 5 0#3 ⟨.clean, .clean, false⟩) clearingHalt = .next clearingHalt := by
  have clearing : (clearingHalt.core (5 : Fin 96).val).clearing = true := by decide +kernel
  change execTpstep .debugPort 5 0#3 ⟨.clean, .clean, false⟩ clearingHalt = _
  unfold execTpstep
  exact (if_neg Bool.false_ne_true).trans (if_pos (.inr (.inr (.inr (.inl clearing)))))

theorem nextWord_clearingHalt : clearingHalt.nextWord 5 0 = 0 := by decide +kernel

/-- A step of the NOP would pass it. -/
theorem nextWord_stepHead_clearingHalt :
    (moveHaltPoint (stepHead clearingHalt 5 0 ⟨.clean, .clean, false⟩ plainNop.toNat) 5).nextWord 5 0 = 1 := by decide +kernel

/-- Refutes O10: its clause of TPSTEP supposes nothing of the clearing of the core's memories (R110), which a core may be halted in. In `clearingHalt`
a TPSTEP steps nothing, where the clause has the NOP issued. -/
theorem not_debugCommands : ¬ Obligations.DebugCommands := by
  rintro ⟨-, -, -, -, step, -⟩
  have answer := step clearingHalt .debugPort 5 0#3 ⟨.clean, .clean, false⟩ plainNop rfl (by decide +kernel) (by decide +kernel) (by decide)
    (by decide +kernel)
  have same := Host.Outcome.next.inj (exec_tpstep_clearingHalt.symm.trans answer)
  have stepped : clearingHalt.nextWord 5 0 = 1 := by
    rw [same]
    exact nextWord_stepHead_clearingHalt
  exact absurd (nextWord_clearingHalt.symm.trans stepped) (by decide)

/-! ### The restart of a core whose fault Bench has still to take (R373, R663) -/

/-- VLD of two FP32 lanes from byte 128, the lower in scratchpad word 16. -/
def wordVld : BitVec 128 := fieldsWord [(0, 2), (3, 1), (53, 128), (76, 0xB), (80, 1)]

/-- A running command of class S. -/
def tiedCmd : Cmd :=
  ⟨0, 0, 0, 0, [], .running, 0, false, false, none, none, none, [], [], false, none, none, false, false, [], false, [], [], 0, 0, none, [], none⟩

/-- Frame 7: core 5, which Lehr A has charged in frames 5 and 6, executes a tie-break run that begins with a VLD, and the VLD meets an uncorrectable
word. -/
def tieStart : State :=
  { ((State.reset.setCoreSt 5 .run).setReg Reg.devFrmcnt 7).setCore 5 { Core.reset with
      streams := List.replicate 5 ⟨0, 9, 0, false, false⟩, buf := [(2 ^ 24, some wordVld)], run := ⟨.tiebreak, 0, 7, 0⟩ } with
    bench := { State.reset.bench with ties := [⟨tiedCmd, 0, 3, 4, some 5⟩] }
    lehrA := { State.reset.lehrA with charges := [(5, [5, 6])] }
    pending := [.vld 5 (.uncorrectable 16)] }

/-- The state after the VLD, a reset of die 0 requested before it. Its fault is the third charge, which quarantines core 5 (R428, R430), and Bench
has still to take the fault. -/
def unreportedFault : State := (stepsTo 1 (startReset 2 0 11 true tieStart)).get (by decide +kernel)

/-- R373: Bench hears of the fault before Lehr A restarts the core. -/
theorem exec_quarantineRestart_unreportedFault : exec (.quarantineRestart 5 0) unreportedFault = .next (unreportedFault.at 0) := by
  have due : reportDue (unreportedFault.at 0) (5 : Fin 96).val = true := by decide +kernel
  change execQuarantineRestart 5 0 unreportedFault = _
  unfold execQuarantineRestart
  exact if_pos (.inr (.inr due))

theorem coreSt_unreportedFault : unreportedFault.coreSt 5 = .quarantine := by decide +kernel

/-- A restart would have the core in RESET. -/
theorem coreSt_enterReset_unreportedFault : (enterReset (unreportedFault.at 0) 5).coreSt 5 = .reset := by decide +kernel

/-- Refutes O9: its clause of QUARANTINE_RESTART supposes nothing of an end or a fault that Bench has still to take (R373). In `unreportedFault` the
restart waits for Bench, where the clause has core 5 in RESET. -/
theorem not_coreStateCommands : ¬ Obligations.CoreStateCommands := by
  rintro ⟨-, -, -, -, -, -, restart, -⟩
  have answer := restart unreportedFault 5 0 coreSt_unreportedFault (by decide +kernel) (by decide +kernel) (by decide +kernel)
  have same := Host.Outcome.next.inj (exec_quarantineRestart_unreportedFault.symm.trans answer)
  have entered : unreportedFault.coreSt 5 = .reset := by
    rw [← State.coreSt_at unreportedFault 5 0, same]
    exact coreSt_enterReset_unreportedFault
  exact absurd (coreSt_unreportedFault.symm.trans entered) (by decide)

end Sys2Proof.Machine
end

section
/-! SUPPORT. Moves and the sequencer (04_tile_programs.md): which program a core executes, and how far its streams have come, as an instruction issues;
the message that STSIG sends. -/

namespace Sys2Proof.Machine

/-! ### The progress of a program (R133, R141, R171) -/

/-- What a stream has reached: its highest marker, and whether it has ended. -/
def Stream.progress (t : Stream) : Nat × Bool := (t.marker, t.ended)

/-- What the streams of a core have reached. -/
def Core.progress (x : Core) : List (Nat × Bool) := x.streams.map Stream.progress

theorem progress_stream (x : Core) (k : Nat) : (x.stream k).progress = x.progress.getD k (0, true) := by
  unfold Core.stream Core.progress
  rw [List.getD_eq_getElem?_getD, List.getD_eq_getElem?_getD, List.getElem?_map]
  cases x.streams[k]? with
  | none => rfl
  | some t => rfl

theorem stream_setStream_same (x : Core) {k : Nat} (v : Stream) (hk : k < x.streams.length) : (x.setStream k v).stream k = v := by
  simp [Core.stream, Core.setStream, hk]

/-- A stream that stays where it was in its progress. -/
theorem progress_setStream (x : Core) {k : Nat} {v : Stream} (hv : v.progress = (x.stream k).progress) : (x.setStream k v).progress = x.progress := by
  unfold Core.progress Core.setStream
  rw [List.map_set, hv]
  refine List.ext_getElem (by simp) fun i hi _ => ?_
  rw [List.getElem_set]
  split
  · next e =>
    subst e
    have inside : k < x.streams.length := by simpa using hi
    simp [Core.stream, inside]
  · rfl

theorem length_streams_of_progress {x y : Core} (h : x.progress = y.progress) : x.streams.length = y.streams.length := by
  simpa [Core.progress] using congrArg List.length h

/-- Between two states core `c` executes the same program, its streams have reached the same, and CORE_TPCKPT shows the same marker (R126, R183). -/
structure ProgramKept (s u : State) (c : Nat) : Prop where
  progress : (u.core c).progress = (s.core c).progress
  shown : u.regFld (Reg.coreTpckpt c) 0 24 = s.regFld (Reg.coreTpckpt c) 0 24
  cmd : u.reg (Reg.coreCmd c) = s.reg (Reg.coreCmd c)

section
variable {s t u : State} {c k : Nat}

theorem ProgramKept.refl (s : State) (c : Nat) : ProgramKept s s c := ⟨rfl, rfl, rfl⟩

theorem ProgramKept.trans (h : ProgramKept s t c) (g : ProgramKept t u c) : ProgramKept s u c :=
  ⟨g.progress.trans h.progress, g.shown.trans h.shown, g.cmd.trans h.cmd⟩

theorem ProgramKept.stream (h : ProgramKept s u c) (k : Nat) : ((u.core c).stream k).progress = ((s.core c).stream k).progress := by
  rw [progress_stream, progress_stream, h.progress]

theorem ProgramKept.ended (h : ProgramKept s u c) (k : Nat) : ((u.core c).stream k).ended = ((s.core c).stream k).ended :=
  congrArg Prod.snd (h.stream k)

theorem ProgramKept.marker (h : ProgramKept s u c) (k : Nat) : ((u.core c).stream k).marker = ((s.core c).stream k).marker :=
  congrArg Prod.fst (h.stream k)

/-- Another register than the two. -/
theorem programKept_setReg (s : State) {off : Nat} (v : Word) (ht : Reg.coreTpckpt c ≠ off) (hc : Reg.coreCmd c ≠ off) :
    ProgramKept s (s.setReg off v) c :=
  ⟨rfl, regFld_setReg_other s v 0 24 ht, reg_setReg_other s v hc⟩

/-- A bit of CORE_TPCKPT above the marker. -/
theorem programKept_setCkptBit (s : State) {i : Nat} (b : Bool) (h24 : 24 ≤ i) (hi : i < 64) :
    ProgramKept s (s.setRegBit (Reg.coreTpckpt c) i b) c :=
  ⟨rfl, regFld_setRegBit_other s _ b hi (.inr h24), reg_setRegBit_other s i b (by simp only [Reg.coreCmd, Reg.coreTpckpt]; omega)⟩

/-- The core itself, its streams where they were. -/
theorem programKept_setCore (s : State) {x : Core} (h : x.progress = (s.core c).progress) : ProgramKept s (s.setCore c x) c :=
  ⟨by rw [core_setCore_same, h], rfl, rfl⟩

theorem programKept_ite {p : Prop} [Decidable p] (h : ProgramKept s t c) (g : ProgramKept s u c) : ProgramKept s (if p then t else u) c := by
  split
  · exact h
  · exact g

/-! ### What keeps it -/

variable (s)

theorem programKept_accrue : ProgramKept s (accrue s c) c := by
  unfold accrue
  refine programKept_ite ((programKept_setCore s (by rfl)).trans (programKept_setReg _ _ ?_ ?_)) (.refl s c) <;>
    simp only [Reg.coreBusyns, Reg.coreTpckpt, Reg.coreCmd] <;> omega

theorem programKept_syncTpstat : ProgramKept s (syncTpstat s c) c := by
  unfold syncTpstat
  refine (programKept_setReg s _ ?_ ?_).trans (programKept_setReg _ _ ?_ ?_) <;>
    simp only [Reg.coreOutst, Reg.coreTpstat, Reg.coreTpckpt, Reg.coreCmd] <;> omega

theorem programKept_stopStreams : ProgramKept s (stopStreams s c) c := by
  unfold stopStreams
  refine (programKept_accrue s).trans ((programKept_setCore _ (by rfl)).trans ((programKept_setReg _ _ ?_ ?_).trans (programKept_setReg _ _ ?_ ?_))) <;>
    simp only [Reg.coreOutst, Reg.coreTpstat, Reg.coreTpckpt, Reg.coreCmd] <;> omega

theorem programKept_setCoreSt (st : CoreSt) : ProgramKept s (s.setCoreSt c st) c := by
  have ht : Reg.coreTpckpt c ≠ Reg.coreState c := by simp only [Reg.coreState, Reg.coreTpckpt]; omega
  have hc : Reg.coreCmd c ≠ Reg.coreState c := by simp only [Reg.coreState, Reg.coreCmd]; omega
  exact programKept_setReg s _ ht hc

/-- A fault that charges no core stops the streams where they are. -/
theorem programKept_tileFault (eng word : Nat) {f : TFault} (h : f.quiet = true) : ProgramKept s (tileFault s c eng word f) c := by
  simp only [TFault.quiet, Bool.and_eq_true, decide_eq_true_eq] at h
  unfold tileFault
  extract_lets aux s1 s2 s3 held s4
  have uncharged : s2 = s1 := (if_neg h.1).trans (if_neg h.2)
  have recorded : ProgramKept s s1 c := by
    refine (programKept_setReg s _ ?_ ?_).trans (programKept_setReg _ _ ?_ ?_) <;>
      simp only [Reg.coreFault, Reg.coreTpfaux, Reg.coreTpckpt, Reg.coreCmd] <;> omega
  have stopped : ProgramKept s2 s3 c := (programKept_stopStreams s2).trans (programKept_setCkptBit _ _ (by decide) (by decide))
  have stamped : ProgramKept s3 s4 c := programKept_setCore s3 (by rfl)
  rw [uncharged] at stopped
  exact recorded.trans <| stopped.trans <| stamped.trans <|
    (programKept_ite (.refl s4 c) (programKept_setCoreSt s4 _)).trans (programKept_syncTpstat _)

theorem programKept_stepFaults {l : List (Nat × Nat × TFault)} (h : ∀ p ∈ l, p.2.2.quiet = true) : ProgramKept s (stepFaults s c l) c := by
  unfold stepFaults
  split
  · exact .refl s c
  · next e =>
    refine (programKept_tileFault s _ _ (h _ (List.mem_of_find?_eq_some e))).trans (programKept_setReg _ _ ?_ ?_) <;>
      simp only [Reg.coreTpfcnt, Reg.coreTpckpt, Reg.coreCmd] <;> omega

theorem programKept_headCheck (k : Nat) : ProgramKept s (headCheck s c k) c := by
  unfold headCheck
  split
  · exact .refl s c
  · next e => exact programKept_tileFault s _ _ (headFault_quiet e)

theorem programKept_giveRecord : ProgramKept s (giveRecord s c) c := by
  unfold giveRecord
  exact programKept_ite (.refl s c) (programKept_ite (programKept_setCore s rfl) (.refl s c))

theorem programKept_mapRecord (f : PendRec → PendRec) : ProgramKept s (mapRecord s c f) c := programKept_setCore s rfl

/-- The sync counters lie beside the two registers. -/
theorem programKept_sync (n v : Nat) : ProgramKept s (s.setRegFld (Reg.coreSync c n) 0 32 v) c := by
  refine programKept_setReg s _ ?_ ?_ <;> simp only [Reg.coreSync, Reg.coreTpckpt, Reg.coreCmd] <;> omega

theorem programKept_setSync (n v : Nat) : ProgramKept s (s.setSync c n v) c := by
  unfold State.setSync
  exact programKept_ite (programKept_setCore s rfl) (programKept_sync s n v)

theorem programKept_takeWait (n amt : Nat) : ProgramKept s (takeWait s c n amt) c := by
  unfold takeWait
  exact programKept_ite ((programKept_mapRecord s _).trans (programKept_sync _ n _)) (programKept_setSync s n _)

theorem programKept_applySignal (n amt : Nat) : ProgramKept s (applySignal s c n amt) c := by
  unfold applySignal
  exact programKept_ite ((programKept_giveRecord s).trans (programKept_mapRecord _ _)) (programKept_setSync s n _)

theorem programKept_afterWait (w : Nat) : ProgramKept s (afterWait s c w) c := by
  have judged : ProgramKept s (atWait s c w) c := by
    unfold atWait
    exact programKept_ite (programKept_giveRecord s) (.refl s c)
  unfold afterWait
  exact programKept_ite (judged.trans (programKept_takeWait _ _ _)) judged

theorem programKept_raiseAll (l : List InFlight) : ProgramKept s (raiseAll s c l) c := by
  induction l generalizing s with
  | nil => exact .refl s c
  | cons e es ih =>
    refine programKept_ite (programKept_setCore s rfl) (programKept_ite (programKept_stepFaults s fun p hp => ?_)
      ((programKept_applySignal s _ _).trans (ih _)))
    obtain ⟨_, _, rfl⟩ := List.mem_map.mp hp
    rfl

theorem programKept_flush (k : Nat) : ProgramKept s (flush s c k) c :=
  (programKept_setCore s (by rfl)).trans (programKept_raiseAll _ _)

/-- The issue of an instruction, beside its own effect, leaves the program and what its streams have reached, though a signal may fault it. -/
theorem programKept_issueDone (hk : k < 5) (w txns slot : Nat) : ProgramKept s (issueDone s c k w txns slot) c := by
  unfold issueDone
  extract_lets eng idx s1 x0 st x entry s2
  have moved : ProgramKept s s1 c := by
    refine programKept_setReg s _ ?_ ?_ <;> simp only [tpword, Reg.coreTpword0, Reg.coreTpckpt, Reg.coreCmd] <;> omega
  have passed : x.progress = x0.progress := by
    refine (apply_ite Core.progress _ _ _).trans ?_
    rw [progress_setStream x0 (k := k) (by rfl), ite_self]
  have entered : ProgramKept s1 s2 c := (programKept_setCore s1 (by exact passed)).trans (programKept_flush _ k)
  exact (moved.trans entered).trans ((programKept_ite (.refl s2 c) (programKept_headCheck s2 k)).trans (programKept_syncTpstat _))

end

/-! ### Instructions that issue -/

section
variable {s u : State} {c k w n : Nat} {checks : State → Nat → List TFault} {effect : State → Nat → Effect}

/-- A ready head with the ENG and OP of the command issues with its effect. -/
theorem issueIf_issues {eng op : Nat} (h : HeadReady s c k w checks) (he : wEng w = eng) (ho : wOp w = op)
    (hu : effect (afterWait s c w) w = (u, .ok n)) :
    issueIf s c k eng op checks effect = issueDone u c k w n (wordSlot (afterWait s c w) c w) := by
  subst he ho
  exact issueIf_ready h hu

/-- R384: a step that finds room for what it stages is made. -/
theorem orWait_roomy {s' : State} (h : stageWaits s s' = false) : orWait s s' = s' := by
  simp [orWait, h]

/-- A store that issues and finds room for what it stages. -/
theorem orWait_issueIf {eng op : Nat} (h : HeadReady s c k w checks) (he : wEng w = eng) (ho : wOp w = op)
    (hu : effect (afterWait s c w) w = (u, .ok n)) (hr : stageWaits s (issueDone u c k w n (wordSlot (afterWait s c w) c w)) = false) :
    orWait s (issueIf s c k eng op checks effect) = issueDone u c k w n (wordSlot (afterWait s c w) c w) := by
  rw [issueIf_issues h he ho hu, orWait_roomy hr]

/-- An instruction whose effect changes the course of the program alone. -/
theorem courseOnly_issued (hk : k < 5) (h : CourseOnly (afterWait s c w) u c) (txns slot : Nat) : CourseOnly s (issueDone u c k w txns slot) c :=
  courseOnly_trans (courseOnly_afterWait s w) (courseOnly_trans h (courseOnly_issueDone u hk w txns slot))

end

/-! ### STSIG (R169, R417) -/

/-- The CRC of the rows that a STSIG word without a permutation names, each row as it transforms it. -/
def rowsSignature (x : Core) (w : Nat) : Nat :=
  crc32c ((List.range (bitsOf w 71 16)).map (fun r => sigRow (bitsOf w 87 4) (decide (bitsOf w 91 1 = 1)) (List.range 128)
    (sliceBytes (x.spRead (bitsOf w 48 23) (bitsOf w 71 16 * (128 * fmtWidth (bitsOf w 87 4) / 8)))
      (r * (128 * fmtWidth (bitsOf w 87 4) / 8)) (128 * fmtWidth (bitsOf w 87 4) / 8)))).flatten

/-- The message that such a STSIG sends. -/
def sigMessage (s : State) (c w : Nat) : SigMsg :=
  ⟨s.cmdSeq c, s.cmdPart c, (s.core c).run.kind, (s.core c).run.prog, bitsOf w 112 16, rowsSignature (s.core c) w, (s.core c).run.sigs,
    (s.core c).run.frame, c⟩

/-- The core with one more signature sent. -/
def Core.signed (x : Core) : Core := { x with run := { x.run with sigs := x.run.sigs + 1 } }

/-- A wait changes nothing that the message tells. -/
theorem sigMessage_afterWait (s : State) (c w : Nat) : sigMessage (afterWait s c w) c w = sigMessage s c w := by
  have cmd : ∀ lo n, (afterWait s c w).regFld (Reg.coreCmd c) lo n = s.regFld (Reg.coreCmd c) lo n := fun lo n =>
    congrArg (fld · lo n) (programKept_afterWait s w).cmd
  simp only [sigMessage, rowsSignature, State.cmdSeq, State.cmdPart, cmd, run_afterWait, spRead_of_memory (memory_afterWait s c w)]

/-- R169: where scratchpad holds no uncorrectable word, a STSIG without a permutation sends its message. -/
theorem stsigEffect_plain {s : State} {c w : Nat} {ph : Phys} (hp : ph.sp = .clean) (hb : (s.core c).spBad = []) (hw : bitsOf w 110 1 = 0) :
    stsigEffect c ph s w = ({ s.setCore c (s.core c).signed with sigOut := s.sigOut ++ [sigMessage s c w] }, .ok 0) := by
  have identity : ((List.range 128).map (BitVec.ofNat 8)).map BitVec.toNat = List.range 128 := by decide
  have inRow : ((List.range 128).map (BitVec.ofNat 8)).any (fun p => decide (127 < p.toNat)) = false := by decide
  have good : ∀ a n, (s.core c).spBadIn a n = none := fun a n => by simp [Core.spBadIn, hb]
  have plain : ¬ bitsOf w 110 1 = 1 := by omega
  simp only [stsigEffect, hp, takeEcc, if_neg plain, spFetch, good, inRow, Bool.false_eq_true, if_false, identity]
  rfl

/-- The messages to Lehr A are no part of a program's course. -/
theorem sigOut_of_courseOnly {s u : State} {c : Nat} (h : CourseOnly s u c) : u.sigOut = s.sigOut := by
  rw [h.1.2.2]

/-- A STSIG that issues leaves the core's memories and sends its message. -/
theorem issueDone_signed (s : State) (c w : Nat) {k : Nat} (hk : k < 5) (m : SigMsg) (txns slot : Nat) {u : State}
    (hu : u = issueDone { (afterWait s c w).setCore c ((afterWait s c w).core c).signed with sigOut := (afterWait s c w).sigOut ++ [m] } c k w
      txns slot) : (u.core c).memory = (s.core c).memory ∧ u.sigOut = s.sigOut ++ [m] := by
  subst hu
  have before := courseOnly_afterWait (c := c) s w
  have after := courseOnly_issueDone (c := c) { (afterWait s c w).setCore c ((afterWait s c w).core c).signed with
    sigOut := (afterWait s c w).sigOut ++ [m] } hk w txns slot
  have sent := sigOut_of_courseOnly before
  have held : ((afterWait s c w).setCore c ((afterWait s c w).core c).signed).core c = ((afterWait s c w).core c).signed := core_setCore_same ..
  refine ⟨?_, (sigOut_of_courseOnly after).trans (congrArg (· ++ [m]) sent)⟩
  exact after.2.1.trans ((congrArg Core.memory held).trans before.2.1)

theorem answers_stsig {s : State} {core : Fin 96} {ph : Phys} {w : Nat} (h : HeadReady s core.val 3 w noChecks) (he : wEng w = 4) (ho : wOp w = 3)
    (hp : ph.sp = .clean) (hb : (s.core core.val).spBad = []) (hw : bitsOf w 110 1 = 0) :
    Answers (.stsig core ph) s (fun u => (u.core core.val).memory = (s.core core.val).memory ∧
      u.sigOut = s.sigOut ++ [sigMessage s core.val w]) := by
  have good : ((afterWait s core.val w).core core.val).spBad = [] := (memory_parts (memory_afterWait s core.val w)).2.1.trans hb
  have effect := stsigEffect_plain hp good hw
  rw [sigMessage_afterWait] at effect
  exact ⟨_, congrArg Host.Outcome.next (issueIf_issues h he ho effect), issueDone_signed s core.val w h.stream _ 0 _ rfl⟩

/-! ### The sequencer (R133, R141, R150, R171) -/

section
variable {s : State} {core : Fin 96} {k : Fin 5} {w : Nat}

/-- NOP and FENCE, which differ in their opcodes, wait and signal. -/
theorem courseOnly_issueIf_nop {op : Nat} (h : HeadReady s core.val k.val w noChecks) (he : wEng w = 6) (ho : wOp w = op) :
    CourseOnly s (issueIf s core.val k.val 6 op noChecks nopEffect) core.val := by
  rw [issueIf_issues h he ho rfl]
  exact courseOnly_issued h.stream (courseOnly_refl _ _) _ _

/-- END: its stream has ended, though a signal of the program may fault it. -/
theorem answers_end (h : HeadReady s core.val k.val w noChecks) (he : wEng w = 6) (ho : wOp w = 2)
    (hl : k.val < (s.core core.val).streams.length) :
    Answers (.endStream core k) s (fun u => CourseOnly s u core.val ∧ ((u.core core.val).stream k.val).ended = true) := by
  have inside := (length_streams_of_progress (programKept_afterWait s w).progress).symm ▸ hl
  refine ⟨_, congrArg Host.Outcome.next (issueIf_issues h he ho (effect := endEffect core.val k.val) rfl),
    courseOnly_issued h.stream (courseOnly_setCore (courseOnly_refl _ _) _ (by rfl)) _ _, ?_⟩
  rw [(programKept_issueDone _ h.stream w _ _).ended, core_setCore_same, stream_setStream_same _ _ inside]

/-- CKPT: its stream has reached the marker, and CORE_TPCKPT shows the highest. -/
theorem answers_ckpt (h : HeadReady s core.val k.val w (ckptChecks core.val k.val)) (he : wEng w = 6) (ho : wOp w = 3)
    (hl : k.val < (s.core core.val).streams.length) :
    Answers (.ckpt core k) s (fun u => CourseOnly s u core.val ∧ ((u.core core.val).stream k.val).marker = bitsOf w 48 24 ∧
      u.regFld (Reg.coreTpckpt core.val) 0 24 = max (bitsOf w 48 24) (s.regFld (Reg.coreTpckpt core.val) 0 24)) := by
  have before := programKept_afterWait (c := core.val) s w
  have inside := (length_streams_of_progress before.progress).symm ▸ hl
  have course : CourseOnly (afterWait s core.val w) (ckptEffect core.val k.val (afterWait s core.val w) w).1 core.val := by
    refine courseOnly_setReg (courseOnly_setCore (courseOnly_refl _ _) _ (by rfl)) _ ?_ ?_ <;> simp only [Reg.coreTpckpt, Reg.coreAflags] <;> omega
  refine ⟨_, congrArg Host.Outcome.next (issueIf_issues h he ho (effect := ckptEffect core.val k.val) rfl), courseOnly_issued h.stream course _ _, ?_, ?_⟩
  · rw [(programKept_issueDone _ h.stream w _ _).marker, core_setRegFld, core_setCore_same, stream_setStream_same _ _ inside]
  · have shown := before.shown
    have bound := Nat.max_lt.mpr ⟨Nat.mod_lt (w / 2 ^ 48) (Nat.two_pow_pos 24), fld_lt (s.reg (Reg.coreTpckpt core.val)) 0 24⟩
    rw [(programKept_issueDone _ h.stream w _ _).shown, regFld_setRegFld_same _ _ _ (by decide), ← shown]
    exact Nat.mod_eq_of_lt (shown.symm ▸ bound)

end

/-- Settles O8: each instruction issues with its effect, and the issue leaves the memories, the program and what its streams have reached. -/
theorem moveInstructions : Obligations.MoveInstructions := by
  exact ⟨fun _ _ _ _ _ _ h he ho hu => congrArg Host.Outcome.next (issueIf_issues h he ho hu),
    fun _ _ _ _ _ _ h he ho hu => congrArg Host.Outcome.next (issueIf_issues h he ho hu),
    fun _ _ _ _ _ _ h he ho hu room => congrArg Host.Outcome.next (orWait_issueIf h he ho hu room),
    fun _ _ _ _ _ _ h he ho hu room => congrArg Host.Outcome.next (orWait_issueIf h he ho hu room),
    fun _ _ _ _ _ _ h he ho hu => congrArg Host.Outcome.next (issueIf_issues h he ho hu),
    fun _ _ _ _ _ _ h he ho hu => congrArg Host.Outcome.next (issueIf_issues h he ho hu),
    fun _ _ _ _ h he ho hp hb hw => answers_stsig h he ho hp hb hw,
    fun _ _ _ _ h he => ⟨fun ho => ⟨_, rfl, courseOnly_issueIf_nop h he ho⟩, fun ho => ⟨_, rfl, courseOnly_issueIf_nop h he ho⟩⟩,
    fun _ _ _ _ h he ho hl => answers_end h he ho hl,
    fun _ _ _ _ h he ho hl => answers_ckpt h he ho hl⟩

end Sys2Proof.Machine
end

section
/-! SUPPORT. Carried counters (05_sync_counters.md): what a commit and a discard leave of a core's counters and records; a signal beyond its counter's
limit from an instruction that names a slot. -/

namespace Sys2Proof.Machine

/-! ### Registers that follow the carried counters (R198, R404) -/

section
variable (s : State) (c : Nat)

@[simp] theorem cores_syncV (n : Nat) : (syncV s c n).cores = s.cores := by rw [syncV, State.setRegFld_cores]
@[simp] theorem mem_syncV (n : Nat) : (syncV s c n).mem = s.mem := by rw [syncV, State.setRegFld_mem]

theorem syncAllV_keeps : (syncAllV s c).cores = s.cores ∧ (syncAllV s c).mem = s.mem := by
  unfold syncAllV
  refine List.foldlRecOn (motive := fun t : State => t.cores = s.cores ∧ t.mem = s.mem) _ _ ⟨rfl, rfl⟩ fun t kept i _ => ?_
  rw [cores_syncV, mem_syncV]
  exact kept

@[simp] theorem cores_syncAllV : (syncAllV s c).cores = s.cores := (syncAllV_keeps s c).1
@[simp] theorem mem_syncAllV : (syncAllV s c).mem = s.mem := (syncAllV_keeps s c).2

@[simp] theorem cores_syncTpstat : (syncTpstat s c).cores = s.cores := by rw [syncTpstat, State.setReg_cores, State.setReg_cores]
@[simp] theorem mem_syncTpstat : (syncTpstat s c).mem = s.mem := by rw [syncTpstat, State.setReg_mem, State.setReg_mem]

@[simp] theorem cores_syncBind : (syncBind s c).cores = s.cores := by
  unfold syncBind
  dsimp only
  split <;> rw [State.setRegFld_cores, State.setRegBit_cores]

@[simp] theorem mem_syncBind : (syncBind s c).mem = s.mem := by
  unfold syncBind
  dsimp only
  split <;> rw [State.setRegFld_mem, State.setRegBit_mem]

end

/-! ### Commit and discard (R199) -/

/-- The committed counters of a core once a record has settled into them: C - D + P of each carried counter. -/
def settledCounters (carried : List (Nat × Nat)) (r : PendRec) : List (Nat × Nat) :=
  (List.range 128).foldl (fun m j => sput 0 m (1920 + j) (sget 0 m (1920 + j) - sget 0 r.d (1920 + j) + sget 0 r.p (1920 + j))) carried

/-- Entries rewritten one after another, each from its own value: those of the first `n` are, each once. -/
theorem sget_rewritten (f : Nat → Nat → Nat) (m : List (Nat × Nat)) (base n i : Nat) :
    sget 0 ((List.range n).foldl (fun m j => sput 0 m (base + j) (f j (sget 0 m (base + j)))) m) (base + i) =
      if i < n then f i (sget 0 m (base + i)) else sget 0 m (base + i) := by
  induction n with
  | zero => rfl
  | succ n ih =>
    rw [List.range_succ, List.foldl_append, List.foldl_cons, List.foldl_nil]
    by_cases last : i = n
    · subst last
      rw [sget_sput_same, ih, if_neg (Nat.lt_irrefl i), if_pos (Nat.lt_succ_self i)]
    · rw [sget_sput_other _ _ _ _ (by omega), ih]
      congr 1
      exact propext (by omega)

theorem sget_settledCounters (carried : List (Nat × Nat)) (r : PendRec) (j : Fin 128) :
    sget 0 (settledCounters carried r) (1920 + j.val) =
      sget 0 carried (1920 + j.val) - sget 0 r.d (1920 + j.val) + sget 0 r.p (1920 + j.val) :=
  (sget_rewritten (fun j v => v - sget 0 r.d (1920 + j) + sget 0 r.p (1920 + j)) carried 1920 128 j.val).trans (if_pos j.isLt)

/-- A core into whose committed counters a record has settled. -/
def Core.settle (x : Core) (r : PendRec) : Core := { x with carried := settledCounters x.carried r }

theorem committed_settle (x : Core) (r : PendRec) (j : Fin 128) :
    (x.settle r).committed (1920 + j.val) = x.committed (1920 + j.val) - sget 0 r.d (1920 + j.val) + sget 0 r.p (1920 + j.val) := by
  unfold Core.committed
  exact sget_settledCounters x.carried r j

/-- A core without the records of an owner. -/
def Core.freed (x : Core) (owner : Nat) : Core := { x with records := x.records.filter (fun q => decide (q.owner ≠ owner)) }

@[simp] theorem committed_freed (x : Core) (owner n : Nat) : (x.freed owner).committed n = x.committed n := rfl

section
variable {s t : State} {c owner : Nat} {r : PendRec}

/-- The two states differ in registers and in the core that is `x` in the second. -/
theorem core_of_cores_setCore {x : Core} (h : t.cores = (s.setCore c x).cores) :
    t.core c = x ∧ ∀ d, d ≠ c → t.core d = s.core d :=
  ⟨(core_of_cores h).trans (core_setCore_same s c x), fun _ hd => (core_of_cores h).trans (core_setCore_other s x hd)⟩

/-- A commit of an owner with a record replaces its core. -/
theorem commitRecord_settles (h : (s.core c).records.find? (fun r => decide (r.owner = owner)) = some r) :
    (commitRecord s c owner).core c = ((s.core c).freed owner).settle r ∧
    (∀ d, d ≠ c → (commitRecord s c owner).core d = s.core d) ∧ (commitRecord s c owner).mem = s.mem := by
  have settles : commitRecord s c owner = syncTpstat (syncBind (syncAllV (s.setCore c (((s.core c).freed owner).settle r)) c) c) c := by
    unfold commitRecord
    simp only [h]
    rfl
  rw [settles]
  exact and_assoc.mp ⟨core_of_cores_setCore (by simp), by simp only [mem_syncTpstat, mem_syncBind, mem_syncAllV]; rfl⟩

/-- A discard of an owner with a record drops it from its core. -/
theorem discardRecord_frees (h : (s.core c).records.find? (fun r => decide (r.owner = owner)) = some r) :
    (discardRecord s c owner).core c = (s.core c).freed owner ∧
    (∀ d, d ≠ c → (discardRecord s c owner).core d = s.core d) ∧ (discardRecord s c owner).mem = s.mem := by
  have owned := List.find?_some h
  have held : (s.core c).records.any (fun r => decide (r.owner = owner)) = true :=
    List.any_eq_true.mpr ⟨r, List.mem_of_find?_eq_some h, owned⟩
  have frees : discardRecord s c owner = syncTpstat (syncAllV (s.setCore c ((s.core c).freed owner)) c) c := if_pos held
  rw [frees]
  exact and_assoc.mp ⟨core_of_cores_setCore (by simp), by simp only [mem_syncTpstat, mem_syncAllV]; rfl⟩

/-- Without a record of the owner there is nothing to commit. -/
theorem commitRecord_unowned (h : ∀ r ∈ (s.core c).records, r.owner ≠ owner) : commitRecord s c owner = s := by
  have unowned : (s.core c).records.find? (fun r => decide (r.owner = owner)) = none :=
    List.find?_eq_none.mpr fun r hr => by simpa using h r hr
  unfold commitRecord
  simp only [unowned]

/-- Nor to discard. -/
theorem discardRecord_unowned (h : ∀ r ∈ (s.core c).records, r.owner ≠ owner) : discardRecord s c owner = s :=
  if_neg (by simpa using h)

end

/-- Settles O36: a commit and a discard replace one core, by one whose counters are settled or by one that only lacks the record. -/
theorem carriedCommit : Obligations.CarriedCommit := by
  refine ⟨fun s c owner r h => ?_, fun s c owner r h => ?_, fun s c owner h => ⟨commitRecord_unowned h, discardRecord_unowned h⟩⟩
  · obtain ⟨core, others, mem⟩ := commitRecord_settles h
    rw [core]
    exact ⟨fun j => by rw [committed_settle, committed_freed], rfl, others, mem⟩
  · obtain ⟨core, others, mem⟩ := discardRecord_frees h
    rw [core]
    exact ⟨committed_freed _ owner, rfl, others, mem⟩

/-! ### A signal beyond its counter's limit (R184, R193) -/

/-- Core 5 in RUN, its counter 7 at the limit. -/
def counterAtLimit : State := (State.reset.setCoreSt 5 .run).setSync 5 7 syncMax

/-- A load that has completed, whose descriptor names slot 3, and that signals 1 to counter 7. -/
def slottedLoad : InFlight := ⟨2, 0, 3, 1, none, 7, 1, 0, true, 3⟩

/-- R184: SLOT of the fault is the slot that the load names. -/
theorem slot_raiseAll_slottedLoad : (raiseAll counterAtLimit 5 [slottedLoad]).regFld (Reg.coreTpfaux 5) 48 5 = 3 := by decide +kernel

/-- The fault of no slot shows slot 0. -/
theorem slot_tileFault_plain : (tileFault counterAtLimit 5 slottedLoad.eng slottedLoad.word (.plain 0x0302)).regFld (Reg.coreTpfaux 5) 48 5 = 0 := by
  decide +kernel

/-- Refutes O35: its clause of SYNC_OVERFLOW has the instruction fault as one that names no slot. The load of `slottedLoad` names slot 3, which
CORE_TPFAUX shows (R184). -/
theorem not_syncCounterSignals : ¬ Obligations.SyncCounterSignals := by
  rintro ⟨-, overflow, -⟩
  obtain ⟨fault, -⟩ := overflow counterAtLimit 5 7 slottedLoad rfl (by decide +kernel) (by decide +kernel)
  have slot := slot_raiseAll_slottedLoad
  rw [show raiseAll counterAtLimit 5 [slottedLoad] = _ from fault] at slot
  exact absurd (slot_tileFault_plain.symm.trans slot) (by decide)

end Sys2Proof.Machine
end

section
/-! SUPPORT. Cullet pages (06_attention_and_cullet_pages.md): a pool written while a page of it waits for a scrub that no channel takes. -/

namespace Sys2Proof.Machine

/-- After reset, with no channel in SERVICE yet: the pool of crucible 0 is one page of 4096 bytes, which waits for its scrub. -/
def pageAwaitsScrub : State :=
  { State.reset.setReg (Reg.culletPoolcfg 0) 0x1000001#64 with cullet := [(0, { Cullet.empty with pages := [(0, .scrub)] })] }

/-- Management's write of a pool register that is not locked comes to the pool's own tests. -/
theorem exec_poolConfigWrite {s : State} {who : Ident} {k : Fin 4} {cfg : Bool} (v : BitVec 64) (hw : mgmt who = true)
    (hl : locked s (if cfg then Reg.culletPoolcfg k.val else Reg.culletPoolbase k.val) = false) :
    exec (.poolConfigWrite who k cfg v) s = .next (writePool s k.val cfg (decide (who.val = 16)) (poolFields cfg v.toNat)) := by
  change execPoolConfigWrite who k cfg v s = _
  simp only [execPoolConfigWrite, hw, hl, Bool.not_true, Bool.false_eq_true, if_false]

/-- R214: the scrub made with a write of CULLET_POOLCFG is answered poisoned, and the page goes on waiting. -/
theorem pages_writePool_pageAwaitsScrub :
    ((writePool pageAwaitsScrub 0 true true (poolFields true 0x1000001)).cull 0).pages = [(0, .scrub)] := by decide +kernel

/-- Refutes O11: its clause of a pool write with one page waiting for its scrub supposes nothing of that scrub's answer. In `pageAwaitsScrub` no
channel takes the scrub: the page, a page of the new pool too, still waits (R214), where the clause has the pool all free. -/
theorem not_culletCommands : ¬ Obligations.CulletCommands := by
  rintro ⟨-, -, -, -, -, -, -, -, -, -, -, -, -, scrubbed, -⟩
  obtain ⟨u, answer, -, free, -⟩ := scrubbed pageAwaitsScrub 16 0 true 0x1000001#64 0 rfl (by decide +kernel) (by decide +kernel) (by decide +kernel)
    (by decide +kernel)
  rw [exec_poolConfigWrite _ rfl (by decide +kernel)] at answer
  obtain rfl := Host.Outcome.next.inj answer
  exact absurd (pages_writePool_pageAwaitsScrub.symm.trans free) (by decide)

end Sys2Proof.Machine
end

section
/-! SUPPORT. Marver's ingest (07_marver_ingest_time_and_projection.md): what camera and Ethernet ports, injected rings, streams and the pose ring
answer. -/

namespace Sys2Proof.Machine

/-! ### Camera ports (R244, R245) -/

/-- R245: an enabled port of one to five groups that is not ACTIVE and has not failed for good is ACTIVE once its training passes. -/
theorem camst_trainCamera_ok {s : State} {n : Nat} (hon : s.regBit (Reg.marverCamcfg n) 0 = true) (hlo : 1 ≤ s.regFld (Reg.marverCamcfg n) 1 3)
    (hhi : s.regFld (Reg.marverCamcfg n) 1 3 ≤ 5) (hst : s.regFld (Reg.marverCamst n) 0 2 ≠ 2) (hf : (sget (0, 0) s.marver.cams n).2 < 3) :
    (trainCamera s n true).regFld (Reg.marverCamst n) 0 2 = 2 := by
  have trains : ¬(s.regFld (Reg.marverCamcfg n) 1 3 = 0 ∨ 5 < s.regFld (Reg.marverCamcfg n) 1 3 ∨ s.regFld (Reg.marverCamst n) 0 2 = 2 ∨
      3 ≤ (sget (0, 0) s.marver.cams n).2) := by omega
  simp [trainCamera, fld_reg, bitAt_reg, hon, trains]

/-- The streams of a camera port's virtual channel that take images. -/
def imageStreams (s : State) (port vc : Nat) : List Nat := (cameraStreams s port vc).filter (fun i => decide (streamPayload s i = 0))

section
variable {s : State} {port : Fin 16} (vc : Fin 32) {dt : BitVec 6} (data : List Byte) (t : Nat)
  (hon : s.regBit (Reg.marverCamcfg port.val) 0 = true) (hst : s.regFld (Reg.marverCamst port.val) 0 2 = 2)
include hon hst

/-- The port takes packets. -/
theorem port_takesPackets : ¬((!(s.at t).regBit (Reg.marverCamcfg port.val) 0) = true ∨ (s.at t).regFld (Reg.marverCamst port.val) 0 2 ≠ 2) := by
  simp [hon, hst]

/-- R245: an erroneous packet of an ACTIVE port is lost. -/
theorem exec_csi2Packet_error {hdrErr crcErr : Bool} (he : hdrErr = true ∨ crcErr = true) (full : Bool) :
    exec (.csi2Packet port vc dt data hdrErr crcErr full t) s =
      .next (csiLost (s.at t) port.val (cameraStreams s port.val vc.val) false t dt.toNat) := by
  change execCsi2Packet port vc dt data hdrErr crcErr full t s = _
  exact (if_neg (port_takesPackets t hon hst)).trans (if_pos (by simp [he]))

/-- R252: a packet that finds the ingress buffer full is lost; a Frame Start begins its images all the same. -/
theorem exec_csi2Packet_full :
    exec (.csi2Packet port vc dt data false false true t) s = .next (csiLost (if dt = 0#6 then (imageStreams s port.val vc.val).foldl
      (fun s i => imageBegin s i t) (s.at t) else s.at t) port.val (cameraStreams s port.val vc.val) true t dt.toNat) := by
  change execCsi2Packet port vc dt data false false true t s = _
  refine ((if_neg (port_takesPackets t hon hst)).trans ((if_neg Bool.false_ne_true).trans (if_pos rfl))).trans ?_
  by_cases start : dt = 0#6
  · subst start
    rfl
  · have noStart : ¬dt.toNat = 0 := fun h => start (BitVec.eq_of_toNat_eq h)
    rw [if_neg start, if_neg noStart]
    rfl

/-- R244: a Frame Start begins an image on the channel's image streams. -/
theorem exec_csi2Packet_frameStart :
    exec (.csi2Packet port vc 0#6 data false false false t) s =
      .next ((imageStreams s port.val vc.val).foldl (fun s i => imageBegin s i t) (s.at t)) := by
  change execCsi2Packet port vc 0#6 data false false false t s = _
  exact (if_neg (port_takesPackets t hon hst)).trans rfl

/-- R244: a Frame End ends the images of the channel. -/
theorem exec_csi2Packet_frameEnd :
    exec (.csi2Packet port vc 1#6 data false false false t) s = .next ((imageStreams s port.val vc.val).foldl imageEnd (s.at t)) := by
  change execCsi2Packet port vc 1#6 data false false false t s = _
  exact (if_neg (port_takesPackets t hon hst)).trans rfl

/-- R244: a packet of a known type that is not too large reaches every stream of the channel. -/
theorem exec_csi2Packet_line {b : Nat} (hd : 4 ≤ dt.toNat) (hb : csiBits dt.toNat = some b)
    (hl : tooLarge (s.at t) (imageStreams s port.val vc.val) dt.toNat b data = false) :
    exec (.csi2Packet port vc dt data false false false t) s =
      .next ((cameraStreams s port.val vc.val).foldl (fun s i => csiLine s i dt.toNat t data) (s.at t)) := by
  have noFrame : ¬dt.toNat = 0 ∧ ¬dt.toNat = 1 ∧ ¬(dt.toNat = 2 ∨ dt.toNat = 3) := by omega
  obtain ⟨noStart, noEnd, noSync⟩ := noFrame
  change execCsi2Packet port vc dt data false false false t s = _
  refine (if_neg (port_takesPackets t hon hst)).trans ((if_neg Bool.false_ne_true).trans ((if_neg Bool.false_ne_true).trans
    ((if_neg noStart).trans ((if_neg noEnd).trans ((if_neg noSync).trans ?_)))))
  rw [hb]
  exact if_neg (by rw [Bool.not_eq_true]; exact hl)

end

/-! ### Ethernet ports (R246, R247) -/

section
variable {s : State} {port : Fin 8} {frame : List Byte} (t : Nat) (hst : s.regFld (Reg.marverEthst port.val) 0 2 = 2)
include hst

/-- R247: a frame within the bounds that is neither flow control nor gPTP reaches the first stream it matches. -/
theorem exec_ethFrameReceive_match {i : Nat} (hlo : 60 ≤ frame.length) (hhi : frame.length ≤ 9212) (hf : (ethInfo frame).etype ≠ 0x8808)
    (hg : (ethInfo frame).etype ≠ 0x88F7) (hm : (List.range 64).find? (ethMatches s port.val (ethInfo frame)) = some i) :
    exec (.ethFrameReceive port frame true false t) s =
      .next (packetArrive (s.at t) i (t - s.regFld (Reg.marverEthcfg port.val) 8 12) frame (ethInfo frame).data) := by
  have inBounds : ¬(frame.length + 4 < 64 ∨ 9216 < frame.length + 4) := by omega
  have matched : (List.range 64).find? (ethMatches (s.at t) port.val (ethInfo frame)) = some i := hm
  change execEthFrameReceive port frame true false t s = _
  simp only [execEthFrameReceive, regFld_at, hst, hf, hg, matched]
  simp [inBounds]

/-- R246: a frame with a bad check sequence or out of bounds is dropped. -/
theorem exec_ethFrameReceive_drop {fcsOk : Bool} (h : fcsOk = false ∨ frame.length < 60 ∨ 9212 < frame.length) (full : Bool) :
    exec (.ethFrameReceive port frame fcsOk full t) s = .next (ethDrop (s.at t) port.val) := by
  have bad : !fcsOk ∨ frame.length + 4 < 64 ∨ 9216 < frame.length + 4 ∨ (ethInfo frame).etype = 0x8808 := by
    rcases h with h | h | h
    · exact .inl (by rw [h]; rfl)
    · exact .inr (.inl (by omega))
    · exact .inr (.inr (.inl (by omega)))
  change execEthFrameReceive port frame fcsOk full t s = _
  unfold execEthFrameReceive
  exact (if_neg (fun down => down hst)).trans (if_pos bad)

end

/-! ### Injected rings (R248, R249) -/

/-- The ring of an enabled injected stream holds an entry `e` with a good checksum and a known form, whose read leaves `s1`. -/
structure EntryReady (s : State) (i : Nat) (ecc : MemEcc) (t : Nat) (e : List Byte) (s1 : State) : Prop where
  on : streamOn s i = true
  injected : streamKind s i = 3
  waits : s.regFld (Reg.marverSslot i) 32 32 ≠ s.regFld (Reg.marverInjrd i) 0 32
  read : devRead (s.at t) marverReq ecc (s.regFld (Reg.marverSmatch i) 6 42 * 64 + s.regFld (Reg.marverInjrd i) 0 32 % 2 ^ s.regFld
    (Reg.marverSmatch i) 48 4 * 32) 32 = (s1, .ok e)
  sum : leAt e 28 4 = crc32c (e.take 28)
  form : leAt e 20 1 = 1 ∨ leAt e 20 1 = 2
  len : 1 ≤ leAt e 16 4 ∧ leAt e 16 4 ≤ 16777216

section
variable {s s1 : State} {stream : Fin 64} {ecc : MemEcc} {t : Nat} {e : List Byte} (h : EntryReady s stream.val ecc t e s1)
include h

/-- R248: the entry is not one that is dropped. -/
theorem EntryReady.kept : ¬(leAt e 28 4 ≠ crc32c (e.take 28) ∨ (leAt e 20 1 ≠ 1 ∧ leAt e 20 1 ≠ 2) ∨ leAt e 16 4 = 0 ∨ 16777216 < leAt e 16 4) := by
  obtain ⟨-, -, -, -, sum, form, len⟩ := h
  omega

/-- R249: an entry whose time has not come is left where it is. -/
theorem exec_injectedEntryRelease_early (ht : max s.now t < leAt e 0 8) : exec (.injectedEntryRelease stream ecc t) s = .next (s.at t) := by
  change execInjectedEntryRelease stream ecc t s = _
  simp only [execInjectedEntryRelease, fld_reg, regFld_at, streamOn_at, streamKind_at, h.on, h.injected, h.waits, h.read, h.kept, at_now, ht]
  simp

/-- R249: an entry whose time has come is released, and its payload arrives at its time. -/
theorem exec_injectedEntryRelease_due {s2 : State} {bs : List Byte} (ht : leAt e 0 8 ≤ max s.now t)
    (hp : devRead s1 marverReq .clean (leAt e 8 8) (leAt e 16 4) = (s2, .ok bs)) :
    exec (.injectedEntryRelease stream ecc t) s = .next ((injectPayload s2 stream.val (leAt e 20 1) (if leAt e 0 8 = 0 then max s.now t else
      leAt e 0 8) bs).setRegFld (Reg.marverInjrd stream.val) 0 32 (s.regFld (Reg.marverInjrd stream.val) 0 32 + 1)) := by
  change execInjectedEntryRelease stream ecc t s = _
  simp only [execInjectedEntryRelease, fld_reg, regFld_at, streamOn_at, streamKind_at, h.on, h.injected, h.waits, h.read, h.kept, at_now,
    Nat.not_lt.mpr ht, hp]
  simp

end

section
variable {s : State} {stream : Fin 64} {v : BitVec 32}

/-- R249: an index within the ring that is not older moves the ring's end. -/
theorem exec_injwrWrite_within
    (hin : countDiff v.toNat (s.regFld (Reg.marverInjrd stream.val) 0 32) ≤ 2 ^ s.regFld (Reg.marverSmatch stream.val) 48 4)
    (hold : newer32 (s.regFld (Reg.marverSslot stream.val) 32 32) v.toNat = false) :
    exec (.injwrWrite stream v) s = .next (s.setRegFld (Reg.marverSslot stream.val) 32 32 v.toNat) := by
  change execInjwrWrite stream v s = _
  exact if_neg (not_or.mpr ⟨Nat.not_lt.mpr hin, by simp [hold]⟩)

/-- R249: an index beyond the ring or older is refused with INJOVR. -/
theorem exec_injwrWrite_refused
    (h : 2 ^ s.regFld (Reg.marverSmatch stream.val) 48 4 < countDiff v.toNat (s.regFld (Reg.marverInjrd stream.val) 0 32) ∨
      newer32 (s.regFld (Reg.marverSslot stream.val) 32 32) v.toNat = true) :
    exec (.injwrWrite stream v) s = .next (s.setRegBit (Reg.marverSstat stream.val) 16 true) := by
  change execInjwrWrite stream v s = _
  exact if_pos h

/-- A field of 32 bits shows a word of 32 bits as it was written. -/
theorem regFld_setRegFld_word (s : State) (off : Nat) {lo : Nat} (v : BitVec 32) (hb : lo + 32 ≤ 64) :
    (s.setRegFld off lo 32 v.toNat).regFld off lo 32 = v.toNat := by
  rw [regFld_setRegFld_same s off _ hb, Nat.mod_eq_of_lt v.isLt]

/-! ### The pose ring (R265) -/

/-- R265: an index that is not newer publishes no entry. -/
theorem exec_poseWrite_stale (ecc : MemEcc) (h : newer32 v.toNat (s.regFld Reg.marverPosewr 0 32) = false) :
    exec (.poseWrite v ecc) s = .next (s.setRegFld Reg.marverPosewr 0 32 v.toNat) := by
  change execPoseWrite v ecc s = _
  simp [execPoseWrite, h]

/-- The pose entries that a write of MARVER_POSEWR publishes, no more than the ring holds (R265). -/
def publishedPoses (s : State) (v : BitVec 32) : List Nat :=
  let k := min (poseRing s) (countDiff v.toNat (s.regFld Reg.marverPosewr 0 32))
  (List.range k).map (fun j => (v.toNat + 2 ^ 32 - k + j) % 2 ^ 32)

/-- R265: Marver takes the entries that a newer index publishes, then Lehr B. -/
theorem exec_poseWrite_newer (ecc : MemEcc) (h : newer32 v.toNat (s.regFld Reg.marverPosewr 0 32) = true)
    (hr : countDiff v.toNat (s.regFld Reg.marverPoserd 0 32) ≤ poseRing s) :
    exec (.poseWrite v ecc) s = .next ((publishedPoses s v).foldl (lehrTake ecc)
      (syncPoses ((publishedPoses s v).foldl (poseTake ecc) (s.setRegFld Reg.marverPosewr 0 32 v.toNat)))) := by
  change execPoseWrite v ecc s = _
  simp [execPoseWrite, h, Nat.not_lt.mpr hr, publishedPoses]

end

/-! ### Streams enabled and disabled (R249, R250, R260) -/

section
variable (s : State) (i : Nat)

/-- A servo replaced shows in SOFF and SRATE alone. -/
theorem reg_setServo_other (v : Servo) {o : Nat} (ho : o ≠ Reg.marverSoff i) (hr : o ≠ Reg.marverSrate i) : (setServo s i v).reg o = s.reg o := by
  unfold setServo
  rw [reg_setReg_other _ _ hr, reg_setReg_other _ _ ho]
  rfl

@[simp] theorem now_setServo (v : Servo) : (setServo s i v).now = s.now := rfl
@[simp] theorem mem_setServo (v : Servo) : (setServo s i v).mem = s.mem := rfl
@[simp] theorem periods_setServo (v : Servo) : (setServo s i v).marver.periods = s.marver.periods := rfl

@[simp] theorem servo_setServo (v : Servo) : ((setServo s i v).mstream i).servo = v := by
  change (sget MStream.zero (sput MStream.zero s.marver.streams i { s.mstream i with servo := v }) i).servo = v
  rw [sget_sput_same]

end

/-- A stream's servo and its state replaced, HSTAT.HEALTHY following: what both commands end with. -/
def restateServo (s : State) (i : Nat) (v : Servo) (x : Nat) : State := syncHealth (setServoSt (setServo s i v) i x) i

section
variable (s : State) {i : Nat} (v : Servo) (x : Nat)

@[simp] theorem now_restateServo : (restateServo s i v x).now = s.now := rfl
@[simp] theorem mem_restateServo : (restateServo s i v x).mem = s.mem := rfl
@[simp] theorem periods_restateServo : (restateServo s i v x).marver.periods = s.marver.periods := rfl
@[simp] theorem servo_restateServo : ((restateServo s i v x).mstream i).servo = v := servo_setServo s i v

theorem reg_restateServo_other {o : Nat} (ho : o ∉ [Reg.marverSoff i, Reg.marverSrate i, Reg.marverSstat i, Reg.marverHstat i]) :
    (restateServo s i v x).reg o = s.reg o := by
  simp only [List.mem_cons, List.not_mem_nil, or_false, not_or] at ho
  obtain ⟨off, rate, stat, health⟩ := ho
  exact (reg_setRegBit_other _ _ _ health).trans ((reg_setRegFld_other _ _ _ _ stat).trans (reg_setServo_other s i v off rate))

theorem streamOn_restateServo : streamOn (restateServo s i v x) i = streamOn s i := by
  unfold streamOn State.regBit
  rw [reg_restateServo_other]
  simp only [Reg.marverScfg, Reg.marverSoff, Reg.marverSrate, Reg.marverSstat, Reg.marverHstat, List.mem_cons, List.not_mem_nil,
      or_false]
  omega

/-- SSTAT and HSTAT of a stream are two registers. -/
theorem sstat_ne_hstat (hi : i < 64) : Reg.marverSstat i ≠ Reg.marverHstat i := by
  simp only [Reg.marverSstat, Reg.marverHstat]
  omega

theorem servoSt_restateServo (hi : i < 64) (hx : x < 8) : servoSt (restateServo s i v x) i = x := by
  change ((setServoSt (setServo s i v) i x).setRegBit _ _ _).regFld _ 0 3 = x
  rw [regFld_setRegBit_off _ _ _ _ _ (sstat_ne_hstat hi), setServoSt, regFld_setRegFld_same _ _ _ (by decide)]
  exact Nat.mod_eq_of_lt hx

/-- R305: a stream that is off is not HEALTHY. -/
theorem healthy_restateServo_off (hoff : streamOn s i = false) : (restateServo s i v x).regBit (Reg.marverHstat i) 2 = false := by
  have off : streamOn (setServoSt (setServo s i v) i x) i = false := by
    unfold streamOn State.regBit setServoSt
    rw [reg_setRegFld_other, reg_setServo_other]
    · exact hoff
    all_goals simp only [Reg.marverScfg, Reg.marverSoff, Reg.marverSrate, Reg.marverSstat]; omega
  simp [restateServo, syncHealth, off]

end

/-- A stream switched on, its injected ring begun anew. -/
def switchedOn (s : State) (i : Nat) : State :=
  ((s.setRegBit (Reg.marverScfg i) 0 true).setRegFld (Reg.marverSslot i) 32 32 0).setReg (Reg.marverInjrd i) 0#64

section
variable (s : State) (i : Nat)

theorem streamOn_switchedOn : streamOn (switchedOn s i) i = true := by
  unfold streamOn switchedOn
  rw [regBit_setReg_other, regBit_setRegFld_off, regBit_setRegBit_same _ _ _ (by decide)]
  all_goals simp only [Reg.marverScfg, Reg.marverSslot, Reg.marverInjrd]; omega

theorem injwr_switchedOn : (switchedOn s i).regFld (Reg.marverSslot i) 32 32 = 0 := by
  have apart : Reg.marverSslot i ≠ Reg.marverInjrd i := by
    simp only [Reg.marverSslot, Reg.marverInjrd]
    omega
  unfold switchedOn
  rw [regFld_setReg_other _ _ _ _ apart, regFld_setRegFld_same _ _ _ (by decide), Nat.zero_mod]

theorem injrd_switchedOn : (switchedOn s i).reg (Reg.marverInjrd i) = 0#64 := reg_setReg_same ..

end

/-- The servo of a stream enabled by STREAM_ENABLE at time `t`: zero, its hold times counting from then. -/
def enabledServo (s : State) (t : Nat) : Servo := { Servo.zero with accTime := max s.now t }

/-- The state after an accepted STREAM_ENABLE. -/
def streamEnabled (s : State) (i t : Nat) : State :=
  restateServo (switchedOn (s.at t) i) i (enabledServo s t) (if srcMode s i = 0 then 2 else 1)

section
variable (s : State) {i : Nat} (t : Nat)

theorem exec_streamEnable (stream : Fin 64) (hk : streamKind s stream.val ≠ 0) (hoff : streamOn s stream.val = false) :
    exec (.streamEnable stream t) s = .next (streamEnabled s stream.val t) := by
  change execStreamEnable stream t s = _
  exact if_neg (by simp [hk, hoff])

@[simp] theorem streamOn_streamEnabled : streamOn (streamEnabled s i t) i = true :=
  (streamOn_restateServo ..).trans (streamOn_switchedOn ..)

theorem servoSt_streamEnabled (hi : i < 64) : servoSt (streamEnabled s i t) i = if srcMode s i = 0 then 2 else 1 :=
  servoSt_restateServo _ _ _ hi (by split <;> decide)

/-- The ring of an enabled stream is empty: INJWR and INJRD are zero. -/
theorem injwr_streamEnabled : (streamEnabled s i t).regFld (Reg.marverSslot i) 32 32 = 0 ∧ (streamEnabled s i t).reg (Reg.marverInjrd i) = 0#64 := by
  unfold streamEnabled State.regFld
  rw [reg_restateServo_other, reg_restateServo_other, injrd_switchedOn]
  · exact ⟨injwr_switchedOn (s.at t) i, rfl⟩
  all_goals
    simp only [Reg.marverInjrd, Reg.marverSslot, Reg.marverSoff, Reg.marverSrate, Reg.marverSstat, Reg.marverHstat, List.mem_cons, List.not_mem_nil,
      or_false]
    omega

end

/-- The state after STREAM_DISABLE. -/
def streamDisabled (s : State) (i : Nat) : State :=
  restateServo (s.setRegBit (Reg.marverScfg i) 0 false) i
    { (s.mstream i).servo with init := true, count := 0, rejects := 0, ticks := none, div := 0 } 0

section
variable (s : State) {i : Nat}

theorem exec_streamDisable (stream : Fin 64) : exec (.streamDisable stream) s = .next (streamDisabled s stream.val) := rfl

theorem streamOn_streamDisabled : streamOn (streamDisabled s i) i = false :=
  (streamOn_restateServo ..).trans (regBit_setRegBit_same s _ false (by decide))

theorem servoSt_streamDisabled (hi : i < 64) : servoSt (streamDisabled s i) i = 0 := servoSt_restateServo _ _ _ hi (by decide)

theorem healthy_streamDisabled : (streamDisabled s i).regBit (Reg.marverHstat i) 2 = false :=
  healthy_restateServo_off _ _ _ (regBit_setRegBit_same s _ false (by decide))

theorem streamDisabled_leaves : (streamDisabled s i).mem = s.mem ∧ (streamDisabled s i).now = s.now ∧
    (streamDisabled s i).marver.periods = s.marver.periods :=
  ⟨mem_restateServo .., now_restateServo .., periods_restateServo ..⟩

end

/-! ### The statements -/

/-- Settles O47: each command under its conditions, by the lemma of its row. -/
theorem sensorPortsComplete : Obligations.SensorPortsComplete := by
  refine ⟨fun s port hon hlo hhi hst hf => ⟨_, rfl, camst_trainCamera_ok hon hlo hhi hst hf⟩, ?_, ?_, ?_, ?_, ?_, ?_, ?_⟩
  · rintro s port vc dt data t is img hon hst rfl rfl rfl
    exact exec_csi2Packet_frameStart vc data t hon hst
  · rintro s port vc dt data t is img hon hst rfl rfl rfl
    exact exec_csi2Packet_frameEnd vc data t hon hst
  · rintro s port vc dt data t is img b hon hst rfl rfl hd hb hl
    exact exec_csi2Packet_line vc data t hon hst hd hb hl
  · intro s port frame t i hst hlo hhi hf hg hm
    exact exec_ethFrameReceive_match t hst hlo hhi hf hg hm
  · intro s s1 s2 stream ecc t e bs on injected waits read sum form len ht hp
    exact exec_injectedEntryRelease_due ⟨on, injected, waits, read, sum, form, len⟩ ht hp
  · intro s stream v hin hold
    exact ⟨_, exec_injwrWrite_within hin hold, regFld_setRegFld_word s _ v (by decide)⟩
  · intro s v ecc h
    exact ⟨_, exec_poseWrite_stale ecc h, regFld_setRegFld_word s _ v (by decide), rfl⟩

/-- Settles O19: each command by the lemma of its row; an enabled and a disabled stream by what the end of both commands leaves. -/
theorem ingestCommands : Obligations.IngestCommands := by
  refine ⟨fun s port ok => ⟨rfl, camst_trainCamera_ok⟩, ?_, ?_, ?_, ?_, ?_, ?_, ?_, ?_, ?_⟩
  · rintro s port vc dt data hdrErr crcErr full t is img hon hst rfl rfl
    refine ⟨fun he => exec_csi2Packet_error vc data t hon hst he full, exec_csi2Packet_full vc data t hon hst, ?_, ?_, ?_⟩
    · rintro rfl
      exact exec_csi2Packet_frameStart vc data t hon hst
    · rintro rfl
      exact exec_csi2Packet_frameEnd vc data t hon hst
    · intro b hd hb hl
      exact exec_csi2Packet_line vc data t hon hst hd hb hl
  · intro s port frame t i hst
    refine ⟨?_, fun full => exec_ethFrameReceive_drop t hst (.inl rfl) full, fun full h => exec_ethFrameReceive_drop t hst (.inr h) full⟩
    rintro ⟨hlo, hhi⟩ hf hg hm
    exact exec_ethFrameReceive_match t hst hlo hhi hf hg hm
  · intro s s1 s2 stream ecc t e bs on injected waits read sum form len
    have ready : EntryReady s stream.val ecc t e s1 := ⟨on, injected, waits, read, sum, form, len⟩
    exact ⟨exec_injectedEntryRelease_early ready, exec_injectedEntryRelease_due ready⟩
  · intro s stream t hk hoff
    obtain ⟨hw, hr⟩ := injwr_streamEnabled s (i := stream.val) t
    exact ⟨_, exec_streamEnable s t stream hk hoff, streamOn_streamEnabled s t, servoSt_streamEnabled s t stream.isLt, hw, hr,
      servo_restateServo .., rfl, rfl, rfl⟩
  · intro s stream
    exact ⟨_, exec_streamDisable s stream, streamOn_streamDisabled s, servoSt_streamDisabled s stream.isLt, healthy_streamDisabled s,
      streamDisabled_leaves s⟩
  · intro s stream v hin hold
    exact ⟨_, exec_injwrWrite_within hin hold, regFld_setRegFld_word s _ v (by decide), onlyRegs_setRegFld (onlyRegs_refl s _) _ _ _ (.head _)⟩
  · intro s stream v h
    exact exec_injwrWrite_refused h
  · intro s v ecc h
    exact ⟨_, exec_poseWrite_stale ecc h, regFld_setRegFld_word s _ v (by decide), onlyRegs_setRegFld (onlyRegs_refl s _) _ _ _ (.head _)⟩
  · rintro s v ecc k new h hr rfl rfl
    exact exec_poseWrite_newer ecc h hr

end Sys2Proof.Machine
end

section
/-! SUPPORT. Sensor time (07_marver_ingest_time_and_projection.md): the hold times of a servo, the messages of gPTP and the steps of device time. -/

namespace Sys2Proof.Machine

/-! ### Servos (R260) -/

section
variable {s : State} {stream : Fin 64} {t : Nat}

/-- R260: a LOCKED stream without an accepted sample for its hold time goes to HOLDOVER. -/
theorem exec_servoHoldTimeout (hm : srcMode s stream.val ≠ 0) (hs : servoSt s stream.val = 2)
    (ht : (s.mstream stream.val).servo.accTime + s.regFld (Reg.marverShold stream.val) 0 32 ≤ max s.now t) :
    exec (.servoHoldTimeout stream t) s = .next (setServoSt (s.at t) stream.val 3) := by
  change execServoHoldTimeout stream t s = _
  exact if_pos ⟨hs, hm, ht⟩

/-- R260: after its longer time in HOLDOVER it goes to UNSYNC. -/
theorem exec_servoHoldmaxTimeout (hs : servoSt s stream.val = 3)
    (ht : (s.mstream stream.val).servo.accTime + s.regFld (Reg.marverShold stream.val) 32 32 ≤ max s.now t) :
    exec (.servoHoldmaxTimeout stream t) s = .next (enterUnsync (s.at t) stream.val 4) := by
  change execServoHoldmaxTimeout stream t s = _
  exact if_pos ⟨hs, ht⟩

theorem servoSt_setServoSt_holdover (u : State) (i : Nat) : servoSt (setServoSt u i 3) i = 3 := regFld_setRegFld_same u _ 3 (by decide)

end

/-! ### gPTP's data -/

section
variable (s : State) (g : Gptp)

@[simp] theorem gp_setGp : (setGp s g).marver.gp = g := rfl
@[simp] theorem now_setGp : (setGp s g).now = s.now := rfl
@[simp] theorem mem_setGp : (setGp s g).mem = s.mem := rfl

/-- gPTP's data shows in GPOFF and GPRATE alone. -/
theorem reg_setGp_other {o : Nat} (ho : o ≠ Reg.marverGpoff) (hr : o ≠ Reg.marverGprate) : (setGp s g).reg o = s.reg o := by
  unfold setGp
  rw [reg_setReg_other _ _ hr, reg_setReg_other _ _ ho]
  rfl

@[simp] theorem reg_setGp_gpstat : (setGp s g).reg Reg.marverGpstat = s.reg Reg.marverGpstat := reg_setGp_other s g (by decide) (by decide)

@[simp] theorem reg_setGp_gpgm : (setGp s g).reg Reg.marverGpgm = s.reg Reg.marverGpgm := reg_setGp_other s g (by decide) (by decide)

end

/-! ### Messages (R255, R256) -/

/-- An engine that is on stays as it is. -/
theorem gptpOn_of_on {s : State} (h : gpState s ≠ 0) : gptpOn s = s := if_neg h

/-- The ingress stamp of a message that arrives at `t` on gPTP's port. -/
def gptpStamp (s : State) (t : Nat) : Nat := t - s.regFld (Reg.marverEthcfg (s.regFld Reg.marverGpctl 1 3)) 8 12

section
variable {s : State} {domain : BitVec 7} {sq : BitVec 16} {t : Nat}

/-- R255: the first of two steps waits for its Follow_Up. -/
theorem exec_gptpSync_twoStep (origin corr : BitVec 64) (ht : gptpTakes s domain.toNat = true) (hon : gpState s ≠ 0) :
    exec (.gptpSync domain sq true origin corr t) s =
      .next (setGp (s.at t) { s.marver.gp with sync := some (sq.toNat, gptpStamp s t, signedOf corr.toNat 64) }) := by
  have on : gptpOn (s.at t) = s.at t := gptpOn_of_on hon
  change execGptpSync domain sq true origin corr t s = _
  simp [execGptpSync, ht, on, gptpStamp]

/-- R256: a Sync of one step is a sample. -/
theorem exec_gptpSync_oneStep (origin corr : BitVec 64) (ht : gptpTakes s domain.toNat = true) (hon : gpState s ≠ 0) :
    exec (.gptpSync domain sq false origin corr t) s =
      .next (gptpSample (s.at t) (syncTime s origin.toNat (signedOf corr.toNat 64)) (gptpStamp s t)) := by
  have on : gptpOn (s.at t) = s.at t := gptpOn_of_on hon
  change execGptpSync domain sq false origin corr t s = _
  simp [execGptpSync, ht, on, gptpStamp]

/-- R255: the Follow_Up of the Sync that waits makes it a sample. -/
theorem exec_gptpFollowUp (origin corr : BitVec 64) {tin : Nat} {c : Int} (ht : gptpTakes s domain.toNat = true)
    (hw : s.marver.gp.sync = some (sq.toNat, tin, c)) :
    exec (.gptpFollowUp domain sq origin corr t) s = .next (gptpSample (setGp (s.at t) { s.marver.gp with sync := none })
      (syncTime s origin.toNat (c + signedOf corr.toNat 64)) tin) := by
  have delay : ∀ o x, syncTime (setGp (s.at t) { s.marver.gp with sync := none }) o x = syncTime s o x := fun _ _ => rfl
  change execGptpFollowUp domain sq origin corr t s = _
  simp [execGptpFollowUp, ht, hw, delay]

end

/-- The state after another grandmaster has taken the place of one (R255): GPSTAT.GMCHG is set, and the servo begins anew in ACQUIRE. -/
def grandmasterChanged (s : State) (gm : BitVec 64) : State :=
  setGp (((s.setReg Reg.marverGpgm gm).setRegBit Reg.marverGpstat 2 true).setRegFld Reg.marverGpstat 0 2 1)
    { s.marver.gp with servo := { s.marver.gp.servo with init := true, count := 0, rate := 0 } }

section
variable {s : State} {domain : BitVec 7} {gm : BitVec 64}

/-- An Announce of the grandmaster in force changes nothing. -/
theorem exec_gptpAnnounce_same (ht : gptpTakes s domain.toNat = true) (hon : gpState s ≠ 0) (hg : s.reg Reg.marverGpgm = gm) :
    exec (.gptpAnnounce domain gm) s = .next s := by
  change execGptpAnnounce domain gm s = _
  simp [execGptpAnnounce, ht, gptpOn_of_on hon, hg]

/-- The first grandmaster is recorded. -/
theorem exec_gptpAnnounce_first (ht : gptpTakes s domain.toNat = true) (hon : gpState s ≠ 0) (hg : s.reg Reg.marverGpgm ≠ gm)
    (h0 : s.reg Reg.marverGpgm = 0#64) : exec (.gptpAnnounce domain gm) s = .next (s.setReg Reg.marverGpgm gm) := by
  change execGptpAnnounce domain gm s = _
  rw [h0] at hg
  simp [execGptpAnnounce, ht, gptpOn_of_on hon, h0, hg]

/-- Another grandmaster than the one recorded restarts the servo. -/
theorem exec_gptpAnnounce_change (ht : gptpTakes s domain.toNat = true) (hon : gpState s ≠ 0) (hg : s.reg Reg.marverGpgm ≠ gm)
    (h0 : s.reg Reg.marverGpgm ≠ 0#64) : exec (.gptpAnnounce domain gm) s = .next (grandmasterChanged s gm) := by
  change execGptpAnnounce domain gm s = _
  simp [execGptpAnnounce, ht, gptpOn_of_on hon, h0, hg, grandmasterChanged]

theorem gpgm_grandmasterChanged : (grandmasterChanged s gm).reg Reg.marverGpgm = gm := by
  unfold grandmasterChanged
  rw [reg_setGp_gpgm, reg_setRegFld_other _ _ _ _ (by decide), reg_setRegBit_other _ _ _ (by decide), reg_setReg_same]

theorem gpState_grandmasterChanged : gpState (grandmasterChanged s gm) = 1 := by
  simp [gpState, grandmasterChanged, ← fld_reg, fld_setFld_same]

theorem gmchg_grandmasterChanged : (grandmasterChanged s gm).regBit Reg.marverGpstat 2 = true := by
  simp [grandmasterChanged, ← bitAt_reg, bitAt_setFld_other, bitAt_setBit_same]

end

/-! ### The link delay (R255) -/

section
variable {s : State} {sq : BitVec 16} {t : Nat}

theorem exec_pdelayReqSend (hon : s.regBit Reg.marverGpctl 0 = true) (hd : pdelayDue (s.at t) = true) :
    exec (.pdelayReqSend sq t) s = .next (setGp (s.at t) { s.marver.gp with
      pdelay := some (sq.toNat, t + s.regFld (Reg.marverEthcfg (s.regFld Reg.marverGpctl 1 3)) 20 12), pdelayAt := some (max s.now t) }) := by
  change execPdelayReqSend sq t s = _
  simp [execPdelayReqSend, hon, hd]

theorem exec_pdelayResp (t2 t3 : BitVec 64) {t1 : Nat} (hon : s.regBit Reg.marverGpctl 0 = true) (hw : s.marver.gp.pdelay = some (sq.toNat, t1)) :
    exec (.pdelayResp sq t2 t3 t) s = .next (setGp (s.at t) { s.marver.gp with
      pdelay := none, ratio := Config.neighbourRatio s.marver.gp.ratio t3.toNat (gptpStamp s t),
      delay := Config.linkDelay s.marver.gp.delay (Config.neighbourRatio s.marver.gp.ratio t3.toNat (gptpStamp s t)) t1 t2.toNat t3.toNat
        (gptpStamp s t) }) := by
  change execPdelayResp sq t2 t3 t s = _
  simp [execPdelayResp, hon, hw, gptpStamp]

end

/-! ### HOLDOVER and the steps of device time (R256) -/

section
variable (s : State) (t : Nat)

/-- The Sync intervals missed by `t`, counted. -/
def syncMissed : State := gptpMiss (s.at t) ((max s.now t - s.marver.gp.sampleAt) / syncInterval s)

/-- The state after gPTP has gone to HOLDOVER. -/
def gptpHeld : State := setGp ((syncMissed s t).setRegFld Reg.marverGpstat 0 2 3) { (syncMissed s t).marver.gp with holdAt := max s.now t }

/-- R256: three intervals without a sample. -/
theorem exec_gptpSyncTimeout (hs : gpState s = 2) (ht : s.marver.gp.sampleAt + 3 * syncInterval s ≤ max s.now t) :
    exec (.gptpSyncTimeout t) s = .next (gptpHeld s t) := by
  change execGptpSyncTimeout t s = _
  exact if_pos ⟨hs, ht⟩

theorem gpState_gptpHeld : gpState (gptpHeld s t) = 3 := by simp [gpState, gptpHeld, ← fld_reg, fld_setFld_same]

/-- R256: ten seconds of HOLDOVER. -/
theorem exec_steerHoldoverExpiry (hs : gpState s = 3) (ht : s.marver.gp.holdAt + 10000000000 ≤ max s.now t) :
    exec (.steerHoldoverExpiry t) s = .next (setGp (s.at t) { settleSteer s.marver.gp (max s.now t) with rho := 0 }) := by
  change execSteerHoldoverExpiry t s = _
  exact if_pos ⟨hs, ht⟩

/-- The state after a step of device time: 1 ns added or withheld, and taken off what the rate has added up to. -/
def timeStepped (add : Bool) : State :=
  let n := max s.now t + if add then 1 else 0
  let g := settleSteer s.marver.gp (max s.now t)
  setGp { s with now := n } { g with adjusted := n, phase := g.phase - if add then 2 ^ 40 else -(2 ^ 40) }

/-- R256: a step that is due, not sooner than 20,000 ns after the last. -/
theorem exec_deviceTimeAdjust (add : Bool) (hon : s.regBit Reg.marverGpctl 11 = true) (ht : s.marver.gp.adjusted + 20000 ≤ max s.now t)
    (hd : adjustDue (settleSteer s.marver.gp (max s.now t)) add = true) :
    exec (.deviceTimeAdjust add t) s = .next (timeStepped s t add) := by
  have due : ¬((!(s.at t).regBit Reg.marverGpctl 11) = true ∨ (s.at t).now < (settleSteer s.marver.gp (max s.now t)).adjusted + 20000 ∨
      (!adjustDue (settleSteer s.marver.gp (max s.now t)) add) = true) := by
    rw [regBit_at, hon, hd]
    exact not_or.mpr ⟨Bool.false_ne_true, not_or.mpr ⟨Nat.not_lt.mpr ht, Bool.false_ne_true⟩⟩
  change execDeviceTimeAdjust add t s = _
  refine (if_neg due).trans ?_
  cases add with
  | true => rfl
  | false => simp [timeStepped, State.at]

end

/-! ### Modes, plausibility and the event log (R282, R307, R321) -/

section
variable (s : State)

theorem exec_modeRequest (v : BitVec 2) : exec (.modeRequest v) s = .next (requestMode s v.toNat) := rfl

theorem mode_requestMode (v : BitVec 2) : (requestMode s v.toNat).regFld Reg.marverFusctl 0 2 = v.toNat := by
  unfold requestMode
  rw [regFld_setRegBit_off _ _ _ _ _ (by decide), regFld_setRegFld_same _ _ _ (by decide), Nat.mod_eq_of_lt v.isLt]

/-- FUSSTAT.PEND shows the request. -/
theorem pend_requestMode (v : Nat) : (requestMode s v).regBit Reg.marverFusstat 2 = true := regBit_setRegBit_same _ _ _ (by decide)

theorem exec_marverEvlogRead : exec .marverEvlogRead s =
    .next { s with readData := s.marver.log.head, marver := { s.marver with log := s.marver.log.pop } } := rfl

/-- The state after an evaluation: every stream judged, the count of periods at zero. -/
def plausibilityJudged : State :=
  let u := (List.range 64).foldl plausStream s
  { u with marver := { u.marver with plPeriods := 0 } }

/-- R307: an evaluation is due after PLWIN periods. -/
theorem exec_plausibilityEval (t : Nat) (hp : s.regFld Reg.marverCnfcfg 16 8 ≤ s.marver.plPeriods) (h0 : s.marver.plPeriods ≠ 0) :
    exec (.plausibilityEval t) s = .next (plausibilityJudged (s.at t)) := by
  change execPlausibilityEval t s = _
  exact if_neg (not_or.mpr ⟨Nat.not_lt.mpr hp, h0⟩)

end

/-! ### The statements -/

/-- Settles O20: each command by the lemma of its row. -/
theorem marverTimeCommands : Obligations.MarverTimeCommands := by
  refine ⟨?_, ?_, ?_, ?_, ?_, ?_, ?_, ?_, ?_, ?_, ?_, exec_marverEvlogRead⟩
  · intro s stream t hm hs ht
    exact ⟨_, exec_servoHoldTimeout hm hs ht, servoSt_setServoSt_holdover _ _, onlyRegs_setRegFld (onlyRegs_refl _ _) _ _ _ (.head _)⟩
  · intro s stream t hs ht
    exact exec_servoHoldmaxTimeout hs ht
  · intro s domain sq origin corr t ht hon
    exact ⟨⟨_, exec_gptpSync_twoStep origin corr ht hon, rfl, rfl⟩, exec_gptpSync_oneStep origin corr ht hon⟩
  · intro s domain sq origin corr t tin c ht hw
    exact exec_gptpFollowUp origin corr ht hw
  · intro s domain gm ht hon
    by_cases hg : s.reg Reg.marverGpgm = gm
    · exact ⟨s, exec_gptpAnnounce_same ht hon hg, hg, fun _ => rfl, fun h => absurd hg h⟩
    by_cases h0 : s.reg Reg.marverGpgm = 0#64
    · exact ⟨_, exec_gptpAnnounce_first ht hon hg h0, reg_setReg_same .., fun h => absurd h hg, fun _ h => absurd h0 h⟩
    · exact ⟨_, exec_gptpAnnounce_change ht hon hg h0, gpgm_grandmasterChanged, fun h => absurd h hg,
        fun _ _ => ⟨gpState_grandmasterChanged, gmchg_grandmasterChanged, rfl, rfl⟩⟩
  · rintro s sq t tx hon hd rfl
    exact exec_pdelayReqSend hon hd
  · rintro s sq t2 t3 t t1 t4 x hon hw rfl rfl
    exact exec_pdelayResp t2 t3 hon hw
  · intro s t hs ht
    exact exec_gptpSyncTimeout s t hs ht
  · intro s t hs ht
    exact ⟨_, exec_steerHoldoverExpiry s t hs ht, rfl⟩
  · intro s add t hon ht hd
    exact ⟨_, exec_deviceTimeAdjust s t add hon ht hd, rfl, rfl, rfl⟩
  · intro s v
    exact ⟨_, exec_modeRequest s v, rfl, mode_requestMode s v, pend_requestMode s v.toNat, rfl⟩

/-- Settles O48: each command by the lemma of its row; streams enabled and disabled as for O19. -/
theorem streamTimeCompletes : Obligations.StreamTimeCompletes := by
  refine ⟨?_, ?_, ?_, ?_, ?_, ?_, ?_, ?_, ?_, ?_, ?_, ?_, ?_, ?_, ?_⟩
  · intro s stream t hk hoff
    exact ⟨_, exec_streamEnable s t stream hk hoff, streamOn_streamEnabled s t, servoSt_streamEnabled s t stream.isLt⟩
  · intro s stream
    exact ⟨_, exec_streamDisable s stream, streamOn_streamDisabled s, servoSt_streamDisabled s stream.isLt⟩
  · intro s stream t hm hs ht
    exact ⟨_, exec_servoHoldTimeout hm hs ht, servoSt_setServoSt_holdover _ _⟩
  · intro s stream t hs ht
    exact exec_servoHoldmaxTimeout hs ht
  · intro s domain sq origin corr t ht hon
    exact exec_gptpSync_oneStep origin corr ht hon
  · intro s domain sq origin corr t tin c ht _ hw
    exact exec_gptpFollowUp origin corr ht hw
  · intro s domain gm ht hon hg h0
    exact ⟨_, exec_gptpAnnounce_change ht hon hg h0, gpgm_grandmasterChanged, gpState_grandmasterChanged, gmchg_grandmasterChanged⟩
  · intro s sq t hon hd
    exact ⟨_, exec_pdelayReqSend hon hd, rfl⟩
  · intro s sq t2 t3 t t1 hon hw
    exact ⟨_, exec_pdelayResp t2 t3 hon hw, rfl, rfl⟩
  · intro s t hs ht
    exact ⟨_, exec_gptpSyncTimeout s t hs ht, gpState_gptpHeld s t, rfl⟩
  · intro s t hs ht
    exact ⟨_, exec_steerHoldoverExpiry s t hs ht, rfl⟩
  · intro s add t hon ht hd
    exact ⟨_, exec_deviceTimeAdjust s t add hon ht hd, rfl⟩
  · intro s v
    exact ⟨_, exec_modeRequest s v, rfl⟩
  · intro s
    exact ⟨_, exec_marverEvlogRead s, rfl, rfl⟩
  · intro s t hp h0
    exact ⟨_, exec_plausibilityEval s t hp h0, rfl⟩

end Sys2Proof.Machine
end

section
/-! SUPPORT. The work on a period (07_marver_ingest_time_and_projection.md, 08_marver_tracking_and_fusion_levels.md): what the end of a scatter
completes while another scatter waits. -/

namespace Sys2Proof.Machine

/-- R290: the end of the oldest period's accepted scatter completes its grid, whatever else waits for it. -/
theorem exec_scatterDone {s : State} {ecc : MemEcc} {t n : Nat} {p q : MPeriod} {rest : List MPeriod} {ns : List Nat}
    (hp : s.marver.periods = p :: rest) (hj : p.projected.isSome = true) (hg : p.gridDone = false) (hn : p.scatters = n :: ns)
    (hq : ((List.range n).foldl (scatterEntry ecc p.frame) (s.at t)).mperiod p.frame = some q) :
    exec (.scatterDone ecc t) s = .next (completeGrid ((List.range n).foldl (scatterEntry ecc p.frame) (s.at t)) q false) := by
  have oldest : (s.at t).marver.periods.find? (fun p => p.projected.isSome && !p.gridDone && !p.scatters.isEmpty) = some p := by
    rw [State.at_marver, hp]
    exact List.find?_cons_of_pos (by simp [hj, hg, hn])
  change execScatterDone ecc t s = _
  simp only [execScatterDone, oldest, hn, List.headD_cons, hq]

/-- Frame 7 is closed and projected, and two scatters of one entry each are accepted for its grid, which is not complete. -/
def twoScatters : MPeriod := ⟨7, 0, some 0, 1, true, [], 0, 0, [], some 0, false, [], false, [1, 1], [], none, false, [], false⟩

/-- After reset, Marver at work on that period. -/
def scattersWait : State := { State.reset with marver := { State.reset.marver with periods := [twoScatters] } }

/-- The entry of the oldest scatter, which DRAM does not back, is skipped. -/
def oldestApplied : State := (List.range 1).foldl (scatterEntry .clean 7) (scattersWait.at 0)

/-- The period then: its first skipped entry is logged (R289). -/
def skippedOnce : MPeriod := { twoScatters with logged := [0x070A] }

theorem mperiod_oldestApplied : oldestApplied.mperiod 7 = some skippedOnce := by decide +kernel

/-- The oldest scatter taken off the list, the second one waiting: the state in which the statements' clause leaves the grid incomplete. -/
def secondWaits : State := mapPeriod oldestApplied 7 (fun p => { p with scatters := p.scatters.tail })

theorem mperiod_secondWaits : secondWaits.mperiod 7 = some { skippedOnce with scatters := [1] } := by decide +kernel

/-- GRIDSTAT names no frame there. -/
theorem gridstat_secondWaits : secondWaits.regFld Reg.marverGridstat 0 32 = 0 := by decide +kernel

/-- R290: the complete grid's frame stands in GRIDSTAT. -/
theorem gridstat_completeGrid_oldestApplied : (completeGrid oldestApplied skippedOnce false).regFld Reg.marverGridstat 0 32 = 7 := by decide +kernel

/-- The end of the first scatter completes the grid, and the second is not waited for. -/
theorem exec_scatterDone_scattersWait : exec (.scatterDone .clean 0) scattersWait ≠ .next secondWaits := by
  rw [exec_scatterDone (p := twoScatters) rfl rfl rfl rfl mperiod_oldestApplied]
  intro answer
  have named := gridstat_completeGrid_oldestApplied
  rw [show completeGrid oldestApplied skippedOnce false = secondWaits from Host.Outcome.next.inj answer, gridstat_secondWaits] at named
  exact absurd named (by decide)

/-- Refutes O21: its clause of SCATTER_DONE has the grid wait for the last of several accepted scatters. R290 completes it at the end of one: in
`scattersWait` the first of two completes the grid of frame 7. -/
theorem not_marverRunCommands : ¬ Obligations.MarverRunCommands := by
  rintro ⟨-, -, -, -, -, scatterDone, -⟩
  have answer := scatterDone scattersWait secondWaits .clean 0 1 twoScatters _ [] [1] rfl rfl rfl rfl rfl mperiod_secondWaits
  exact exec_scatterDone_scattersWait (answer.trans (congrArg _ (if_neg (by decide))))

/-- Refutes O49: its clause of SCATTER_DONE has the grid wait for the last of several accepted scatters, as in O21, and `scattersWait` shows the
same. -/
theorem not_periodWorkCompletes : ¬ Obligations.PeriodWorkCompletes := by
  rintro ⟨-, -, -, -, -, -, -, scatterDone, -⟩
  have answer := scatterDone scattersWait secondWaits .clean 0 1 0 twoScatters _ [] [1] rfl rfl rfl rfl rfl mperiod_secondWaits
  exact exec_scatterDone_scattersWait (answer.trans (congrArg _ (if_neg (by decide))))

end Sys2Proof.Machine
end

section
/-! SUPPORT. Runs of the machine (00_scope.md): what any number of steps keeps, what has left the device among it. -/

namespace Sys2Proof.Machine

/-- A step from a state in order keeps what a command keeps; the queue is what it left. -/
theorem kept_step {s t : State} (hr : RegsWf s) (hm : Memory.wf s.mem) (hl : LogsWf s) (e : step s = .next t) :
    Kept { s with pending := t.pending } t := by
  unfold step at e
  split at e
  · next => exact Host.Outcome.next.inj e ▸ Kept.refl hr hm hl
  · next c rest hq =>
    obtain ⟨u, hu, hk⟩ := kept_exec (s := { s with pending := rest }) (Kept.refl hr hm hl) c
    obtain rfl : u = t := Host.Outcome.next.inj (hu.symm.trans e)
    rwa [hk.pending]

/-- What two steps or runs keep, one after the other, the pair of them keeps. -/
theorem Kept.andThen {s t u : State} (h : Kept { s with pending := t.pending } t) (g : Kept { t with pending := u.pending } u) :
    Kept { s with pending := u.pending } u where
  pending := rfl
  fresh := Nat.le_trans h.fresh g.fresh
  regs := g.regs
  dram := g.dram
  logs := g.logs
  can := h.can.trans g.can
  host := h.host.trans g.host
  sent := h.sent.trans g.sent
  arb := fun ty => Nat.le_trans (h.arb ty) (g.arb ty)
  dbg := g.dbg.trans h.dbg

/-- Any number of steps keeps what one step keeps. -/
theorem kept_stepsTo {n : Nat} {s t : State} (hr : RegsWf s) (hm : Memory.wf s.mem) (hl : LogsWf s) (e : stepsTo n s = some t) :
    Kept { s with pending := t.pending } t := by
  induction n generalizing s with
  | zero => exact Option.some.inj e ▸ Kept.refl hr hm hl
  | succ n ih =>
    unfold stepsTo at e
    split at e
    · next u hu =>
      have first := kept_step hr hm hl hu
      exact first.andThen (ih first.regs first.dram first.logs e)
    · next => exact absurd e (by simp)

/-- Settles O45: a run keeps what has left the device (`kept_stepsTo`). -/
theorem whatLeftTheDeviceStays : Obligations.WhatLeftTheDeviceStays := by
  intro n s t hr hm hl e
  have kept := kept_stepsTo hr hm hl e
  exact ⟨kept.can, kept.host, kept.sent⟩

end Sys2Proof.Machine
end

section
/-! SUPPORT. The rings of Bomus (09_bomus_command_protocol.md): doorbells, rings enabled, disabled and failed, entries consumed, the host's memory
window, and functions. -/

namespace Sys2Proof.Machine

/-! ### Doorbells (R326, R329) -/

section
variable {s : State}

/-- A BAR2 write while the host die answers. -/
theorem bar2Access_write (hd : hostDieDown s = false) (fn : Fin 16) (ring : Fin 256) (page : BitVec 12) (aligned : Bool) (v : BitVec 32) :
    bar2Access s fn ring page aligned (some v) = bar2Write s fn.val ring.val page.toNat aligned v.toNat := by
  simp only [bar2Access, hd, Bool.false_eq_true, if_false]

/-- A write that does not reach the doorbell page sets DBREF alone. -/
theorem bar2Write_refused {fn n : Nat} {aligned : Bool} (h : fn ≠ ringOwner s n ∨ aligned = false) (page v : Nat) :
    bar2Write s fn n page aligned v = s.setRegBit (Reg.bomusRstat n) 7 true :=
  if_pos (h.symm.imp_left fun e => by simp [e])

/-- A write that reaches the page goes to the doorbell at its offset. -/
theorem bar2Write_owned {fn n : Nat} (h : fn = ringOwner s n) (page v : Nat) :
    bar2Write s fn n page true v = if page = 0x000 then writeSqTail s n v else if page = 0x008 then writeCqHead s n v else s :=
  if_neg (by simp [h])

section
variable {fn : Fin 16} {ring : Fin 256} {v : BitVec 32} (hd : hostDieDown s = false) (hfn : fn.val = ringOwner s ring.val)
include hd hfn

theorem exec_sqTailDoorbell_taken (hc : countDiff v.toNat (sqHead s ring.val) ≤ sqSize s ring.val)
    (ho : newer32 (sqTail s ring.val) v.toNat = false) :
    exec (.sqTailDoorbell fn ring ⟨0#12, true⟩ (some v)) s = .next (s.setRegFld (Reg.bomusSqtail ring.val) 0 32 v.toNat) := by
  change execSqTailDoorbell fn ring ⟨0#12, true⟩ (some v) s = _
  rw [execSqTailDoorbell, bar2Access_write hd, bar2Write_owned hfn, if_pos (by rfl), writeSqTail, if_pos ⟨hc, by simp [ho]⟩]

theorem exec_cqHeadDoorbell_taken (hc : countDiff v.toNat (cqHead s ring.val) ≤ cqSize s ring.val)
    (ht : countDiff (cqTail s ring.val) v.toNat ≤ cqSize s ring.val) :
    exec (.cqHeadDoorbell fn ring ⟨8#12, true⟩ (some v)) s = .next (s.setRegFld (Reg.bomusCqhead ring.val) 0 32 v.toNat) := by
  change execCqHeadDoorbell fn ring ⟨8#12, true⟩ (some v) s = _
  rw [execCqHeadDoorbell, bar2Access_write hd, bar2Write_owned hfn, if_neg (by decide), if_pos (by rfl), writeCqHead, if_pos ⟨hc, ht⟩]

/-- The page's other offsets are reserved. -/
theorem exec_doorbell_reserved {page : BitVec 12} (h0 : page ≠ 0#12) (h8 : page ≠ 8#12) :
    exec (.sqTailDoorbell fn ring ⟨page, true⟩ (some v)) s = .next s := by
  have p0 : page.toNat ≠ 0x000 := fun e => h0 (BitVec.eq_of_toNat_eq e)
  have p8 : page.toNat ≠ 0x008 := fun e => h8 (BitVec.eq_of_toNat_eq e)
  change execSqTailDoorbell fn ring ⟨page, true⟩ (some v) s = _
  rw [execSqTailDoorbell, bar2Access_write hd, bar2Write_owned hfn, if_neg p0, if_neg p8]

end

/-- DBREF of one ring moves no index and no state of any ring. -/
theorem dbref_moves_nothing (s : State) (n m : Nat) :
    sqTail (s.setRegBit (Reg.bomusRstat n) 7 true) m = sqTail s m ∧ cqHead (s.setRegBit (Reg.bomusRstat n) 7 true) m = cqHead s m ∧
      ringSt (s.setRegBit (Reg.bomusRstat n) 7 true) m = ringSt s m := by
  refine ⟨regFld_setRegBit_off s 7 true 0 32 (by simp only [Reg.bomusSqtail, Reg.bomusRstat]; omega),
    regFld_setRegBit_off s 7 true 0 32 (by simp only [Reg.bomusCqhead, Reg.bomusRstat]; omega), ?_⟩
  by_cases h : Reg.bomusRstat m = Reg.bomusRstat n
  · simp only [ringSt, h]
    exact regFld_setRegBit_other s _ true (by decide) (by decide)
  · exact regFld_setRegBit_off s 7 true 0 2 h

end

/-- Settles O38: the write sets DBREF alone, which is in no register of a count. -/
theorem ownRingsOnly : Obligations.OwnRingsOnly := by
  refine ⟨fun s fn ring page aligned v hd h => ?_, fun s ring other => dbref_moves_nothing s ring.val other.val⟩
  have refused : bar2Access s fn ring page aligned (some v) = s.setRegBit (Reg.bomusRstat ring.val) 7 true :=
    (bar2Access_write hd ..).trans (bar2Write_refused h ..)
  exact ⟨congrArg Host.Outcome.next refused, congrArg Host.Outcome.next refused⟩

/-! ### Rings enabled and disabled (R331) -/

section
variable (s : State) (n : Nat)

/-- The counts of a ring and its LASTSEQ. -/
def ringCounts (n : Nat) : List Nat := [Reg.bomusSqhead n, Reg.bomusSqtail n, Reg.bomusCqtail n, Reg.bomusCqhead n, Reg.bomusLastseq n]

theorem rcfg_not_count : Reg.bomusRcfg n ∉ ringCounts n := by
  simp [ringCounts, Reg.bomusSqhead, Reg.bomusSqtail, Reg.bomusCqtail, Reg.bomusCqhead, Reg.bomusLastseq, Reg.bomusRcfg]

theorem rstat_not_count : Reg.bomusRstat n ∉ ringCounts n := by
  simp [ringCounts, Reg.bomusSqhead, Reg.bomusSqtail, Reg.bomusCqtail, Reg.bomusCqhead, Reg.bomusLastseq, Reg.bomusRstat]

/-- Registers cleared read zero, every other as before. -/
theorem reg_cleared (l : List Nat) (o : Nat) : (l.foldl (fun s r => s.setReg r 0#64) s).reg o = if o ∈ l then 0#64 else s.reg o := by
  induction l generalizing s with
  | nil => rfl
  | cons r l ih =>
    rw [List.foldl_cons, ih]
    by_cases hr : o = r
    · simp [hr]
    · simp [hr, reg_setReg_other s _ hr]

/-- The state of a ring just set. -/
theorem ringSt_setRingSt {x : Nat} (hx : x < 4) : ringSt (setRingSt s n x) n = x :=
  (regFld_setRegFld_same _ _ _ (by decide)).trans (Nat.mod_eq_of_lt hx)

/-- The ring with EN set and its counts at zero. -/
def countsCleared : State := (ringCounts n).foldl (fun s r => s.setReg r 0#64) (s.setRegBit (Reg.bomusRcfg n) 0 true)

/-- The state that RING_ENABLE leaves of a ring with valid settings. -/
def ringEnabled : State :=
  setRingSt { countsCleared s n with bench := { (countsCleared s n).bench with
    lastSet := (countsCleared s n).bench.lastSet.filter (fun x => decide (x ≠ n)) } } n 1

theorem reg_ringEnabled {o : Nat} (ho : o ≠ Reg.bomusRstat n) :
    (ringEnabled s n).reg o = if o ∈ ringCounts n then 0#64 else (s.setRegBit (Reg.bomusRcfg n) 0 true).reg o := by
  rw [ringEnabled, setRingSt, reg_setRegFld_other _ _ _ _ ho, reg_mk, countsCleared, reg_cleared]

/-- A count of the ring just enabled. -/
theorem count_ringEnabled {o : Nat} (ho : o ∈ ringCounts n) : (ringEnabled s n).regFld o 0 32 = 0 := by
  have other : o ≠ Reg.bomusRstat n := fun e => rstat_not_count n (e ▸ ho)
  rw [State.regFld, reg_ringEnabled s n other, if_pos ho]
  rfl

theorem en_ringEnabled : (ringEnabled s n).regBit (Reg.bomusRcfg n) 0 = true := by
  have other : Reg.bomusRcfg n ≠ Reg.bomusRstat n := by simp only [Reg.bomusRcfg, Reg.bomusRstat]; omega
  rw [State.regBit, reg_ringEnabled s n other, if_neg (rcfg_not_count n)]
  exact regBit_setRegBit_same s _ true (by decide)

theorem lastSet_ringEnabled : (ringEnabled s n).bench.lastSet.contains n = false := by simp [ringEnabled, setRingSt]

end

section
variable {s : State} {who : Ident} {ring : Fin 256}

theorem exec_ringEnable (hw : ringWriter s who ring.val = true) (hst : ringSt s ring.val = 0) (hd : hostDieDown s = false)
    (hsize : ∀ i ∈ [6, 11], 4 ≤ s.regFld (Reg.bomusRcfg ring.val) i 5 ∧ s.regFld (Reg.bomusRcfg ring.val) i 5 ≤ 16)
    (hf : fnEnabled s (ringOwner s ring.val) = true) : exec (.ringEnable who ring) s = .next (ringEnabled s ring.val) := by
  obtain ⟨sqLo, sqHi⟩ := hsize 6 (by simp)
  obtain ⟨cqLo, cqHi⟩ := hsize 11 (by simp)
  change execRingEnable who ring s = _
  unfold execRingEnable
  refine (if_neg (by simp [hw, hst, hd])).trans (if_neg ?_)
  rw [State.regFld] at sqLo sqHi cqLo cqHi
  simp [sqLo, sqHi, cqLo, cqHi, hf]

/-- The state that RING_DISABLE leaves of an ACTIVE ring: DRAINING, or DISABLED where no command of it is live. -/
def ringDisabled (s : State) (n : Nat) : State := ringSettle (setRingSt (s.setRegBit (Reg.bomusRcfg n) 0 false) n 2) n

theorem exec_ringDisable (hw : ringWriter s who ring.val = true) (hst : ringSt s ring.val = 1) (hd : hostDieDown s = false) :
    exec (.ringDisable who ring) s = .next (ringDisabled s ring.val) := by
  change execRingDisable who ring s = _
  unfold execRingDisable
  exact (if_neg (by simp [hw, hd])).trans (congrArg (fun u => Host.Outcome.next (ringSettle u ring.val)) (if_pos hst))

end

section
variable (s : State) (n : Nat)

/-- A ring put into DRAINING is DISABLED at once where none of its commands is live. -/
theorem ringDisabled_eq : ringDisabled s n = if ringCmds s n = [] then setRingSt (setRingSt (s.setRegBit (Reg.bomusRcfg n) 0 false) n 2) n 0
    else setRingSt (s.setRegBit (Reg.bomusRcfg n) 0 false) n 2 := by
  have draining : ringSt (setRingSt (s.setRegBit (Reg.bomusRcfg n) 0 false) n 2) n = 2 := ringSt_setRingSt _ n (by decide)
  have cmds : ringCmds (setRingSt (s.setRegBit (Reg.bomusRcfg n) 0 false) n 2) n = ringCmds s n := rfl
  simp [ringDisabled, ringSettle, draining, cmds]

theorem ringSt_ringDisabled : ringSt (ringDisabled s n) n = if ringCmds s n = [] then 0 else 2 := by
  rw [ringDisabled_eq, apply_ite (ringSt · n), ringSt_setRingSt _ n (by decide), ringSt_setRingSt _ n (by decide)]

theorem onlyRegs_ringDisabled : OnlyRegs s (ringDisabled s n) [Reg.bomusRcfg n, Reg.bomusRstat n] := by
  have cleared := onlyRegs_setRegBit (onlyRegs_refl s [Reg.bomusRcfg n, Reg.bomusRstat n]) (off := Reg.bomusRcfg n) 0 false (by simp)
  have draining := onlyRegs_setRegFld cleared (off := Reg.bomusRstat n) 0 2 2 (by simp)
  rw [ringDisabled_eq]
  split
  · exact onlyRegs_setRegFld draining 0 2 0 (by simp)
  · exact draining

theorem en_ringDisabled : (ringDisabled s n).regBit (Reg.bomusRcfg n) 0 = false := by
  have other : Reg.bomusRcfg n ≠ Reg.bomusRstat n := by simp only [Reg.bomusRcfg, Reg.bomusRstat]; omega
  have cleared : (s.setRegBit (Reg.bomusRcfg n) 0 false).regBit (Reg.bomusRcfg n) 0 = false := regBit_setRegBit_same s _ false (by decide)
  rw [ringDisabled_eq]
  split <;> simp only [setRingSt, regBit_setRegFld_off _ _ _ _ _ other, cleared]

end

/-! ### Failures of the host (R331) -/

section
variable {s : State} {ring : Fin 256}

theorem exec_entryReadError (hst : ringSt s ring.val = 1) (hq : sqHead s ring.val ≠ sqTail s ring.val) :
    exec (.entryReadError ring) s = .next (ringError (s.setRegBit (Reg.bomusRstat ring.val) 5 true) ring.val) := by
  change execEntryReadError ring s = _
  exact if_neg (by simp [hst, hq])

theorem exec_recordWriteRefused (hst : ringSt s ring.val = 1 ∨ ringSt s ring.val = 2) :
    exec (.recordWriteRefused ring) s = .next (ringError (s.setRegBit (Reg.bomusRstat ring.val) 6 true) ring.val) := by
  change execRecordWriteRefused ring s = _
  exact if_neg (by omega)

end

/-! ### Consumption (R330, R355) -/

section
variable {s : State} {ring : Fin 256} {entry : BitVec 512} {ecc : MemEcc} {t : Nat}

/-- A ring with an entry to consume has its turn, and the entry passes the checks on itself (checks 1 to 9 of R355). -/
structure EntryPasses (s : State) (ring : Fin 256) (entry : BitVec 512) (t : Nat) : Prop where
  may : mayConsume (s.at t) ring.val = true
  turn : turnOf (s.at t) ring.val = true
  passes : earlyChecks (fetchEntry (s.at t) ring.val) ring.val (leBytes 64 entry.toNat) = none

theorem exec_entryConsume_operation (h : EntryPasses s ring entry t) (hop : runsPrograms (leAt (leBytes 64 entry.toNat) 0 1) = false) :
    exec (.entryConsume ring entry ecc t) s = .next (goLive (fetchEntry (s.at t) ring.val) ring.val
      (newCmd (fetchEntry (s.at t) ring.val) ring.val (ringOwner s ring.val) (leBytes 64 entry.toNat) none [])) := by
  change execEntryConsume ring entry ecc t s = _
  unfold execEntryConsume
  refine (if_neg (by simp only [h.may, h.turn]; decide)).trans ?_
  simp only [h.passes, hop, Bool.false_eq_true, if_false, ringOwner_at]

theorem exec_entryConsume_program {u : State} {d : KDesc} {args : List (Nat × Nat)} (h : EntryPasses s ring entry t)
    (hop : runsPrograms (leAt (leBytes 64 entry.toNat) 0 1) = true)
    (hrun : runChecks (fetchEntry (s.at t) ring.val) (ringOwner s ring.val) (leBytes 64 entry.toNat) ecc = (u, .ok (d, args))) :
    exec (.entryConsume ring entry ecc t) s =
      .next (goLive u ring.val (newCmd u ring.val (ringOwner s ring.val) (leBytes 64 entry.toNat) (some d) args)) := by
  change execEntryConsume ring entry ecc t s = _
  unfold execEntryConsume
  refine (if_neg (by simp only [h.may, h.turn]; decide)).trans ?_
  simp only [h.passes, hop, if_true, ringOwner_at, hrun]

end

/-! ### The host's memory window (R325) -/

section
variable {s u : State} {fn : Fin 16} {off : BitVec 36} (hd : hostDieDown s = false) (hm : mapHolds s = false)
include hd hm

theorem exec_bar4Read {len : BitVec 12} {ecc : MemEcc} {bs : List Byte}
    (hread : devRead s (hostReq fn.val 2 none) ecc (bar4Addr s fn.val off.toNat) (len.toNat + 1) = (u, .ok bs)) :
    exec (.bar4Read fn off len ecc) s = .next (hostAnswer u false bs) := by
  change execBar4Read fn off len ecc s = _
  simp only [execBar4Read, hd, hm, Bool.false_eq_true, if_false, hread]

theorem exec_bar4Write {bytes : List Byte}
    (hwrite : devWrite s (hostReq fn.val 2 none) .clean (bar4Addr s fn.val off.toNat) bytes = (u, none)) :
    exec (.bar4Write fn off bytes) s = .next u := by
  change execBar4Write fn off bytes s = _
  simp only [execBar4Write, hd, hm, Bool.false_eq_true, or_self, if_false, hwrite]

end

/-! ### Functions (R324, R370) -/

section
variable (s : State)

/-- RINGS of one function moves ENABLED of none. -/
theorem fnEnabled_setRings (p q v : Nat) : fnEnabled (s.setRegFld (Reg.pcieFnstat q) 8 8 v) p = fnEnabled s p := by
  by_cases h : Reg.pcieFnstat p = Reg.pcieFnstat q
  · simp only [fnEnabled, h]
    exact regBit_setRegFld_other s _ v (by decide) (by decide)
  · exact regBit_setRegFld_off s 8 8 v 0 h

/-- The counts of rings brought up to date change neither ENABLED nor the scoreboard. -/
theorem syncRings_keeps (p : Nat) : fnEnabled (syncRings s) p = fnEnabled s p ∧ (syncRings s).bench = s.bench := by
  unfold syncRings
  refine List.foldlRecOn (motive := fun u : State => fnEnabled u p = fnEnabled s p ∧ u.bench = s.bench) _ _ ⟨rfl, rfl⟩ fun u kept q _ => ?_
  rw [fnEnabled_setRings]
  exact kept

theorem exec_virtualFunctionEnable {fn : Fin 16} (hfn : fn.val ≠ 0) (on : Bool) :
    exec (.virtualFunctionEnable fn on) s =
      .next (syncRings ((if on then s else resetFunction s fn.val).setRegBit (Reg.pcieFnstat fn.val) 0 on)) := if_neg hfn

end

/-- Settles O16: each command by the lemma of its row. -/
theorem hostCommands : Obligations.HostCommands := by
  refine ⟨fun s fn ring page v hd hfn => ⟨fun hc ho => ?tail, fun hc ht => ?head, exec_doorbell_reserved hd hfn, rfl, rfl⟩,
    fun s who ring hw hst hd hsize hf => ⟨_, exec_ringEnable hw hst hd hsize hf, ?enabled⟩,
    fun s who ring hw hst hd => ⟨_, exec_ringDisable hw hst hd, en_ringDisabled .., ringSt_ringDisabled .., onlyRegs_ringDisabled ..⟩,
    fun s ring => exec_entryReadError, fun s ring => exec_recordWriteRefused, ?consumed, fun s u fn off len ecc bs hd hm => exec_bar4Read hd hm,
    fun s u fn off bytes hd hm => exec_bar4Write hd hm, fun s fn t => rfl, fun s fn hfn => ⟨?functionOn, exec_virtualFunctionEnable s hfn false⟩⟩
  case tail =>
    exact ⟨_, exec_sqTailDoorbell_taken hd hfn hc ho, regFld_setRegFld_word s _ v (by decide),
      onlyRegs_setRegFld (onlyRegs_refl ..) _ _ _ (by simp)⟩
  case head =>
    exact ⟨_, exec_cqHeadDoorbell_taken hd hfn hc ht, regFld_setRegFld_word s _ v (by decide),
      onlyRegs_setRegFld (onlyRegs_refl ..) _ _ _ (by simp)⟩
  case enabled =>
    have zero := fun o (ho : o ∈ ringCounts ring.val) => count_ringEnabled s ring.val ho
    exact ⟨ringSt_setRingSt _ _ (by decide), en_ringEnabled .., zero _ (by simp [ringCounts]), zero _ (by simp [ringCounts]),
      zero _ (by simp [ringCounts]), zero _ (by simp [ringCounts]), lastSet_ringEnabled ..⟩
  case consumed =>
    rintro s u ring entry ecc t may turn rfl passes
    have ready : EntryPasses s ring entry t := ⟨may, turn, passes⟩
    exact ⟨exec_entryConsume_operation ready, fun _ _ _ => exec_entryConsume_program ready⟩
  case functionOn =>
    obtain ⟨enabled, bench⟩ := syncRings_keeps (s.setRegBit (Reg.pcieFnstat fn.val) 0 true) fn.val
    exact ⟨_, exec_virtualFunctionEnable s hfn true, enabled.trans (regBit_setRegBit_same s _ true (by decide)), bench⟩

end Sys2Proof.Machine
end

section
/-! SUPPORT. The commit point (09_bomus_command_protocol.md, 10_gaffer_and_bench_scheduling.md): an abort that comes after its target's, and a closure
that completes while a committed command's record is still to be written. -/

namespace Sys2Proof.Machine

/-! ### A command that has committed and waits for its trigger (R376, R382) -/

/-- A command of partition 0 on ring 0 that runs nothing and waits for nothing. -/
def freeCmd (sq : Nat) (st : CmdSt) (entry : List Byte) : Cmd :=
  ⟨0, sq, 0, sq, entry, st, 0, false, false, none, none, none, [], [], false, none, none, false, false, [], false, [], [], 0, 0, none, [], none⟩

/-- A RUN_LAYER of layer 0 in class B with FRAMEB, for frame 0. -/
def endedLayer : Cmd := freeCmd 1 .ended [0x10#8, 8#8, 2#8]

/-- An ABORT of a command on ring 0. -/
def readyAbort (tseq : Nat) : Cmd := freeCmd 2 .ready ([0x02#8] ++ List.replicate 15 0#8 ++ leBytes 4 tseq)

/-- Ring 0 is ACTIVE and trigger 0 is enabled for layer 0. The RUN_LAYER has ended, an ABORT is READY, a NOP waits. The RUN_LAYER commits, the ABORT
takes effect, and the closure of what it aborted is formed. -/
def commitStart (tseq : Nat) : State :=
  { (State.reset.setReg (Reg.bomusRstat 0) 1#64).setReg (Reg.devMtrigcfg 0) (BitVec.ofNat 64 (2 ^ 16 + 2 ^ 18)) with
    bench := { State.reset.bench with cmds := [endedLayer, readyAbort tseq, freeCmd 3 .waiting [0x01#8]] }
    pending := [.commitCommand 0 1 ⟨0, .clean⟩, .abort 0 2 0, .cancellationClosure 0 3 0] }

/-- The RUN_LAYER past its commit point, its record waiting for the trigger. -/
def committedLayer : Cmd := { endedLayer with flipAt := some 0 }

/-! ### Its abort (R362) -/

/-- The RUN_LAYER has committed, and the ABORT that names it comes next. -/
def abortAfterCommit : State := (stepsTo 1 (commitStart 1)).get (by decide +kernel)

/-- R362: of a target that has committed an ABORT says ALREADY_COMPLETE. -/
theorem exec_abort_committed {s : State} {part : Fin 16} {seq : BitVec 32} {t : Nat} {c d : Cmd}
    (hc : opCmd (s.at t) part.val seq.toNat 0x02 = some c) (howner : ringOwner s (leAt c.entry 20 1) = c.part)
    (hother : leAt c.entry 20 1 ≠ c.ring ∨ leAt c.entry 16 4 ≠ c.seq) (hd : s.cmd (cmdKey c.part (leAt c.entry 16 4)) = some d)
    (hring : d.ring = leAt c.entry 20 1) (hf : d.flipped = true) : exec (.abort part seq t) s = .next (endOp (s.at t) c 0x0113 0) := by
  have outcome : abortOutcome (s.at t) c = (0x0113, none) := by
    unfold abortOutcome
    refine (if_neg ?_).trans ?_
    · rw [ringOwner_at, howner]
      omega
    · simp only [State.cmd_at, hd, hring, hf, ne_eq, not_true_eq_false, or_true, if_true, if_false]
  change execAbort part seq t s = _
  simp only [execAbort, hc, outcome]

/-- The ABORT's own state with ALREADY_COMPLETE, and with the success of an abort. -/
theorem abort_abortAfterCommit :
    ((endOp (abortAfterCommit.at 0) (readyAbort 1) 0x0113 0).cmd 2).map Cmd.st = some .cancelling ∧
      ((endOp (markCancel 1 0x0111 (abortAfterCommit.at 0)) (readyAbort 1) 0 0).cmd 2).map Cmd.st = some .ended := by decide +kernel

/-- Refutes O17: its clause of ABORT supposes nothing of the target's commit point (R362). In `abortAfterCommit` the RUN_LAYER that the ABORT names has
committed: the ABORT ends with ALREADY_COMPLETE, where the clause has it succeed. -/
theorem not_bomusOperations : ¬ Obligations.BomusOperations := by
  rintro ⟨-, abort, -⟩
  have ready : opCmd (abortAfterCommit.at 0) (0 : Fin 16).val (2#32).toNat 0x02 = some (readyAbort 1) := by decide +kernel
  have owned : ringOwner abortAfterCommit (leAt (readyAbort 1).entry 20 1) = (readyAbort 1).part := by decide +kernel
  have other : leAt (readyAbort 1).entry 20 1 ≠ (readyAbort 1).ring ∨ leAt (readyAbort 1).entry 16 4 ≠ (readyAbort 1).seq := by decide
  have target : abortAfterCommit.cmd (cmdKey (readyAbort 1).part (leAt (readyAbort 1).entry 16 4)) = some committedLayer := by decide +kernel
  have answer := abort abortAfterCommit 0 2 0 (readyAbort 1) committedLayer ready owned other target (by decide) (by decide) (by decide)
  have same := Host.Outcome.next.inj ((exec_abort_committed ready owned other target (by decide) (by decide)).symm.trans answer)
  obtain ⟨refused, succeeded⟩ := abort_abortAfterCommit
  rw [same] at refused
  exact absurd (refused.symm.trans succeeded) (by decide)

/-! ### The closure beside it (R359, R395) -/

/-- The RUN_LAYER has committed, and the NOP has been aborted since, its closure formed. -/
def closureAfterCommit : State := (stepsTo 3 (commitStart 3)).get (by decide +kernel)

/-- R359: a closure waits for the record of a command of its partition that is past its commit point. -/
theorem exec_closureDone_waits {s : State} {part : Fin 16} (t : Nat) (h : ∃ c ∈ s.bench.cmds, c.part = part.val ∧ c.flipped = true) :
    exec (.closureDone part t) s = .next (s.at t) := by
  obtain ⟨c, hc, hp, hf⟩ := h
  change execClosureDone part t s = _
  exact if_pos (.inr (.inr (List.any_eq_true.mpr ⟨c, hc, by simp [hp, hf]⟩)))

/-- The commands live there, and those that a completed closure would leave. -/
theorem cmds_closureAfterCommit : closureAfterCommit.bench.cmds.length = 3 ∧
    (noteMet ((members (closureAfterCommit.at 0) (0 : Fin 16).val).foldl finishMember (closureAfterCommit.at 0))).bench.cmds.length = 2 := by decide +kernel

/-- Refutes O18: its clause of CLOSURE_DONE supposes nothing of a command of the partition past its commit point (R359). In `closureAfterCommit` the
closure waits for the record of the RUN_LAYER, where the clause has the NOP's record written. -/
theorem not_benchCommands : ¬ Obligations.BenchCommands := by
  rintro ⟨-, -, -, -, -, -, -, -, -, -, -, -, -, done, -⟩
  have answer := done closureAfterCommit 0 0 (by decide +kernel) (by decide +kernel)
  have waits : exec (.closureDone 0 0) closureAfterCommit = .next (closureAfterCommit.at 0) :=
    exec_closureDone_waits 0 ⟨committedLayer, by decide +kernel, rfl, rfl⟩
  have same := Host.Outcome.next.inj (waits.symm.trans answer)
  obtain ⟨live, left⟩ := cmds_closureAfterCommit
  rw [← State.at_bench closureAfterCommit 0, same] at live
  exact absurd (live.symm.trans left) (by decide)

end Sys2Proof.Machine
end

section
/-! SUPPORT. Lehr A's commands (11_safety_channels_reblow_and_lehr.md): signatures and run reports, the decision time, the watchdog, the comparator
test, and the watch over the dies, the ring and Gaffer firmware. -/

namespace Sys2Proof.Machine

/-! ### Events in LEHRA_EVLOG, and ACTIVE -/

section
variable (s : State) (code unit frame : Nat)

/-- R452: the event is pushed to the log of 256 entries. -/
@[simp] theorem lehrA_logLehrA : (s.logLehrA code unit frame).lehrA =
    { s.lehrA with log := s.lehrA.log.push 256 none (evWord code unit 8 frame) 0 } := by
  unfold State.logLehrA
  simp only
  split <;> rfl

@[simp] theorem lehrB_logLehrA : (s.logLehrA code unit frame).lehrB = s.lehrB := by
  unfold State.logLehrA
  simp only
  split
  · exact State.setRegBit_lehrB ..
  · rfl

theorem silent_logLehrA : (s.logLehrA code unit frame).lehrA.silent = s.lehrA.silent := by simp

/-- An event leaves every register but LEHRA_STAT. -/
theorem reg_logLehrA_other {o : Nat} (ho : o ≠ Reg.lehraStat) : (s.logLehrA code unit frame).reg o = s.reg o := by
  unfold State.logLehrA
  simp only
  split
  · exact reg_setRegBit_other _ _ _ ho
  · rfl

/-- An event leaves every bit of LEHRA_STAT but EVOVF. -/
theorem regBit_logLehrA_stat {i : Nat} (hi : 12 ≠ i) : (s.logLehrA code unit frame).regBit Reg.lehraStat i = s.regBit Reg.lehraStat i := by
  unfold State.logLehrA
  simp only
  split
  · exact regBit_setRegBit_other _ _ _ (by decide) hi
  · rfl

/-- An event leaves the fields of LEHRA_STAT below EVOVF. -/
theorem regFld_logLehrA_stat {lo n : Nat} (hn : lo + n ≤ 12) :
    (s.logLehrA code unit frame).regFld Reg.lehraStat lo n = s.regFld Reg.lehraStat lo n := by
  unfold State.logLehrA
  simp only
  split
  · exact regFld_setRegBit_other _ _ _ (by decide) (.inr hn)
  · rfl

@[simp] theorem lehrA_syncActive : (syncActive s).lehrA = s.lehrA := rfl
@[simp] theorem lehrB_syncActive : (syncActive s).lehrB = s.lehrB := rfl

/-- ACTIVE stands in LEHRB_STAT. -/
theorem reg_syncActive_other {o : Nat} (ho : o ≠ Reg.lehrbStat) : (syncActive s).reg o = s.reg o := reg_setRegBit_other s _ _ ho

theorem regBit_syncActive_other (i : Nat) {o : Nat} (ho : o ≠ Reg.lehrbStat) : (syncActive s).regBit o i = s.regBit o i :=
  regBit_setRegBit_off s _ _ _ ho

end

/-! ### Signatures, reports and the decision time (R417-R424) -/

section
variable {s : State} {t : Nat}

/-- R417, R420: a signature with a good checksum is held while there is room among the unmatched ones. -/
theorem takeSig_held (m : SigMsg) (hu : unmatched s < 16384) :
    takeSig s m true = tryCompare { s with lehrA := { s.lehrA with sigs := s.lehrA.sigs ++ [m] } } (cmdKey m.part m.seq) m.prog := by
  simp [takeSig, Nat.not_le.mpr hu]

/-- R43: the oldest message arrives while crucible 0 is out of reset and Lehr A runs. -/
theorem exec_sig {m : SigMsg} {ms : List SigMsg} (crcOk : Bool) (hm : s.sigOut = m :: ms) (hc : crucDown s 0 = false)
    (hr : s.lehrB.lehrARuns = true) : exec (.sig crcOk t) s = .next (takeSig { (s.at t) with sigOut := ms } m crcOk) := by
  change execSig crcOk t s = _
  simp [execSig, hm, hc, hr]

/-- R418: the oldest report arrives while Lehr A runs. -/
theorem exec_runReport {r : RunReport} {rs : List RunReport} (hb : s.bench.reports = r :: rs) (hr : s.lehrB.lehrARuns = true) :
    exec (.runReport t) s = .next (tryCompare { (s.at t) with
      bench := { s.bench with reports := rs }, lehrA := { s.lehrA with reports := s.lehrA.reports ++ [r] } } (cmdKey r.part r.seq) r.prog) := by
  change execRunReport t s = _
  simp [execRunReport, hb, hr]

/-- R424: the boundary plus DECIDE has come. -/
theorem exec_decisionTime (ht : s.regFld Reg.devFrmstart 0 64 + s.regFld Reg.lehraSelcfg 32 27 ≤ t) :
    exec (.decisionTime t) s = .next (decideFrame (s.at t) s.frmcnt) := by
  change execDecisionTime t s = _
  exact if_neg (Nat.not_lt.mpr (Nat.le_trans ht (Nat.le_max_right s.now t)))

/-! ### The watchdog (R441-R443) -/

/-- R441: a kick of the current frame from the stage's own source is judged. -/
theorem exec_watchdogKick_current {who : Ident} {stage : BitVec 6} {frame : BitVec 32}
    (hw : who.val = 0 ∨ who.val = s.regFld (Reg.lehraWdsrc stage.toNat) 0 4) (hs : wdSrc s stage.toNat = 0) (hf : frame.toNat = s.frmcnt)
    (hr : s.lehrB.lehrARuns = true) : exec (.watchdogKick who stage frame t) s = .next (violateEval (kickStage (s.at t) stage.toNat)) := by
  have source : wdSrc (s.at t) stage.toNat = 0 := hs
  change execWatchdogKick who stage frame t s = _
  rcases hw with hw | hw <;> simp [execWatchdogKick, hr, source, hf, hw]

/-- R441: a kick for another frame counts in WDSTRAY alone. -/
theorem exec_watchdogKick_stray (who : Ident) (stage : BitVec 6) {frame : BitVec 32} (hf : frame.toNat ≠ s.frmcnt)
    (hr : s.lehrB.lehrARuns = true) : exec (.watchdogKick who stage frame t) s = .next ((s.at t).bump Reg.lehraWdstray 1) := by
  change execWatchdogKick who stage frame t s = _
  simp [execWatchdogKick, hr, hf]

/-- R442: the stage's CLOSE has passed. -/
theorem exec_watchdogClose {stage : BitVec 6} (ht : s.regFld Reg.devFrmstart 0 64 + fld (wdCfg s stage.toNat) 27 27 ≤ t)
    (hr : s.lehrB.lehrARuns = true) : exec (.watchdogClose stage t) s = .next (violateEval (closeStage (s.at t) stage.toNat)) := by
  have isOver : windowOver (s.at t) stage.toNat = true := decide_eq_true (Nat.le_trans ht (Nat.le_max_right s.now t))
  change execWatchdogClose stage t s = _
  simp [execWatchdogClose, isOver, hr]

end

/-! ### The comparator test (R444) -/

section
variable (s : State)

/-- The comparator detects every difference injected, and accepts every agreeing input. -/
theorem comparatorSound_eq : comparatorSound = true := by decide +kernel

/-- The state after a run of the test that passed. -/
def testPassed : State := { ((s.bump Reg.lehraCmptest 1).setRegBit Reg.lehraStat 1 true) with lehrA := { s.lehrA with cmpFails := 0 } }

/-- The state after a run of the test that failed. -/
def testFailed : State := { (s.bump Reg.lehraCmptest 1) with lehrA := { s.lehrA with cmpFails := s.lehrA.cmpFails + 1 } }

/-- The state after the third failure in a row. -/
def testFailedForGood : State :=
  syncActive ((((testFailed s).logLehrA 0x060C 0xFF (testFailed s).frmcnt).setRegBit Reg.lehraStat 2 true).setRegBit Reg.resetStat 7 true)

variable {s}

section
variable (h1 : s.regBit Reg.lehraStat 1 = false) (h2 : s.regBit Reg.lehraStat 2 = false) (hr : s.lehrB.lehrARuns = true)
include h1 h2 hr

theorem exec_comparatorTest_pass : exec (.comparatorTest true) s = .next (testPassed s) := by
  change execComparatorTest true s = _
  simp [execComparatorTest, h1, h2, hr, comparatorSound_eq, testPassed]

theorem exec_comparatorTest_fail :
    exec (.comparatorTest false) s = .next (if s.lehrA.cmpFails < 2 then testFailed s else testFailedForGood s) := by
  have runs : ¬(s.regBit Reg.lehraStat 1 || s.regBit Reg.lehraStat 2 || !s.lehrB.lehrARuns) = true := by simp [h1, h2, hr]
  have failed : ¬(false && comparatorSound) = true := Bool.false_ne_true
  refine (if_neg runs).trans ((if_neg failed).trans ?_)
  by_cases few : s.lehrA.cmpFails < 2
  · rw [if_pos few]
    exact if_pos (Nat.succ_lt_succ few)
  · rw [if_neg few]
    exact if_neg (fun h => few (Nat.lt_of_succ_lt_succ h))

end

theorem cmppass_testPassed : (testPassed s).regBit Reg.lehraStat 1 = true := by
  unfold testPassed
  rw [regBit_mk, regBit_setRegBit_same _ _ _ (by decide)]

theorem cmpfail_testPassed : (testPassed s).regBit Reg.lehraStat 2 = s.regBit Reg.lehraStat 2 := by
  unfold testPassed
  rw [regBit_mk, regBit_setRegBit_other _ _ _ (by decide) (by decide), regBit_bump_off _ _ _ (by decide)]

theorem cmptest_testPassed : (testPassed s).reg Reg.lehraCmptest = s.reg Reg.lehraCmptest + 1#64 := by
  unfold testPassed
  rw [reg_mk, reg_setRegBit_other _ _ _ (by decide), reg_bump_same]

/-- A failure is counted; no bit of LEHRA_STAT tells of it. -/
theorem stat_testFailed (i : Nat) : (testFailed s).regBit Reg.lehraStat i = s.regBit Reg.lehraStat i := by
  unfold testFailed
  rw [regBit_mk, regBit_bump_off _ _ _ (by decide)]

theorem cmptest_testFailed : (testFailed s).reg Reg.lehraCmptest = s.reg Reg.lehraCmptest + 1#64 := by
  unfold testFailed
  rw [reg_mk, reg_bump_same]

theorem cmppass_testFailedForGood : (testFailedForGood s).regBit Reg.lehraStat 1 = s.regBit Reg.lehraStat 1 := by
  unfold testFailedForGood
  rw [regBit_syncActive_other _ _ (by decide), regBit_setRegBit_off _ _ _ _ (by decide), regBit_setRegBit_other _ _ _ (by decide) (by decide),
    regBit_logLehrA_stat _ _ _ _ (by decide), stat_testFailed]

theorem cmpfail_testFailedForGood : (testFailedForGood s).regBit Reg.lehraStat 2 = true := by
  unfold testFailedForGood
  rw [regBit_syncActive_other _ _ (by decide), regBit_setRegBit_off _ _ _ _ (by decide), regBit_setRegBit_same _ _ _ (by decide)]

theorem cmpFails_testFailedForGood : (testFailedForGood s).lehrA.cmpFails = s.lehrA.cmpFails + 1 := by
  simp [testFailedForGood, testFailed]

theorem cmptest_testFailedForGood : (testFailedForGood s).reg Reg.lehraCmptest = s.reg Reg.lehraCmptest + 1#64 := by
  unfold testFailedForGood
  rw [reg_syncActive_other _ (by decide), reg_setRegBit_other _ _ _ (by decide), reg_setRegBit_other _ _ _ (by decide),
    reg_logLehrA_other _ _ _ _ (by decide), cmptest_testFailed]

end

/-! ### The watch over the dies, the ring and Gaffer firmware (R446, R447) -/

/-- The state in which Lehr A has declared a die silent. -/
def declaredSilent (s : State) (die : Block) : State :=
  { s.logLehrA 0x0610 0xFF s.frmcnt with
    lehrA := { (s.logLehrA 0x0610 0xFF s.frmcnt).lehrA with silent := s.lehrA.silent ++ [die] } }

section
variable {s : State} {t : Nat}

/-- R447: the domain of a silent compute die, crucible or sensor die restarts. -/
theorem exec_dieHeartbeatTimeout {die : Block} (hr : s.lehrB.lehrARuns = true) (hs : s.lehrA.silent.contains die = false)
    (hd : inReset s (blockDomain die) = false) (hk : (∃ d, die = .die d) ∨ (∃ k, die = .crucible k) ∨ die = .sensorDie) :
    exec (.dieHeartbeatTimeout die t) s =
      .next (startReset (blockDomain die).1 (blockDomain die).2 10 false (declaredSilent (s.at t) die)) := by
  have watched : ¬((!(s.at t).lehrB.lehrARuns) = true ∨ (s.at t).lehrA.silent.contains die = true ∨ inReset (s.at t) (blockDomain die) = true) := by
    simp only [State.at_lehrB, State.at_lehrA, inReset_at, hr, hs, hd]
    decide
  change execDieHeartbeatTimeout die t s = _
  unfold declaredSilent
  rw [← silent_logLehrA (s.at t) 0x0610 0xFF (s.at t).frmcnt]
  rcases hk with ⟨d, rfl⟩ | ⟨k, rfl⟩ | rfl <;> exact if_neg watched

/-- R447: a silent host die restarts the device warm. -/
theorem exec_dieHeartbeatTimeout_hostDie (hr : s.lehrB.lehrARuns = true) (hs : s.lehrA.silent.contains .hostDie = false)
    (hd : inReset s (blockDomain .hostDie) = false) : exec (.dieHeartbeatTimeout .hostDie t) s = .next (hostSilent (s.at t)) := by
  have watched : ¬((!(s.at t).lehrB.lehrARuns) = true ∨ (s.at t).lehrA.silent.contains .hostDie = true ∨
      inReset (s.at t) (blockDomain .hostDie) = true) := by
    simp only [State.at_lehrB, State.at_lehrA, inReset_at, hr, hs, hd]
    decide
  exact if_neg watched

/-- R446: two milliseconds without Gaffer firmware's heartbeat. -/
theorem exec_gafferHeartbeatTimeout (hw : watchesHost s = true) (ht : s.lehrA.gafhb + 2000000 ≤ t) :
    exec (.gafferHeartbeatTimeout t) s = .next (hostSilent (s.at t)) := by
  have watches : watchesHost (s.at t) = true := hw
  change execGafferHeartbeatTimeout t s = _
  refine if_neg (not_or.mpr ⟨?_, Nat.not_lt.mpr (Nat.le_trans ht (Nat.le_max_right s.now t))⟩)
  simp [watches]

/-- A place on the ring of twenty nodes fits RINGSEG. -/
theorem ringIndex_lt (n : RingNode) : ringIndex n < 32 :=
  Nat.lt_of_le_of_lt (List.findIdx_le_length (xs := ringOrder)) (by decide)

/-- The state in which the ring is broken after a node. -/
def ringBroken (s : State) (seg : RingNode) : State :=
  ((s.setRegBit Reg.lehraStat 5 true).setRegFld Reg.lehraStat 6 5 (ringIndex seg)).logLehrA 0x060D 0xFF s.frmcnt

theorem exec_ringTokenTimeout (seg : RingNode) (h5 : s.regBit Reg.lehraStat 5 = false) (hr : s.lehrB.lehrARuns = true) :
    exec (.ringTokenTimeout seg t) s = .next (ringBroken (s.at t) seg) := by
  change execRingTokenTimeout seg t s = _
  simp [execRingTokenTimeout, h5, hr, ringBroken]

section
variable (s) (seg : RingNode)

theorem ringbrk_ringBroken : (ringBroken s seg).regBit Reg.lehraStat 5 = true := by
  unfold ringBroken
  rw [regBit_logLehrA_stat _ _ _ _ (by decide), regBit_setRegFld_other _ _ _ (by decide) (by decide), regBit_setRegBit_same _ _ _ (by decide)]

theorem ringseg_ringBroken : (ringBroken s seg).regFld Reg.lehraStat 6 5 = ringIndex seg := by
  unfold ringBroken
  rw [regFld_logLehrA_stat _ _ _ _ (by decide), regFld_setRegFld_same _ _ _ (by decide)]
  exact Nat.mod_eq_of_lt (ringIndex_lt seg)

theorem reg_ringBroken_other {o : Nat} (ho : o ≠ Reg.lehraStat) : (ringBroken s seg).reg o = s.reg o := by
  unfold ringBroken
  rw [reg_logLehrA_other _ _ _ _ ho, reg_setRegFld_other _ _ _ _ ho, reg_setRegBit_other _ _ _ ho]

theorem log_ringBroken : (ringBroken s seg).lehrA.log = s.lehrA.log.push 256 none (evWord 0x060D 0xFF 8 s.frmcnt) 0 := by
  unfold ringBroken
  rw [lehrA_logLehrA]
  rfl

end

/-- The state in which Gaffer firmware's heartbeat has come. -/
def hostBeat (s : State) : State :=
  syncActive { s.setRegBit Reg.lehraStat 4 true with
    lehrA := { s.lehrA with gafhb := s.now, silent := s.lehrA.silent.filter (fun b => decide (b ≠ .hostDie)) } }

theorem exec_gafhbWrite {who : Ident} (hw : who.val = 16) (hr : s.lehrB.lehrARuns = true) :
    exec (.gafhbWrite who t) s = .next (hostBeat (s.at t)) := by
  change execGafhbWrite who t s = _
  simp [execGafhbWrite, hw, hr, hostBeat]

theorem hostok_hostBeat (s : State) : (hostBeat s).regBit Reg.lehraStat 4 = true := by
  unfold hostBeat
  rw [regBit_syncActive_other _ _ (by decide), regBit_mk, regBit_setRegBit_same _ _ _ (by decide)]

theorem hostDie_not_mem_silent_hostBeat (s : State) : Block.hostDie ∉ (hostBeat s).lehrA.silent := by
  simp [hostBeat]

theorem reg_hostBeat_other (s : State) {o : Nat} (ha : o ≠ Reg.lehraStat) (hb : o ≠ Reg.lehrbStat) : (hostBeat s).reg o = s.reg o := by
  unfold hostBeat
  rw [reg_syncActive_other _ hb, reg_mk, reg_setRegBit_other _ _ _ ha]

end

/-! ### The statement -/

/-- Settles O12: each command by the lemma of its row; a failed comparator test by the failures before it. -/
theorem lehrACommands : Obligations.LehrACommands := by
  refine ⟨?_, ?_, ?_, ?_, ?_, ?_, ?_, ?_, ?_, ?_, ?_, ?_, ?_, ?_, ?_, ?_⟩
  · intro s t m ms hm hc hr hu
    exact (exec_sig true hm hc hr).trans (congrArg _ (takeSig_held m hu))
  · rintro s _ t m ms hm hc hr rfl
    exact exec_sig false hm hc hr
  · intro s t r rs hb hr
    exact exec_runReport hb hr
  · intro s t ht
    exact exec_decisionTime ht
  · intro s who stage t hw hs hr
    exact exec_watchdogKick_current hw hs ((BitVec.toNat_ofNat ..).trans (Nat.mod_eq_of_lt (fld_lt _ 0 32))) hr
  · intro s who stage frame t hf hr
    exact exec_watchdogKick_stray who stage hf hr
  · intro s stage t ht hr
    exact exec_watchdogClose ht hr
  · intro s h1 h2 hr
    exact ⟨_, exec_comparatorTest_pass h1 h2 hr, cmppass_testPassed, cmpfail_testPassed.trans h2, rfl, cmptest_testPassed⟩
  · intro s h1 h2 hr
    refine ⟨_, exec_comparatorTest_fail h1 h2 hr, ?_⟩
    split
    · next few => exact ⟨(stat_testFailed 1).trans h1, by rw [stat_testFailed, h2, decide_eq_false (Nat.not_le.mpr few)], rfl, cmptest_testFailed⟩
    · next many =>
      exact ⟨cmppass_testFailedForGood.trans h1, cmpfail_testFailedForGood.trans (decide_eq_true (Nat.not_lt.mp many)).symm,
        cmpFails_testFailedForGood, cmptest_testFailedForGood⟩
  · intro s d t hr hs hd
    exact exec_dieHeartbeatTimeout hr hs hd (.inl ⟨d, rfl⟩)
  · intro s k t hr hs hd
    exact exec_dieHeartbeatTimeout hr hs hd (.inr (.inl ⟨k, rfl⟩))
  · intro s t hr
    exact ⟨fun hs hd => exec_dieHeartbeatTimeout hr hs hd (.inr (.inr rfl)), fun hs hd => exec_dieHeartbeatTimeout_hostDie hr hs hd⟩
  · intro s seg t h5 hr
    exact ⟨_, exec_ringTokenTimeout seg h5 hr, ringbrk_ringBroken _ seg, ringseg_ringBroken _ seg, fun o ho => reg_ringBroken_other _ seg ho,
      log_ringBroken _ seg⟩
  · intro s who t hw hr
    exact ⟨_, exec_gafhbWrite hw hr, hostok_hostBeat _, rfl, hostDie_not_mem_silent_hostBeat _, fun o ha hb => reg_hostBeat_other _ ha hb⟩
  · intro s t hw ht
    exact exec_gafferHeartbeatTimeout hw ht
  · intro s
    exact ⟨_, rfl, rfl, rfl, rfl⟩

end Sys2Proof.Machine
end

section
/-! SUPPORT. Lehr B's commands (11_safety_channels_reblow_and_lehr.md): the fallback block, the radar packet, the envelope check and the fallback plan,
and the watch between the Lehr dies. -/

namespace Sys2Proof.Machine

/-! ### The fallback block (R432) -/

/-- The state in which Lehr B has accepted a block. -/
def blockTaken (s : State) (b : FbBlock) : State :=
  (planBegun { s with lehrB := { s.lehrB with block := some b } } b.frame).bump Reg.lehrbBlkcnt 1

/-- The state in which Lehr B has rejected a block. -/
def blockRefused (s : State) : State := ((s.bump Reg.lehrbBlkrej 1).setRegBit Reg.lehrbStat 5 true).noteLehrA 0x0614 s.frmcnt

section
variable {s : State} {buf : Fin 2} {t : Nat}

theorem exec_fallbackBlock_accepted {b : FbBlock} (hb : s.lehrB.stoppedB = false) (hw : sget [] s.lehrB.window buf.val ≠ [])
    (ha : acceptBlock s (sget [] s.lehrB.window buf.val) = some b) : exec (.fallbackBlock buf t) s = .next (blockTaken (s.at t) b) := by
  have accepted : acceptBlock (s.at t) (sget [] s.lehrB.window buf.val) = some b := ha
  change execFallbackBlock buf t s = _
  simp [execFallbackBlock, lehrBRuns, hb, hw, accepted, blockTaken]

theorem exec_fallbackBlock_rejected (hb : s.lehrB.stoppedB = false) (hw : sget [] s.lehrB.window buf.val ≠ [])
    (ha : acceptBlock s (sget [] s.lehrB.window buf.val) = none) : exec (.fallbackBlock buf t) s = .next (blockRefused (s.at t)) := by
  have rejected : acceptBlock (s.at t) (sget [] s.lehrB.window buf.val) = none := ha
  change execFallbackBlock buf t s = _
  simp [execFallbackBlock, lehrBRuns, hb, hw, rejected, blockRefused]

end

/-! ### A block rejected while Lehr A is lost (R432, R455) -/

/-- R455: while Lehr A is lost the rejection waits to be copied to it. -/
theorem lostNotes_blockRefused {s : State} (hr : s.lehrB.lehrARuns = false) :
    (blockRefused s).lehrB.lostNotes = s.lehrB.lostNotes ++ [(0x0614, s.frmcnt)] := by
  simp [blockRefused, State.noteLehrA, hr]

/-- The header of a block of frame 7 with no records, its CRC apart. -/
def headerSeven : List Byte := leBytes 4 1 ++ leBytes 4 7 ++ List.replicate 52 0#8

/-- After reset, the block of frame 7 in buffer 1 of the window: it reaches Lehr B, and Lehr A's heartbeat does not. -/
def blockArrives : State :=
  { State.reset with
    lehrB := { State.reset.lehrB with window := [(1, headerSeven ++ leBytes 4 (crc32c headerSeven))] }
    pending := [.fallbackBlock 1 0, .lehrHeartbeatTimeout false 1000000] }

/-- The state then: the block is accepted, and Lehr A declared lost. -/
def blockRepeats : State := (stepsTo 2 blockArrives).get (by decide +kernel)

/-- The block of frame 7 is not newer than the one accepted. -/
theorem acceptBlock_blockRepeats : acceptBlock blockRepeats (sget [] blockRepeats.lehrB.window (1 : Fin 2).val) = none := by decide +kernel

/-- Refutes O13: its clause of a rejected block supposes nothing of Lehr A and has all of Lehr B's state stay. In `blockRepeats` Lehr A is lost and the
accepted block arrives again: Lehr B rejects it and keeps the event for Lehr A's return (R455). -/
theorem not_lehrBCommands : ¬ Obligations.LehrBCommands := by
  rintro ⟨-, rejected, -⟩
  have lost : blockRepeats.lehrB.lehrARuns = false := by decide +kernel
  have runs : blockRepeats.lehrB.stoppedB = false := by decide +kernel
  have filled : sget [] blockRepeats.lehrB.window (1 : Fin 2).val ≠ [] := by decide +kernel
  obtain ⟨u, answer, same, -⟩ := rejected blockRepeats 1 0 runs filled acceptBlock_blockRepeats
  rw [exec_fallbackBlock_rejected runs filled acceptBlock_blockRepeats] at answer
  obtain rfl := Host.Outcome.next.inj answer
  have grown := lostNotes_blockRefused (s := blockRepeats.at 0) (by rw [State.at_lehrB, lost])
  rw [same, State.at_lehrB] at grown
  exact absurd (List.self_eq_append_right.mp grown) (List.cons_ne_nil _ _)

/-! ### The radar packet (R433) -/

section
variable {s : State} {t : Nat}

/-- R433: an obstacle for each point of the packet joins those of the last 50 ms. -/
theorem exec_radarPacket {port : Fin 2} (bs : List Byte) (hb : s.lehrB.stoppedB = false) (hc : sget [] s.lehrB.radcal port.val ≠ []) :
    ∃ new, new.length =
        (decodePacket (layoutOf (sget [] s.lehrB.radcal port.val)) ((sget [] s.lehrB.radcal port.val).drop 192) bs).1.length ∧
      exec (.radarPacket port bs t) s = .next { (s.at t) with
        lehrB := { s.lehrB with radar := s.lehrB.radar.filter (fun p => decide (max s.now t ≤ p.1 + 50000000)) ++ new } } := by
  have taken : ¬((sget [] (s.at t).lehrB.radcal port.val).isEmpty = true ∨ (!lehrBRuns (s.at t)) = true) := by
    simp [lehrBRuns, hb, hc]
  exact ⟨_, List.length_map _, if_neg taken⟩

/-! ### The envelope check (R435, R436) -/

/-- R435: the committed plan of a frame without a verdict is handed to Lehr B. -/
theorem exec_planCheckRequest {frame : BitVec 32} {q : List Nat × Nat} (hp : (s.frameSel frame.toNat).plan = some q)
    (hv : (s.frameSel frame.toNat).verdict = none) (hb : s.lehrB.stoppedB = false) (hr : s.lehrB.lehrARuns = true) :
    exec (.planCheckRequest frame t) s =
      .next { (s.at t) with lehrB := { s.lehrB with check := some ((s.frameSel frame.toNat).frame, q.2) } } := by
  have view : (s.at t).frameSel frame.toNat = s.frameSel frame.toNat := rfl
  change execPlanCheckRequest frame t s = _
  simp [execPlanCheckRequest, view, hp, hv, lehrBRuns, hb, hr]

section
variable {ecc : MemEcc} {k addr : Nat} (hc : s.lehrB.check = some (k, addr)) (hb : s.lehrB.stoppedB = false) (hm : mapHolds s = false)
include hc hb hm

/-- R435: a zero envelope register fails the plan unread. -/
theorem exec_envelopeVerdict_unprogrammed (hu : unprogrammed s = true) :
    exec (.envelopeVerdict ecc t) s = .next (takeVerdict (s.at t) k ⟨.fail, 5, false⟩) := by
  have zero : unprogrammed (s.at t) = true := hu
  change execEnvelopeVerdict ecc t s = _
  simp [execEnvelopeVerdict, hc, lehrBRuns, hb, hm, zero]

/-- R435, R436: the plan is read, and judged by its bytes. -/
theorem exec_envelopeVerdict_judged {s1 : State} {bs : Except Poison (List Byte)} (hu : unprogrammed s = false)
    (hd : devRead (s.at t) lehrBReq ecc addr 512 = (s1, bs)) :
    exec (.envelopeVerdict ecc t) s = .next (takeVerdict s1 k (judge s1 k bs.toOption)) := by
  have programmed : unprogrammed (s.at t) = false := hu
  change execEnvelopeVerdict ecc t s = _
  simp [execEnvelopeVerdict, hc, lehrBRuns, hb, hm, programmed, hd]

end

/-! ### The fallback plan (R438, R439) -/

/-- R438: FBLATE has passed, and the period has neither a plan nor one in progress. -/
theorem exec_fallbackPlanLate {k : Nat} (hl : lateFrame (s.at t) = some k) (hk : k ∉ s.lehrB.planned) (hp : s.lehrB.planFor = none)
    (hb : s.lehrB.stoppedB = false) : exec (.fallbackPlanLate t) s = .next (planBegun (s.at t) k) := by
  change execFallbackPlanLate t s = _
  simp [execFallbackPlanLate, hl, hk, hp, lehrBRuns, hb]

/-- The state in which Lehr B writes the plan it has computed. -/
def planComputed (s : State) : State := { s.nextFresh with lehrB := { s.lehrB with planFor := none } }

/-- R438-R440: the computed plan is written, and taken with what the write came to. -/
theorem exec_fallbackPlanDone {s1 : State} {k : Nat} {lost : Bool} (hp : s.lehrB.planFor = some k) (hb : s.lehrB.stoppedB = false)
    (hm : mapHolds s = false) (hw : writePlan (planComputed (s.at t)) (fbAddr s k) (makeFallback (s.at t) k).bytes = (s1, lost)) :
    exec (.fallbackPlanDone t) s = .next (takePlan s1 { makeFallback (s.at t) k with vnet := lost }) := by
  have computed : (s.at t).lehrB.planFor = some k := hp
  have writes : ¬((!lehrBRuns (s.at t)) = true ∨ mapHolds (s.at t) = true) := by simp [lehrBRuns, hb, hm]
  have taken : exec (.fallbackPlanDone t) s = .next (takePlan (writePlan (planComputed (s.at t)) (fbAddr s k) (makeFallback (s.at t) k).bytes).1
      { makeFallback (s.at t) k with vnet := (writePlan (planComputed (s.at t)) (fbAddr s k) (makeFallback (s.at t) k).bytes).2 }) := by
    change execFallbackPlanDone t s = _
    unfold execFallbackPlanDone
    simp only [computed, if_neg writes]
    rfl
  rw [taken, hw]

/-! ### Losing a Lehr die (R446) -/

/-- Lehr B's heartbeat is missed once. -/
theorem exec_lehrHeartbeatTimeout_ofB (hr : s.lehrB.lehrARuns = true) (h13 : s.regBit Reg.lehraStat 13 = false) :
    exec (.lehrHeartbeatTimeout true t) s = .next (loseB (s.at t)) := by
  change execLehrHeartbeatTimeout true t s = _
  simp [execLehrHeartbeatTimeout, hr, h13]

theorem exec_lehrHeartbeatTimeout_ofA (hr : s.lehrB.lehrARuns = true) (hb : s.lehrB.stoppedB = false) :
    exec (.lehrHeartbeatTimeout false t) s = .next (loseA (s.at t)) := by
  change execLehrHeartbeatTimeout false t s = _
  simp [execLehrHeartbeatTimeout, lehrBRuns, hr, hb]

theorem exec_lockstepMismatch_ofB (hr : s.lehrB.lehrARuns = true) (hb : s.lehrB.stoppedB = false) :
    exec (.lockstepMismatch true t) s = .next (loseB { (s.at t) with lehrB := { s.lehrB with stoppedB := true } }) := by
  change execLockstepMismatch true t s = _
  simp [execLockstepMismatch, lehrBRuns, hr, hb]

theorem exec_lockstepMismatch_ofA (hr : s.lehrB.lehrARuns = true) (ha : s.lehrB.stoppedA = false) :
    exec (.lockstepMismatch false t) s = .next (loseA { (s.at t) with lehrB := { s.lehrB with stoppedA := true } }) := by
  change execLockstepMismatch false t s = _
  simp [execLockstepMismatch, hr, ha]

/-! ### The take-over, and Lehr A's return (R446, R448, R449) -/

/-- The state in which Lehr B has taken over. -/
def takenOver (s : State) : State :=
  { s.setRegBit Reg.lehrbStat 4 true with
    pins := { s.pins with flt01 := true }, lehrB := { s.lehrB with handover := some (s.now, s.frmcnt) } }

theorem exec_lehraTakeover (hr : s.lehrB.lehrARuns = false) (hb : s.lehrB.stoppedB = false) (hh : s.lehrB.handover = none) :
    exec (.lehraTakeover t) s = .next (takenOver (s.at t)) := by
  have frame : ((s.at t).setRegBit Reg.lehrbStat 4 true).frmcnt = s.frmcnt := frmcnt_setReg_other (s.at t) _ (by decide)
  change execLehraTakeover t s = _
  simp [execLehraTakeover, lehrBRuns, hr, hb, hh, frame, takenOver]

theorem takeover_takenOver (s : State) : (takenOver s).regBit Reg.lehrbStat 4 = true := by
  unfold takenOver
  rw [regBit_mk, regBit_setRegBit_same _ _ _ (by decide)]

/-- R449: Lehr A takes device time back 100 microseconds after it could name the instant. -/
theorem exec_deviceTimeHandover {since f : Nat} (hh : s.lehrB.handover = some (since, f)) (hr : s.lehrB.lehrARuns = true)
    (ht : since + 100000 ≤ t) : exec (.deviceTimeHandover t) s = .next { (s.at t) with lehrB := { s.lehrB with handover := none } } := by
  have due : ¬((!(s.at t).lehrB.lehrARuns) = true ∨ (s.at t).now < since + 100000) := by
    rw [State.at_lehrB, hr]
    exact not_or.mpr ⟨Bool.false_ne_true, Nat.not_lt.mpr (Nat.le_trans ht (Nat.le_max_right s.now t))⟩
  have named : (s.at t).lehrB.handover = some (since, f) := hh
  change execDeviceTimeHandover t s = _
  unfold execDeviceTimeHandover
  simp only [named, if_neg due]
  rfl

theorem exec_lehrHeartbeat_ofB (hb : s.lehrB.stoppedB = false) (hr : s.lehrB.lehrARuns = true) :
    exec (.lehrHeartbeat true t) s = .next (releaseDomains { (((s.at t).setRegBit Reg.lehraStat 3 true).setRegBit Reg.lehraStat 13 false) with
      pins := { s.pins with flt00 := decide (s.unitState 115 = 2) } }) := by
  have unit : (s.at t).unitState 115 = s.unitState 115 := rfl
  change execLehrHeartbeat true t s = _
  simp [execLehrHeartbeat, lehrBRuns, hb, hr, unit]

/-- Lehr A runs again, and what waited for it is copied. -/
theorem answers_lehrHeartbeat_ofA (ha : s.lehrB.stoppedA = false) (hb : s.lehrB.stoppedB = false) :
    Answers (.lehrHeartbeat false t) s (fun u => u.lehrB.lehrARuns = true ∧ u.lehrB.lostNotes = []) := by
  have heard : ¬((s.at t).lehrB.stoppedA = true ∨ (!lehrBRuns (s.at t)) = true) := by simp [lehrBRuns, ha, hb]
  exact ⟨_, if_neg heard, rfl, rfl⟩

end

/-! ### The statement -/

/-- Settles O58: each command by the lemma of its row. -/
theorem lehrBCommandsComplete : Obligations.LehrBCommandsComplete := by
  refine ⟨?_, ?_, ?_, ?_, ?_, ?_, ?_, ?_, ?_, ?_, ?_, ?_, ?_, ?_, ?_⟩
  · intro s buf t b hb hw ha
    exact exec_fallbackBlock_accepted hb hw ha
  · intro s buf t hb hw ha
    exact exec_fallbackBlock_rejected hb hw ha
  · intro s port bs t hb hc
    obtain ⟨new, points, answer⟩ := exec_radarPacket (t := t) bs hb hc
    exact ⟨_, answer, (List.length_append ..).trans (congrArg _ points)⟩
  · intro s frame t q hp hv hb hr
    exact ⟨_, exec_planCheckRequest hp hv hb hr, rfl⟩
  · intro s ecc t k addr hc hb hm hu
    exact exec_envelopeVerdict_unprogrammed hc hb hm hu
  · intro s s1 ecc t k addr bs hc hb hm hu hd
    exact exec_envelopeVerdict_judged hc hb hm hu hd
  · intro s t k hl hk hp hb
    exact ⟨_, exec_fallbackPlanLate hl hk hp hb, rfl⟩
  · intro s s1 t k lost hp hb hm hw
    exact exec_fallbackPlanDone hp hb hm hw
  · intro s t hr
    exact ⟨exec_lehrHeartbeatTimeout_ofB hr, exec_lehrHeartbeatTimeout_ofA hr⟩
  · intro s t hr hb
    exact exec_lockstepMismatch_ofB hr hb
  · intro s t hr ha
    exact exec_lockstepMismatch_ofA hr ha
  · intro s t hr hb hh
    exact ⟨_, exec_lehraTakeover hr hb hh, rfl, takeover_takenOver _, rfl⟩
  · intro s t since f hh hr ht
    exact ⟨_, exec_deviceTimeHandover hh hr ht, rfl, rfl⟩
  · intro s t hb hr
    exact exec_lehrHeartbeat_ofB hb hr
  · intro s t ha hb
    exact answers_lehrHeartbeat_ofA ha hb

end Sys2Proof.Machine
end

section
/-! SUPPORT. Fences (12_crucible_fabric_and_punty_links.md): a tracker entry that is FENCED and not poisoned, as its target is fenced. -/

namespace Sys2Proof.Machine

/-- The entry of a read by core 5 that depends on core 5, FENCED but with a clean answer. -/
def fencedClean : TrackEntry := ⟨5, 0, 0, [.core 5], 0, 0, false, [], true, false, 0#32, 0, 0, 0⟩

/-- After reset, crucible 0 tracks that entry alone. -/
def tracksFencedClean : State := { State.reset with fab := { State.reset.fab with track := [fencedClean] } }

/-- R466: a fence completes the entries that are not FENCED yet, and leaves this one. -/
theorem track_fenceTarget_fencedClean :
    (poisonRuns tracksFencedClean (fenceTarget tracksFencedClean (.core 5))).fab.track = [fencedClean] := by decide +kernel

/-- Refutes O14: its clause of FENCE_TARGET has every entry that depends on the target poisoned, and supposes nothing of those that are FENCED already.
The entry of `tracksFencedClean` keeps its clean answer. The model marks an entry FENCED and poisoned at once (`TrackEntry.fence`), so this is a state
that the statement admits and that no command brings about. -/
theorem not_fabricCommands : ¬ Obligations.FabricCommands := by
  rintro ⟨-, -, -, -, -, -, -, fence, -⟩
  obtain ⟨u, answer, -, -, completed, -⟩ := fence tracksFencedClean (.core 5)
  obtain rfl : poisonRuns tracksFencedClean (fenceTarget tracksFencedClean (.core 5)) = u := Host.Outcome.next.inj answer
  rw [track_fenceTarget_fencedClean] at completed
  exact Bool.false_ne_true (completed fencedClean (List.mem_singleton_self _) rfl).2

end Sys2Proof.Machine
end

section
/-! SUPPORT. Links (12_crucible_fabric_and_punty_links.md): packets and control words, replays, lateral modules, and what the recovery of a vertical
port leaves. -/

namespace Sys2Proof.Machine

/-! ### Directions of links -/

@[simp] theorem link_setLink_same (s : State) (key : Nat) (x : LinkDir) : (s.setLink key x).link key = x := sget_sput_same ..

theorem link_setLink_other (s : State) {key k : Nat} (x : LinkDir) (h : k ≠ key) : (s.setLink key x).link k = s.link k := sget_sput_other _ _ _ _ h

theorem link_of_links {s u : State} (h : u.fab.links = s.fab.links) (k : Nat) : u.link k = s.link k := by rw [State.link, h, State.link]

@[simp] theorem link_setFails (s : State) (key n k : Nat) : (setFails s key n).link k = s.link k := rfl

theorem links_noteLayout (s : State) (l : Nat) (up : Bool) : (noteLayout s l up).fab.links = s.fab.links := by
  unfold noteLayout
  split <;> rfl

/-- An event in CRUC_EVLOG changes nothing else of the fabric. -/
theorem fab_logCruc (s : State) (k code node ident addr : Nat) :
    (s.logCruc k code node ident addr).fab = { s.fab with logs := (s.logCruc k code node ident addr).fab.logs } := by
  unfold State.logCruc
  simp only
  split <;> split <;> rfl

/-! ### A new packet (R470, R471, R473, R474) -/

/-- The sender's side of a new packet over a direction: the layout in use is noted, and the packet stands in the retry buffer. -/
def packetSent (s : State) (l : Nat) (up : Bool) (h : PacketHead) : State :=
  (noteLayout s l up).setLink (linkKey l up) ((s.link (linkKey l up)).push (newPacket s h) s.now)

/-- A direction whose receiver has taken the packet that it expects. -/
def LinkDir.taken (x : LinkDir) : LinkDir := { x with expect := (x.expect + 1) % 256, nak := none }

/-- The packet sent, and taken by the receiver. -/
def packetDelivered (s : State) (l : Nat) (up : Bool) (h : PacketHead) : State :=
  (packetSent s l up h).setLink (linkKey l up) ((packetSent s l up h).link (linkKey l up)).taken

section
variable (s : State) (l : Nat) (up : Bool) (h : PacketHead)

theorem link_packetDelivered_same :
    (packetDelivered s l up h).link (linkKey l up) = ((s.link (linkKey l up)).push (newPacket s h) s.now).taken := by
  rw [packetDelivered, link_setLink_same, packetSent, link_setLink_same]

theorem link_packetDelivered_other {k : Nat} (hk : k ≠ linkKey l up) : (packetDelivered s l up h).link k = s.link k := by
  rw [packetDelivered, link_setLink_other _ _ hk, packetSent, link_setLink_other _ _ hk]
  exact link_of_links (links_noteLayout s l up) k

/-- A packet delivered changes the links and the layouts in use alone. -/
theorem packetDelivered_keeps : packetDelivered s l up h = { s with fab := { s.fab with
    links := (packetDelivered s l up h).fab.links, layout := (packetDelivered s l up h).fab.layout } } := by
  unfold packetDelivered packetSent noteLayout
  split <;> rfl

end

section
variable {s : State} {l : Fin 122} {up : Bool} {h : PacketHead} {extOk : Bool}

/-- A new packet that the sender may send and the receiver expects is delivered; a crucible that receives it looks at its layout. -/
theorem exec_packetReceive_new (t : Nat) (hup : linkUp s l.val = true) (hn : (s.link (linkKey l.val up)).next < 256)
    (he : (s.link (linkKey l.val up)).expect = (s.link (linkKey l.val up)).next) (hm : mayPush s l.val up h = true) :
    exec (.packetReceive l up (BitVec.ofNat 8 (s.link (linkKey l.val up)).next) h extOk true t) s =
      .next ((receiver l.val up).elim (packetDelivered (s.at t) l.val up h)
        (fun k => takePacket (packetDelivered (s.at t) l.val up h) k h extOk)) := by
  have number : (BitVec.ofNat 8 (s.link (linkKey l.val up)).next).toNat = (s.link (linkKey l.val up)).next := by
    rw [BitVec.toNat_ofNat, Nat.mod_eq_of_lt hn]
  have may : mayPush (s.at t) l.val up h = true := hm
  have expected : ((packetSent (s.at t) l.val up h).link (linkKey l.val up)).expect = (s.link (linkKey l.val up)).next := by
    rw [packetSent, link_setLink_same]
    exact he
  change execPacketReceive l up _ h extOk true t s = _
  unfold execPacketReceive
  simp only [linkUp_at, State.link_at, number, hup, may, decide_true, Bool.not_true, Bool.and_false, Bool.false_and, Bool.false_eq_true, if_false,
    if_true]
  unfold packetSent at expected
  rw [State.link_at] at expected
  rw [if_neg (not_not_intro expected.symm)]
  cases receiver l.val up <;> rfl

end

/-- A crucible takes a well-formed packet as it is. -/
theorem takePacket_ok (s : State) (k : Nat) {h : PacketHead} {extOk : Bool} (ho : packetOk h extOk = true) : takePacket s k h extOk = s := if_pos ho

/-- R470: a malformed request is discarded, counted, and answered poisoned. -/
theorem takePacket_malformed (s : State) (k : Nat) {h : PacketHead} {extOk : Bool} (ho : packetOk h extOk = false) (hr : packetResponds h = false) :
    (takePacket s k h extOk).fab.links = s.fab.links ∧ (takePacket s k h extOk).fab.track = s.fab.track ∧
      (takePacket s k h extOk).fab.lastResp = some ⟨h.node.toNat, h.tag.toNat % 4096, true, [], h.dl⟩ ∧
      (takePacket s k h extOk).reg (Reg.crucMalform k) = s.reg (Reg.crucMalform k) + 1 := by
  have fab := fab_logCruc (s.bump (Reg.crucMalform k) 1) k 0x050F h.node.toNat (h.ident.toNat % 32) h.addr.toNat
  have count : (turnedAway s k (Reg.crucMalform k) 0x050F ⟨h.node.toNat, h.ident.toNat % 32, false, 0, none⟩ h.addr.toNat).reg
      (Reg.crucMalform k) = s.reg (Reg.crucMalform k) + 1#64 := by
    apply reg_turnedAway <;> simp only [Reg.crucMalform, Reg.crucEvaddr, Reg.crucStat, Reg.crucPoison] <;> omega
  have bad : ¬packetOk h extOk = true := by simp [ho]
  have request : ¬packetResponds h = true := by simp [hr]
  rw [takePacket, if_neg bad]
  dsimp only
  rw [if_neg request]
  exact ⟨(congrArg FabState.links fab :), (congrArg FabState.track fab :), rfl, count⟩

/-! ### Control words (R472, R473) -/

/-- A list of packets splits at its first one of a number that it holds. -/
theorem first_of_number {l : List LinkPkt} {n : Nat} (h : ∃ p ∈ l, p.sq = n) :
    ∃ pre e, l = pre ++ e :: (l.dropWhile (fun u => decide (u.sq ≠ n))).drop 1 ∧ e.sq = n ∧ ∀ x ∈ pre, x.sq ≠ n := by
  induction l with
  | nil => simp at h
  | cons y ys ih =>
    by_cases hy : y.sq = n
    · exact ⟨[], y, by simp [hy], hy, by simp⟩
    · obtain ⟨pre, e, split, he, hpre⟩ := ih (by simpa [hy] using h)
      refine ⟨y :: pre, e, ?_, he, List.forall_mem_cons.mpr ⟨hy, hpre⟩⟩
      rw [List.dropWhile_cons_of_pos (by simp [hy]), List.cons_append, ← split]

/-- R473: an acknowledgement of a packet that the receiver has taken leaves what follows it in the retry buffer. -/
theorem unacked_ackTo {x : LinkDir} {n : Nat} (now : Nat) (h : ∃ p ∈ x.unacked, p.sq = n) (hu : ∀ p ∈ undelivered x, p.sq ≠ n) :
    (ackTo x n now).unacked = (x.unacked.dropWhile (fun u => decide (u.sq ≠ n))).drop 1 := by
  have held : x.unacked.any (fun u => decide (u.sq = n)) = true := by simpa using h
  have taken : (undelivered x).any (fun u => decide (u.sq = n)) = false := by simpa using hu
  simp [ackTo, held, taken]

section
variable {s : State} {l : Fin 122} {up : Bool} {sq : BitVec 8} {crc : BitVec 16}

/-- R473: an ACK that shortens the retry buffer is taken, and no replay has failed since. -/
theorem exec_ack (hw : wordOk 0x81 sq.toNat 0 crc = true)
    (hs : (ackTo (s.link (linkKey l.val up)) sq.toNat s.now).unacked ≠ (s.link (linkKey l.val up)).unacked) :
    exec (.ack l up sq crc) s =
      .next (setFails (s.setLink (linkKey l.val up) (ackTo (s.link (linkKey l.val up)) sq.toNat s.now)) (linkKey l.val up) 0) := by
  change execAck l up sq crc s = _
  exact if_neg (by simp [hw, hs])

theorem exec_nak (t : Nat) (hw : wordOk 0x82 sq.toNat 0 crc = true) (hn : (s.link (linkKey l.val up)).nak = some sq.toNat) :
    exec (.nak l up sq crc t) s = .next (startReplay ((s.at t).setLink (linkKey l.val up)
      { ackTo (s.link (linkKey l.val up)) sq.toNat (max s.now t) with nak := none }) l.val (linkKey l.val up)) := by
  change execNak l up sq crc t s = _
  exact if_neg (by simp [hw, hn])

theorem exec_credit {vc : Fin 6} {total : BitVec 16} (hw : wordOk 0x83 vc.val total.toNat crc = true) :
    exec (.credit l up vc total crc) s = .next (s.setLink (linkKey l.val up)
      { s.link (linkKey l.val up) with freed := sput 0 (s.link (linkKey l.val up)).freed vc.val total.toNat }) := by
  change execCredit l up vc total crc s = _
  exact if_neg (by simp [hw])

/-- R473, R481: 2 µs without an ACK start a replay; what follows depends on the sideband and on the replays that have failed. -/
theorem exec_replayTimeout (sideband : Bool) {t : Nat} (hu : (s.link (linkKey l.val up)).unacked ≠ []) (hup : linkUp s l.val = true)
    (hw : (s.link (linkKey l.val up)).wait + 2000 ≤ max s.now t) {s1 s2 : State} (h1 : s1 = startReplay (s.at t) l.val (linkKey l.val up))
    (h2 : s2 = if sideband then setFails s1 (linkKey l.val up) 0 else s1) :
    exec (.replayTimeout l up sideband t) s = .next (if sget 0 s2.fab.replayFails (linkKey l.val up) < 16 ∨ 26 ≤ l.val then s2
      else replayFatal s2 l.val (linkKey l.val up)) := by
  subst h1 h2
  have due : ¬((s.link (linkKey l.val up)).unacked.isEmpty = true ∨ (s.at t).now < (s.link (linkKey l.val up)).wait + 2000 ∨
      (!linkUp s l.val) = true) :=
    not_or.mpr ⟨by simp [hu], not_or.mpr ⟨Nat.not_lt.mpr hw, by simp [hup]⟩⟩
  change execReplayTimeout l up sideband t s = _
  exact (if_neg due).trans (apply_ite Host.Outcome.next _ _ _).symm

end

/-! ### Lateral modules (R477-R479) -/

section
variable {s : State} {m : Fin 26} {lanes : LaneReport} {t : Nat}

theorem exec_laneMonitorFlag (h : mstate s m.val = 1) :
    exec (.laneMonitorFlag m t) s = .next (judgeModule (enterRecover (s.at t) m.val) m.val) :=
  if_neg (not_not_intro h)

theorem exec_moduleTrainingDone (h : mstate s m.val = 0) :
    exec (.moduleTrainingDone m .full lanes) s = .next (releaseDomains (judgeModule (activateLink (setLanes s m.val lanes) m.val) m.val)) ∧
    (∀ upper, m.val < 24 → exec (.moduleTrainingDone m (.narrow upper) lanes) s =
      .next (releaseDomains (judgeModule (narrowTo (setLanes s m.val lanes) m.val upper) m.val))) ∧
    exec (.moduleTrainingDone m .fail lanes) s = .next (releaseDomains (removeModule (setLanes s m.val lanes) m.val)) := by
  have trains : ¬mstate s m.val ≠ 0 := not_not_intro h
  refine ⟨if_neg trains, fun upper hm => (if_neg trains).trans ?_, if_neg trains⟩
  exact congrArg (fun u => Host.Outcome.next (releaseDomains u)) (if_neg (Nat.not_le.mpr hm))

theorem exec_moduleRetrainDone {s1 : State} (h : mstate s m.val = 2) (h1 : s1 = clearLink (setLanes s m.val lanes) m.val) :
    exec (.moduleRetrainDone m .full lanes) s = .next (releaseDomains (poisonRuns s (rescueBoth s
      (judgeModule ((activateLink s1 m.val).logCruc (linkCrucible m.val) 0x0506 0xFF 0 0) m.val) m.val))) ∧
    (∀ upper, m.val < 24 → s1.fab.narrowed.contains m.val = false → exec (.moduleRetrainDone m (.narrow upper) lanes) s =
      .next (releaseDomains (poisonRuns s (rescueBoth s (judgeModule (narrowTo s1 m.val upper) m.val) m.val)))) ∧
    exec (.moduleRetrainDone m .fail lanes) s = .next (releaseDomains (poisonRuns s (rescueBoth s (removeModule s1 m.val) m.val))) := by
  subst h1
  have recovers : ¬mstate s m.val ≠ 2 := not_not_intro h
  refine ⟨if_neg recovers, fun upper hm hn => (if_neg recovers).trans ?_, if_neg recovers⟩
  exact congrArg (fun u => Host.Outcome.next (releaseDomains (poisonRuns s (rescueBoth s u m.val)))) (if_neg (not_or.mpr
    ⟨Nat.not_le.mpr hm, ne_true_of_eq_false hn⟩))

/-- A time since a module entered RECOVER that has passed. -/
theorem recover_due {wait : Nat} (h : mstate s m.val = 2) (hw : sget 0 s.fab.since m.val + wait ≤ t) :
    ¬(mstate (s.at t) m.val ≠ 2 ∨ (s.at t).now < sget 0 (s.at t).fab.since m.val + wait) :=
  not_or.mpr ⟨not_not_intro h, Nat.not_lt.mpr (hw.trans (Nat.le_max_right s.now t))⟩

theorem exec_recoverTimeout (h : mstate s m.val = 2) (hw : sget 0 s.fab.since m.val + 50000 ≤ t) : exec (.recoverTimeout m t) s =
    .next (releaseDomains (poisonRuns (s.at t) (rescueBoth (s.at t) (removeModule (s.at t) m.val) m.val))) := if_neg (recover_due h hw)

theorem exec_sidebandTimeout (lost : List (BitVec 8 × BitVec 12)) (h : mstate s m.val = 2) (hw : sget 0 s.fab.since m.val + 2000 ≤ t) :
    exec (.sidebandTimeout m lost t) s = .next (removeModule (poisonRuns (s.at t) (failPackets (s.at t) m.val
      (undelivered (s.link (2 * m.val)) ++ undelivered (s.link (2 * m.val + 1)) ++
        lost.map (fun p => ⟨0, 0, 0, p.1.toNat, p.2.toNat, 0⟩)))) m.val) :=
  if_neg (recover_due h hw)

end

/-! ### What a vertical port shows -/

/-- Port `c` shows the same in two states: its PUNTY_VSTAT, and whether it is lost to its core. -/
structure SamePort (c : Nat) (s u : State) : Prop where
  vstat : u.reg (Reg.puntyVstat c) = s.reg (Reg.puntyVstat c)
  lost : (u.core c).portLost = (s.core c).portLost

section
variable {c : Nat}

theorem SamePort.refl (s : State) : SamePort c s s := ⟨rfl, rfl⟩

theorem SamePort.trans {s t u : State} (h : SamePort c s t) (g : SamePort c t u) : SamePort c s u :=
  ⟨g.vstat.trans h.vstat, g.lost.trans h.lost⟩

theorem SamePort.regFld {s u : State} (h : SamePort c s u) (lo n : Nat) : u.regFld (Reg.puntyVstat c) lo n = s.regFld (Reg.puntyVstat c) lo n := by
  rw [State.regFld, h.vstat, State.regFld]

theorem SamePort.regBit {s u : State} (h : SamePort c s u) (i : Nat) : u.regBit (Reg.puntyVstat c) i = s.regBit (Reg.puntyVstat c) i := by
  rw [State.regBit, h.vstat, State.regBit]

theorem SamePort.setReg {s u : State} (h : SamePort c s u) {off : Nat} {v : Word} (ho : Reg.puntyVstat c ≠ off) : SamePort c s (u.setReg off v) :=
  h.trans ⟨reg_setReg_other u v ho, rfl⟩

theorem SamePort.setCore {s u : State} (h : SamePort c s u) {d : Nat} {x : Core} (hx : x.portLost = (u.core d).portLost) :
    SamePort c s (u.setCore d x) := by
  refine h.trans ⟨rfl, ?_⟩
  by_cases e : c = d
  · rw [e, core_setCore_same, hx]
  · rw [core_setCore_other u x e]

/-- The fabric beside the registers is no part of what a port shows. -/
theorem SamePort.fab {s u : State} (h : SamePort c s u) (f : FabState) : SamePort c s { u with fab := f } := ⟨h.vstat, h.lost⟩

variable (s : State)

theorem samePort_foldl {α : Type} {f : State → α → State} (h : ∀ s a, SamePort c s (f s a)) (l : List α) : SamePort c s (l.foldl f s) := by
  induction l generalizing s with
  | nil => exact .refl s
  | cons a l ih => exact (h s a).trans (ih (f s a))

/-! ### What a quarantine leaves of a port (R117, R379, R559) -/

/-- PUNTY_VSTAT is none of its core's registers. -/
theorem vstat_ne_coreReg {off : Nat} (h : 0x1000000 + 0x10000 * c ≤ off) : Reg.puntyVstat c ≠ off := by
  simp only [Reg.puntyVstat]
  omega

theorem samePort_markCancel (key reason : Nat) : SamePort c s (markCancel key reason s) := by
  have marked : SamePort c s (mapCmd s key (fun c => if c.st = .cancelling ∨ c.flipped = true then c else
    { c with st := .cancelling, reason := reason })) := ⟨rfl, rfl⟩
  exact marked.setReg (by simp only [Reg.puntyVstat, Reg.devSbstat]; omega)

theorem samePort_cancelRunsOn (cores : List Nat) : SamePort c s (cancelRunsOn cores s) :=
  samePort_foldl s (fun s k => samePort_markCancel s k 0x0112) _

theorem samePort_loseBinding (d : Nat) : SamePort c s (loseBinding s d) := by
  unfold loseBinding
  split
  · exact .refl s
  · exact samePort_foldl s (fun s k => samePort_markCancel s k 0x010E) _

theorem samePort_syncBind (d : Nat) : SamePort c s (syncBind s d) := by
  have other : Reg.puntyVstat c ≠ Reg.benchBind (d / 8) := by simp only [Reg.puntyVstat, Reg.benchBind]; omega
  unfold syncBind
  dsimp only
  split <;> exact ((SamePort.refl s).setReg other).setReg other

theorem samePort_accrue : SamePort c s (accrue s c) := by
  unfold accrue
  dsimp only
  split
  · exact ((SamePort.refl s).setCore (by rfl)).setReg (vstat_ne_coreReg (by simp only [Reg.coreBusyns]; omega))
  · exact .refl s

theorem samePort_wasteTime : SamePort c s (wasteTime s c) := by
  have part : (accrue s c).regFld (Reg.coreCmd c) 32 4 < 2 ^ 4 := fld_lt ..
  unfold wasteTime
  dsimp only
  refine (((samePort_accrue s).setCore (by rfl)).setReg ?_).setReg ?_ <;> simp only [Reg.puntyVstat, Reg.devAcct, Reg.devWaste] <;> omega

theorem samePort_stopStreams : SamePort c s (stopStreams s c) := by
  unfold stopStreams
  dsimp only
  refine (((samePort_accrue s).setCore (by rfl)).setReg (vstat_ne_coreReg ?_)).setReg (vstat_ne_coreReg ?_) <;>
    simp only [Reg.coreOutst, Reg.coreTpstat] <;> omega

theorem samePort_endProgram : SamePort c s (endProgram s c) := by
  refine (((SamePort.refl s).setReg (vstat_ne_coreReg ?_)).setReg (vstat_ne_coreReg ?_)).setReg (vstat_ne_coreReg ?_) <;>
    simp only [Reg.coreCmd, Reg.coreTpckpt, Reg.coreTpstat] <;> omega

theorem samePort_killActions : SamePort c s (killActions s c) := by
  have flags : SamePort c s ((stopStreams s c).setReg (Reg.coreAflags c) 0#64) :=
    (samePort_stopStreams s).setReg (vstat_ne_coreReg (by simp only [Reg.coreAflags]; omega))
  exact (flags.setCore (by rfl)).trans (samePort_endProgram _)

theorem samePort_loseTie (d : Nat) : SamePort c s (loseTie s d) := by
  unfold loseTie
  split <;> exact ⟨rfl, rfl⟩

/-- A quarantine of a port's core leaves the port. -/
theorem samePort_quarantineCore : SamePort c s (quarantineCore s c) := by
  have state : Reg.puntyVstat c ≠ Reg.coreState c := vstat_ne_coreReg (by simp only [Reg.coreState]; omega)
  have enters (u : State) : SamePort c u (syncBind ((u.setCoreSt c .quarantine).setSclass c false) c) :=
    (((SamePort.refl u).setReg state).setReg state).trans (samePort_syncBind _ c)
  have unbound : SamePort c s (dropSlice (loseBinding s c) c) := (samePort_loseBinding s c).trans ⟨rfl, rfl⟩
  have killed (u : State) : SamePort c u (cancelRunsOn [c] (killActions (loseTie (wasteTime u c) c) c)) :=
    (samePort_wasteTime u).trans ((samePort_loseTie _ c).trans ((samePort_killActions _).trans (samePort_cancelRunsOn _ [c])))
  unfold quarantineCore
  dsimp only
  split
  · exact unbound
  · exact unbound
  · split
    · exact unbound.trans ((killed _).trans (enters _))
    · exact unbound.trans ((samePort_endProgram _).trans (enters _))

/-! ### What a fence leaves of a port (R466) -/

theorem samePort_logCruc (k code node ident addr : Nat) : SamePort c s (s.logCruc k code node ident addr) := by
  refine ⟨reg_logCruc_other s k code node ident addr ?_ ?_, by rw [core_of_cores (cores_logCruc ..)]⟩ <;>
    simp only [Reg.puntyVstat, Reg.crucEvaddr, Reg.crucStat] <;> omega

theorem samePort_syncTrk (k : Nat) : SamePort c s (syncTrk s k) := by
  refine ((SamePort.refl s).setReg ?_).setReg ?_ <;> simp only [Reg.puntyVstat, Reg.crucTrk, Reg.crucStat] <;> omega

variable (hc : c < 96)
include hc

theorem samePort_fenceEntries (g : Target) (code : Nat) (p : TrackEntry → Bool) : SamePort c s (fenceEntries s g code p) := by
  have poison (k : Nat) : Reg.puntyVstat c ≠ Reg.crucPoison k := by simp only [Reg.puntyVstat, Reg.crucPoison]; omega
  have logged (u : State) (e : TrackEntry) : SamePort c u ((poisonAt u e.cruc).logCruc e.cruc 0x050D e.node e.ident e.addr) :=
    ((SamePort.refl u).setReg (poison e.cruc)).trans (samePort_logCruc _ ..)
  exact ((SamePort.refl s).fab _).trans (samePort_foldl _ (fun u e => ((logged u e).fab _).trans (samePort_syncTrk _ e.cruc)) _)

theorem samePort_fenceTarget (g : Target) : SamePort c s (fenceTarget s g) := by
  exact ((SamePort.refl s).fab _).trans (samePort_fenceEntries _ hc g 0 _)

end

/-! ### Recovery of a vertical port (R475, R476) -/

/-- The lanes that a bond test reports of port `c`, as PUNTY_VSTAT shows them. -/
def bondShown (s : State) (c : Nat) (spup spdn : BitVec 6) (badgrp : BitVec 5) : State :=
  ((s.setRegFld (Reg.puntyVstat c) 4 6 (min 44 spup.toNat)).setRegFld (Reg.puntyVstat c) 10 6 (min 44 spdn.toNat)).setRegFld (Reg.puntyVstat c) 16 5
    badgrp.toNat

/-- Core `c`'s port is lost: its links start anew, its transactions are fenced, and the core remembers it. -/
def portGone (s : State) (c : Fin 96) : State :=
  let fenced := (fenceTarget (clearLink (s.setRegFld (Reg.puntyVstat c.val) 0 2 3) (26 + c.val)) (.core c)).logCruc (c.val / 24) 0x050C c.val 0 0
  let failed := fenceEntries fenced (.core c) 0 (fun e => decide (e.node = c.val))
  failed.setCore c.val { failed.core c.val with portLost := true }

/-- Port `c` in service. -/
def portActive (s : State) (c : Nat) : State := s.setRegFld (Reg.puntyVstat c) 0 2 1

/-- Port `c` in service over one half of its lanes, which crucible `c / 24` logs. -/
def portHalved (s : State) (c : Nat) (upper : Bool) : State :=
  (((portActive s c).setRegBit (Reg.puntyVstat c) 2 true).setRegBit (Reg.puntyVstat c) 3 upper).logCruc (c / 24) 0x050B c 0 0

theorem exec_vportRecoverDone {s : State} {c : Fin 96} (spup spdn : BitVec 6) (badgrp : BitVec 5)
    (h : s.regFld (Reg.puntyVstat c.val) 0 2 = 2 ∨ s.regFld (Reg.puntyVstat c.val) 0 2 = 0) :
    exec (.vportRecoverDone c .remapped spup spdn badgrp) s = .next (portActive (bondShown s c.val spup spdn badgrp) c.val) ∧
    (∀ upper, exec (.vportRecoverDone c (.half upper) spup spdn badgrp) s =
      .next (portHalved (bondShown s c.val spup spdn badgrp) c.val upper)) ∧
    exec (.vportRecoverDone c .lost spup spdn badgrp) s =
      .next (quarantineCore (portGone (bondShown s c.val spup spdn badgrp) c) c.val) := by
  have judged : ¬(s.regFld (Reg.puntyVstat c.val) 0 2 ≠ 2 ∧ s.regFld (Reg.puntyVstat c.val) 0 2 ≠ 0) := by omega
  exact ⟨if_neg judged, fun _ => if_neg judged, if_neg judged⟩

section
variable (s : State)

theorem active_portActive (c : Nat) : (portActive s c).regFld (Reg.puntyVstat c) 0 2 = 1 := regFld_setRegFld_same s _ 1 (by decide)

/-- A port in service shows the lanes that its bond test reported. -/
theorem lanes_portActive (c : Nat) (spup spdn : BitVec 6) (badgrp : BitVec 5) :
    (portActive (bondShown s c spup spdn badgrp) c).regFld (Reg.puntyVstat c) 4 6 = min 44 spup.toNat ∧
    (portActive (bondShown s c spup spdn badgrp) c).regFld (Reg.puntyVstat c) 10 6 = min 44 spdn.toNat ∧
    (portActive (bondShown s c spup spdn badgrp) c).regFld (Reg.puntyVstat c) 16 5 = badgrp.toNat := by
  unfold portActive bondShown
  refine ⟨?_, ?_, ?_⟩
  · simp
  · simp
  · simpa using badgrp.isLt

theorem onlyRegs_portActive (c : Nat) (spup spdn : BitVec 6) (badgrp : BitVec 5) :
    OnlyRegs s (portActive (bondShown s c spup spdn badgrp) c) [Reg.puntyVstat c] := by
  have vstat : Reg.puntyVstat c ∈ [Reg.puntyVstat c] := List.mem_singleton_self _
  have shown := onlyRegs_setRegFld (onlyRegs_setRegFld (onlyRegs_setRegFld (onlyRegs_refl s _) 4 6 (min 44 spup.toNat) vstat) 10 6
    (min 44 spdn.toNat) vstat) 16 5 badgrp.toNat vstat
  exact onlyRegs_setRegFld shown 0 2 1 vstat

/-- A halved port is ACTIVE, over the half that the bond test names. -/
theorem vstat_portHalved (c : Nat) (upper : Bool) : (portHalved s c upper).regFld (Reg.puntyVstat c) 0 2 = 1 ∧
    (portHalved s c upper).regBit (Reg.puntyVstat c) 2 = true ∧ (portHalved s c upper).regBit (Reg.puntyVstat c) 3 = upper := by
  have logged : SamePort c _ (portHalved s c upper) := samePort_logCruc _ (c / 24) 0x050B c 0 0
  rw [logged.regFld, logged.regBit, logged.regBit]
  simp [active_portActive]

/-- A lost port is REMOVED, and its core's quarantine leaves it so. -/
theorem vstat_lost (c : Fin 96) : (quarantineCore (portGone s c) c.val).regFld (Reg.puntyVstat c.val) 0 2 = 3 ∧
    ((quarantineCore (portGone s c) c.val).core c.val).portLost = true := by
  have removed : (s.setRegFld (Reg.puntyVstat c.val) 0 2 3).regFld (Reg.puntyVstat c.val) 0 2 = 3 := regFld_setRegFld_same s _ 3 (by decide)
  have quarantined := samePort_quarantineCore (c := c.val) (portGone s c)
  have cleared (u : State) : SamePort c.val u (clearLink u (26 + c.val)) := ⟨rfl, rfl⟩
  have fenced := (cleared (s.setRegFld (Reg.puntyVstat c.val) 0 2 3)).trans ((samePort_fenceTarget _ c.isLt (.core c)).trans
    ((samePort_logCruc _ (c.val / 24) 0x050C c.val 0 0).trans (samePort_fenceEntries _ c.isLt (.core c) 0 (fun e => decide (e.node = c.val)))))
  refine ⟨(quarantined.regFld 0 2).trans ((fenced.regFld 0 2).trans removed), quarantined.lost.trans ?_⟩
  exact congrArg Core.portLost (core_setCore_same _ _ _)

end

/-! ### The statement -/

/-- Settles O15: each command by the lemma of its row. -/
theorem linkCommands : Obligations.LinkCommands := by
  refine ⟨?delivered, ?ack, fun s l up sq crc t => exec_nak t, ?credit, fun s l up => rfl, ?replay, fun s m t => exec_laneMonitorFlag,
    fun s m lanes => exec_moduleTrainingDone, fun s s1 m lanes => exec_moduleRetrainDone, fun s m t => exec_recoverTimeout,
    fun s m lost t => exec_sidebandTimeout lost, ?vertical, ?malformed⟩
  case delivered =>
    intro s l up h extOk t hup hn he hm hr
    have answer := exec_packetReceive_new (extOk := extOk) t hup hn he hm
    have accepted : (receiver l.val up).elim (packetDelivered (s.at t) l.val up h)
        (fun k => takePacket (packetDelivered (s.at t) l.val up h) k h extOk) = packetDelivered (s.at t) l.val up h := by
      cases hk : receiver l.val up with
      | none => rfl
      | some k => exact takePacket_ok _ k (hr.resolve_left (by simp [hk]))
    rw [accepted] at answer
    have link := link_packetDelivered_same (s.at t) l.val up h
    refine ⟨_, answer, ?_, ?_, ?_, fun k hk => link_packetDelivered_other (s.at t) l.val up h hk, packetDelivered_keeps (s.at t) l.val up h⟩
    · rw [link, ← he]
      rfl
    · rw [link]
      rfl
    · rw [link]
      rfl
  case ack =>
    intro s l up sq crc hw hp hu
    obtain ⟨pre, e, split, he, hpre⟩ := first_of_number hp
    have left := unacked_ackTo s.now hp hu
    have shorter : (ackTo (s.link (linkKey l.val up)) sq.toNat s.now).unacked ≠ (s.link (linkKey l.val up)).unacked := by
      intro same
      rw [← left, same] at split
      have := congrArg List.length split
      rw [List.length_append, List.length_cons] at this
      omega
    refine ⟨_, exec_ack hw shorter, ⟨pre, e, ?_, he, hpre⟩, fun k hk => link_setLink_other s _ hk, rfl⟩
    rw [link_setFails, link_setLink_same, left]
    exact split
  case credit =>
    intro s l up vc total crc hw
    refine ⟨_, exec_credit hw, ?_, ?_, fun k hk => link_setLink_other s _ hk, rfl⟩
    · rw [link_setLink_same]
      exact sget_sput_same ..
    · rw [link_setLink_same]
  case replay =>
    intro s s1 l up t hu hup hw h1
    have after := fun b => exec_replayTimeout b hu hup hw h1 rfl
    refine ⟨(after true).trans ?_, fun few => (after false).trans ?_, fun many hl => (after false).trans ?_⟩
    · exact congrArg _ (if_pos (.inl (by simp [setFails, sget_sput_same])))
    · exact congrArg _ (if_pos few)
    · exact congrArg _ (if_neg (by simp only [Bool.false_eq_true, if_false]; omega))
  case vertical =>
    intro s c spup spdn badgrp upper h
    obtain ⟨remapped, half, lost⟩ := exec_vportRecoverDone spup spdn badgrp h
    obtain ⟨lanesUp, lanesDown, group⟩ := lanes_portActive s c.val spup spdn badgrp
    exact ⟨⟨_, remapped, active_portActive .., lanesUp, lanesDown, group, onlyRegs_portActive ..⟩, ⟨_, half upper, vstat_portHalved ..⟩,
      ⟨_, lost, vstat_lost _ c⟩⟩
  case malformed =>
    intro s l up k h extOk t hup hn he hm hr ho hresp
    have answer := exec_packetReceive_new (extOk := extOk) t hup hn he hm
    rw [hr] at answer
    obtain ⟨links, track, resp, count⟩ := takePacket_malformed (packetDelivered (s.at t) l.val up h) k ho hresp
    have delivered := packetDelivered_keeps (s.at t) l.val up h
    refine ⟨_, answer, ?_, resp, count.trans ?_, track.trans ?_⟩
    · rw [Option.elim_some, link_of_links links, link_packetDelivered_same, ← he]
      rfl
    · rw [delivered]
      rfl
    · rw [delivered]
      rfl

end Sys2Proof.Machine
end

section
/-! SUPPORT. Bandwidth regulation (13_bandwidth_regulation.md): the budgets that a window boundary puts in force, and the admission of minimums. -/

namespace Sys2Proof.Machine

/-! ### A window boundary (R505, R508, R511) -/

/-- The offsets of the budget registers of 21 masters are distinct (R518). -/
theorem devRegbud_inj {k j m n : Nat} (hm : m < 21) (hn : n < 21) : Reg.devRegbud k m = Reg.devRegbud j n ↔ k = j ∧ m = n := by
  unfold Reg.devRegbud
  omega

theorem devRegbud_ne_devRegstat (k m : Nat) : Reg.devRegbud k m ≠ Reg.devRegstat := by
  unfold Reg.devRegbud Reg.devRegstat
  omega

theorem devRegbud_ne_devRegminsum {k : Nat} (hk : k < 4) (m j : Nat) : Reg.devRegbud j m ≠ Reg.devRegminsum k := by
  unfold Reg.devRegbud Reg.devRegminsum
  omega

/-- What a window boundary may change of a state: the budgets in force and DEV_REGSTAT. -/
def BoundaryOnly (s u : State) : Prop :=
  u.regul.counts = s.regul.counts ∧ (∀ o, o ≠ Reg.devRegstat → u.reg o = s.reg o) ∧ u = { s with regs := u.regs, regul := u.regul }

theorem boundaryOnly_refl (s : State) : BoundaryOnly s s := ⟨rfl, fun _ _ => rfl, rfl⟩

theorem boundaryOnly_trans {s t u : State} (h : BoundaryOnly s t) (g : BoundaryOnly t u) : BoundaryOnly s u := by
  obtain ⟨hc, hr, ht⟩ := h
  obtain ⟨gc, gr, hu⟩ := g
  refine ⟨gc.trans hc, fun o ho => (gr o ho).trans (hr o ho), ?_⟩
  rw [hu, ht]

theorem boundaryOnly_foldl {f : State → Nat → State} (hf : ∀ s a, BoundaryOnly s (f s a)) (l : List Nat) (s : State) :
    BoundaryOnly s (l.foldl f s) := by
  induction l generalizing s with
  | nil => exact boundaryOnly_refl s
  | cons a l ih => exact boundaryOnly_trans (hf s a) (ih _)

/-- The budget of one master at crucible k put in force. -/
def budgetTaken (k : Nat) (s : State) (m : Nat) : State :=
  { s with regul := { s.regul with
      inForce := sput (regReset (Reg.devRegbud k m)) s.regul.inForce (Reg.devRegbud k m) (s.reg (Reg.devRegbud k m)) } }

/-- The budgets of all masters at crucible k put in force. -/
def budgetsTaken (s : State) (k : Nat) : State := (List.range 21).foldl (budgetTaken k) s

/-- Once a crucible's budgets are in force, its OVERCOMMIT bit clears or stays. -/
theorem windowAt_cases (s : State) (k : Nat) :
    windowAt s k = (budgetsTaken s k).setRegBit Reg.devRegstat (4 + k) false ∨ windowAt s k = budgetsTaken s k :=
  ite_eq_or_eq ..

theorem boundaryOnly_budgetTaken (k : Nat) (s : State) (m : Nat) : BoundaryOnly s (budgetTaken k s m) := ⟨rfl, fun _ _ => rfl, rfl⟩

theorem boundaryOnly_budgetsTaken (s : State) (k : Nat) : BoundaryOnly s (budgetsTaken s k) :=
  boundaryOnly_foldl (boundaryOnly_budgetTaken k) (List.range 21) s

theorem boundaryOnly_setRegBit (s : State) (i : Nat) (b : Bool) : BoundaryOnly s (s.setRegBit Reg.devRegstat i b) :=
  ⟨rfl, fun _ ho => reg_setRegBit_other s i b ho, rfl⟩

theorem boundaryOnly_windowAt (s : State) (k : Nat) : BoundaryOnly s (windowAt s k) := by
  obtain cleared | kept := windowAt_cases s k
  · rw [cleared]
    exact boundaryOnly_trans (boundaryOnly_budgetsTaken s k) (boundaryOnly_setRegBit ..)
  · rw [kept]
    exact boundaryOnly_budgetsTaken s k

theorem reg_devRegbud_windowAt (s : State) (k j m : Nat) : (windowAt s k).reg (Reg.devRegbud j m) = s.reg (Reg.devRegbud j m) := by
  obtain ⟨-, regs, -⟩ := boundaryOnly_windowAt s k
  exact regs _ (devRegbud_ne_devRegstat j m)

@[simp] theorem reg_budgetTaken (s : State) (k m o : Nat) : (budgetTaken k s m).reg o = s.reg o := rfl

@[simp] theorem budForce_setRegBit (s : State) (off i : Nat) (b : Bool) (k m : Nat) : (s.setRegBit off i b).budForce k m = s.budForce k m := rfl

theorem budForce_budgetTaken (s : State) {k j m n : Nat} (hm : m < 21) (hn : n < 21) :
    (budgetTaken k s m).budForce j n = if j = k ∧ n = m then s.reg (Reg.devRegbud j n) else s.budForce j n := by
  split
  · next same =>
    obtain ⟨rfl, rfl⟩ := same
    exact sget_sput_same ..
  · next other => exact sget_sput_other _ _ _ _ (mt (devRegbud_inj hn hm).mp other)

theorem budForce_foldl_budgetTaken (s : State) (k j : Nat) {l : List Nat} (hl : ∀ m ∈ l, m < 21) {n : Nat} (hn : n < 21) :
    (l.foldl (budgetTaken k) s).budForce j n = if j = k ∧ n ∈ l then s.reg (Reg.devRegbud j n) else s.budForce j n := by
  induction l generalizing s with
  | nil => simp
  | cons m l ih =>
    obtain ⟨hm, hl⟩ := List.forall_mem_cons.mp hl
    rw [List.foldl_cons, ih _ hl, budForce_budgetTaken s hm hn]
    by_cases hj : j = k <;> by_cases hnl : n ∈ l <;> simp [hj, hnl]

/-- A crucible's boundary puts the budgets of its 21 masters in force, and no other crucible's. -/
theorem budForce_windowAt (s : State) (k j : Nat) {n : Nat} (hn : n < 21) :
    (windowAt s k).budForce j n = if j = k then s.reg (Reg.devRegbud j n) else s.budForce j n := by
  have taken : (windowAt s k).budForce j n = (budgetsTaken s k).budForce j n := by
    obtain cleared | kept := windowAt_cases s k
    · rw [cleared, budForce_setRegBit]
    · rw [kept]
  rw [taken, budgetsTaken, budForce_foldl_budgetTaken s k j (fun _ => List.mem_range.mp) hn]
  simp [hn]

theorem budForce_foldl_windowAt (s : State) (l : List Nat) (k : Nat) {m : Nat} (hm : m < 21) :
    (l.foldl windowAt s).budForce k m = if k ∈ l then s.reg (Reg.devRegbud k m) else s.budForce k m := by
  induction l generalizing s with
  | nil => simp
  | cons j l ih =>
    rw [List.foldl_cons, ih, reg_devRegbud_windowAt, budForce_windowAt s j k hm]
    by_cases hl : k ∈ l <;> by_cases hj : k = j <;> simp [hl, hj]

/-- The state in which a window boundary finds the regulators: device time moved on, every count 0. -/
def windowOpened (s : State) (t : Nat) : State := { s.at t with regul := { s.regul with counts := [] } }

/-- At a multiple of the window the boundary goes through the four crucibles in turn. -/
theorem exec_regulationWindow {s : State} {t : Nat} (h : t % (s.win * 1000) = 0) :
    exec (.regulationWindow t) s = .next ((List.range 4).foldl windowAt (windowOpened s t)) :=
  if_neg (not_not.mpr h)

/-! ### Budgets (R510) -/

theorem minSum_eq_sum (s : State) (k : Nat) : minSum s k = ((List.range 21).map (fun m => s.regFld (Reg.devRegbud k m) 32 20)).sum := by
  rw [List.sum_eq_foldl, List.foldl_map]
  rfl

/-- The register value of a budget and a minimum: the two fields of the word written, the rest zero (R519). -/
def budgetWord (v : Word) : Word := setFld (setFld 0#64 0 20 (budField v)) 32 20 (minField v)

@[simp] theorem minField_budgetWord (v : Word) : minField (budgetWord v) = minField v := by
  rw [minField, budgetWord, fld_setFld_same _ _ _ _ (by decide)]
  exact Nat.mod_eq_of_lt (fld_lt v 32 20)

@[simp] theorem budField_budgetWord (v : Word) : budField (budgetWord v) = budField v := by
  rw [budField, budgetWord, fld_setFld_below _ _ _ _ _ _ (by decide) (by decide), fld_setFld_same _ _ _ _ (by decide)]
  exact Nat.mod_eq_of_lt (fld_lt v 0 20)

section
variable {s : State} {who : Ident} {k : Fin 4} {m : Fin 21} {v : BitVec 64}

/-- An admitted budget is stored, and DEV_REGMINSUMk shows the new sum. -/
theorem exec_regbudWrite_admitted (hw : mgmt who = true)
    (ha : admitted (minSum (s.setReg (Reg.devRegbud k m) (budgetWord v)) k) (s.regcap k) = true) :
    exec (.regbudWrite who k m v) s = .next ((s.setReg (Reg.devRegbud k m) (budgetWord v)).setRegFld (Reg.devRegminsum k) 0 25
      (minSum (s.setReg (Reg.devRegbud k m) (budgetWord v)) k)) :=
  (if_neg (by simp [hw])).trans (if_pos ha)

/-- A budget that is not admitted sets ADMREF. -/
theorem exec_regbudWrite_refused (hw : mgmt who = true)
    (ha : admitted (minSum (s.setReg (Reg.devRegbud k m) (budgetWord v)) k) (s.regcap k) = false) :
    exec (.regbudWrite who k m v) s = .next (s.setRegBit Reg.devRegstat 0 true) :=
  (if_neg (by simp [hw])).trans (if_neg (ne_true_of_eq_false ha))

end

/-! ### The window (R510) -/

/-- A window that R510 admits: 1 to 64 microseconds, and the minimums keep the rule at the capacity it gives every crucible. -/
def WindowFits (s : State) (win : Nat) : Prop :=
  1 ≤ win ∧ win ≤ 64 ∧ ∀ k : Fin 4, admitted (minSum s k.val) (capFormula win s.mem.refForce (liveChannels s k.val)) = true

/-- The test that DEV_REGCTL's writes make is R510's. -/
theorem windowTest_iff (s : State) (win : Nat) : (decide (1 ≤ win) && decide (win ≤ 64) &&
    (List.range 4).all (fun k => admitted (minSum s k) (capFormula win s.mem.refForce (liveChannels s k)))) = true ↔ WindowFits s win := by
  simp only [WindowFits, Bool.and_eq_true, decide_eq_true_eq, List.all_eq_true, List.mem_range, Fin.forall_iff, and_assoc]

section
variable {s : State} {who : Ident} {v : BitVec 32}

/-- A window that fits is stored with MARVDL, and every capacity is computed anew (R509). -/
theorem exec_regctlWrite_fits (hw : mgmt who = true) (hf : WindowFits s (bitsOf v.toNat 0 7)) :
    exec (.regctlWrite who v) s =
      .next (recomputeCaps (s.setReg Reg.devRegctl (setFld (setFld 0#64 0 7 (bitsOf v.toNat 0 7)) 8 16 (bitsOf v.toNat 8 16)))) :=
  (if_neg (by simp [hw])).trans (if_pos ((windowTest_iff s _).mpr hf))

/-- A window that does not fit sets WINREF. -/
theorem exec_regctlWrite_refused (hw : mgmt who = true) (hf : ¬ WindowFits s (bitsOf v.toNat 0 7)) :
    exec (.regctlWrite who v) s = .next (s.setRegBit Reg.devRegstat 1 true) :=
  (if_neg (by simp [hw])).trans (if_neg (mt (windowTest_iff s _).mp hf))

end

/-! ### The statements -/

/-- Settles O3: a boundary goes through the four crucibles (`budForce_foldl_windowAt`); a write by what its admission test answers. -/
theorem regulationCommands : Obligations.RegulationCommands := by
  refine ⟨?boundary, ?budget, fun s who v hw low high adm => exec_regctlWrite_fits hw ⟨low, high, adm⟩⟩
  case boundary =>
    intro s t h
    have answer := exec_regulationWindow h
    have only := boundaryOnly_foldl boundaryOnly_windowAt (List.range 4) (windowOpened s t)
    have force := fun (k : Fin 4) (m : Fin 21) =>
      (budForce_foldl_windowAt (windowOpened s t) (List.range 4) k m.isLt).trans (if_pos (List.mem_range.mpr k.isLt))
    generalize (List.range 4).foldl windowAt (windowOpened s t) = u at answer only force
    obtain ⟨counts, regs, rest⟩ := only
    exact ⟨u, answer, counts, force, regs, rest⟩
  case budget =>
    intro s who k m v hw ha
    have stored : ∀ n, ((s.setReg (Reg.devRegbud k m) (budgetWord v)).setRegFld (Reg.devRegminsum k) 0 25 n).reg (Reg.devRegbud k m) =
        budgetWord v := fun n => by
      rw [reg_setRegFld_other _ _ _ _ (devRegbud_ne_devRegminsum k.isLt _ _), reg_setReg_same]
    refine ⟨_, exec_regbudWrite_admitted hw ha, ?_, ?_, ?_⟩
    · rw [stored, budField_budgetWord]
    · rw [stored, minField_budgetWord]
    · exact onlyRegs_setRegFld (onlyRegs_setReg (onlyRegs_refl s _) _ (by simp)) _ _ _ (by simp)

/-- Settles O39: the fold of `minSum` is the sum; a write that its admission test refuses sets its bit of DEV_REGSTAT. -/
theorem budgetAdmission : Obligations.BudgetAdmission := by
  refine ⟨fun s k => ⟨minSum_eq_sum s k, fun n cap => decide_eq_true_iff⟩, fun s who k m v => exec_regbudWrite_refused, ?_⟩
  intro s who v hw bad
  refine exec_regctlWrite_refused hw ?_
  rintro ⟨low, high, adm⟩
  obtain zero | above | ⟨k, broken⟩ := bad
  · omega
  · omega
  · exact Bool.false_ne_true (broken.symm.trans (adm k))

end Sys2Proof.Machine
end

section
/-! SUPPORT. Steps (00_scope.md, 16_partitions_protection_and_frits.md): the command at the front of the queue, and the fuses over any number of steps. -/

namespace Sys2Proof.Machine

/-- Settles O40: `step` is a match on the queue. -/
theorem stepTakesTheFront : Obligations.StepTakesTheFront := by
  refine ⟨fun c rest s => rfl, fun s empty => ?_⟩
  unfold step
  rw [empty]

/-- Settles O46: a run keeps the fuses (`kept_stepsTo`). -/
theorem fusesNeverCleared : Obligations.FusesNeverCleared := by
  intro n s t hr hm hl e
  have kept := kept_stepsTo hr hm hl e
  exact ⟨kept.arb, kept.dbg⟩

end Sys2Proof.Machine
end

section
/-! SUPPORT. Registers beside event logs and reset domains: the registers that a log, a release or the trip of a crucible leaves as they were. -/

namespace Sys2Proof.Machine

/-! ### Registers written, and folds -/

section
variable (s : State)

@[simp] theorem regFld_setReg_same (off : Nat) (v : Word) (lo n : Nat) : (s.setReg off v).regFld off lo n = fld v lo n := by
  rw [State.regFld, reg_setReg_same]

@[simp] theorem regBit_setReg_same (off : Nat) (v : Word) (i : Nat) : (s.setReg off v).regBit off i = bitAt v i := by
  rw [State.regBit, reg_setReg_same]

theorem regFld_of_reg {s u : State} {o : Nat} (h : u.reg o = s.reg o) (lo n : Nat) : u.regFld o lo n = s.regFld o lo n := congrArg (fld · lo n) h

theorem regBit_of_reg {s u : State} {o : Nat} (h : u.reg o = s.reg o) (i : Nat) : u.regBit o i = s.regBit o i := congrArg (bitAt · i) h

/-- What every step of a fold keeps, the fold keeps. -/
theorem foldl_keeps {α β : Type} {g : State → β} {f : State → α → State} (h : ∀ s a, g (f s a) = g s) (l : List α) : g (l.foldl f s) = g s := by
  induction l generalizing s with
  | nil => rfl
  | cons a l ih => exact (ih (f s a)).trans (h s a)

/-! ### Event logs (R573, R643) -/

@[simp] theorem regs_logReset (code kind index : Nat) : (s.logReset code kind index).regs = s.regs := by
  unfold State.logReset
  dsimp only
  split <;> rfl

@[simp] theorem reg_logReset (code kind index o : Nat) : (s.logReset code kind index).reg o = s.reg o := by
  rw [State.reg, regs_logReset, State.reg]

/-- An event in THERM_EVLOG shows in THERM_STAT.EVOVF at most. -/
theorem regs_logTherm (code unit : Nat) :
    (s.logTherm code unit).regs = (if s.therm.log.full 64 then s.setRegBit Reg.thermStat 4 true else s).regs := by
  unfold State.logTherm
  dsimp only
  rw [apply_ite State.regs, State.raise_regs, ite_self]
  cases s.therm.log.full 64 <;> rfl

theorem reg_logTherm (code unit o : Nat) :
    (s.logTherm code unit).reg o = (if s.therm.log.full 64 then s.setRegBit Reg.thermStat 4 true else s).reg o := by
  rw [State.reg, regs_logTherm, State.reg]

theorem reg_logTherm_other (code unit : Nat) {o : Nat} (ho : o ≠ Reg.thermStat) : (s.logTherm code unit).reg o = s.reg o := by
  rw [reg_logTherm]
  split
  · exact reg_setRegBit_other s 4 true ho
  · rfl

theorem regBit_logTherm_stat (code unit : Nat) {i : Nat} (hi : 4 ≠ i) :
    (s.logTherm code unit).regBit Reg.thermStat i = s.regBit Reg.thermStat i := by
  rw [State.regBit, reg_logTherm]
  split
  · exact regBit_setRegBit_other s _ true (by decide) hi
  · rfl

/-! ### Reset domains and thermal holds (R554, R557, R628), for a register below theirs -/

theorem reg_setUnitState_low (u x : Nat) {o : Nat} (ho : o < 0x900000) : (setUnitState s u x).reg o = s.reg o := by
  have unit : o ≠ Reg.thermUnit u := by unfold Reg.thermUnit; omega
  have stat : o ≠ Reg.thermStat := by unfold Reg.thermStat; omega
  unfold setUnitState
  dsimp only
  rw [reg_setRegFld_other _ _ _ _ stat, reg_setRegFld_other _ _ _ _ stat]
  split
  · rw [reg_bumpSat_other _ _ _ unit, reg_setRegFld_other _ _ _ _ unit]
  · rw [reg_setRegFld_other _ _ _ _ unit]

theorem reg_countRelease_low (d : Nat × Nat) {o : Nat} (ho : o < 0xA00000) : (countRelease s d).reg o = s.reg o := by
  rw [countRelease, reg_logReset, reg_bump_other _ _ (by unfold Reg.resetCnt; omega)]

theorem reg_foldl_countRelease_low (l : List (Nat × Nat)) {o : Nat} (ho : o < 0xA00000) : (l.foldl countRelease s).reg o = s.reg o :=
  foldl_keeps s (g := fun u => u.reg o) (fun u d => reg_countRelease_low u d ho) l

theorem reg_releaseDomain_low (d : DomainReset) {o : Nat} (ho : o < 0xA00000) : (releaseDomain s d).reg o = s.reg o := by
  unfold releaseDomain
  dsimp only
  split
  · rw [reg_foldl_countRelease_low _ _ ho, reg_mk]
  · rw [reg_setRegBit_other _ _ _ (by unfold Reg.resetReqstat; omega), reg_foldl_countRelease_low _ _ ho, reg_mk]

theorem reg_releaseDomains_low {o : Nat} (ho : o < 0xA00000) : (releaseDomains s).reg o = s.reg o :=
  foldl_keeps s (g := fun u => u.reg o) (fun u d => reg_releaseDomain_low u d ho) _

theorem reg_markCancel_other (key reason : Nat) {o : Nat} (ho : o ≠ Reg.devSbstat) : (markCancel key reason s).reg o = s.reg o := by
  rw [markCancel, reg_setRegBit_other _ _ _ ho, mapCmd, reg_mk]

theorem reg_cancelRunsOn_other (cores : List Nat) {o : Nat} (ho : o ≠ Reg.devSbstat) : (cancelRunsOn cores s).reg o = s.reg o :=
  foldl_keeps s (g := fun u => u.reg o) (fun u key => reg_markCancel_other u key 0x0112 ho) _

theorem regs_openDomain (kind index source : Nat) (requested : Bool) : (openDomain s kind index source requested).regs = s.regs := rfl

theorem reg_openDomain (kind index source : Nat) (requested : Bool) (o : Nat) : (openDomain s kind index source requested).reg o = s.reg o := by
  rw [State.reg, regs_openDomain, State.reg]

theorem reg_recordCause_low (kind index source : Nat) {o : Nat} (ho : o < 0xA00000) : (recordCause s kind index source).reg o = s.reg o := by
  rw [recordCause, reg_setReg_other _ _ (by unfold Reg.resetCausetime; omega), reg_setReg_other _ _ (by unfold Reg.resetCause; omega)]

theorem beginDomain_crucible (k : Nat) : beginDomain s 3 k = cancelRunsOn (coresOfCrucible k) s := rfl

/-- The reset of a crucible begins in the registers of the resets and of Bench. -/
theorem reg_startReset_crucible (k source : Nat) {o : Nat} (ho : o < 0xA00000) (hb : o ≠ Reg.devSbstat) :
    (startReset 3 k source false s).reg o = s.reg o := by
  unfold startReset
  split
  · exact reg_logReset ..
  · dsimp only
    rw [beginDomain_crucible, reg_cancelRunsOn_other _ _ hb, if_neg Bool.false_ne_true, reg_openDomain, reg_recordCause_low _ _ _ _ ho]

/-- A crucible's trip shows in the registers of the resets, of the thermal units and of Bench. -/
theorem reg_tripCrucible_low (k x : Nat) {o : Nat} (ho : o < 0x900000) (hb : o ≠ Reg.devSbstat) : (tripCrucible s k x).reg o = s.reg o := by
  have reset : (tripReset s (3, k) (108 + k)).reg o = s.reg o := by
    unfold tripReset
    dsimp only
    split
    · rw [reg_setUnitState_low _ _ _ ho, reg_logReset]
      exact reg_startReset_crucible s k 12 (by omega) hb
    · exact reg_startReset_crucible s k 12 (by omega) hb
  unfold tripCrucible
  dsimp only
  split
  · rw [reg_mk, reset]
  · exact reset

/-- The end of a unit's hold shows in the registers of the thermal units and of the resets. -/
theorem reg_finishHold_low (u : Nat) {o : Nat} (ho : o < 0x900000) : (finishHold s u).reg o = s.reg o := by
  have shown (x : Nat) : ((setUnitState s u x).logTherm 0x0A03 u).reg o = s.reg o := by
    rw [reg_logTherm_other _ _ _ (by unfold Reg.thermStat; omega), reg_setUnitState_low _ _ _ ho]
  unfold finishHold
  dsimp only
  split
  · rw [reg_releaseDomains_low _ (by omega), setHold, reg_mk, shown]
  · split
    · rw [reg_mk, shown]
    · rw [reg_mk, shown]

theorem reg_dropHolder_low (k x : Nat) {o : Nat} (ho : o < 0x900000) : (dropHolder s k x).reg o = s.reg o := by
  unfold dropHolder
  dsimp only
  split
  · rfl
  · split
    · rw [reg_mk]
    · rw [reg_finishHold_low _ _ ho, reg_mk]

end

end Sys2Proof.Machine
end

section
/-! SUPPORT. The memory (14_lpddr6_memory.md): the address map, lines of DRAM, refresh, the installation of a map, parking, the scrub, and the states
and helpers of channels. -/

namespace Sys2Proof.Machine

/-! ### The address map (R521) -/

theorem bitAt_eq_getLsbD (m : Word) (i : Nat) : bitAt m i = m.getLsbD i := by
  rw [BitVec.getLsbD, Nat.testBit_eq_decide_div_mod_eq]
  rfl

theorem mem_maskChannels {m : Word} {h : Nat} : h ∈ maskChannels m ↔ h < 64 ∧ bitAt m h = true := by
  rw [maskChannels, List.mem_filter, List.mem_range]

theorem maskChannels_nodup (m : Word) : (maskChannels m).Nodup := List.nodup_range.filter _

theorem maskChannels_length_pos {m : Word} (hm : m ≠ 0#64) : 0 < (maskChannels m).length := by
  by_contra none
  have none : maskChannels m = [] := List.length_eq_zero_iff.mp (by omega)
  refine hm (BitVec.eq_of_getLsbD_eq fun i hi => ?_)
  have clear : ¬(i < 64 ∧ bitAt m i = true) := by
    rw [← mem_maskChannels, none]
    exact List.not_mem_nil
  rw [← bitAt_eq_getLsbD, BitVec.getLsbD_zero, Bool.eq_false_iff]
  exact fun set => clear ⟨hi, set⟩

/-- The channel at an index below the number of channels is a listed one. -/
theorem getD_maskChannels_mem {m : Word} {i : Nat} (hi : i < (maskChannels m).length) : (maskChannels m).getD i 0 ∈ maskChannels m := by
  rw [List.getD_eq_getElem _ _ hi]
  exact List.getElem_mem hi

theorem getD_maskChannels_inj {m : Word} {i j : Nat} (hi : i < (maskChannels m).length) (hj : j < (maskChannels m).length)
    (h : (maskChannels m).getD i 0 = (maskChannels m).getD j 0) : i = j := by
  rw [List.getD_eq_getElem _ _ hi, List.getD_eq_getElem _ _ hj] at h
  exact (maskChannels_nodup m).getElem_inj_iff.mp h

/-- A number is its part among `n` grains of `g`, the number of its row, and its place in its grain. -/
theorem interleave_inj {g n x y : Nat} (hg : 0 < g) (part : x / g % n = y / g % n)
    (place : x / (g * n) * g + x % g = y / (g * n) * g + y % g) : x = y := by
  have inGrain : x % g = y % g := by
    have := congrArg (· % g) place
    simpa [Nat.mul_add_mod'] using this
  have row : x / g / n = y / g / n := by
    rw [Nat.div_div_eq_div_mul, Nat.div_div_eq_div_mul]
    exact Nat.eq_of_mul_eq_mul_right hg (by omega)
  have grain : x / g = y / g := by rw [← Nat.div_add_mod (x / g) n, row, part, Nat.div_add_mod]
  rw [← Nat.div_add_mod x g, grain, inGrain, Nat.div_add_mod]

theorem rangeHolds_ge {a : Word} {x : Nat} (h : rangeHolds a x = true) : fld a 0 15 * 2 ^ 22 ≤ x := by
  simp only [rangeHolds, Bool.and_eq_true, decide_eq_true_eq] at h
  obtain ⟨⟨_, low⟩, _⟩ := h
  exact low

/-- Settles O32: the channel's index is the grain's number mod the number of channels, which with the local address gives the address back. -/
theorem mapIsOneToOne : Obligations.MapIsOneToOne := by
  have index (m : Word) (k : Nat) (hm : m ≠ 0#64) : k % (maskChannels m).length < (maskChannels m).length :=
    Nat.mod_lt _ (maskChannels_length_pos hm)
  refine ⟨fun a m x y hm hx hy h => ?_, fun a m x hm hx => mem_maskChannels.mp (getD_maskChannels_mem (index m _ hm))⟩
  obtain ⟨channel, address⟩ := Prod.mk.inj h
  have part := getD_maskChannels_inj (index m _ hm) (index m _ hm) channel
  have offset := interleave_inj (by positivity) part (by omega)
  have := rangeHolds_ge hx
  have := rangeHolds_ge hy
  omega

/-! ### A line of DRAM written (R525, R526, R533, R535, R541) -/

section
variable (s : State)

theorem putBytes_keeps (key : Nat) (bs : List (Option Byte)) :
    putBytes s key bs = { s with mem := { s.mem with bytes := (putBytes s key bs).mem.bytes } } := by
  induction bs generalizing s key with
  | nil => rfl
  | cons b bs ih =>
    cases b with
    | none => exact ih s (key + 1)
    | some b => exact ih (s.setCell key b) (key + 1)

theorem cell_setCell (key k : Nat) (b : Byte) : (s.setCell key b).cell k = if k = key then b else s.cell k := by
  split
  · next same => exact same ▸ sget_sput_same ..
  · next other => exact sget_sput_other _ _ _ _ other

theorem cell_putBytes (key : Nat) (bs : List Byte) (k : Nat) :
    (putBytes s key (bs.map some)).cell k = if key ≤ k ∧ k < key + bs.length then bs.getD (k - key) 0#8 else s.cell k := by
  induction bs generalizing s key with
  | nil => exact (if_neg (by simp)).symm
  | cons b bs ih =>
    refine (ih (s.setCell key b) (key + 1)).trans ?_
    rw [cell_setCell, List.length_cons]
    by_cases first : k = key
    · subst first
      simp
    · by_cases inside : key + 1 ≤ k ∧ k < key + 1 + bs.length
      · rw [if_pos inside, if_pos (by omega), show k - key = k - (key + 1) + 1 by omega, List.getD_cons_succ]
      · rw [if_neg inside, if_neg first, if_neg (by omega)]

theorem mark_setMark_same (l : Nat) (x : LineMark) : (s.setMark l x).mark l = x := sget_sput_same ..

theorem mark_setMark_other {l j : Nat} (x : LineMark) (h : j ≠ l) : (s.setMark l x).mark j = s.mark j := sget_sput_other _ _ _ _ h

/-- A whole line put in place, with the segment's current epoch. -/
def lineWritten (l : Nat) (bs : List Byte) : State :=
  (putBytes s (l * 128) (bs.map some)).setMark l ⟨.valid, s.epoch (l / 2 ^ 24) (l / 2 ^ 21 % 8)⟩

theorem writeLine_whole (l : Nat) (bs : List Byte) : writeLine s l (bs.map some) = lineWritten s l bs := if_pos (by simp)

theorem cell_lineWritten (l : Nat) (bs : List Byte) (k : Nat) :
    (lineWritten s l bs).cell k = if l * 128 ≤ k ∧ k < l * 128 + bs.length then bs.getD (k - l * 128) 0#8 else s.cell k :=
  cell_putBytes s (l * 128) bs k

theorem mark_lineWritten_same (l : Nat) (bs : List Byte) :
    (lineWritten s l bs).mark l = ⟨.valid, s.epoch (l / 2 ^ 24) (l / 2 ^ 21 % 8)⟩ := mark_setMark_same ..

theorem mark_lineWritten_other {l j : Nat} (bs : List Byte) (h : j ≠ l) : (lineWritten s l bs).mark j = s.mark j := by
  rw [lineWritten, mark_setMark_other _ _ h, putBytes_keeps]
  rfl

theorem regs_lineWritten (l : Nat) (bs : List Byte) : (lineWritten s l bs).regs = s.regs := by
  rw [lineWritten, putBytes_keeps]
  rfl

end

section
variable {s : State} {a : Nat} {p : Nat × Nat} (hp : mapAddr s a = some p)
include hp

/-- A whole line to a channel in SERVICE, or parked, which has it in the cache as well. -/
theorem writeDramLine_whole (bs : List Byte) (hs : s.chSt p.1 = 2 ∨ s.chSt p.1 = 6) :
    writeDramLine s a (bs.map some) = lineWritten s (cellKey p / 128) bs ∨
    writeDramLine s a (bs.map some) = parkedWrite (lineWritten s (cellKey p / 128) bs) (cellKey p / 128) := by
  rw [← writeLine_whole]
  simp only [writeDramLine, hp]
  obtain hs | hs := hs <;> simp [hs]

theorem writeDramLine_frozen (bs : List (Option Byte)) (hs : s.chSt p.1 = 3 ∨ s.chSt p.1 = 4) :
    writeDramLine s a bs = { s with mem := { s.mem with held := s.mem.held ++ [⟨cellKey p / 128, bs, false⟩] } } := by
  simp only [writeDramLine, hp]
  obtain hs | hs := hs <;> simp [hs]

theorem writeDramLine_off (bs : List (Option Byte)) (hs : s.chSt p.1 = 5 ∨ s.chSt p.1 = 0 ∨ s.chSt p.1 = 1) : writeDramLine s a bs = s := by
  simp only [writeDramLine, hp]
  obtain hs | hs | hs := hs <;> simp [hs]

end

/-- Settles O33: a line in the cache of a parked channel stands in DRAM as one of a channel in SERVICE does (`writeDramLine_whole`). -/
theorem dramLineWrites : Obligations.DramLineWrites := by
  refine ⟨fun s a p bs hp hs length aligned => ?_, fun s a p bs hp => writeDramLine_frozen hp bs, fun s a p bs hp => writeDramLine_off hp bs⟩
  have start : cellKey p / 128 * 128 = cellKey p := by
    unfold cellKey
    omega
  have written : (∀ i, i < 128 → (lineWritten s (cellKey p / 128) bs).cell (cellKey p + i) = bs.getD i 0#8) ∧
      (∀ k, k < cellKey p ∨ cellKey p + 128 ≤ k → (lineWritten s (cellKey p / 128) bs).cell k = s.cell k) := by
    constructor
    · intro i hi
      rw [cell_lineWritten, start, if_pos (by omega), Nat.add_sub_cancel_left]
    · intro k hk
      rw [cell_lineWritten, start, if_neg (by omega)]
  obtain ⟨inside, outside⟩ := written
  have line := mark_lineWritten_same s (cellKey p / 128) bs
  have others := fun l => mark_lineWritten_other s (l := cellKey p / 128) (j := l) bs
  have regs := regs_lineWritten s (cellKey p / 128) bs
  obtain e | e := writeDramLine_whole hp bs hs <;> rw [e] <;> exact ⟨inside, outside, line, others, regs⟩

/-! ### Refresh (R528-R530) -/

section
variable (s : State)

@[simp] theorem mem_checkOvercommit (k : Nat) : (checkOvercommit s k).mem = s.mem := by
  unfold checkOvercommit
  split
  · rfl
  · exact State.setRegBit_mem ..

@[simp] theorem mem_recomputeCaps : (recomputeCaps s).mem = s.mem :=
  foldl_keeps s (g := State.mem) (fun u k => (mem_checkOvercommit _ k).trans (State.setRegFld_mem u _ 0 20 _)) _

/-- The state at a refresh point: the stall window open, the MEMREF shown in force, and HOT where the point is one of the full interval. -/
def refreshed (t : Nat) : State :=
  { s.at t with mem := { s.mem with
    hotForce := if onGrid t (fld s.mem.refForce 32 32) (fld s.mem.refForce 0 13) then s.regBit Reg.devMemstat 0 else s.mem.hotForce
    stallUntil := some (t + stallNs s), refForce := s.reg Reg.devMemref } }

variable {s}

/-- Capacities are computed anew where the MEMREF shown was pending. -/
theorem exec_refreshPoint {t : Nat} (hg : onGrid t (fld s.mem.refForce 32 32) (refreshP s) = true) (hp : s.regBit Reg.devMemstat 1 = false) :
    exec (.refreshPoint t) s =
      .next (if s.reg Reg.devMemref ≠ s.mem.refForce then recomputeCaps (showStall (refreshed s t)) else refreshed s t) := by
  refine (if_neg (by simp [hg, hp])).trans ?_
  by_cases pending : s.reg Reg.devMemref = s.mem.refForce <;> simp [pending, refreshed, showStall, stallNs]

theorem exec_stallWindowEnd {t u : Nat} (hu : s.mem.stallUntil = some u) (ht : u ≤ t) :
    exec (.stallWindowEnd t) s = .next { s with now := max s.now t, mem := { s.mem with stallUntil := none } } := by
  change execStallWindowEnd t s = _
  simp only [execStallWindowEnd, hu, if_neg (Nat.not_lt.mpr ht)]
  rfl

end

/-- DEV_MEMREF for a word written: its three fields, the rest zero (R545). -/
def memrefWord (v : BitVec 64) : Word :=
  setFld (setFld (setFld 0#64 0 13 (bitsOf v.toNat 0 13)) 16 9 (bitsOf v.toNat 16 9)) 32 32 (bitsOf v.toNat 32 32)

theorem bitsOf_mod (v lo n : Nat) : bitsOf v lo n % 2 ^ n = bitsOf v lo n := Nat.mod_mod _ _

theorem fields_memrefWord (v : BitVec 64) : fld (memrefWord v) 0 13 = bitsOf v.toNat 0 13 ∧ fld (memrefWord v) 16 9 = bitsOf v.toNat 16 9 ∧
    fld (memrefWord v) 32 32 = bitsOf v.toNat 32 32 := by
  unfold memrefWord
  simp only [fld_setFld_below, fld_setFld_same, bitsOf_mod, Nat.reduceAdd, Nat.reduceLeDiff, and_self]

theorem exec_memrefWrite {s : State} {who : Ident} {v : BitVec 64} (hw : mgmt who = true) (ok : memrefOk v.toNat = true) :
    exec (.memrefWrite who v) s = .next (s.setReg Reg.devMemref (memrefWord v)) :=
  (if_neg (by simp [hw])).trans (if_pos ok)

/-! ### Temperatures of stacks (R529, R629) -/

/-- A stack's temperature as its register shows it. -/
def tempShown (s : State) (site : Nat) (temp : BitVec 8) : State :=
  (s.setReg (Reg.memcTemp site) (setBit (setFld 0#64 0 8 temp.toNat) 8 true))

theorem fields_tempShown (s : State) (site : Nat) (temp : BitVec 8) :
    (tempShown s site temp).regFld (Reg.memcTemp site) 0 8 = temp.toNat ∧ (tempShown s site temp).regBit (Reg.memcTemp site) 8 = true := by
  unfold tempShown
  rw [regFld_setReg_same, regBit_setReg_same]
  refine ⟨?_, bitAt_setBit_same _ _ _ (by decide)⟩
  rw [fld_setBit_other _ _ _ _ _ (by decide) (by decide), fld_setFld_same _ _ _ _ (by decide)]
  exact Nat.mod_eq_of_lt temp.isLt

section
variable (s : State)

/-- The scheduler of a hot stack throttled, of a cool one released. -/
def stackThrottled (site : Nat) (ts : Int) : State :=
  if (s.memHot : Int) ≤ ts then
    if s.therm.memThrottled.contains site then s
    else ({ s with therm := { s.therm with memThrottled := s.therm.memThrottled ++ [site] } }).logTherm 0x0A09 (0x80 + site)
  else if ts < (s.memHot : Int) - 3 then
    { s with therm := { s.therm with memThrottled := s.therm.memThrottled.filter (fun x => decide (x ≠ site)) } }
  else s

/-- THERM_STAT shows that a stack is throttled. -/
def throttleShown : State := s.setRegBit Reg.thermStat 5 (decide (s.therm.memThrottled ≠ []))

/-- A stack's temperature against the trip and the release of its crucible. -/
def stackTripped (site : Nat) (ts : Int) : State :=
  if (s.memTrip : Int) ≤ ts then
    tripCrucible ((s.bumpSat (Reg.thermUnit (108 + site / 4)) 48 16).logTherm 0x0A02 (0x80 + site)) (site / 4) site
  else if ts < (s.memRel : Int) then dropHolder s (site / 4) site
  else s

theorem stackLimits_eq (site : Nat) (ts : Int) : stackLimits s site ts = stackTripped (throttleShown (stackThrottled s site ts)) site ts := rfl

theorem reg_stackThrottled_other (site : Nat) (ts : Int) {o : Nat} (ho : o ≠ Reg.thermStat) : (stackThrottled s site ts).reg o = s.reg o := by
  unfold stackThrottled
  split
  · split
    · rfl
    · rw [reg_logTherm_other _ _ _ ho, reg_mk]
  · split
    · rw [reg_mk]
    · rfl

theorem reg_stackTripped_low (site : Nat) (ts : Int) {o : Nat} (ho : o < 0x900000) (hb : o ≠ Reg.devSbstat) :
    (stackTripped s site ts).reg o = s.reg o := by
  unfold stackTripped
  split
  · rw [reg_tripCrucible_low _ _ _ ho hb, reg_logTherm_other _ _ _ (by unfold Reg.thermStat; omega),
      reg_bumpSat_other _ _ _ (by unfold Reg.thermUnit; omega)]
  · split
    · exact reg_dropHolder_low _ _ _ ho
    · rfl

/-- The limits show in THERM_STAT, in the registers of the thermal units, of the resets and of Bench. -/
theorem reg_stackLimits_low (site : Nat) (ts : Int) {o : Nat} (ho : o < 0x900000) (hb : o ≠ Reg.devSbstat) :
    (stackLimits s site ts).reg o = s.reg o := by
  have stat : o ≠ Reg.thermStat := by unfold Reg.thermStat; omega
  rw [stackLimits_eq, reg_stackTripped_low _ _ _ ho hb, throttleShown, reg_setRegBit_other _ _ _ stat, reg_stackThrottled_other _ _ _ stat]

/-- A cool stack, with none throttled and no crucible held, shows in THERM_STAT alone. -/
theorem stackLimits_cool {site : Nat} {ts : Int} (hn : s.therm.memThrottled = []) (hh : s.mem.memHeld = []) (hot : ts < (s.memHot : Int) - 3)
    (trip : ts < (s.memTrip : Int)) : stackLimits s site ts = s.setRegBit Reg.thermStat 5 false := by
  have throttled : stackThrottled s site ts = s := by
    unfold stackThrottled
    rw [if_neg (by omega), if_pos hot, hn, List.filter_nil, ← hn]
  have shown : throttleShown s = s.setRegBit Reg.thermStat 5 false := by
    rw [throttleShown, hn]
    rfl
  have limit : (s.setRegBit Reg.thermStat 5 false).memTrip = s.memTrip := by
    unfold State.memTrip
    rw [regFld_setRegBit_off _ _ _ _ _ (by decide)]
  rw [stackLimits_eq, throttled, shown, stackTripped, limit, if_neg (by omega)]
  split
  · exact if_pos (by simp [hh])
  · rfl

end

theorem memcTemp_low (site : Fin 16) : Reg.memcTemp site.val < 0x700000 ∧ 0x600000 ≤ Reg.memcTemp site.val := by
  unfold Reg.memcTemp
  omega

/-- The registers that show the hottest stack: DEV_MEMTEMP and HOT. -/
def hottestRegs : List Nat := [Reg.devMemtemp, Reg.devMemstat]

theorem not_mem_hottestRegs {o : Nat} (ho : 0x600000 ≤ o) : o ∉ hottestRegs := by
  simp only [hottestRegs, List.mem_cons, List.not_mem_nil, or_false, not_or, Reg.devMemtemp, Reg.devMemstat]
  omega

section
variable (s : State) (site : Fin 16) (temp : BitVec 8) (t : Nat)

/-- A report shows the stack's temperature and the hottest stack, and the limits are judged. -/
theorem exec_stackTempReport :
    exec (.stackTempReport site temp t) s = .next (tempShown (s.at t) site.val temp) ∨
    ∃ u, OnlyRegs (tempShown (s.at t) site.val temp) u hottestRegs ∧
      exec (.stackTempReport site temp t) s = .next (stackLimits u site.val (signedOf temp.toNat 8)) := by
  change execStackTempReport site temp t s = _ ∨ ∃ u, _ ∧ execStackTempReport site temp t s = _
  unfold execStackTempReport
  dsimp only
  rw [← tempShown]
  split
  · exact .inl rfl
  · refine .inr ⟨_, ?_, rfl⟩
    have temps := onlyRegs_setReg (onlyRegs_refl (tempShown (s.at t) site.val temp) hottestRegs) (off := Reg.devMemtemp)
    split
    · exact onlyRegs_setRegBit (temps _ (by simp [hottestRegs])) _ _ (by simp [hottestRegs])
    · split
      · exact onlyRegs_setRegBit (temps _ (by simp [hottestRegs])) _ _ (by simp [hottestRegs])
      · exact temps _ (by simp [hottestRegs])

/-- What a report leaves shown of its stack. -/
theorem answers_stackTempReport : Answers (.stackTempReport site temp t) s (fun u =>
    u.regFld (Reg.memcTemp site.val) 0 8 = temp.toNat ∧ u.regBit (Reg.memcTemp site.val) 8 = true) := by
  obtain ⟨low, high⟩ := memcTemp_low site
  obtain ⟨value, valid⟩ := fields_tempShown (s.at t) site.val temp
  obtain answer | ⟨u, ⟨regs, _⟩, answer⟩ := exec_stackTempReport s site temp t
  · exact ⟨_, answer, value, valid⟩
  · have kept := (reg_stackLimits_low u site.val (signedOf temp.toNat 8) (o := Reg.memcTemp site.val) (by omega)
      (by simp only [Reg.devSbstat]; omega)).trans (regs _ (not_mem_hottestRegs high))
    exact ⟨_, answer, (regFld_of_reg kept 0 8).trans value, (regBit_of_reg kept 8).trans valid⟩

/-- A cool stack is shown, and nothing is throttled or tripped. -/
theorem answers_stackTempReport_cool (hn : s.therm.memThrottled = []) (hh : s.mem.memHeld = [])
    (hot : signedOf temp.toNat 8 < (s.memHot : Int) - 3) (trip : signedOf temp.toNat 8 < (s.memTrip : Int)) :
    Answers (.stackTempReport site temp t) s (fun u => u.regFld (Reg.memcTemp site.val) 0 8 = temp.toNat ∧
      u.regBit (Reg.memcTemp site.val) 8 = true ∧ u.therm = s.therm ∧ u.mem = s.mem) := by
  obtain ⟨low, high⟩ := memcTemp_low site
  obtain ⟨value, valid⟩ := fields_tempShown (s.at t) site.val temp
  have therm : (tempShown (s.at t) site.val temp).therm = s.therm := State.setReg_therm ..
  have mem : (tempShown (s.at t) site.val temp).mem = s.mem := State.setReg_mem ..
  obtain answer | ⟨u, ⟨regs, rest⟩, answer⟩ := exec_stackTempReport s site temp t
  · exact ⟨_, answer, value, valid, therm, mem⟩
  · have limits : u.reg Reg.thermMemlim = s.reg Reg.thermMemlim :=
      (regs _ (not_mem_hottestRegs (by decide))).trans (reg_setReg_other _ _ (by unfold Reg.thermMemlim; omega))
    have temps : u.reg (Reg.memcTemp site.val) = (tempShown (s.at t) site.val temp).reg (Reg.memcTemp site.val) :=
      regs _ (not_mem_hottestRegs high)
    have uTherm : u.therm = s.therm := by rw [rest]; exact therm
    have uMem : u.mem = s.mem := by rw [rest]; exact mem
    have sameHot : u.memHot = s.memHot := congrArg (clampNat 90 104) (regFld_of_reg limits 0 8)
    have sameTrip : u.memTrip = s.memTrip := congrArg (clampNat 100 105) (regFld_of_reg limits 8 8)
    rw [stackLimits_cool u (by rw [uTherm, hn]) (by rw [uMem, hh]) (by rw [sameHot]; exact hot) (by rw [sameTrip]; exact trip)] at answer
    have stat : Reg.memcTemp site.val ≠ Reg.thermStat := by unfold Reg.thermStat; omega
    have kept := (reg_setRegBit_other u 5 false stat).trans temps
    exact ⟨_, answer, (regFld_of_reg kept 0 8).trans value, (regBit_of_reg kept 8).trans valid, uTherm, uMem⟩

end

/-! ### A map installed (R522, R524) -/

section
variable {s : State} {who : Ident}

theorem exec_mapApply (hw : mgmt who = true) (valid : pendingMapValid s = true) (hl : s.regFld Reg.devSbstat 0 14 = 0) (hs : streamsOff s = true)
    (hp : s.regBit Reg.devMemstat 1 = false) (hb : s.regBit Reg.devMemstat 2 = false) :
    exec (.mapApply who) s = .next (s.setRegBit Reg.devMemstat 2 true) :=
  (if_neg (by simp [hw])).trans (if_pos (by simp [valid, hl, hs, hp, hb]))

/-- The values of the registers of a list of indices, taken into a table whose index n has the default of register `reg n`. -/
def taken (reg : Nat → Nat) (value : Nat → Word) (l : List Nat) (m : List (Nat × Word)) : List (Nat × Word) :=
  l.foldl (fun m n => sput (regReset (reg n)) m n (value n)) m

theorem sget_taken (reg : Nat → Nat) (value : Nat → Word) (l : List Nat) (m : List (Nat × Word)) (n : Nat) :
    sget (regReset (reg n)) (taken reg value l m) n = if n ∈ l then value n else sget (regReset (reg n)) m n := by
  induction l generalizing m with
  | nil => rfl
  | cons k l ih =>
    refine (ih _).trans ?_
    by_cases same : n = k
    · subst same
      by_cases later : n ∈ l <;> simp [later, sget_sput_same]
    · simp [same, sget_sput_other _ _ _ _ same]

/-- The committed lines of every cache dropped, those with something staged kept (R524 step 2). -/
def cachesCleaned (s : State) : State := (List.range 4).foldl (fun u k => dropCached u k (fun l => !lineStaged u l)) s

/-- The ranges shown in `s` put in force in `u`, and MAPBUSY cleared. -/
def mapInForce (s u : State) : State :=
  { u with mem := { u.mem with
    mapA := taken Reg.devMemmapa (pendA s) (List.range 16) s.mem.mapA
    mapM := taken Reg.devMemmapm (pendM s) (List.range 16) s.mem.mapM } }.setRegBit Reg.devMemstat 2 false

theorem exec_mapApplyDone (hb : s.regBit Reg.devMemstat 2 = true) (hc : s.bench.spillCopies = []) :
    exec .mapApplyDone s = .next (mapInForce s ((allSegments.filter (fun p => segmentMoved s p.1 p.2)).foldl
      (fun s p => advanceEpoch s p.1 p.2) (cachesCleaned s))) :=
  if_neg (by simp [mapHolds, hb, hc])

theorem busy_mapInForce (s u : State) : (mapInForce s u).regBit Reg.devMemstat 2 = false := regBit_setRegBit_same _ _ _ (by decide)

theorem range_mapInForce (s u : State) (n : Fin 16) :
    sget (regReset (Reg.devMemmapa n.val)) (mapInForce s u).mem.mapA n.val = pendA s n.val ∧
    sget (regReset (Reg.devMemmapm n.val)) (mapInForce s u).mem.mapM n.val = pendM s n.val := by
  have listed : n.val ∈ List.range 16 := List.mem_range.mpr n.isLt
  exact ⟨(sget_taken ..).trans (if_pos listed), (sget_taken ..).trans (if_pos listed)⟩

theorem regs_cachesCleaned (s : State) : (cachesCleaned s).regs = s.regs := 
  foldl_keeps s (g := State.regs) (f := fun u k => dropCached u k (fun l => !lineStaged u l)) (fun _ _ => rfl) _

theorem reg_mapInForce_other (s u : State) {o : Nat} (ho : o ≠ Reg.devMemstat) : (mapInForce s u).reg o = u.reg o := by
  rw [mapInForce, reg_setRegBit_other _ _ _ ho, reg_mk]

/-! ### Parking (R541) -/

/-- DEV_MEMPWR for a park with a mask: PARK set. -/
def parkWord (mask : BitVec 8) : Word := setFld (setBit 0#64 0 true) 8 8 mask.toNat

theorem fields_parkWord (mask : BitVec 8) : bitAt (parkWord mask) 0 = true ∧ fld (parkWord mask) 8 8 = mask.toNat := by
  unfold parkWord
  rw [bitAt_setFld_other _ _ _ _ _ (by decide) (by decide), bitAt_setBit_same _ _ _ (by decide), fld_setFld_same _ _ _ _ (by decide)]
  exact ⟨rfl, Nat.mod_eq_of_lt mask.isLt⟩

/-- A park that begins. -/
def parkBegun (s : State) (mask : BitVec 8) : State :=
  { s.setReg Reg.devMempwr (parkWord mask) with mem := { s.mem with parking := true } }

theorem exec_park {mask : BitVec 8} (hw : mgmt who = true) (hl : s.regFld Reg.devSbstat 0 14 = 0) (hs : streamsOff s = true)
    (hp : s.regBit Reg.devMemstat 1 = false) (hb : s.regBit Reg.devMemstat 2 = false) :
    exec (.park who mask) s = .next (parkBegun s mask) := by
  refine (if_neg (by simp [hw])).trans ((if_pos (by simp [hl, hs, hb])).trans ?_)
  rw [hp]
  rfl

theorem fields_parkBegun (s : State) (mask : BitVec 8) : (parkBegun s mask).regBit Reg.devMempwr 0 = true ∧
    (parkBegun s mask).regFld Reg.devMempwr 8 8 = mask.toNat := by
  rw [parkBegun, regBit_mk, regFld_mk, regBit_setReg_same, regFld_setReg_same]
  exact fields_parkWord mask

theorem reg_parkBegun_other (s : State) (mask : BitVec 8) {o : Nat} (ho : o ≠ Reg.devMempwr) : (parkBegun s mask).reg o = s.reg o := by
  rw [parkBegun, reg_mk, reg_setReg_other _ _ ho]

/-- The channels in SERVICE. -/
def serving (s : State) : List Nat := (List.range 64).filter (fun h => decide (s.chSt h = 2))

/-- Memory parked: the channels in SERVICE in self-refresh, PARKED set, no stall window open. -/
def parked (s : State) : State :=
  let refreshing := (serving s).foldl (fun s h => syncScrub (s.setChSt h 6) h) s
  { refreshing with mem := { refreshing.mem with
    parking := false, maskForce := s.regFld Reg.devMempwr 8 8, stallUntil := none } }.setRegBit Reg.devMemstat 1 true

/-- PASRSKIP is set where a masked segment is still to be scrubbed. -/
theorem exec_parkDone (hp : s.mem.parking = true) (hc : s.bench.spillCopies = []) :
    ∃ skipped : Bool, exec .parkDone s = .next (if skipped then (parked s).setRegBit Reg.devMemstat 6 true else parked s) :=
  ⟨_, if_neg (by simp [hp, hc])⟩

theorem parked_skipped (s : State) (skipped : Bool) :
    (if skipped then (parked s).setRegBit Reg.devMemstat 6 true else parked s).regBit Reg.devMemstat 1 = true ∧
    (if skipped then (parked s).setRegBit Reg.devMemstat 6 true else parked s).mem = (parked s).mem := by
  have shown : (parked s).regBit Reg.devMemstat 1 = true := regBit_setRegBit_same _ _ true (by decide)
  split
  · exact ⟨(regBit_setRegBit_other _ _ true (by decide) (by decide)).trans shown, State.setRegBit_mem ..⟩
  · exact ⟨shown, rfl⟩

theorem exec_wake (hp : s.regBit Reg.devMemstat 1 = true) : exec .wake s = .next (wakeMemory s) := if_pos hp

theorem parked_wakeMemory (s : State) : (wakeMemory s).regBit Reg.devMemstat 1 = false ∧ (wakeMemory s).regBit Reg.devMempwr 0 = false := by
  unfold wakeMemory
  dsimp only
  refine ⟨?_, regBit_setRegBit_same _ _ _ (by decide)⟩
  rw [regBit_setRegBit_off _ _ _ _ (by decide), regBit_setRegBit_same _ _ _ (by decide)]

end

/-! ### The scrub (R538) -/

/-- MEMC_SCRUBPTR of channel h. -/
def scrubPtr (h : Nat) : Nat := Reg.memcScrubptr (h / 4) (h % 4)

/-- The errors of a scrubbed line counted. -/
def scrubCounted (s : State) (h : Nat) : Ecc → State
  | .clean => s
  | .corrected => s.bump (Reg.memcCorr (h / 4) (h % 4)) 1
  | .uncorrectable => (s.bump (Reg.memcUnc (h / 4) (h % 4)) 1).bump (Reg.memcLost (h / 4) (h % 4)) 1

/-- A line of channel h scrubbed: kept where it is current and readable, and else marked lost. -/
def scrubbed (s : State) (h k line : Nat) (ecc : Ecc) : State :=
  if decide (ecc ≠ .uncorrectable) && decide ((s.mark (h * 2 ^ 24 + line)).epoch = s.epoch h k) then scrubCounted s h ecc
  else (scrubCounted s h ecc).setMark (h * 2 ^ 24 + line) ⟨.lost, s.epoch h k⟩

/-- A line of channel h scrubbed, and SCRUBPTR moved on. -/
def scrubMoved (s : State) (h k line : Nat) (ecc : Ecc) : State :=
  (scrubbed s h k line ecc).setRegFld (scrubPtr h) 0 24 ((line + 1) % 2 ^ 24)

theorem exec_scrubLine {s : State} {ch : Fin 64} {k p : Nat} (ecc : Ecc) (hs : s.chSt ch.val = 2) (hk : scrubSegment s ch.val = some k)
    (hp : p = s.regFld (scrubPtr ch.val) 0 24) (within : p / 2 ^ 21 = k) : exec (.scrubLine ch ecc) s =
      .next (if p % 2 ^ 21 = 2 ^ 21 - 1 then finishSegment (scrubMoved s ch.val k p ecc) ch.val k else scrubMoved s ch.val k p ecc) := by
  subst hp
  change execScrubLine ch ecc s = _
  unfold execScrubLine
  dsimp only
  rw [if_neg (not_not.mpr hs), hk]
  dsimp only
  rw [← scrubPtr, if_pos within]
  cases ecc <;> rfl

section
variable (s : State) (h k line : Nat) (ecc : Ecc)

@[simp] theorem mem_scrubCounted : (scrubCounted s h ecc).mem = s.mem := by cases ecc <;> rfl

theorem ptr_scrubMoved : (scrubMoved s h k line ecc).regFld (scrubPtr h) 0 24 = (line + 1) % 2 ^ 24 := by
  rw [scrubMoved, regFld_setRegFld_same _ _ _ (by decide), Nat.mod_mod]

theorem ptr_syncScrub : (syncScrub s h).regFld (scrubPtr h) 0 24 = s.regFld (scrubPtr h) 0 24 :=
  regFld_setRegBit_off _ _ _ _ _ (by simp only [scrubPtr, chstat, Reg.memcScrubptr, Reg.memcChstat]; omega)

/-- The end of a segment leaves SCRUBPTR. -/
theorem ptr_finishSegment : (finishSegment s h k).regFld (scrubPtr h) 0 24 = s.regFld (scrubPtr h) 0 24 := by
  unfold finishSegment
  dsimp only
  rw [ptr_syncScrub, regFld_setRegBit_off _ _ _ _ _ (by simp only [scrubPtr, chstat, Reg.memcScrubptr, Reg.memcChstat]; omega), regFld_mk]

@[simp] theorem mark_setRegFld (off lo n v l : Nat) : (s.setRegFld off lo n v).mark l = s.mark l := by
  rw [State.mark, segMark, State.setRegFld_mem, ← segMark, ← State.mark]

theorem bytes_scrubMoved : (scrubMoved s h k line ecc).mem.bytes = s.mem.bytes := by
  unfold scrubMoved scrubbed
  rw [State.setRegFld_mem]
  split
  · rw [mem_scrubCounted]
  · rw [State.setMark, mem_scrubCounted]

theorem mem_scrubMoved_clean (current : (s.mark (h * 2 ^ 24 + line)).epoch = s.epoch h k) : (scrubMoved s h k line .clean).mem = s.mem := by
  rw [scrubMoved, State.setRegFld_mem, scrubbed, if_pos (Bool.and_eq_true_iff.mpr ⟨decide_eq_true (by decide), decide_eq_true current⟩)]
  rfl

theorem mark_scrubMoved_uncorrectable :
    (scrubMoved s h k line .uncorrectable).mark (h * 2 ^ 24 + line) = ⟨.lost, s.epoch h k⟩ := by
  rw [scrubMoved, mark_setRegFld, scrubbed, if_neg (by simp), mark_setMark_same]

end

/-! ### States of channels (R532-R536, R542) -/

section
variable {s : State} {who : Ident} {ch : Fin 64} {t : Nat}

theorem chSt_setChSt (s : State) (h : Nat) {x : Nat} (hx : x < 8) : (s.setChSt h x).chSt h = x :=
  (regFld_setRegFld_same s _ x (by decide)).trans (Nat.mod_eq_of_lt hx)

theorem reg_setChSt_other (s : State) (h x : Nat) {o : Nat} (ho : o ≠ chstat h) : (s.setChSt h x).reg o = s.reg o := by
  rw [State.setChSt, reg_mk, reg_setRegFld_other _ _ _ _ ho]

theorem exec_caParityError (info : FreezeInfo) (t : Nat) (hs : s.chSt ch.val = 2) :
    exec (.caParityError ch info t) s = .next (freezeChannel (s.at t) ch.val 2 0 info) :=
  congrArg _ (if_pos (.inl hs))

theorem exec_phyLockLoss (info : FreezeInfo) (t : Nat) (hs : s.chSt ch.val = 2 ∨ s.chSt ch.val = 6) :
    exec (.phyLockLoss ch info t) s = .next (freezeChannel (s.at t) ch.val 3 0 info) :=
  congrArg _ (if_pos (hs.imp_right fun parked => ⟨parked, rfl⟩))

/-- Below FRZMAX the end of a freeze's hold leads to RECOVERING. -/
theorem endFreezeHold_recovers (hs : s.chSt ch.val = 3) (hn : s.regFld (chstat ch.val) 12 4 < s.regFld Reg.devMemctl 16 4) :
    endFreezeHold s ch.val = s.setChSt ch.val 4 :=
  (if_neg (not_not.mpr hs)).trans (if_neg (by omega))

theorem exec_frzack (t : Nat) (hw : who.val = 16) (hs : s.chSt ch.val = 3)
    (hn : s.regFld (chstat ch.val) 12 4 < s.regFld Reg.devMemctl 16 4) :
    exec (.frzack who ch t) s = .next ((s.at t).setChSt ch.val 4) :=
  (if_neg (not_not.mpr hw)).trans (congrArg _ (endFreezeHold_recovers (s := s.at t) hs hn))

theorem exec_frzholdTimeout (hs : s.chSt ch.val = 3)
    (ht : (s.reg (Reg.memcFrztime (ch.val / 4) (ch.val % 4))).toNat + s.frzhold ≤ t)
    (hn : s.regFld (chstat ch.val) 12 4 < s.regFld Reg.devMemctl 16 4) :
    exec (.frzholdTimeout ch t) s = .next ((s.at t).setChSt ch.val 4) :=
  (if_neg (Nat.not_lt.mpr (ht.trans (Nat.le_max_right s.now t)))).trans (congrArg _ (endFreezeHold_recovers (s := s.at t) hs hn))

theorem exec_goservice (hw : who.val = 16) (hs : s.chSt ch.val = 1 ∧ max s.now t ≤ sget 0 s.mem.entered ch.val + 300000000 ∨
      s.chSt ch.val = 4 ∧ max s.now t ≤ sget 0 s.mem.entered ch.val + 20100000) :
    exec (.goservice who ch t) s = .next (toService (s.at t) ch.val) := by
  refine (if_neg (not_not.mpr hw)).trans ?_
  obtain ⟨training, inTime⟩ | ⟨recovering, inTime⟩ := hs
  · exact (if_pos training).trans (congrArg _ (if_neg (Nat.not_lt.mpr inTime)))
  · exact (if_neg (show ¬ s.chSt ch.val = 1 by omega)).trans ((if_pos recovering).trans (congrArg _ (if_neg (Nat.not_lt.mpr inTime))))

theorem exec_retire_training (hw : who.val = 16) (hs : s.chSt ch.val = 1) : exec (.retire who ch) s = .next (failTraining s ch.val) :=
  (if_neg (not_not.mpr hw)).trans (if_pos hs)

theorem exec_retire_recovering (hw : who.val = 16) (hs : s.chSt ch.val = 4) : exec (.retire who ch) s = .next (retireChannel s ch.val) :=
  (if_neg (not_not.mpr hw)).trans ((if_neg (by omega)).trans (if_pos hs))

theorem exec_recoveryTimeout (hs : s.chSt ch.val = 4) (ht : sget 0 s.mem.entered ch.val + 20100000 < t) :
    exec (.recoveryTimeout ch t) s = .next (retireChannel (s.at t) ch.val) :=
  if_pos ⟨hs, ht.trans_le (Nat.le_max_right s.now t)⟩

theorem exec_trainingTimeout (hs : s.chSt ch.val = 1) (ht : sget 0 s.mem.entered ch.val + 300000000 < t) :
    exec (.trainingTimeout ch t) s = .next (failTraining (s.at t) ch.val) :=
  if_pos ⟨hs, ht.trans_le (Nat.le_max_right s.now t)⟩

/-! ### Helper commands and the fill (R542, R544) -/

/-- MEMC_TRES of channel h. -/
def helperReg (h : Nat) : Nat := Reg.memcTres (h / 4) (h % 4)

/-- A helper command under way. -/
def helperBusy (s : State) (h : Nat) : State := s.setReg (helperReg h) (setBit 0#64 31 true)

theorem helperStart_ready {h : Nat} (hw : who.val = 16) (ready : helperReady s h = true) (writes : Bool) (line count : Nat) :
    helperStart who h writes line count s = if writes then helperLines count (helperBusy s h) h line else helperBusy s h :=
  (if_neg (not_not.mpr hw)).trans (if_pos ready)

theorem busy_helperBusy (s : State) (h : Nat) : (helperBusy s h).regBit (helperReg h) 31 = true := by
  rw [helperBusy, regBit_setReg_same, bitAt_setBit_same _ _ _ (by decide)]

theorem onlyRegs_helperBusy (s : State) (h : Nat) : OnlyRegs s (helperBusy s h) [helperReg h] :=
  onlyRegs_setReg (onlyRegs_refl s _) _ (List.mem_singleton_self _)

/-- MEMC_TRES for what the comparisons of a helper command found. -/
def helperResult (dq : BitVec 24) (ca : Bool) (errs : BitVec 32) : Word :=
  setFld (setBit (setFld 0#64 0 24 dq.toNat) 28 ca) 32 32 errs.toNat

theorem fields_helperResult (dq : BitVec 24) (ca : Bool) (errs : BitVec 32) : fld (helperResult dq ca errs) 0 24 = dq.toNat ∧
    bitAt (helperResult dq ca errs) 28 = ca ∧ bitAt (helperResult dq ca errs) 31 = false ∧ fld (helperResult dq ca errs) 32 32 = errs.toNat := by
  unfold helperResult
  refine ⟨?_, ?_, ?_, ?_⟩
  · rw [fld_setFld_below _ _ _ _ _ _ (by decide) (by decide), fld_setBit_other _ _ _ _ _ (by decide) (by decide),
      fld_setFld_same _ _ _ _ (by decide)]
    exact Nat.mod_eq_of_lt dq.isLt
  · rw [bitAt_setFld_other _ _ _ _ _ (by decide) (by decide), bitAt_setBit_same _ _ _ (by decide)]
  · rw [bitAt_setFld_other _ _ _ _ _ (by decide) (by decide), bitAt_setBit_other _ _ _ _ (by decide) (by decide),
      bitAt_setFld_other _ _ _ _ _ (by decide) (by decide)]
    rfl
  · rw [fld_setFld_same _ _ _ _ (by decide)]
    exact Nat.mod_eq_of_lt errs.isLt

theorem exec_trainCmdDone (dq : BitVec 24) (ca : Bool) (errs : BitVec 32) (hb : s.regBit (helperReg ch.val) 31 = true) :
    exec (.trainCmdDone ch dq ca errs) s = .next (s.setReg (helperReg ch.val) (helperResult dq ca errs)) :=
  if_neg (by
    change ¬ (!s.regBit (helperReg ch.val) 31) = true
    simp [hb])

/-- Channel h's memory as no write has touched it. -/
def memoryCleared (s : State) (h : Nat) : State :=
  { s with mem := { s.mem with
    bytes := sclear (fun a => decide (a / 2 ^ 31 = h)) s.mem.bytes
    marks := sclear (fun a => decide (a / 2 ^ 24 = h)) s.mem.marks
    segBase := sclear (fun a => decide (a / 8 = h)) s.mem.segBase
    advances := sclear (fun a => decide (a / 8 = h)) s.mem.advances } }

/-- Channel h's epochs zero, nothing to scrub, and the scrub at the first line. -/
def scrubCleared (s : State) (h : Nat) : State :=
  ((s.setReg (Reg.memcEpoch (h / 4) (h % 4)) 0#64).setRegFld (chstat h) 4 8 0).setReg (scrubPtr h) 0#64

theorem exec_memoryFillDone (hs : s.chSt ch.val = 1) : exec (.memoryFillDone ch) s = .next (scrubCleared (memoryCleared s ch.val) ch.val) :=
  if_neg (not_not.mpr hs)

theorem byte_memoryCleared (s : State) (h a : Nat) :
    sget 0#8 (memoryCleared s h).mem.bytes a = if a / 2 ^ 31 = h then 0#8 else sget 0#8 s.mem.bytes a := by
  split
  · next inside => exact sget_sclear_in (p := fun a => decide (a / 2 ^ 31 = h)) _ _ (decide_eq_true inside)
  · next outside => exact sget_sclear_out (p := fun a => decide (a / 2 ^ 31 = h)) _ _ (decide_eq_false outside)

theorem regs_scrubCleared (s : State) (h : Nat) : (scrubCleared s h).reg (Reg.memcEpoch (h / 4) (h % 4)) = 0#64 ∧
    (scrubCleared s h).regFld (chstat h) 4 8 = 0 ∧ (scrubCleared s h).reg (scrubPtr h) = 0#64 := by
  have ptr : Reg.memcEpoch (h / 4) (h % 4) ≠ scrubPtr h := by simp only [scrubPtr, Reg.memcEpoch, Reg.memcScrubptr]; omega
  have stat : chstat h ≠ scrubPtr h := by simp only [scrubPtr, chstat, Reg.memcChstat, Reg.memcScrubptr]; omega
  have epoch : Reg.memcEpoch (h / 4) (h % 4) ≠ chstat h := by simp only [chstat, Reg.memcEpoch, Reg.memcChstat]; omega
  unfold scrubCleared
  refine ⟨?_, ?_, reg_setReg_same ..⟩
  · rw [reg_setReg_other _ _ ptr, reg_setRegFld_other _ _ _ _ epoch, reg_setReg_same]
  · rw [regFld_setReg_other _ _ _ _ stat, regFld_setRegFld_same _ _ _ (by decide)]
    rfl

/-- A site's log of events read (R548). -/
theorem exec_memcEvlogRead (s : State) (site : Fin 16) : exec (.memcEvlogRead site) s =
    .next { s with
      readData := (sget EvLog.empty s.mem.logs site.val).head
      mem := { s.mem with logs := sput EvLog.empty s.mem.logs site.val (sget EvLog.empty s.mem.logs site.val).pop } } := rfl

end

/-! ### The statements -/

/-- Settles O4: each command by the lemma of its row. -/
theorem memoryCommands : Obligations.MemoryCommands := by
  refine ⟨?refresh, fun s t u => exec_stallWindowEnd, ?memref, ?temp, ?apply, ?installed, ?park, ?parked, fun s hp =>
    ⟨_, exec_wake hp, parked_wakeMemory s⟩, ?scrub⟩
  case refresh =>
    intro s t hg hp same
    have answer := exec_refreshPoint hg hp
    rw [if_neg (not_not.mpr same)] at answer
    refine ⟨_, answer, rfl, ?_⟩
    rw [refreshed, same]
    rfl
  case memref =>
    intro s who v hw ok
    obtain ⟨interval, trfc, phase⟩ := fields_memrefWord v
    refine ⟨_, exec_memrefWrite hw ok, ?_, ?_, ?_, congrArg MemState.refForce (State.setReg_mem ..),
      onlyRegs_setReg (onlyRegs_refl s _) _ (List.mem_singleton_self _)⟩
    · rw [regFld_setReg_same, interval]
    · rw [regFld_setReg_same, trfc]
    · rw [regFld_setReg_same, phase]
  case temp =>
    intro s site temp t hn hh hot trip
    exact answers_stackTempReport_cool s site temp t hn hh hot trip
  case apply =>
    intro s who hw valid hl hs hp hb
    exact ⟨_, exec_mapApply hw valid hl hs hp hb, regBit_setRegBit_same _ _ _ (by decide),
      regBit_setRegBit_other _ _ _ (by decide) (by decide), onlyRegs_setRegBit (onlyRegs_refl s _) _ _ (List.mem_singleton_self _)⟩
  case installed =>
    intro s hb hc none
    have answer := exec_mapApplyDone hb hc
    rw [none, List.foldl_nil] at answer
    refine ⟨_, answer, busy_mapInForce .., range_mapInForce s _, fun o ho => ?_⟩
    rw [reg_mapInForce_other _ _ ho, State.reg, regs_cachesCleaned, State.reg]
  case park =>
    intro s who mask hw hl hs hp hb
    obtain ⟨park, shown⟩ := fields_parkBegun s mask
    exact ⟨_, exec_park hw hl hs hp hb, park, shown, rfl, fun o => reg_parkBegun_other s mask⟩
  case parked =>
    intro s hp hc
    obtain ⟨skipped, answer⟩ := exec_parkDone hp hc
    obtain ⟨shown, mem⟩ := parked_skipped s skipped
    refine ⟨_, answer, shown, ?_, ?_, ?_⟩ <;> rw [mem] <;> rfl
  case scrub =>
    intro s ch ecc k hs hk within inner
    have answer := exec_scrubLine ecc hs hk rfl within
    have inner : s.regFld (scrubPtr ch.val) 0 24 % 2 ^ 21 < 2 ^ 21 - 1 := inner
    have below : s.regFld (scrubPtr ch.val) 0 24 < 2 ^ 24 := fld_lt _ 0 24
    rw [if_neg (Nat.ne_of_lt inner)] at answer
    refine ⟨_, answer, (ptr_scrubMoved ..).trans (Nat.mod_eq_of_lt ?_), ?_, ?_, bytes_scrubMoved ..⟩
    · omega
    · rintro rfl current
      exact mem_scrubMoved_clean _ _ _ _ current
    · rintro rfl
      exact mark_scrubMoved_uncorrectable ..

/-- Settles O5: each command by the lemma of its row. -/
theorem channelCommands : Obligations.ChannelCommands := by
  refine ⟨fun s ch info t => exec_caParityError info t, fun s ch info t => exec_phyLockLoss info t, ?ack, ?hold, fun s who ch t => exec_goservice,
    fun s who ch hw => ⟨exec_retire_training hw, exec_retire_recovering hw⟩, fun s ch t => exec_recoveryTimeout, fun s ch t => exec_trainingTimeout,
    ?helper, ?helped, fun s ch => rfl, ?fill, ?log⟩
  case ack =>
    intro s who ch t hw hs hn
    exact ⟨_, exec_frzack t hw hs hn, chSt_setChSt _ _ (by decide), fun o => reg_setChSt_other (s.at t) ch.val 4⟩
  case hold =>
    intro s ch t hs ht hn
    exact ⟨_, exec_frzholdTimeout hs ht hn, chSt_setChSt _ _ (by decide), fun o => reg_setChSt_other (s.at t) ch.val 4⟩
  case helper =>
    intro s who ch line countm1 hw ready
    have started := fun writes => congrArg (Host.Outcome.next : State → Out) (helperStart_ready hw ready writes line.toNat (countm1.toNat + 1))
    refine ⟨⟨_, started false, busy_helperBusy .., onlyRegs_helperBusy ..⟩, ⟨_, started false, busy_helperBusy .., onlyRegs_helperBusy ..⟩, ?_⟩
    rintro c (rfl | rfl)
    · exact started true
    · exact started true
  case helped =>
    intro s ch dq ca errs hb
    obtain ⟨lanes, command, idle, count⟩ := fields_helperResult dq ca errs
    refine ⟨_, exec_trainCmdDone dq ca errs hb, ?_, ?_, ?_, ?_, onlyRegs_setReg (onlyRegs_refl s _) _ (List.mem_singleton_self _)⟩
    · exact (regFld_setReg_same ..).trans lanes
    · exact (regBit_setReg_same ..).trans command
    · exact (regBit_setReg_same ..).trans idle
    · exact (regFld_setReg_same ..).trans count
  case fill =>
    intro s ch hs
    exact ⟨_, exec_memoryFillDone hs, byte_memoryCleared s ch.val, regs_scrubCleared _ _⟩
  case log =>
    intro s site
    exact ⟨_, exec_memcEvlogRead s site, rfl, sget_sput_same .., fun i hi => sget_sput_other _ _ _ _ hi, rfl⟩

/-- Settles O59: each command by the lemma of its row. -/
theorem memoryCommandsComplete : Obligations.MemoryCommandsComplete := by
  refine ⟨?refresh, ?stall, ?memref, answers_stackTempReport, fun s who => exec_mapApply, ?installed, ?park, ?parked, fun s => exec_wake, ?scrub⟩
  case refresh =>
    intro s t hg hp
    have kept : ∀ u : State, (recomputeCaps (showStall u)).mem = u.mem := fun u => (mem_recomputeCaps _).trans (State.setRegFld_mem ..)
    refine ⟨_, exec_refreshPoint hg hp, ?_⟩
    split
    · rw [kept]
      exact ⟨rfl, rfl⟩
    · exact ⟨rfl, rfl⟩
  case stall =>
    intro s t u hu ht
    exact ⟨_, exec_stallWindowEnd hu ht, rfl, rfl⟩
  case memref =>
    intro s who v hw ok
    obtain ⟨interval, trfc, phase⟩ := fields_memrefWord v
    exact ⟨_, exec_memrefWrite hw ok, (regFld_setReg_same ..).trans interval, (regFld_setReg_same ..).trans trfc,
      (regFld_setReg_same ..).trans phase⟩
  case installed =>
    intro s hb hc
    exact ⟨_, exec_mapApplyDone hb hc, busy_mapInForce .., range_mapInForce s _⟩
  case park =>
    intro s who mask hw hl hs hp hb
    exact ⟨_, exec_park hw hl hs hp hb, rfl, fields_parkBegun s mask⟩
  case parked =>
    intro s hp hc
    obtain ⟨skipped, answer⟩ := exec_parkDone hp hc
    obtain ⟨shown, mem⟩ := parked_skipped s skipped
    refine ⟨_, answer, shown, ?_, ?_⟩ <;> rw [mem] <;> rfl
  case scrub =>
    intro s ch ecc k p hs hk hp within
    refine ⟨_, exec_scrubLine ecc hs hk hp within, ?_⟩
    split
    · exact (ptr_finishSegment ..).trans (ptr_scrubMoved ..)
    · exact ptr_scrubMoved ..

end Sys2Proof.Machine
end

section
/-! SUPPORT. Resets (15_reset_option_bytes_and_restart.md): the reset of a block, device resets, pins and rails, the option reader and the repair log. -/

namespace Sys2Proof.Machine

/-! ### RESET_REQ (R553) -/

section
variable {s : State} {who : Ident} {kind : BitVec 4} {index : BitVec 8} (t : Nat)

theorem exec_resetReq (hw : mgmt who = true) :
    exec (.resetReq who kind index t) s = .next (resetRequest (s.at t) kind.toNat index.toNat) := if_pos hw

theorem exec_resetReq_stranger (hw : mgmt who = false) :
    exec (.resetReq who kind index t) s = .next ((s.at t).logReset 0x090A kind.toNat index.toNat) := if_neg (by simp [hw])

theorem resetRequest_refused {kind index : Nat} (ok : domainIndexOk kind index = false) :
    resetRequest s kind index = (requestAnswer s 0x090B).logReset 0x090B kind index := if_pos (by simp [ok])

theorem resetRequest_cold {index : Nat} (ok : domainIndexOk 8 index = true) :
    resetRequest s 8 index = startCold 11 true false (requestAnswer s 0) := (if_neg (by simp [ok])).trans (if_pos rfl)

theorem resetRequest_begins {kind index : Nat} (ok : domainIndexOk kind index = true) (h8 : kind ≠ 8) (h1 : kind ≠ 1)
    (hr : inReset s (kind, index) = false) :
    resetRequest s kind index = beginRequested (startReset kind index 11 true (requestAnswer s 0)) kind index := by
  unfold resetRequest
  rw [if_neg (by simp [ok]), if_neg h8, if_neg h1, if_neg (by simp [hr])]

/-- A request for a domain that is not in reset begins it. -/
theorem exec_resetReq_begins (hw : mgmt who = true) (ok : domainIndexOk kind.toNat index.toNat = true) (h8 : kind ≠ 8#4) (h1 : kind ≠ 1#4)
    (hr : inReset s (kind.toNat, index.toNat) = false) : exec (.resetReq who kind index t) s =
      .next (beginRequested (startReset kind.toNat index.toNat 11 true (requestAnswer (s.at t) 0)) kind.toNat index.toNat) := by
  have n8 : kind.toNat ≠ 8 := fun e => h8 (BitVec.eq_of_toNat_eq e)
  have n1 : kind.toNat ≠ 1 := fun e => h1 (BitVec.eq_of_toNat_eq e)
  rw [exec_resetReq t hw, resetRequest_begins (s := s.at t) ok n8 n1 hr]

end

/-! ### The reset of a block (R557, R558) -/

section
variable {s : State} {b : Block}

theorem inPhase_unique {p q : BlockPhase} (h : inPhase s b p = true) (hq : p ≠ q) : inPhase s b q = false := by
  rw [inPhase, decide_eq_true_eq] at h
  rw [inPhase, decide_eq_false_iff_not, h]
  exact fun e => hq (Option.some.inj e)

variable (t : Nat)

theorem exec_idleAck (h : inPhase s b .idlereq = true) : exec (.idleAck b t) s = .next (enterBlockReset (s.at t) b true) := if_pos h

theorem exec_idleTimeout (h : inPhase s b .idlereq = true) :
    exec (.idleTimeout b t) s = .next (if idleWaited (s.at t) b then fenceBlock (s.at t) b else s.at t) := by
  change (if (inPhase s b .idlereq && idleWaited (s.at t) b) = true then _ else _) = _
  rw [h, Bool.true_and]
  split <;> rfl

theorem exec_orphanDrainDone_fenced (h : inPhase s b .fenced = true) :
    exec (.orphanDrainDone b t) s = .next (enterBlockReset (drainNodes (s.at t) b) b false) := if_pos h

theorem exec_orphanDrainDone_reset (h : inPhase s b .reset = true) :
    exec (.orphanDrainDone b t) s = .next ((drainNodes (s.at t) b).setBlock ⟨b, .reset, true⟩) :=
  (if_neg (ne_true_of_eq_false (inPhase_unique h (by decide)))).trans (if_pos h)

theorem exec_resetLineEnd {x : BlockReset} (hx : s.blockPhase b = some x) (hr : x.phase = .reset) : exec (.resetLineEnd b t) s =
    .next (if x.drained = true ∧ lineHeld s b = false then startBlock ((s.at t).setBlock ⟨b, .release, true⟩) b else s.at t) := by
  have phase : (s.at t).blockPhase b = some x := hx
  have held : lineHeld (s.at t) b = lineHeld s b := rfl
  change execResetLineEnd b t s = _
  simp only [execResetLineEnd, phase, hr, held, true_and, Bool.not_eq_true']
  split <;> rfl

theorem exec_blockRestartDone (pass : Bool) (h : inPhase s b .release = true) : exec (.blockRestartDone b pass t) s =
    .next (if pass then finishBlock (s.at t) b t else (s.at t).setBlock ⟨b, .reset, true⟩) := by
  refine (if_neg (by simp [h])).trans ?_
  cases pass <;> rfl

section
variable {kind : BitVec 4} {index : BitVec 8} {d : DomainReset}
  (hd : s.rst.domains.find? (fun d => decide (d.kind = kind.toNat) && decide (d.index = index.toNat)) = some d)
include hd

theorem exec_restartTimeout : exec (.restartTimeout kind index t) s =
    if d.hold = true ∨ max s.now t < d.since + domainBound d.kind then .next (s.at t)
    else .next (escalate ((s.at t).logReset 0x0908 d.kind d.index) d) := by
  have found : (s.at t).rst.domains.find? (fun d => decide (d.kind = kind.toNat) && decide (d.index = index.toNat)) = some d := hd
  change execRestartTimeout kind index t s = _
  simp only [execRestartTimeout, found, at_now]
  rfl

/-- A domain that no thermal hold keeps escalates once it has passed its bound. -/
theorem exec_restartTimeout_past (free : d.hold = false) (past : d.since + domainBound d.kind ≤ max s.now t) :
    exec (.restartTimeout kind index t) s = .next (escalate ((s.at t).logReset 0x0908 d.kind d.index) d) := by
  rw [exec_restartTimeout t hd, free, if_neg (by simp only [Bool.false_eq_true, false_or, not_lt, past])]

end

theorem exec_resetEvlogRead (s : State) :
    exec .resetEvlogRead s = .next { s with readData := s.rst.log.head, rst := { s.rst with log := s.rst.log.pop } } := rfl

end

/-- Settles O25: each command by the lemma of its row. -/
theorem resetCommands : Obligations.ResetCommands := by
  refine ⟨?request, ?idle, fun s b t => ⟨exec_orphanDrainDone_fenced t, exec_orphanDrainDone_reset t⟩, ?line,
    fun s b t h => ⟨exec_blockRestartDone t true h, exec_blockRestartDone t false h⟩, ?bound, exec_resetEvlogRead⟩
  case request =>
    intro s who kind index t
    refine ⟨exec_resetReq_stranger t, fun hw bad => ?_, fun hw ok h8 => ?_, exec_resetReq_begins t⟩
    · rw [exec_resetReq t hw, resetRequest_refused bad]
    · subst h8
      rw [exec_resetReq t hw]
      exact congrArg _ (resetRequest_cold ok)
  case idle =>
    intro s b t h
    refine ⟨exec_idleAck t h, fun waited => ?_, fun waiting => ?_⟩
    · rw [exec_idleTimeout t h, if_pos waited]
    · rw [exec_idleTimeout t h, if_neg (ne_true_of_eq_false waiting)]
  case line =>
    intro s b t x hx
    refine ⟨fun hr drained free => ?_, fun hr kept => ?_⟩
    · rw [exec_resetLineEnd t hx hr, if_pos ⟨drained, free⟩]
    · rw [exec_resetLineEnd t hx hr, if_neg (by rintro ⟨drained, free⟩; simp [drained, free] at kept)]
  case bound =>
    intro s kind index t d hd
    exact ⟨exec_restartTimeout_past t hd, fun kept => (exec_restartTimeout t hd).trans (if_pos kept)⟩

/-- Settles O53: each command by the lemma of its row. -/
theorem blockResetsComplete : Obligations.BlockResetsComplete := by
  refine ⟨fun s who kind index t => exec_resetReq_begins t, fun s b t => exec_idleAck t, ?idle, fun s b t => exec_orphanDrainDone_fenced t,
    fun s b t => exec_blockRestartDone t true, ?line,
    fun s kind index t d => exec_restartTimeout_past t, fun s => ⟨_, exec_resetEvlogRead s, rfl, rfl⟩⟩
  case idle =>
    intro s b t h waited
    rw [exec_idleTimeout t h, if_pos waited]
  case line =>
    intro s b t x hx hr drained free
    rw [exec_resetLineEnd t hx hr, if_pos ⟨drained, free⟩]

/-! ### Device resets (R562-R564, R571) -/

section
variable {s : State} {t : Nat}

theorem exec_deviceWarmReset {d : DomainReset} (hd : warmDomain s = some d) (hm : s.pins.mainRails = true) (free : d.hold = false)
    (ready : warmReady s d (resetStep s) = true) : exec (.deviceWarmReset t) s =
      if 10 ≤ resetStep s then .next (finishWarm (warmWork (s.at t) d (resetStep s) t) d)
      else .next ((warmWork (s.at t) d (resetStep s) t).setRegFld Reg.resetStat 3 4 (resetStep s + 1)) := by
  change execDeviceWarmReset t s = _
  simp only [execDeviceWarmReset, warmDomain_at, hd, State.at_pins, hm, free, resetStep_at, warmReady_at, ready]
  exact if_neg (by simp)

theorem exec_deviceColdReset (hm : s.pins.mainRails = true) (cold : s.regBit Reg.resetStat 2 = true) (ready : coldReady s (resetStep s) = true) :
    exec (.deviceColdReset t) s =
      if 6 ≤ resetStep s then .next (finishCold (coldWork (s.at t) (resetStep s)))
      else .next ((coldWork (s.at t) (resetStep s)).setRegFld Reg.resetStat 3 4 (resetStep s + 1)) :=
  (if_neg (by simp [hm])).trans ((if_pos cold).trans (if_neg (by simp [ready])))

theorem exec_deviceColdReset_begins (hm : s.pins.mainRails = true) (cold : s.regBit Reg.resetStat 2 = false) (ready : s.regBit Reg.resetStat 0 = false)
    (hd : s.rst.domains = []) : exec (.deviceColdReset t) s = .next (startCold 1 false false (s.at t)) :=
  (if_neg (by simp [hm])).trans ((if_neg (by simp [cold])).trans (if_neg (by simp [ready, hd])))

end

/-! ### Reset balls and the host link (R552, R562, R657) -/

theorem pulseActs_iff (us : Nat) (acted : Bool) : pulseActs us acted = true ↔ 10 ≤ us ∨ us ≠ 0 ∧ acted = true := by
  simp only [pulseActs, Bool.or_eq_true, Bool.and_eq_true, decide_eq_true_eq, Nat.one_le_iff_ne_zero]

theorem pulseActs_of_long {us : Nat} (acted : Bool) (h : 10 ≤ us) : pulseActs us acted = true := (pulseActs_iff us acted).mpr (.inl h)

section
variable (s : State) (us : Nat) (acted : Bool) (t : Nat)

/-- PERST# low. -/
def perstLow (s : State) : State := { s with rst := { s.rst with perstn := false } }

/-- A pulse that acts on a ball. -/
theorem exec_pulse (h : pulseActs us acted = true) : exec (.lehraRstn us acted t) s = .next (ballA (s.at t)) ∧
    exec (.lehrbRstn us acted t) s = .next (ballB (s.at t)) ∧
    exec (.pciePerstn us acted t) s = .next (resetLink (perstLow (s.at t)) 5) :=
  ⟨if_pos h, if_pos h, if_pos h⟩

theorem exec_pulse_ignored (h : ¬ pulseActs us acted = true) : exec (.lehraRstn us acted t) s = .next (s.at t) ∧
    exec (.lehrbRstn us acted t) s = .next (s.at t) ∧ exec (.pciePerstn us acted t) s = .next (s.at t) :=
  ⟨if_neg h, if_neg h, if_neg h⟩

theorem exec_sysRstn_falls :
    exec (.sysRstn false us acted t) s = .next { (s.at t) with pins := { (s.at t).pins with sysRstn := false } } := rfl

variable {s us} in
theorem exec_sysRstn_rises (low : s.pins.sysRstn = false) (h : 10 ≤ us) : exec (.sysRstn true us acted t) s =
    .next (startCold 2 false false { (s.at t) with pins := { (s.at t).pins with sysRstn := true } }) :=
  if_pos (by simp [low, pulseActs_of_long acted h])

theorem exec_pcieHotReset : exec (.pcieHotReset t) s =
    .next (if inReset s (7, 0) then (s.at t).logReset 0x0909 7 0 else startReset 7 0 6 false (dropLink (s.at t))) := rfl

/-- PERST# high, with what the link may train to. -/
def perstRisen (s : State) (rate : BitVec 3) (width : BitVec 5) (flit : Bool) : State :=
  { s with rst := { s.rst with perstn := true, linkCap := rate.toNat + width.toNat * 8 + (if flit then 256 else 0) } }

variable {s t} {rate : BitVec 3} {width : BitVec 5} {flit : Bool}

theorem exec_pciePerstnRise_cold (cold : s.regBit Reg.resetStat 2 = true) (last : resetStep s = 6) :
    exec (.pciePerstnRise rate width flit t) s = .next (finishCold (raiseLink (perstRisen (s.at t) rate width flit))) :=
  if_pos ⟨cold, last⟩

theorem exec_pciePerstnRise_ready (cold : s.regBit Reg.resetStat 2 = false) (warm : warmDomain s = none) (ready : s.regBit Reg.resetStat 0 = true) :
    exec (.pciePerstnRise rate width flit t) s = .next (raiseLink (perstRisen (s.at t) rate width flit)) := by
  have noWarm : warmDomain (perstRisen (s.at t) rate width flit) = .none := warm
  refine (if_neg (fun h => absurd h.1 (ne_true_of_eq_false cold))).trans ?_
  rw [← perstRisen, noWarm]
  exact if_pos ready

end

/-! ### Rails (R651-R653) -/

section
variable (s : State) (t : Nat)

theorem exec_mainRailFail : exec (.mainRailFail t) s = if s.pins.mainRails then .next (mainDown (s.at t)) else .next (s.at t) := rfl

theorem exec_lehrRailFail (isB : Bool) : exec (.lehrRailFail isB t) s = .next (if isB then ballB (s.at t) else ballA (s.at t)) := rfl

theorem exec_railFall_lehrA : exec (.railFall true false false t) s = .next (railsOffA (s.at t)) := rfl

theorem exec_railFall_lehrB : exec (.railFall false true false t) s = .next (railsOffB (s.at t)) := rfl

theorem exec_railFall_main :
    exec (.railFall false false true t) s = .next (loseDram (if s.pins.mainRails then mainDown (s.at t) else s.at t)) := rfl

/-- Every rail in range again. -/
def railsGood (s : State) : State :=
  { s with pins := { s.pins with mainRails := true, lehrARails := true, lehrBRails := true, powerGood := true } }

variable {s}

theorem exec_powerGood (down : s.pins.powerGood = false) : exec (.powerGood t) s =
    if (s.pins.lehrARails && s.pins.lehrBRails) = true then
      .next ((startReader (startCold 1 false true (railsGood (s.at t)))).setRegFld Reg.resetStat 3 4 2)
    else .next (startCold 1 false false (railsGood (s.at t))) :=
  if_neg (by simp [down])

theorem exec_powerGood_restarts (down : s.pins.powerGood = false) (lehr : s.pins.lehrARails = false ∨ s.pins.lehrBRails = false) :
    exec (.powerGood t) s = .next (startCold 1 false false (railsGood (s.at t))) :=
  (exec_powerGood t down).trans (if_neg (by obtain h | h := lehr <;> simp [h]))

end

/-! ### The option reader and the repair log (R567-R570) -/

section
variable {s : State}

theorem exec_optionReadStep_readA (h : s.rst.reader = .readA) : exec .optionReadStep s = .next (takeA s (readOption s 0)) := by
  change execOptionReadStep s = _
  rw [execOptionReadStep, h]

theorem exec_optionReadStep_readB (h : s.rst.reader = .readB) : exec .optionReadStep s = .next (takeB s (readOption s 0x1000)) := by
  change execOptionReadStep s = _
  rw [execOptionReadStep, h]

theorem exec_optionReadStep_select (h : s.rst.reader = .select) (hp : s.rst.retryPause = false) :
    exec .optionReadStep s = .next (selectBlock s) := by
  change execOptionReadStep s = _
  simp only [execOptionReadStep, h, hp, Bool.false_eq_true, if_false]

theorem exec_optionReadStep_readLog (h : s.rst.reader = .readLog) : exec .optionReadStep s = .next (readRepairLog s 4096) := by
  change execOptionReadStep s = _
  rw [execOptionReadStep, h]

theorem exec_optionReadStep_apply (h : s.rst.reader = .apply) : exec .optionReadStep s = .next (applyOptions s) := by
  change execOptionReadStep s = _
  rw [execOptionReadStep, h]

theorem exec_flashCmdTimeout_readA (n : BitVec 13) (h : s.rst.reader = .readA) :
    exec (.flashCmdTimeout n) s = .next (takeA (s.setRegBit Reg.resetOptstat 7 true) none) := by
  change execFlashCmdTimeout n s = _
  simp only [execFlashCmdTimeout, h]

theorem exec_flashCmdTimeout_readB (n : BitVec 13) (h : s.rst.reader = .readB) :
    exec (.flashCmdTimeout n) s = .next (takeB (s.setRegBit Reg.resetOptstat 7 true) none) := by
  change execFlashCmdTimeout n s = _
  simp only [execFlashCmdTimeout, h]

/-- The reader at block A once more, after its pause. -/
def readerRetries (s : State) : State :=
  (setReader { s with rst := { s.rst with retryPause := false } } .readA).setRegFld Reg.resetOptstat 8 2 (s.regFld Reg.resetOptstat 8 2 + 1)

theorem exec_optionRetryPause (h : s.rst.reader = .select) (hp : s.rst.retryPause = true) : exec .optionRetryPause s = .next (readerRetries s) :=
  if_pos ⟨h, hp⟩

theorem reader_readerRetries (s : State) : (readerRetries s).rst.reader = .readA ∧ (readerRetries s).rst.retryPause = false ∧
    (readerRetries s).regFld Reg.resetOptstat 8 2 = (s.regFld Reg.resetOptstat 8 2 + 1) % 4 := by
  have rst : (readerRetries s).rst = { s.rst with retryPause := false, reader := .readA } := rfl
  rw [rst]
  exact ⟨rfl, rfl, regFld_setRegFld_same _ _ _ (by decide)⟩

/-- A log entry programmed into the flash after the last one. -/
def entryAppended (s : State) (b : List Byte) (core : Fin 96) (column : Fin 132) (residue : Bool) : State :=
  let written := programFlash s (leAt b 20 4 + 16 * s.rst.logNext) (logEntry core.val column.val (if residue then 2 else 1) s.frmcnt)
  { written with rst := { written.rst with logNext := s.rst.logNext + 1 } }

theorem entryAppended_facts (s : State) (b : List Byte) (core : Fin 96) (column : Fin 132) (residue : Bool) :
    (entryAppended s b core column residue).rst.logNext = s.rst.logNext + 1 ∧
    (entryAppended s b core column residue).rst.flash = (programFlash s (leAt b 20 4 + 16 * s.rst.logNext)
      (logEntry core.val column.val (if residue then 2 else 1) s.frmcnt)).rst.flash ∧
    (entryAppended s b core column residue).regs = s.regs ∧ (entryAppended s b core column residue).mem = s.mem := by
  simp only [entryAppended, programFlash, and_self]

/-- A block with a log takes an entry while it has room. -/
theorem exec_repairLogAppend {s1 : State} {core : Fin 96} {column : Fin 132} {residue : Bool} {b : List Byte}
    (h1 : s1 = if residue then columnFound s core.val column.val else s) (hb : usedBlock s1 = some b) (log : leAt b 16 1 % 2 = 1)
    (hr : s1.rst.reader = .done) : exec (.repairLogAppend core column residue) s =
      if leAt b 24 4 / 16 ≤ s1.rst.logNext then .next (logFull s1 core.val column.val)
      else .next (entryAppended s1 b core column residue) := by
  subst h1
  change execRepairLogAppend core column residue s = _
  simp only [execRepairLogAppend, hb, hr, log]
  exact if_neg (by simp)

end

/-! ### JTAG (R659) -/

/-- The state with a JTAG instruction in effect. -/
def jtagSet (s : State) (ir : JtagIr) : State := { s with pins := { s.pins with jtag := ir } }

theorem exec_jtagInstruction (s : State) (ir : JtagIr) : exec (.jtagInstruction ir) s =
    .next (if jtagTakes s ir = .idcode then { jtagSet s (jtagTakes s ir) with readData := 0x0A960969#64 } else jtagSet s (jtagTakes s ir)) := rfl

/-! ### The statements -/

/-- Settles O26: each command by the lemma of its row. -/
theorem deviceResetCommands : Obligations.DeviceResetCommands := by
  refine ⟨?warm, ?cold, ?balls, fun s us acted t => ⟨exec_sysRstn_falls s us acted t, exec_sysRstn_rises acted t⟩,
    exec_pcieHotReset,
    ?perst, ?rails, ?fall, ?good, ?reader, ?retry, ?repair, ?jtag⟩
  case warm =>
    intro s t d hd hm free ready
    have answer := exec_deviceWarmReset (t := t) hd hm free ready
    exact ⟨fun within => answer.trans (if_neg (by omega)), fun last => answer.trans (if_pos last)⟩
  case cold =>
    intro s t hm
    exact ⟨fun cold ready within => (exec_deviceColdReset hm cold ready).trans (if_neg (by omega)),
      fun cold ready last => (exec_deviceColdReset hm cold ready).trans (if_pos last), exec_deviceColdReset_begins hm⟩
  case balls =>
    intro s us acted t
    refine ⟨fun acts => exec_pulse s us acted t ((pulseActs_iff us acted).mpr acts), fun ignored => exec_pulse_ignored s us acted t ?_⟩
    rw [pulseActs_iff]
    rintro (long | ⟨low, seen⟩)
    · omega
    · obtain none | ⟨_, unseen⟩ := ignored
      · exact low none
      · exact absurd seen (ne_true_of_eq_false unseen)
  case perst =>
    rintro s s1 rate width flit t cap rfl rfl
    exact ⟨exec_pciePerstnRise_cold, exec_pciePerstnRise_ready⟩
  case rails =>
    intro s t
    exact ⟨fun up => (exec_mainRailFail s t).trans (if_pos up), fun down => (exec_mainRailFail s t).trans (if_neg (by simp [down])),
      exec_lehrRailFail s t⟩
  case fall =>
    intro s t
    exact ⟨⟨_, exec_railFall_lehrA s t, rfl, rfl, rfl, rfl, rfl⟩, ⟨_, exec_railFall_lehrB s t, rfl, rfl, rfl, rfl, rfl⟩,
      exec_railFall_main s t⟩
  case good =>
    rintro s s1 t down rfl
    exact ⟨fun a b => (exec_powerGood t down).trans (if_pos (by simp [a, b])), exec_powerGood_restarts t down⟩
  case reader =>
    intro s
    exact ⟨fun h => ⟨exec_optionReadStep_readA h, fun n => exec_flashCmdTimeout_readA n h⟩,
      fun h => ⟨exec_optionReadStep_readB h, fun n => exec_flashCmdTimeout_readB n h⟩, exec_optionReadStep_select, exec_optionReadStep_readLog,
      exec_optionReadStep_apply⟩
  case retry =>
    intro s h hp
    exact ⟨_, exec_optionRetryPause h hp, reader_readerRetries s⟩
  case repair =>
    intro s s1 core column residue b h1 hb log hr
    have answer := exec_repairLogAppend h1 hb log hr
    exact ⟨fun room => ⟨_, answer.trans (if_neg (by omega)), entryAppended_facts s1 b core column residue⟩,
      fun full => answer.trans (if_pos full)⟩
  case jtag =>
    intro s
    refine ⟨⟨_, exec_jtagInstruction s .idcode, rfl, rfl, rfl⟩, fun ir => ⟨_, exec_jtagInstruction s ir, ?_⟩⟩
    split <;> exact ⟨rfl, rfl, rfl⟩

/-- Settles O54: each command by the lemma of its row. -/
theorem deviceResetsComplete : Obligations.DeviceResetsComplete := by
  refine ⟨?warm, ?cold, fun s us acted t long => (exec_pulse s us acted t (pulseActs_of_long acted long)).1, ?ballB, ?perstLow,
    fun s us acted t long low => exec_sysRstn_rises acted t low long, ?hot, ?perst, fun s t up => (exec_mainRailFail s t).trans (if_pos up),
    exec_lehrRailFail, fun s t => ⟨_, exec_railFall_lehrA s t, rfl, rfl⟩, fun s t => ⟨_, exec_railFall_lehrB s t, rfl, rfl⟩, ?good⟩
  case warm =>
    intro s t d hm hd free ready within
    exact (exec_deviceWarmReset hd hm free ready).trans (if_neg (by omega))
  case cold =>
    intro s t hm cold ready within
    exact (exec_deviceColdReset hm cold ready).trans (if_neg (by omega))
  case ballB =>
    intro s us acted t long
    obtain ⟨_, ballB, _⟩ := exec_pulse s us acted t (pulseActs_of_long acted long)
    exact ballB
  case perstLow =>
    intro s us acted t long
    obtain ⟨_, _, perst⟩ := exec_pulse s us acted t (pulseActs_of_long acted long)
    exact perst
  case hot =>
    intro s t hr
    rw [exec_pcieHotReset, if_neg (by simp [hr])]
  case perst =>
    rintro s s1 rate width flit t cap rfl rfl
    exact exec_pciePerstnRise_ready
  case good =>
    rintro s s1 t down rfl
    exact exec_powerGood_restarts t down

end Sys2Proof.Machine
end

section
/-! SUPPORT. Partitions, protection and frits (16_partitions_protection_and_frits.md): lists loaded, the frit switch, the debug unlock. -/

namespace Sys2Proof.Machine

/-! ### Lists (R587, R588) -/

section
variable {s s1 : State} {who : Ident} {ecc : MemEcc} {l : List CfgEntry} {code : Nat}

theorem exec_loadBatch (hw : mgmt who = true) : exec (.loadBatch who ecc) s =
    match readList s ecc (s.regFld Reg.devBatchaddr 6 42 * 64) 0x4254394A 8192 with
    | (s1, .error c) => .next (badLoad s1 c)
    | (s1, .ok l) => .next ({ s1 with cfg := { s1.cfg with batch := some l } }.setRegBit Reg.devFritstat 9 true) := by
  refine (if_neg (by simp [hw])).trans ?_
  obtain ⟨s1, c | l⟩ := readList s ecc (s.regFld Reg.devBatchaddr 6 42 * 64) 0x4254394A 8192 <;> rfl

theorem exec_loadBatch_ok (hw : mgmt who = true) (h : readList s ecc (s.regFld Reg.devBatchaddr 6 42 * 64) 0x4254394A 8192 = (s1, .ok l)) :
    exec (.loadBatch who ecc) s = .next ({ s1 with cfg := { s1.cfg with batch := some l } }.setRegBit Reg.devFritstat 9 true) := by
  rw [exec_loadBatch hw, h]

theorem exec_loadBatch_bad (hw : mgmt who = true) (h : readList s ecc (s.regFld Reg.devBatchaddr 6 42 * 64) 0x4254394A 8192 = (s1, .error code)) :
    exec (.loadBatch who ecc) s = .next ((s1.setRegBit Reg.devFritstat 6 true).logCfg code) := by
  rw [exec_loadBatch hw, h]
  rfl

variable {frit : Fin 16}

theorem exec_loadFrit (hw : mgmt who = true) (idle : s.cfg.switching = none) :
    exec (.loadFrit who frit ecc) s = .next (loadFrit s ⟨frit.val, s.regFld Reg.devFritaddr 6 42 * 64, ecc⟩) :=
  (if_neg (by simp [hw])).trans (if_neg (by simp [idle]))

theorem loadFrit_ok {w : FritLoad} (h : readList s w.ecc w.addr 0x5446394A 254 = (s1, .ok l)) :
    loadFrit s w = { s1 with cfg := { s1.cfg with frits := sput [] s1.cfg.frits w.frit l } }.setRegBit Reg.devFritstat (16 + w.frit) true := by
  simp only [loadFrit, h]

theorem loadFrit_bad {w : FritLoad} (h : readList s w.ecc w.addr 0x5446394A 254 = (s1, .error code)) :
    loadFrit s w = (s1.setRegBit Reg.devFritstat 6 true).logCfg code := by
  simp only [loadFrit, h, badLoad]

theorem exec_loadFrit_ok (hw : mgmt who = true) (idle : s.cfg.switching = none)
    (h : readList s ecc (s.regFld Reg.devFritaddr 6 42 * 64) 0x5446394A 254 = (s1, .ok l)) : exec (.loadFrit who frit ecc) s =
      .next ({ s1 with cfg := { s1.cfg with frits := sput [] s1.cfg.frits frit.val l } }.setRegBit Reg.devFritstat (16 + frit.val) true) :=
  (exec_loadFrit hw idle).trans (congrArg Host.Outcome.next (loadFrit_ok (w := ⟨_, _, _⟩) h))

theorem exec_loadFrit_bad (hw : mgmt who = true) (idle : s.cfg.switching = none)
    (h : readList s ecc (s.regFld Reg.devFritaddr 6 42 * 64) 0x5446394A 254 = (s1, .error code)) :
    exec (.loadFrit who frit ecc) s = .next ((s1.setRegBit Reg.devFritstat 6 true).logCfg code) :=
  (exec_loadFrit hw idle).trans (congrArg Host.Outcome.next (loadFrit_bad (w := ⟨_, _, _⟩) h))

/-- While a switch is in progress the list waits for its end. -/
theorem exec_loadFrit_waits (hw : mgmt who = true) (busy : s.cfg.switching.isSome = true) : exec (.loadFrit who frit ecc) s =
    .next { s with cfg := { s.cfg with waitingLoads := s.cfg.waitingLoads ++ [⟨frit.val, s.regFld Reg.devFritaddr 6 42 * 64, ecc⟩] } } :=
  (if_neg (by simp [hw])).trans (if_pos busy)

end

/-! ### The frit switch (R588) -/

section
variable {s : State} {who : Ident} {v : BitVec 32}

/-- DEV_FRITCTL for a word written: NEXT and NONE. -/
def fritctlWord (v : BitVec 32) : Word := setBit (setFld 0#64 0 4 (bitsOf v.toNat 0 4)) 4 (decide (bitsOf v.toNat 4 1 = 1))

theorem fields_fritctlWord (v : BitVec 32) :
    fld (fritctlWord v) 0 4 = bitsOf v.toNat 0 4 ∧ bitAt (fritctlWord v) 4 = decide (bitsOf v.toNat 4 1 = 1) := by
  refine ⟨?_, bitAt_setBit_same _ 4 _ (by decide)⟩
  rw [fritctlWord, fld_setBit_other _ _ _ _ _ (by decide) (by decide), fld_setFld_same _ _ _ _ (by decide), bitsOf_mod]

/-- The state with a frit requested: DEV_FRITCTL shows it, and it is pending. -/
def fritRequested (s : State) (v : BitVec 32) : State := (s.setReg Reg.devFritctl (fritctlWord v)).setRegBit Reg.devFritstat 5 true

theorem fields_fritRequested (s : State) (v : BitVec 32) : (fritRequested s v).regFld Reg.devFritctl 0 4 = bitsOf v.toNat 0 4 ∧
    (fritRequested s v).regBit Reg.devFritctl 4 = decide (bitsOf v.toNat 4 1 = 1) ∧ (fritRequested s v).regBit Reg.devFritstat 5 = true := by
  obtain ⟨next, absent⟩ := fields_fritctlWord v
  refine ⟨?_, ?_, regBit_setRegBit_same _ _ _ (by decide)⟩
  · rw [fritRequested, regFld_setRegBit_off _ _ _ _ _ (by decide), regFld_setReg_same, next]
  · rw [fritRequested, regBit_setRegBit_off _ _ _ _ (by decide), regBit_setReg_same, absent]

theorem onlyRegs_fritRequested (s : State) (v : BitVec 32) : OnlyRegs s (fritRequested s v) [Reg.devFritctl, Reg.devFritstat] :=
  onlyRegs_setRegBit (onlyRegs_setReg (onlyRegs_refl s _) _ (by decide)) _ _ (by decide)

/-- A loaded frit, or none, is requested. -/
theorem exec_fritSwitchRequest (hw : mgmt who = true)
    (loaded : bitsOf v.toNat 4 1 = 1 ∨ s.regBit Reg.devFritstat (16 + bitsOf v.toNat 0 4) = true) :
    exec (.fritSwitchRequest who v) s = .next (fritRequested s v) := by
  refine (if_neg (by simp [hw])).trans (if_neg ?_)
  obtain absent | loaded := loaded
  · simp [absent]
  · simp [loaded]

theorem exec_fritSwitchRequest_refused (hw : mgmt who = true) (present : bitsOf v.toNat 4 1 = 0)
    (missing : s.regBit Reg.devFritstat (16 + bitsOf v.toNat 0 4) = false) :
    exec (.fritSwitchRequest who v) s = .next (s.setRegBit Reg.devFritstat 8 true) :=
  (if_neg (by simp [hw])).trans (if_pos (by simp [present, missing]))

theorem exec_fritSwitch_idle {t : Nat} (h : s.cfg.switching = none) : exec (.fritSwitch t) s = .next (s.at t) := by
  change Host.Outcome.next (endSwitch (s.at t) t) = _
  rw [endSwitch, State.at_cfg, h]

theorem exec_fritSwitch {t : Nat} {target : Option Nat} (h : s.cfg.switching = some target) :
    exec (.fritSwitch t) s = .next (finishSwitch (s.at t) target t) := by
  change Host.Outcome.next (endSwitch (s.at t) t) = _
  rw [endSwitch, State.at_cfg, h]

end

/-! ### The debug unlock (R595) -/

section
variable {s : State} {who : Ident} {scope : BitVec 4} {t : Nat}

theorem now_showChallenge (s : State) (bs : List Byte) : (showChallenge s bs).now = s.now :=
  foldl_keeps s (g := State.now) (fun u i => State.setReg_now u _ _) _

/-- The state that shows a challenge and keeps it with the time it was issued. -/
def challengeIssued (s : State) (scope : Nat) : State :=
  let bs := challengeBytes s scope
  let s1 := (showChallenge s bs).setRegBit Reg.devDbgstat 4 true
  { s1 with cfg := { s1.cfg with challenge := some ⟨bs, scope, s1.now⟩ } }.nextFresh

theorem challenge_challengeIssued (s : State) (scope : Nat) :
    (challengeIssued s scope).cfg.challenge = some ⟨challengeBytes s scope, scope, s.now⟩ := by
  simp only [challengeIssued, State.nextFresh_cfg, State.setRegBit_now, now_showChallenge]

theorem shown_challengeIssued (s : State) (scope : Nat) : (challengeIssued s scope).regBit Reg.devDbgstat 4 = true := by
  rw [State.regBit, challengeIssued, reg_nextFresh, reg_mk]
  exact regBit_setRegBit_same _ _ _ (by decide)

theorem exec_debugRequest (hw : mgmt who = true) (fuse : s.cfg.dbgDisFuse = false) (denied : s.regFld Reg.devDbgstat 8 2 ≠ 3) :
    exec (.debugRequest who scope t) s = .next (challengeIssued (s.at t) scope.toNat) :=
  if_neg (by simp [hw, fuse, denied])

theorem exec_debugRequest_void (h : s.cfg.dbgDisFuse = true ∨ s.regFld Reg.devDbgstat 8 2 = 3 ∨ mgmt who = false) :
    exec (.debugRequest who scope t) s = .next (s.at t) :=
  if_pos (by obtain h | h | h := h <;> simp [h])

theorem exec_debugLock (hw : mgmt who = true) : exec (.debugLock who) s = .next (s.setRegFld Reg.devDbgstat 0 4 0) :=
  congrArg Host.Outcome.next (if_pos hw)

theorem exec_debugLock_stranger (hw : mgmt who = false) : exec (.debugLock who) s = .next s := congrArg Host.Outcome.next (if_neg (by simp [hw]))

section
variable {s1 s2 : State} {addr : BitVec 64} {ecc : MemEcc} {c : Challenge} {bs : List Byte}

theorem exec_debugResponse_none (h : s.cfg.challenge = none) : exec (.debugResponse who addr ecc t) s = .next (s.at t) := by
  change execDebugResponse who addr ecc t s = _
  simp only [execDebugResponse, State.at_cfg, h]

/-- A response that can be read uses the challenge up, and is judged. -/
theorem exec_debugResponse (hw : mgmt who = true) (hc : s.cfg.challenge = some c)
    (hr : devRead (s.at t) lehrAReq ecc (bitsOf addr.toNat 6 42 * 64) 192 = (s1, .ok bs))
    (h2 : s2 = ({ s1 with cfg := { s1.cfg with challenge := none } }).setRegBit Reg.devDbgstat 4 false) :
    exec (.debugResponse who addr ecc t) s = .next (if responseOk (s.at t) c bs then (((s2.setRegFld Reg.devDbgstat 0 4 c.scope).setRegBit
      Reg.devDbgstat 5 false).logCfg 0x0955).raise 0x0955 0xFF else (((s2.setRegBit Reg.devDbgstat 5 true).bumpSat Reg.devDbgstat 8 2).logCfg
      0x0956).raise 0x0956 0xFF) := by
  subst h2
  change execDebugResponse who addr ecc t s = _
  simp only [execDebugResponse, State.at_cfg, hc, hw, hr, Bool.not_true, Bool.false_eq_true, if_false]
  split <;> rfl

end

end

theorem exec_cfgEvlogRead (s : State) :
    exec .cfgEvlogRead s = .next { s with readData := s.cfg.log.head, cfg := { s.cfg with log := s.cfg.log.pop } } := rfl

/-! ### The statements -/

/-- Settles O24: each command by the lemma of its row. -/
theorem configurationCommands : Obligations.ConfigurationCommands := by
  refine ⟨fun s s1 who ecc l => exec_loadBatch_ok, fun s s1 who ecc code => exec_loadBatch_bad, fun s s1 who frit ecc l => exec_loadFrit_ok,
    fun s s1 who frit ecc code => exec_loadFrit_bad, ?request, fun s t => ⟨exec_fritSwitch_idle, fun target => exec_fritSwitch⟩, ?challenge,
    fun s who scope t => exec_debugRequest_void, ?lock, ?response, fun s who addr ecc t => exec_debugResponse_none, exec_cfgEvlogRead,
    fun s who frit ecc => exec_loadFrit_waits⟩
  case request =>
    intro s who v hw
    obtain ⟨next, absent, pending⟩ := fields_fritRequested s v
    exact ⟨fun loaded => ⟨_, exec_fritSwitchRequest hw loaded, next, absent, pending, onlyRegs_fritRequested s v⟩,
      fun present missing => ⟨_, exec_fritSwitchRequest_refused hw present missing, regBit_setRegBit_same _ _ _ (by decide),
        onlyRegs_setRegBit (onlyRegs_refl s _) _ _ (by decide)⟩⟩
  case challenge =>
    rintro s s1 who scope t bs hw fuse denied rfl rfl
    exact exec_debugRequest hw fuse denied
  case lock =>
    intro s who
    exact ⟨fun hw => ⟨_, exec_debugLock hw, regFld_setRegFld_same _ _ _ (by decide), onlyRegs_setRegFld (onlyRegs_refl s _) _ _ _ (by decide)⟩,
      exec_debugLock_stranger⟩
  case response =>
    intro s s1 s2 who addr ecc t c bs hw hc hr h2
    have answer := exec_debugResponse hw hc hr h2
    exact ⟨fun ok => answer.trans (congrArg Host.Outcome.next (if_pos ok)),
      fun bad => answer.trans (congrArg Host.Outcome.next (if_neg (ne_true_of_eq_false bad)))⟩

/-- Settles O52: each command by the lemma of its row. -/
theorem configurationCompletes : Obligations.ConfigurationCompletes := by
  refine ⟨fun s s1 who ecc l => exec_loadBatch_ok, fun s s1 who frit ecc l => exec_loadFrit_ok, ?request,
    fun s who t target _ => exec_fritSwitch, fun s who hw => ⟨_, exec_debugLock hw, regFld_setRegFld_same _ _ _ (by decide)⟩,
    fun s who _ => ⟨_, exec_cfgEvlogRead s, rfl, rfl⟩, ?challenge, fun s s1 s2 who addr ecc t c bs => exec_debugResponse⟩
  case request =>
    intro s who v hw loaded
    obtain ⟨next, _, pending⟩ := fields_fritRequested s v
    exact ⟨_, exec_fritSwitchRequest hw (.inr loaded), next, pending⟩
  case challenge =>
    intro s who scope t hw fuse denied
    exact ⟨_, exec_debugRequest hw fuse denied, challenge_challengeIssued (s.at t) scope.toNat, shown_challengeIssued (s.at t) scope.toNat⟩

end Sys2Proof.Machine
end

section
/-! SUPPORT. Blowpipe (17_blowpipe_and_multi_device.md): ports, flits and the channels' enables. -/

namespace Sys2Proof.Machine

/-! ### Topology and training (R602, R603) -/

section
variable (s : State) (b : Nat)

theorem reg_syncRoutes_other {o : Nat} (ho : o ≠ Reg.blowpipeStat) : (syncRoutes s).reg o = s.reg o := reg_setRegFld_other s _ _ _ ho

theorem pstat_ne_stat : Reg.blowpipePstat b ≠ Reg.blowpipeStat := by
  unfold Reg.blowpipePstat Reg.blowpipeStat
  omega

theorem portSt_setPort {st : Nat} (h : st < 4) : portSt (setPort s b st) b = st := by
  rw [portSt, setPort, regFld_of_reg (reg_syncRoutes_other _ (pstat_ne_stat b)), regFld_setReg_same, fld_setFld_same _ _ _ _ (by decide)]
  exact Nat.mod_eq_of_lt h

theorem portSt_trainPort : portSt (trainPort s b) b = 1 := by
  rw [portSt, trainPort, regFld_mk]
  exact portSt_setPort s b (by decide)

theorem blow_trainPort : (trainPort s b).blow = s.blow := by
  simp only [trainPort, setPort, syncRoutes, State.setRegFld_blow, State.setReg_blow]

theorem mem_trainPort : (trainPort s b).mem = s.mem := by
  simp only [trainPort, setPort, syncRoutes, State.setRegFld_mem, State.setReg_mem]

/-- The time at which a port's training began. -/
theorem since_trainPort : sget 0 (trainPort s b).fab.since (200 + b) = s.now := sget_sput_same ..

/-- PSTAT of a port in service: its state, the half that works, and its neighbour. -/
def pstatWord (st : Nat) (half : Bool) (nbr : BitVec 6) : Word := setBit (setFld (setBit (setFld 0#64 0 2 st) 2 half) 4 6 nbr.toNat) 10 true

theorem fields_pstatWord {st : Nat} (half : Bool) (nbr : BitVec 6) (h : st < 4) : fld (pstatWord st half nbr) 0 2 = st ∧
    fld (pstatWord st half nbr) 4 6 = nbr.toNat ∧ bitAt (pstatWord st half nbr) 10 = true := by
  unfold pstatWord
  refine ⟨?_, ?_, bitAt_setBit_same _ _ _ (by decide)⟩
  · rw [fld_setBit_other _ _ _ _ _ (by decide) (by decide), fld_setFld_below _ _ _ _ _ _ (by decide) (by decide),
      fld_setBit_other _ _ _ _ _ (by decide) (by decide), fld_setFld_same _ _ _ _ (by decide)]
    exact Nat.mod_eq_of_lt h
  · rw [fld_setBit_other _ _ _ _ _ (by decide) (by decide), fld_setFld_same _ _ _ _ (by decide), Nat.mod_eq_of_lt nbr.isLt]

/-- A port in service, as its training left it. -/
def portTrained (st : Nat) (half : Bool) (nbr : BitVec 6) : State := syncRoutes (s.setReg (Reg.blowpipePstat b) (pstatWord st half nbr))

theorem reg_portTrained (st : Nat) (half : Bool) (nbr : BitVec 6) :
    (portTrained s b st half nbr).reg (Reg.blowpipePstat b) = pstatWord st half nbr := by
  rw [portTrained, reg_syncRoutes_other _ (pstat_ne_stat b), reg_setReg_same]

theorem fields_portTrained {st : Nat} (half : Bool) (nbr : BitVec 6) (h : st < 4) : portSt (portTrained s b st half nbr) b = st ∧
    (portTrained s b st half nbr).regFld (Reg.blowpipePstat b) 4 6 = nbr.toNat ∧
    (portTrained s b st half nbr).regBit (Reg.blowpipePstat b) 10 = true := by
  have word := reg_portTrained s b st half nbr
  unfold portSt State.regFld State.regBit
  rw [word]
  exact fields_pstatWord half nbr h

theorem onlyRegs_portTrained (st : Nat) (half : Bool) (nbr : BitVec 6) :
    OnlyRegs s (portTrained s b st half nbr) [Reg.blowpipePstat b, Reg.blowpipeStat] :=
  onlyRegs_setRegFld (onlyRegs_setReg (onlyRegs_refl s _) _ (by simp)) _ _ _ (by simp)

end

section
variable {s : State} {who : Ident} {v : BitVec 32} {t : Nat} {port : Fin 6} {nbr : BitVec 6}

theorem exec_blowpipeTopoWrite (hw : mgmt who = true) : exec (.blowpipeTopoWrite who v t) s = .next (writeTopo (s.at t) v.toNat) := if_pos hw

theorem exec_blowpipeTopoWrite_stranger (hw : mgmt who = false) : exec (.blowpipeTopoWrite who v t) s = .next (s.at t) := if_neg (by simp [hw])

theorem writeTopo_keeps {v : Nat} (on : topoOn s = true) (en : v % 2 = 1) : writeTopo s v = s := by
  unfold writeTopo
  rw [if_pos on, if_pos (decide_eq_true en)]

theorem writeTopo_off {v : Nat} (off : topoOn s = false) (en : v % 2 = 0) :
    writeTopo s v = s.setReg Reg.blowpipeTopo (BitVec.ofNat 64 (v % 2 ^ 23)) := by
  unfold writeTopo
  rw [if_neg (ne_true_of_eq_false off)]
  exact if_neg (by simp [en])

theorem exec_bpPortTrainingDone (tr : portSt s port.val = 1) (ex : expected s port.val = some nbr.toNat) (lanes : BpLanes) :
    exec (.bpPortTrainingDone port lanes nbr) s =
      match lanes with
      | .all => .next (portTrained s port.val 2 false nbr)
      | .half h => .next ((portTrained s port.val 3 h nbr).logBp 0x0541) := by
  refine (if_neg (not_not_intro tr)).trans ((if_neg (not_not_intro ex)).trans ?_)
  cases lanes <;> rfl

/-- A port that finds another neighbour goes DOWN. -/
theorem exec_bpPortTrainingDone_stranger (tr : portSt s port.val = 1) (ex : expected s port.val ≠ some nbr.toNat) (lanes : BpLanes) :
    exec (.bpPortTrainingDone port lanes nbr) s = .next ((setPort s port.val 0).logBp 0x0542) :=
  (if_neg (not_not_intro tr)).trans (if_pos ex)

theorem exec_bpTrainingTimeout (tr : portSt s port.val = 1) (past : sget 0 s.fab.since (200 + port.val) + 100000000 ≤ max s.now t) :
    exec (.bpTrainingTimeout port t) s = .next ((setPort (s.at t) port.val 0).logBp 0x0540) := by
  have training : portSt (s.at t) port.val = 1 := tr
  refine if_neg ?_
  rw [training, State.at_fab, at_now]
  omega

end

/-! ### Replays and flits (R600-R602) -/

section
variable {s : State} {port : Fin 6} {t : Nat}

theorem exec_bpReplayLimit_lost (up : portWeight s port.val ≠ 0) : exec (.bpReplayLimit port true t) s = .next (retrainPort (s.at t) port.val) :=
  if_neg (not_or_intro up (fun h => absurd h.1 (by decide)))

theorem exec_bpReplayLimit_few (few : (recentReplays (s.at t) port.val).length < 16) :
    exec (.bpReplayLimit port false t) s = .next (s.at t) :=
  if_pos (.inr (by simp [few]))

/-- A port with every flit acknowledged trains anew with nothing to send again. -/
theorem retrainPort_idle {b : Nat} (idle : (s.bpPort b).unacked = []) : portSt (retrainPort s b) b = 1 ∧
    sget 0 (retrainPort s b).fab.since (200 + b) = s.now ∧ sget [] (retrainPort s b).blow.replays b = [] ∧
    (retrainPort s b).bpPort b = BpPort.zero ∧ (retrainPort s b).blow.log = s.blow.log ∧ (retrainPort s b).mem = s.mem := by
  unfold retrainPort
  rw [idle, List.foldl_nil, State.bpPort, blow_trainPort, mem_trainPort]
  refine ⟨portSt_trainPort _ _, since_trainPort _ _, ?_, ?_, rfl, rfl⟩
  · exact sget_sput_same [] _ b []
  · exact sget_sput_same BpPort.zero _ b BpPort.zero

/-- A port at a replay: counted, and its time kept. -/
def replayed (s : State) (b : Nat) : State :=
  let s1 := (s.setBpPort b { s.bpPort b with wait := s.now }).bump (Reg.blowpipePreplay b) 1
  { s1 with blow := { s1.blow with replays := sput [] s1.blow.replays b (recentReplays s1 b ++ [s1.now]) } }

theorem replayed_facts (s : State) (b : Nat) : (replayed s b).reg (Reg.blowpipePreplay b) = s.reg (Reg.blowpipePreplay b) + 1#64 ∧
    sget [] (replayed s b).blow.replays b = recentReplays s b ++ [s.now] ∧
    (replayed s b).bpPort b = { s.bpPort b with wait := s.now } ∧ (replayed s b).mem = s.mem := by
  refine ⟨?_, ?_, ?_, ?_⟩
  · rw [replayed, reg_mk, reg_bump_same, State.setBpPort, reg_mk]
  · simp only [replayed, State.bump, State.setBpPort, State.setReg_now, sget_sput_same, recentReplays, State.setReg_blow]
    rfl
  · simp only [replayed, State.bump, State.setBpPort, State.bpPort, sget_sput_same, State.setReg_blow]
  · simp only [replayed, State.bump, State.setBpPort, State.setReg_mem]

theorem exec_bpFlitReplayTimeout (up : portWeight s port.val ≠ 0) (waits : (s.bpPort port.val).unacked ≠ [])
    (past : (s.bpPort port.val).wait + 4000 ≤ max s.now t) : exec (.bpFlitReplayTimeout port t) s = .next (replayed (s.at t) port.val) := by
  have same : (s.at t).bpPort port.val = s.bpPort port.val := rfl
  refine if_neg ?_
  rw [same, at_now, List.isEmpty_iff]
  rintro (down | none | early)
  · exact up down
  · exact waits none
  · omega

theorem exec_bpFlitReplayTimeout_quiet (h : (s.bpPort port.val).unacked = [] ∨ max s.now t < (s.bpPort port.val).wait + 4000) :
    exec (.bpFlitReplayTimeout port t) s = .next (s.at t) :=
  if_pos (.inr (h.imp_left List.isEmpty_iff.mpr))

section
variable {fseq ackseq : BitVec 16} {cls : BitVec 2} {words : BitVec 14} {packets : List BpPacket}

theorem exec_bpFlit_badCrc (up : portWeight s port.val ≠ 0) :
    exec (.bpFlit port fseq ackseq cls words false packets t) s = .next ((s.at t).bump (Reg.blowpipePcrc port.val) 1) :=
  (if_neg up).trans (if_pos rfl)

theorem exec_bpFlit_unordered (up : portWeight s port.val ≠ 0) (h : fseq.toNat ≠ (s.bpPort port.val).expect) :
    exec (.bpFlit port fseq ackseq cls words true packets t) s = .next (s.at t) :=
  (if_neg up).trans ((if_neg (by decide)).trans (if_pos h))

/-- A good flit in order brings its acknowledgement, its credits and its packets. -/
theorem exec_bpFlit {x y : BpPort} (up : portWeight s port.val ≠ 0) (hx : x = s.bpPort port.val) (hy : y = ackFlits x ackseq.toNat (max s.now t))
    (h : fseq.toNat = x.expect) : exec (.bpFlit port fseq ackseq cls words true packets t) s = .next (packets.foldl bpTakePacket
      ((s.at t).setBpPort port.val { y with expect := (y.expect + 1) % 65536, freed := sput 0 y.freed cls.toNat words.toNat })) := by
  subst hx hy
  exact (if_neg up).trans ((if_neg (by decide)).trans (if_neg (not_not_intro h)))

end

end

/-! ### Channels enabled (R610, R615, R616) -/

section
variable (s : State) (n : Nat)

theorem reg_foldl_syncStage_high {o : Nat} (ho : Reg.devStageuse 4 ≤ o) (l : List Nat) (hl : ∀ k ∈ l, k < 4) :
    (l.foldl syncStage s).reg o = s.reg o := by
  induction l generalizing s with
  | nil => rfl
  | cons k l ih =>
    have low : k < 4 := hl k (by simp)
    rw [List.foldl_cons, ih _ (fun j hj => hl j (by simp [hj])), syncStage, reg_setReg_other]
    unfold Reg.devStageuse at *
    omega

/-- Staged lines show in DEV_STAGEUSE at most. -/
theorem reg_dropStaged_high (owner : Nat) {o : Nat} (ho : Reg.devStageuse 4 ≤ o) : (dropStaged s owner).reg o = s.reg o := by
  rw [dropStaged, reg_foldl_syncStage_high _ ho _ (fun k hk => List.mem_range.mp hk), reg_mk]

theorem reg_setInb_other (l : List BpIn) {o : Nat} (ho : o ≠ Reg.blowpipeInstat n) : (setInb s n l).reg o = s.reg o := by
  rw [setInb, reg_setRegFld_other _ _ _ _ ho, reg_mk]

theorem ina_ne_instat : Reg.blowpipeIna n ≠ Reg.blowpipeInstat n := by
  unfold Reg.blowpipeIna Reg.blowpipeInstat
  omega

theorem reg_clearIn_ina : (clearIn s n).reg (Reg.blowpipeIna n) = s.reg (Reg.blowpipeIna n) := by
  rw [clearIn, reg_mk, reg_setInb_other _ _ _ (ina_ne_instat n), reg_dropStaged_high _ _ (by unfold Reg.devStageuse Reg.blowpipeIna; omega)]

theorem enableIn_facts : (enableIn s n).regBit (Reg.blowpipeIna n) 0 = true ∧ (enableIn s n).regFld (Reg.blowpipeInstat n) 0 32 = 0 ∧
    (enableIn s n).regBit (Reg.blowpipeInstat n) 40 = false := by
  refine ⟨?_, ?_, regBit_setRegBit_same _ _ _ (by decide)⟩
  · rw [enableIn, regBit_setRegBit_off _ _ _ _ (ina_ne_instat n), regBit_setRegFld_off _ _ _ _ _ (ina_ne_instat n),
      regBit_of_reg (reg_clearIn_ina _ n), regBit_setRegBit_same _ _ _ (by decide)]
  · rw [enableIn, regFld_setRegBit_other _ _ _ (by decide) (by decide), regFld_setRegFld_same _ _ _ (by decide), Nat.zero_mod]

theorem enableFwd_facts : (enableFwd s n).regBit (Reg.blowpipeFwda n) 0 = true ∧ sget 0 (enableFwd s n).blow.lastGen n = 0 := by
  constructor
  · rw [enableFwd, regBit_mk, regBit_setRegBit_same _ _ _ (by decide)]
  · exact sget_sput_same 0 _ n 0

theorem bitAt_zero (w : Word) : bitAt w 0 = decide (w.toNat % 2 = 1) := by
  rw [bitAt, fld, bitsOf, pow_zero, Nat.div_one, pow_one]

theorem odd_setLowest {mask : Nat} (hm : mask % 2 = 1) (v : Nat) : ((v ||| 1) &&& mask) % 2 = 1 := by
  have low : ((v ||| 1) &&& mask).testBit 0 = true := by
    rw [Nat.testBit_and, Nat.testBit_or, Nat.testBit_zero mask, hm]
    simp
  rwa [Nat.testBit_zero, decide_eq_true_eq] at low

variable {s}

/-- EN written to a disabled channel enables it. -/
theorem writeChanA_enables {off mask : Nat} (hm : mask % 2 = 1) (disabled : s.regBit off 0 = false) (enable : State → State) :
    writeChanA s off mask ((s.reg off).toNat ||| 1) enable = enable (s.setReg off (BitVec.ofNat 64 (((s.reg off).toNat ||| 1) &&& mask))) := by
  have even : ¬ (s.reg off).toNat % 2 = 1 := by rwa [State.regBit, bitAt_zero, decide_eq_false_iff_not] at disabled
  exact (if_neg even).trans (if_pos (odd_setLowest hm _))

variable {who : Ident} {chan : Fin 32}

theorem exec_fwdChannelEnable (hw : mgmt who = true) (disabled : s.regBit (Reg.blowpipeFwda chan.val) 0 = false) :
    exec (.fwdChannelEnable who chan) s = .next (enableFwd (s.setReg (Reg.blowpipeFwda chan.val)
      (BitVec.ofNat 64 (((s.reg (Reg.blowpipeFwda chan.val)).toNat ||| 1) &&& fwdaMask))) chan.val) :=
  (if_pos hw).trans (congrArg Host.Outcome.next (writeChanA_enables (by decide) disabled _))

theorem exec_inChannelEnable (hw : mgmt who = true) (disabled : s.regBit (Reg.blowpipeIna chan.val) 0 = false) :
    exec (.inChannelEnable who chan) s = .next (enableIn (s.setReg (Reg.blowpipeIna chan.val)
      (BitVec.ofNat 64 (((s.reg (Reg.blowpipeIna chan.val)).toNat ||| 1) &&& inaMask))) chan.val) :=
  (if_pos hw).trans (congrArg Host.Outcome.next (writeChanA_enables (by decide) disabled _))

end

theorem exec_blowpipeEvlogRead (s : State) :
    exec .blowpipeEvlogRead s = .next { s with readData := s.blow.log.head, blow := { s.blow with log := s.blow.log.pop } } := rfl

/-! ### The statements about ports -/

/-- Settles O22: each command by the lemma of its row. -/
theorem blowpipePorts : Obligations.BlowpipePorts := by
  refine ⟨?topo, fun s who v t => exec_blowpipeTopoWrite_stranger, ?trained, fun s port t => exec_bpTrainingTimeout, ?lost,
    fun s port t _ => exec_bpReplayLimit_few, ?replay, ?flit, ?enable, exec_blowpipeEvlogRead⟩
  case topo =>
    intro s who v t hw
    refine ⟨fun on en => ?_, fun off even => ⟨_, exec_blowpipeTopoWrite hw, ?_⟩, exec_blowpipeTopoWrite hw⟩
    · rw [exec_blowpipeTopoWrite hw, writeTopo_keeps (s := s.at t) on en]
    · rw [writeTopo_off (s := s.at t) off even]
      exact ⟨reg_setReg_same .., onlyRegs_setReg (onlyRegs_refl _ _) _ (by decide)⟩
  case trained =>
    intro s port nbr tr
    refine ⟨fun ex => ⟨_, exec_bpPortTrainingDone tr ex .all, ?_⟩, fun h ex => exec_bpPortTrainingDone tr ex (.half h),
      fun lanes ex => exec_bpPortTrainingDone_stranger tr ex lanes⟩
    obtain ⟨st, shown, valid⟩ := fields_portTrained s port.val false nbr (st := 2) (by decide)
    exact ⟨st, shown, valid, onlyRegs_portTrained s port.val 2 false nbr⟩
  case lost =>
    intro s port t up
    exact ⟨exec_bpReplayLimit_lost up, fun idle => ⟨_, exec_bpReplayLimit_lost up, retrainPort_idle (s := s.at t) idle⟩⟩
  case replay =>
    intro s port t up
    exact ⟨fun waits past => ⟨_, exec_bpFlitReplayTimeout up waits past, replayed_facts (s.at t) port.val⟩, exec_bpFlitReplayTimeout_quiet⟩
  case flit =>
    rintro s port fseq ackseq cls words packets t x y up rfl hy
    exact ⟨⟨_, exec_bpFlit_badCrc up, reg_bump_same .., onlyRegs_bump (onlyRegs_refl _ _) _ (by simp)⟩, exec_bpFlit_unordered up,
      exec_bpFlit up rfl hy⟩
  case enable =>
    intro s who chan hw
    exact ⟨fun off => ⟨_, exec_fwdChannelEnable hw off, enableFwd_facts _ chan.val⟩,
      fun off => ⟨_, exec_inChannelEnable hw off, enableIn_facts _ chan.val⟩⟩

/-- Settles O50: each command by the lemma of its row. -/
theorem blowpipePortsComplete : Obligations.BlowpipePortsComplete := by
  refine ⟨fun s who v t => exec_blowpipeTopoWrite, ?trained, fun s port t => exec_bpTrainingTimeout, fun s port t => exec_bpReplayLimit_lost,
    ?replay, fun s port fseq ackseq cls words packets t x y => exec_bpFlit, ?fwd, ?inbound, fun s => ⟨_, exec_blowpipeEvlogRead s, rfl, rfl⟩⟩
  case trained =>
    intro s port nbr tr ex
    obtain ⟨st, _, _⟩ := fields_portTrained s port.val false nbr (st := 2) (by decide)
    exact ⟨_, exec_bpPortTrainingDone tr ex .all, st⟩
  case replay =>
    intro s port t up waits past
    obtain ⟨counted, _, _, _⟩ := replayed_facts (s.at t) port.val
    exact ⟨_, exec_bpFlitReplayTimeout up waits past, counted⟩
  case fwd =>
    intro s who chan hw off
    obtain ⟨enabled, _⟩ := enableFwd_facts _ chan.val
    exact ⟨_, exec_fwdChannelEnable hw off, enabled⟩
  case inbound =>
    intro s who chan hw off
    obtain ⟨enabled, _, _⟩ := enableIn_facts _ chan.val
    exact ⟨_, exec_inChannelEnable hw off, enabled⟩

/-! ### Deliveries out (R607, R609, R610) -/

section
variable {s : State} {chan : Fin 32} {waited : Bool} {t : Nat} {d : BpOut}

theorem sendDelivery_eq (s : State) (d : BpOut) (waited : Bool) : sendDelivery s d waited =
    if waited then mapOut (sendBegin s d) d.chan d.gen (fun d => { d with held := true }) else sendBody (sendBegin s d) d := rfl

theorem exec_bpDeliveryStart (h : s.blow.out.find? (fun d => decide (d.chan = chan.val) && d.begun.isNone) = some d) :
    exec (.bpDeliveryStart chan waited t) s = .next (if waited then mapOut (sendBegin (s.at t) d) d.chan d.gen (fun d => { d with held := true })
      else sendBody (sendBegin (s.at t) d) d) := by
  change execBpDeliveryStart chan waited t s = _
  simp only [execBpDeliveryStart, State.at_blow, h, sendDelivery_eq]

theorem exec_bpBeginRepeat (h : s.blow.out.find? (fun d => decide (d.chan = chan.val) && d.held) = some d) :
    exec (.bpBeginRepeat chan waited t) s = .next (if waited then mapOut (sendBegin (s.at t) d) d.chan d.gen (fun d => { d with held := true })
      else sendBody (sendBegin (s.at t) d) d) := by
  change execBpBeginRepeat chan waited t s = _
  simp only [execBpBeginRepeat, State.at_blow, h, sendDelivery_eq]

variable {src : Fin 64} {gen : BitVec 32} {code : BitVec 16} {instat : BitVec 32}

theorem answered_at (s : State) (t src chan gen : Nat) : answered (s.at t) src chan gen = answered s src chan gen := rfl

theorem exec_bpAck (h : answered s src.val chan.val gen.toNat = some d) :
    exec (.bpAck src chan gen t) s = .next ((dropOut (s.at t) d).setRegFld (Reg.blowpipeFwdstat d.chan) 32 32 gen.toNat) := by
  change Host.Outcome.next (bpTakeAck (s.at t) src.val chan.val gen.toNat) = _
  rw [bpTakeAck, answered_at, h]

/-- A NAK of any code but that of a generation already past fails the delivery. -/
theorem exec_bpNak (h : answered s src.val chan.val gen.toNat = some d) (hc : code ≠ 0x0545#16) :
    exec (.bpNak src chan gen code instat t) s = .next (failOut (s.at t) d) := by
  have other : ¬ (code.toNat = 0x0545 ∧ newer32 instat.toNat (sget 0 (failOut (s.at t) d).blow.lastGen d.chan) = true) :=
    fun e => hc (BitVec.eq_of_toNat_eq e.1)
  change Host.Outcome.next (bpTakeNak (s.at t) src.val chan.val gen.toNat code.toNat instat.toNat) = _
  rw [bpTakeNak, answered_at, h]
  exact congrArg Host.Outcome.next (if_neg other)

theorem exec_bpWait (h : answered s src.val chan.val gen.toNat = some d) : exec (.bpWait src chan gen t) s =
    .next (mapOut (s.at t) d.chan d.gen (fun d => { d with held := true, ended := none })) := by
  change Host.Outcome.next (bpTakeWait (s.at t) src.val chan.val gen.toNat) = _
  rw [bpTakeWait, answered_at, h]

/-- An answer that concerns no delivery is dropped. -/
theorem exec_answer_unknown (h : answered s src.val chan.val gen.toNat = none) : exec (.bpAck src chan gen t) s = .next (s.at t) ∧
    exec (.bpNak src chan gen code instat t) s = .next (s.at t) ∧ exec (.bpWait src chan gen t) s = .next (s.at t) := by
  change Host.Outcome.next (bpTakeAck (s.at t) src.val chan.val gen.toNat) = _ ∧
    Host.Outcome.next (bpTakeNak (s.at t) src.val chan.val gen.toNat code.toNat instat.toNat) = _ ∧
    Host.Outcome.next (bpTakeWait (s.at t) src.val chan.val gen.toNat) = _
  simp only [bpTakeAck, bpTakeNak, bpTakeWait, answered_at, h, and_self]

theorem exec_bpFwdTimeout {e : Nat} {rest : List BpOut} (out : s.blow.out = d :: rest) (hc : d.chan = chan.val) (ended : d.ended = some e)
    (past : e + fwdTmo s chan.val ≤ max s.now t) : exec (.bpFwdTimeout chan t) s = .next (failOut (s.at t) d) := by
  have tmo : fwdTmo (s.at t) chan.val = fwdTmo s chan.val := rfl
  change execBpFwdTimeout chan t s = _
  simp only [execBpFwdTimeout, State.at_blow, out, List.find?_cons, hc, ended, tmo, at_now, past, decide_true, Bool.true_or, Bool.and_self]

end

/-! ### What an inbound channel collects (R608-R610) -/

section
variable (s : State) (n : Nat) (l : List BpIn)

@[simp] theorem mem_setInb : (setInb s n l).mem = s.mem := State.setRegFld_mem ..

@[simp] theorem inb_setInb : inb (setInb s n l) n = l := sget_sput_same [] s.blow.inb n l

@[simp] theorem sent_setInb : (setInb s n l).blow.sent = s.blow.sent := by
  rw [setInb, State.setRegFld_blow]

@[simp] theorem log_setInb : (setInb s n l).blow.log = s.blow.log := by
  rw [setInb, State.setRegFld_blow]

variable {n l} {src : Nat}

theorem collect_new (h : ∀ x ∈ l, x.src ≠ src) (f : BpIn → BpIn) : collect l src f = l ++ [f ⟨src, none, [], none, false⟩] :=
  if_neg (by simpa using h)

theorem collect_known {x : BpIn} (hx : x ∈ l) (hs : x.src = src) (f : BpIn → BpIn) :
    collect l src f = l.map (fun x => if x.src = src then f x else x) :=
  if_pos (List.any_eq_true.mpr ⟨x, hx, decide_eq_true hs⟩)

variable {s} {g : Nat}

/-- A channel collects the next generation of a source that has not yet arrived in full. -/
theorem collects_of_mem (hg : g = nextGen s n) {x : BpIn} (hx : x ∈ inb s n) (hs : x.src = src) (unfinished : x.done = false) :
    collects s n src g = true := by
  have known : (inb s n).any (fun x => decide (x.src = src)) = true := List.any_eq_true.mpr ⟨x, hx, decide_eq_true hs⟩
  have waits : (inb s n).any (fun x => decide (x.src = src) && !x.done) = true := List.any_eq_true.mpr ⟨x, hx, by simp [hs, unfinished]⟩
  simp only [collects, hg, known, waits, decide_true, if_true, Bool.and_self]

/-- Nothing is judged before the END has come. -/
theorem settleIn_noEnd {x : BpIn} (hx : (inb s n).find? (fun x => decide (x.src = src) && !x.done) = some x) (fin : x.fin = none) :
    settleIn s n src g = s := by
  unfold settleIn
  simp only [hx, fin]

section
variable {x : BpIn} {count crc : Nat} (hx : (inb s n).find? (fun x => decide (x.src = src) && !x.done) = some x) (fin : x.fin = some (count, crc))
include hx fin

/-- A delivery with its END come is judged, once its BEGIN and as many packets as COUNT says have come. -/
theorem settleIn_ended : settleIn s n src g =
    if x.began.isNone ∨ x.data.length < count then s
    else if x.data.length = count ∧ dataCrc x = crc then
      setInb s n ((inb s n).map (fun y => if y.src = src then { y with done := true } else y))
    else abandon (sendNak s n src g 0x0547) n g := by
  unfold settleIn
  simp only [hx, fin]

theorem settleIn_waits (h : x.began = none ∨ x.data.length < count) : settleIn s n src g = s :=
  (settleIn_ended hx fin).trans (if_pos (h.imp_left Option.isNone_iff_eq_none.mpr))

theorem settleIn_arrived (begun : x.began.isSome = true) (full : x.data.length = count) (good : dataCrc x = crc) :
    settleIn s n src g = setInb s n ((inb s n).map (fun y => if y.src = src then { y with done := true } else y)) :=
  (settleIn_ended hx fin).trans ((if_neg (by rintro (h | h) <;> simp_all)).trans (if_pos ⟨full, good⟩))

theorem settleIn_abandons (begun : x.began.isSome = true) (bad : count < x.data.length ∨ x.data.length = count ∧ dataCrc x ≠ crc) :
    settleIn s n src g = abandon (sendNak s n src g 0x0547) n g := by
  refine (settleIn_ended hx fin).trans ((if_neg ?_).trans (if_neg ?_))
  · rintro (absent | short)
    · simp_all
    · omega
  · rintro ⟨full, good⟩
    obtain long | ⟨_, differs⟩ := bad
    · omega
    · exact differs good

end

end

/-- An END noted at the source's deliveries. -/
def noteEnd (src count crc : Nat) (y : BpIn) : BpIn := if y.src = src then { y with fin := some (count, crc) } else y

theorem find_noteEnd {l : List BpIn} {src count crc : Nat} {x : BpIn} (h : l.find? (fun x => decide (x.src = src) && !x.done) = some x) :
    (l.map (noteEnd src count crc)).find? (fun x => decide (x.src = src) && !x.done) = some { x with fin := some (count, crc) } := by
  have same : (fun x : BpIn => decide (x.src = src) && !x.done) ∘ noteEnd src count crc = fun x => decide (x.src = src) && !x.done := by
    funext y
    by_cases hy : y.src = src <;> simp [noteEnd, hy]
  have found := List.find?_some h
  rw [Bool.and_eq_true, decide_eq_true_eq] at found
  rw [List.find?_map, same, h, Option.map_some, noteEnd, if_pos found.1]

/-- The state with a source's delivery arrived in full at its END. -/
def endArrived (s : State) (n src count crc : Nat) : State :=
  let noted := setInb s n ((inb s n).map (noteEnd src count crc))
  setInb noted n ((inb noted n).map (fun y => if y.src = src then { y with done := true } else y))

theorem endArrived_facts (s : State) (n src count crc : Nat) :
    inb (endArrived s n src count crc) n =
      (inb s n).map (fun y => if y.src = src then { y with fin := some (count, crc), done := true } else y) ∧
    (endArrived s n src count crc).mem = s.mem ∧ (endArrived s n src count crc).blow.sent = s.blow.sent := by
  unfold endArrived
  refine ⟨?_, by rw [mem_setInb, mem_setInb], by rw [sent_setInb, sent_setInb]⟩
  rw [inb_setInb, inb_setInb, List.map_map]
  congr 1
  funext y
  by_cases hy : y.src = src <;> simp [noteEnd, hy]

/-! ### Generations in (R608-R610) -/

section
variable {s s1 : State} {src : Fin 64} {chan : Fin 32} {gen count crc : BitVec 32} {packet : BpData} {t : Nat}

/-- A packet for a disabled channel draws the NAK 0x0544. -/
theorem exec_packet_disabled (off : s.regBit (Reg.blowpipeIna chan.val) 0 = false) :
    exec (.bpBegin src chan gen t) s = .next (sendNak (s.at t) chan.val src.val gen.toNat 0x0544) ∧
    exec (.bpData src chan gen packet t) s = .next (sendNak (s.at t) chan.val src.val gen.toNat 0x0544) ∧
    exec (.bpEnd src chan gen count crc t) s = .next (sendNak (s.at t) chan.val src.val gen.toNat 0x0544) := by
  have disabled : (!(s.at t).regBit (Reg.blowpipeIna chan.val) 0) = true := by rw [regBit_at, off, Bool.not_false]
  exact ⟨congrArg Host.Outcome.next (if_pos disabled), congrArg Host.Outcome.next (if_pos disabled), congrArg Host.Outcome.next (if_pos disabled)⟩

/-- The state with the next generation no longer waiting. -/
def waitEnded (s : State) (n g : Nat) : State :=
  { s with blow := { s.blow with waits := s.blow.waits.filter (fun w => !(decide (w.1 = n) && decide (w.2.1 = g))) } }

/-- The state with a source's BEGIN taken. -/
def begunIn (s : State) (n src g : Nat) : State :=
  setInb (waitEnded s n g) n (inb s n ++ [⟨src, some s.now, [], none, false⟩])

/-- A source's BEGIN of the next generation is taken. -/
theorem bpTakeBegin_next {n src g : Nat} (on : s.regBit (Reg.blowpipeIna n) 0 = true) (synced : s.regBit (Reg.blowpipeInstat n) 40 = true)
    (hg : g = nextGen s n) (fresh : ∀ x ∈ inb s n, x.src ≠ src) : bpTakeBegin s src n g = begunIn s n src g := by
  have begins : (inb s n).any (fun x => decide (x.src = src) && x.began.isSome) = false := by
    rw [List.any_eq_false]
    intro x hx
    simp [fresh x hx]
  have joined : (inb (begunIn s n src g) n).find? (fun x => decide (x.src = src) && !x.done) = some ⟨src, some s.now, [], none, false⟩ := by
    have absent : (inb s n).find? (fun x => decide (x.src = src) && !x.done) = none := List.find?_eq_none.mpr (fun x hx => by simp [fresh x hx])
    rw [begunIn, inb_setInb, List.find?_append, absent, Option.none_or]
    simp
  have rest : settleIn (begunIn s n src g) n src g = begunIn s n src g := settleIn_noEnd joined rfl
  have collected : collect (inb (waitEnded s n g) n) src (fun x => { x with began := some s.now }) =
      inb s n ++ [⟨src, some s.now, [], none, false⟩] := collect_new fresh _
  unfold bpTakeBegin
  simp only [on, synced, Bool.not_true, Bool.false_eq_true, if_false, if_true, if_pos hg, begins]
  rw [← waitEnded, collected]
  exact rest

theorem exec_bpBegin (on : s.regBit (Reg.blowpipeIna chan.val) 0 = true) (synced : s.regBit (Reg.blowpipeInstat chan.val) 40 = true)
    (hg : gen.toNat = nextGen s chan.val) (fresh : ∀ x ∈ inb s chan.val, x.src ≠ src.val) :
    exec (.bpBegin src chan gen t) s = .next (begunIn (s.at t) chan.val src.val gen.toNat) :=
  congrArg Host.Outcome.next (bpTakeBegin_next (s := s.at t) on synced hg fresh)

theorem begunIn_facts (s : State) (n src g : Nat) : inb (begunIn s n src g) n = inb s n ++ [⟨src, some s.now, [], none, false⟩] ∧
    (begunIn s n src g).mem = s.mem ∧ (begunIn s n src g).blow.sent = s.blow.sent ∧ (begunIn s n src g).blow.log = s.blow.log :=
  ⟨inb_setInb .., mem_setInb .., sent_setInb .., log_setInb ..⟩

/-- A packet in range, of a delivery that is being collected, is staged and joins it. -/
theorem exec_bpData {lo : Nat} (on : s.regBit (Reg.blowpipeIna chan.val) 0 = true) (hg : gen.toNat = nextGen s chan.val)
    (known : ∃ x ∈ inb s chan.val, x.src = src.val ∧ x.done = false) (hlo : lo = s.regFld (Reg.blowpipeIna chan.val) 12 36 * 4096)
    (above : lo ≤ packet.addr.toNat)
    (below : packet.addr.toNat + packet.bytes.length ≤ lo + s.regFld (Reg.blowpipeInb chan.val) 0 24 * 4096)
    (line : packet.addr.toNat % 128 + packet.bytes.length ≤ 128) (staged : stagePacket (s.at t) chan.val packet packet.addr.toNat = (s1, none)) :
    exec (.bpData src chan gen packet t) s = .next (settleIn (orWait (s.at t) (setInb s1 chan.val (collect (inb s1 chan.val) src.val (fun y =>
      { y with data := y.data ++ [(packet.addr.toNat, packet.crc.toNat)] })))) chan.val src.val gen.toNat) := by
  obtain ⟨x, hx, hs, unfinished⟩ := known
  have takes : collects (s.at t) chan.val src.val gen.toNat = true := collects_of_mem (s := s.at t) hg hx hs unfinished
  have inside : ¬ (packet.addr.toNat < s.regFld (Reg.blowpipeIna chan.val) 12 36 * 4096 ∨
      s.regFld (Reg.blowpipeIna chan.val) 12 36 * 4096 + s.regFld (Reg.blowpipeInb chan.val) 0 24 * 4096 < packet.addr.toNat + packet.bytes.length ∨
      packet.addr.toNat % 128 + packet.bytes.length > 128) := by
    rw [← hlo]
    omega
  change Host.Outcome.next (bpTakeData (s.at t) src.val chan.val gen.toNat packet) = _
  refine congrArg Host.Outcome.next ((if_neg (by rw [regBit_at, on]; decide)).trans ((if_neg (by rw [takes]; decide)).trans ((if_neg inside).trans ?_)))
  rw [staged]

section
variable {x : BpIn} (hx : (inb s chan.val).find? (fun x => decide (x.src = src.val) && !x.done) = some x)
include hx

/-- The END of a delivery that is being collected is noted, and the delivery judged. -/
theorem exec_bpEnd (on : s.regBit (Reg.blowpipeIna chan.val) 0 = true) (hg : gen.toNat = nextGen s chan.val) :
    exec (.bpEnd src chan gen count crc t) s = .next (settleIn (setInb (s.at t) chan.val ((inb s chan.val).map
      (noteEnd src.val count.toNat crc.toNat))) chan.val src.val gen.toNat) := by
  have found := List.find?_some hx
  have member := List.mem_of_find?_eq_some hx
  rw [Bool.and_eq_true, decide_eq_true_eq, Bool.not_eq_true'] at found
  have takes : collects (s.at t) chan.val src.val gen.toNat = true := collects_of_mem (s := s.at t) hg member found.1 found.2
  change Host.Outcome.next (bpTakeEnd (s.at t) src.val chan.val gen.toNat count.toNat crc.toNat) = _
  simp only [bpTakeEnd, regBit_at, on, takes, Bool.not_true, Bool.false_eq_true, if_false, inb_at, collect_known member found.1]
  rfl

/-- The state with the END noted still collects the delivery. -/
theorem find_setInb_noteEnd : (inb (setInb (s.at t) chan.val ((inb s chan.val).map (noteEnd src.val count.toNat crc.toNat))) chan.val).find?
    (fun x => decide (x.src = src.val) && !x.done) = some { x with fin := some (count.toNat, crc.toNat) } := by
  rw [inb_setInb]
  exact find_noteEnd hx

/-- An END that comes before the BEGIN or a packet waits for them. -/
theorem exec_bpEnd_waits (on : s.regBit (Reg.blowpipeIna chan.val) 0 = true) (hg : gen.toNat = nextGen s chan.val)
    (waits : x.began = none ∨ x.data.length < count.toNat) : exec (.bpEnd src chan gen count crc t) s =
      .next (setInb (s.at t) chan.val ((inb s chan.val).map (noteEnd src.val count.toNat crc.toNat))) := by
  rw [exec_bpEnd hx on hg, settleIn_waits (find_setInb_noteEnd hx) rfl waits]

/-- An END that completes a good delivery marks it as arrived. -/
theorem exec_bpEnd_arrived (on : s.regBit (Reg.blowpipeIna chan.val) 0 = true) (hg : gen.toNat = nextGen s chan.val)
    (begun : x.began.isSome = true) (full : x.data.length = count.toNat) (good : dataCrc x = crc.toNat) :
    exec (.bpEnd src chan gen count crc t) s = .next (endArrived (s.at t) chan.val src.val count.toNat crc.toNat) := by
  rw [exec_bpEnd hx on hg, settleIn_arrived (find_setInb_noteEnd hx) rfl begun full good]
  rfl

/-- An END whose COUNT or CRC does not match abandons the generation. -/
theorem exec_bpEnd_abandons (on : s.regBit (Reg.blowpipeIna chan.val) 0 = true) (hg : gen.toNat = nextGen s chan.val)
    (begun : x.began.isSome = true) (bad : count.toNat < x.data.length ∨ x.data.length = count.toNat ∧ dataCrc x ≠ crc.toNat) :
    exec (.bpEnd src chan gen count crc t) s = .next (abandon (sendNak (setInb (s.at t) chan.val (collect (inb s chan.val) src.val
      (fun y => { y with fin := some (count.toNat, crc.toNat) }))) chan.val src.val gen.toNat 0x0547) chan.val gen.toNat) := by
  have found := List.find?_some hx
  rw [Bool.and_eq_true, decide_eq_true_eq] at found
  rw [exec_bpEnd hx on hg, settleIn_abandons (find_setInb_noteEnd hx) rfl begun bad,
    collect_known (List.mem_of_find?_eq_some hx) found.1]
  rfl

end

end

section
variable {s s1 s2 : State} {chan : Fin 32}

/-- The answers to every source of a generation that has arrived in full. -/
def ackAll (s : State) (n : Nat) (s2 : State) : State :=
  ((inb s n).filter (fun (x : BpIn) => x.done)).foldl (fun s' x => bpSend s' (envelope s' 4 x.src n (nextGen s n) 0 0)) s2

theorem exec_inboundCommit {flip : FlipAt} (on : s.regBit (Reg.blowpipeIna chan.val) 0 = true)
    (full : inNsrc s chan.val ≤ ((inb s chan.val).filter (fun (x : BpIn) => x.done)).length) (free : closing s (inPart s chan.val) = false)
    (h1 : s1 = setInb (poisonRuns (s.at flip.t) (flipStaged ((s.at flip.t).bump Reg.devCommitidx 1) flip.ecc (inOwner chan.val))) chan.val [])
    (h2 : s2 = s1.setRegFld (Reg.blowpipeInstat chan.val) 0 32 (nextGen s chan.val)) (quiet : s2.regBit (Reg.blowpipeIna chan.val) 1 = false) :
    exec (.inboundCommit chan flip) s = .next (ackAll s chan.val s2) := by
  subst h1 h2
  have commits : ¬ ((!(s.at flip.t).regBit (Reg.blowpipeIna chan.val) 0) = true ∨
      ((inb (s.at flip.t) chan.val).filter (fun (x : BpIn) => x.done)).length < inNsrc (s.at flip.t) chan.val ∨
      closing (s.at flip.t) (inPart (s.at flip.t) chan.val) = true) := by
    rw [regBit_at, on, inb_at, inNsrc_at, inPart_at, closing_at, free]
    simpa using full
  refine (if_neg commits).trans ?_
  rw [nextGen_at] at *
  rw [if_neg (ne_true_of_eq_false quiet)]
  rfl

theorem reg_logBp_other (s : State) (code : Nat) {o : Nat} (ho : o ≠ Reg.blowpipeStat) : (s.logBp code).reg o = s.reg o := by
  have shown : (s.logBp code).regs = (if s.blow.log.full 64 then s.setRegBit Reg.blowpipeStat 1 true else s).regs := by
    unfold State.logBp
    dsimp only
    rw [apply_ite State.regs, State.raise_regs, ite_self]
    cases s.blow.log.full 64 <;> rfl
  rw [State.reg, shown]
  split
  · exact reg_setRegBit_other s 1 true ho
  · rfl

/-- A packet sent shows in STAT at most: EVOVF, where it has no route and the log is full. -/
theorem reg_bpSend_other (s : State) (m : BpMsg) {o : Nat} (ho : o ≠ Reg.blowpipeStat) : (bpSend s m).reg o = s.reg o := by
  unfold bpSend
  split
  · rw [reg_mk]
  · split
    · exact reg_logBp_other s _ ho
    · rfl

theorem nextGen_nakTo (s : State) (n src gen code : Nat) : nextGen (nakTo s n src gen code) n = nextGen s n := by
  have kept : (nakTo s n src gen code).regFld (Reg.blowpipeInstat n) 0 32 = s.regFld (Reg.blowpipeInstat n) 0 32 :=
    regFld_of_reg (reg_bpSend_other s _ (by unfold Reg.blowpipeInstat Reg.blowpipeStat; omega)) 0 32
  rw [nextGen, inGen, kept, nextGen, inGen]

/-- The NAK to every source names the generation that was being collected. -/
theorem foldl_nakTo_nextGen (n g : Nat) (l : List BpIn) (s : State) (hg : nextGen s n = g) :
    l.foldl (fun s x => nakTo s n x.src (nextGen s n) 0x0549) s = l.foldl (fun s x => nakTo s n x.src g 0x0549) s := by
  induction l generalizing s with
  | nil => rfl
  | cons x l ih => rw [List.foldl_cons, List.foldl_cons, hg, ih _ ((nextGen_nakTo ..).trans hg)]

theorem exec_bpGenTimeout {t : Nat} (on : s.regBit (Reg.blowpipeIna chan.val) 0 = true)
    (part : ((inb s chan.val).filter (fun (x : BpIn) => x.done)).length < inNsrc s chan.val)
    (late : ∃ x ∈ inb s chan.val, ∃ b, x.began = some b ∧ b + inTmo s chan.val ≤ max s.now t) :
    exec (.bpGenTimeout chan t) s = .next (abandon ((inb s chan.val).foldl
      (fun s' x => nakTo s' chan.val x.src (nextGen s chan.val) 0x0549) (s.at t)) chan.val (nextGen s chan.val)) := by
  have past : (inb s chan.val).any (fun x => x.began.any (fun b => decide (b + inTmo s chan.val ≤ max s.now t))) = true := by
    obtain ⟨x, hx, b, began, due⟩ := late
    exact List.any_eq_true.mpr ⟨x, hx, by rw [began]; exact decide_eq_true due⟩
  change execBpGenTimeout chan t s = _
  simp only [execBpGenTimeout, regBit_at, on, inb_at, inNsrc_at, inTmo_at, at_now, nextGen_at,
    foldl_nakTo_nextGen chan.val (nextGen s chan.val) _ (s.at t) rfl]
  exact (if_neg (not_or_intro (by decide) (fun full => absurd (of_decide_eq_true full) (Nat.not_le.mpr part)))).trans (if_pos past)

end

/-! ### The statements about deliveries -/

/-- Settles O23: each command by the lemma of its row. -/
theorem blowpipeDeliveries : Obligations.BlowpipeDeliveries := by
  refine ⟨fun s chan waited t d => exec_bpDeliveryStart, fun s chan waited t d => exec_bpBeginRepeat,
    fun s src chan gen code instat t d h => ⟨exec_bpAck h, exec_bpNak h, exec_bpWait h⟩,
    fun s src chan gen code instat t => exec_answer_unknown, fun s chan t e d rest => exec_bpFwdTimeout,
    fun s src chan gen count crc packet t => exec_packet_disabled, ?begins, fun s s1 src chan gen packet t lo => exec_bpData, ?ends,
    fun s s1 s2 chan flip => exec_inboundCommit, fun s chan t => exec_bpGenTimeout⟩
  case begins =>
    intro s src chan gen t on synced hg fresh
    exact ⟨_, exec_bpBegin on synced hg fresh, begunIn_facts (s.at t) chan.val src.val gen.toNat⟩
  case ends =>
    rintro s src chan gen count crc t x f on hg hx rfl
    exact ⟨fun begun full good => ⟨_, exec_bpEnd_arrived hx on hg begun full good,
        endArrived_facts (s.at t) chan.val src.val count.toNat crc.toNat⟩,
      fun waits => ⟨_, exec_bpEnd_waits hx on hg waits, inb_setInb .., mem_setInb .., sent_setInb ..⟩, exec_bpEnd_abandons hx on hg⟩

/-- Settles O51: each command by the lemma of its row. -/
theorem generationsComplete : Obligations.GenerationsComplete := by
  refine ⟨fun s chan t d => exec_bpDeliveryStart (waited := false), fun s chan t d => exec_bpBeginRepeat (waited := false),
    fun s src chan gen t d => exec_bpAck, fun s src chan gen code instat t d => exec_bpNak, fun s src chan gen t d => exec_bpWait,
    fun s chan t e d rest => exec_bpFwdTimeout, ?begins, fun s s1 src chan gen packet t lo => exec_bpData, ?ends,
    fun s s1 s2 chan flip => exec_inboundCommit, fun s chan t => exec_bpGenTimeout⟩
  case begins =>
    intro s src chan gen t on synced hg fresh
    exact ⟨_, exec_bpBegin on synced hg fresh, inb_setInb ..⟩
  case ends =>
    intro s src chan gen count crc t x on hg hx begun full good
    exact ⟨_, exec_bpEnd_arrived hx on hg begun full good, (endArrived_facts (s.at t) chan.val src.val count.toNat crc.toNat).1⟩

end Sys2Proof.Machine
end

section
/-! SUPPORT. Power, heat and reheat (18_power_heat_and_aging.md): the power loop, sensors, coolant, parking, reheat and aging. -/

namespace Sys2Proof.Machine

/-! ### Power (R620, R621) -/

section
variable (s : State) (t : Nat)

/-- The latest samples and the energy once a sample of package power has come. -/
def sampleKept (power : Nat) : State :=
  { s with therm := { s.therm with samples := (power :: s.therm.samples).take 1000, energy := s.therm.energy + power } }

/-- The state with a sample kept and shown in THERM_PWR and THERM_ENERGY. -/
def powerSampled (power : Nat) : State :=
  let s1 := sampleKept s power
  let p1 := meanOf s1.therm.samples 10
  let p10 := meanOf s1.therm.samples 1000
  ((s1.setRegFld Reg.thermPwr 0 16 (p1.1 / p1.2)).setRegFld Reg.thermPwr 32 16 (p10.1 / p10.2)).setReg Reg.thermEnergy
    (BitVec.ofNat 64 (s1.therm.energy * 625 / 1000000))

theorem exec_powerSample (power : BitVec 16) : exec (.powerSample power t) s = .next (powerSampled (s.at t) power.toNat) := rfl

theorem onlyRegs_powerSampled (power : Nat) : OnlyRegs (sampleKept s power) (powerSampled s power) [Reg.thermPwr, Reg.thermEnergy] :=
  onlyRegs_setReg (onlyRegs_setRegFld (onlyRegs_setRegFld (onlyRegs_refl _ _) _ _ _ (by decide)) _ _ _ (by decide)) _ (by decide)

theorem powerSampled_facts (power : Nat) : (powerSampled s power).therm.samples = (power :: s.therm.samples).take 1000 ∧
    (powerSampled s power).therm.energy = s.therm.energy + power ∧
    (∀ o, o ≠ Reg.thermPwr → o ≠ Reg.thermEnergy → (powerSampled s power).reg o = s.reg o) ∧
    powerSampled s power = { s with
      regs := (powerSampled s power).regs
      therm := { s.therm with samples := (powerSampled s power).therm.samples, energy := (powerSampled s power).therm.energy } } := by
  obtain ⟨regs, rest⟩ := onlyRegs_powerSampled s power
  have therm : (powerSampled s power).therm = (sampleKept s power).therm := by rw [rest]
  refine ⟨by rw [therm, sampleKept], by rw [therm, sampleKept], fun o hp he => (regs o (by simp [hp, he])).trans (reg_mk ..), ?_⟩
  rw [therm]
  exact rest

theorem exec_powerUpdate : exec (.powerUpdate t) s = .next (powerUpdate (s.at t)) := rfl

variable {s}

theorem paceAllowed_full (h : s.pace = 64) : paceAllowed s = s := if_neg (by simp [h])

/-- Inside its band at the top of the supply the power loop leaves VP and the pace alone. -/
theorem powerRow_inBand (top : s.vp = s.vcap) (below : (meanOf s.therm.samples 10).1 ≤ s.plim * (16 * max 1 (meanOf s.therm.samples 10).2))
    (above : (s.plim - s.physt) * (16 * max 1 (meanOf s.therm.samples 10).2) ≤ (meanOf s.therm.samples 10).1) : powerRow s = s := by
  have far : ¬ 105 * s.plim * (16 * max 1 (meanOf s.therm.samples 10).2) < 100 * (meanOf s.therm.samples 10).1 := by
    rw [Nat.mul_assoc]
    omega
  unfold powerRow
  dsimp only
  rw [if_neg (fun h => far h.1), if_neg (fun h => absurd h.1 (Nat.not_lt.mpr below)), if_neg (fun h => absurd h.1 (Nat.not_lt.mpr below)),
    if_neg (by omega), if_neg (fun h => absurd h.1 (Nat.not_lt.mpr above)), if_neg (fun h => absurd h.1 (Nat.not_lt.mpr above))]

/-- Above 105% of the limit VP goes down by 25 mV, to 700 mV at the least. -/
theorem powerRow_far (far : 105 * s.plim * (16 * max 1 (meanOf s.therm.samples 10).2) < 100 * (meanOf s.therm.samples 10).1) (up : 700 < s.vp) :
    powerRow s = (s.setRegFld Reg.thermPwr 16 10 (max 700 (s.vp - 25))).setRegBit Reg.thermStat 3 true := if_pos ⟨far, up⟩

theorem exec_powerUpdate_inBand (top : s.vp = s.vcap)
    (below : (meanOf s.therm.samples 10).1 ≤ s.plim * (16 * max 1 (meanOf s.therm.samples 10).2))
    (above : (s.plim - s.physt) * (16 * max 1 (meanOf s.therm.samples 10).2) ≤ (meanOf s.therm.samples 10).1) (full : s.pace = 64) :
    exec (.powerUpdate t) s = .next (setAllVolts (limitedShown (s.at t))) := by
  rw [exec_powerUpdate, powerUpdate, paceAllowed_full (s := s.at t) full, powerRow_inBand (s := s.at t) top below above]

theorem exec_powerUpdate_far (far : 105 * s.plim * (16 * max 1 (meanOf s.therm.samples 10).2) < 100 * (meanOf s.therm.samples 10).1)
    (up : 700 < s.vp) (full : s.pace = 64) : exec (.powerUpdate t) s =
      .next (setAllVolts (limitedShown (((s.at t).setRegFld Reg.thermPwr 16 10 (max 700 (s.vp - 25))).setRegBit Reg.thermStat 3 true))) := by
  rw [exec_powerUpdate, powerUpdate, paceAllowed_full (s := s.at t) full, powerRow_far (s := s.at t) far up]
  rfl

end

/-! ### Sensors (R625, R626) -/

/-- Reading a two's complement value and writing it again gives the bits that stood there. -/
theorem wrapInt_signedOf {v n : Nat} (h : v < 2 ^ n) : wrapInt (signedOf v n) n = v := by
  unfold wrapInt signedOf
  dsimp only
  rw [Nat.mod_eq_of_lt h]
  split
  · rw [← Int.natCast_emod, Nat.mod_eq_of_lt h, Int.toNat_natCast]
  · rw [Int.sub_emod_right, ← Int.natCast_emod, Nat.mod_eq_of_lt h, Int.toNat_natCast]

section
variable (s : State) (i : Nat) (v : BitVec 13)

theorem showReading_facts : (showReading s i (some (signedOf v.toNat 13))).regBit (Reg.thermSens i) 13 = true ∧
    (showReading s i (some (signedOf v.toNat 13))).regFld (Reg.thermSens i) 0 13 = v.toNat ∧
    ∀ o, o ≠ Reg.thermSens i → (showReading s i (some (signedOf v.toNat 13))).reg o = s.reg o := by
  refine ⟨regBit_setRegBit_same _ _ _ (by decide), ?_, fun o ho => ?_⟩
  · rw [showReading, regFld_setRegBit_other _ _ _ (by decide) (by decide), regFld_setRegFld_same _ _ _ (by decide), wrapInt_signedOf v.isLt,
      Nat.mod_eq_of_lt v.isLt]
  · rw [showReading, reg_setRegBit_other _ _ _ ho, reg_setRegFld_other _ _ _ _ ho]

variable {s v} {i : Fin 512} {t : Nat} {s1 : State} {r : Int}

/-- A reading of a sensor that has not failed is shown, judged, and taken into its unit. -/
theorem exec_sensorRead (works : s.regBit (Reg.thermSens i.val) 14 = false) (hr : r = signedOf v.toNat 13)
    (h1 : s1 = sensorStreaks (showReading (s.at t) i.val (some r)) i.val (some r)) : exec (.sensorRead i (some v) t) s =
      .next (unitUpdate s1 (unitOfSensor i.val) (if s1.regBit (Reg.thermSens i.val) 14 then none else some r)) := by
  subst hr h1
  exact if_neg (by rw [regBit_at, works]; decide)

end

/-! ### The inlet temperature (R630) -/

section
variable (s : State)

/-- The inlet temperature shown, with its time kept. -/
def coolantKept (temp : BitVec 12) : State :=
  let s1 := (s.setRegFld Reg.thermCoolant 0 12 temp.toNat).setRegBit Reg.thermCoolant 12 true
  { s1 with therm := { s1.therm with coolantAt := some s.now } }.setRegBit Reg.thermStat 2 false

theorem coolantKept_facts (temp : BitVec 12) : (coolantKept s temp).regFld Reg.thermCoolant 0 12 = temp.toNat ∧
    (coolantKept s temp).regBit Reg.thermCoolant 12 = true ∧ (coolantKept s temp).therm.coolantAt = some s.now := by
  refine ⟨?_, ?_, by rw [coolantKept, State.setRegBit_therm]⟩
  · rw [coolantKept, regFld_setRegBit_off _ _ _ _ _ (by decide), regFld_mk, regFld_setRegBit_other _ _ _ (by decide) (by decide),
      regFld_setRegFld_same _ _ _ (by decide), Nat.mod_eq_of_lt temp.isLt]
  · rw [coolantKept, regBit_setRegBit_off _ _ _ _ (by decide), regBit_mk, regBit_setRegBit_same _ _ _ (by decide)]

theorem reg_coolantKept_other (temp : BitVec 12) {o : Nat} (hc : o ≠ Reg.thermCoolant) (hs : o ≠ Reg.thermStat) :
    (coolantKept s temp).reg o = s.reg o := by
  rw [coolantKept, reg_setRegBit_other _ _ _ hs, reg_mk, reg_setRegBit_other _ _ _ hc, reg_setRegFld_other _ _ _ _ hc]

theorem coolMax_coolantKept (temp : BitVec 12) : (coolantKept s temp).coolMax = s.coolMax :=
  congrArg (clampNat 40 70) (regFld_of_reg (reg_coolantKept_other s temp (by decide) (by decide)) 32 8)

theorem therm_logTherm_coolant (code unit : Nat) : (s.logTherm code unit).therm.coolantAt = s.therm.coolantAt := by
  unfold State.logTherm
  dsimp only
  split <;> split <;> rfl

/-- The judgement of the inlet temperature shows in THERM_STAT. -/
theorem judgeCoolant_keeps (v : Int) : (∀ o, o ≠ Reg.thermStat → (judgeCoolant s v).reg o = s.reg o) ∧
    (judgeCoolant s v).therm.coolantAt = s.therm.coolantAt := by
  unfold judgeCoolant
  split
  · split
    · exact ⟨fun _ _ => rfl, rfl⟩
    · exact ⟨fun o ho => (reg_logTherm_other _ _ _ ho).trans (reg_setRegBit_other _ _ _ ho),
        (therm_logTherm_coolant ..).trans (by rw [State.setRegBit_therm])⟩
  · split
    · exact ⟨fun o ho => reg_setRegBit_other _ _ _ ho, by rw [State.setRegBit_therm]⟩
    · exact ⟨fun _ _ => rfl, rfl⟩

/-- Two degrees below COOLMAX, COOLHIGH clears. -/
theorem judgeCoolant_cool {v : Int} (h : v ≤ ((16 * (s.coolMax - 2) : Nat) : Int)) : judgeCoolant s v = s.setRegBit Reg.thermStat 1 false :=
  (if_neg (by omega)).trans (if_pos h)

variable {s} {who : Ident} {temp : BitVec 12} {t : Nat}

theorem exec_coolantWrite (hw : mgmt who = true) :
    exec (.coolantWrite who temp t) s = .next (judgeCoolant (coolantKept (s.at t) temp) (signedOf temp.toNat 12)) := if_neg (by simp [hw])

theorem exec_coolantStale (past : s.therm.coolantAt.getD 0 + 2000000000 ≤ t) : exec (.coolantStale t) s =
    .next (if ((s.at t).setRegBit Reg.thermCoolant 12 false).regBit Reg.thermStat 2 then (s.at t).setRegBit Reg.thermCoolant 12 false
      else (((s.at t).setRegBit Reg.thermCoolant 12 false).setRegBit Reg.thermStat 2 true).logTherm 0x0A08 0xFF) := by
  refine if_neg ?_
  rw [State.at_therm, at_now]
  omega

end

/-! ### Parking (R624) -/

section
variable {s : State} {c : Fin 96}

theorem exec_corePark (park : parkBit s c.val = true) (idle : s.coreSt c.val = .idle) : exec (.corePark c) s = .next (parkCore s c.val) := by
  refine (if_neg (by simp [park])).trans ?_
  rw [idle]

theorem exec_coreUnpark (park : parkBit s c.val = false) (off : s.coreSt c.val = .off) : exec (.coreUnpark c) s = .next (enterReset s c.val) :=
  (if_neg (ne_true_of_eq_false park)).trans (if_pos off)

end

/-! ### Reheat (R636-R641) -/

theorem coreSt_setCoreSt_same (s : State) (c : Nat) (x : CoreSt) : (s.setCoreSt c x).coreSt c = x := by
  rw [State.coreSt, State.setCoreSt, regFld_setRegFld_same _ _ _ (by decide)]
  cases x <;> rfl

section
variable {s : State} {c : Fin 96} {t : Nat}

theorem exec_reheatPatternDone (pass : Bool) (h : s.coreSt c.val = .reheat) : exec (.reheatPatternDone c pass t) s =
    .next (if pass then patternPass (s.at t) c.val else patternFail (s.at t) c.val) := if_neg (not_not_intro h)

/-- A pattern that passes moves the pointer on, and passing the last one completes the pass. -/
theorem patternPass_advances {c : Nat} (h : s.regFld (Reg.thermRh c) 0 10 < 1023) :
    patternPass s c = s.setRegFld (Reg.thermRh c) 0 10 (s.regFld (Reg.thermRh c) 0 10 + 1) := by
  unfold patternPass
  dsimp only
  rw [if_neg (Nat.ne_of_lt h), Nat.mod_eq_of_lt (by omega)]

theorem exec_reheatSliceEnd (h : s.coreSt c.val = .reheat) :
    exec (.reheatSliceEnd c) s = .next (endSlice (s.at (sget 0 s.therm.sliceEnds c.val)) c.val) := if_neg (not_not_intro h)

theorem endSlice_facts (s : State) (c : Nat) : (endSlice s c).coreSt c = .idle ∧ c ∉ (endSlice s c).therm.slices ∧ (endSlice s c).now = s.now ∧
    ∀ o, o ≠ Reg.coreState c → (endSlice s c).reg o = s.reg o := by
  refine ⟨coreSt_setCoreSt_same .., ?_, ?_, fun o ho => ?_⟩
  · rw [endSlice, State.setCoreSt, State.setRegFld_therm, dropSlice]
    simp
  · rw [endSlice, State.setCoreSt, State.setRegFld_now, dropSlice]
  · rw [endSlice, State.setCoreSt, reg_setRegFld_other _ _ _ _ ho, dropSlice, reg_mk]

/-- A slice aborted: where the abort meets a pattern's end, a failure decides, and a pattern that passed counts. -/
theorem exec_reheatAbort (h : s.coreSt c.val = .reheat) : exec (.reheatAbort c none t) s = .next (abortSlice (s.at t) c.val) ∧
    exec (.reheatAbort c (some true) t) s = .next ((endSlice (patternPass (s.at t) c.val) c.val).bump (Reg.benchRhabort (c.val / 8)) 1) ∧
    exec (.reheatAbort c (some false) t) s = .next (patternFail (s.at t) c.val) :=
  ⟨if_neg (not_not_intro h), if_neg (not_not_intro h), if_neg (not_not_intro h)⟩

/-- A pass that is overdue withdraws the core from class S. -/
theorem exec_reheatOverdue (inTime : s.regBit (Reg.thermRh c.val) 10 = false)
    (past : (s.reg (Reg.thermRht c.val)).toNat + s.rhlim * 1000000000 ≤ t) : exec (.reheatOverdue c t) s =
      .next ((((s.at t).setRegBit (Reg.thermRh c.val) 10 true).setSclass c.val false).logTherm 0x0A0D c.val) := by
  have due : ¬ (s.at t).now < ((s.at t).reg (Reg.thermRht c.val)).toNat + (s.at t).rhlim * 1000000000 := by
    have lim : (s.at t).rhlim = s.rhlim := rfl
    rw [lim, reg_at, at_now]
    omega
  exact (if_neg due).trans (if_neg (ne_true_of_eq_false inTime))

theorem overdue_facts (s : State) (c unit : Nat) (code : Nat) :
    (((s.setRegBit (Reg.thermRh c) 10 true).setSclass c false).logTherm code unit).regBit (Reg.thermRh c) 10 = true ∧
    (((s.setRegBit (Reg.thermRh c) 10 true).setSclass c false).logTherm code unit).sclass c = false := by
  have apart : Reg.thermRh c ≠ Reg.thermStat ∧ Reg.coreState c ≠ Reg.thermStat ∧ Reg.thermRh c ≠ Reg.coreState c := by
    unfold Reg.thermRh Reg.thermStat Reg.coreState
    omega
  obtain ⟨rh, core, apart⟩ := apart
  constructor
  · rw [regBit_of_reg (reg_logTherm_other _ _ _ rh), State.setSclass, regBit_setRegBit_off _ _ _ _ apart, regBit_setRegBit_same _ _ _ (by decide)]
  · rw [State.sclass, regBit_of_reg (reg_logTherm_other _ _ _ core), State.setSclass, regBit_setRegBit_same _ _ _ (by decide)]

end

/-! ### Aging and the event log (R634, R643) -/

/-- Every core's CORE_STEPMIN read, with the conditions watched for the next second. -/
def ageSampled (s : State) : State :=
  let s1 := allCores.foldl ageOne s
  { s1 with therm := { s1.therm with ageGood := allCores.filter (ageCondition s1) } }

theorem ageSampled_facts (s : State) : (ageSampled s).therm.ageGood = allCores.filter (ageCondition (allCores.foldl ageOne s)) ∧
    (ageSampled s).regs = (allCores.foldl ageOne s).regs := by
  simp only [ageSampled, and_self]

theorem exec_ageSample {s : State} {t : Nat} (on : s.regBit Reg.thermAgectl 0 = true) : exec (.ageSample t) s = .next (ageSampled (s.at t)) :=
  if_neg (by simp [on])

theorem exec_thermEvlogRead (s : State) :
    exec .thermEvlogRead s = .next { s with readData := s.therm.log.head, therm := { s.therm with log := s.therm.log.pop } } := rfl

/-! ### The statements -/

/-- Settles O2: each command by the lemma of its row. -/
theorem heatCommands : Obligations.HeatCommands := by
  refine ⟨fun s power t => ⟨_, exec_powerSample s t power, powerSampled_facts (s.at t) power.toNat⟩,
    fun s t top _ below above => exec_powerUpdate_inBand t top below above, ?sensor, ?coolant, ?stale, fun s c => exec_corePark,
    fun s c => exec_coreUnpark, ?pattern, ?slice, fun s c t h => (exec_reheatAbort h).1, fun s c t => exec_reheatOverdue,
    fun s t on => ⟨_, exec_ageSample on, ageSampled_facts (s.at t)⟩, fun s => ⟨_, exec_thermEvlogRead s, rfl, rfl, rfl⟩,
    fun s t => exec_powerUpdate_far t⟩
  case sensor =>
    rintro s s1 s2 i v t works rfl h2 fine
    obtain ⟨valid, shown, others⟩ := showReading_facts (s.at t) i.val v
    refine ⟨valid, shown, others, (exec_sensorRead works rfl h2).trans ?_⟩
    rw [if_neg (ne_true_of_eq_false fine)]
  case coolant =>
    intro s who temp t hw cool
    obtain ⟨shown, valid, at'⟩ := coolantKept_facts (s.at t) temp
    have judged : judgeCoolant (coolantKept (s.at t) temp) (signedOf temp.toNat 12) =
        (coolantKept (s.at t) temp).setRegBit Reg.thermStat 1 false := judgeCoolant_cool _ (by rwa [coolMax_coolantKept])
    refine ⟨_, (exec_coolantWrite hw).trans (congrArg Host.Outcome.next judged), ?_, ?_, regBit_setRegBit_same _ _ _ (by decide), ?_, ?_, ?_⟩
    · rw [regFld_setRegBit_off _ _ _ _ _ (by decide), shown]
    · rw [regBit_setRegBit_off _ _ _ _ (by decide), valid]
    · rw [regBit_setRegBit_other _ _ _ (by decide) (by decide), coolantKept, regBit_setRegBit_same _ _ _ (by decide)]
    · rw [State.setRegBit_therm, at', at_now]
    · exact fun o hc hs => (reg_setRegBit_other _ _ _ hs).trans (reg_coolantKept_other (s.at t) temp hc hs)
  case stale =>
    intro s t fresh past
    refine (exec_coolantStale past).trans ?_
    rw [regBit_setRegBit_off _ _ _ _ (by decide), regBit_at, fresh, if_neg Bool.false_ne_true]
  case pattern =>
    intro s c t h low
    refine ⟨_, exec_reheatPatternDone true h, ?_⟩
    rw [if_pos rfl, patternPass_advances (s := s.at t) low]
    refine ⟨?_, onlyRegs_setRegFld (onlyRegs_refl _ _) _ _ _ (by simp)⟩
    rw [regFld_setRegFld_same _ _ _ (by decide), regFld_at, Nat.mod_eq_of_lt (by omega)]
  case slice =>
    intro s c h
    exact ⟨_, exec_reheatSliceEnd h, endSlice_facts _ c.val⟩

/-- Settles O57: each command by the lemma of its row. -/
theorem heatCommandsComplete : Obligations.HeatCommandsComplete := by
  refine ⟨?sample, exec_powerUpdate, fun s s1 i v r t => exec_sensorRead, ?coolant, ?stale, fun s c => exec_corePark, fun s c => exec_coreUnpark,
    fun s c pass t => exec_reheatPatternDone pass, fun s c => exec_reheatSliceEnd, fun s c t => exec_reheatAbort,
    fun s c t inTime past => ⟨_, exec_reheatOverdue inTime past, overdue_facts ..⟩,
    fun s t on => ⟨_, exec_ageSample on, (ageSampled_facts (s.at t)).2⟩,
    fun s => ⟨_, exec_thermEvlogRead s, rfl, rfl⟩⟩
  case sample =>
    intro s power t
    obtain ⟨samples, energy, _, _⟩ := powerSampled_facts (s.at t) power.toNat
    exact ⟨_, exec_powerSample s t power, samples, energy⟩
  case coolant =>
    intro s who temp t hw
    obtain ⟨shown, valid, at'⟩ := coolantKept_facts (s.at t) temp
    obtain ⟨regs, therm⟩ := judgeCoolant_keeps (coolantKept (s.at t) temp) (signedOf temp.toNat 12)
    have kept := regs Reg.thermCoolant (by decide)
    exact ⟨_, exec_coolantWrite hw, (regFld_of_reg kept ..).trans shown, (regBit_of_reg kept _).trans valid, therm.trans at'⟩
  case stale =>
    intro s t past
    refine ⟨_, exec_coolantStale past, ?_⟩
    split
    · next stale => exact ⟨stale, regBit_setRegBit_same _ _ _ (by decide)⟩
    · rw [regBit_logTherm_stat _ _ _ (by decide), regBit_of_reg (reg_logTherm_other _ _ _ (by decide)), regBit_setRegBit_same _ _ _ (by decide),
        regBit_setRegBit_off _ _ _ _ (by decide), regBit_setRegBit_same _ _ _ (by decide)]
      exact ⟨rfl, rfl⟩

end Sys2Proof.Machine
end
